-- ==== Sys2Proof/Word.lean ====
section
/-! DEFINITION. The word and byte types of the block, and the sparse tables its state is made of. -/

namespace Sys2Proof

/-- A register of the block: 32 bits (02 R44). -/
abbrev Word := BitVec 32

/-- A byte of a frame, of a payload or of memory. -/
abbrev Byte := BitVec 8

/-- A sparse table: entries at rising indices; an index not listed holds the table's default. -/
abbrev Assoc (α : Type) := List (Nat × α)

end Sys2Proof
end

