-- ==== Sys2Proof/Syntax.lean ====
section
/-! DEFINITION. The commands of the block (spec/opcode_table.json): what each row carries. Everything a command takes
from outside (bytes on a line, bytes of host memory, readings of a sensor, an error met by a transfer) is an operand. -/

namespace Sys2Proof

/-- A command ring entry as the command engine hands it to a subject (02 R63): the ring it came from, the header's
fields, the two operands and the payload units' bytes. -/
structure Cmd where
  ring : Nat
  len : Nat
  fence : Bool
  noCmpl : Bool
  intr : Bool
  tag : Nat
  cq : Nat
  pos : Nat
  arg0 : Nat
  arg1 : Nat
  payload : List Byte
  deriving DecidableEq, Repr

/-- What a read or write of host memory answers (02 R87): bytes, an error of PCIe, or the loss of the host path. -/
inductive HostData where
  | bytes (b : List Byte)
  | hostError
  | chainLost
  deriving DecidableEq, Repr

/-- A table whose stored bits can fail parity or SEC-DED (07 R236, 08 R260, 09 R293, R294, 10 R311). -/
inductive UpTable where
  | lpm | nh | ecmp | ecmpMember | exm | cam | act | polb | repl | replMember | policer | flow | edit | mirror | encap | tmpl
  deriving DecidableEq, Repr

/-- An error that a read meets: the table, which stored version of it (a position in the table's list of versions; a member
position, policer, counter or CAM slot), the CAM's slice copy, and whether it is a data error of the whole bucket. -/
structure Upset where
  table : UpTable
  index : Nat
  copy : Nat
  data : Bool
  deriving DecidableEq, Repr

/-- A FlexE overhead frame of one 100G instance as it is received (05 R162, R169): its number in the multiframe, which of its eight
overhead blocks pass the pattern, whether the OMF transition is in place and the CRC-16 good, the three C bits, CR, CA, RPF, group and
PHY number, whether the PHY map received so far agrees, the entries of slot `index` of calendars A and B (frames 0 to 19), and the skew
of the group measured, in ns. -/
structure OhFrame where
  index : Nat
  blocks : List Bool
  omfOk : Bool
  crcOk : Bool
  c : Nat
  cr : Bool
  ca : Bool
  rpf : Bool
  groupNum : Nat
  phyNum : Nat
  mapOk : Bool
  calA : Nat
  calB : Nat
  skewNs : Nat
  deriving DecidableEq, Repr

/-- What a chain frame carries (02 R43, R51, R52, R53, R56, R57, 21 R589). -/
inductive ChainMsg where
  /-- A write in the chain window, a doorbell among them: the host's master ID, the offset, the length and the value. -/
  | write (master off len v : Nat)
  /-- A read of `n` registers in the chain window of a function, and its answer. -/
  | read (pf off n : Nat)
  | answer (bytes : List Byte)
  /-- A DMA write or read of the chained device. -/
  | hostWrite (addr : Nat) (bytes : List Byte)
  | hostRead (addr n : Nat)
  /-- The message of a local vector. -/
  | message (v : Nat)
  /-- The acknowledgement of a frame: source, destination, sequence number. -/
  | ack (src dst seq : Nat)
  /-- The active host has released the wellhead role. -/
  | released
  /-- The sender has become the active wellhead. -/
  | takeover
  /-- The endpoint of the wellhead has had a host-path reset. -/
  | hostReset
  deriving DecidableEq, Repr

/-- A chain frame: source and destination chain IDs, and the sequence number of the pair (02 R53). -/
structure ChainFrame where
  src : Nat
  dst : Nat
  seq : Nat
  msg : ChainMsg
  deriving DecidableEq, Repr

/-- A device that a discovery token passes (02 R49): chain ID, hops eastward and westward, and its role. -/
structure ChainDev where
  id : Nat
  east : Nat
  west : Nat
  role : Nat
  deriving DecidableEq, Repr

/-- What Priming meets (21 R592, R593): the straps at the deassertion of POR_N, the duration of each step in ms, the functions of the
configuration record as VEC_BASE and VEC_COUNT (0: not enabled), whether TIME_REFCLK is present, whether both directory copies are invalid,
the banks whose firmware does not report its services, the FE and TM stacks that fail training, and the die-to-die modules that fail
calibration. -/
structure PrimeRun where
  chain : Nat
  hold : Bool
  ms : List Nat
  pfs : List (Nat × Nat)
  noRef : Bool
  noDirectory : Bool
  noServices : List Nat
  feBad : List Nat
  tmBad : List Nat
  modulesBad : List Nat
  deriving DecidableEq, Repr

/-- The commands and events of the block: one constructor per row of the command table. -/
inductive Instr where
  /-- The start of a frame arrives at a line port or FlexE client and is checked, stamped and offered to the hold buffer. (R130) -/
  | frameReceive (link : Nat) (bytes : List Byte)
  /-- The end of a frame passes the receive crossing, and the deferred policer and flow-statistics updates use its length. (R385) -/
  | frameEnd (link ending : Nat) (evict : Option Nat)
  /-- The slot arbiter grants an ingress slot to a waiting first, recirculated or injected pass. (R24) -/
  | slotGrant (slice idle : Nat)
  /-- The probe credit covers the frozen passes, their probes are issued and the freeze ends. (R224) -/
  | freezeEnd (slice cycles : Nat)
  /-- An ingress pass completes its fixed 480 cycles with parse, lookups and action decision. (R37) -/
  | ingressPassEnd (slice : Nat) (upsets : List Upset) (evict : Option Nat)
  /-- A recirculation record enters the FIFO once the frame's end has passed the crossing. (R302) -/
  | recircEnqueue (slice : Nat)
  /-- A lookup probe not answered within 300 ns is delivered as an uncorrectable data error. (R503) -/
  | probeTimeout (u : Upset)
  /-- The replication engine takes a flood packet and makes one copy per member. (R312) -/
  | replication (slice : Nat)
  /-- A die-to-die flit fails its CRC and is replayed. (R334) -/
  | d2dFlitError (module failed : Nat)
  /-- A packet reaching the TM die is admitted to the Sump or Cistern or dropped. (R327) -/
  | admission (input : Nat) (ecc : Bool)
  /-- The XOFF frame is repeated every REFRESH_US while the account stays high. (R333) -/
  | pfcRefresh (port : Nat)
  /-- A SPILLED queue short of Sump bytes starts reading its segment head. (R324) -/
  | refillStart (q : Nat)
  /-- A refill read completes and its packets enter the refill pool. (R324) -/
  | refillReadDone (q : Nat) (bad : List Bool)
  /-- A port node descends its hierarchy and releases the head of a queue. (R359) -/
  | schedulerDecision (node ue cell : Nat)
  /-- The express arbiter releases the earliest-deadline candidate. (R389) -/
  | expressRelease (node ue cell : Nat)
  /-- The last byte of a packet is read from the Sump and its charge is removed. (R329) -/
  | packetDeparture (id : Nat)
  /-- The local switch computes its input-output matching for one cell time. (R436) -/
  | switchMatching
  /-- The egress half edits a packet arriving from the TM die. (R310) -/
  | egressPass (slice : Nat) (upsets : List Upset)
  /-- The port grants a frame from its FIFOs at a start opportunity. (R395) -/
  | portFrameGrant (link cut : Nat)
  /-- A gate-list entry interval ends and the next gate states take effect. (R399) -/
  | gateTransition (port : Nat)
  /-- A received PAUSE or PFC frame holds the port node or queues. (R374) -/
  | pauseFrameReceived (port : Nat) (pfc : Bool) (prios : Nat) (quanta : List Nat)
  /-- The MAC pause timer expires and the hold ends. (R374) -/
  | pauseTimerExpiry (port cls : Nat)
  /-- A configuration request is answered with retry status until the configuration record is loaded. (R42) -/
  | pcieConfigRequest
  /-- A chain frame is delivered in sequence order or discarded as a duplicate. (R53) -/
  | chainFrameReceive (east : Bool) (f : ChainFrame)
  /-- A chain link that lost alignment is declared down and traffic reroutes. (R55) -/
  | chainLinkDown (east closed : Bool) (found : List ChainDev)
  /-- A chain link returns, discovery runs and traffic returns to the shorter direction. (R55) -/
  | chainLinkUp (east closed : Bool) (found : List ChainDev)
  /-- A read to a cut-off device completes after 50 µs with all ones. (R56) -/
  | chainReadTimeout (dev : Nat)
  /-- A cut-off device's host reads end after 100 µs and its command engine halts. (R56) -/
  | chainLost
  /-- A write to IGL_TAKEOVER makes the standby the active wellhead when permitted. (R57) -/
  | iglTakeover (m v : Nat)
  /-- The active host releases the wellhead role for takeover. (R57) -/
  | iglRelease (m v : Nat)
  /-- A write to a command ring PI is checked and accepted as a doorbell. (R59) -/
  | cmdDoorbell (m ring v : Nat)
  /-- A write to a packet ring PI is checked, or stops the ring. (R74) -/
  | pktRingDoorbell (m ring v : Nat)
  /-- Fetched command units return and their headers are checked. (R67) -/
  | commandFetchReturn (ring : Nat) (bytes : List Byte)
  /-- The engine starts the next startable command once a completion slot is reserved. (R72) -/
  | commandStart
  /-- Software advances a completion queue's consumer index. (R61) -/
  | cqCiWrite (m q v : Nat)
  /-- Software advances the DMA record queue's consumer index. (R61) -/
  | dmaRqCiWrite (m v : Nat)
  /-- The command-engine reset waits for commands in execution and zeroes the indices. (R70) -/
  | ceReset (m v : Nat)
  /-- COAL_TIME expires and the completion queue's vector fires. (R73) -/
  | coalesceTimer (q : Nat)
  /-- A write clears a ring or queue enable and stops new fetches. (R75) -/
  | ringDisable (m r v : Nat)
  /-- Outstanding fetches and writes end and the enable reads 0. (R75) -/
  | ringDisableDone (r : Nat)
  /-- A BASE_LO write restarts a stopped packet ring with indices 0. (R74) -/
  | ringRestart (m ring v : Nat)
  /-- A host-path packet is written into receive descriptors or dropped for buffers. (R76) -/
  | rxDelivery (ring : Nat) (descs : List (List Byte))
  /-- A transmit packet is read from its descriptors and injected into a slice or queue. (R77) -/
  | txDescriptorFetch (ring : Nat) (descs bufs : List (List Byte))
  /-- Enabling a buffer pool checks its layout and builds its free list. (R78) -/
  | poolEnable (m p v : Nat)
  /-- A requester asks a pool for a bucket and takes the head or waits. (R80) -/
  | bucketAlloc (requester size : Nat)
  /-- A freed bucket goes to the lowest waiting requester or the list head. (R80) -/
  | bucketFree (p a : Nat)
  /-- A DMA transfer ends and its record is due. (R82) -/
  | dmaTransferDone (ch : Nat) (a b : List Byte) (stop : Option (Nat × Nat))
  /-- A DMA record is written once the record queue has room. (R82) -/
  | dmaRecordWrite
  /-- An internal requester withdraws its transfer. (R85) -/
  | dmaWithdraw (ch : Nat) (a b : List Byte) (bytes : Nat)
  /-- Command 0x0100 does nothing. (R66) -/
  | nop (c : Cmd)
  /-- Command 0x0101 returns ARG0. (R66) -/
  | echo (c : Cmd)
  /-- Command 0x0102 reads one register. (R66) -/
  | regRead (c : Cmd)
  /-- Command 0x0103 applies register write pairs in order. (R66) -/
  | regWrite (c : Cmd)
  /-- DMA command 0x0201 copies bytes between host and device spaces. (R83) -/
  | copy (c : Cmd)
  /-- DMA command 0x0202 fills memory with a pattern. (R83) -/
  | fill (c : Cmd)
  /-- DMA command 0x0203 compares two ranges. (R83) -/
  | compare (c : Cmd)
  /-- DMA command 0x0204 withdraws a host transfer on a channel. (R85) -/
  | abort (c : Cmd) (a b : List Byte) (bytes : Nat)
  /-- A write to an ownership register changes a block's owner. (R89) -/
  | glbOwnWrite (m b v : Nat)
  /-- A register write with no behaviour of its own passes the access checks and is applied. (R603) -/
  | registerWrite (m : Nat) (window : Option Nat) (off len v : Nat)
  /-- Command 0x0301 opens a build. (R95) -/
  | genOpen (c : Cmd)
  /-- Command 0x0302 checks and arms a commit instant. (R107) -/
  | genCommit (c : Cmd) (late : List Nat)
  /-- A retirement ends a waiting commit, which repeats its checks. (R109) -/
  | genCommitRetry
  /-- WAIT_US expires without a retirement and the commit completes GEN_LIMIT. (R109) -/
  | genCommitWaitExpiry
  /-- Command 0x0303 withdraws a pending commit. (R111) -/
  | genCancel (c : Cmd)
  /-- Command 0x0304 abandons the build and walks its journal. (R112) -/
  | genAbandon (c : Cmd)
  /-- Command 0x0305 returns generation state. (R122) -/
  | genQuery (c : Cmd)
  /-- Command 0x0306 changes a table's shadow margin. (R105) -/
  | genSetMargin (c : Cmd)
  /-- Device time reaches the commit instant and the PENDING generation becomes ACTIVE. (R95) -/
  | genActivation
  /-- A DRAINING generation with no packets retires and a journal walk starts. (R117) -/
  | genRetirement
  /-- A journal walk finishes and the index becomes FREE. (R118) -/
  | journalWalkEnd
  /-- A DRAINING generation exceeds GEN_DRAIN_LIMIT and DRAIN_SLOW is set. (R120) -/
  | drainSlowExpiry (g : Nat)
  /-- A write of GEN_DRAIN_LIMIT applies at once to every DRAINING generation. (R120) -/
  | drainLimitWrite (m v : Nat)
  /-- A write setting PRT_PORT_CFG.EN checks the layout and calibrates the port. (R126) -/
  | portEnable (m port v : Nat)
  /-- Clearing a port's EN takes it to DISABLED and applies its down action. (R140) -/
  | portDisable (m port v : Nat)
  /-- Setting PRT_GRP_CTRL.EN starts calibration of the group's lanes. (R142) -/
  | groupEnable (m group v : Nat)
  /-- Lane calibration ends and enabled ports start link bring-up. (R142) -/
  | groupCalDone (group : Nat)
  /-- Clearing PRT_GRP_CTRL.EN disables every port of the group. (R140) -/
  | groupDisable (m group v : Nat)
  /-- Lock, fault or HI_SER changes the port's good state and starts a count. (R136) -/
  | linkConditionChange (port : Nat) (lock fec lf rf hiSer : Bool) (cwCorrected cwUncorrectable symCorrected : Nat)
  /-- The link stays not good for DOWN_DEBOUNCE_US and is declared down. (R136) -/
  | linkDownDeclared (port : Nat)
  /-- The link stays good for UP_HOLD_MS, is declared up and enters READMIT. (R141) -/
  | linkUpDeclared (port : Nat)
  /-- The hold-off expires, the port enters DOWN and FLUSH or KEEP applies. (R138) -/
  | holdoffExpiry (link : Nat)
  /-- The port flush ends and FLUSH_DONE is set. (R138) -/
  | portFlushDone (link : Nat)
  /-- Re-admission completes and the port becomes UP. (R141) -/
  | readmitDone (link : Nat)
  /-- A write of PRT_PORT_CAL.GO starts recalibration. (R146) -/
  | portRecalibrate (m port v : Nat)
  /-- A port calibration ends, or fails, and CAL_DONE is set. (R146) -/
  | portCalDone (port : Nat) (converged : Bool) (rxInt txInt : Nat)
  /-- Setting FXE_GRP_CFG.EN checks and enables a FlexE group. (R150) -/
  | fxeGroupEnable (m f v : Nat)
  /-- Setting FXE_CLIENT_CFG.EN checks and enables a client MAC. (R155) -/
  | fxeClientEnable (m c v : Nat)
  /-- Setting FXE_CLIENT_PROT.EN makes a client protected. (R175) -/
  | fxeProtEnable (m c v : Nat)
  /-- A FlexE overhead frame is received and its fields processed. (R162) -/
  | overheadFrameReceive (port inst : Nat) (o : OhFrame)
  /-- A raw defect lasts SET or CLR time and its integrated failure changes. (R171) -/
  | defectIntegrationExpiry (port d : Nat)
  /-- A management-channel packet arrives and enters its FIFO or is dropped. (R163) -/
  | mgmtPacketReceive (f channel : Nat) (bytes : List Byte)
  /-- Command 0x0A01 writes standby calendar entries. (R179) -/
  | fxeCalWrite (c : Cmd)
  /-- Command 0x0A02 reads eight calendar entries. (R179) -/
  | fxeCalRead (c : Cmd)
  /-- Command 0x0A03 starts a transmit calendar switch with CR. (R164) -/
  | fxeCalSwitch (c : Cmd)
  /-- The switch multiframe is reached and the new page is used. (R164) -/
  | calSwitchExecute (f : Nat)
  /-- A switch not reaching step 5 within TIMEOUT_MS is abandoned. (R165) -/
  | calSwitchTimeout (f : Nat)
  /-- Command 0x0A04 copies the page in use into the standby page. (R179) -/
  | fxeCalCopy (c : Cmd)
  /-- Command 0x0A05 places a protection request. (R176) -/
  | fxeProtOp (c : Cmd)
  /-- Command 0x0A06 sends a management-channel packet. (R163) -/
  | fxeMgmtSend (c : Cmd) (d : HostData)
  /-- Command 0x0A07 collects a management-channel packet. (R163) -/
  | fxeMgmtRecv (c : Cmd)
  /-- A client stays not good for the debounce time and is declared down. (R174) -/
  | clientDownDeclared (c : Nat)
  /-- A client stays good for UP_HOLD_MS and is declared up. (R174) -/
  | clientUpDeclared (c : Nat)
  /-- Signal fail of a path lasts HOLDOFF and counts for the selector. (R176) -/
  | sfHoldoffExpiry (c path : Nat)
  /-- WTR_S passes with working free of signal fail and the selector reverts. (R176) -/
  | waitToRestoreExpiry (c : Nat)
  /-- Command 0x0320 loads and validates microcode in the build's bank. (R205) -/
  | parLoad (c : Cmd) (d : HostData)
  /-- Command 0x0321 writes a bank's bytes to host memory. (R205) -/
  | parRead (c : Cmd)
  /-- A write of PAR_TRACE_CTRL.ARM arms a parse capture. (R207) -/
  | traceArm (m v : Nat)
  /-- Command 0x0401 inserts a prefix. (R232) -/
  | lpmInsert (c : Cmd)
  /-- Command 0x0402 replaces a prefix. (R232) -/
  | lpmReplace (c : Cmd)
  /-- Command 0x0403 deletes a prefix. (R232) -/
  | lpmDelete (c : Cmd)
  /-- Command 0x0404 reads a prefix version. (R232) -/
  | lpmRead (c : Cmd) (upsets : List Upset)
  /-- Command 0x0405 performs a lookup in a generation. (R232) -/
  | lpmLookup (c : Cmd) (upsets : List Upset)
  /-- Command 0x0406 applies route records from host memory. (R234) -/
  | lpmBulk (c : Cmd) (d : HostData) (got : List Byte)
  /-- Command 0x0410 inserts, replaces or deletes a next hop. (R235) -/
  | nhSet (c : Cmd)
  /-- Command 0x0411 reads a next hop. (R235) -/
  | nhRead (c : Cmd)
  /-- Command 0x0412 writes an ECMP group and member block. (R235) -/
  | ecmpSet (c : Cmd) (d : HostData)
  /-- Command 0x0413 reads an ECMP group. (R235) -/
  | ecmpRead (c : Cmd)
  /-- Firmware doubles a length table bucket by bucket. (R216) -/
  | tableDoubling (family len : Nat)
  /-- Firmware moves an overflow entry back to its freed bucket position. (R216) -/
  | overflowReturn (n : Nat)
  /-- Firmware rebuilds an overloaded prefix-length filter region. (R219) -/
  | filterRebuild (family len : Nat)
  /-- Firmware frees a table slot that failed parity within 1 ms. (R236) -/
  | parityRepair (upsets : List Upset)
  /-- A write of LPM_SHADOW_CTRL.GO starts a shadow compare. (R237) -/
  | lpmShadowGo (m v : Nat)
  /-- A write of STOP ends the walk after the current record. (R238) -/
  | lpmShadowStop (m v : Nat)
  /-- A shadow walk ends or stops and SHADOW_DONE is set. (R237) -/
  | lpmShadowDone (d : HostData)
  /-- Command 0x0501 inserts an exact-match entry. (R263) -/
  | exmInsert (c : Cmd) (upsets : List Upset)
  /-- Command 0x0502 replaces an exact-match entry. (R263) -/
  | exmReplace (c : Cmd) (upsets : List Upset)
  /-- Command 0x0503 deletes an exact-match entry. (R263) -/
  | exmDelete (c : Cmd) (upsets : List Upset)
  /-- Command 0x0504 reads an exact-match entry. (R263) -/
  | exmRead (c : Cmd) (upsets : List Upset)
  /-- Command 0x0505 removes a learned entry. (R263) -/
  | exmUnlearn (c : Cmd) (upsets : List Upset)
  /-- Command 0x0506 returns the next visible entry from a cursor. (R263) -/
  | exmNext (c : Cmd) (upsets : List Upset)
  /-- Command 0x0507 writes matching entries to host memory. (R263) -/
  | exmSearch (c : Cmd) (upsets : List Upset)
  /-- Command 0x0508 removes learned entries of a port. (R258) -/
  | exmFlushPort (c : Cmd)
  /-- The learn engine processes a LEARN request at the head of its bucket order. (R254) -/
  | learnProcess
  /-- The learn engine handles a MOVE request against its move candidate. (R255) -/
  | moveProcess
  /-- A move candidate without increment for MOVE_WINDOW_MS is removed. (R255) -/
  | moveWindowExpiry (key : Nat)
  /-- An aging sweep starts and visits learned entries. (R256) -/
  | agingSweep (late : Bool)
  /-- One microsecond after pending removal HIT is checked and the entry removed or kept. (R256) -/
  | ageRemovalCheck (cursor : Nat)
  /-- Window operation READ. (R265) -/
  | exmWinRead (m v : Nat)
  /-- Window operation INSERT. (R265) -/
  | exmWinInsert (m v : Nat)
  /-- Window operation REPLACE. (R265) -/
  | exmWinReplace (m v : Nat)
  /-- Window operation DELETE. (R265) -/
  | exmWinDelete (m v : Nat)
  /-- Window operation NEXT. (R265) -/
  | exmWinNext (m v : Nat)
  /-- Window operation UNLEARN. (R265) -/
  | exmWinUnlearn (m v : Nat)
  /-- Window operation FLUSH_PORT. (R265) -/
  | exmWinFlushPort (m v : Nat)
  /-- A write of EXM_SHADOW_CTRL.GO starts an exact-match shadow compare. (R261) -/
  | exmShadowGo (m v : Nat)
  /-- A write of STOP ends the exact-match walk. (R261) -/
  | exmShadowStop (m v : Nat)
  /-- The exact-match shadow walk ends. (R261) -/
  | exmShadowDone (d : HostData)
  /-- Command 0x0601 inserts a CAM rule. (R270) -/
  | camInsert (c : Cmd)
  /-- Command 0x0602 replaces a CAM rule. (R270) -/
  | camReplace (c : Cmd)
  /-- Command 0x0603 deletes a CAM rule. (R270) -/
  | camDelete (c : Cmd)
  /-- Command 0x0604 reads a CAM slot. (R296) -/
  | camRead (c : Cmd)
  /-- Command 0x0605 shifts a block of CAM slots by one. (R272) -/
  | camMove (c : Cmd)
  /-- The last slot of a move has moved and MOVE_DONE is set. (R273) -/
  | camMoveDone
  /-- Command 0x0606 writes the CAM occupancy bitmap. (R296) -/
  | camOcc (c : Cmd)
  /-- Command 0x0607 searches the CAM with a key. (R296) -/
  | camSearch (c : Cmd)
  /-- Firmware rewrites a failing CAM copy or frees the slot. (R293) -/
  | camParityRepair (upsets : List Upset)
  /-- A write of CAM_SHADOW_CTRL.GO starts a CAM shadow compare. (R295) -/
  | camShadowGo (m v : Nat)
  /-- A write of STOP ends the CAM walk. (R295) -/
  | camShadowStop (m v : Nat)
  /-- The CAM shadow walk ends. (R295) -/
  | camShadowDone (d : HostData)
  /-- Command 0x0701 writes an action set. (R297) -/
  | actWrite (c : Cmd)
  /-- Command 0x0702 reads an action set. (R297) -/
  | actRead (c : Cmd)
  /-- Command 0x0703 writes a policer binding. (R297) -/
  | polbWrite (c : Cmd)
  /-- Command 0x0704 reads a policer binding. (R297) -/
  | polbRead (c : Cmd)
  /-- Command 0x0705 configures a policer and sets its tokens. (R289) -/
  | polSet (c : Cmd)
  /-- Command 0x0706 reads a policer. (R297) -/
  | polRead (c : Cmd)
  /-- Command 0x0707 writes a replication group. (R297) -/
  | replWrite (c : Cmd) (d : HostData)
  /-- Command 0x0708 reads a replication group. (R297) -/
  | replRead (c : Cmd)
  /-- Command 0x0709 reads, and optionally clears, a counter pair. (R292) -/
  | fstRead (c : Cmd)
  /-- Command 0x070A reads a range of counter pairs to host memory. (R292) -/
  | fstBulk (c : Cmd)
  /-- The periodic sweep flushes cached increments to HBM. (R291) -/
  | fstFlushSweep (upsets : List Upset)
  /-- Command 0x0711 writes an edit program. (R316) -/
  | editWrite (c : Cmd)
  /-- Command 0x0712 reads an edit program. (R316) -/
  | editRead (c : Cmd)
  /-- Command 0x0713 writes a mirror session. (R316) -/
  | mirrorWrite (c : Cmd)
  /-- Command 0x0714 reads a mirror session. (R316) -/
  | mirrorRead (c : Cmd)
  /-- Command 0x0715 writes an encapsulation entry. (R316) -/
  | encapWrite (c : Cmd)
  /-- Command 0x0716 reads an encapsulation entry. (R316) -/
  | encapRead (c : Cmd)
  /-- Command 0x0717 writes a header template. (R316) -/
  | tmplWrite (c : Cmd)
  /-- Command 0x0718 reads a header template. (R316) -/
  | tmplRead (c : Cmd)
  /-- Command 0x0801 sets queue admission entries. (R348) -/
  | bufQadmSet (c : Cmd)
  /-- Command 0x0802 reads one queue's admission state. (R348) -/
  | bufQRead (c : Cmd)
  /-- Command 0x0803 writes an admission profile. (R330) -/
  | bufProfSet (c : Cmd)
  /-- Command 0x0804 reads an admission profile. (R348) -/
  | bufProfRead (c : Cmd)
  /-- Command 0x0805 sets a port-class, port, class or PFC limit. (R348) -/
  | bufLimitSet (c : Cmd)
  /-- Command 0x0805 with READ returns a limit. (R348) -/
  | bufLimitRead (c : Cmd)
  /-- Command 0x0806 flushes a queue range or a port's queues. (R337) -/
  | bufFlush (c : Cmd)
  /-- Every packet a flush covers is dropped and FLUSH_DONE is set. (R338) -/
  | flushComplete
  /-- BUF_FENCE OP 0 releases a region to the governor. (R348) -/
  | bufFenceRelease (c : Cmd)
  /-- BUF_FENCE OP 1 fences and holds a region. (R341) -/
  | bufFenceHold (c : Cmd)
  /-- BUF_FENCE OP 2 unfences and holds a region or stack. (R342) -/
  | bufUnfenceHold (c : Cmd)
  /-- BUF_FENCE OP 3 takes a stack out by plan. (R344) -/
  | bufStackOut (c : Cmd)
  /-- A FENCING region holds no page in use and enters PARKED. (R341) -/
  | regionParked (region : Nat)
  /-- A region still FENCING after WAIT_MS returns to ACTIVE. (R341) -/
  | fenceTimeout (region : Nat)
  /-- A WAKING region becomes ACTIVE. (R342) -/
  | regionWakeDone (region : Nat)
  /-- Free pages fall below the threshold and hardware unfences a region. (R343) -/
  | autoUnfence
  /-- The sweep frees pages of lost segments by epoch. (R336) -/
  | headerSweep (lost : List (Nat × Nat))
  /-- A write of BUF_PEAK_CLR.GO clears the peak register. (R346) -/
  | bufPeakClr (m v : Nat)
  /-- Command 0x0810 attaches or changes a queue. (R377) -/
  | qAttach (c : Cmd)
  /-- Command 0x0811 detaches an empty queue. (R377) -/
  | qDetach (c : Cmd)
  /-- Q_DETACH with FLUSH flushes and then detaches a queue. (R377) -/
  | qDetachFlush (c : Cmd)
  /-- Command 0x0812 reads a queue descriptor. (R377) -/
  | qRead (c : Cmd)
  /-- Command 0x0813 writes a destination map entry. (R357) -/
  | qMapSet (c : Cmd)
  /-- Q_MAP_SET with READ returns the map entry. (R377) -/
  | qMapRead (c : Cmd)
  /-- Command 0x0901 attaches or changes a scheduler node. (R378) -/
  | nodeSet (c : Cmd)
  /-- NODE_SET with DETACH detaches a childless node. (R356) -/
  | nodeDetach (c : Cmd)
  /-- Command 0x0902 reads a node. (R378) -/
  | nodeRead (c : Cmd)
  /-- Command 0x0903 configures a shaper and resets its tokens. (R368) -/
  | schShaperSet (c : Cmd)
  /-- Command 0x0904 reads a shaper. (R378) -/
  | schShaperRead (c : Cmd)
  /-- Command 0x0905 configures a TM-side policer. (R378) -/
  | tmpolSet (c : Cmd)
  /-- Command 0x0906 reads a TM-side policer. (R378) -/
  | tmpolRead (c : Cmd)
  /-- A write of SHP_SEL loads the staged registers from the selected shaper. (R366) -/
  | shpSelWrite (m v : Nat)
  /-- A write of SHP_CFG applies the staged configuration and resets tokens. (R368) -/
  | shpCfgWrite (m v : Nat)
  /-- Command 0x0920 writes a deadline profile. (R410) -/
  | dlnProfSet (c : Cmd)
  /-- DLN_PROF_SET with READ returns a profile. (R410) -/
  | dlnProfRead (c : Cmd)
  /-- Command 0x0921 maps queues to a deadline profile. (R410) -/
  | dlnQmapSet (c : Cmd)
  /-- DLN_QMAP_SET with READ returns a queue's profile. (R410) -/
  | dlnQmapRead (c : Cmd)
  /-- Command 0x0922 writes gate-list entries to the bank not in operation. (R410) -/
  | gclWrite (c : Cmd)
  /-- Command 0x0923 arms the written gate list at its CCT. (R402) -/
  | gclSet (c : Cmd)
  /-- Command 0x0924 cancels a pending gate-list switch. (R403) -/
  | gclCancel (c : Cmd)
  /-- Command 0x0925 reads gate-list entries. (R410) -/
  | gclRead (c : Cmd)
  /-- CCT is reached and the gate-list banks exchange roles. (R402) -/
  | gclSwitch (port : Nat)
  /-- A preemption verify mPacket is sent every VERIFY_MS, up to three attempts. (R405) -/
  | verifyAttempt (port : Nat)
  /-- A verify response is received and preemption becomes active. (R405) -/
  | verifyResponse (port : Nat)
  /-- A write of FAB_LINK_CTRL.EN starts or stops a fabric link. (R414) -/
  | fabLinkEnable (m l v : Nat)
  /-- Lock and handshake complete and the link enters UP_WAIT. (R414) -/
  | fabLinkTrained (l : Nat)
  /-- UP_HOLD_MS passes with reachability received and the link becomes ACTIVE. (R419) -/
  | fabLinkActive (l : Nat)
  /-- Loss of lock for 10 µs returns a link to TRAINING. (R414) -/
  | fabLockLoss (l : Nat)
  /-- A FAILED link returns to TRAINING after 1 ms. (R414) -/
  | fabLinkRetry (l : Nat)
  /-- A fabric data cell is received and reordered into its context. (R423) -/
  | fabCellReceive (l : Nat) (cell : List Byte)
  /-- An acknowledgement frees replay entries and Sump cells. (R417) -/
  | fabAckReceive (l linkSeq : Nat)
  /-- A NAK makes the sender re-send from the named LINK_SEQ. (R417) -/
  | fabNakReceive (l linkSeq : Nat)
  /-- An entry unacknowledged for ACK_TIMEOUT_US fails the link. (R417) -/
  | fabAckTimeout (l : Nat)
  /-- A reachability cell updates FAB_REACH and the express pin. (R418) -/
  | reachCellReceive (l : Nat) (devs : List Nat)
  /-- 50 µs without a reachability cell clears a link's reach bits. (R418) -/
  | reachTimeout (l : Nat)
  /-- A missing cell not arriving within REORDER_US drops its packets. (R423) -/
  | reorderTimeout (src : Nat) (express : Bool)
  /-- An ON queue repeats its status every STATUS_US. (R427) -/
  | statusRefresh (q : Nat)
  /-- The credit pump creates, updates or rejects a credit flow. (R427) -/
  | creditStatusReceive (l linkSeq src port q tc weight : Nat) (on : Bool)
  /-- A rejected source repeats its ON after 10 µs. (R427) -/
  | cflowRejectRetry (q : Nat)
  /-- A flow OFF for CF_IDLE_US is removed. (R427) -/
  | cflowIdleExpiry (src q : Nat)
  /-- The credit pump generates a credit for a port and grants it to a flow. (R430) -/
  | creditGenerate (port : Nat)
  /-- A source queue accepts a cumulative grant into its balance. (R428) -/
  | grantReceive (l linkSeq q epoch granted : Nat) (reject : Bool)
  /-- Command 0x0930 writes an express bucket and resets its tokens. (R432) -/
  | fabExpSet (c : Cmd)
  /-- FAB_EXP_SET with READ returns an express bucket. (R440) -/
  | fabExpRead (c : Cmd)
  /-- Command 0x0931 reads a source queue's credit state. (R440) -/
  | fabCflowRead (c : Cmd)
  /-- Command 0x0B01 reads a device-time domain. (R468) -/
  | timeRead (c : Cmd)
  /-- Command 0x0B02 loads a domain's value at the apply tick. (R450) -/
  | timeSet (c : Cmd)
  /-- Command 0x0B03 adds an offset to a domain at the apply tick. (R450) -/
  | timeStep (c : Cmd)
  /-- Command 0x0B04 loads rho and DRIFT. (R451) -/
  | timeRate (c : Cmd)
  /-- Command 0x0B05 starts a slew. (R452) -/
  | timeSlew (c : Cmd)
  /-- Command 0x0B06 permits one further step. (R449) -/
  | timeUnlock (c : Cmd)
  /-- Command 0x0B07 changes the stamping domain at the apply tick. (R453) -/
  | timeSwitch (c : Cmd)
  /-- Command 0x0B08 removes transmit stamps from a port FIFO. (R460) -/
  | timeTxtsRead (c : Cmd)
  /-- The last slew cycle applies the remainder and SLEW_DONE is set. (R452) -/
  | slewEnd (d : Nat)
  /-- SEC of the stamping view increases and all counter copies are latched. (R455) -/
  | oneSecondTick
  /-- TIME_REFCLK shows no edge for 2 µs and the PLL holds. (R441) -/
  | timeRefLoss
  /-- TIME_REFCLK present for 100 ms and the PLL relocks. (R441) -/
  | timeRefReturn
  /-- A CLK_TIME lane to the TM die is lost and the copy moves or holds. (R30) -/
  | timeLaneLoss (lane : Nat)
  /-- A CLK_TIME lane returns and the TM copy slews back. (R30) -/
  | timeLaneReturn (lane : Nat)
  /-- A PPS input edge passes the filters and is stamped. (R462) -/
  | ppsInEdge (n held gap : Nat)
  /-- No edge accepted for LOSS_MS sets LOST. (R462) -/
  | ppsInLoss (n : Nat)
  /-- A domain reaches a whole second and a PPS pulse starts. (R463) -/
  | ppsOutPulse (n : Nat)
  /-- A lane losing lock squelches its SyncE output. (R465) -/
  | synceSquelch (n : Nat)
  /-- The lane good for HOLD_MS resumes the output. (R465) -/
  | synceResume (n : Nat)
  /-- A write changing LANE or DIV holds and restarts the output. (R465) -/
  | synceCfgWrite (m n v : Nat)
  /-- The stamping view reaches a trigger instant and it fires. (R467) -/
  | triggerFire (n : Nat)
  /-- Setting a trigger's EN arms it or fires it late. (R467) -/
  | triggerEnable (m n v : Nat)
  /-- A write of TIM_SNAP.GO captures both domains at one tick. (R444) -/
  | timSnap (m v : Nat)
  /-- Command 0x0C01 OP 0 starts parking a domain. (R471) -/
  | pwrDomainPark (c : Cmd)
  /-- A parking domain has emptied and its regulator switches off. (R471) -/
  | domainDrained (d : Nat)
  /-- A domain not empty within 1 ms returns to ON. (R471) -/
  | domainParkTimeout (d : Nat)
  /-- Command 0x0C01 OP 1 ramps a domain up. (R471) -/
  | pwrDomainUnpark (c : Cmd)
  /-- A domain's restore ends and it becomes ON. (R472) -/
  | domainUnparkDone (d : Nat) (trained : Bool) (lanes : Nat)
  /-- The 1 µs power sample updates P and the energy bucket. (R474) -/
  | telemetrySample (mvA curA mvB curB : Nat) (power : List Nat)
  /-- Sensors are converted every 10 µs and Tmax updated. (R475) -/
  | tempSample (temps : List (Option Int))
  /-- Y_ENERGY is evaluated every STEP_US. (R481) -/
  | energyEvaluation
  /-- Each background task earns its credit every 1 µs. (R485) -/
  | backgroundCreditEarn
  /-- Firmware evaluates the Cistern every EVAL_MS and sends a fence request. (R487) -/
  | fencePolicyEval
  /-- A feed becomes GOOD, LOW or ABSENT. (R488) -/
  | feedStateChange (feed st : Nat)
  /-- The active feed sags below 10.2 V and a fail-over runs. (R489) -/
  | feedSag (ticks : Nat) (sagged fell oldOk : Bool)
  /-- The input bus stays below 9.0 V for 5 µs and all domains switch off. (R490) -/
  | inputCollapse
  /-- The revert hold ends and a planned transfer returns to the preferred feed. (R491) -/
  | revertHoldExpiry (fell oldOk : Bool)
  /-- TEST_MIN expires and the standby feed is tested under load. (R493) -/
  | feedSelfTest (result : Nat)
  /-- Command 0x0C02 sets the governor. (R495) -/
  | pwrGovSet (c : Cmd)
  /-- PWR_GOV_SET with READ returns the governor settings. (R495) -/
  | pwrGovRead (c : Cmd)
  /-- Command 0x0C03 sets the fencing policy. (R495) -/
  | pwrFenceSet (c : Cmd)
  /-- PWR_FENCE_SET with READ returns the fencing policy. (R495) -/
  | pwrFenceRead (c : Cmd)
  /-- Command 0x0C04 sets the feed policy. (R495) -/
  | pwrFeedSet (c : Cmd)
  /-- PWR_FEED_SET with READ returns the feed policy. (R495) -/
  | pwrFeedRead (c : Cmd)
  /-- Command 0x0C05 runs a standby feed self-test. (R493) -/
  | pwrFeedTest (c : Cmd) (result mv : Nat)
  /-- Command 0x0C06 runs a planned feed transfer. (R491) -/
  | pwrFeedSwitch (c : Cmd) (fell oldOk : Bool)
  /-- Command 0x0C07 writes one telemetry sample to host memory. (R495) -/
  | pwrSnapshot (c : Cmd)
  /-- An HBM transfer fails CRC or parity and is retried. (R507) -/
  | hbmLinkError (die stack ch : Nat) (again : Bool)
  /-- A bank's refresh window restarts and its activate table clears. (R506) -/
  | refreshWindow (die stack pc bank : Nat)
  /-- The stack sensor is read every 1 ms and sets the refresh window. (R505) -/
  | stackTempRead (die stack temp : Nat)
  /-- The scrubber reads a unit and corrects or poisons it. (R510) -/
  | scrubRead (die stack found : Nat) (upsets : List Upset)
  /-- A stack answers no request for 100 µs and fails. (R512) -/
  | stackNoResponse (die stack : Nat)
  /-- An idle TM stack with no page in use enters self-refresh. (R514) -/
  | selfRefreshEntry (stack : Nat)
  /-- A write of HBT_STACK_CTRL.TRAIN starts training a TM stack. (R517) -/
  | hbtTrain (m k v : Nat)
  /-- Training of a TM stack succeeds or fails. (R517) -/
  | hbtTrainDone (k : Nat) (trained : Bool) (lanes : Nat)
  /-- A write of ERR_LOG_POP.GO removes the head entry. (R523) -/
  | errLogPopReg (m v : Nat)
  /-- Command 0x0F01 writes and removes log entries. (R541) -/
  | errLogPop (c : Cmd) (failed : Option Nat)
  /-- Command 0x0F02 enters an error code in the log. (R541) -/
  | errInject (c : Cmd)
  /-- Command 0x0F03 pulses a message source. (R541) -/
  | errMsgRaise (c : Cmd)
  /-- A write of ERR_SW_RAISE pulses a message source. (R525) -/
  | errSwRaise (m v : Nat)
  /-- A write of REARM resends a vector's message while a source is pending. (R527) -/
  | errVecRearm (m n v : Nat)
  /-- Unmasking or enabling MSI-X sends a message held in the PBA. (R527) -/
  | msixUnmask (f entry addr data : Nat) (masked enable functionMask : Bool)
  /-- A fault input assertion passes the filter and is latched. (R530) -/
  | faultInputAssert (n held : Nat)
  /-- A fault input active for STUCK_MS is reported stuck. (R530) -/
  | faultInputStuck (n : Nat)
  /-- A write of ERR_FATAL_FORCE.GO raises fatal error FORCED. (R531) -/
  | errFatalForce (m v : Nat)
  /-- After the FATAL message, firmware writes the Well log and the device freezes. (R536) -/
  | wellLogDump (n : Nat) (bodies : List (Nat × List Byte)) (failed : Bool)
  /-- ERR_WL_BYTES does not advance for 1 s and the dump ends HOST_FAIL. (R539) -/
  | wellLogStall
  /-- The management watchdog expires, FW_WATCHDOG is raised and ROM dumps. (R540) -/
  | watchdogExpiry (core : Nat)
  /-- PMC_RUN OP 1 schedules a start of the named banks. (R550) -/
  | pmcRunStart (m v : Nat)
  /-- PMC_RUN OP 2 schedules a stop of the named banks. (R550) -/
  | pmcRunStop (m v : Nat)
  /-- Device time reaches A and the banks start or stop. (R550) -/
  | pmcRunApply
  /-- A write of PMC_CLR zeroes a counter or a bank. (R549) -/
  | pmcClr (m v : Nat)
  /-- A write of PMC_CFG or PMC_QUAL reconfigures a counter or is rejected. (R545) -/
  | pmcCfgWrite (m bank n : Nat) (qual : Bool) (v : Nat)
  /-- Command 0x0E01 writes counters to host memory. (R554) -/
  | pmcRead (c : Cmd)
  /-- A write to the counter window is discarded and counted. (R557) -/
  | pmcWindowWrite (m off v : Nat)
  /-- Command 0x0D01 returns image and session state. (R583) -/
  | fwuInfo (c : Cmd)
  /-- Command 0x0D02 opens or resumes an update session. (R567) -/
  | fwuSessionStart (c : Cmd)
  /-- Command 0x0D03 stores a chunk. (R569) -/
  | fwuChunk (c : Cmd) (d : HostData)
  /-- Command 0x0D04 writes the stored-chunk bitmap. (R583) -/
  | fwuBitmap (c : Cmd)
  /-- Command 0x0D05 builds and verifies the target bank. (R572) -/
  | fwuApply (c : Cmd) (bad : Bool)
  /-- Command 0x0D06 ends the session. (R570) -/
  | fwuSessionAbort (c : Cmd)
  /-- Command 0x0D07 starts a handover to a bank. (R573) -/
  | fwuActivate (c : Cmd)
  /-- Command 0x0D08 confirms the trial image. (R576) -/
  | fwuConfirm (c : Cmd)
  /-- Command 0x0D09 loads the image's microcode into the open build. (R564) -/
  | fwuUcodeStage (c : Cmd)
  /-- A write of FWU_MBOX_CTRL.GO runs the selected update operation without the engine. (R582) -/
  | fwuMboxGo (m v : Nat) (bad : Bool)
  /-- IDLE_H hours without activity end the session. (R570) -/
  | sessionIdleExpiry
  /-- All services are mirrored and actorship moves at the switch instant. (R574) -/
  | handoverCommit
  /-- A handover fails before the switch and the old image resumes. (R575) -/
  | handoverFail
  /-- The new image has run 5 s with checks passed and confirms its health. (R576) -/
  | trialSelfConfirm
  /-- The trial window expires and fallback runs. (R576) -/
  | trialWindowExpiry
  /-- The trial watchdog expires and causes fallback. (R576) -/
  | trialWatchdogExpiry
  /-- POR_N held low for 1 µs starts a power-on reset. (R585) -/
  | porNAssert (held : Nat)
  /-- Reset release starts Priming through its six steps to the hold point. (R592) -/
  | primingStart (r : PrimeRun)
  /-- RST_CTRL.DEVICE resets the whole part except RWS fields. (R585) -/
  | deviceReset (m v : Nat)
  /-- RST_CTRL.DIE_FE starts an FE die reset. (R588) -/
  | dieResetFe (m v : Nat)
  /-- RST_CTRL.DIE_TM starts a TM die reset. (R588) -/
  | dieResetTm (m v : Nat)
  /-- A die restart completes and slot granting resumes. (R588) -/
  | dieResetDone (die : Nat) (bad : List Nat)
  /-- RST_BLOCK for DMA withdraws transfers and resets DMA registers. (R590) -/
  | blockResetDma (m v : Nat)
  /-- RST_BLOCK for PMC clears counters and stops banks. (R590) -/
  | blockResetPmc (m v : Nat)
  /-- RST_BLOCK for FXE disables every FlexE set-up. (R590) -/
  | blockResetFxe (m v : Nat)
  /-- RST_CTRL.RELEASE leaves the hold point after checking the profile. (R594) -/
  | primingRelease (m v : Nat)
  /-- A REF_FREQ write at the hold point relocks the PLL and reloads time. (R594) -/
  | refFreqRelock (m v : Nat)
  /-- The device reaches READY and every RWL field locks. (R596) -/
  | ready
  /-- PERST#, Hot Reset or link down performs a host-path or device reset. (R589) -/
  | conventionalPcieReset
  /-- A line, fabric, PCIe or chain reference clock is lost. (R617) -/
  | refClockLoss (clock : Nat)
  /-- The IDCODE instruction returns the identification code. (R620) -/
  | jtagIdcode
  /-- The BYPASS instruction. (R620) -/
  | jtagBypass (n tdi : Nat)
  /-- SAMPLE/PRELOAD samples the balls without disturbing them. (R620) -/
  | jtagSamplePreload
  /-- EXTEST takes over the balls while POR_N is low. (R620) -/
  | jtagExtest (n tdi : Nat)
  /-- EXTEST_PULSE drives AC test pulses while POR_N is low. (R620) -/
  | jtagExtestPulse (n tdi : Nat)
  /-- EXTEST_TRAIN drives AC test trains while POR_N is low. (R620) -/
  | jtagExtestTrain (n tdi : Nat)
  /-- CLAMP holds the balls while POR_N is low. (R620) -/
  | jtagClamp (n tdi : Nat)
  /-- HIGHZ floats the outputs while POR_N is low. (R620) -/
  | jtagHighz (n tdi : Nat)
  /-- REG_ACCESS reads or writes registers with master ID 0xB. (R620) -/
  | jtagRegAccess (write : Bool) (off v : Nat)
  /-- TRST_N or the TAP reset state resets the test access port. (R620) -/
  | jtagTapReset
  /-- The controller assigns the target's dynamic address. (R621) -/
  | i3cEntdaa (addr : Nat)
  /-- A 4-byte private write sets the register pointer. (R621) -/
  | i3cPointerWrite (bytes : List Byte)
  /-- An 8-byte private write performs a register write with master ID 0xA. (R621) -/
  | i3cRegisterWrite (bytes : List Byte)
  /-- A private read returns registers from the pointer. (R621) -/
  | i3cRead (n : Nat)
  /-- At each transmit overhead frame and multiframe boundary the group sends its overhead, including CR from boundary M1, the calendar pages, RPF and CR returning to 0 after a timeout. (R164) -/
  | overheadFrameTransmit (f index : Nat)
  /-- PERST# is deasserted or the PCIe link returns, and the endpoint retrains and serves configuration requests again within 100 ms. (R589) -/
  | perstDeassertion (speed width : Nat) (flit : Bool)
  /-- A fault input returns to its inactive level through the filter, updating LEVEL and re-arming acceptance. (R530) -/
  | faultInputDeassert (n held : Nat)
  /-- WIDTH_MS after a PPS output pulse began, the output returns to its inactive level. (R463) -/
  | ppsOutPulseEnd (n : Nat)
  /-- 100 ns after the last acknowledgement, a fabric link receiver sends an acknowledgement of the highest LINK_SEQ received in order. (R417) -/
  | fabAckInterval (l : Nat)
  /-- Firmware finds its own state unusable and raises fatal error FW_FATAL, starting the fatal handling of R533. (R519) -/
  | fwFatal (reason : Nat)
  /-- During TRIAL the new image stops or finds itself unusable, and fallback runs. (R576) -/
  | trialImageFault
  /-- During TRIAL the old image stops, FALLBACK_LOST is set, and the trial goes on without a fallback target. (R576) -/
  | oldImageStop
  deriving DecidableEq, Repr

end Sys2Proof
end

