-- ==== Sys2Proof/Machine/Bits.lean ====
section
/-! DEFINITION. Bit fields, byte order (00 R7: little-endian; frames: network order) and the sparse tables' operations. -/

namespace Sys2Proof.Machine

open Sys2Proof

/-- Bits `lo` to `lo + w - 1` of `x`, as a number. -/
def bitsAt (x lo w : Nat) : Nat := x / 2 ^ lo % 2 ^ w

/-- Bit `i` of `x`. -/
def bitAt (x i : Nat) : Bool := x / 2 ^ i % 2 == 1

/-- `x` with bits `lo` to `lo + w - 1` replaced by the low `w` bits of `v`. -/
def putBits (x lo w v : Nat) : Nat := x / 2 ^ (lo + w) * 2 ^ (lo + w) + v % 2 ^ w * 2 ^ lo + x % 2 ^ lo

/-- One bit as a number. -/
def b2n (b : Bool) : Nat := if b then 1 else 0

/-- The signed value of the low `w` bits of `x`. -/
def signed (x w : Nat) : Int := if x % 2 ^ w < 2 ^ (w - 1) then (x % 2 ^ w : Nat) else ((x % 2 ^ w : Nat) : Int) - (2 ^ w : Nat)

/-- The `w`-bit pattern of a signed value. -/
def unsignedOf (x : Int) (w : Nat) : Nat := (x % ((2 ^ w : Nat) : Int)).toNat

/-- The number whose bytes, lowest first, are `bs` (00 R7). -/
def leNat : List Byte → Nat
  | [] => 0
  | b :: bs => b.toNat + 256 * leNat bs

/-- `n` bytes of `x`, lowest first. -/
def leBytes : Nat → Nat → List Byte
  | 0, _ => []
  | n + 1, x => BitVec.ofNat 8 x :: leBytes n (x / 256)

/-- The number whose bytes in network order are `bs`. -/
def beNat (bs : List Byte) : Nat := bs.foldl (fun a b => a * 256 + b.toNat) 0

/-- `n` bytes of `x` in network order. -/
def beBytes (n x : Nat) : List Byte := (leBytes n x).reverse

/-- Byte `i` of a list, 0 beyond its end. -/
def byteOr0 (bs : List Byte) (i : Nat) : Nat := (bs.getD i 0).toNat

/-- `n` bytes of a list from byte `i` as a little-endian number; bytes beyond the end count as 0. -/
def leAt (bs : List Byte) (i n : Nat) : Nat := leNat ((bs.drop i).take n)

/-- `n` bytes of a list from byte `i` as a network-order number; bytes beyond the end count as 0. -/
def beAt (bs : List Byte) (i n : Nat) : Nat :=
  beNat ((List.range n).map fun k => bs.getD (i + k) 0)

/-- `xs` with element `i` replaced, unchanged when there is none. -/
def setAt {α : Type} (xs : List α) (i : Nat) (v : α) : List α := xs.set i v

/-- Bytes `i` onward of `bs` overwritten by `v` (only inside `bs`). -/
def patchBytes (bs : List Byte) (i : Nat) (v : List Byte) : List Byte :=
  bs.take i ++ (v.take (bs.length - i) ++ bs.drop (i + v.length))

/-- Ceiling division. -/
def ceilDiv (a b : Nat) : Nat := if b = 0 then 0 else (a + b - 1) / b

/-- Whether all bits of `x` outside the listed (lowest bit, width) fields are 0: no reserved bit is set. -/
def onlyBits (x : Nat) : List (Nat × Nat) → Bool
  | [] => x == 0
  | (lo, w) :: fs => onlyBits (putBits x lo w 0) fs

/-- The value at a key of a sparse table. -/
def Assoc.find {α : Type} : Assoc α → Nat → Option α
  | [], _ => none
  | (k, v) :: m, i => if k = i then some v else Assoc.find m i

/-- The value at a key, or the default. -/
def Assoc.get {α : Type} (m : Assoc α) (d : α) (i : Nat) : α := (Assoc.find m i).getD d

/-- Removes a key. -/
def Assoc.erase {α : Type} (m : Assoc α) (i : Nat) : Assoc α := m.filter fun kv => kv.1 != i

/-- Lists a key at its place; keys keep rising. -/
def Assoc.insert {α : Type} (m : Assoc α) (i : Nat) (v : α) : Assoc α :=
  m.filter (fun kv => kv.1 < i) ++ (i, v) :: m.filter (fun kv => i < kv.1)

/-- Writes a value, where an unlisted key reads as `d`: writing `d` removes the entry. -/
def Assoc.put {α : Type} [DecidableEq α] (m : Assoc α) (d : α) (i : Nat) (v : α) : Assoc α :=
  if v = d then Assoc.erase m i else Assoc.insert m i v

/-- The canonical form: keys strictly rising, no entry equal to its default. -/
def Assoc.wf {α : Type} [DecidableEq α] (d : Nat → α) : Assoc α → Bool
  | [] => true
  | (k, v) :: m => (v != d k) && m.all (fun kv => decide (k < kv.1)) && Assoc.wf d m

/-- A field of a register: the register's BAR0 offset, the field's lowest bit, its width. -/
structure Fld where
  reg : Nat
  lo : Nat
  w : Nat
  deriving DecidableEq, Repr

/-- The access types of 00 R10. -/
inductive Acc where
  | rw | ro | w1c | wo | rws | rwl
  deriving DecidableEq, Repr

/-- One field of a register's description: place, access type and power-on value. -/
structure RegField where
  lo : Nat
  w : Nat
  acc : Acc
  rst : Nat
  deriving DecidableEq, Repr

/-- One row of the register tables: the offset of the first register of the row, its index ranges with their
strides, its fields. -/
structure RegRow where
  off : Nat
  dims : List (Nat × Nat)
  fields : List RegField
  deriving DecidableEq, Repr

/-- The indices that take a row's first register to the one at distance `d`, when there is one. -/
def regIndices : List (Nat × Nat) → Nat → Option (List Nat)
  | [], d => if d = 0 then some [] else none
  | (n, st) :: ds, d =>
    if d / st < n then (regIndices ds (d % st)).map (d / st :: ·) else none

/-- The row of a block that holds the register at `off`, with the register's indices. -/
def findRow : List RegRow → Nat → Option (RegRow × List Nat)
  | [], _ => none
  | r :: rs, off =>
    if r.off ≤ off then
      match regIndices r.dims (off - r.off) with
      | some ix => some (r, ix)
      | none => findRow rs off
    else findRow rs off

end Sys2Proof.Machine
end

