-- ==== Sys2Proof/Machine/Operands.lean ====
section
/-! DEFINITION. The operands of a ring command: the fields of its payload, its reserved bits (02 R63, R627), and the answer of a
host read inside it (02 R87). -/

namespace Sys2Proof

open Sys2Proof.Machine

/-- A field of the payload: `w` bits from bit `lo` of byte `byte` of the entry (02 R63). -/
def Cmd.fld (c : Cmd) (byte lo w : Nat) : Nat := bitsAt (leNat c.payload) (8 * (byte - 32) + lo) w

/-- A bit outside the listed fields of ARG0, ARG1 and the payload is 1 (02 R627 check 1). Payload fields are
(byte, lowest bit, width). -/
def Cmd.resv (c : Cmd) (a0 a1 : List (Nat × Nat)) (pl : List (Nat × Nat × Nat)) : Bool :=
  !(onlyBits c.arg0 a0 && onlyBits c.arg1 a1
    && onlyBits (leNat c.payload) (pl.map fun f => (8 * (f.1 - 32) + f.2.1, f.2.2)))

/-- The outcome of a host read inside a command: the bytes, or the status it completes with (02 R87). -/
def HostData.get : HostData → Except Nat (List Byte)
  | .bytes b => .ok b
  | .hostError => .error 13
  | .chainLost => .error 15

end Sys2Proof
end

