-- ==== Sys2Proof/Machine/Hash.lean ====
section
/-! DEFINITION. CRC-32C, seeded and standard (07 R626), and parity. -/

namespace Sys2Proof.Machine

open Sys2Proof

/-- One bit of the reflected Castagnoli update. -/
def crcBit (r : Nat) : Nat := if r % 2 = 1 then Nat.xor (r / 2) 0x82F63B78 else r / 2

/-- One byte of the update. -/
def crcByte (r b : Nat) : Nat := crcBit (crcBit (crcBit (crcBit (crcBit (crcBit (crcBit (crcBit (Nat.xor r b))))))))

/-- The CRC register after bytes, from a register value (07 R626). -/
def crc32c (r : Nat) (bytes : List Nat) : Nat := bytes.foldl crcByte r

/-- The standard CRC-32C. -/
def crc32cStd (bytes : List Nat) : Nat := Nat.xor (crc32c 0xFFFFFFFF bytes) 0xFFFFFFFF

/-- One bit of the reflected IEEE 802.3 update (04 R129, 14 R415). -/
def fcsBit (r : Nat) : Nat := if r % 2 = 1 then Nat.xor (r / 2) 0xEDB88320 else r / 2

/-- One byte of it. -/
def fcsByte (r b : Nat) : Nat := fcsBit (fcsBit (fcsBit (fcsBit (fcsBit (fcsBit (fcsBit (fcsBit (Nat.xor r b))))))))

/-- The CRC-32 of IEEE 802.3. -/
def crc32 (bytes : List Byte) : Nat := Nat.xor (bytes.foldl (fun r b => fcsByte r b.toNat) 0xFFFFFFFF) 0xFFFFFFFF

/-- `n` bytes of a number, lowest first. -/
def natBytes : Nat → Nat → List Nat
  | 0, _ => []
  | n + 1, x => x % 256 :: natBytes n (x / 256)

/-- The number of 1 bits among the low `n`. -/
def popCount : Nat → Nat → Nat
  | 0, _ => 0
  | n + 1, x => x % 2 + popCount n (x / 2)

/-- The even-parity bit over the low `n` bits. -/
def parityOf (n x : Nat) : Nat := popCount n x % 2

end Sys2Proof.Machine
end

