-- ==== Sys2Proof/Config.lean ====
section
/-! DEFINITION. What the spec leaves to the part or to the implementation: values without a body, so that nothing can
be proved of them (one log entry each under notes/assumptions). -/

namespace Sys2Proof.Config

open Sys2Proof

/-- The part's fused serial number (22 R607), 64 bits. -/
opaque serial : Nat

/-- A free value of the block: the spec states no value for it. The first argument says which point of the spec is
open, the second is the counter the step reads and advances. -/
opaque freeValue : Nat → Nat → Nat

/-- The quantum unit of the weighted group of a port node (12 R354 gives nodes of levels 1 to 3 one, and port nodes none). -/
opaque portQuantumUnit : Nat

/-- The ROM base microcode image of the stepping (06 R204), byte by byte, issued with the kit and not in this spec. -/
opaque baseImage : Nat → Byte

/-- CRC-32C of the base microcode image, as PAR_BANK_CRC_0 holds it. -/
opaque baseCrc : Nat

/-- The number that the base image gives to a parse state of the graph of 06 R204. -/
opaque baseStateNum : Nat → Nat

/-- The firmware image that bank 0 holds when the part is delivered (20 R560, R563), byte by byte. -/
opaque factoryImage : Nat → Byte

/-- Whether a 96-byte ECDSA P-384 signature over the SHA-384 of some bytes checks against the key held in ROM (20 R563): the spec
does not give the key. -/
opaque signatureOk : List Byte → List Byte → Bool

end Sys2Proof.Config
end

