-- ==== Sys2Proof/Machine/Regs.lean ====
section
/-! DEFINITION. The names of the registers (22 R610): each register's BAR0 offset, and each field as a `Fld`
(register offset, lowest bit, width), as the register tables of the chapters give them (block bases: 22 R602). -/

namespace Sys2Proof.Machine


/-! ### GLB (block 0, 22_register_map.md) -/

def Reg.GLB_ID : Nat := 0x0000000
def Fld.GLB_ID_PART : Fld := ⟨Reg.GLB_ID, 0, 16⟩
def Fld.GLB_ID_FAMILY : Fld := ⟨Reg.GLB_ID, 16, 8⟩
def Reg.GLB_STEPPING : Nat := 0x0000004
def Fld.GLB_STEPPING_STEPPING : Fld := ⟨Reg.GLB_STEPPING, 0, 16⟩
def Reg.GLB_SERIAL_LO : Nat := 0x0000008
def Fld.GLB_SERIAL_LO_SERIAL : Fld := ⟨Reg.GLB_SERIAL_LO, 0, 32⟩
def Reg.GLB_SERIAL_HI : Nat := 0x000000C
def Fld.GLB_SERIAL_HI_SERIAL : Fld := ⟨Reg.GLB_SERIAL_HI, 0, 32⟩
def Reg.GLB_SCRATCH (r : Nat) : Nat := 0x0000010 + 0x4 * r
def Fld.GLB_SCRATCH_DATA (r : Nat) : Fld := ⟨Reg.GLB_SCRATCH r, 0, 32⟩
def Reg.GLB_COMPAT_PROFILE : Nat := 0x0000040
def Fld.GLB_COMPAT_PROFILE_PROFILE : Fld := ⟨Reg.GLB_COMPAT_PROFILE, 0, 4⟩
def Reg.GLB_PROFILES : Nat := 0x0000044
def Fld.GLB_PROFILES_AVAIL : Fld := ⟨Reg.GLB_PROFILES, 0, 16⟩
def Reg.GLB_REGERR_CNT : Nat := 0x0000050
def Fld.GLB_REGERR_CNT_COUNT : Fld := ⟨Reg.GLB_REGERR_CNT, 0, 32⟩
def Reg.GLB_REGERR_LAST : Nat := 0x0000054
def Fld.GLB_REGERR_LAST_OFFSET : Fld := ⟨Reg.GLB_REGERR_LAST, 0, 27⟩
def Fld.GLB_REGERR_LAST_MASTER : Fld := ⟨Reg.GLB_REGERR_LAST, 28, 4⟩
def Reg.GLB_OWN (b : Nat) : Nat := 0x0000400 + 0x4 * b
def Fld.GLB_OWN_OWNER (b : Nat) : Fld := ⟨Reg.GLB_OWN b, 0, 4⟩
def Fld.GLB_OWN_REJECT_CNT (b : Nat) : Fld := ⟨Reg.GLB_OWN b, 16, 16⟩

/-! ### HIF (block 1, 02_host_rings_dma.md) -/

def Reg.HIF_LINK_STATUS : Nat := 0x0100000
def Fld.HIF_LINK_STATUS_SPEED : Fld := ⟨Reg.HIF_LINK_STATUS, 0, 4⟩
def Fld.HIF_LINK_STATUS_WIDTH : Fld := ⟨Reg.HIF_LINK_STATUS, 4, 6⟩
def Fld.HIF_LINK_STATUS_FLIT : Fld := ⟨Reg.HIF_LINK_STATUS, 10, 1⟩
def Fld.HIF_LINK_STATUS_DL_UP : Fld := ⟨Reg.HIF_LINK_STATUS, 11, 1⟩
def Reg.HIF_PF_CFG (f : Nat) : Nat := 0x0100010 + 0x4 * f
def Fld.HIF_PF_CFG_EN (f : Nat) : Fld := ⟨Reg.HIF_PF_CFG f, 0, 1⟩
def Fld.HIF_PF_CFG_VEC_COUNT (f : Nat) : Fld := ⟨Reg.HIF_PF_CFG f, 6, 10⟩
def Fld.HIF_PF_CFG_VEC_BASE (f : Nat) : Fld := ⟨Reg.HIF_PF_CFG f, 16, 10⟩
def Reg.HIF_CMD_PF : Nat := 0x0100040
def Fld.HIF_CMD_PF_PF (sub : Nat) : Fld := ⟨Reg.HIF_CMD_PF, 4 * sub, 4⟩
def Reg.HIF_CQ_PF : Nat := 0x0100044
def Fld.HIF_CQ_PF_PF (sub : Nat) : Fld := ⟨Reg.HIF_CQ_PF, 4 * sub, 4⟩
def Reg.HIF_RXR_PF (j : Nat) : Nat := 0x0100050 + 0x4 * j
def Fld.HIF_RXR_PF_PF (j : Nat) (sub : Nat) : Fld := ⟨Reg.HIF_RXR_PF j, 4 * sub, 4⟩
def Reg.HIF_TXR_PF (j : Nat) : Nat := 0x0100070 + 0x4 * j
def Fld.HIF_TXR_PF_PF (j : Nat) (sub : Nat) : Fld := ⟨Reg.HIF_TXR_PF j, 4 * sub, 4⟩
def Reg.HIF_POOL_BASE (p : Nat) : Nat := 0x0100200 + 0x10 * p
def Fld.HIF_POOL_BASE_OFFSET (p : Nat) : Fld := ⟨Reg.HIF_POOL_BASE p, 8, 15⟩
def Reg.HIF_POOL_CFG (p : Nat) : Nat := 0x0100204 + 0x10 * p
def Fld.HIF_POOL_CFG_BSIZE_LOG2 (p : Nat) : Fld := ⟨Reg.HIF_POOL_CFG p, 0, 4⟩
def Fld.HIF_POOL_CFG_COUNT (p : Nat) : Fld := ⟨Reg.HIF_POOL_CFG p, 4, 16⟩
def Fld.HIF_POOL_CFG_CFG_ERR (p : Nat) : Fld := ⟨Reg.HIF_POOL_CFG p, 30, 1⟩
def Fld.HIF_POOL_CFG_EN (p : Nat) : Fld := ⟨Reg.HIF_POOL_CFG p, 31, 1⟩
def Reg.HIF_POOL_STAT (p : Nat) : Nat := 0x0100208 + 0x10 * p
def Fld.HIF_POOL_STAT_FREE (p : Nat) : Fld := ⟨Reg.HIF_POOL_STAT p, 0, 16⟩
def Fld.HIF_POOL_STAT_WAITERS (p : Nat) : Fld := ⟨Reg.HIF_POOL_STAT p, 16, 8⟩
def Fld.HIF_POOL_STAT_FROZEN (p : Nat) : Fld := ⟨Reg.HIF_POOL_STAT p, 31, 1⟩
def Reg.HIF_RX_NOBUF_DROP : Nat := 0x0100300
def Fld.HIF_RX_NOBUF_DROP_COUNT : Fld := ⟨Reg.HIF_RX_NOBUF_DROP, 0, 32⟩
def Reg.HIF_RXR_BASE_LO (n : Nat) : Nat := 0x0101000 + 0x20 * n
def Fld.HIF_RXR_BASE_LO_ADDR (n : Nat) : Fld := ⟨Reg.HIF_RXR_BASE_LO n, 12, 20⟩
def Reg.HIF_RXR_BASE_HI (n : Nat) : Nat := 0x0101004 + 0x20 * n
def Fld.HIF_RXR_BASE_HI_ADDR (n : Nat) : Fld := ⟨Reg.HIF_RXR_BASE_HI n, 0, 32⟩
def Reg.HIF_RXR_CFG (n : Nat) : Nat := 0x0101008 + 0x20 * n
def Fld.HIF_RXR_CFG_SIZE_LOG2 (n : Nat) : Fld := ⟨Reg.HIF_RXR_CFG n, 0, 5⟩
def Fld.HIF_RXR_CFG_BUFSZ_64 (n : Nat) : Fld := ⟨Reg.HIF_RXR_CFG n, 8, 6⟩
def Fld.HIF_RXR_CFG_VECTOR (n : Nat) : Fld := ⟨Reg.HIF_RXR_CFG n, 16, 9⟩
def Fld.HIF_RXR_CFG_EN (n : Nat) : Fld := ⟨Reg.HIF_RXR_CFG n, 28, 1⟩
def Fld.HIF_RXR_CFG_STOPPED (n : Nat) : Fld := ⟨Reg.HIF_RXR_CFG n, 29, 1⟩
def Fld.HIF_RXR_CFG_REASON (n : Nat) : Fld := ⟨Reg.HIF_RXR_CFG n, 30, 2⟩
def Reg.HIF_RXR_PI (n : Nat) : Nat := 0x010100C + 0x20 * n
def Fld.HIF_RXR_PI_PI (n : Nat) : Fld := ⟨Reg.HIF_RXR_PI n, 0, 17⟩
def Reg.HIF_RXR_CI (n : Nat) : Nat := 0x0101010 + 0x20 * n
def Fld.HIF_RXR_CI_CI (n : Nat) : Fld := ⟨Reg.HIF_RXR_CI n, 0, 17⟩
def Reg.HIF_RXR_WB_LO (n : Nat) : Nat := 0x0101014 + 0x20 * n
def Fld.HIF_RXR_WB_LO_ADDR (n : Nat) : Fld := ⟨Reg.HIF_RXR_WB_LO n, 3, 29⟩
def Reg.HIF_RXR_WB_HI (n : Nat) : Nat := 0x0101018 + 0x20 * n
def Fld.HIF_RXR_WB_HI_ADDR (n : Nat) : Fld := ⟨Reg.HIF_RXR_WB_HI n, 0, 32⟩
def Reg.HIF_TXR_BASE_LO (n : Nat) : Nat := 0x0102000 + 0x20 * n
def Fld.HIF_TXR_BASE_LO_ADDR (n : Nat) : Fld := ⟨Reg.HIF_TXR_BASE_LO n, 12, 20⟩
def Reg.HIF_TXR_BASE_HI (n : Nat) : Nat := 0x0102004 + 0x20 * n
def Fld.HIF_TXR_BASE_HI_ADDR (n : Nat) : Fld := ⟨Reg.HIF_TXR_BASE_HI n, 0, 32⟩
def Reg.HIF_TXR_CFG (n : Nat) : Nat := 0x0102008 + 0x20 * n
def Fld.HIF_TXR_CFG_SIZE_LOG2 (n : Nat) : Fld := ⟨Reg.HIF_TXR_CFG n, 0, 5⟩
def Fld.HIF_TXR_CFG_VECTOR (n : Nat) : Fld := ⟨Reg.HIF_TXR_CFG n, 16, 9⟩
def Fld.HIF_TXR_CFG_EN (n : Nat) : Fld := ⟨Reg.HIF_TXR_CFG n, 28, 1⟩
def Fld.HIF_TXR_CFG_STOPPED (n : Nat) : Fld := ⟨Reg.HIF_TXR_CFG n, 29, 1⟩
def Fld.HIF_TXR_CFG_REASON (n : Nat) : Fld := ⟨Reg.HIF_TXR_CFG n, 30, 2⟩
def Reg.HIF_TXR_PI (n : Nat) : Nat := 0x010200C + 0x20 * n
def Fld.HIF_TXR_PI_PI (n : Nat) : Fld := ⟨Reg.HIF_TXR_PI n, 0, 17⟩
def Reg.HIF_TXR_CI (n : Nat) : Nat := 0x0102010 + 0x20 * n
def Fld.HIF_TXR_CI_CI (n : Nat) : Fld := ⟨Reg.HIF_TXR_CI n, 0, 17⟩
def Reg.HIF_TXR_WB_LO (n : Nat) : Nat := 0x0102014 + 0x20 * n
def Fld.HIF_TXR_WB_LO_ADDR (n : Nat) : Fld := ⟨Reg.HIF_TXR_WB_LO n, 3, 29⟩
def Reg.HIF_TXR_WB_HI (n : Nat) : Nat := 0x0102018 + 0x20 * n
def Fld.HIF_TXR_WB_HI_ADDR (n : Nat) : Fld := ⟨Reg.HIF_TXR_WB_HI n, 0, 32⟩

/-! ### CE (block 2, 02_host_rings_dma.md) -/

def Reg.CE_STATUS : Nat := 0x0200000
def Fld.CE_STATUS_HALTED : Fld := ⟨Reg.CE_STATUS, 0, 1⟩
def Fld.CE_STATUS_STALL : Fld := ⟨Reg.CE_STATUS, 1, 1⟩
def Reg.CE_HALT_INFO : Nat := 0x0200004
def Fld.CE_HALT_INFO_RING : Fld := ⟨Reg.CE_HALT_INFO, 0, 3⟩
def Fld.CE_HALT_INFO_REASON : Fld := ⟨Reg.CE_HALT_INFO, 4, 4⟩
def Fld.CE_HALT_INFO_POS : Fld := ⟨Reg.CE_HALT_INFO, 8, 17⟩
def Reg.CE_RESET : Nat := 0x0200008
def Fld.CE_RESET_GO : Fld := ⟨Reg.CE_RESET, 0, 1⟩
def Reg.CE_CTRL : Nat := 0x020000C
def Fld.CE_CTRL_RING_EN : Fld := ⟨Reg.CE_CTRL, 0, 8⟩
def Reg.CE_CMD_BASE_LO (n : Nat) : Nat := 0x0200100 + 0x20 * n
def Fld.CE_CMD_BASE_LO_ADDR (n : Nat) : Fld := ⟨Reg.CE_CMD_BASE_LO n, 12, 20⟩
def Reg.CE_CMD_BASE_HI (n : Nat) : Nat := 0x0200104 + 0x20 * n
def Fld.CE_CMD_BASE_HI_ADDR (n : Nat) : Fld := ⟨Reg.CE_CMD_BASE_HI n, 0, 32⟩
def Reg.CE_CMD_SIZE (n : Nat) : Nat := 0x0200108 + 0x20 * n
def Fld.CE_CMD_SIZE_SIZE_LOG2 (n : Nat) : Fld := ⟨Reg.CE_CMD_SIZE n, 0, 5⟩
def Reg.CE_CMD_PI (n : Nat) : Nat := 0x020010C + 0x20 * n
def Fld.CE_CMD_PI_PI (n : Nat) : Fld := ⟨Reg.CE_CMD_PI n, 0, 17⟩
def Reg.CE_CMD_CI (n : Nat) : Nat := 0x0200110 + 0x20 * n
def Fld.CE_CMD_CI_CI (n : Nat) : Fld := ⟨Reg.CE_CMD_CI n, 0, 17⟩
def Reg.CE_CMD_WB_LO (n : Nat) : Nat := 0x0200114 + 0x20 * n
def Fld.CE_CMD_WB_LO_ADDR (n : Nat) : Fld := ⟨Reg.CE_CMD_WB_LO n, 3, 29⟩
def Reg.CE_CMD_WB_HI (n : Nat) : Nat := 0x0200118 + 0x20 * n
def Fld.CE_CMD_WB_HI_ADDR (n : Nat) : Fld := ⟨Reg.CE_CMD_WB_HI n, 0, 32⟩
def Reg.CE_CQ_BASE_LO (m : Nat) : Nat := 0x0200200 + 0x20 * m
def Fld.CE_CQ_BASE_LO_ADDR (m : Nat) : Fld := ⟨Reg.CE_CQ_BASE_LO m, 12, 20⟩
def Reg.CE_CQ_BASE_HI (m : Nat) : Nat := 0x0200204 + 0x20 * m
def Fld.CE_CQ_BASE_HI_ADDR (m : Nat) : Fld := ⟨Reg.CE_CQ_BASE_HI m, 0, 32⟩
def Reg.CE_CQ_SIZE (m : Nat) : Nat := 0x0200208 + 0x20 * m
def Fld.CE_CQ_SIZE_SIZE_LOG2 (m : Nat) : Fld := ⟨Reg.CE_CQ_SIZE m, 0, 5⟩
def Fld.CE_CQ_SIZE_EN (m : Nat) : Fld := ⟨Reg.CE_CQ_SIZE m, 31, 1⟩
def Reg.CE_CQ_PI (m : Nat) : Nat := 0x020020C + 0x20 * m
def Fld.CE_CQ_PI_PI (m : Nat) : Fld := ⟨Reg.CE_CQ_PI m, 0, 17⟩
def Reg.CE_CQ_CI (m : Nat) : Nat := 0x0200210 + 0x20 * m
def Fld.CE_CQ_CI_CI (m : Nat) : Fld := ⟨Reg.CE_CQ_CI m, 0, 17⟩
def Reg.CE_CQ_WB_LO (m : Nat) : Nat := 0x0200214 + 0x20 * m
def Fld.CE_CQ_WB_LO_ADDR (m : Nat) : Fld := ⟨Reg.CE_CQ_WB_LO m, 3, 29⟩
def Reg.CE_CQ_WB_HI (m : Nat) : Nat := 0x0200218 + 0x20 * m
def Fld.CE_CQ_WB_HI_ADDR (m : Nat) : Fld := ⟨Reg.CE_CQ_WB_HI m, 0, 32⟩
def Reg.CE_CQ_VEC (m : Nat) : Nat := 0x020021C + 0x20 * m
def Fld.CE_CQ_VEC_VECTOR (m : Nat) : Fld := ⟨Reg.CE_CQ_VEC m, 0, 9⟩
def Fld.CE_CQ_VEC_EN (m : Nat) : Fld := ⟨Reg.CE_CQ_VEC m, 9, 1⟩
def Fld.CE_CQ_VEC_COAL_CNT (m : Nat) : Fld := ⟨Reg.CE_CQ_VEC m, 16, 8⟩
def Fld.CE_CQ_VEC_COAL_TIME (m : Nat) : Fld := ⟨Reg.CE_CQ_VEC m, 24, 8⟩
def Reg.CE_CQ_STALL (m : Nat) : Nat := 0x0200300 + 0x4 * m
def Fld.CE_CQ_STALL_COUNT (m : Nat) : Fld := ⟨Reg.CE_CQ_STALL m, 0, 32⟩

/-! ### DMA (block 3, 02_host_rings_dma.md) -/

def Reg.DMA_RQ_BASE_LO : Nat := 0x0300000
def Fld.DMA_RQ_BASE_LO_ADDR : Fld := ⟨Reg.DMA_RQ_BASE_LO, 12, 20⟩
def Reg.DMA_RQ_BASE_HI : Nat := 0x0300004
def Fld.DMA_RQ_BASE_HI_ADDR : Fld := ⟨Reg.DMA_RQ_BASE_HI, 0, 32⟩
def Reg.DMA_RQ_SIZE : Nat := 0x0300008
def Fld.DMA_RQ_SIZE_SIZE_LOG2 : Fld := ⟨Reg.DMA_RQ_SIZE, 0, 5⟩
def Fld.DMA_RQ_SIZE_EN : Fld := ⟨Reg.DMA_RQ_SIZE, 31, 1⟩
def Reg.DMA_RQ_PI : Nat := 0x030000C
def Fld.DMA_RQ_PI_PI : Fld := ⟨Reg.DMA_RQ_PI, 0, 17⟩
def Reg.DMA_RQ_CI : Nat := 0x0300010
def Fld.DMA_RQ_CI_CI : Fld := ⟨Reg.DMA_RQ_CI, 0, 17⟩
def Reg.DMA_RQ_VEC : Nat := 0x0300014
def Fld.DMA_RQ_VEC_VECTOR : Fld := ⟨Reg.DMA_RQ_VEC, 0, 9⟩
def Fld.DMA_RQ_VEC_EN : Fld := ⟨Reg.DMA_RQ_VEC, 9, 1⟩
def Reg.DMA_RQ_STALL : Nat := 0x0300018
def Fld.DMA_RQ_STALL_COUNT : Fld := ⟨Reg.DMA_RQ_STALL, 0, 32⟩
def Reg.DMA_CH_STATUS (c : Nat) : Nat := 0x0300100 + 0x4 * c
def Fld.DMA_CH_STATUS_BUSY (c : Nat) : Fld := ⟨Reg.DMA_CH_STATUS c, 0, 1⟩
def Fld.DMA_CH_STATUS_REQUESTER (c : Nat) : Fld := ⟨Reg.DMA_CH_STATUS c, 1, 4⟩

/-! ### IGL (block 4, 02_host_rings_dma.md) -/

def Reg.IGL_ID : Nat := 0x0400000
def Fld.IGL_ID_CHAIN_ID : Fld := ⟨Reg.IGL_ID, 0, 6⟩
def Reg.IGL_CTRL : Nat := 0x0400004
def Fld.IGL_CTRL_ROLE : Fld := ⟨Reg.IGL_CTRL, 0, 2⟩
def Fld.IGL_CTRL_EAST_EN : Fld := ⟨Reg.IGL_CTRL, 4, 1⟩
def Fld.IGL_CTRL_WEST_EN : Fld := ⟨Reg.IGL_CTRL, 5, 1⟩
def Reg.IGL_STATUS : Nat := 0x0400008
def Fld.IGL_STATUS_EAST_UP : Fld := ⟨Reg.IGL_STATUS, 0, 1⟩
def Fld.IGL_STATUS_WEST_UP : Fld := ⟨Reg.IGL_STATUS, 1, 1⟩
def Fld.IGL_STATUS_RING_CLOSED : Fld := ⟨Reg.IGL_STATUS, 2, 1⟩
def Fld.IGL_STATUS_DUP_ID : Fld := ⟨Reg.IGL_STATUS, 3, 1⟩
def Fld.IGL_STATUS_DUP_WELLHEAD : Fld := ⟨Reg.IGL_STATUS, 4, 1⟩
def Fld.IGL_STATUS_WELLHEAD_ID : Fld := ⟨Reg.IGL_STATUS, 8, 6⟩
def Reg.IGL_PRESENT_LO : Nat := 0x0400010
def Fld.IGL_PRESENT_LO_PRESENT : Fld := ⟨Reg.IGL_PRESENT_LO, 0, 32⟩
def Reg.IGL_PRESENT_HI : Nat := 0x0400014
def Fld.IGL_PRESENT_HI_PRESENT : Fld := ⟨Reg.IGL_PRESENT_HI, 0, 32⟩
def Reg.IGL_BREAK_CNT : Nat := 0x0400018
def Fld.IGL_BREAK_CNT_COUNT : Fld := ⟨Reg.IGL_BREAK_CNT, 0, 32⟩
def Reg.IGL_TAKEOVER : Nat := 0x040001C
def Fld.IGL_TAKEOVER_GO : Fld := ⟨Reg.IGL_TAKEOVER, 0, 1⟩
def Reg.IGL_RELEASE : Nat := 0x0400020
def Fld.IGL_RELEASE_GO : Fld := ⟨Reg.IGL_RELEASE, 0, 1⟩
def Reg.IGL_LOST_CNT : Nat := 0x0400024
def Fld.IGL_LOST_CNT_COUNT : Fld := ⟨Reg.IGL_LOST_CNT, 0, 32⟩
def Reg.IGL_DEV (n : Nat) : Nat := 0x0400100 + 0x4 * n
def Fld.IGL_DEV_PF (n : Nat) : Fld := ⟨Reg.IGL_DEV n, 0, 4⟩
def Fld.IGL_DEV_WEIGHT (n : Nat) : Fld := ⟨Reg.IGL_DEV n, 4, 5⟩
def Fld.IGL_DEV_VEC_BASE (n : Nat) : Fld := ⟨Reg.IGL_DEV n, 12, 9⟩
def Fld.IGL_DEV_VEC_COUNT (n : Nat) : Fld := ⟨Reg.IGL_DEV n, 21, 7⟩
def Reg.IGL_HOPS (n : Nat) : Nat := 0x0400200 + 0x4 * n
def Fld.IGL_HOPS_EAST (n : Nat) : Fld := ⟨Reg.IGL_HOPS n, 0, 6⟩
def Fld.IGL_HOPS_WEST (n : Nat) : Fld := ⟨Reg.IGL_HOPS n, 8, 6⟩
def Fld.IGL_HOPS_REACHABLE (n : Nat) : Fld := ⟨Reg.IGL_HOPS n, 31, 1⟩

/-! ### ERR (block 5, 18_errors_welllog.md) -/

def Reg.ERR_STATUS : Nat := 0x0500000
def Fld.ERR_STATUS_LOG_LEVEL : Fld := ⟨Reg.ERR_STATUS, 0, 7⟩
def Fld.ERR_STATUS_FATAL : Fld := ⟨Reg.ERR_STATUS, 7, 1⟩
def Fld.ERR_STATUS_FROZEN : Fld := ⟨Reg.ERR_STATUS, 8, 1⟩
def Reg.ERR_LOG_POP : Nat := 0x0500004
def Fld.ERR_LOG_POP_GO : Fld := ⟨Reg.ERR_LOG_POP, 0, 1⟩
def Reg.ERR_LOG_OVF_CNT : Nat := 0x0500008
def Fld.ERR_LOG_OVF_CNT_COUNT : Fld := ⟨Reg.ERR_LOG_OVF_CNT, 0, 32⟩
def Reg.ERR_BLK_SEEN : Nat := 0x050000C
def Fld.ERR_BLK_SEEN_BLOCK : Fld := ⟨Reg.ERR_BLK_SEEN, 0, 28⟩
def Reg.ERR_LOG_HEAD (w : Nat) : Nat := 0x0500020 + 0x4 * w
def Fld.ERR_LOG_HEAD_DATA (w : Nat) : Fld := ⟨Reg.ERR_LOG_HEAD w, 0, 32⟩
def Reg.ERR_FATAL_CODE : Nat := 0x0500040
def Fld.ERR_FATAL_CODE_CODE : Fld := ⟨Reg.ERR_FATAL_CODE, 0, 16⟩
def Fld.ERR_FATAL_CODE_VALID : Fld := ⟨Reg.ERR_FATAL_CODE, 31, 1⟩
def Reg.ERR_FATAL_NS : Nat := 0x0500044
def Fld.ERR_FATAL_NS_NS : Fld := ⟨Reg.ERR_FATAL_NS, 0, 30⟩
def Reg.ERR_FATAL_SEC_LO : Nat := 0x0500048
def Fld.ERR_FATAL_SEC_LO_SEC : Fld := ⟨Reg.ERR_FATAL_SEC_LO, 0, 32⟩
def Reg.ERR_FATAL_SEC_HI : Nat := 0x050004C
def Fld.ERR_FATAL_SEC_HI_SEC : Fld := ⟨Reg.ERR_FATAL_SEC_HI, 0, 16⟩
def Reg.ERR_FATAL2 : Nat := 0x0500050
def Fld.ERR_FATAL2_CODE : Fld := ⟨Reg.ERR_FATAL2, 0, 16⟩
def Fld.ERR_FATAL2_COUNT : Fld := ⟨Reg.ERR_FATAL2, 16, 15⟩
def Fld.ERR_FATAL2_VALID : Fld := ⟨Reg.ERR_FATAL2, 31, 1⟩
def Reg.ERR_FATAL_FORCE : Nat := 0x0500060
def Fld.ERR_FATAL_FORCE_GO : Fld := ⟨Reg.ERR_FATAL_FORCE, 0, 1⟩
def Reg.ERR_WL_BASE_LO : Nat := 0x0500080
def Fld.ERR_WL_BASE_LO_ADDR : Fld := ⟨Reg.ERR_WL_BASE_LO, 12, 20⟩
def Reg.ERR_WL_BASE_HI : Nat := 0x0500084
def Fld.ERR_WL_BASE_HI_ADDR : Fld := ⟨Reg.ERR_WL_BASE_HI, 0, 32⟩
def Reg.ERR_WL_SIZE : Nat := 0x0500088
def Fld.ERR_WL_SIZE_SIZE_MIB : Fld := ⟨Reg.ERR_WL_SIZE, 0, 12⟩
def Fld.ERR_WL_SIZE_SUMP : Fld := ⟨Reg.ERR_WL_SIZE, 16, 1⟩
def Reg.ERR_WL_STATUS : Nat := 0x050008C
def Fld.ERR_WL_STATUS_STATE : Fld := ⟨Reg.ERR_WL_STATUS, 0, 3⟩
def Fld.ERR_WL_STATUS_SECTIONS : Fld := ⟨Reg.ERR_WL_STATUS, 4, 4⟩
def Fld.ERR_WL_STATUS_WAIT_RQ : Fld := ⟨Reg.ERR_WL_STATUS, 8, 1⟩
def Reg.ERR_WL_BYTES : Nat := 0x0500090
def Fld.ERR_WL_BYTES_BYTES : Fld := ⟨Reg.ERR_WL_BYTES, 0, 32⟩
def Reg.ERR_FAULT_CFG (i : Nat) : Nat := 0x0500100 + 0x10 * i
def Fld.ERR_FAULT_CFG_EN (i : Nat) : Fld := ⟨Reg.ERR_FAULT_CFG i, 0, 1⟩
def Fld.ERR_FAULT_CFG_POL (i : Nat) : Fld := ⟨Reg.ERR_FAULT_CFG i, 1, 1⟩
def Fld.ERR_FAULT_CFG_SEV (i : Nat) : Fld := ⟨Reg.ERR_FAULT_CFG i, 2, 2⟩
def Fld.ERR_FAULT_CFG_MIN_PULSE (i : Nat) : Fld := ⟨Reg.ERR_FAULT_CFG i, 16, 16⟩
def Reg.ERR_FAULT_STUCK (i : Nat) : Nat := 0x0500104 + 0x10 * i
def Fld.ERR_FAULT_STUCK_STUCK_MS (i : Nat) : Fld := ⟨Reg.ERR_FAULT_STUCK i, 0, 16⟩
def Reg.ERR_FAULT_STATUS (i : Nat) : Nat := 0x0500108 + 0x10 * i
def Fld.ERR_FAULT_STATUS_LEVEL (i : Nat) : Fld := ⟨Reg.ERR_FAULT_STATUS i, 0, 1⟩
def Fld.ERR_FAULT_STATUS_LATCHED (i : Nat) : Fld := ⟨Reg.ERR_FAULT_STATUS i, 1, 1⟩
def Fld.ERR_FAULT_STATUS_STUCK (i : Nat) : Fld := ⟨Reg.ERR_FAULT_STATUS i, 2, 1⟩
def Fld.ERR_FAULT_STATUS_GLITCH (i : Nat) : Fld := ⟨Reg.ERR_FAULT_STATUS i, 16, 16⟩
def Reg.ERR_SRC_MAP (n : Nat) : Nat := 0x0501000 + 0x4 * n
def Fld.ERR_SRC_MAP_VECTOR (n : Nat) : Fld := ⟨Reg.ERR_SRC_MAP n, 0, 9⟩
def Fld.ERR_SRC_MAP_EN (n : Nat) : Fld := ⟨Reg.ERR_SRC_MAP n, 9, 1⟩
def Fld.ERR_SRC_MAP_PF (n : Nat) : Fld := ⟨Reg.ERR_SRC_MAP n, 10, 4⟩
def Fld.ERR_SRC_MAP_PENDING (n : Nat) : Fld := ⟨Reg.ERR_SRC_MAP n, 31, 1⟩
def Reg.ERR_VEC (v : Nat) : Nat := 0x0503000 + 0x4 * v
def Fld.ERR_VEC_REARM (v : Nat) : Fld := ⟨Reg.ERR_VEC v, 0, 1⟩
def Fld.ERR_VEC_ACTIVE (v : Nat) : Fld := ⟨Reg.ERR_VEC v, 1, 1⟩
def Fld.ERR_VEC_MSG_CNT (v : Nat) : Fld := ⟨Reg.ERR_VEC v, 16, 16⟩
def Reg.ERR_SW_RAISE : Nat := 0x0503800
def Fld.ERR_SW_RAISE_MSG : Fld := ⟨Reg.ERR_SW_RAISE, 0, 9⟩

/-! ### PMC (block 6, 19_counters.md) -/

def Reg.PMC_RUN : Nat := 0x0600000
def Fld.PMC_RUN_OP : Fld := ⟨Reg.PMC_RUN, 0, 2⟩
def Fld.PMC_RUN_BANKS : Fld := ⟨Reg.PMC_RUN, 2, 2⟩
def Reg.PMC_STATUS : Nat := 0x0600004
def Fld.PMC_STATUS_RUNNING : Fld := ⟨Reg.PMC_STATUS, 0, 2⟩
def Fld.PMC_STATUS_PENDING : Fld := ⟨Reg.PMC_STATUS, 2, 1⟩
def Reg.PMC_CLR : Nat := 0x0600008
def Fld.PMC_CLR_INDEX : Fld := ⟨Reg.PMC_CLR, 0, 11⟩
def Fld.PMC_CLR_BANK : Fld := ⟨Reg.PMC_CLR, 11, 1⟩
def Fld.PMC_CLR_ALL : Fld := ⟨Reg.PMC_CLR, 12, 1⟩
def Reg.PMC_EVENT : Nat := 0x0600010
def Fld.PMC_EVENT_OVF_FE : Fld := ⟨Reg.PMC_EVENT, 0, 1⟩
def Fld.PMC_EVENT_OVF_TM : Fld := ⟨Reg.PMC_EVENT, 1, 1⟩
def Fld.PMC_EVENT_RUN_APPLIED : Fld := ⟨Reg.PMC_EVENT, 2, 1⟩
def Fld.PMC_EVENT_CFG_ERR : Fld := ⟨Reg.PMC_EVENT, 3, 1⟩
def Reg.PMC_EVENT_EN : Nat := 0x0600014
def Fld.PMC_EVENT_EN_EN : Fld := ⟨Reg.PMC_EVENT_EN, 0, 4⟩
def Reg.PMC_WIN_CFG : Nat := 0x0600018
def Fld.PMC_WIN_CFG_PF_MASK : Fld := ⟨Reg.PMC_WIN_CFG, 0, 8⟩
def Reg.PMC_WIN_WR_CNT : Nat := 0x060001C
def Fld.PMC_WIN_WR_CNT_COUNT : Fld := ⟨Reg.PMC_WIN_WR_CNT, 0, 32⟩
def Reg.PMC_WIN_MASK_LO : Nat := 0x0600020
def Fld.PMC_WIN_MASK_LO_GROUP : Fld := ⟨Reg.PMC_WIN_MASK_LO, 0, 32⟩
def Reg.PMC_WIN_MASK_HI : Nat := 0x0600024
def Fld.PMC_WIN_MASK_HI_GROUP : Fld := ⟨Reg.PMC_WIN_MASK_HI, 0, 32⟩
def Reg.PMC_LATCH_SEQ : Nat := 0x0600030
def Fld.PMC_LATCH_SEQ_SEQ : Fld := ⟨Reg.PMC_LATCH_SEQ, 0, 32⟩
def Reg.PMC_LATCH_NS : Nat := 0x0600034
def Fld.PMC_LATCH_NS_NS : Fld := ⟨Reg.PMC_LATCH_NS, 0, 30⟩
def Reg.PMC_LATCH_SEC_LO : Nat := 0x0600038
def Fld.PMC_LATCH_SEC_LO_SEC : Fld := ⟨Reg.PMC_LATCH_SEC_LO, 0, 32⟩
def Reg.PMC_LATCH_SEC_HI : Nat := 0x060003C
def Fld.PMC_LATCH_SEC_HI_SEC : Fld := ⟨Reg.PMC_LATCH_SEC_HI, 0, 16⟩
def Reg.PMC_OVF (b : Nat) (w : Nat) : Nat := 0x0601000 + 0x100 * b + 0x4 * w
def Fld.PMC_OVF_OVF (b : Nat) (w : Nat) : Fld := ⟨Reg.PMC_OVF b w, 0, 32⟩
def Reg.PMC_CFG (b : Nat) (n : Nat) : Nat := 0x0610000 + 0x4000 * b + 0x8 * n
def Fld.PMC_CFG_EVENT (b : Nat) (n : Nat) : Fld := ⟨Reg.PMC_CFG b n, 0, 12⟩
def Fld.PMC_CFG_INST (b : Nat) (n : Nat) : Fld := ⟨Reg.PMC_CFG b n, 12, 10⟩
def Fld.PMC_CFG_INST_ALL (b : Nat) (n : Nat) : Fld := ⟨Reg.PMC_CFG b n, 22, 1⟩
def Fld.PMC_CFG_CHAIN (b : Nat) (n : Nat) : Fld := ⟨Reg.PMC_CFG b n, 23, 1⟩
def Fld.PMC_CFG_OVF_EN (b : Nat) (n : Nat) : Fld := ⟨Reg.PMC_CFG b n, 24, 1⟩
def Fld.PMC_CFG_EN (b : Nat) (n : Nat) : Fld := ⟨Reg.PMC_CFG b n, 31, 1⟩
def Reg.PMC_QUAL (b : Nat) (n : Nat) : Nat := 0x0610004 + 0x4000 * b + 0x8 * n
def Fld.PMC_QUAL_QUAL (b : Nat) (n : Nat) : Fld := ⟨Reg.PMC_QUAL b n, 0, 8⟩
def Reg.PMC_CNT_LO (b : Nat) (n : Nat) : Nat := 0x0620000 + 0x4000 * b + 0x8 * n
def Fld.PMC_CNT_LO_VALUE (b : Nat) (n : Nat) : Fld := ⟨Reg.PMC_CNT_LO b n, 0, 32⟩
def Reg.PMC_CNT_HI (b : Nat) (n : Nat) : Nat := 0x0620004 + 0x4000 * b + 0x8 * n
def Fld.PMC_CNT_HI_VALUE (b : Nat) (n : Nat) : Fld := ⟨Reg.PMC_CNT_HI b n, 0, 16⟩
def Fld.PMC_CNT_HI_CHAIN_HI (b : Nat) (n : Nat) : Fld := ⟨Reg.PMC_CNT_HI b n, 16, 16⟩
def Reg.PMC_LAT_LO (b : Nat) (n : Nat) : Nat := 0x0630000 + 0x4000 * b + 0x8 * n
def Fld.PMC_LAT_LO_VALUE (b : Nat) (n : Nat) : Fld := ⟨Reg.PMC_LAT_LO b n, 0, 32⟩
def Reg.PMC_LAT_HI (b : Nat) (n : Nat) : Nat := 0x0630004 + 0x4000 * b + 0x8 * n
def Fld.PMC_LAT_HI_VALUE (b : Nat) (n : Nat) : Fld := ⟨Reg.PMC_LAT_HI b n, 0, 32⟩

/-! ### PWR (block 7, 16_power_thermal.md) -/

def Reg.PWR_PKG_POWER : Nat := 0x0700000
def Fld.PWR_PKG_POWER_P : Fld := ⟨Reg.PWR_PKG_POWER, 0, 16⟩
def Reg.PWR_GOV_CFG : Nat := 0x0700020
def Fld.PWR_GOV_CFG_EN : Fld := ⟨Reg.PWR_GOV_CFG, 0, 1⟩
def Fld.PWR_GOV_CFG_Y_FLOOR : Fld := ⟨Reg.PWR_GOV_CFG, 1, 3⟩
def Fld.PWR_GOV_CFG_BG_YIELD : Fld := ⟨Reg.PWR_GOV_CFG, 4, 4⟩
def Fld.PWR_GOV_CFG_LOW_PCT : Fld := ⟨Reg.PWR_GOV_CFG, 8, 8⟩
def Fld.PWR_GOV_CFG_HIGH_PCT : Fld := ⟨Reg.PWR_GOV_CFG, 16, 8⟩
def Reg.PWR_GOV_LIMIT : Nat := 0x0700024
def Fld.PWR_GOV_LIMIT_LIMIT_W : Fld := ⟨Reg.PWR_GOV_LIMIT, 0, 16⟩
def Fld.PWR_GOV_LIMIT_STEP_US : Fld := ⟨Reg.PWR_GOV_LIMIT, 16, 16⟩
def Reg.PWR_GOV_EMAX : Nat := 0x0700028
def Fld.PWR_GOV_EMAX_E_MAX_MJ : Fld := ⟨Reg.PWR_GOV_EMAX, 0, 16⟩
def Reg.PWR_GOV_STATUS : Nat := 0x070002C
def Fld.PWR_GOV_STATUS_Y : Fld := ⟨Reg.PWR_GOV_STATUS, 0, 3⟩
def Fld.PWR_GOV_STATUS_Y_ENERGY : Fld := ⟨Reg.PWR_GOV_STATUS, 3, 3⟩
def Fld.PWR_GOV_STATUS_Y_THERMAL : Fld := ⟨Reg.PWR_GOV_STATUS, 6, 3⟩
def Fld.PWR_GOV_STATUS_THERM_STEP : Fld := ⟨Reg.PWR_GOV_STATUS, 9, 2⟩
def Fld.PWR_GOV_STATUS_BG_LEVEL : Fld := ⟨Reg.PWR_GOV_STATUS, 11, 2⟩
def Fld.PWR_GOV_STATUS_E_MJ : Fld := ⟨Reg.PWR_GOV_STATUS, 16, 16⟩
def Reg.PWR_GOV_YTHERM : Nat := 0x0700030
def Fld.PWR_GOV_YTHERM_YT (sub : Nat) : Fld := ⟨Reg.PWR_GOV_YTHERM, 3 * sub, 3⟩
def Reg.PWR_THERM_CFG : Nat := 0x0700040
def Fld.PWR_THERM_CFG_HYST_C : Fld := ⟨Reg.PWR_THERM_CFG, 0, 4⟩
def Reg.PWR_THERM_MAX : Nat := 0x0700044
def Fld.PWR_THERM_MAX_TEMP : Fld := ⟨Reg.PWR_THERM_MAX, 0, 12⟩
def Fld.PWR_THERM_MAX_SENSOR : Fld := ⟨Reg.PWR_THERM_MAX, 12, 6⟩
def Fld.PWR_THERM_MAX_VALID : Fld := ⟨Reg.PWR_THERM_MAX, 31, 1⟩
def Reg.PWR_TRIP_INFO : Nat := 0x0700048
def Fld.PWR_TRIP_INFO_TEMP : Fld := ⟨Reg.PWR_TRIP_INFO, 0, 12⟩
def Fld.PWR_TRIP_INFO_SENSOR : Fld := ⟨Reg.PWR_TRIP_INFO, 12, 6⟩
def Fld.PWR_TRIP_INFO_TRIPPED : Fld := ⟨Reg.PWR_TRIP_INFO, 31, 1⟩
def Reg.PWR_FENCE_CFG : Nat := 0x0700060
def Fld.PWR_FENCE_CFG_EN : Fld := ⟨Reg.PWR_FENCE_CFG, 0, 1⟩
def Fld.PWR_FENCE_CFG_FILL_PCT : Fld := ⟨Reg.PWR_FENCE_CFG, 8, 8⟩
def Fld.PWR_FENCE_CFG_SPARE : Fld := ⟨Reg.PWR_FENCE_CFG, 16, 4⟩
def Fld.PWR_FENCE_CFG_N_MIN : Fld := ⟨Reg.PWR_FENCE_CFG, 20, 6⟩
def Reg.PWR_FENCE_EVAL : Nat := 0x0700064
def Fld.PWR_FENCE_EVAL_EVAL_MS : Fld := ⟨Reg.PWR_FENCE_EVAL, 0, 16⟩
def Reg.PWR_FEED_CFG : Nat := 0x0700080
def Fld.PWR_FEED_CFG_PREF : Fld := ⟨Reg.PWR_FEED_CFG, 0, 1⟩
def Fld.PWR_FEED_CFG_REVERT_EN : Fld := ⟨Reg.PWR_FEED_CFG, 1, 1⟩
def Fld.PWR_FEED_CFG_HEALTH_MODE : Fld := ⟨Reg.PWR_FEED_CFG, 2, 1⟩
def Fld.PWR_FEED_CFG_SAG_FILTER : Fld := ⟨Reg.PWR_FEED_CFG, 8, 8⟩
def Fld.PWR_FEED_CFG_HOLD_S : Fld := ⟨Reg.PWR_FEED_CFG, 16, 16⟩
def Reg.PWR_FEED_TEST : Nat := 0x0700084
def Fld.PWR_FEED_TEST_TEST_MIN : Fld := ⟨Reg.PWR_FEED_TEST, 0, 16⟩
def Reg.PWR_FEED_STATUS : Nat := 0x0700088
def Fld.PWR_FEED_STATUS_ACTIVE : Fld := ⟨Reg.PWR_FEED_STATUS, 0, 1⟩
def Fld.PWR_FEED_STATUS_STATE_A : Fld := ⟨Reg.PWR_FEED_STATUS, 1, 2⟩
def Fld.PWR_FEED_STATUS_STATE_B : Fld := ⟨Reg.PWR_FEED_STATUS, 3, 2⟩
def Fld.PWR_FEED_STATUS_TRANSFER : Fld := ⟨Reg.PWR_FEED_STATUS, 5, 1⟩
def Fld.PWR_FEED_STATUS_HOLDING : Fld := ⟨Reg.PWR_FEED_STATUS, 6, 1⟩
def Fld.PWR_FEED_STATUS_HEALTH : Fld := ⟨Reg.PWR_FEED_STATUS, 8, 3⟩
def Reg.PWR_FEED_A : Nat := 0x070008C
def Fld.PWR_FEED_A_MV : Fld := ⟨Reg.PWR_FEED_A, 0, 16⟩
def Fld.PWR_FEED_A_CURRENT : Fld := ⟨Reg.PWR_FEED_A, 16, 16⟩
def Reg.PWR_FEED_B : Nat := 0x0700090
def Fld.PWR_FEED_B_MV : Fld := ⟨Reg.PWR_FEED_B, 0, 16⟩
def Fld.PWR_FEED_B_CURRENT : Fld := ⟨Reg.PWR_FEED_B, 16, 16⟩
def Reg.PWR_FEED_LAST_NS : Nat := 0x0700094
def Fld.PWR_FEED_LAST_NS_NS : Fld := ⟨Reg.PWR_FEED_LAST_NS, 0, 30⟩
def Reg.PWR_FEED_LAST_SEC_LO : Nat := 0x0700098
def Fld.PWR_FEED_LAST_SEC_LO_SEC : Fld := ⟨Reg.PWR_FEED_LAST_SEC_LO, 0, 32⟩
def Reg.PWR_FEED_LAST_SEC_HI : Nat := 0x070009C
def Fld.PWR_FEED_LAST_SEC_HI_SEC : Fld := ⟨Reg.PWR_FEED_LAST_SEC_HI, 0, 16⟩
def Reg.PWR_FEED_CNT : Nat := 0x07000A0
def Fld.PWR_FEED_CNT_FAILOVERS : Fld := ⟨Reg.PWR_FEED_CNT, 0, 16⟩
def Fld.PWR_FEED_CNT_REVERTS : Fld := ⟨Reg.PWR_FEED_CNT, 16, 16⟩
def Reg.PWR_FEED_CNT2 : Nat := 0x07000A4
def Fld.PWR_FEED_CNT2_SAG_GLITCH : Fld := ⟨Reg.PWR_FEED_CNT2, 0, 16⟩
def Fld.PWR_FEED_CNT2_NO_STANDBY : Fld := ⟨Reg.PWR_FEED_CNT2, 16, 16⟩
def Reg.PWR_EVENT : Nat := 0x07000B0
def Fld.PWR_EVENT_THERM_STEP : Fld := ⟨Reg.PWR_EVENT, 0, 1⟩
def Fld.PWR_EVENT_SENSOR_FAULT : Fld := ⟨Reg.PWR_EVENT, 1, 1⟩
def Fld.PWR_EVENT_COLD : Fld := ⟨Reg.PWR_EVENT, 2, 1⟩
def Fld.PWR_EVENT_ENERGY_LOW : Fld := ⟨Reg.PWR_EVENT, 3, 1⟩
def Fld.PWR_EVENT_PARKED : Fld := ⟨Reg.PWR_EVENT, 4, 1⟩
def Fld.PWR_EVENT_READY : Fld := ⟨Reg.PWR_EVENT, 5, 1⟩
def Fld.PWR_EVENT_FAILOVER : Fld := ⟨Reg.PWR_EVENT, 6, 1⟩
def Fld.PWR_EVENT_REVERT : Fld := ⟨Reg.PWR_EVENT, 7, 1⟩
def Fld.PWR_EVENT_NO_STANDBY : Fld := ⟨Reg.PWR_EVENT, 8, 1⟩
def Fld.PWR_EVENT_FAILOVER_FAIL : Fld := ⟨Reg.PWR_EVENT, 9, 1⟩
def Fld.PWR_EVENT_HEALTH_DONE : Fld := ⟨Reg.PWR_EVENT, 10, 1⟩
def Fld.PWR_EVENT_HEALTH_FAIL : Fld := ⟨Reg.PWR_EVENT, 11, 1⟩
def Reg.PWR_EVENT_EN : Nat := 0x07000B4
def Fld.PWR_EVENT_EN_EN : Fld := ⟨Reg.PWR_EVENT_EN, 0, 12⟩
def Reg.PWR_DOM_STATE (d : Nat) : Nat := 0x0700100 + 0x4 * d
def Fld.PWR_DOM_STATE_STATE (d : Nat) : Fld := ⟨Reg.PWR_DOM_STATE d, 0, 2⟩
def Fld.PWR_DOM_STATE_POWER (d : Nat) : Fld := ⟨Reg.PWR_DOM_STATE d, 4, 12⟩
def Fld.PWR_DOM_STATE_PARK_CNT (d : Nat) : Fld := ⟨Reg.PWR_DOM_STATE d, 16, 16⟩
def Reg.PWR_TEMP (s : Nat) : Nat := 0x0700400 + 0x4 * s
def Fld.PWR_TEMP_TEMP (s : Nat) : Fld := ⟨Reg.PWR_TEMP s, 0, 12⟩
def Fld.PWR_TEMP_FAULT (s : Nat) : Fld := ⟨Reg.PWR_TEMP s, 12, 1⟩
def Fld.PWR_TEMP_EXCLUDE (s : Nat) : Fld := ⟨Reg.PWR_TEMP s, 13, 1⟩

/-! ### TIM (block 8, 15_time.md) -/

def Reg.TIM_CFG : Nat := 0x0800000
def Fld.TIM_CFG_REF_FREQ : Fld := ⟨Reg.TIM_CFG, 0, 2⟩
def Reg.TIM_STATUS : Nat := 0x0800004
def Fld.TIM_STATUS_PLL_LOCK : Fld := ⟨Reg.TIM_STATUS, 0, 1⟩
def Fld.TIM_STATUS_REF_PRESENT : Fld := ⟨Reg.TIM_STATUS, 1, 1⟩
def Fld.TIM_STATUS_STAMP_DOM : Fld := ⟨Reg.TIM_STATUS, 2, 1⟩
def Fld.TIM_STATUS_SWITCHING : Fld := ⟨Reg.TIM_STATUS, 3, 1⟩
def Reg.TIM_EVENT : Nat := 0x0800008
def Fld.TIM_EVENT_REF_LOSS : Fld := ⟨Reg.TIM_EVENT, 0, 1⟩
def Fld.TIM_EVENT_REF_BACK : Fld := ⟨Reg.TIM_EVENT, 1, 1⟩
def Fld.TIM_EVENT_SWITCHED : Fld := ⟨Reg.TIM_EVENT, 2, 1⟩
def Fld.TIM_EVENT_STEPPED : Fld := ⟨Reg.TIM_EVENT, 3, 1⟩
def Fld.TIM_EVENT_RATE_CLAMP : Fld := ⟨Reg.TIM_EVENT, 4, 1⟩
def Fld.TIM_EVENT_PPSIN_EDGE : Fld := ⟨Reg.TIM_EVENT, 5, 2⟩
def Fld.TIM_EVENT_PPSIN_LOSS : Fld := ⟨Reg.TIM_EVENT, 7, 2⟩
def Fld.TIM_EVENT_SYNCE_SQUELCH : Fld := ⟨Reg.TIM_EVENT, 9, 2⟩
def Fld.TIM_EVENT_TXTS_OVF : Fld := ⟨Reg.TIM_EVENT, 11, 1⟩
def Fld.TIM_EVENT_SLEW_DONE : Fld := ⟨Reg.TIM_EVENT, 12, 1⟩
def Fld.TIM_EVENT_TM_TIME_LOST : Fld := ⟨Reg.TIM_EVENT, 13, 1⟩
def Fld.TIM_EVENT_TRIG : Fld := ⟨Reg.TIM_EVENT, 16, 8⟩
def Reg.TIM_EVENT_EN : Nat := 0x080000C
def Fld.TIM_EVENT_EN_EN : Fld := ⟨Reg.TIM_EVENT_EN, 0, 24⟩
def Reg.TIM_SNAP : Nat := 0x0800010
def Fld.TIM_SNAP_GO : Fld := ⟨Reg.TIM_SNAP, 0, 1⟩
def Reg.TIM_TICK_CNT : Nat := 0x0800014
def Fld.TIM_TICK_CNT_COUNT : Fld := ⟨Reg.TIM_TICK_CNT, 0, 32⟩
def Reg.TIM_SNAP_NS (d : Nat) : Nat := 0x0800020 + 0x10 * d
def Fld.TIM_SNAP_NS_NS (d : Nat) : Fld := ⟨Reg.TIM_SNAP_NS d, 0, 30⟩
def Reg.TIM_SNAP_SEC_LO (d : Nat) : Nat := 0x0800024 + 0x10 * d
def Fld.TIM_SNAP_SEC_LO_SEC (d : Nat) : Fld := ⟨Reg.TIM_SNAP_SEC_LO d, 0, 32⟩
def Reg.TIM_SNAP_SEC_HI (d : Nat) : Nat := 0x0800028 + 0x10 * d
def Fld.TIM_SNAP_SEC_HI_SEC (d : Nat) : Fld := ⟨Reg.TIM_SNAP_SEC_HI d, 0, 16⟩
def Reg.TIM_DOM_STATE (d : Nat) : Nat := 0x0800100 + 0x20 * d
def Fld.TIM_DOM_STATE_SET (d : Nat) : Fld := ⟨Reg.TIM_DOM_STATE d, 0, 1⟩
def Fld.TIM_DOM_STATE_PERMIT (d : Nat) : Fld := ⟨Reg.TIM_DOM_STATE d, 1, 1⟩
def Fld.TIM_DOM_STATE_SLEWING (d : Nat) : Fld := ⟨Reg.TIM_DOM_STATE d, 2, 1⟩
def Reg.TIM_DOM_RATE_LO (d : Nat) : Nat := 0x0800104 + 0x20 * d
def Fld.TIM_DOM_RATE_LO_RHO (d : Nat) : Fld := ⟨Reg.TIM_DOM_RATE_LO d, 0, 32⟩
def Reg.TIM_DOM_RATE_HI (d : Nat) : Nat := 0x0800108 + 0x20 * d
def Fld.TIM_DOM_RATE_HI_RHO (d : Nat) : Fld := ⟨Reg.TIM_DOM_RATE_HI d, 0, 16⟩
def Reg.TIM_DOM_DRIFT (d : Nat) : Nat := 0x080010C + 0x20 * d
def Fld.TIM_DOM_DRIFT_DRIFT (d : Nat) : Fld := ⟨Reg.TIM_DOM_DRIFT d, 0, 32⟩
def Reg.TIM_DOM_SLEW_LO (d : Nat) : Nat := 0x0800110 + 0x20 * d
def Fld.TIM_DOM_SLEW_LO_LEFT (d : Nat) : Fld := ⟨Reg.TIM_DOM_SLEW_LO d, 0, 32⟩
def Reg.TIM_DOM_SLEW_HI (d : Nat) : Nat := 0x0800114 + 0x20 * d
def Fld.TIM_DOM_SLEW_HI_LEFT (d : Nat) : Fld := ⟨Reg.TIM_DOM_SLEW_HI d, 0, 32⟩
def Reg.TIM_PPSIN_CFG (n : Nat) : Nat := 0x0800200 + 0x20 * n
def Fld.TIM_PPSIN_CFG_EN (n : Nat) : Fld := ⟨Reg.TIM_PPSIN_CFG n, 0, 1⟩
def Fld.TIM_PPSIN_CFG_POL (n : Nat) : Fld := ⟨Reg.TIM_PPSIN_CFG n, 1, 1⟩
def Fld.TIM_PPSIN_CFG_DOM (n : Nat) : Fld := ⟨Reg.TIM_PPSIN_CFG n, 2, 1⟩
def Fld.TIM_PPSIN_CFG_MIN_PULSE (n : Nat) : Fld := ⟨Reg.TIM_PPSIN_CFG n, 16, 16⟩
def Reg.TIM_PPSIN_WIN (n : Nat) : Nat := 0x0800204 + 0x20 * n
def Fld.TIM_PPSIN_WIN_MIN_GAP_MS (n : Nat) : Fld := ⟨Reg.TIM_PPSIN_WIN n, 0, 16⟩
def Fld.TIM_PPSIN_WIN_LOSS_MS (n : Nat) : Fld := ⟨Reg.TIM_PPSIN_WIN n, 16, 16⟩
def Reg.TIM_PPSIN_NS (n : Nat) : Nat := 0x0800208 + 0x20 * n
def Fld.TIM_PPSIN_NS_NS (n : Nat) : Fld := ⟨Reg.TIM_PPSIN_NS n, 0, 30⟩
def Fld.TIM_PPSIN_NS_QNS (n : Nat) : Fld := ⟨Reg.TIM_PPSIN_NS n, 30, 2⟩
def Reg.TIM_PPSIN_SEC_LO (n : Nat) : Nat := 0x080020C + 0x20 * n
def Fld.TIM_PPSIN_SEC_LO_SEC (n : Nat) : Fld := ⟨Reg.TIM_PPSIN_SEC_LO n, 0, 32⟩
def Reg.TIM_PPSIN_SEC_HI (n : Nat) : Nat := 0x0800210 + 0x20 * n
def Fld.TIM_PPSIN_SEC_HI_SEC (n : Nat) : Fld := ⟨Reg.TIM_PPSIN_SEC_HI n, 0, 16⟩
def Reg.TIM_PPSIN_SEQ (n : Nat) : Nat := 0x0800214 + 0x20 * n
def Fld.TIM_PPSIN_SEQ_SEQ (n : Nat) : Fld := ⟨Reg.TIM_PPSIN_SEQ n, 0, 16⟩
def Fld.TIM_PPSIN_SEQ_LOST (n : Nat) : Fld := ⟨Reg.TIM_PPSIN_SEQ n, 31, 1⟩
def Reg.TIM_PPSIN_CNT (n : Nat) : Nat := 0x0800218 + 0x20 * n
def Fld.TIM_PPSIN_CNT_GLITCH (n : Nat) : Fld := ⟨Reg.TIM_PPSIN_CNT n, 0, 16⟩
def Fld.TIM_PPSIN_CNT_EARLY (n : Nat) : Fld := ⟨Reg.TIM_PPSIN_CNT n, 16, 16⟩
def Reg.TIM_PPSIN_ADJ (n : Nat) : Nat := 0x080021C + 0x20 * n
def Fld.TIM_PPSIN_ADJ_ADJ (n : Nat) : Fld := ⟨Reg.TIM_PPSIN_ADJ n, 0, 16⟩
def Reg.TIM_PPSOUT_CFG (n : Nat) : Nat := 0x0800300 + 0x10 * n
def Fld.TIM_PPSOUT_CFG_EN (n : Nat) : Fld := ⟨Reg.TIM_PPSOUT_CFG n, 0, 1⟩
def Fld.TIM_PPSOUT_CFG_POL (n : Nat) : Fld := ⟨Reg.TIM_PPSOUT_CFG n, 1, 1⟩
def Fld.TIM_PPSOUT_CFG_DOM (n : Nat) : Fld := ⟨Reg.TIM_PPSOUT_CFG n, 2, 1⟩
def Fld.TIM_PPSOUT_CFG_WIDTH_MS (n : Nat) : Fld := ⟨Reg.TIM_PPSOUT_CFG n, 6, 10⟩
def Reg.TIM_PPSOUT_OFS (n : Nat) : Nat := 0x0800304 + 0x10 * n
def Fld.TIM_PPSOUT_OFS_OFFSET (n : Nat) : Fld := ⟨Reg.TIM_PPSOUT_OFS n, 0, 32⟩
def Reg.TIM_PPSOUT_SKIP (n : Nat) : Nat := 0x0800308 + 0x10 * n
def Fld.TIM_PPSOUT_SKIP_COUNT (n : Nat) : Fld := ⟨Reg.TIM_PPSOUT_SKIP n, 0, 32⟩
def Reg.TIM_SYNCE_CFG (n : Nat) : Nat := 0x0800400 + 0x10 * n
def Fld.TIM_SYNCE_CFG_EN (n : Nat) : Fld := ⟨Reg.TIM_SYNCE_CFG n, 0, 1⟩
def Fld.TIM_SYNCE_CFG_SQUELCH_EN (n : Nat) : Fld := ⟨Reg.TIM_SYNCE_CFG n, 1, 1⟩
def Fld.TIM_SYNCE_CFG_LANE (n : Nat) : Fld := ⟨Reg.TIM_SYNCE_CFG n, 2, 7⟩
def Fld.TIM_SYNCE_CFG_DIV_M1 (n : Nat) : Fld := ⟨Reg.TIM_SYNCE_CFG n, 9, 12⟩
def Fld.TIM_SYNCE_CFG_HOLD_MS (n : Nat) : Fld := ⟨Reg.TIM_SYNCE_CFG n, 21, 11⟩
def Reg.TIM_SYNCE_STATUS (n : Nat) : Nat := 0x0800404 + 0x10 * n
def Fld.TIM_SYNCE_STATUS_SQUELCHED (n : Nat) : Fld := ⟨Reg.TIM_SYNCE_STATUS n, 0, 1⟩
def Reg.TIM_TRIG_CFG (n : Nat) : Nat := 0x0800500 + 0x20 * n
def Fld.TIM_TRIG_CFG_EN (n : Nat) : Fld := ⟨Reg.TIM_TRIG_CFG n, 0, 1⟩
def Fld.TIM_TRIG_CFG_LATE (n : Nat) : Fld := ⟨Reg.TIM_TRIG_CFG n, 1, 1⟩
def Fld.TIM_TRIG_CFG_FIRED (n : Nat) : Fld := ⟨Reg.TIM_TRIG_CFG n, 2, 1⟩
def Reg.TIM_TRIG_NS (n : Nat) : Nat := 0x0800504 + 0x20 * n
def Fld.TIM_TRIG_NS_NS (n : Nat) : Fld := ⟨Reg.TIM_TRIG_NS n, 0, 30⟩
def Reg.TIM_TRIG_SEC_LO (n : Nat) : Nat := 0x0800508 + 0x20 * n
def Fld.TIM_TRIG_SEC_LO_SEC (n : Nat) : Fld := ⟨Reg.TIM_TRIG_SEC_LO n, 0, 32⟩
def Reg.TIM_TRIG_SEC_HI (n : Nat) : Nat := 0x080050C + 0x20 * n
def Fld.TIM_TRIG_SEC_HI_SEC (n : Nat) : Fld := ⟨Reg.TIM_TRIG_SEC_HI n, 0, 16⟩
def Reg.TIM_TRIG_PERIOD (n : Nat) : Nat := 0x0800510 + 0x20 * n
def Fld.TIM_TRIG_PERIOD_PERIOD_NS (n : Nat) : Fld := ⟨Reg.TIM_TRIG_PERIOD n, 0, 32⟩
def Reg.TIM_TRIG_MISSED (n : Nat) : Nat := 0x0800514 + 0x20 * n
def Fld.TIM_TRIG_MISSED_COUNT (n : Nat) : Fld := ⟨Reg.TIM_TRIG_MISSED n, 0, 32⟩
def Reg.TIM_PTP_CFG : Nat := 0x0800600
def Fld.TIM_PTP_CFG_HDR_TYPE : Fld := ⟨Reg.TIM_PTP_CFG, 0, 8⟩
def Fld.TIM_PTP_CFG_TC_EN : Fld := ⟨Reg.TIM_PTP_CFG, 8, 1⟩
def Fld.TIM_PTP_CFG_HOST_ONE_STEP : Fld := ⟨Reg.TIM_PTP_CFG, 9, 1⟩
def Reg.TIM_PORT_PTP (p : Nat) : Nat := 0x0801000 + 0x4 * p
def Fld.TIM_PORT_PTP_OS_DOM (p : Nat) : Fld := ⟨Reg.TIM_PORT_PTP p, 0, 1⟩
def Fld.TIM_PORT_PTP_TXTS_LEVEL (p : Nat) : Fld := ⟨Reg.TIM_PORT_PTP p, 1, 7⟩
def Fld.TIM_PORT_PTP_TXTS_OVF (p : Nat) : Fld := ⟨Reg.TIM_PORT_PTP p, 16, 16⟩

/-! ### FWU (block 9, 20_firmware_update.md) -/

def Reg.FWU_VERSION : Nat := 0x0900000
def Fld.FWU_VERSION_VERSION : Fld := ⟨Reg.FWU_VERSION, 0, 32⟩
def Reg.FWU_BUILD : Nat := 0x0900004
def Fld.FWU_BUILD_BUILD : Fld := ⟨Reg.FWU_BUILD, 0, 32⟩
def Reg.FWU_STATUS : Nat := 0x0900008
def Fld.FWU_STATUS_MODE : Fld := ⟨Reg.FWU_STATUS, 0, 1⟩
def Fld.FWU_STATUS_RUN_BANK : Fld := ⟨Reg.FWU_STATUS, 1, 1⟩
def Fld.FWU_STATUS_PHASE : Fld := ⟨Reg.FWU_STATUS, 2, 3⟩
def Fld.FWU_STATUS_SESSION : Fld := ⟨Reg.FWU_STATUS, 5, 2⟩
def Fld.FWU_STATUS_FALLBACK_AVAIL : Fld := ⟨Reg.FWU_STATUS, 7, 1⟩
def Fld.FWU_STATUS_HOLDER : Fld := ⟨Reg.FWU_STATUS, 8, 4⟩
def Fld.FWU_STATUS_HOLDER_CHAIN : Fld := ⟨Reg.FWU_STATUS, 12, 6⟩
def Reg.FWU_BANK (k : Nat) : Nat := 0x0900010 + 0x4 * k
def Fld.FWU_BANK_STATE (k : Nat) : Fld := ⟨Reg.FWU_BANK k, 0, 3⟩
def Fld.FWU_BANK_REASON (k : Nat) : Fld := ⟨Reg.FWU_BANK k, 4, 4⟩
def Reg.FWU_BANK_VER (k : Nat) : Nat := 0x0900018 + 0x4 * k
def Fld.FWU_BANK_VER_VERSION (k : Nat) : Fld := ⟨Reg.FWU_BANK_VER k, 0, 32⟩
def Reg.FWU_SESSION_ID : Nat := 0x0900020
def Fld.FWU_SESSION_ID_ID : Fld := ⟨Reg.FWU_SESSION_ID, 0, 32⟩
def Reg.FWU_SESSION_CNT : Nat := 0x0900024
def Fld.FWU_SESSION_CNT_STORED : Fld := ⟨Reg.FWU_SESSION_CNT, 0, 13⟩
def Fld.FWU_SESSION_CNT_COUNT : Fld := ⟨Reg.FWU_SESSION_CNT, 16, 13⟩
def Reg.FWU_CFG : Nat := 0x0900028
def Fld.FWU_CFG_WINDOW_S : Fld := ⟨Reg.FWU_CFG, 0, 12⟩
def Fld.FWU_CFG_IDLE_H : Fld := ⟨Reg.FWU_CFG, 16, 16⟩
def Reg.FWU_TRIAL_LEFT : Nat := 0x090002C
def Fld.FWU_TRIAL_LEFT_SECONDS : Fld := ⟨Reg.FWU_TRIAL_LEFT, 0, 12⟩
def Reg.FWU_EVENT : Nat := 0x0900030
def Fld.FWU_EVENT_SESSION_END : Fld := ⟨Reg.FWU_EVENT, 0, 1⟩
def Fld.FWU_EVENT_APPLY_DONE : Fld := ⟨Reg.FWU_EVENT, 1, 1⟩
def Fld.FWU_EVENT_APPLY_FAIL : Fld := ⟨Reg.FWU_EVENT, 2, 1⟩
def Fld.FWU_EVENT_HANDOVER_FAIL : Fld := ⟨Reg.FWU_EVENT, 3, 1⟩
def Fld.FWU_EVENT_CONFIRMED : Fld := ⟨Reg.FWU_EVENT, 4, 1⟩
def Fld.FWU_EVENT_FALLBACK : Fld := ⟨Reg.FWU_EVENT, 5, 1⟩
def Fld.FWU_EVENT_FALLBACK_LOST : Fld := ⟨Reg.FWU_EVENT, 6, 1⟩
def Fld.FWU_EVENT_MBOX_DONE : Fld := ⟨Reg.FWU_EVENT, 7, 1⟩
def Reg.FWU_EVENT_EN : Nat := 0x0900034
def Fld.FWU_EVENT_EN_EN : Fld := ⟨Reg.FWU_EVENT_EN, 0, 8⟩
def Reg.FWU_MBOX_CTRL : Nat := 0x0900040
def Fld.FWU_MBOX_CTRL_GO : Fld := ⟨Reg.FWU_MBOX_CTRL, 0, 1⟩
def Fld.FWU_MBOX_CTRL_BUSY : Fld := ⟨Reg.FWU_MBOX_CTRL, 1, 1⟩
def Fld.FWU_MBOX_CTRL_OP : Fld := ⟨Reg.FWU_MBOX_CTRL, 8, 8⟩
def Fld.FWU_MBOX_CTRL_STATUS : Fld := ⟨Reg.FWU_MBOX_CTRL, 16, 16⟩
def Reg.FWU_RECOVERY : Nat := 0x0900080
def Fld.FWU_RECOVERY_ARM : Fld := ⟨Reg.FWU_RECOVERY, 0, 1⟩
def Reg.FWU_MBOX_ARG (a : Nat) : Nat := 0x0900100 + 0x4 * a
def Fld.FWU_MBOX_ARG_ARG (a : Nat) : Fld := ⟨Reg.FWU_MBOX_ARG a, 0, 32⟩
def Reg.FWU_MBOX_RES (r : Nat) : Nat := 0x0900140 + 0x4 * r
def Fld.FWU_MBOX_RES_RES (r : Nat) : Fld := ⟨Reg.FWU_MBOX_RES r, 0, 32⟩
def Reg.FWU_STAGE (w : Nat) : Nat := 0x0901000 + 0x4 * w
def Fld.FWU_STAGE_DATA (w : Nat) : Fld := ⟨Reg.FWU_STAGE w, 0, 32⟩

/-! ### RST (block 10, 21_startup_longevity.md) -/

def Reg.RST_STATUS : Nat := 0x0A00000
def Fld.RST_STATUS_PHASE : Fld := ⟨Reg.RST_STATUS, 0, 4⟩
def Fld.RST_STATUS_FAIL_STEP : Fld := ⟨Reg.RST_STATUS, 4, 4⟩
def Fld.RST_STATUS_READY : Fld := ⟨Reg.RST_STATUS, 8, 1⟩
def Fld.RST_STATUS_DIE_FE_BUSY : Fld := ⟨Reg.RST_STATUS, 9, 1⟩
def Fld.RST_STATUS_DIE_TM_BUSY : Fld := ⟨Reg.RST_STATUS, 10, 1⟩
def Fld.RST_STATUS_REL_ERR : Fld := ⟨Reg.RST_STATUS, 11, 1⟩
def Fld.RST_STATUS_DEGRADED : Fld := ⟨Reg.RST_STATUS, 12, 1⟩
def Reg.RST_CTRL : Nat := 0x0A00004
def Fld.RST_CTRL_DEVICE : Fld := ⟨Reg.RST_CTRL, 0, 1⟩
def Fld.RST_CTRL_DIE_FE : Fld := ⟨Reg.RST_CTRL, 1, 1⟩
def Fld.RST_CTRL_DIE_TM : Fld := ⟨Reg.RST_CTRL, 2, 1⟩
def Fld.RST_CTRL_RELEASE : Fld := ⟨Reg.RST_CTRL, 3, 1⟩
def Reg.RST_CFG : Nat := 0x0A00008
def Fld.RST_CFG_HOLD : Fld := ⟨Reg.RST_CFG, 0, 1⟩
def Fld.RST_CFG_PERST_ACTION : Fld := ⟨Reg.RST_CFG, 1, 1⟩
def Reg.RST_BLOCK : Nat := 0x0A0000C
def Fld.RST_BLOCK_BLOCK : Fld := ⟨Reg.RST_BLOCK, 0, 28⟩
def Reg.RST_CAUSE : Nat := 0x0A00010
def Fld.RST_CAUSE_CAUSE : Fld := ⟨Reg.RST_CAUSE, 0, 3⟩
def Fld.RST_CAUSE_MASTER : Fld := ⟨Reg.RST_CAUSE, 4, 4⟩
def Fld.RST_CAUSE_COUNT : Fld := ⟨Reg.RST_CAUSE, 16, 16⟩
def Reg.RST_STEP_MS (k : Nat) : Nat := 0x0A00024 + 0x4 * k
def Fld.RST_STEP_MS_MS (k : Nat) : Fld := ⟨Reg.RST_STEP_MS k, 0, 16⟩

/-! ### PRT (block 11, 04_line_ports.md) -/

def Reg.PRT_GRP_CTRL (g : Nat) : Nat := 0x1000000 + 0x10000 * g
def Fld.PRT_GRP_CTRL_EN (g : Nat) : Fld := ⟨Reg.PRT_GRP_CTRL g, 0, 1⟩
def Fld.PRT_GRP_CTRL_CAL_BUSY (g : Nat) : Fld := ⟨Reg.PRT_GRP_CTRL g, 1, 1⟩
def Reg.PRT_GRP_STATUS (g : Nat) : Nat := 0x1000004 + 0x10000 * g
def Fld.PRT_GRP_STATUS_PORT_UP (g : Nat) : Fld := ⟨Reg.PRT_GRP_STATUS g, 0, 8⟩
def Fld.PRT_GRP_STATUS_LANE_LOCK (g : Nat) : Fld := ⟨Reg.PRT_GRP_STATUS g, 8, 8⟩
def Reg.PRT_LANE_MAP_RX (g : Nat) : Nat := 0x1000010 + 0x10000 * g
def Fld.PRT_LANE_MAP_RX_PHYS (g : Nat) (sub : Nat) : Fld := ⟨Reg.PRT_LANE_MAP_RX g, 3 * sub, 3⟩
def Reg.PRT_LANE_MAP_TX (g : Nat) : Nat := 0x1000014 + 0x10000 * g
def Fld.PRT_LANE_MAP_TX_PHYS (g : Nat) (sub : Nat) : Fld := ⟨Reg.PRT_LANE_MAP_TX g, 3 * sub, 3⟩
def Reg.PRT_LANE_POL (g : Nat) : Nat := 0x1000018 + 0x10000 * g
def Fld.PRT_LANE_POL_RX_INV (g : Nat) : Fld := ⟨Reg.PRT_LANE_POL g, 0, 8⟩
def Fld.PRT_LANE_POL_TX_INV (g : Nat) : Fld := ⟨Reg.PRT_LANE_POL g, 8, 8⟩
def Reg.PRT_PORT_CFG (g : Nat) (i : Nat) : Nat := 0x1000100 + 0x10000 * g + 0x40 * i
def Fld.PRT_PORT_CFG_EN (g : Nat) (i : Nat) : Fld := ⟨Reg.PRT_PORT_CFG g i, 0, 1⟩
def Fld.PRT_PORT_CFG_SPEED (g : Nat) (i : Nat) : Fld := ⟨Reg.PRT_PORT_CFG g i, 1, 4⟩
def Fld.PRT_PORT_CFG_LANES (g : Nat) (i : Nat) : Fld := ⟨Reg.PRT_PORT_CFG g i, 5, 2⟩
def Fld.PRT_PORT_CFG_FEC (g : Nat) (i : Nat) : Fld := ⟨Reg.PRT_PORT_CFG g i, 8, 2⟩
def Fld.PRT_PORT_CFG_INNER_FEC (g : Nat) (i : Nat) : Fld := ⟨Reg.PRT_PORT_CFG g i, 10, 1⟩
def Fld.PRT_PORT_CFG_LINK_TRAIN (g : Nat) (i : Nat) : Fld := ⟨Reg.PRT_PORT_CFG g i, 11, 1⟩
def Fld.PRT_PORT_CFG_FLEXE (g : Nat) (i : Nat) : Fld := ⟨Reg.PRT_PORT_CFG g i, 12, 1⟩
def Fld.PRT_PORT_CFG_CFG_ERR (g : Nat) (i : Nat) : Fld := ⟨Reg.PRT_PORT_CFG g i, 31, 1⟩
def Reg.PRT_PORT_MAC (g : Nat) (i : Nat) : Nat := 0x1000104 + 0x10000 * g + 0x40 * i
def Fld.PRT_PORT_MAC_MAX_FRAME (g : Nat) (i : Nat) : Fld := ⟨Reg.PRT_PORT_MAC g i, 0, 14⟩
def Fld.PRT_PORT_MAC_PAUSE_RX_EN (g : Nat) (i : Nat) : Fld := ⟨Reg.PRT_PORT_MAC g i, 14, 1⟩
def Fld.PRT_PORT_MAC_HI_SER_DOWN (g : Nat) (i : Nat) : Fld := ⟨Reg.PRT_PORT_MAC g i, 15, 1⟩
def Fld.PRT_PORT_MAC_PFC_TX_EN (g : Nat) (i : Nat) : Fld := ⟨Reg.PRT_PORT_MAC g i, 16, 8⟩
def Fld.PRT_PORT_MAC_PFC_RX_EN (g : Nat) (i : Nat) : Fld := ⟨Reg.PRT_PORT_MAC g i, 24, 8⟩
def Reg.PRT_PORT_DOWN (g : Nat) (i : Nat) : Nat := 0x1000108 + 0x10000 * g + 0x40 * i
def Fld.PRT_PORT_DOWN_ACTION (g : Nat) (i : Nat) : Fld := ⟨Reg.PRT_PORT_DOWN g i, 0, 1⟩
def Fld.PRT_PORT_DOWN_HOLDOFF_MS (g : Nat) (i : Nat) : Fld := ⟨Reg.PRT_PORT_DOWN g i, 16, 16⟩
def Reg.PRT_PORT_LINKTMR (g : Nat) (i : Nat) : Nat := 0x100010C + 0x10000 * g + 0x40 * i
def Fld.PRT_PORT_LINKTMR_UP_HOLD_MS (g : Nat) (i : Nat) : Fld := ⟨Reg.PRT_PORT_LINKTMR g i, 0, 16⟩
def Fld.PRT_PORT_LINKTMR_DOWN_DEBOUNCE_US (g : Nat) (i : Nat) : Fld := ⟨Reg.PRT_PORT_LINKTMR g i, 16, 16⟩
def Reg.PRT_PORT_STATUS (g : Nat) (i : Nat) : Nat := 0x1000110 + 0x10000 * g + 0x40 * i
def Fld.PRT_PORT_STATUS_STATE (g : Nat) (i : Nat) : Fld := ⟨Reg.PRT_PORT_STATUS g i, 0, 3⟩
def Fld.PRT_PORT_STATUS_PCS_LOCK (g : Nat) (i : Nat) : Fld := ⟨Reg.PRT_PORT_STATUS g i, 3, 1⟩
def Fld.PRT_PORT_STATUS_FEC_LOCK (g : Nat) (i : Nat) : Fld := ⟨Reg.PRT_PORT_STATUS g i, 4, 1⟩
def Fld.PRT_PORT_STATUS_LF (g : Nat) (i : Nat) : Fld := ⟨Reg.PRT_PORT_STATUS g i, 5, 1⟩
def Fld.PRT_PORT_STATUS_RF (g : Nat) (i : Nat) : Fld := ⟨Reg.PRT_PORT_STATUS g i, 6, 1⟩
def Fld.PRT_PORT_STATUS_HI_SER (g : Nat) (i : Nat) : Fld := ⟨Reg.PRT_PORT_STATUS g i, 7, 1⟩
def Fld.PRT_PORT_STATUS_FLUSHING (g : Nat) (i : Nat) : Fld := ⟨Reg.PRT_PORT_STATUS g i, 8, 1⟩
def Reg.PRT_PORT_EVENT (g : Nat) (i : Nat) : Nat := 0x1000114 + 0x10000 * g + 0x40 * i
def Fld.PRT_PORT_EVENT_LINK_UP (g : Nat) (i : Nat) : Fld := ⟨Reg.PRT_PORT_EVENT g i, 0, 1⟩
def Fld.PRT_PORT_EVENT_LINK_DOWN (g : Nat) (i : Nat) : Fld := ⟨Reg.PRT_PORT_EVENT g i, 1, 1⟩
def Fld.PRT_PORT_EVENT_FLUSH_DONE (g : Nat) (i : Nat) : Fld := ⟨Reg.PRT_PORT_EVENT g i, 2, 1⟩
def Fld.PRT_PORT_EVENT_READMIT_DONE (g : Nat) (i : Nat) : Fld := ⟨Reg.PRT_PORT_EVENT g i, 3, 1⟩
def Fld.PRT_PORT_EVENT_CFG_ERR (g : Nat) (i : Nat) : Fld := ⟨Reg.PRT_PORT_EVENT g i, 4, 1⟩
def Fld.PRT_PORT_EVENT_HI_SER (g : Nat) (i : Nat) : Fld := ⟨Reg.PRT_PORT_EVENT g i, 5, 1⟩
def Fld.PRT_PORT_EVENT_CAL_DONE (g : Nat) (i : Nat) : Fld := ⟨Reg.PRT_PORT_EVENT g i, 6, 1⟩
def Reg.PRT_PORT_EVENT_EN (g : Nat) (i : Nat) : Nat := 0x1000118 + 0x10000 * g + 0x40 * i
def Fld.PRT_PORT_EVENT_EN_EN (g : Nat) (i : Nat) : Fld := ⟨Reg.PRT_PORT_EVENT_EN g i, 0, 7⟩
def Reg.PRT_PORT_TS_RX_ADJ (g : Nat) (i : Nat) : Nat := 0x100011C + 0x10000 * g + 0x40 * i
def Fld.PRT_PORT_TS_RX_ADJ_ADJ (g : Nat) (i : Nat) : Fld := ⟨Reg.PRT_PORT_TS_RX_ADJ g i, 0, 16⟩
def Reg.PRT_PORT_TS_TX_ADJ (g : Nat) (i : Nat) : Nat := 0x1000120 + 0x10000 * g + 0x40 * i
def Fld.PRT_PORT_TS_TX_ADJ_ADJ (g : Nat) (i : Nat) : Fld := ⟨Reg.PRT_PORT_TS_TX_ADJ g i, 0, 16⟩
def Reg.PRT_PORT_CAL (g : Nat) (i : Nat) : Nat := 0x1000124 + 0x10000 * g + 0x40 * i
def Fld.PRT_PORT_CAL_GO (g : Nat) (i : Nat) : Fld := ⟨Reg.PRT_PORT_CAL g i, 0, 1⟩
def Reg.PRT_PORT_CAL_STATUS (g : Nat) (i : Nat) : Nat := 0x1000128 + 0x10000 * g + 0x40 * i
def Fld.PRT_PORT_CAL_STATUS_DONE (g : Nat) (i : Nat) : Fld := ⟨Reg.PRT_PORT_CAL_STATUS g i, 0, 1⟩
def Fld.PRT_PORT_CAL_STATUS_FAIL (g : Nat) (i : Nat) : Fld := ⟨Reg.PRT_PORT_CAL_STATUS g i, 1, 1⟩
def Fld.PRT_PORT_CAL_STATUS_RX_INT (g : Nat) (i : Nat) : Fld := ⟨Reg.PRT_PORT_CAL_STATUS g i, 2, 14⟩
def Fld.PRT_PORT_CAL_STATUS_TX_INT (g : Nat) (i : Nat) : Fld := ⟨Reg.PRT_PORT_CAL_STATUS g i, 16, 14⟩
def Reg.PRT_MIB_SEL (g : Nat) : Nat := 0x1000400 + 0x10000 * g
def Fld.PRT_MIB_SEL_PORT_IDX (g : Nat) : Fld := ⟨Reg.PRT_MIB_SEL g, 0, 3⟩
def Fld.PRT_MIB_SEL_COUNTER (g : Nat) : Fld := ⟨Reg.PRT_MIB_SEL g, 8, 5⟩
def Fld.PRT_MIB_SEL_LATCHED (g : Nat) : Fld := ⟨Reg.PRT_MIB_SEL g, 16, 1⟩
def Reg.PRT_MIB_DATA_LO (g : Nat) : Nat := 0x1000408 + 0x10000 * g
def Fld.PRT_MIB_DATA_LO_VALUE (g : Nat) : Fld := ⟨Reg.PRT_MIB_DATA_LO g, 0, 32⟩
def Reg.PRT_MIB_DATA_HI (g : Nat) : Nat := 0x100040C + 0x10000 * g
def Fld.PRT_MIB_DATA_HI_VALUE (g : Nat) : Fld := ⟨Reg.PRT_MIB_DATA_HI g, 0, 32⟩

/-! ### FXE (block 12, 05_flexe.md) -/

def Reg.FXE_GRP_CFG (f : Nat) : Nat := 0x1200000 + 0x100 * f
def Fld.FXE_GRP_CFG_EN (f : Nat) : Fld := ⟨Reg.FXE_GRP_CFG f, 0, 1⟩
def Fld.FXE_GRP_CFG_RX_CAL_AUTO (f : Nat) : Fld := ⟨Reg.FXE_GRP_CFG f, 1, 1⟩
def Fld.FXE_GRP_CFG_CFG_ERR (f : Nat) : Fld := ⟨Reg.FXE_GRP_CFG f, 2, 1⟩
def Fld.FXE_GRP_CFG_GROUP_NUM (f : Nat) : Fld := ⟨Reg.FXE_GRP_CFG f, 8, 20⟩
def Reg.FXE_GRP_PHY (f : Nat) : Nat := 0x1200004 + 0x100 * f
def Fld.FXE_GRP_PHY_PHY_MASK (f : Nat) : Fld := ⟨Reg.FXE_GRP_PHY f, 0, 8⟩
def Reg.FXE_GRP_PHYNUM_LO (f : Nat) : Nat := 0x1200008 + 0x100 * f
def Fld.FXE_GRP_PHYNUM_LO_PHYNUM (f : Nat) (sub : Nat) : Fld := ⟨Reg.FXE_GRP_PHYNUM_LO f, 8 * sub, 8⟩
def Reg.FXE_GRP_PHYNUM_HI (f : Nat) : Nat := 0x120000C + 0x100 * f
def Fld.FXE_GRP_PHYNUM_HI_PHYNUM (f : Nat) (sub : Nat) : Fld := ⟨Reg.FXE_GRP_PHYNUM_HI f, 8 * sub, 8⟩
def Reg.FXE_GRP_STATUS (f : Nat) : Nat := 0x1200010 + 0x100 * f
def Fld.FXE_GRP_STATUS_TX_PAGE (f : Nat) : Fld := ⟨Reg.FXE_GRP_STATUS f, 0, 1⟩
def Fld.FXE_GRP_STATUS_RX_PAGE (f : Nat) : Fld := ⟨Reg.FXE_GRP_STATUS f, 1, 1⟩
def Fld.FXE_GRP_STATUS_SWITCHING (f : Nat) : Fld := ⟨Reg.FXE_GRP_STATUS f, 2, 1⟩
def Fld.FXE_GRP_STATUS_CR_TX (f : Nat) : Fld := ⟨Reg.FXE_GRP_STATUS f, 3, 1⟩
def Fld.FXE_GRP_STATUS_CA_RX (f : Nat) : Fld := ⟨Reg.FXE_GRP_STATUS f, 4, 1⟩
def Fld.FXE_GRP_STATUS_CR_RX (f : Nat) : Fld := ⟨Reg.FXE_GRP_STATUS f, 5, 1⟩
def Fld.FXE_GRP_STATUS_CA_TX (f : Nat) : Fld := ⟨Reg.FXE_GRP_STATUS f, 6, 1⟩
def Fld.FXE_GRP_STATUS_SKEW_EXCEED (f : Nat) : Fld := ⟨Reg.FXE_GRP_STATUS f, 7, 1⟩
def Fld.FXE_GRP_STATUS_SF (f : Nat) : Fld := ⟨Reg.FXE_GRP_STATUS f, 8, 1⟩
def Fld.FXE_GRP_STATUS_SKEW_NS (f : Nat) : Fld := ⟨Reg.FXE_GRP_STATUS f, 16, 16⟩
def Reg.FXE_GRP_EVENT (f : Nat) : Nat := 0x1200014 + 0x100 * f
def Fld.FXE_GRP_EVENT_TX_SWITCHED (f : Nat) : Fld := ⟨Reg.FXE_GRP_EVENT f, 0, 1⟩
def Fld.FXE_GRP_EVENT_RX_SWITCHED (f : Nat) : Fld := ⟨Reg.FXE_GRP_EVENT f, 1, 1⟩
def Fld.FXE_GRP_EVENT_SWITCH_TIMEOUT (f : Nat) : Fld := ⟨Reg.FXE_GRP_EVENT f, 2, 1⟩
def Fld.FXE_GRP_EVENT_CFG_ERR (f : Nat) : Fld := ⟨Reg.FXE_GRP_EVENT f, 3, 1⟩
def Fld.FXE_GRP_EVENT_MGMT_DROP (f : Nat) : Fld := ⟨Reg.FXE_GRP_EVENT f, 4, 1⟩
def Reg.FXE_GRP_EVENT_EN (f : Nat) : Nat := 0x1200018 + 0x100 * f
def Fld.FXE_GRP_EVENT_EN_EN (f : Nat) : Fld := ⟨Reg.FXE_GRP_EVENT_EN f, 0, 5⟩
def Reg.FXE_GRP_SW_NS (f : Nat) : Nat := 0x120001C + 0x100 * f
def Fld.FXE_GRP_SW_NS_NS (f : Nat) : Fld := ⟨Reg.FXE_GRP_SW_NS f, 0, 30⟩
def Reg.FXE_GRP_SW_SEC_LO (f : Nat) : Nat := 0x1200020 + 0x100 * f
def Fld.FXE_GRP_SW_SEC_LO_SEC (f : Nat) : Fld := ⟨Reg.FXE_GRP_SW_SEC_LO f, 0, 32⟩
def Reg.FXE_GRP_SW_SEC_HI (f : Nat) : Nat := 0x1200024 + 0x100 * f
def Fld.FXE_GRP_SW_SEC_HI_SEC (f : Nat) : Fld := ⟨Reg.FXE_GRP_SW_SEC_HI f, 0, 16⟩
def Reg.FXE_GRP_MGMT (f : Nat) : Nat := 0x1200028 + 0x100 * f
def Fld.FXE_GRP_MGMT_SEC_RX_CNT (f : Nat) : Fld := ⟨Reg.FXE_GRP_MGMT f, 0, 7⟩
def Fld.FXE_GRP_MGMT_SHIM_RX_CNT (f : Nat) : Fld := ⟨Reg.FXE_GRP_MGMT f, 8, 7⟩
def Fld.FXE_GRP_MGMT_DROP_CNT (f : Nat) : Fld := ⟨Reg.FXE_GRP_MGMT f, 16, 16⟩
def Reg.FXE_PHY_DEF (p : Nat) : Nat := 0x1204000 + 0x10 * p
def Fld.FXE_PHY_DEF_RAW (p : Nat) : Fld := ⟨Reg.FXE_PHY_DEF p, 0, 7⟩
def Fld.FXE_PHY_DEF_FAIL (p : Nat) : Fld := ⟨Reg.FXE_PHY_DEF p, 16, 7⟩
def Reg.FXE_PHY_DEF_EVENT (p : Nat) : Nat := 0x1204004 + 0x10 * p
def Fld.FXE_PHY_DEF_EVENT_FAIL_SET (p : Nat) : Fld := ⟨Reg.FXE_PHY_DEF_EVENT p, 0, 7⟩
def Fld.FXE_PHY_DEF_EVENT_FAIL_CLR (p : Nat) : Fld := ⟨Reg.FXE_PHY_DEF_EVENT p, 16, 7⟩
def Reg.FXE_PHY_DEF_EN (p : Nat) : Nat := 0x1204008 + 0x10 * p
def Fld.FXE_PHY_DEF_EN_SET_EN (p : Nat) : Fld := ⟨Reg.FXE_PHY_DEF_EN p, 0, 7⟩
def Fld.FXE_PHY_DEF_EN_CLR_EN (p : Nat) : Fld := ⟨Reg.FXE_PHY_DEF_EN p, 16, 7⟩
def Reg.FXE_PHY_RX_ID (p : Nat) : Nat := 0x120400C + 0x10 * p
def Fld.FXE_PHY_RX_ID_PHYNUM (p : Nat) : Fld := ⟨Reg.FXE_PHY_RX_ID p, 0, 8⟩
def Fld.FXE_PHY_RX_ID_GROUP_NUM (p : Nat) : Fld := ⟨Reg.FXE_PHY_RX_ID p, 8, 20⟩
def Reg.FXE_INTEG (d : Nat) : Nat := 0x1205000 + 0x4 * d
def Fld.FXE_INTEG_SET (d : Nat) : Fld := ⟨Reg.FXE_INTEG d, 0, 10⟩
def Fld.FXE_INTEG_CLR (d : Nat) : Fld := ⟨Reg.FXE_INTEG d, 16, 10⟩
def Reg.FXE_CLIENT_CFG (c : Nat) : Nat := 0x1208000 + 0x20 * c
def Fld.FXE_CLIENT_CFG_EN (c : Nat) : Fld := ⟨Reg.FXE_CLIENT_CFG c, 0, 1⟩
def Fld.FXE_CLIENT_CFG_GRP (c : Nat) : Fld := ⟨Reg.FXE_CLIENT_CFG c, 1, 1⟩
def Fld.FXE_CLIENT_CFG_CFG_ERR (c : Nat) : Fld := ⟨Reg.FXE_CLIENT_CFG c, 2, 1⟩
def Fld.FXE_CLIENT_CFG_CLIENT_ID (c : Nat) : Fld := ⟨Reg.FXE_CLIENT_CFG c, 16, 16⟩
def Reg.FXE_CLIENT_MAC (c : Nat) : Nat := 0x1208004 + 0x20 * c
def Fld.FXE_CLIENT_MAC_MAX_FRAME (c : Nat) : Fld := ⟨Reg.FXE_CLIENT_MAC c, 0, 14⟩
def Reg.FXE_CLIENT_PROT (c : Nat) : Nat := 0x1208008 + 0x20 * c
def Fld.FXE_CLIENT_PROT_EN (c : Nat) : Fld := ⟨Reg.FXE_CLIENT_PROT c, 0, 1⟩
def Fld.FXE_CLIENT_PROT_REVERTIVE (c : Nat) : Fld := ⟨Reg.FXE_CLIENT_PROT c, 1, 1⟩
def Fld.FXE_CLIENT_PROT_HOLDOFF (c : Nat) : Fld := ⟨Reg.FXE_CLIENT_PROT c, 4, 7⟩
def Fld.FXE_CLIENT_PROT_PROT_ID (c : Nat) : Fld := ⟨Reg.FXE_CLIENT_PROT c, 16, 16⟩
def Reg.FXE_CLIENT_WTR (c : Nat) : Nat := 0x120800C + 0x20 * c
def Fld.FXE_CLIENT_WTR_WTR_S (c : Nat) : Fld := ⟨Reg.FXE_CLIENT_WTR c, 0, 10⟩
def Reg.FXE_CLIENT_STATUS (c : Nat) : Nat := 0x1208010 + 0x20 * c
def Fld.FXE_CLIENT_STATUS_STATE (c : Nat) : Fld := ⟨Reg.FXE_CLIENT_STATUS c, 0, 3⟩
def Fld.FXE_CLIENT_STATUS_SF_WORK (c : Nat) : Fld := ⟨Reg.FXE_CLIENT_STATUS c, 3, 1⟩
def Fld.FXE_CLIENT_STATUS_SF_PROT (c : Nat) : Fld := ⟨Reg.FXE_CLIENT_STATUS c, 4, 1⟩
def Fld.FXE_CLIENT_STATUS_SEL (c : Nat) : Fld := ⟨Reg.FXE_CLIENT_STATUS c, 5, 1⟩
def Fld.FXE_CLIENT_STATUS_REQ (c : Nat) : Fld := ⟨Reg.FXE_CLIENT_STATUS c, 6, 3⟩
def Fld.FXE_CLIENT_STATUS_TX_SLOTS (c : Nat) : Fld := ⟨Reg.FXE_CLIENT_STATUS c, 9, 9⟩
def Fld.FXE_CLIENT_STATUS_RX_SLOTS (c : Nat) : Fld := ⟨Reg.FXE_CLIENT_STATUS c, 18, 9⟩
def Reg.FXE_CLIENT_EVENT (c : Nat) : Nat := 0x1208014 + 0x20 * c
def Fld.FXE_CLIENT_EVENT_LINK_UP (c : Nat) : Fld := ⟨Reg.FXE_CLIENT_EVENT c, 0, 1⟩
def Fld.FXE_CLIENT_EVENT_LINK_DOWN (c : Nat) : Fld := ⟨Reg.FXE_CLIENT_EVENT c, 1, 1⟩
def Fld.FXE_CLIENT_EVENT_FLUSH_DONE (c : Nat) : Fld := ⟨Reg.FXE_CLIENT_EVENT c, 2, 1⟩
def Fld.FXE_CLIENT_EVENT_READMIT_DONE (c : Nat) : Fld := ⟨Reg.FXE_CLIENT_EVENT c, 3, 1⟩
def Fld.FXE_CLIENT_EVENT_PROT_SWITCH (c : Nat) : Fld := ⟨Reg.FXE_CLIENT_EVENT c, 4, 1⟩
def Fld.FXE_CLIENT_EVENT_CFG_ERR (c : Nat) : Fld := ⟨Reg.FXE_CLIENT_EVENT c, 5, 1⟩
def Reg.FXE_CLIENT_EVENT_EN (c : Nat) : Nat := 0x1208018 + 0x20 * c
def Fld.FXE_CLIENT_EVENT_EN_EN (c : Nat) : Fld := ⟨Reg.FXE_CLIENT_EVENT_EN c, 0, 6⟩
def Reg.FXE_PM_SEL : Nat := 0x120C000
def Fld.FXE_PM_SEL_OBJ : Fld := ⟨Reg.FXE_PM_SEL, 0, 8⟩
def Fld.FXE_PM_SEL_KIND : Fld := ⟨Reg.FXE_PM_SEL, 8, 1⟩
def Fld.FXE_PM_SEL_COUNTER : Fld := ⟨Reg.FXE_PM_SEL, 12, 4⟩
def Fld.FXE_PM_SEL_LATCHED : Fld := ⟨Reg.FXE_PM_SEL, 16, 1⟩
def Reg.FXE_PM_DATA_LO : Nat := 0x120C008
def Fld.FXE_PM_DATA_LO_VALUE : Fld := ⟨Reg.FXE_PM_DATA_LO, 0, 32⟩
def Reg.FXE_PM_DATA_HI : Nat := 0x120C00C
def Fld.FXE_PM_DATA_HI_VALUE : Fld := ⟨Reg.FXE_PM_DATA_HI, 0, 32⟩

/-! ### PAR (block 13, 06_parser.md) -/

def Reg.PAR_BANK_VER (b : Nat) : Nat := 0x1400000 + 0x4 * b
def Fld.PAR_BANK_VER_VERSION (b : Nat) : Fld := ⟨Reg.PAR_BANK_VER b, 0, 32⟩
def Reg.PAR_BANK_CRC (b : Nat) : Nat := 0x1400010 + 0x4 * b
def Fld.PAR_BANK_CRC_CRC (b : Nat) : Fld := ⟨Reg.PAR_BANK_CRC b, 0, 32⟩
def Reg.PAR_EVENT : Nat := 0x1400020
def Fld.PAR_EVENT_TRACE_DONE : Fld := ⟨Reg.PAR_EVENT, 0, 1⟩
def Fld.PAR_EVENT_LC_SEEN : Fld := ⟨Reg.PAR_EVENT, 1, 1⟩
def Fld.PAR_EVENT_TRUNC_SEEN : Fld := ⟨Reg.PAR_EVENT, 2, 1⟩
def Reg.PAR_EVENT_EN : Nat := 0x1400024
def Fld.PAR_EVENT_EN_EN : Fld := ⟨Reg.PAR_EVENT_EN, 0, 3⟩
def Reg.PAR_TRACE_CTRL : Nat := 0x1400040
def Fld.PAR_TRACE_CTRL_ARM : Fld := ⟨Reg.PAR_TRACE_CTRL, 0, 1⟩
def Fld.PAR_TRACE_CTRL_BUSY : Fld := ⟨Reg.PAR_TRACE_CTRL, 1, 1⟩
def Fld.PAR_TRACE_CTRL_PORT : Fld := ⟨Reg.PAR_TRACE_CTRL, 2, 7⟩
def Fld.PAR_TRACE_CTRL_ANY_PORT : Fld := ⟨Reg.PAR_TRACE_CTRL, 9, 1⟩
def Fld.PAR_TRACE_CTRL_SLICE : Fld := ⟨Reg.PAR_TRACE_CTRL, 10, 4⟩
def Reg.PAR_TRACE_DATA (w : Nat) : Nat := 0x1400080 + 0x4 * w
def Fld.PAR_TRACE_DATA_DATA (w : Nat) : Fld := ⟨Reg.PAR_TRACE_DATA w, 0, 32⟩
def Reg.PAR_TRUNC_CNT (s : Nat) : Nat := 0x1400100 + 0x10 * s
def Fld.PAR_TRUNC_CNT_COUNT (s : Nat) : Fld := ⟨Reg.PAR_TRUNC_CNT s, 0, 32⟩
def Reg.PAR_LC_CNT (s : Nat) : Nat := 0x1400104 + 0x10 * s
def Fld.PAR_LC_CNT_COUNT (s : Nat) : Fld := ⟨Reg.PAR_LC_CNT s, 0, 32⟩
def Reg.PAR_FRAG_CNT (s : Nat) : Nat := 0x1400108 + 0x10 * s
def Fld.PAR_FRAG_CNT_COUNT (s : Nat) : Fld := ⟨Reg.PAR_FRAG_CNT s, 0, 32⟩
def Reg.PAR_PUNT_CNT (s : Nat) : Nat := 0x140010C + 0x10 * s
def Fld.PAR_PUNT_CNT_COUNT (s : Nat) : Fld := ⟨Reg.PAR_PUNT_CNT s, 0, 32⟩

/-! ### LPM (block 14, 07_prefix_tables.md) -/

def Reg.LPM_CFG : Nat := 0x1600000
def Fld.LPM_CFG_EN : Fld := ⟨Reg.LPM_CFG, 0, 1⟩
def Reg.LPM_HASH_SEED : Nat := 0x1600004
def Fld.LPM_HASH_SEED_SEED : Fld := ⟨Reg.LPM_HASH_SEED, 0, 32⟩
def Reg.LPM_ECMP_SEED : Nat := 0x1600008
def Fld.LPM_ECMP_SEED_SEED : Fld := ⟨Reg.LPM_ECMP_SEED, 0, 32⟩
def Reg.LPM_SLOTS : Nat := 0x1600010
def Fld.LPM_SLOTS_STORED : Fld := ⟨Reg.LPM_SLOTS, 0, 24⟩
def Reg.LPM_OVF : Nat := 0x1600014
def Fld.LPM_OVF_USED : Fld := ⟨Reg.LPM_OVF, 0, 18⟩
def Reg.LPM_NH_USED : Nat := 0x1600018
def Fld.LPM_NH_USED_COUNT : Fld := ⟨Reg.LPM_NH_USED, 0, 20⟩
def Reg.LPM_ECMP_USED : Nat := 0x160001C
def Fld.LPM_ECMP_USED_COUNT : Fld := ⟨Reg.LPM_ECMP_USED, 0, 17⟩
def Reg.LPM_MEMBER_FREE : Nat := 0x1600020
def Fld.LPM_MEMBER_FREE_FREE : Fld := ⟨Reg.LPM_MEMBER_FREE, 0, 21⟩
def Reg.LPM_MEMBER_RUN : Nat := 0x1600024
def Fld.LPM_MEMBER_RUN_LARGEST : Fld := ⟨Reg.LPM_MEMBER_RUN, 0, 21⟩
def Reg.LPM_POP_V4 : Nat := 0x1600030
def Fld.LPM_POP_V4_POP : Fld := ⟨Reg.LPM_POP_V4, 0, 32⟩
def Reg.LPM_POP_V6 (j : Nat) : Nat := 0x1600034 + 0x4 * j
def Fld.LPM_POP_V6_POP (j : Nat) : Fld := ⟨Reg.LPM_POP_V6 j, 0, 32⟩
def Reg.LPM_LEN_SEL : Nat := 0x1600050
def Fld.LPM_LEN_SEL_LENGTH : Fld := ⟨Reg.LPM_LEN_SEL, 0, 8⟩
def Fld.LPM_LEN_SEL_FAMILY : Fld := ⟨Reg.LPM_LEN_SEL, 8, 1⟩
def Reg.LPM_LEN_STATUS : Nat := 0x1600054
def Fld.LPM_LEN_STATUS_KEYS : Fld := ⟨Reg.LPM_LEN_STATUS, 0, 24⟩
def Fld.LPM_LEN_STATUS_BUCKETS_LOG2 : Fld := ⟨Reg.LPM_LEN_STATUS, 24, 5⟩
def Fld.LPM_LEN_STATUS_MIGRATING : Fld := ⟨Reg.LPM_LEN_STATUS, 29, 1⟩
def Fld.LPM_LEN_STATUS_FLT_REBUILD : Fld := ⟨Reg.LPM_LEN_STATUS, 30, 1⟩
def Fld.LPM_LEN_STATUS_FLT_OVERLOAD : Fld := ⟨Reg.LPM_LEN_STATUS, 31, 1⟩
def Reg.LPM_LEN_FLT : Nat := 0x1600058
def Fld.LPM_LEN_FLT_REGION_64K : Fld := ⟨Reg.LPM_LEN_FLT, 0, 12⟩
def Reg.LPM_LEN_FLT_INS : Nat := 0x160005C
def Fld.LPM_LEN_FLT_INS_INSERTS : Fld := ⟨Reg.LPM_LEN_FLT_INS, 0, 25⟩
def Reg.LPM_EVENT : Nat := 0x1600060
def Fld.LPM_EVENT_PAR_ERR : Fld := ⟨Reg.LPM_EVENT, 0, 1⟩
def Fld.LPM_EVENT_DATA_ERR : Fld := ⟨Reg.LPM_EVENT, 1, 1⟩
def Fld.LPM_EVENT_OVF_HIGH : Fld := ⟨Reg.LPM_EVENT, 2, 1⟩
def Fld.LPM_EVENT_FLT_OVERLOAD : Fld := ⟨Reg.LPM_EVENT, 3, 1⟩
def Fld.LPM_EVENT_SHADOW_DONE : Fld := ⟨Reg.LPM_EVENT, 4, 1⟩
def Fld.LPM_EVENT_SHADOW_MIS : Fld := ⟨Reg.LPM_EVENT, 5, 1⟩
def Fld.LPM_EVENT_HOLD_DROP : Fld := ⟨Reg.LPM_EVENT, 6, 1⟩
def Reg.LPM_EVENT_EN : Nat := 0x1600064
def Fld.LPM_EVENT_EN_EN : Fld := ⟨Reg.LPM_EVENT_EN, 0, 7⟩
def Reg.LPM_PAR_ERR_CNT : Nat := 0x1600068
def Fld.LPM_PAR_ERR_CNT_COUNT : Fld := ⟨Reg.LPM_PAR_ERR_CNT, 0, 32⟩
def Reg.LPM_PAR_ERR_LOC : Nat := 0x160006C
def Fld.LPM_PAR_ERR_LOC_INDEX : Fld := ⟨Reg.LPM_PAR_ERR_LOC, 0, 24⟩
def Fld.LPM_PAR_ERR_LOC_LENGTH : Fld := ⟨Reg.LPM_PAR_ERR_LOC, 24, 8⟩
def Reg.LPM_PAR_ERR_INFO : Nat := 0x1600070
def Fld.LPM_PAR_ERR_INFO_FAMILY : Fld := ⟨Reg.LPM_PAR_ERR_INFO, 0, 1⟩
def Fld.LPM_PAR_ERR_INFO_TABLE : Fld := ⟨Reg.LPM_PAR_ERR_INFO, 1, 3⟩
def Fld.LPM_PAR_ERR_INFO_KIND : Fld := ⟨Reg.LPM_PAR_ERR_INFO, 4, 1⟩
def Reg.LPM_SHADOW_CTRL : Nat := 0x1600100
def Fld.LPM_SHADOW_CTRL_GO : Fld := ⟨Reg.LPM_SHADOW_CTRL, 0, 1⟩
def Fld.LPM_SHADOW_CTRL_STOP : Fld := ⟨Reg.LPM_SHADOW_CTRL, 1, 1⟩
def Fld.LPM_SHADOW_CTRL_REPAIR : Fld := ⟨Reg.LPM_SHADOW_CTRL, 2, 1⟩
def Fld.LPM_SHADOW_CTRL_BUSY : Fld := ⟨Reg.LPM_SHADOW_CTRL, 3, 1⟩
def Fld.LPM_SHADOW_CTRL_GEN : Fld := ⟨Reg.LPM_SHADOW_CTRL, 4, 2⟩
def Fld.LPM_SHADOW_CTRL_GEN_LOST : Fld := ⟨Reg.LPM_SHADOW_CTRL, 6, 1⟩
def Reg.LPM_SHADOW_BASE_LO : Nat := 0x1600104
def Fld.LPM_SHADOW_BASE_LO_ADDR : Fld := ⟨Reg.LPM_SHADOW_BASE_LO, 5, 27⟩
def Reg.LPM_SHADOW_BASE_HI : Nat := 0x1600108
def Fld.LPM_SHADOW_BASE_HI_ADDR : Fld := ⟨Reg.LPM_SHADOW_BASE_HI, 0, 32⟩
def Reg.LPM_SHADOW_COUNT : Nat := 0x160010C
def Fld.LPM_SHADOW_COUNT_COUNT : Fld := ⟨Reg.LPM_SHADOW_COUNT, 0, 24⟩
def Reg.LPM_SHADOW_MIS_BASE_LO : Nat := 0x1600110
def Fld.LPM_SHADOW_MIS_BASE_LO_ADDR : Fld := ⟨Reg.LPM_SHADOW_MIS_BASE_LO, 3, 29⟩
def Reg.LPM_SHADOW_MIS_BASE_HI : Nat := 0x1600114
def Fld.LPM_SHADOW_MIS_BASE_HI_ADDR : Fld := ⟨Reg.LPM_SHADOW_MIS_BASE_HI, 0, 32⟩
def Reg.LPM_SHADOW_MIS_MAX : Nat := 0x1600118
def Fld.LPM_SHADOW_MIS_MAX_MAX : Fld := ⟨Reg.LPM_SHADOW_MIS_MAX, 0, 16⟩
def Reg.LPM_SHADOW_DONE_CNT : Nat := 0x160011C
def Fld.LPM_SHADOW_DONE_CNT_CHECKED : Fld := ⟨Reg.LPM_SHADOW_DONE_CNT, 0, 24⟩
def Reg.LPM_SHADOW_MIS_CNT : Nat := 0x1600120
def Fld.LPM_SHADOW_MIS_CNT_COUNT : Fld := ⟨Reg.LPM_SHADOW_MIS_CNT, 0, 32⟩
def Reg.LPM_SHADOW_VISIBLE : Nat := 0x1600124
def Fld.LPM_SHADOW_VISIBLE_COUNT : Fld := ⟨Reg.LPM_SHADOW_VISIBLE, 0, 25⟩
def Reg.LPM_CREDIT (s : Nat) : Nat := 0x1600200 + 0x20 * s
def Fld.LPM_CREDIT_CREDIT (s : Nat) : Fld := ⟨Reg.LPM_CREDIT s, 0, 13⟩
def Reg.LPM_FREEZE_CNT (s : Nat) : Nat := 0x1600204 + 0x20 * s
def Fld.LPM_FREEZE_CNT_COUNT (s : Nat) : Fld := ⟨Reg.LPM_FREEZE_CNT s, 0, 32⟩
def Reg.LPM_HOLD_DROP (s : Nat) : Nat := 0x1600208 + 0x20 * s
def Fld.LPM_HOLD_DROP_COUNT (s : Nat) : Fld := ⟨Reg.LPM_HOLD_DROP s, 0, 32⟩
def Reg.LPM_HOLD_LEVEL (s : Nat) : Nat := 0x160020C + 0x20 * s
def Fld.LPM_HOLD_LEVEL_PACKETS (s : Nat) : Fld := ⟨Reg.LPM_HOLD_LEVEL s, 0, 13⟩
def Fld.LPM_HOLD_LEVEL_BYTES_64 (s : Nat) : Fld := ⟨Reg.LPM_HOLD_LEVEL s, 13, 19⟩
def Reg.LPM_PROBES_LO (s : Nat) : Nat := 0x1600210 + 0x20 * s
def Fld.LPM_PROBES_LO_COUNT (s : Nat) : Fld := ⟨Reg.LPM_PROBES_LO s, 0, 32⟩
def Reg.LPM_PROBES_HI (s : Nat) : Nat := 0x1600214 + 0x20 * s
def Fld.LPM_PROBES_HI_COUNT (s : Nat) : Fld := ⟨Reg.LPM_PROBES_HI s, 0, 32⟩
def Reg.LPM_FALSE_CNT (s : Nat) : Nat := 0x1600218 + 0x20 * s
def Fld.LPM_FALSE_CNT_COUNT (s : Nat) : Fld := ⟨Reg.LPM_FALSE_CNT s, 0, 32⟩

/-! ### EXM (block 15, 08_exact_match.md) -/

def Reg.EXM_CFG : Nat := 0x1800000
def Fld.EXM_CFG_EN : Fld := ⟨Reg.EXM_CFG, 0, 1⟩
def Reg.EXM_HASH_SEED_0 : Nat := 0x1800004
def Fld.EXM_HASH_SEED_0_SEED : Fld := ⟨Reg.EXM_HASH_SEED_0, 0, 32⟩
def Reg.EXM_HASH_SEED_1 : Nat := 0x1800008
def Fld.EXM_HASH_SEED_1_SEED : Fld := ⟨Reg.EXM_HASH_SEED_1, 0, 32⟩
def Reg.EXM_HASH_SEED_2 : Nat := 0x180000C
def Fld.EXM_HASH_SEED_2_SEED : Fld := ⟨Reg.EXM_HASH_SEED_2, 0, 32⟩
def Reg.EXM_USED_ONDIE : Nat := 0x1800010
def Fld.EXM_USED_ONDIE_POSITIONS : Fld := ⟨Reg.EXM_USED_ONDIE, 0, 21⟩
def Reg.EXM_USED_HBM : Nat := 0x1800014
def Fld.EXM_USED_HBM_POSITIONS : Fld := ⟨Reg.EXM_USED_HBM, 0, 25⟩
def Reg.EXM_OVF_ONDIE : Nat := 0x1800018
def Fld.EXM_OVF_ONDIE_USED : Fld := ⟨Reg.EXM_OVF_ONDIE, 0, 17⟩
def Reg.EXM_OVF_HBM : Nat := 0x180001C
def Fld.EXM_OVF_HBM_USED : Fld := ⟨Reg.EXM_OVF_HBM, 0, 17⟩
def Reg.EXM_LEARN_CFG : Nat := 0x1800020
def Fld.EXM_LEARN_CFG_DEV_ID : Fld := ⟨Reg.EXM_LEARN_CFG, 0, 11⟩
def Fld.EXM_LEARN_CFG_MOVE_DAMP : Fld := ⟨Reg.EXM_LEARN_CFG, 16, 8⟩
def Reg.EXM_LEARN_TMR : Nat := 0x1800024
def Fld.EXM_LEARN_TMR_MOVE_WINDOW_MS : Fld := ⟨Reg.EXM_LEARN_TMR, 0, 16⟩
def Reg.EXM_AGE_CFG : Nat := 0x1800028
def Fld.EXM_AGE_CFG_PERIOD_100MS : Fld := ⟨Reg.EXM_AGE_CFG, 0, 20⟩
def Fld.EXM_AGE_CFG_AGE_MAX : Fld := ⟨Reg.EXM_AGE_CFG, 20, 3⟩
def Reg.EXM_LEARN_STATUS : Nat := 0x180002C
def Fld.EXM_LEARN_STATUS_QUEUED : Fld := ⟨Reg.EXM_LEARN_STATUS, 0, 14⟩
def Fld.EXM_LEARN_STATUS_MOVE_CANDS : Fld := ⟨Reg.EXM_LEARN_STATUS, 16, 13⟩
def Reg.EXM_LEARN_CNT : Nat := 0x1800030
def Fld.EXM_LEARN_CNT_COUNT : Fld := ⟨Reg.EXM_LEARN_CNT, 0, 32⟩
def Reg.EXM_LEARN_FAIL_CNT : Nat := 0x1800034
def Fld.EXM_LEARN_FAIL_CNT_COUNT : Fld := ⟨Reg.EXM_LEARN_FAIL_CNT, 0, 32⟩
def Reg.EXM_LEARN_QDROP_CNT : Nat := 0x1800038
def Fld.EXM_LEARN_QDROP_CNT_COUNT : Fld := ⟨Reg.EXM_LEARN_QDROP_CNT, 0, 32⟩
def Reg.EXM_MOVE_CNT : Nat := 0x180003C
def Fld.EXM_MOVE_CNT_COUNT : Fld := ⟨Reg.EXM_MOVE_CNT, 0, 32⟩
def Reg.EXM_MOVE_CAND_DROP_CNT : Nat := 0x1800040
def Fld.EXM_MOVE_CAND_DROP_CNT_COUNT : Fld := ⟨Reg.EXM_MOVE_CAND_DROP_CNT, 0, 32⟩
def Reg.EXM_AGED_CNT : Nat := 0x1800044
def Fld.EXM_AGED_CNT_COUNT : Fld := ⟨Reg.EXM_AGED_CNT, 0, 32⟩
def Reg.EXM_AGE_KEPT_CNT : Nat := 0x1800048
def Fld.EXM_AGE_KEPT_CNT_COUNT : Fld := ⟨Reg.EXM_AGE_KEPT_CNT, 0, 32⟩
def Reg.EXM_EVENT : Nat := 0x1800060
def Fld.EXM_EVENT_PAR_ERR : Fld := ⟨Reg.EXM_EVENT, 0, 1⟩
def Fld.EXM_EVENT_DATA_ERR : Fld := ⟨Reg.EXM_EVENT, 1, 1⟩
def Fld.EXM_EVENT_OVF_HIGH : Fld := ⟨Reg.EXM_EVENT, 2, 1⟩
def Fld.EXM_EVENT_LEARN_FAIL : Fld := ⟨Reg.EXM_EVENT, 3, 1⟩
def Fld.EXM_EVENT_LEARN_QDROP : Fld := ⟨Reg.EXM_EVENT, 4, 1⟩
def Fld.EXM_EVENT_AGE_LATE : Fld := ⟨Reg.EXM_EVENT, 5, 1⟩
def Fld.EXM_EVENT_FLUSH_DONE : Fld := ⟨Reg.EXM_EVENT, 6, 1⟩
def Fld.EXM_EVENT_SHADOW_DONE : Fld := ⟨Reg.EXM_EVENT, 7, 1⟩
def Fld.EXM_EVENT_SHADOW_MIS : Fld := ⟨Reg.EXM_EVENT, 8, 1⟩
def Fld.EXM_EVENT_WIN_DONE : Fld := ⟨Reg.EXM_EVENT, 9, 1⟩
def Fld.EXM_EVENT_CFG_ERR : Fld := ⟨Reg.EXM_EVENT, 10, 1⟩
def Reg.EXM_EVENT_EN : Nat := 0x1800064
def Fld.EXM_EVENT_EN_EN : Fld := ⟨Reg.EXM_EVENT_EN, 0, 11⟩
def Reg.EXM_PAR_ERR_CNT : Nat := 0x1800068
def Fld.EXM_PAR_ERR_CNT_COUNT : Fld := ⟨Reg.EXM_PAR_ERR_CNT, 0, 32⟩
def Reg.EXM_PAR_ERR_LOC : Nat := 0x180006C
def Fld.EXM_PAR_ERR_LOC_CURSOR : Fld := ⟨Reg.EXM_PAR_ERR_LOC, 0, 32⟩
def Reg.EXM_PAR_ERR_INFO : Nat := 0x1800070
def Fld.EXM_PAR_ERR_INFO_KIND : Fld := ⟨Reg.EXM_PAR_ERR_INFO, 0, 1⟩
def Fld.EXM_PAR_ERR_INFO_LEARNED : Fld := ⟨Reg.EXM_PAR_ERR_INFO, 1, 1⟩
def Reg.EXM_SHADOW_CTRL : Nat := 0x1800100
def Fld.EXM_SHADOW_CTRL_GO : Fld := ⟨Reg.EXM_SHADOW_CTRL, 0, 1⟩
def Fld.EXM_SHADOW_CTRL_STOP : Fld := ⟨Reg.EXM_SHADOW_CTRL, 1, 1⟩
def Fld.EXM_SHADOW_CTRL_REPAIR : Fld := ⟨Reg.EXM_SHADOW_CTRL, 2, 1⟩
def Fld.EXM_SHADOW_CTRL_BUSY : Fld := ⟨Reg.EXM_SHADOW_CTRL, 3, 1⟩
def Fld.EXM_SHADOW_CTRL_GEN : Fld := ⟨Reg.EXM_SHADOW_CTRL, 4, 2⟩
def Fld.EXM_SHADOW_CTRL_GEN_LOST : Fld := ⟨Reg.EXM_SHADOW_CTRL, 6, 1⟩
def Reg.EXM_SHADOW_BASE_LO : Nat := 0x1800104
def Fld.EXM_SHADOW_BASE_LO_ADDR : Fld := ⟨Reg.EXM_SHADOW_BASE_LO, 6, 26⟩
def Reg.EXM_SHADOW_BASE_HI : Nat := 0x1800108
def Fld.EXM_SHADOW_BASE_HI_ADDR : Fld := ⟨Reg.EXM_SHADOW_BASE_HI, 0, 32⟩
def Reg.EXM_SHADOW_COUNT : Nat := 0x180010C
def Fld.EXM_SHADOW_COUNT_COUNT : Fld := ⟨Reg.EXM_SHADOW_COUNT, 0, 25⟩
def Reg.EXM_SHADOW_MIS_BASE_LO : Nat := 0x1800110
def Fld.EXM_SHADOW_MIS_BASE_LO_ADDR : Fld := ⟨Reg.EXM_SHADOW_MIS_BASE_LO, 3, 29⟩
def Reg.EXM_SHADOW_MIS_BASE_HI : Nat := 0x1800114
def Fld.EXM_SHADOW_MIS_BASE_HI_ADDR : Fld := ⟨Reg.EXM_SHADOW_MIS_BASE_HI, 0, 32⟩
def Reg.EXM_SHADOW_MIS_MAX : Nat := 0x1800118
def Fld.EXM_SHADOW_MIS_MAX_MAX : Fld := ⟨Reg.EXM_SHADOW_MIS_MAX, 0, 16⟩
def Reg.EXM_SHADOW_DONE_CNT : Nat := 0x180011C
def Fld.EXM_SHADOW_DONE_CNT_CHECKED : Fld := ⟨Reg.EXM_SHADOW_DONE_CNT, 0, 25⟩
def Reg.EXM_SHADOW_MIS_CNT : Nat := 0x1800120
def Fld.EXM_SHADOW_MIS_CNT_COUNT : Fld := ⟨Reg.EXM_SHADOW_MIS_CNT, 0, 32⟩
def Reg.EXM_SHADOW_VISIBLE : Nat := 0x1800124
def Fld.EXM_SHADOW_VISIBLE_COUNT : Fld := ⟨Reg.EXM_SHADOW_VISIBLE, 0, 25⟩
def Reg.EXM_WIN_CTRL : Nat := 0x1800200
def Fld.EXM_WIN_CTRL_GO : Fld := ⟨Reg.EXM_WIN_CTRL, 0, 1⟩
def Fld.EXM_WIN_CTRL_BUSY : Fld := ⟨Reg.EXM_WIN_CTRL, 1, 1⟩
def Fld.EXM_WIN_CTRL_OP : Fld := ⟨Reg.EXM_WIN_CTRL, 2, 3⟩
def Fld.EXM_WIN_CTRL_GEN : Fld := ⟨Reg.EXM_WIN_CTRL, 5, 2⟩
def Fld.EXM_WIN_CTRL_STATUS : Fld := ⟨Reg.EXM_WIN_CTRL, 16, 16⟩
def Reg.EXM_WIN_CURSOR : Nat := 0x1800204
def Fld.EXM_WIN_CURSOR_CURSOR : Fld := ⟨Reg.EXM_WIN_CURSOR, 0, 32⟩
def Reg.EXM_WIN_PORT : Nat := 0x1800208
def Fld.EXM_WIN_PORT_PORT : Fld := ⟨Reg.EXM_WIN_PORT, 0, 7⟩
def Fld.EXM_WIN_PORT_DEV : Fld := ⟨Reg.EXM_WIN_PORT, 7, 11⟩
def Fld.EXM_WIN_PORT_TBL : Fld := ⟨Reg.EXM_WIN_PORT, 18, 6⟩
def Fld.EXM_WIN_PORT_ALL_TBL : Fld := ⟨Reg.EXM_WIN_PORT, 24, 1⟩
def Reg.EXM_WIN_KEY (w : Nat) : Nat := 0x1800210 + 0x4 * w
def Fld.EXM_WIN_KEY_KEY (w : Nat) : Fld := ⟨Reg.EXM_WIN_KEY w, 0, 32⟩
def Reg.EXM_WIN_DATA : Nat := 0x1800240
def Fld.EXM_WIN_DATA_RESULT : Fld := ⟨Reg.EXM_WIN_DATA, 0, 24⟩
def Fld.EXM_WIN_DATA_RKIND : Fld := ⟨Reg.EXM_WIN_DATA, 24, 2⟩
def Fld.EXM_WIN_DATA_LEARNED : Fld := ⟨Reg.EXM_WIN_DATA, 26, 1⟩
def Fld.EXM_WIN_DATA_HIT : Fld := ⟨Reg.EXM_WIN_DATA, 27, 1⟩
def Fld.EXM_WIN_DATA_AGE : Fld := ⟨Reg.EXM_WIN_DATA, 28, 3⟩
def Reg.EXM_WIN_TAG : Nat := 0x1800244
def Fld.EXM_WIN_TAG_TAG : Fld := ⟨Reg.EXM_WIN_TAG, 0, 6⟩
def Reg.EXM_TBL_CFG (n : Nat) : Nat := 0x1801000 + 0x4 * n
def Fld.EXM_TBL_CFG_EN (n : Nat) : Fld := ⟨Reg.EXM_TBL_CFG n, 0, 1⟩
def Fld.EXM_TBL_CFG_SIZE (n : Nat) : Fld := ⟨Reg.EXM_TBL_CFG n, 1, 2⟩
def Fld.EXM_TBL_CFG_TIER (n : Nat) : Fld := ⟨Reg.EXM_TBL_CFG n, 3, 2⟩
def Fld.EXM_TBL_CFG_LEARN (n : Nat) : Fld := ⟨Reg.EXM_TBL_CFG n, 5, 1⟩
def Fld.EXM_TBL_CFG_AGE_EN (n : Nat) : Fld := ⟨Reg.EXM_TBL_CFG n, 6, 1⟩
def Fld.EXM_TBL_CFG_AUTO_FLUSH (n : Nat) : Fld := ⟨Reg.EXM_TBL_CFG n, 7, 1⟩
def Fld.EXM_TBL_CFG_MISS_ACT (n : Nat) : Fld := ⟨Reg.EXM_TBL_CFG n, 8, 20⟩
def Reg.EXM_TBL_CNT (n : Nat) : Nat := 0x1801100 + 0x4 * n
def Fld.EXM_TBL_CNT_POSITIONS (n : Nat) : Fld := ⟨Reg.EXM_TBL_CNT n, 0, 25⟩

/-! ### CAM (block 16, 09_cam_actions.md) -/

def Reg.CAM_CFG : Nat := 0x1A00000
def Fld.CAM_CFG_EN : Fld := ⟨Reg.CAM_CFG, 0, 1⟩
def Reg.CAM_STATUS : Nat := 0x1A00004
def Fld.CAM_STATUS_STORED : Fld := ⟨Reg.CAM_STATUS, 0, 16⟩
def Fld.CAM_STATUS_STEP : Fld := ⟨Reg.CAM_STATUS, 16, 2⟩
def Fld.CAM_STATUS_MOVING : Fld := ⟨Reg.CAM_STATUS, 18, 1⟩
def Reg.CAM_MOVE_STATUS : Nat := 0x1A00008
def Fld.CAM_MOVE_STATUS_FIRST : Fld := ⟨Reg.CAM_MOVE_STATUS, 0, 15⟩
def Fld.CAM_MOVE_STATUS_LAST : Fld := ⟨Reg.CAM_MOVE_STATUS, 16, 15⟩
def Fld.CAM_MOVE_STATUS_DIR : Fld := ⟨Reg.CAM_MOVE_STATUS, 31, 1⟩
def Reg.CAM_EVENT : Nat := 0x1A00010
def Fld.CAM_EVENT_PAR_ERR : Fld := ⟨Reg.CAM_EVENT, 0, 1⟩
def Fld.CAM_EVENT_REPAIR_FAIL : Fld := ⟨Reg.CAM_EVENT, 1, 1⟩
def Fld.CAM_EVENT_MOVE_DONE : Fld := ⟨Reg.CAM_EVENT, 2, 1⟩
def Fld.CAM_EVENT_SHADOW_DONE : Fld := ⟨Reg.CAM_EVENT, 3, 1⟩
def Fld.CAM_EVENT_SHADOW_MIS : Fld := ⟨Reg.CAM_EVENT, 4, 1⟩
def Fld.CAM_EVENT_STEP_CHANGE : Fld := ⟨Reg.CAM_EVENT, 5, 1⟩
def Reg.CAM_EVENT_EN : Nat := 0x1A00014
def Fld.CAM_EVENT_EN_EN : Fld := ⟨Reg.CAM_EVENT_EN, 0, 6⟩
def Reg.CAM_PAR_ERR_CNT : Nat := 0x1A00018
def Fld.CAM_PAR_ERR_CNT_COUNT : Fld := ⟨Reg.CAM_PAR_ERR_CNT, 0, 32⟩
def Reg.CAM_PAR_ERR_LOC : Nat := 0x1A0001C
def Fld.CAM_PAR_ERR_LOC_INDEX : Fld := ⟨Reg.CAM_PAR_ERR_LOC, 0, 15⟩
def Fld.CAM_PAR_ERR_LOC_COPY : Fld := ⟨Reg.CAM_PAR_ERR_LOC, 16, 4⟩
def Fld.CAM_PAR_ERR_LOC_ALL_FAILED : Fld := ⟨Reg.CAM_PAR_ERR_LOC, 20, 1⟩
def Reg.CAM_SHADOW_CTRL : Nat := 0x1A00100
def Fld.CAM_SHADOW_CTRL_GO : Fld := ⟨Reg.CAM_SHADOW_CTRL, 0, 1⟩
def Fld.CAM_SHADOW_CTRL_STOP : Fld := ⟨Reg.CAM_SHADOW_CTRL, 1, 1⟩
def Fld.CAM_SHADOW_CTRL_REPAIR : Fld := ⟨Reg.CAM_SHADOW_CTRL, 2, 1⟩
def Fld.CAM_SHADOW_CTRL_BUSY : Fld := ⟨Reg.CAM_SHADOW_CTRL, 3, 1⟩
def Fld.CAM_SHADOW_CTRL_GEN : Fld := ⟨Reg.CAM_SHADOW_CTRL, 4, 2⟩
def Fld.CAM_SHADOW_CTRL_GEN_LOST : Fld := ⟨Reg.CAM_SHADOW_CTRL, 6, 1⟩
def Reg.CAM_SHADOW_BASE_LO : Nat := 0x1A00104
def Fld.CAM_SHADOW_BASE_LO_ADDR : Fld := ⟨Reg.CAM_SHADOW_BASE_LO, 7, 25⟩
def Reg.CAM_SHADOW_BASE_HI : Nat := 0x1A00108
def Fld.CAM_SHADOW_BASE_HI_ADDR : Fld := ⟨Reg.CAM_SHADOW_BASE_HI, 0, 32⟩
def Reg.CAM_SHADOW_COUNT : Nat := 0x1A0010C
def Fld.CAM_SHADOW_COUNT_COUNT : Fld := ⟨Reg.CAM_SHADOW_COUNT, 0, 16⟩
def Reg.CAM_SHADOW_MIS_BASE_LO : Nat := 0x1A00110
def Fld.CAM_SHADOW_MIS_BASE_LO_ADDR : Fld := ⟨Reg.CAM_SHADOW_MIS_BASE_LO, 3, 29⟩
def Reg.CAM_SHADOW_MIS_BASE_HI : Nat := 0x1A00114
def Fld.CAM_SHADOW_MIS_BASE_HI_ADDR : Fld := ⟨Reg.CAM_SHADOW_MIS_BASE_HI, 0, 32⟩
def Reg.CAM_SHADOW_MIS_MAX : Nat := 0x1A00118
def Fld.CAM_SHADOW_MIS_MAX_MAX : Fld := ⟨Reg.CAM_SHADOW_MIS_MAX, 0, 16⟩
def Reg.CAM_SHADOW_DONE_CNT : Nat := 0x1A0011C
def Fld.CAM_SHADOW_DONE_CNT_CHECKED : Fld := ⟨Reg.CAM_SHADOW_DONE_CNT, 0, 16⟩
def Reg.CAM_SHADOW_MIS_CNT : Nat := 0x1A00120
def Fld.CAM_SHADOW_MIS_CNT_COUNT : Fld := ⟨Reg.CAM_SHADOW_MIS_CNT, 0, 32⟩
def Reg.CAM_SHADOW_VISIBLE : Nat := 0x1A00124
def Fld.CAM_SHADOW_VISIBLE_COUNT : Fld := ⟨Reg.CAM_SHADOW_VISIBLE, 0, 16⟩
def Reg.CAM_WITHHELD (s : Nat) : Nat := 0x1A00200 + 0x4 * s
def Fld.CAM_WITHHELD_COUNT (s : Nat) : Fld := ⟨Reg.CAM_WITHHELD s, 0, 32⟩

/-! ### ACT (block 17, 09_cam_actions.md) -/

def Reg.ACT_USED : Nat := 0x1C00000
def Fld.ACT_USED_SETS : Fld := ⟨Reg.ACT_USED, 0, 19⟩
def Reg.ACT_POLB_USED : Nat := 0x1C00004
def Fld.ACT_POLB_USED_BINDINGS : Fld := ⟨Reg.ACT_POLB_USED, 0, 19⟩
def Reg.ACT_REPL_USED : Nat := 0x1C00008
def Fld.ACT_REPL_USED_GROUPS : Fld := ⟨Reg.ACT_REPL_USED, 0, 17⟩
def Reg.ACT_REPL_MEMBER_FREE : Nat := 0x1C0000C
def Fld.ACT_REPL_MEMBER_FREE_FREE : Fld := ⟨Reg.ACT_REPL_MEMBER_FREE, 0, 19⟩
def Reg.ACT_REPL_MEMBER_RUN : Nat := 0x1C00010
def Fld.ACT_REPL_MEMBER_RUN_LARGEST : Fld := ⟨Reg.ACT_REPL_MEMBER_RUN, 0, 19⟩
def Reg.ACT_NODEC_CNT : Nat := 0x1C00020
def Fld.ACT_NODEC_CNT_COUNT : Fld := ⟨Reg.ACT_NODEC_CNT, 0, 32⟩
def Reg.ACT_ABSENT_CNT : Nat := 0x1C00024
def Fld.ACT_ABSENT_CNT_COUNT : Fld := ⟨Reg.ACT_ABSENT_CNT, 0, 32⟩
def Reg.ACT_DROP_CNT : Nat := 0x1C00028
def Fld.ACT_DROP_CNT_COUNT : Fld := ⟨Reg.ACT_DROP_CNT, 0, 32⟩
def Reg.ACT_POL_YEL_DROP_CNT : Nat := 0x1C0002C
def Fld.ACT_POL_YEL_DROP_CNT_COUNT : Fld := ⟨Reg.ACT_POL_YEL_DROP_CNT, 0, 32⟩
def Reg.ACT_POL_RED_DROP_CNT : Nat := 0x1C00030
def Fld.ACT_POL_RED_DROP_CNT_COUNT : Fld := ⟨Reg.ACT_POL_RED_DROP_CNT, 0, 32⟩
def Reg.ACT_FLOOD_EMPTY_CNT : Nat := 0x1C00034
def Fld.ACT_FLOOD_EMPTY_CNT_COUNT : Fld := ⟨Reg.ACT_FLOOD_EMPTY_CNT, 0, 32⟩
def Reg.ACT_EVENT : Nat := 0x1C00040
def Fld.ACT_EVENT_PAR_ERR : Fld := ⟨Reg.ACT_EVENT, 0, 1⟩
def Fld.ACT_EVENT_POL_ECC : Fld := ⟨Reg.ACT_EVENT, 1, 1⟩
def Fld.ACT_EVENT_FST_LOST : Fld := ⟨Reg.ACT_EVENT, 2, 1⟩
def Fld.ACT_EVENT_FST_DATA_ERR : Fld := ⟨Reg.ACT_EVENT, 3, 1⟩
def Reg.ACT_EVENT_EN : Nat := 0x1C00044
def Fld.ACT_EVENT_EN_EN : Fld := ⟨Reg.ACT_EVENT_EN, 0, 4⟩
def Reg.ACT_PAR_ERR_CNT : Nat := 0x1C00048
def Fld.ACT_PAR_ERR_CNT_COUNT : Fld := ⟨Reg.ACT_PAR_ERR_CNT, 0, 32⟩
def Reg.ACT_PAR_ERR_LOC : Nat := 0x1C0004C
def Fld.ACT_PAR_ERR_LOC_INDEX : Fld := ⟨Reg.ACT_PAR_ERR_LOC, 0, 25⟩
def Fld.ACT_PAR_ERR_LOC_TABLE : Fld := ⟨Reg.ACT_PAR_ERR_LOC, 28, 3⟩

/-! ### FST (block 17, 09_cam_actions.md) -/

def Reg.FST_CFG : Nat := 0x1C00100
def Fld.FST_CFG_FLUSH_US : Fld := ⟨Reg.FST_CFG, 0, 16⟩
def Fld.FST_CFG_EN : Fld := ⟨Reg.FST_CFG, 31, 1⟩
def Reg.FST_CACHE_USED : Nat := 0x1C00104
def Fld.FST_CACHE_USED_ENTRIES : Fld := ⟨Reg.FST_CACHE_USED, 0, 17⟩
def Reg.FST_LOST_CNT : Nat := 0x1C00108
def Fld.FST_LOST_CNT_COUNT : Fld := ⟨Reg.FST_LOST_CNT, 0, 32⟩
def Reg.FST_WB_LEVEL : Nat := 0x1C0010C
def Fld.FST_WB_LEVEL_ENTRIES : Fld := ⟨Reg.FST_WB_LEVEL, 0, 13⟩

/-! ### RCL (block 18, 10_recirc_edit.md) -/

def Reg.RCL_CFG : Nat := 0x1D00000
def Fld.RCL_CFG_MAX_PASSES : Fld := ⟨Reg.RCL_CFG, 0, 4⟩
def Reg.RCL_MIR_SEED : Nat := 0x1D00004
def Fld.RCL_MIR_SEED_SEED : Fld := ⟨Reg.RCL_MIR_SEED, 0, 32⟩
def Reg.RCL_EVENT : Nat := 0x1D00010
def Fld.RCL_EVENT_OVF_DROP : Fld := ⟨Reg.RCL_EVENT, 0, 1⟩
def Fld.RCL_EVENT_LIMIT_DROP : Fld := ⟨Reg.RCL_EVENT, 1, 1⟩
def Fld.RCL_EVENT_IMIR_DROP : Fld := ⟨Reg.RCL_EVENT, 2, 1⟩
def Fld.RCL_EVENT_EMIR_DROP : Fld := ⟨Reg.RCL_EVENT, 3, 1⟩
def Fld.RCL_EVENT_REPL_DROP : Fld := ⟨Reg.RCL_EVENT, 4, 1⟩
def Reg.RCL_EVENT_EN : Nat := 0x1D00014
def Fld.RCL_EVENT_EN_EN : Fld := ⟨Reg.RCL_EVENT_EN, 0, 5⟩
def Reg.RCL_FIFO (s : Nat) : Nat := 0x1D00100 + 0x20 * s
def Fld.RCL_FIFO_PASSES (s : Nat) : Fld := ⟨Reg.RCL_FIFO s, 0, 10⟩
def Fld.RCL_FIFO_KIB (s : Nat) : Fld := ⟨Reg.RCL_FIFO s, 16, 11⟩
def Reg.RCL_OVF_DROP_CNT (s : Nat) : Nat := 0x1D00104 + 0x20 * s
def Fld.RCL_OVF_DROP_CNT_COUNT (s : Nat) : Fld := ⟨Reg.RCL_OVF_DROP_CNT s, 0, 32⟩
def Reg.RCL_LIMIT_DROP_CNT (s : Nat) : Nat := 0x1D00108 + 0x20 * s
def Fld.RCL_LIMIT_DROP_CNT_COUNT (s : Nat) : Fld := ⟨Reg.RCL_LIMIT_DROP_CNT s, 0, 32⟩
def Reg.RCL_PASS_CNT (s : Nat) : Nat := 0x1D0010C + 0x20 * s
def Fld.RCL_PASS_CNT_COUNT (s : Nat) : Fld := ⟨Reg.RCL_PASS_CNT s, 0, 32⟩
def Reg.RCL_IMIR_DROP_CNT (s : Nat) : Nat := 0x1D00110 + 0x20 * s
def Fld.RCL_IMIR_DROP_CNT_COUNT (s : Nat) : Fld := ⟨Reg.RCL_IMIR_DROP_CNT s, 0, 32⟩
def Reg.RCL_EMIR_DROP_CNT (s : Nat) : Nat := 0x1D00114 + 0x20 * s
def Fld.RCL_EMIR_DROP_CNT_COUNT (s : Nat) : Fld := ⟨Reg.RCL_EMIR_DROP_CNT s, 0, 32⟩
def Reg.RCL_REPL_DROP_CNT (s : Nat) : Nat := 0x1D00118 + 0x20 * s
def Fld.RCL_REPL_DROP_CNT_COUNT (s : Nat) : Fld := ⟨Reg.RCL_REPL_DROP_CNT s, 0, 32⟩
def Reg.RCL_REPL_LEVEL (s : Nat) : Nat := 0x1D0011C + 0x20 * s
def Fld.RCL_REPL_LEVEL_PACKETS (s : Nat) : Fld := ⟨Reg.RCL_REPL_LEVEL s, 0, 11⟩
def Reg.RCL_PORT_MIRROR (p : Nat) : Nat := 0x1D00400 + 0x4 * p
def Fld.RCL_PORT_MIRROR_RX_SESSION (p : Nat) : Fld := ⟨Reg.RCL_PORT_MIRROR p, 0, 4⟩
def Fld.RCL_PORT_MIRROR_TX_SESSION (p : Nat) : Fld := ⟨Reg.RCL_PORT_MIRROR p, 4, 4⟩

/-! ### EDT (block 18, 10_recirc_edit.md) -/

def Reg.EDT_CFG : Nat := 0x1D08000
def Fld.EDT_CFG_TTL_TRAP : Fld := ⟨Reg.EDT_CFG, 0, 1⟩
def Fld.EDT_CFG_TTL_RING : Fld := ⟨Reg.EDT_CFG, 1, 6⟩
def Reg.EDT_EVENT : Nat := 0x1D08004
def Fld.EDT_EVENT_PAR_ERR : Fld := ⟨Reg.EDT_EVENT, 0, 1⟩
def Fld.EDT_EVENT_TTL_EXPIRED : Fld := ⟨Reg.EDT_EVENT, 1, 1⟩
def Reg.EDT_EVENT_EN : Nat := 0x1D08008
def Fld.EDT_EVENT_EN_EN : Fld := ⟨Reg.EDT_EVENT_EN, 0, 2⟩
def Reg.EDT_TTL_CNT : Nat := 0x1D08010
def Fld.EDT_TTL_CNT_COUNT : Fld := ⟨Reg.EDT_TTL_CNT, 0, 32⟩
def Reg.EDT_SKIP_CNT : Nat := 0x1D08014
def Fld.EDT_SKIP_CNT_COUNT : Fld := ⟨Reg.EDT_SKIP_CNT, 0, 32⟩
def Reg.EDT_STRIP_DROP_CNT : Nat := 0x1D08018
def Fld.EDT_STRIP_DROP_CNT_COUNT : Fld := ⟨Reg.EDT_STRIP_DROP_CNT, 0, 32⟩
def Reg.EDT_PAR_ERR_CNT : Nat := 0x1D0801C
def Fld.EDT_PAR_ERR_CNT_COUNT : Fld := ⟨Reg.EDT_PAR_ERR_CNT, 0, 32⟩
def Reg.EDT_PAR_ERR_LOC : Nat := 0x1D08020
def Fld.EDT_PAR_ERR_LOC_INDEX : Fld := ⟨Reg.EDT_PAR_ERR_LOC, 0, 22⟩
def Fld.EDT_PAR_ERR_LOC_TABLE : Fld := ⟨Reg.EDT_PAR_ERR_LOC, 28, 3⟩
def Reg.EDT_ENCAP_USED : Nat := 0x1D08024
def Fld.EDT_ENCAP_USED_COUNT : Fld := ⟨Reg.EDT_ENCAP_USED, 0, 19⟩
def Reg.EDT_TMPL_USED : Nat := 0x1D08028
def Fld.EDT_TMPL_USED_COUNT : Fld := ⟨Reg.EDT_TMPL_USED, 0, 13⟩
def Reg.EDT_HDR_ROLE (w : Nat) : Nat := 0x1D08100 + 0x4 * w
def Fld.EDT_HDR_ROLE_ROLE (w : Nat) (sub : Nat) : Fld := ⟨Reg.EDT_HDR_ROLE w, 2 * sub, 2⟩

/-! ### GEN (block 19, 03_generations.md) -/

def Reg.GEN_STATE : Nat := 0x1E00000
def Fld.GEN_STATE_STATE_0 : Fld := ⟨Reg.GEN_STATE, 0, 3⟩
def Fld.GEN_STATE_STATE_1 : Fld := ⟨Reg.GEN_STATE, 4, 3⟩
def Fld.GEN_STATE_STATE_2 : Fld := ⟨Reg.GEN_STATE, 8, 3⟩
def Fld.GEN_STATE_STATE_3 : Fld := ⟨Reg.GEN_STATE, 12, 3⟩
def Fld.GEN_STATE_ACTIVE : Fld := ⟨Reg.GEN_STATE, 16, 2⟩
def Fld.GEN_STATE_BUILD_OPEN : Fld := ⟨Reg.GEN_STATE, 18, 1⟩
def Fld.GEN_STATE_PENDING : Fld := ⟨Reg.GEN_STATE, 19, 1⟩
def Fld.GEN_STATE_HOLDER : Fld := ⟨Reg.GEN_STATE, 20, 4⟩
def Reg.GEN_COMMIT_NS : Nat := 0x1E00004
def Fld.GEN_COMMIT_NS_NS : Fld := ⟨Reg.GEN_COMMIT_NS, 0, 30⟩
def Reg.GEN_COMMIT_SEC_LO : Nat := 0x1E00008
def Fld.GEN_COMMIT_SEC_LO_SEC : Fld := ⟨Reg.GEN_COMMIT_SEC_LO, 0, 32⟩
def Reg.GEN_COMMIT_SEC_HI : Nat := 0x1E0000C
def Fld.GEN_COMMIT_SEC_HI_SEC : Fld := ⟨Reg.GEN_COMMIT_SEC_HI, 0, 16⟩
def Reg.GEN_SEQ (g : Nat) : Nat := 0x1E00010 + 0x4 * g
def Fld.GEN_SEQ_SEQ (g : Nat) : Fld := ⟨Reg.GEN_SEQ g, 0, 32⟩
def Reg.GEN_DRAIN (g : Nat) : Nat := 0x1E00020 + 0x4 * g
def Fld.GEN_DRAIN_COUNT (g : Nat) : Fld := ⟨Reg.GEN_DRAIN g, 0, 32⟩
def Reg.GEN_DRAIN_LIMIT : Nat := 0x1E00030
def Fld.GEN_DRAIN_LIMIT_MS : Fld := ⟨Reg.GEN_DRAIN_LIMIT, 0, 16⟩
def Reg.GEN_EVENT : Nat := 0x1E00034
def Fld.GEN_EVENT_ACTIVATED : Fld := ⟨Reg.GEN_EVENT, 0, 1⟩
def Fld.GEN_EVENT_RETIRED : Fld := ⟨Reg.GEN_EVENT, 1, 1⟩
def Fld.GEN_EVENT_RECLAIM_DONE : Fld := ⟨Reg.GEN_EVENT, 2, 1⟩
def Fld.GEN_EVENT_DRAIN_SLOW : Fld := ⟨Reg.GEN_EVENT, 3, 1⟩
def Fld.GEN_EVENT_LATE_ARM : Fld := ⟨Reg.GEN_EVENT, 4, 1⟩
def Fld.GEN_EVENT_COUNT_ERR : Fld := ⟨Reg.GEN_EVENT, 5, 1⟩
def Reg.GEN_EVENT_EN : Nat := 0x1E00038
def Fld.GEN_EVENT_EN_EN : Fld := ⟨Reg.GEN_EVENT_EN, 0, 6⟩
def Reg.GEN_PAR_BANK : Nat := 0x1E00040
def Fld.GEN_PAR_BANK_BANK_0 : Fld := ⟨Reg.GEN_PAR_BANK, 0, 2⟩
def Fld.GEN_PAR_BANK_BANK_1 : Fld := ⟨Reg.GEN_PAR_BANK, 2, 2⟩
def Fld.GEN_PAR_BANK_BANK_2 : Fld := ⟨Reg.GEN_PAR_BANK, 4, 2⟩
def Fld.GEN_PAR_BANK_BANK_3 : Fld := ⟨Reg.GEN_PAR_BANK, 6, 2⟩
def Reg.GEN_DIRECT_CNT : Nat := 0x1E00044
def Fld.GEN_DIRECT_CNT_COUNT : Fld := ⟨Reg.GEN_DIRECT_CNT, 0, 32⟩
def Reg.GEN_MARGIN (t : Nat) : Nat := 0x1E00100 + 0x4 * t
def Fld.GEN_MARGIN_PERCENT (t : Nat) : Fld := ⟨Reg.GEN_MARGIN t, 0, 5⟩
def Reg.GEN_VISIBLE (t : Nat) : Nat := 0x1E00140 + 0x4 * t
def Fld.GEN_VISIBLE_COUNT (t : Nat) : Fld := ⟨Reg.GEN_VISIBLE t, 0, 25⟩
def Reg.GEN_STORED (t : Nat) : Nat := 0x1E00180 + 0x4 * t
def Fld.GEN_STORED_COUNT (t : Nat) : Fld := ⟨Reg.GEN_STORED t, 0, 25⟩
def Reg.GEN_JOURNAL (t : Nat) : Nat := 0x1E001C0 + 0x4 * t
def Fld.GEN_JOURNAL_COUNT (t : Nat) : Fld := ⟨Reg.GEN_JOURNAL t, 0, 25⟩

/-! ### HBF (block 20, 17_hbm.md) -/

def Reg.HBF_CFG : Nat := 0x2000000
def Fld.HBF_CFG_ACT_THRESH : Fld := ⟨Reg.HBF_CFG, 0, 16⟩
def Fld.HBF_CFG_BLAST : Fld := ⟨Reg.HBF_CFG, 16, 2⟩
def Fld.HBF_CFG_RETRY_MAX : Fld := ⟨Reg.HBF_CFG, 18, 4⟩
def Reg.HBF_FAIL_CFG : Nat := 0x2000004
def Fld.HBF_FAIL_CFG_UE_FAIL : Fld := ⟨Reg.HBF_FAIL_CFG, 0, 16⟩
def Reg.HBF_SR_CFG : Nat := 0x2000008
def Reg.HBF_EVENT : Nat := 0x2000010
def Fld.HBF_EVENT_CORR : Fld := ⟨Reg.HBF_EVENT, 0, 1⟩
def Fld.HBF_EVENT_UE : Fld := ⟨Reg.HBF_EVENT, 1, 1⟩
def Fld.HBF_EVENT_RETRAIN : Fld := ⟨Reg.HBF_EVENT, 2, 1⟩
def Fld.HBF_EVENT_STACK_FAIL : Fld := ⟨Reg.HBF_EVENT, 3, 1⟩
def Fld.HBF_EVENT_TRAIN_DONE : Fld := ⟨Reg.HBF_EVENT, 4, 1⟩
def Fld.HBF_EVENT_TRAIN_FAIL : Fld := ⟨Reg.HBF_EVENT, 5, 1⟩
def Fld.HBF_EVENT_LATE : Fld := ⟨Reg.HBF_EVENT, 6, 1⟩
def Reg.HBF_EVENT_EN : Nat := 0x2000014
def Fld.HBF_EVENT_EN_EN : Fld := ⟨Reg.HBF_EVENT_EN, 0, 7⟩
def Reg.HBF_ERR_LOC : Nat := 0x2000018
def Fld.HBF_ERR_LOC_STACK : Fld := ⟨Reg.HBF_ERR_LOC, 0, 3⟩
def Fld.HBF_ERR_LOC_PC : Fld := ⟨Reg.HBF_ERR_LOC, 3, 6⟩
def Fld.HBF_ERR_LOC_BANK : Fld := ⟨Reg.HBF_ERR_LOC, 9, 4⟩
def Fld.HBF_ERR_LOC_ROW : Fld := ⟨Reg.HBF_ERR_LOC, 13, 15⟩
def Fld.HBF_ERR_LOC_COLUMN : Fld := ⟨Reg.HBF_ERR_LOC, 28, 4⟩
def Reg.HBF_ERR_INFO : Nat := 0x200001C
def Fld.HBF_ERR_INFO_SOURCE : Fld := ⟨Reg.HBF_ERR_INFO, 0, 5⟩
def Fld.HBF_ERR_INFO_KIND : Fld := ⟨Reg.HBF_ERR_INFO, 5, 1⟩
def Fld.HBF_ERR_INFO_SCRUB : Fld := ⟨Reg.HBF_ERR_INFO, 6, 1⟩
def Reg.HBF_LATE_CNT : Nat := 0x2000020
def Fld.HBF_LATE_CNT_COUNT : Fld := ⟨Reg.HBF_LATE_CNT, 0, 32⟩
def Reg.HBF_RMW_CNT : Nat := 0x2000024
def Reg.HBF_STACK_CTRL (k : Nat) : Nat := 0x2001000 + 0x100 * k
def Fld.HBF_STACK_CTRL_TRAIN (k : Nat) : Fld := ⟨Reg.HBF_STACK_CTRL k, 0, 1⟩
def Reg.HBF_STACK_STATUS (k : Nat) : Nat := 0x2001004 + 0x100 * k
def Fld.HBF_STACK_STATUS_STATE (k : Nat) : Fld := ⟨Reg.HBF_STACK_STATUS k, 0, 3⟩
def Fld.HBF_STACK_STATUS_TEMP (k : Nat) : Fld := ⟨Reg.HBF_STACK_STATUS k, 3, 8⟩
def Fld.HBF_STACK_STATUS_REFRESH_2X (k : Nat) : Fld := ⟨Reg.HBF_STACK_STATUS k, 11, 1⟩
def Fld.HBF_STACK_STATUS_SELF_REFRESH (k : Nat) : Fld := ⟨Reg.HBF_STACK_STATUS k, 12, 1⟩
def Fld.HBF_STACK_STATUS_TRAINED (k : Nat) : Fld := ⟨Reg.HBF_STACK_STATUS k, 13, 1⟩
def Fld.HBF_STACK_STATUS_LANES_REPAIRED (k : Nat) : Fld := ⟨Reg.HBF_STACK_STATUS k, 16, 4⟩
def Reg.HBF_CORR_CNT (k : Nat) : Nat := 0x2001008 + 0x100 * k
def Fld.HBF_CORR_CNT_COUNT (k : Nat) : Fld := ⟨Reg.HBF_CORR_CNT k, 0, 32⟩
def Reg.HBF_UE_CNT (k : Nat) : Nat := 0x200100C + 0x100 * k
def Fld.HBF_UE_CNT_COUNT (k : Nat) : Fld := ⟨Reg.HBF_UE_CNT k, 0, 32⟩
def Reg.HBF_RETRY_CNT (k : Nat) : Nat := 0x2001010 + 0x100 * k
def Fld.HBF_RETRY_CNT_COUNT (k : Nat) : Fld := ⟨Reg.HBF_RETRY_CNT k, 0, 32⟩
def Reg.HBF_RETRAIN_CNT (k : Nat) : Nat := 0x2001014 + 0x100 * k
def Fld.HBF_RETRAIN_CNT_COUNT (k : Nat) : Fld := ⟨Reg.HBF_RETRAIN_CNT k, 0, 16⟩
def Reg.HBF_NREF_CNT (k : Nat) : Nat := 0x2001018 + 0x100 * k
def Fld.HBF_NREF_CNT_COUNT (k : Nat) : Fld := ⟨Reg.HBF_NREF_CNT k, 0, 32⟩
def Reg.HBF_SCRUB_PASS (k : Nat) : Nat := 0x200101C + 0x100 * k
def Fld.HBF_SCRUB_PASS_PASSES (k : Nat) : Fld := ⟨Reg.HBF_SCRUB_PASS k, 0, 16⟩
def Reg.HBF_SCRUB_POS (k : Nat) : Nat := 0x2001020 + 0x100 * k
def Fld.HBF_SCRUB_POS_UNIT (k : Nat) : Fld := ⟨Reg.HBF_SCRUB_POS k, 0, 32⟩

/-! ### BUF (block 21, 11_buffering.md) -/

def Reg.BUF_SUMP_CFG : Nat := 0x4000000
def Fld.BUF_SUMP_CFG_EXP_RESERVE : Fld := ⟨Reg.BUF_SUMP_CFG, 0, 18⟩
def Reg.BUF_REFILL_CFG : Nat := 0x4000004
def Fld.BUF_REFILL_CFG_POOL_CELLS : Fld := ⟨Reg.BUF_REFILL_CFG, 0, 19⟩
def Fld.BUF_REFILL_CFG_REFILL_KB : Fld := ⟨Reg.BUF_REFILL_CFG, 24, 8⟩
def Reg.BUF_SPILL_CFG : Nat := 0x4000008
def Fld.BUF_SPILL_CFG_SUMP_SPILL_FREE : Fld := ⟨Reg.BUF_SPILL_CFG, 0, 21⟩
def Reg.BUF_SUMP_STATUS : Nat := 0x4000010
def Fld.BUF_SUMP_STATUS_SHARED_FREE : Fld := ⟨Reg.BUF_SUMP_STATUS, 0, 21⟩
def Reg.BUF_SUMP_EXP : Nat := 0x4000014
def Fld.BUF_SUMP_EXP_USED : Fld := ⟨Reg.BUF_SUMP_EXP, 0, 18⟩
def Reg.BUF_SUMP_REFILL : Nat := 0x4000018
def Fld.BUF_SUMP_REFILL_USED : Fld := ⟨Reg.BUF_SUMP_REFILL, 0, 19⟩
def Reg.BUF_SUMP_PEAK : Nat := 0x400001C
def Fld.BUF_SUMP_PEAK_SHARED_USED : Fld := ⟨Reg.BUF_SUMP_PEAK, 0, 21⟩
def Reg.BUF_PEAK_CLR : Nat := 0x4000020
def Fld.BUF_PEAK_CLR_GO : Fld := ⟨Reg.BUF_PEAK_CLR, 0, 1⟩
def Reg.BUF_CIST_FREE (s : Nat) : Nat := 0x4000030 + 0x4 * s
def Fld.BUF_CIST_FREE_PAGES (s : Nat) : Fld := ⟨Reg.BUF_CIST_FREE s, 0, 23⟩
def Reg.BUF_CIST_QUEUES : Nat := 0x4000050
def Fld.BUF_CIST_QUEUES_SPILLED : Fld := ⟨Reg.BUF_CIST_QUEUES, 0, 21⟩
def Reg.BUF_REGION_STATE (s : Nat) : Nat := 0x4000060 + 0x4 * s
def Fld.BUF_REGION_STATE_STATE (s : Nat) (sub : Nat) : Fld := ⟨Reg.BUF_REGION_STATE s, 3 * sub, 3⟩
def Fld.BUF_REGION_STATE_HELD (s : Nat) : Fld := ⟨Reg.BUF_REGION_STATE s, 24, 8⟩
def Reg.BUF_FENCE_CFG : Nat := 0x4000080
def Fld.BUF_FENCE_CFG_WAIT_MS : Fld := ⟨Reg.BUF_FENCE_CFG, 0, 16⟩
def Reg.BUF_UNFENCE_FREE : Nat := 0x4000084
def Fld.BUF_UNFENCE_FREE_PAGES : Fld := ⟨Reg.BUF_UNFENCE_FREE, 0, 26⟩
def Reg.BUF_PFC_CFG : Nat := 0x4000090
def Fld.BUF_PFC_CFG_REFRESH_US : Fld := ⟨Reg.BUF_PFC_CFG, 0, 16⟩
def Reg.BUF_EVENT : Nat := 0x40000A0
def Fld.BUF_EVENT_SUMP_UE : Fld := ⟨Reg.BUF_EVENT, 0, 1⟩
def Fld.BUF_EVENT_CIST_UE : Fld := ⟨Reg.BUF_EVENT, 1, 1⟩
def Fld.BUF_EVENT_SEGMENT_LOST : Fld := ⟨Reg.BUF_EVENT, 2, 1⟩
def Fld.BUF_EVENT_STACK_LOST : Fld := ⟨Reg.BUF_EVENT, 3, 1⟩
def Fld.BUF_EVENT_FENCE_TIMEOUT : Fld := ⟨Reg.BUF_EVENT, 4, 1⟩
def Fld.BUF_EVENT_AUTO_UNFENCE : Fld := ⟨Reg.BUF_EVENT, 5, 1⟩
def Fld.BUF_EVENT_PARKED : Fld := ⟨Reg.BUF_EVENT, 6, 1⟩
def Fld.BUF_EVENT_FLUSH_DONE : Fld := ⟨Reg.BUF_EVENT, 7, 1⟩
def Fld.BUF_EVENT_D2D_RETRAIN : Fld := ⟨Reg.BUF_EVENT, 8, 1⟩
def Reg.BUF_EVENT_EN : Nat := 0x40000A4
def Fld.BUF_EVENT_EN_EN : Fld := ⟨Reg.BUF_EVENT_EN, 0, 9⟩
def Reg.BUF_CORR_CNT : Nat := 0x40000B0
def Fld.BUF_CORR_CNT_COUNT : Fld := ⟨Reg.BUF_CORR_CNT, 0, 32⟩
def Reg.BUF_UE_DROP_CNT : Nat := 0x40000B4
def Fld.BUF_UE_DROP_CNT_COUNT : Fld := ⟨Reg.BUF_UE_DROP_CNT, 0, 32⟩
def Reg.BUF_REFILL_WAIT_CNT : Nat := 0x40000B8
def Fld.BUF_REFILL_WAIT_CNT_COUNT : Fld := ⟨Reg.BUF_REFILL_WAIT_CNT, 0, 32⟩
def Reg.BUF_SCAVENGE : Nat := 0x40000BC
def Fld.BUF_SCAVENGE_PAGES : Fld := ⟨Reg.BUF_SCAVENGE, 0, 26⟩
def Reg.BUF_DROP_CNT_LO (n : Nat) : Nat := 0x4000100 + 0x8 * n
def Fld.BUF_DROP_CNT_LO_COUNT (n : Nat) : Fld := ⟨Reg.BUF_DROP_CNT_LO n, 0, 32⟩
def Reg.BUF_DROP_CNT_HI (n : Nat) : Nat := 0x4000104 + 0x8 * n
def Fld.BUF_DROP_CNT_HI_COUNT (n : Nat) : Fld := ⟨Reg.BUF_DROP_CNT_HI n, 0, 32⟩
def Reg.BUF_SEL : Nat := 0x4000200
def Fld.BUF_SEL_PORT : Fld := ⟨Reg.BUF_SEL, 0, 7⟩
def Fld.BUF_SEL_CLASS : Fld := ⟨Reg.BUF_SEL, 7, 3⟩
def Fld.BUF_SEL_KIND : Fld := ⟨Reg.BUF_SEL, 10, 2⟩
def Fld.BUF_SEL_REASON : Fld := ⟨Reg.BUF_SEL, 12, 4⟩
def Fld.BUF_SEL_CLASS_TOTAL : Fld := ⟨Reg.BUF_SEL, 16, 1⟩
def Reg.BUF_SEL_DATA_LO : Nat := 0x4000208
def Fld.BUF_SEL_DATA_LO_VALUE : Fld := ⟨Reg.BUF_SEL_DATA_LO, 0, 32⟩
def Reg.BUF_SEL_DATA_HI : Nat := 0x400020C
def Fld.BUF_SEL_DATA_HI_VALUE : Fld := ⟨Reg.BUF_SEL_DATA_HI, 0, 32⟩
def Reg.BUF_PFC_XOFF (w : Nat) : Nat := 0x4000300 + 0x4 * w
def Fld.BUF_PFC_XOFF_XOFF (w : Nat) (sub : Nat) : Fld := ⟨Reg.BUF_PFC_XOFF w, 8 * sub, 8⟩

/-! ### SCH (block 22, 12_scheduling.md) -/

def Reg.SCH_CFG : Nat := 0x4400000
def Fld.SCH_CFG_EN : Fld := ⟨Reg.SCH_CFG, 0, 1⟩
def Reg.SCH_STATUS : Nat := 0x4400004
def Fld.SCH_STATUS_YIELD_STEP : Fld := ⟨Reg.SCH_STATUS, 0, 3⟩
def Reg.SCH_PREC_FREE : Nat := 0x4400008
def Fld.SCH_PREC_FREE_COUNT : Fld := ⟨Reg.SCH_PREC_FREE, 0, 13⟩
def Reg.SCH_YIELD_FACTOR (y : Nat) : Nat := 0x4400010 + 0x4 * y
def Fld.SCH_YIELD_FACTOR_FACTOR (y : Nat) : Fld := ⟨Reg.SCH_YIELD_FACTOR y, 0, 9⟩
def Reg.SCH_EVENT : Nat := 0x4400040
def Fld.SCH_EVENT_YIELD_CHANGE : Fld := ⟨Reg.SCH_EVENT, 0, 1⟩
def Fld.SCH_EVENT_QSEL_MISS : Fld := ⟨Reg.SCH_EVENT, 1, 1⟩
def Fld.SCH_EVENT_CFG_ERR : Fld := ⟨Reg.SCH_EVENT, 2, 1⟩
def Reg.SCH_EVENT_EN : Nat := 0x4400044
def Fld.SCH_EVENT_EN_EN : Fld := ⟨Reg.SCH_EVENT_EN, 0, 3⟩
def Reg.SCH_QSEL_MISS_CNT : Nat := 0x4400048
def Fld.SCH_QSEL_MISS_CNT_COUNT : Fld := ⟨Reg.SCH_QSEL_MISS_CNT, 0, 32⟩
def Reg.SCH_PORT_BIND (n : Nat) : Nat := 0x4400100 + 0x4 * n
def Fld.SCH_PORT_BIND_KIND (n : Nat) : Fld := ⟨Reg.SCH_PORT_BIND n, 0, 2⟩
def Fld.SCH_PORT_BIND_LINE_PORT (n : Nat) : Fld := ⟨Reg.SCH_PORT_BIND n, 2, 7⟩
def Fld.SCH_PORT_BIND_ADJ (n : Nat) : Fld := ⟨Reg.SCH_PORT_BIND n, 9, 7⟩
def Fld.SCH_PORT_BIND_EN (n : Nat) : Fld := ⟨Reg.SCH_PORT_BIND n, 16, 1⟩
def Reg.SCH_PORT_YBASE (n : Nat) : Nat := 0x4400300 + 0x4 * n
def Fld.SCH_PORT_YBASE_KBPS (n : Nat) : Fld := ⟨Reg.SCH_PORT_YBASE n, 0, 32⟩
def Reg.SCH_PORT_STATUS (n : Nat) : Nat := 0x4400500 + 0x4 * n
def Fld.SCH_PORT_STATUS_ELIGIBLE (n : Nat) : Fld := ⟨Reg.SCH_PORT_STATUS n, 0, 1⟩
def Fld.SCH_PORT_STATUS_PAUSED (n : Nat) : Fld := ⟨Reg.SCH_PORT_STATUS n, 1, 1⟩
def Fld.SCH_PORT_STATUS_PFC_HELD (n : Nat) : Fld := ⟨Reg.SCH_PORT_STATUS n, 2, 8⟩
def Fld.SCH_PORT_STATUS_YIELD_CLOSED (n : Nat) : Fld := ⟨Reg.SCH_PORT_STATUS n, 10, 1⟩
def Fld.SCH_PORT_STATUS_NO_ROOM (n : Nat) : Fld := ⟨Reg.SCH_PORT_STATUS n, 11, 1⟩
def Reg.SCH_PORT_QBASE (p : Nat) : Nat := 0x4400700 + 0x4 * p
def Fld.SCH_PORT_QBASE_QBASE (p : Nat) : Fld := ⟨Reg.SCH_PORT_QBASE p, 0, 20⟩
def Fld.SCH_PORT_QBASE_VALID (p : Nat) : Fld := ⟨Reg.SCH_PORT_QBASE p, 31, 1⟩

/-! ### SHP (block 23, 12_scheduling.md) -/

def Reg.SHP_SEL : Nat := 0x4800000
def Fld.SHP_SEL_INDEX : Fld := ⟨Reg.SHP_SEL, 0, 18⟩
def Fld.SHP_SEL_KIND : Fld := ⟨Reg.SHP_SEL, 18, 3⟩
def Reg.SHP_RATE : Nat := 0x4800004
def Fld.SHP_RATE_KBPS : Fld := ⟨Reg.SHP_RATE, 0, 32⟩
def Reg.SHP_BURST : Nat := 0x4800008
def Fld.SHP_BURST_BYTES : Fld := ⟨Reg.SHP_BURST, 0, 32⟩
def Reg.SHP_CFG : Nat := 0x480000C
def Fld.SHP_CFG_EN : Fld := ⟨Reg.SHP_CFG, 0, 1⟩
def Fld.SHP_CFG_RESET_MODE : Fld := ⟨Reg.SHP_CFG, 1, 1⟩
def Reg.SHP_TOKENS_LO : Nat := 0x4800010
def Fld.SHP_TOKENS_LO_T : Fld := ⟨Reg.SHP_TOKENS_LO, 0, 32⟩
def Reg.SHP_TOKENS_HI : Nat := 0x4800014
def Fld.SHP_TOKENS_HI_T : Fld := ⟨Reg.SHP_TOKENS_HI, 0, 32⟩

/-! ### POL (block 23, 12_scheduling.md) -/

def Reg.POL_TM_CFG : Nat := 0x4801000
def Fld.POL_TM_CFG_EN : Fld := ⟨Reg.POL_TM_CFG, 0, 1⟩
def Reg.POL_TM_EVENT : Nat := 0x4801004
def Fld.POL_TM_EVENT_ECC : Fld := ⟨Reg.POL_TM_EVENT, 0, 1⟩
def Reg.POL_TM_EVENT_EN : Nat := 0x4801008
def Fld.POL_TM_EVENT_EN_EN : Fld := ⟨Reg.POL_TM_EVENT_EN, 0, 1⟩
def Reg.POL_TM_ECC_CNT : Nat := 0x480100C
def Fld.POL_TM_ECC_CNT_COUNT : Fld := ⟨Reg.POL_TM_ECC_CNT, 0, 32⟩

/-! ### DLN (block 24, 13_deadline.md) -/

def Reg.DLN_CFG : Nat := 0x4C00000
def Fld.DLN_CFG_EN : Fld := ⟨Reg.DLN_CFG, 0, 1⟩
def Fld.DLN_CFG_FAB_LDT : Fld := ⟨Reg.DLN_CFG, 1, 1⟩
def Reg.DLN_EVENT : Nat := 0x4C00004
def Fld.DLN_EVENT_LATE : Fld := ⟨Reg.DLN_EVENT, 0, 1⟩
def Fld.DLN_EVENT_GCL_SWITCHED : Fld := ⟨Reg.DLN_EVENT, 1, 1⟩
def Fld.DLN_EVENT_GCL_LATE : Fld := ⟨Reg.DLN_EVENT, 2, 1⟩
def Fld.DLN_EVENT_VERIFY_FAIL : Fld := ⟨Reg.DLN_EVENT, 3, 1⟩
def Fld.DLN_EVENT_CT_ABORT : Fld := ⟨Reg.DLN_EVENT, 4, 1⟩
def Fld.DLN_EVENT_CFG_ERR : Fld := ⟨Reg.DLN_EVENT, 5, 1⟩
def Fld.DLN_EVENT_TX_FIFO_DROP : Fld := ⟨Reg.DLN_EVENT, 6, 1⟩
def Reg.DLN_EVENT_EN : Nat := 0x4C00008
def Fld.DLN_EVENT_EN_EN : Fld := ⟨Reg.DLN_EVENT_EN, 0, 7⟩
def Reg.DLN_CNT_SEL : Nat := 0x4C00100
def Fld.DLN_CNT_SEL_OBJ : Fld := ⟨Reg.DLN_CNT_SEL, 0, 7⟩
def Fld.DLN_CNT_SEL_KIND : Fld := ⟨Reg.DLN_CNT_SEL, 7, 1⟩
def Fld.DLN_CNT_SEL_COUNTER : Fld := ⟨Reg.DLN_CNT_SEL, 8, 5⟩
def Fld.DLN_CNT_SEL_LATCHED : Fld := ⟨Reg.DLN_CNT_SEL, 16, 1⟩
def Reg.DLN_CNT_DATA_LO : Nat := 0x4C00108
def Fld.DLN_CNT_DATA_LO_VALUE : Fld := ⟨Reg.DLN_CNT_DATA_LO, 0, 32⟩
def Reg.DLN_CNT_DATA_HI : Nat := 0x4C0010C
def Fld.DLN_CNT_DATA_HI_VALUE : Fld := ⟨Reg.DLN_CNT_DATA_HI, 0, 32⟩
def Reg.DLN_NODE_TAIL (n : Nat) : Nat := 0x4C00400 + 0x4 * n
def Fld.DLN_NODE_TAIL_TAIL_NS (n : Nat) : Fld := ⟨Reg.DLN_NODE_TAIL n, 0, 16⟩
def Reg.DLN_PORT_CFG (p : Nat) : Nat := 0x4C01000 + 0x20 * p
def Fld.DLN_PORT_CFG_GATE_EN (p : Nat) : Fld := ⟨Reg.DLN_PORT_CFG p, 0, 1⟩
def Fld.DLN_PORT_CFG_PREEMPT_EN (p : Nat) : Fld := ⟨Reg.DLN_PORT_CFG p, 1, 1⟩
def Fld.DLN_PORT_CFG_VERIFY_EN (p : Nat) : Fld := ⟨Reg.DLN_PORT_CFG p, 2, 1⟩
def Fld.DLN_PORT_CFG_ADD_FRAG_SIZE (p : Nat) : Fld := ⟨Reg.DLN_PORT_CFG p, 3, 2⟩
def Fld.DLN_PORT_CFG_EXPRESS_TC (p : Nat) : Fld := ⟨Reg.DLN_PORT_CFG p, 8, 8⟩
def Fld.DLN_PORT_CFG_TC_KB (p : Nat) : Fld := ⟨Reg.DLN_PORT_CFG p, 16, 8⟩
def Fld.DLN_PORT_CFG_VERIFY_MS (p : Nat) : Fld := ⟨Reg.DLN_PORT_CFG p, 24, 8⟩
def Reg.DLN_PORT_STATUS (p : Nat) : Nat := 0x4C01004 + 0x20 * p
def Fld.DLN_PORT_STATUS_GATES (p : Nat) : Fld := ⟨Reg.DLN_PORT_STATUS p, 0, 8⟩
def Fld.DLN_PORT_STATUS_OPER_BANK (p : Nat) : Fld := ⟨Reg.DLN_PORT_STATUS p, 8, 1⟩
def Fld.DLN_PORT_STATUS_PENDING (p : Nat) : Fld := ⟨Reg.DLN_PORT_STATUS p, 9, 1⟩
def Fld.DLN_PORT_STATUS_HOLD (p : Nat) : Fld := ⟨Reg.DLN_PORT_STATUS p, 10, 1⟩
def Fld.DLN_PORT_STATUS_VERIFY (p : Nat) : Fld := ⟨Reg.DLN_PORT_STATUS p, 11, 2⟩
def Fld.DLN_PORT_STATUS_PREEMPT_ACTIVE (p : Nat) : Fld := ⟨Reg.DLN_PORT_STATUS p, 13, 1⟩
def Fld.DLN_PORT_STATUS_EXP_FIFO (p : Nat) : Fld := ⟨Reg.DLN_PORT_STATUS p, 16, 16⟩
def Reg.DLN_PORT_CYCLE (p : Nat) : Nat := 0x4C01008 + 0x20 * p
def Fld.DLN_PORT_CYCLE_CYCLE_NS (p : Nat) : Fld := ⟨Reg.DLN_PORT_CYCLE p, 0, 30⟩
def Reg.DLN_PORT_LEN (p : Nat) : Nat := 0x4C0100C + 0x20 * p
def Fld.DLN_PORT_LEN_LENGTH (p : Nat) : Fld := ⟨Reg.DLN_PORT_LEN p, 0, 11⟩
def Reg.DLN_PORT_CCT_NS (p : Nat) : Nat := 0x4C01010 + 0x20 * p
def Fld.DLN_PORT_CCT_NS_NS (p : Nat) : Fld := ⟨Reg.DLN_PORT_CCT_NS p, 0, 30⟩
def Reg.DLN_PORT_CCT_SEC_LO (p : Nat) : Nat := 0x4C01014 + 0x20 * p
def Fld.DLN_PORT_CCT_SEC_LO_SEC (p : Nat) : Fld := ⟨Reg.DLN_PORT_CCT_SEC_LO p, 0, 32⟩
def Reg.DLN_PORT_CCT_SEC_HI (p : Nat) : Nat := 0x4C01018 + 0x20 * p
def Fld.DLN_PORT_CCT_SEC_HI_SEC (p : Nat) : Fld := ⟨Reg.DLN_PORT_CCT_SEC_HI p, 0, 16⟩

/-! ### FAB (block 25, 14_fabric_local_switch.md) -/

def Reg.FAB_CFG : Nat := 0x5000000
def Fld.FAB_CFG_DEV_ID : Fld := ⟨Reg.FAB_CFG, 0, 11⟩
def Fld.FAB_CFG_CREDIT_SIZE : Fld := ⟨Reg.FAB_CFG, 11, 2⟩
def Fld.FAB_CFG_CREDIT_ADJ : Fld := ⟨Reg.FAB_CFG, 13, 7⟩
def Fld.FAB_CFG_EN : Fld := ⟨Reg.FAB_CFG, 31, 1⟩
def Reg.FAB_TMR : Nat := 0x5000004
def Fld.FAB_TMR_REORDER_US : Fld := ⟨Reg.FAB_TMR, 0, 10⟩
def Fld.FAB_TMR_ACK_TIMEOUT_US : Fld := ⟨Reg.FAB_TMR, 16, 10⟩
def Reg.FAB_TMR2 : Nat := 0x5000008
def Fld.FAB_TMR2_CF_IDLE_US : Fld := ⟨Reg.FAB_TMR2, 0, 16⟩
def Fld.FAB_TMR2_STATUS_US : Fld := ⟨Reg.FAB_TMR2, 16, 8⟩
def Fld.FAB_TMR2_UP_HOLD_MS : Fld := ⟨Reg.FAB_TMR2, 24, 8⟩
def Reg.FAB_STATUS : Nat := 0x5000010
def Fld.FAB_STATUS_LINKS_ACTIVE : Fld := ⟨Reg.FAB_STATUS, 0, 8⟩
def Fld.FAB_STATUS_CFLOWS : Fld := ⟨Reg.FAB_STATUS, 8, 18⟩
def Reg.FAB_EVENT : Nat := 0x5000020
def Fld.FAB_EVENT_LINK_UP : Fld := ⟨Reg.FAB_EVENT, 0, 1⟩
def Fld.FAB_EVENT_LINK_DOWN : Fld := ⟨Reg.FAB_EVENT, 1, 1⟩
def Fld.FAB_EVENT_UNREACH : Fld := ⟨Reg.FAB_EVENT, 2, 1⟩
def Fld.FAB_EVENT_REACH : Fld := ⟨Reg.FAB_EVENT, 3, 1⟩
def Fld.FAB_EVENT_GAP_DROP : Fld := ⟨Reg.FAB_EVENT, 4, 1⟩
def Fld.FAB_EVENT_CFLOW_FULL : Fld := ⟨Reg.FAB_EVENT, 5, 1⟩
def Fld.FAB_EVENT_SELF_DEST : Fld := ⟨Reg.FAB_EVENT, 6, 1⟩
def Reg.FAB_EVENT_EN : Nat := 0x5000024
def Fld.FAB_EVENT_EN_EN : Fld := ⟨Reg.FAB_EVENT_EN, 0, 7⟩
def Reg.FAB_GAP_DROP_CNT : Nat := 0x5000028
def Fld.FAB_GAP_DROP_CNT_COUNT : Fld := ⟨Reg.FAB_GAP_DROP_CNT, 0, 32⟩
def Reg.FAB_DUP_CNT : Nat := 0x500002C
def Fld.FAB_DUP_CNT_COUNT : Fld := ⟨Reg.FAB_DUP_CNT, 0, 32⟩
def Reg.FAB_CFLOW_REJ_CNT : Nat := 0x5000030
def Fld.FAB_CFLOW_REJ_CNT_COUNT : Fld := ⟨Reg.FAB_CFLOW_REJ_CNT, 0, 32⟩
def Reg.FAB_RX_NAK_CNT : Nat := 0x5000034
def Fld.FAB_RX_NAK_CNT_COUNT : Fld := ⟨Reg.FAB_RX_NAK_CNT, 0, 32⟩
def Reg.FAB_ERR_DROP_CNT : Nat := 0x5000038
def Fld.FAB_ERR_DROP_CNT_COUNT : Fld := ⟨Reg.FAB_ERR_DROP_CNT, 0, 32⟩
def Reg.FAB_REACH_SEL : Nat := 0x5000040
def Fld.FAB_REACH_SEL_DEV : Fld := ⟨Reg.FAB_REACH_SEL, 0, 11⟩
def Reg.FAB_REACH_STATUS : Nat := 0x5000044
def Fld.FAB_REACH_STATUS_REACHABLE : Fld := ⟨Reg.FAB_REACH_STATUS, 0, 1⟩
def Fld.FAB_REACH_STATUS_LINKS : Fld := ⟨Reg.FAB_REACH_STATUS, 8, 8⟩
def Fld.FAB_REACH_STATUS_PIN : Fld := ⟨Reg.FAB_REACH_STATUS, 16, 11⟩
def Reg.FAB_REACH_DATA (w : Nat) : Nat := 0x5000050 + 0x4 * w
def Fld.FAB_REACH_DATA_LINKS (w : Nat) : Fld := ⟨Reg.FAB_REACH_DATA w, 0, 32⟩
def Reg.FAB_LINK_CTRL (l : Nat) : Nat := 0x5001000 + 0x10 * l
def Fld.FAB_LINK_CTRL_EN (l : Nat) : Fld := ⟨Reg.FAB_LINK_CTRL l, 0, 1⟩
def Fld.FAB_LINK_CTRL_STATE (l : Nat) : Fld := ⟨Reg.FAB_LINK_CTRL l, 1, 3⟩
def Reg.FAB_LINK_RETX (l : Nat) : Nat := 0x5001004 + 0x10 * l
def Fld.FAB_LINK_RETX_COUNT (l : Nat) : Fld := ⟨Reg.FAB_LINK_RETX l, 0, 32⟩
def Reg.FAB_LINK_CRC (l : Nat) : Nat := 0x5001008 + 0x10 * l
def Fld.FAB_LINK_CRC_COUNT (l : Nat) : Fld := ⟨Reg.FAB_LINK_CRC l, 0, 32⟩
def Reg.FAB_LINK_REPLAY (l : Nat) : Nat := 0x500100C + 0x10 * l
def Fld.FAB_LINK_REPLAY_LEVEL (l : Nat) : Fld := ⟨Reg.FAB_LINK_REPLAY l, 0, 15⟩
def Fld.FAB_LINK_REPLAY_FULL (l : Nat) : Fld := ⟨Reg.FAB_LINK_REPLAY l, 16, 16⟩
def Reg.FAB_PORT_CRED (p : Nat) : Nat := 0x5004000 + 0x20 * p
def Fld.FAB_PORT_CRED_FACTOR (p : Nat) : Fld := ⟨Reg.FAB_PORT_CRED p, 0, 11⟩
def Fld.FAB_PORT_CRED_EN (p : Nat) : Fld := ⟨Reg.FAB_PORT_CRED p, 11, 1⟩
def Fld.FAB_PORT_CRED_STRICT_TC (p : Nat) : Fld := ⟨Reg.FAB_PORT_CRED p, 12, 8⟩
def Reg.FAB_PORT_EXPRES (p : Nat) : Nat := 0x5004004 + 0x20 * p
def Fld.FAB_PORT_EXPRES_KBPS (p : Nat) : Fld := ⟨Reg.FAB_PORT_EXPRES p, 0, 32⟩
def Reg.FAB_PORT_STOP (p : Nat) : Nat := 0x5004008 + 0x20 * p
def Fld.FAB_PORT_STOP_STOP_KB (p : Nat) : Fld := ⟨Reg.FAB_PORT_STOP p, 0, 16⟩
def Fld.FAB_PORT_STOP_GO_KB (p : Nat) : Fld := ⟨Reg.FAB_PORT_STOP p, 16, 16⟩
def Reg.FAB_PORT_TCW (p : Nat) : Nat := 0x500400C + 0x20 * p
def Fld.FAB_PORT_TCW_TCW (p : Nat) (sub : Nat) : Fld := ⟨Reg.FAB_PORT_TCW p, 4 * sub, 4⟩
def Reg.FAB_PORT_STATUS (p : Nat) : Nat := 0x5004010 + 0x20 * p
def Fld.FAB_PORT_STATUS_STOPPED (p : Nat) : Fld := ⟨Reg.FAB_PORT_STATUS p, 0, 1⟩
def Fld.FAB_PORT_STATUS_FB_KB (p : Nat) : Fld := ⟨Reg.FAB_PORT_STATUS p, 8, 18⟩

/-! ### HBT (block 26, 17_hbm.md) -/

def Reg.HBT_CFG : Nat := 0x5400000
def Fld.HBT_CFG_ACT_THRESH : Fld := ⟨Reg.HBT_CFG, 0, 16⟩
def Fld.HBT_CFG_BLAST : Fld := ⟨Reg.HBT_CFG, 16, 2⟩
def Fld.HBT_CFG_RETRY_MAX : Fld := ⟨Reg.HBT_CFG, 18, 4⟩
def Reg.HBT_FAIL_CFG : Nat := 0x5400004
def Fld.HBT_FAIL_CFG_UE_FAIL : Fld := ⟨Reg.HBT_FAIL_CFG, 0, 16⟩
def Reg.HBT_SR_CFG : Nat := 0x5400008
def Fld.HBT_SR_CFG_SR_IDLE_US : Fld := ⟨Reg.HBT_SR_CFG, 0, 16⟩
def Fld.HBT_SR_CFG_SR_EN : Fld := ⟨Reg.HBT_SR_CFG, 16, 1⟩
def Reg.HBT_EVENT : Nat := 0x5400010
def Fld.HBT_EVENT_CORR : Fld := ⟨Reg.HBT_EVENT, 0, 1⟩
def Fld.HBT_EVENT_UE : Fld := ⟨Reg.HBT_EVENT, 1, 1⟩
def Fld.HBT_EVENT_RETRAIN : Fld := ⟨Reg.HBT_EVENT, 2, 1⟩
def Fld.HBT_EVENT_STACK_FAIL : Fld := ⟨Reg.HBT_EVENT, 3, 1⟩
def Fld.HBT_EVENT_TRAIN_DONE : Fld := ⟨Reg.HBT_EVENT, 4, 1⟩
def Fld.HBT_EVENT_TRAIN_FAIL : Fld := ⟨Reg.HBT_EVENT, 5, 1⟩
def Fld.HBT_EVENT_LATE : Fld := ⟨Reg.HBT_EVENT, 6, 1⟩
def Reg.HBT_EVENT_EN : Nat := 0x5400014
def Fld.HBT_EVENT_EN_EN : Fld := ⟨Reg.HBT_EVENT_EN, 0, 7⟩
def Reg.HBT_ERR_LOC : Nat := 0x5400018
def Fld.HBT_ERR_LOC_STACK : Fld := ⟨Reg.HBT_ERR_LOC, 0, 3⟩
def Fld.HBT_ERR_LOC_PC : Fld := ⟨Reg.HBT_ERR_LOC, 3, 6⟩
def Fld.HBT_ERR_LOC_BANK : Fld := ⟨Reg.HBT_ERR_LOC, 9, 4⟩
def Fld.HBT_ERR_LOC_ROW : Fld := ⟨Reg.HBT_ERR_LOC, 13, 15⟩
def Fld.HBT_ERR_LOC_COLUMN : Fld := ⟨Reg.HBT_ERR_LOC, 28, 4⟩
def Reg.HBT_ERR_INFO : Nat := 0x540001C
def Fld.HBT_ERR_INFO_SOURCE : Fld := ⟨Reg.HBT_ERR_INFO, 0, 5⟩
def Fld.HBT_ERR_INFO_KIND : Fld := ⟨Reg.HBT_ERR_INFO, 5, 1⟩
def Fld.HBT_ERR_INFO_SCRUB : Fld := ⟨Reg.HBT_ERR_INFO, 6, 1⟩
def Reg.HBT_LATE_CNT : Nat := 0x5400020
def Reg.HBT_RMW_CNT : Nat := 0x5400024
def Fld.HBT_RMW_CNT_COUNT : Fld := ⟨Reg.HBT_RMW_CNT, 0, 32⟩
def Reg.HBT_STACK_CTRL (k : Nat) : Nat := 0x5401000 + 0x100 * k
def Fld.HBT_STACK_CTRL_TRAIN (k : Nat) : Fld := ⟨Reg.HBT_STACK_CTRL k, 0, 1⟩
def Reg.HBT_STACK_STATUS (k : Nat) : Nat := 0x5401004 + 0x100 * k
def Fld.HBT_STACK_STATUS_STATE (k : Nat) : Fld := ⟨Reg.HBT_STACK_STATUS k, 0, 3⟩
def Fld.HBT_STACK_STATUS_TEMP (k : Nat) : Fld := ⟨Reg.HBT_STACK_STATUS k, 3, 8⟩
def Fld.HBT_STACK_STATUS_REFRESH_2X (k : Nat) : Fld := ⟨Reg.HBT_STACK_STATUS k, 11, 1⟩
def Fld.HBT_STACK_STATUS_SELF_REFRESH (k : Nat) : Fld := ⟨Reg.HBT_STACK_STATUS k, 12, 1⟩
def Fld.HBT_STACK_STATUS_TRAINED (k : Nat) : Fld := ⟨Reg.HBT_STACK_STATUS k, 13, 1⟩
def Fld.HBT_STACK_STATUS_LANES_REPAIRED (k : Nat) : Fld := ⟨Reg.HBT_STACK_STATUS k, 16, 4⟩
def Reg.HBT_CORR_CNT (k : Nat) : Nat := 0x5401008 + 0x100 * k
def Fld.HBT_CORR_CNT_COUNT (k : Nat) : Fld := ⟨Reg.HBT_CORR_CNT k, 0, 32⟩
def Reg.HBT_UE_CNT (k : Nat) : Nat := 0x540100C + 0x100 * k
def Fld.HBT_UE_CNT_COUNT (k : Nat) : Fld := ⟨Reg.HBT_UE_CNT k, 0, 32⟩
def Reg.HBT_RETRY_CNT (k : Nat) : Nat := 0x5401010 + 0x100 * k
def Fld.HBT_RETRY_CNT_COUNT (k : Nat) : Fld := ⟨Reg.HBT_RETRY_CNT k, 0, 32⟩
def Reg.HBT_RETRAIN_CNT (k : Nat) : Nat := 0x5401014 + 0x100 * k
def Fld.HBT_RETRAIN_CNT_COUNT (k : Nat) : Fld := ⟨Reg.HBT_RETRAIN_CNT k, 0, 16⟩
def Reg.HBT_NREF_CNT (k : Nat) : Nat := 0x5401018 + 0x100 * k
def Fld.HBT_NREF_CNT_COUNT (k : Nat) : Fld := ⟨Reg.HBT_NREF_CNT k, 0, 32⟩
def Reg.HBT_SCRUB_PASS (k : Nat) : Nat := 0x540101C + 0x100 * k
def Fld.HBT_SCRUB_PASS_PASSES (k : Nat) : Fld := ⟨Reg.HBT_SCRUB_PASS k, 0, 16⟩
def Reg.HBT_SCRUB_POS (k : Nat) : Nat := 0x5401020 + 0x100 * k
def Fld.HBT_SCRUB_POS_UNIT (k : Nat) : Fld := ⟨Reg.HBT_SCRUB_POS k, 0, 32⟩

/-! ### LSW (block 27, 14_fabric_local_switch.md) -/

def Reg.LSW_CFG : Nat := 0x5800000
def Fld.LSW_CFG_EN : Fld := ⟨Reg.LSW_CFG, 0, 1⟩
def Reg.LSW_OUT_CELLS (o : Nat) : Nat := 0x5800100 + 0x4 * o
def Fld.LSW_OUT_CELLS_COUNT (o : Nat) : Fld := ⟨Reg.LSW_OUT_CELLS o, 0, 32⟩
def Reg.LSW_IN_STATUS (i : Nat) : Nat := 0x5800200 + 0x4 * i
def Fld.LSW_IN_STATUS_NONEMPTY (i : Nat) : Fld := ⟨Reg.LSW_IN_STATUS i, 0, 16⟩
def Reg.LSW_IN_CELLS (i : Nat) : Nat := 0x5800300 + 0x4 * i
def Fld.LSW_IN_CELLS_COUNT (i : Nat) : Fld := ⟨Reg.LSW_IN_CELLS i, 0, 32⟩

end Sys2Proof.Machine
end

