-- ==== Sys2Proof/Machine/RegTable.lean ====
section
/-! DEFINITION. The descriptor table of the registers: for every register of 22 R610 its offset, its index ranges
and strides, and every field's place, access type (00 R10) and power-on value (00 R11). Bits no field names are
reserved (00 R13). -/

namespace Sys2Proof.Machine

/-- Registers of block 0 (GLB), part 1. -/
def regRows0a : List RegRow := [
  ⟨0x0000000, [], [⟨0, 16, .ro, 0x9640⟩, ⟨16, 8, .ro, 0x5⟩]⟩,
  ⟨0x0000004, [], [⟨0, 16, .ro, 0x100⟩]⟩,
  ⟨0x0000008, [], [⟨0, 32, .ro, 0x0⟩]⟩,
  ⟨0x000000C, [], [⟨0, 32, .ro, 0x0⟩]⟩,
  ⟨0x0000010, [(4, 0x4)], [⟨0, 32, .rws, 0x0⟩]⟩,
  ⟨0x0000040, [], [⟨0, 4, .rwl, 0x0⟩]⟩,
  ⟨0x0000044, [], [⟨0, 16, .ro, 0x3⟩]⟩,
  ⟨0x0000050, [], [⟨0, 32, .ro, 0x0⟩]⟩,
  ⟨0x0000054, [], [⟨0, 27, .ro, 0x0⟩, ⟨28, 4, .ro, 0x0⟩]⟩,
  ⟨0x0000400, [(28, 0x4)], [⟨0, 4, .rw, 0x0⟩, ⟨16, 16, .ro, 0x0⟩]⟩]

/-- Registers of block 1 (HIF), part 1. -/
def regRows1a : List RegRow := [
  ⟨0x0100000, [], [⟨0, 4, .ro, 0x0⟩, ⟨4, 6, .ro, 0x0⟩, ⟨10, 1, .ro, 0x0⟩, ⟨11, 1, .ro, 0x0⟩]⟩,
  ⟨0x0100010, [(8, 0x4)], [⟨0, 1, .ro, 0x0⟩, ⟨6, 10, .ro, 0x0⟩, ⟨16, 10, .ro, 0x0⟩]⟩,
  ⟨0x0100040, [], [⟨0, 4, .rwl, 0x0⟩, ⟨4, 4, .rwl, 0x0⟩, ⟨8, 4, .rwl, 0x0⟩, ⟨12, 4, .rwl, 0x0⟩, ⟨16, 4, .rwl, 0x0⟩, ⟨20, 4, .rwl, 0x0⟩, ⟨24, 4, .rwl, 0x0⟩, ⟨28, 4, .rwl, 0x0⟩]⟩,
  ⟨0x0100044, [], [⟨0, 4, .rwl, 0x0⟩, ⟨4, 4, .rwl, 0x0⟩, ⟨8, 4, .rwl, 0x0⟩, ⟨12, 4, .rwl, 0x0⟩, ⟨16, 4, .rwl, 0x0⟩, ⟨20, 4, .rwl, 0x0⟩, ⟨24, 4, .rwl, 0x0⟩, ⟨28, 4, .rwl, 0x0⟩]⟩,
  ⟨0x0100050, [(8, 0x4)], [⟨0, 4, .rwl, 0x0⟩, ⟨4, 4, .rwl, 0x0⟩, ⟨8, 4, .rwl, 0x0⟩, ⟨12, 4, .rwl, 0x0⟩, ⟨16, 4, .rwl, 0x0⟩, ⟨20, 4, .rwl, 0x0⟩, ⟨24, 4, .rwl, 0x0⟩, ⟨28, 4, .rwl, 0x0⟩]⟩,
  ⟨0x0100070, [(8, 0x4)], [⟨0, 4, .rwl, 0x0⟩, ⟨4, 4, .rwl, 0x0⟩, ⟨8, 4, .rwl, 0x0⟩, ⟨12, 4, .rwl, 0x0⟩, ⟨16, 4, .rwl, 0x0⟩, ⟨20, 4, .rwl, 0x0⟩, ⟨24, 4, .rwl, 0x0⟩, ⟨28, 4, .rwl, 0x0⟩]⟩,
  ⟨0x0100200, [(8, 0x10)], [⟨8, 15, .rw, 0x0⟩]⟩,
  ⟨0x0100204, [(8, 0x10)], [⟨0, 4, .rw, 0x8⟩, ⟨4, 16, .rw, 0x0⟩, ⟨30, 1, .ro, 0x0⟩, ⟨31, 1, .rw, 0x0⟩]⟩,
  ⟨0x0100208, [(8, 0x10)], [⟨0, 16, .ro, 0x0⟩, ⟨16, 8, .ro, 0x0⟩, ⟨31, 1, .ro, 0x0⟩]⟩,
  ⟨0x0100300, [], [⟨0, 32, .ro, 0x0⟩]⟩,
  ⟨0x0101000, [(64, 0x20)], [⟨12, 20, .rw, 0x0⟩]⟩,
  ⟨0x0101004, [(64, 0x20)], [⟨0, 32, .rw, 0x0⟩]⟩,
  ⟨0x0101008, [(64, 0x20)], [⟨0, 5, .rw, 0x6⟩, ⟨8, 6, .rw, 0x20⟩, ⟨16, 9, .rw, 0x0⟩, ⟨28, 1, .rw, 0x0⟩, ⟨29, 1, .ro, 0x0⟩, ⟨30, 2, .ro, 0x0⟩]⟩,
  ⟨0x010100C, [(64, 0x20)], [⟨0, 17, .rw, 0x0⟩]⟩,
  ⟨0x0101010, [(64, 0x20)], [⟨0, 17, .ro, 0x0⟩]⟩,
  ⟨0x0101014, [(64, 0x20)], [⟨3, 29, .rw, 0x0⟩]⟩,
  ⟨0x0101018, [(64, 0x20)], [⟨0, 32, .rw, 0x0⟩]⟩,
  ⟨0x0102000, [(64, 0x20)], [⟨12, 20, .rw, 0x0⟩]⟩,
  ⟨0x0102004, [(64, 0x20)], [⟨0, 32, .rw, 0x0⟩]⟩,
  ⟨0x0102008, [(64, 0x20)], [⟨0, 5, .rw, 0x6⟩, ⟨16, 9, .rw, 0x0⟩, ⟨28, 1, .rw, 0x0⟩, ⟨29, 1, .ro, 0x0⟩, ⟨30, 2, .ro, 0x0⟩]⟩]

/-- Registers of block 1 (HIF), part 2. -/
def regRows1b : List RegRow := [
  ⟨0x010200C, [(64, 0x20)], [⟨0, 17, .rw, 0x0⟩]⟩,
  ⟨0x0102010, [(64, 0x20)], [⟨0, 17, .ro, 0x0⟩]⟩,
  ⟨0x0102014, [(64, 0x20)], [⟨3, 29, .rw, 0x0⟩]⟩,
  ⟨0x0102018, [(64, 0x20)], [⟨0, 32, .rw, 0x0⟩]⟩]

/-- Registers of block 2 (CE), part 1. -/
def regRows2a : List RegRow := [
  ⟨0x0200000, [], [⟨0, 1, .ro, 0x0⟩, ⟨1, 1, .ro, 0x0⟩]⟩,
  ⟨0x0200004, [], [⟨0, 3, .ro, 0x0⟩, ⟨4, 4, .ro, 0x0⟩, ⟨8, 17, .ro, 0x0⟩]⟩,
  ⟨0x0200008, [], [⟨0, 1, .wo, 0x0⟩]⟩,
  ⟨0x020000C, [], [⟨0, 8, .rw, 0x0⟩]⟩,
  ⟨0x0200100, [(8, 0x20)], [⟨12, 20, .rw, 0x0⟩]⟩,
  ⟨0x0200104, [(8, 0x20)], [⟨0, 32, .rw, 0x0⟩]⟩,
  ⟨0x0200108, [(8, 0x20)], [⟨0, 5, .rw, 0x6⟩]⟩,
  ⟨0x020010C, [(8, 0x20)], [⟨0, 17, .rw, 0x0⟩]⟩,
  ⟨0x0200110, [(8, 0x20)], [⟨0, 17, .ro, 0x0⟩]⟩,
  ⟨0x0200114, [(8, 0x20)], [⟨3, 29, .rw, 0x0⟩]⟩,
  ⟨0x0200118, [(8, 0x20)], [⟨0, 32, .rw, 0x0⟩]⟩,
  ⟨0x0200200, [(8, 0x20)], [⟨12, 20, .rw, 0x0⟩]⟩,
  ⟨0x0200204, [(8, 0x20)], [⟨0, 32, .rw, 0x0⟩]⟩,
  ⟨0x0200208, [(8, 0x20)], [⟨0, 5, .rw, 0x6⟩, ⟨31, 1, .rw, 0x0⟩]⟩,
  ⟨0x020020C, [(8, 0x20)], [⟨0, 17, .ro, 0x0⟩]⟩,
  ⟨0x0200210, [(8, 0x20)], [⟨0, 17, .rw, 0x0⟩]⟩,
  ⟨0x0200214, [(8, 0x20)], [⟨3, 29, .rw, 0x0⟩]⟩,
  ⟨0x0200218, [(8, 0x20)], [⟨0, 32, .rw, 0x0⟩]⟩,
  ⟨0x020021C, [(8, 0x20)], [⟨0, 9, .rw, 0x0⟩, ⟨9, 1, .rw, 0x0⟩, ⟨16, 8, .rw, 0x0⟩, ⟨24, 8, .rw, 0x0⟩]⟩,
  ⟨0x0200300, [(8, 0x4)], [⟨0, 32, .ro, 0x0⟩]⟩]

/-- Registers of block 3 (DMA), part 1. -/
def regRows3a : List RegRow := [
  ⟨0x0300000, [], [⟨12, 20, .rw, 0x0⟩]⟩,
  ⟨0x0300004, [], [⟨0, 32, .rw, 0x0⟩]⟩,
  ⟨0x0300008, [], [⟨0, 5, .rw, 0x6⟩, ⟨31, 1, .rw, 0x0⟩]⟩,
  ⟨0x030000C, [], [⟨0, 17, .ro, 0x0⟩]⟩,
  ⟨0x0300010, [], [⟨0, 17, .rw, 0x0⟩]⟩,
  ⟨0x0300014, [], [⟨0, 9, .rw, 0x0⟩, ⟨9, 1, .rw, 0x0⟩]⟩,
  ⟨0x0300018, [], [⟨0, 32, .ro, 0x0⟩]⟩,
  ⟨0x0300100, [(16, 0x4)], [⟨0, 1, .ro, 0x0⟩, ⟨1, 4, .ro, 0x0⟩]⟩]

/-- Registers of block 4 (IGL), part 1. -/
def regRows4a : List RegRow := [
  ⟨0x0400000, [], [⟨0, 6, .ro, 0x0⟩]⟩,
  ⟨0x0400004, [], [⟨0, 2, .rwl, 0x0⟩, ⟨4, 1, .rwl, 0x1⟩, ⟨5, 1, .rwl, 0x1⟩]⟩,
  ⟨0x0400008, [], [⟨0, 1, .ro, 0x0⟩, ⟨1, 1, .ro, 0x0⟩, ⟨2, 1, .ro, 0x0⟩, ⟨3, 1, .ro, 0x0⟩, ⟨4, 1, .ro, 0x0⟩, ⟨8, 6, .ro, 0x0⟩]⟩,
  ⟨0x0400010, [], [⟨0, 32, .ro, 0x0⟩]⟩,
  ⟨0x0400014, [], [⟨0, 32, .ro, 0x0⟩]⟩,
  ⟨0x0400018, [], [⟨0, 32, .ro, 0x0⟩]⟩,
  ⟨0x040001C, [], [⟨0, 1, .wo, 0x0⟩]⟩,
  ⟨0x0400020, [], [⟨0, 1, .wo, 0x0⟩]⟩,
  ⟨0x0400024, [], [⟨0, 32, .ro, 0x0⟩]⟩,
  ⟨0x0400100, [(64, 0x4)], [⟨0, 4, .rw, 0x0⟩, ⟨4, 5, .rw, 0x1⟩, ⟨12, 9, .rw, 0x0⟩, ⟨21, 7, .rw, 0x1⟩]⟩,
  ⟨0x0400200, [(64, 0x4)], [⟨0, 6, .ro, 0x0⟩, ⟨8, 6, .ro, 0x0⟩, ⟨31, 1, .ro, 0x0⟩]⟩]

/-- Registers of block 5 (ERR), part 1. -/
def regRows5a : List RegRow := [
  ⟨0x0500000, [], [⟨0, 7, .ro, 0x0⟩, ⟨7, 1, .ro, 0x0⟩, ⟨8, 1, .ro, 0x0⟩]⟩,
  ⟨0x0500004, [], [⟨0, 1, .wo, 0x0⟩]⟩,
  ⟨0x0500008, [], [⟨0, 32, .ro, 0x0⟩]⟩,
  ⟨0x050000C, [], [⟨0, 28, .w1c, 0x0⟩]⟩,
  ⟨0x0500020, [(8, 0x4)], [⟨0, 32, .ro, 0x0⟩]⟩,
  ⟨0x0500040, [], [⟨0, 16, .rws, 0x0⟩, ⟨31, 1, .rws, 0x0⟩]⟩,
  ⟨0x0500044, [], [⟨0, 30, .rws, 0x0⟩]⟩,
  ⟨0x0500048, [], [⟨0, 32, .rws, 0x0⟩]⟩,
  ⟨0x050004C, [], [⟨0, 16, .rws, 0x0⟩]⟩,
  ⟨0x0500050, [], [⟨0, 16, .rws, 0x0⟩, ⟨16, 15, .rws, 0x0⟩, ⟨31, 1, .rws, 0x0⟩]⟩,
  ⟨0x0500060, [], [⟨0, 1, .wo, 0x0⟩]⟩,
  ⟨0x0500080, [], [⟨12, 20, .rwl, 0x0⟩]⟩,
  ⟨0x0500084, [], [⟨0, 32, .rwl, 0x0⟩]⟩,
  ⟨0x0500088, [], [⟨0, 12, .rwl, 0x0⟩, ⟨16, 1, .rwl, 0x0⟩]⟩,
  ⟨0x050008C, [], [⟨0, 3, .rws, 0x0⟩, ⟨4, 4, .rws, 0x0⟩, ⟨8, 1, .ro, 0x0⟩]⟩,
  ⟨0x0500090, [], [⟨0, 32, .rws, 0x0⟩]⟩,
  ⟨0x0500100, [(16, 0x10)], [⟨0, 1, .rw, 0x0⟩, ⟨1, 1, .rw, 0x0⟩, ⟨2, 2, .rw, 0x1⟩, ⟨16, 16, .rw, 0x64⟩]⟩,
  ⟨0x0500104, [(16, 0x10)], [⟨0, 16, .rw, 0x3E8⟩]⟩,
  ⟨0x0500108, [(16, 0x10)], [⟨0, 1, .ro, 0x0⟩, ⟨1, 1, .w1c, 0x0⟩, ⟨2, 1, .w1c, 0x0⟩, ⟨16, 16, .ro, 0x0⟩]⟩,
  ⟨0x0501000, [(1216, 0x4)], [⟨0, 9, .rw, 0x0⟩, ⟨9, 1, .rw, 0x0⟩, ⟨10, 4, .rw, 0x0⟩, ⟨31, 1, .ro, 0x0⟩]⟩]

/-- Registers of block 5 (ERR), part 2. -/
def regRows5b : List RegRow := [
  ⟨0x0503000, [(512, 0x4)], [⟨0, 1, .wo, 0x0⟩, ⟨1, 1, .ro, 0x0⟩, ⟨16, 16, .ro, 0x0⟩]⟩,
  ⟨0x0503800, [], [⟨0, 9, .wo, 0x0⟩]⟩]

/-- Registers of block 6 (PMC), part 1. -/
def regRows6a : List RegRow := [
  ⟨0x0600000, [], [⟨0, 2, .wo, 0x0⟩, ⟨2, 2, .wo, 0x0⟩]⟩,
  ⟨0x0600004, [], [⟨0, 2, .ro, 0x0⟩, ⟨2, 1, .ro, 0x0⟩]⟩,
  ⟨0x0600008, [], [⟨0, 11, .wo, 0x0⟩, ⟨11, 1, .wo, 0x0⟩, ⟨12, 1, .wo, 0x0⟩]⟩,
  ⟨0x0600010, [], [⟨0, 1, .w1c, 0x0⟩, ⟨1, 1, .w1c, 0x0⟩, ⟨2, 1, .w1c, 0x0⟩, ⟨3, 1, .w1c, 0x0⟩]⟩,
  ⟨0x0600014, [], [⟨0, 4, .rw, 0x0⟩]⟩,
  ⟨0x0600018, [], [⟨0, 8, .rw, 0x0⟩]⟩,
  ⟨0x060001C, [], [⟨0, 32, .ro, 0x0⟩]⟩,
  ⟨0x0600020, [], [⟨0, 32, .rw, 0x0⟩]⟩,
  ⟨0x0600024, [], [⟨0, 32, .rw, 0x0⟩]⟩,
  ⟨0x0600030, [], [⟨0, 32, .ro, 0x0⟩]⟩,
  ⟨0x0600034, [], [⟨0, 30, .ro, 0x0⟩]⟩,
  ⟨0x0600038, [], [⟨0, 32, .ro, 0x0⟩]⟩,
  ⟨0x060003C, [], [⟨0, 16, .ro, 0x0⟩]⟩,
  ⟨0x0601000, [(2, 0x100), (64, 0x4)], [⟨0, 32, .w1c, 0x0⟩]⟩,
  ⟨0x0610000, [(2, 0x4000), (2048, 0x8)], [⟨0, 12, .rw, 0x0⟩, ⟨12, 10, .rw, 0x0⟩, ⟨22, 1, .rw, 0x0⟩, ⟨23, 1, .rw, 0x0⟩, ⟨24, 1, .rw, 0x0⟩, ⟨31, 1, .rw, 0x0⟩]⟩,
  ⟨0x0610004, [(2, 0x4000), (2048, 0x8)], [⟨0, 8, .rw, 0x0⟩]⟩,
  ⟨0x0620000, [(2, 0x4000), (2048, 0x8)], [⟨0, 32, .ro, 0x0⟩]⟩,
  ⟨0x0620004, [(2, 0x4000), (2048, 0x8)], [⟨0, 16, .ro, 0x0⟩, ⟨16, 16, .ro, 0x0⟩]⟩,
  ⟨0x0630000, [(2, 0x4000), (2048, 0x8)], [⟨0, 32, .ro, 0x0⟩]⟩,
  ⟨0x0630004, [(2, 0x4000), (2048, 0x8)], [⟨0, 32, .ro, 0x0⟩]⟩]

/-- Registers of block 7 (PWR), part 1. -/
def regRows7a : List RegRow := [
  ⟨0x0700000, [], [⟨0, 16, .ro, 0x0⟩]⟩,
  ⟨0x0700020, [], [⟨0, 1, .rw, 0x1⟩, ⟨1, 3, .rw, 0x0⟩, ⟨4, 4, .rw, 0x4⟩, ⟨8, 8, .rw, 0x19⟩, ⟨16, 8, .rw, 0x4B⟩]⟩,
  ⟨0x0700024, [], [⟨0, 16, .rw, 0x546⟩, ⟨16, 16, .rw, 0x64⟩]⟩,
  ⟨0x0700028, [], [⟨0, 16, .rw, 0x7D0⟩]⟩,
  ⟨0x070002C, [], [⟨0, 3, .ro, 0x0⟩, ⟨3, 3, .ro, 0x0⟩, ⟨6, 3, .ro, 0x0⟩, ⟨9, 2, .ro, 0x0⟩, ⟨11, 2, .ro, 0x2⟩, ⟨16, 16, .ro, 0x7D0⟩]⟩,
  ⟨0x0700030, [], [⟨0, 3, .rw, 0x0⟩, ⟨3, 3, .rw, 0x2⟩, ⟨6, 3, .rw, 0x4⟩, ⟨9, 3, .rw, 0x7⟩]⟩,
  ⟨0x0700040, [], [⟨0, 4, .rw, 0x3⟩]⟩,
  ⟨0x0700044, [], [⟨0, 12, .ro, 0x0⟩, ⟨12, 6, .ro, 0x0⟩, ⟨31, 1, .ro, 0x0⟩]⟩,
  ⟨0x0700048, [], [⟨0, 12, .rws, 0x0⟩, ⟨12, 6, .rws, 0x0⟩, ⟨31, 1, .rws, 0x0⟩]⟩,
  ⟨0x0700060, [], [⟨0, 1, .rw, 0x1⟩, ⟨8, 8, .rw, 0x32⟩, ⟨16, 4, .rw, 0x2⟩, ⟨20, 6, .rw, 0x6⟩]⟩,
  ⟨0x0700064, [], [⟨0, 16, .rw, 0x64⟩]⟩,
  ⟨0x0700080, [], [⟨0, 1, .rws, 0x0⟩, ⟨1, 1, .rws, 0x1⟩, ⟨2, 1, .rws, 0x0⟩, ⟨8, 8, .rws, 0xA⟩, ⟨16, 16, .rws, 0x1E⟩]⟩,
  ⟨0x0700084, [], [⟨0, 16, .rws, 0x3C⟩]⟩,
  ⟨0x0700088, [], [⟨0, 1, .ro, 0x0⟩, ⟨1, 2, .ro, 0x0⟩, ⟨3, 2, .ro, 0x0⟩, ⟨5, 1, .ro, 0x0⟩, ⟨6, 1, .ro, 0x0⟩, ⟨8, 3, .ro, 0x0⟩]⟩,
  ⟨0x070008C, [], [⟨0, 16, .ro, 0x0⟩, ⟨16, 16, .ro, 0x0⟩]⟩,
  ⟨0x0700090, [], [⟨0, 16, .ro, 0x0⟩, ⟨16, 16, .ro, 0x0⟩]⟩,
  ⟨0x0700094, [], [⟨0, 30, .ro, 0x0⟩]⟩,
  ⟨0x0700098, [], [⟨0, 32, .ro, 0x0⟩]⟩,
  ⟨0x070009C, [], [⟨0, 16, .ro, 0x0⟩]⟩,
  ⟨0x07000A0, [], [⟨0, 16, .ro, 0x0⟩, ⟨16, 16, .ro, 0x0⟩]⟩]

/-- Registers of block 7 (PWR), part 2. -/
def regRows7b : List RegRow := [
  ⟨0x07000A4, [], [⟨0, 16, .ro, 0x0⟩, ⟨16, 16, .ro, 0x0⟩]⟩,
  ⟨0x07000B0, [], [⟨0, 1, .w1c, 0x0⟩, ⟨1, 1, .w1c, 0x0⟩, ⟨2, 1, .w1c, 0x0⟩, ⟨3, 1, .w1c, 0x0⟩, ⟨4, 1, .w1c, 0x0⟩, ⟨5, 1, .w1c, 0x0⟩, ⟨6, 1, .w1c, 0x0⟩, ⟨7, 1, .w1c, 0x0⟩, ⟨8, 1, .w1c, 0x0⟩, ⟨9, 1, .w1c, 0x0⟩, ⟨10, 1, .w1c, 0x0⟩, ⟨11, 1, .w1c, 0x0⟩]⟩,
  ⟨0x07000B4, [], [⟨0, 12, .rw, 0x0⟩]⟩,
  ⟨0x0700100, [(40, 0x4)], [⟨0, 2, .ro, 0x0⟩, ⟨4, 12, .ro, 0x0⟩, ⟨16, 16, .ro, 0x0⟩]⟩,
  ⟨0x0700400, [(64, 0x4)], [⟨0, 12, .ro, 0x0⟩, ⟨12, 1, .ro, 0x0⟩, ⟨13, 1, .rw, 0x0⟩]⟩]

/-- Registers of block 8 (TIM), part 1. -/
def regRows8a : List RegRow := [
  ⟨0x0800000, [], [⟨0, 2, .rwl, 0x1⟩]⟩,
  ⟨0x0800004, [], [⟨0, 1, .ro, 0x0⟩, ⟨1, 1, .ro, 0x0⟩, ⟨2, 1, .ro, 0x0⟩, ⟨3, 1, .ro, 0x0⟩]⟩,
  ⟨0x0800008, [], [⟨0, 1, .w1c, 0x0⟩, ⟨1, 1, .w1c, 0x0⟩, ⟨2, 1, .w1c, 0x0⟩, ⟨3, 1, .w1c, 0x0⟩, ⟨4, 1, .w1c, 0x0⟩, ⟨5, 2, .w1c, 0x0⟩, ⟨7, 2, .w1c, 0x0⟩, ⟨9, 2, .w1c, 0x0⟩, ⟨11, 1, .w1c, 0x0⟩, ⟨12, 1, .w1c, 0x0⟩, ⟨13, 1, .w1c, 0x0⟩, ⟨16, 8, .w1c, 0x0⟩]⟩,
  ⟨0x080000C, [], [⟨0, 24, .rw, 0x0⟩]⟩,
  ⟨0x0800010, [], [⟨0, 1, .wo, 0x0⟩]⟩,
  ⟨0x0800014, [], [⟨0, 32, .ro, 0x0⟩]⟩,
  ⟨0x0800020, [(2, 0x10)], [⟨0, 30, .ro, 0x0⟩]⟩,
  ⟨0x0800024, [(2, 0x10)], [⟨0, 32, .ro, 0x0⟩]⟩,
  ⟨0x0800028, [(2, 0x10)], [⟨0, 16, .ro, 0x0⟩]⟩,
  ⟨0x0800100, [(2, 0x20)], [⟨0, 1, .ro, 0x0⟩, ⟨1, 1, .ro, 0x1⟩, ⟨2, 1, .ro, 0x0⟩]⟩,
  ⟨0x0800104, [(2, 0x20)], [⟨0, 32, .ro, 0x0⟩]⟩,
  ⟨0x0800108, [(2, 0x20)], [⟨0, 16, .ro, 0x0⟩]⟩,
  ⟨0x080010C, [(2, 0x20)], [⟨0, 32, .ro, 0x0⟩]⟩,
  ⟨0x0800110, [(2, 0x20)], [⟨0, 32, .ro, 0x0⟩]⟩,
  ⟨0x0800114, [(2, 0x20)], [⟨0, 32, .ro, 0x0⟩]⟩,
  ⟨0x0800200, [(2, 0x20)], [⟨0, 1, .rw, 0x0⟩, ⟨1, 1, .rw, 0x0⟩, ⟨2, 1, .rw, 0x0⟩, ⟨16, 16, .rw, 0xA⟩]⟩,
  ⟨0x0800204, [(2, 0x20)], [⟨0, 16, .rw, 0x1F4⟩, ⟨16, 16, .rw, 0x5DC⟩]⟩,
  ⟨0x0800208, [(2, 0x20)], [⟨0, 30, .ro, 0x0⟩, ⟨30, 2, .ro, 0x0⟩]⟩,
  ⟨0x080020C, [(2, 0x20)], [⟨0, 32, .ro, 0x0⟩]⟩,
  ⟨0x0800210, [(2, 0x20)], [⟨0, 16, .ro, 0x0⟩]⟩]

/-- Registers of block 8 (TIM), part 2. -/
def regRows8b : List RegRow := [
  ⟨0x0800214, [(2, 0x20)], [⟨0, 16, .ro, 0x0⟩, ⟨31, 1, .ro, 0x1⟩]⟩,
  ⟨0x0800218, [(2, 0x20)], [⟨0, 16, .ro, 0x0⟩, ⟨16, 16, .ro, 0x0⟩]⟩,
  ⟨0x080021C, [(2, 0x20)], [⟨0, 16, .rw, 0x0⟩]⟩,
  ⟨0x0800300, [(2, 0x10)], [⟨0, 1, .rw, 0x0⟩, ⟨1, 1, .rw, 0x0⟩, ⟨2, 1, .rw, 0x0⟩, ⟨6, 10, .rw, 0x64⟩]⟩,
  ⟨0x0800304, [(2, 0x10)], [⟨0, 32, .rw, 0x0⟩]⟩,
  ⟨0x0800308, [(2, 0x10)], [⟨0, 32, .ro, 0x0⟩]⟩,
  ⟨0x0800400, [(2, 0x10)], [⟨0, 1, .rw, 0x0⟩, ⟨1, 1, .rw, 0x1⟩, ⟨2, 7, .rw, 0x0⟩, ⟨9, 12, .rw, 0x2A7⟩, ⟨21, 11, .rw, 0x3E8⟩]⟩,
  ⟨0x0800404, [(2, 0x10)], [⟨0, 1, .ro, 0x1⟩]⟩,
  ⟨0x0800500, [(8, 0x20)], [⟨0, 1, .rw, 0x0⟩, ⟨1, 1, .ro, 0x0⟩, ⟨2, 1, .ro, 0x0⟩]⟩,
  ⟨0x0800504, [(8, 0x20)], [⟨0, 30, .rw, 0x0⟩]⟩,
  ⟨0x0800508, [(8, 0x20)], [⟨0, 32, .rw, 0x0⟩]⟩,
  ⟨0x080050C, [(8, 0x20)], [⟨0, 16, .rw, 0x0⟩]⟩,
  ⟨0x0800510, [(8, 0x20)], [⟨0, 32, .rw, 0x0⟩]⟩,
  ⟨0x0800514, [(8, 0x20)], [⟨0, 32, .ro, 0x0⟩]⟩,
  ⟨0x0800600, [], [⟨0, 8, .rw, 0x10⟩, ⟨8, 1, .rw, 0x0⟩, ⟨9, 1, .rw, 0x0⟩]⟩,
  ⟨0x0801000, [(128, 0x4)], [⟨0, 1, .rw, 0x0⟩, ⟨1, 7, .ro, 0x0⟩, ⟨16, 16, .ro, 0x0⟩]⟩]

/-- Registers of block 9 (FWU), part 1. -/
def regRows9a : List RegRow := [
  ⟨0x0900000, [], [⟨0, 32, .ro, 0x0⟩]⟩,
  ⟨0x0900004, [], [⟨0, 32, .ro, 0x0⟩]⟩,
  ⟨0x0900008, [], [⟨0, 1, .ro, 0x0⟩, ⟨1, 1, .ro, 0x0⟩, ⟨2, 3, .ro, 0x0⟩, ⟨5, 2, .ro, 0x0⟩, ⟨7, 1, .ro, 0x0⟩, ⟨8, 4, .ro, 0x0⟩, ⟨12, 6, .ro, 0x0⟩]⟩,
  ⟨0x0900010, [(2, 0x4)], [⟨0, 3, .ro, 0x0⟩, ⟨4, 4, .ro, 0x0⟩]⟩,
  ⟨0x0900018, [(2, 0x4)], [⟨0, 32, .ro, 0x0⟩]⟩,
  ⟨0x0900020, [], [⟨0, 32, .ro, 0x0⟩]⟩,
  ⟨0x0900024, [], [⟨0, 13, .ro, 0x0⟩, ⟨16, 13, .ro, 0x0⟩]⟩,
  ⟨0x0900028, [], [⟨0, 12, .rw, 0x3C⟩, ⟨16, 16, .rw, 0xA8⟩]⟩,
  ⟨0x090002C, [], [⟨0, 12, .ro, 0x0⟩]⟩,
  ⟨0x0900030, [], [⟨0, 1, .w1c, 0x0⟩, ⟨1, 1, .w1c, 0x0⟩, ⟨2, 1, .w1c, 0x0⟩, ⟨3, 1, .w1c, 0x0⟩, ⟨4, 1, .w1c, 0x0⟩, ⟨5, 1, .w1c, 0x0⟩, ⟨6, 1, .w1c, 0x0⟩, ⟨7, 1, .w1c, 0x0⟩]⟩,
  ⟨0x0900034, [], [⟨0, 8, .rw, 0x0⟩]⟩,
  ⟨0x0900040, [], [⟨0, 1, .wo, 0x0⟩, ⟨1, 1, .ro, 0x0⟩, ⟨8, 8, .rw, 0x0⟩, ⟨16, 16, .ro, 0x0⟩]⟩,
  ⟨0x0900080, [], [⟨0, 1, .rws, 0x0⟩]⟩,
  ⟨0x0900100, [(12, 0x4)], [⟨0, 32, .rw, 0x0⟩]⟩,
  ⟨0x0900140, [(4, 0x4)], [⟨0, 32, .ro, 0x0⟩]⟩,
  ⟨0x0901000, [(1024, 0x4)], [⟨0, 32, .rw, 0x0⟩]⟩]

/-- Registers of block 10 (RST), part 1. -/
def regRows10a : List RegRow := [
  ⟨0x0A00000, [], [⟨0, 4, .ro, 0x1⟩, ⟨4, 4, .ro, 0x0⟩, ⟨8, 1, .ro, 0x0⟩, ⟨9, 1, .ro, 0x0⟩, ⟨10, 1, .ro, 0x0⟩, ⟨11, 1, .ro, 0x0⟩, ⟨12, 1, .ro, 0x0⟩]⟩,
  ⟨0x0A00004, [], [⟨0, 1, .wo, 0x0⟩, ⟨1, 1, .wo, 0x0⟩, ⟨2, 1, .wo, 0x0⟩, ⟨3, 1, .wo, 0x0⟩]⟩,
  ⟨0x0A00008, [], [⟨0, 1, .rw, 0x0⟩, ⟨1, 1, .rws, 0x0⟩]⟩,
  ⟨0x0A0000C, [], [⟨0, 28, .wo, 0x0⟩]⟩,
  ⟨0x0A00010, [], [⟨0, 3, .ro, 0x1⟩, ⟨4, 4, .ro, 0x0⟩, ⟨16, 16, .ro, 0x0⟩]⟩,
  ⟨0x0A00024, [(6, 0x4)], [⟨0, 16, .ro, 0x0⟩]⟩]

/-- Registers of block 11 (PRT), part 1. -/
def regRows11a : List RegRow := [
  ⟨0x1000000, [(16, 0x10000)], [⟨0, 1, .rw, 0x0⟩, ⟨1, 1, .ro, 0x0⟩]⟩,
  ⟨0x1000004, [(16, 0x10000)], [⟨0, 8, .ro, 0x0⟩, ⟨8, 8, .ro, 0x0⟩]⟩,
  ⟨0x1000010, [(16, 0x10000)], [⟨0, 3, .rw, 0x0⟩, ⟨3, 3, .rw, 0x1⟩, ⟨6, 3, .rw, 0x2⟩, ⟨9, 3, .rw, 0x3⟩, ⟨12, 3, .rw, 0x4⟩, ⟨15, 3, .rw, 0x5⟩, ⟨18, 3, .rw, 0x6⟩, ⟨21, 3, .rw, 0x7⟩]⟩,
  ⟨0x1000014, [(16, 0x10000)], [⟨0, 3, .rw, 0x0⟩, ⟨3, 3, .rw, 0x1⟩, ⟨6, 3, .rw, 0x2⟩, ⟨9, 3, .rw, 0x3⟩, ⟨12, 3, .rw, 0x4⟩, ⟨15, 3, .rw, 0x5⟩, ⟨18, 3, .rw, 0x6⟩, ⟨21, 3, .rw, 0x7⟩]⟩,
  ⟨0x1000018, [(16, 0x10000)], [⟨0, 8, .rw, 0x0⟩, ⟨8, 8, .rw, 0x0⟩]⟩,
  ⟨0x1000100, [(16, 0x10000), (8, 0x40)], [⟨0, 1, .rw, 0x0⟩, ⟨1, 4, .rw, 0x0⟩, ⟨5, 2, .rw, 0x0⟩, ⟨8, 2, .rw, 0x0⟩, ⟨10, 1, .rw, 0x0⟩, ⟨11, 1, .rw, 0x0⟩, ⟨12, 1, .rw, 0x0⟩, ⟨31, 1, .ro, 0x0⟩]⟩,
  ⟨0x1000104, [(16, 0x10000), (8, 0x40)], [⟨0, 14, .rw, 0x5EE⟩, ⟨14, 1, .rw, 0x0⟩, ⟨15, 1, .rw, 0x0⟩, ⟨16, 8, .rw, 0x0⟩, ⟨24, 8, .rw, 0x0⟩]⟩,
  ⟨0x1000108, [(16, 0x10000), (8, 0x40)], [⟨0, 1, .rw, 0x0⟩, ⟨16, 16, .rw, 0xA⟩]⟩,
  ⟨0x100010C, [(16, 0x10000), (8, 0x40)], [⟨0, 16, .rw, 0x0⟩, ⟨16, 16, .rw, 0x0⟩]⟩,
  ⟨0x1000110, [(16, 0x10000), (8, 0x40)], [⟨0, 3, .ro, 0x0⟩, ⟨3, 1, .ro, 0x0⟩, ⟨4, 1, .ro, 0x0⟩, ⟨5, 1, .ro, 0x0⟩, ⟨6, 1, .ro, 0x0⟩, ⟨7, 1, .ro, 0x0⟩, ⟨8, 1, .ro, 0x0⟩]⟩,
  ⟨0x1000114, [(16, 0x10000), (8, 0x40)], [⟨0, 1, .w1c, 0x0⟩, ⟨1, 1, .w1c, 0x0⟩, ⟨2, 1, .w1c, 0x0⟩, ⟨3, 1, .w1c, 0x0⟩, ⟨4, 1, .w1c, 0x0⟩, ⟨5, 1, .w1c, 0x0⟩, ⟨6, 1, .w1c, 0x0⟩]⟩,
  ⟨0x1000118, [(16, 0x10000), (8, 0x40)], [⟨0, 7, .rw, 0x0⟩]⟩,
  ⟨0x100011C, [(16, 0x10000), (8, 0x40)], [⟨0, 16, .rw, 0x0⟩]⟩,
  ⟨0x1000120, [(16, 0x10000), (8, 0x40)], [⟨0, 16, .rw, 0x0⟩]⟩,
  ⟨0x1000124, [(16, 0x10000), (8, 0x40)], [⟨0, 1, .wo, 0x0⟩]⟩,
  ⟨0x1000128, [(16, 0x10000), (8, 0x40)], [⟨0, 1, .ro, 0x0⟩, ⟨1, 1, .ro, 0x0⟩, ⟨2, 14, .ro, 0x0⟩, ⟨16, 14, .ro, 0x0⟩]⟩,
  ⟨0x1000400, [(16, 0x10000)], [⟨0, 3, .rw, 0x0⟩, ⟨8, 5, .rw, 0x0⟩, ⟨16, 1, .rw, 0x0⟩]⟩,
  ⟨0x1000408, [(16, 0x10000)], [⟨0, 32, .ro, 0x0⟩]⟩,
  ⟨0x100040C, [(16, 0x10000)], [⟨0, 32, .ro, 0x0⟩]⟩]

/-- Registers of block 12 (FXE), part 1. -/
def regRows12a : List RegRow := [
  ⟨0x1200000, [(32, 0x100)], [⟨0, 1, .rw, 0x0⟩, ⟨1, 1, .rw, 0x0⟩, ⟨2, 1, .ro, 0x0⟩, ⟨8, 20, .rw, 0x0⟩]⟩,
  ⟨0x1200004, [(32, 0x100)], [⟨0, 8, .rw, 0x0⟩]⟩,
  ⟨0x1200008, [(32, 0x100)], [⟨0, 8, .rw, 0x0⟩, ⟨8, 8, .rw, 0x0⟩, ⟨16, 8, .rw, 0x0⟩, ⟨24, 8, .rw, 0x0⟩]⟩,
  ⟨0x120000C, [(32, 0x100)], [⟨0, 8, .rw, 0x0⟩, ⟨8, 8, .rw, 0x0⟩, ⟨16, 8, .rw, 0x0⟩, ⟨24, 8, .rw, 0x0⟩]⟩,
  ⟨0x1200010, [(32, 0x100)], [⟨0, 1, .ro, 0x0⟩, ⟨1, 1, .ro, 0x0⟩, ⟨2, 1, .ro, 0x0⟩, ⟨3, 1, .ro, 0x0⟩, ⟨4, 1, .ro, 0x0⟩, ⟨5, 1, .ro, 0x0⟩, ⟨6, 1, .ro, 0x0⟩, ⟨7, 1, .ro, 0x0⟩, ⟨8, 1, .ro, 0x0⟩, ⟨16, 16, .ro, 0x0⟩]⟩,
  ⟨0x1200014, [(32, 0x100)], [⟨0, 1, .w1c, 0x0⟩, ⟨1, 1, .w1c, 0x0⟩, ⟨2, 1, .w1c, 0x0⟩, ⟨3, 1, .w1c, 0x0⟩, ⟨4, 1, .w1c, 0x0⟩]⟩,
  ⟨0x1200018, [(32, 0x100)], [⟨0, 5, .rw, 0x0⟩]⟩,
  ⟨0x120001C, [(32, 0x100)], [⟨0, 30, .ro, 0x0⟩]⟩,
  ⟨0x1200020, [(32, 0x100)], [⟨0, 32, .ro, 0x0⟩]⟩,
  ⟨0x1200024, [(32, 0x100)], [⟨0, 16, .ro, 0x0⟩]⟩,
  ⟨0x1200028, [(32, 0x100)], [⟨0, 7, .ro, 0x0⟩, ⟨8, 7, .ro, 0x0⟩, ⟨16, 16, .ro, 0x0⟩]⟩,
  ⟨0x1204000, [(128, 0x10)], [⟨0, 7, .ro, 0x0⟩, ⟨16, 7, .ro, 0x0⟩]⟩,
  ⟨0x1204004, [(128, 0x10)], [⟨0, 7, .w1c, 0x0⟩, ⟨16, 7, .w1c, 0x0⟩]⟩,
  ⟨0x1204008, [(128, 0x10)], [⟨0, 7, .rw, 0x0⟩, ⟨16, 7, .rw, 0x0⟩]⟩,
  ⟨0x120400C, [(128, 0x10)], [⟨0, 8, .ro, 0x0⟩, ⟨8, 20, .ro, 0x0⟩]⟩,
  ⟨0x1205000, [(7, 0x4)], [⟨0, 10, .rw, 0xFA⟩, ⟨16, 10, .rw, 0x3E8⟩]⟩,
  ⟨0x1208000, [(256, 0x20)], [⟨0, 1, .rw, 0x0⟩, ⟨1, 1, .rw, 0x0⟩, ⟨2, 1, .ro, 0x0⟩, ⟨16, 16, .rw, 0x0⟩]⟩,
  ⟨0x1208004, [(256, 0x20)], [⟨0, 14, .rw, 0x5EE⟩]⟩,
  ⟨0x1208008, [(256, 0x20)], [⟨0, 1, .rw, 0x0⟩, ⟨1, 1, .rw, 0x0⟩, ⟨4, 7, .rw, 0x0⟩, ⟨16, 16, .rw, 0x0⟩]⟩,
  ⟨0x120800C, [(256, 0x20)], [⟨0, 10, .rw, 0x12C⟩]⟩]

/-- Registers of block 12 (FXE), part 2. -/
def regRows12b : List RegRow := [
  ⟨0x1208010, [(256, 0x20)], [⟨0, 3, .ro, 0x0⟩, ⟨3, 1, .ro, 0x0⟩, ⟨4, 1, .ro, 0x0⟩, ⟨5, 1, .ro, 0x0⟩, ⟨6, 3, .ro, 0x6⟩, ⟨9, 9, .ro, 0x0⟩, ⟨18, 9, .ro, 0x0⟩]⟩,
  ⟨0x1208014, [(256, 0x20)], [⟨0, 1, .w1c, 0x0⟩, ⟨1, 1, .w1c, 0x0⟩, ⟨2, 1, .w1c, 0x0⟩, ⟨3, 1, .w1c, 0x0⟩, ⟨4, 1, .w1c, 0x0⟩, ⟨5, 1, .w1c, 0x0⟩]⟩,
  ⟨0x1208018, [(256, 0x20)], [⟨0, 6, .rw, 0x0⟩]⟩,
  ⟨0x120C000, [], [⟨0, 8, .rw, 0x0⟩, ⟨8, 1, .rw, 0x0⟩, ⟨12, 4, .rw, 0x0⟩, ⟨16, 1, .rw, 0x0⟩]⟩,
  ⟨0x120C008, [], [⟨0, 32, .ro, 0x0⟩]⟩,
  ⟨0x120C00C, [], [⟨0, 32, .ro, 0x0⟩]⟩]

/-- Registers of block 13 (PAR), part 1. -/
def regRows13a : List RegRow := [
  ⟨0x1400000, [(4, 0x4)], [⟨0, 32, .ro, 0x0⟩]⟩,
  ⟨0x1400010, [(4, 0x4)], [⟨0, 32, .ro, 0x0⟩]⟩,
  ⟨0x1400020, [], [⟨0, 1, .w1c, 0x0⟩, ⟨1, 1, .w1c, 0x0⟩, ⟨2, 1, .w1c, 0x0⟩]⟩,
  ⟨0x1400024, [], [⟨0, 3, .rw, 0x0⟩]⟩,
  ⟨0x1400040, [], [⟨0, 1, .wo, 0x0⟩, ⟨1, 1, .ro, 0x0⟩, ⟨2, 7, .rw, 0x0⟩, ⟨9, 1, .rw, 0x0⟩, ⟨10, 4, .rw, 0x0⟩]⟩,
  ⟨0x1400080, [(16, 0x4)], [⟨0, 32, .ro, 0x0⟩]⟩,
  ⟨0x1400100, [(16, 0x10)], [⟨0, 32, .ro, 0x0⟩]⟩,
  ⟨0x1400104, [(16, 0x10)], [⟨0, 32, .ro, 0x0⟩]⟩,
  ⟨0x1400108, [(16, 0x10)], [⟨0, 32, .ro, 0x0⟩]⟩,
  ⟨0x140010C, [(16, 0x10)], [⟨0, 32, .ro, 0x0⟩]⟩]

/-- Registers of block 14 (LPM), part 1. -/
def regRows14a : List RegRow := [
  ⟨0x1600000, [], [⟨0, 1, .rw, 0x1⟩]⟩,
  ⟨0x1600004, [], [⟨0, 32, .rwl, 0x0⟩]⟩,
  ⟨0x1600008, [], [⟨0, 32, .rw, 0x0⟩]⟩,
  ⟨0x1600010, [], [⟨0, 24, .ro, 0x0⟩]⟩,
  ⟨0x1600014, [], [⟨0, 18, .ro, 0x0⟩]⟩,
  ⟨0x1600018, [], [⟨0, 20, .ro, 0x0⟩]⟩,
  ⟨0x160001C, [], [⟨0, 17, .ro, 0x0⟩]⟩,
  ⟨0x1600020, [], [⟨0, 21, .ro, 0x100000⟩]⟩,
  ⟨0x1600024, [], [⟨0, 21, .ro, 0x100000⟩]⟩,
  ⟨0x1600030, [], [⟨0, 32, .ro, 0x0⟩]⟩,
  ⟨0x1600034, [(4, 0x4)], [⟨0, 32, .ro, 0x0⟩]⟩,
  ⟨0x1600050, [], [⟨0, 8, .rw, 0x0⟩, ⟨8, 1, .rw, 0x0⟩]⟩,
  ⟨0x1600054, [], [⟨0, 24, .ro, 0x0⟩, ⟨24, 5, .ro, 0x0⟩, ⟨29, 1, .ro, 0x0⟩, ⟨30, 1, .ro, 0x0⟩, ⟨31, 1, .ro, 0x0⟩]⟩,
  ⟨0x1600058, [], [⟨0, 12, .ro, 0x0⟩]⟩,
  ⟨0x160005C, [], [⟨0, 25, .ro, 0x0⟩]⟩,
  ⟨0x1600060, [], [⟨0, 1, .w1c, 0x0⟩, ⟨1, 1, .w1c, 0x0⟩, ⟨2, 1, .w1c, 0x0⟩, ⟨3, 1, .w1c, 0x0⟩, ⟨4, 1, .w1c, 0x0⟩, ⟨5, 1, .w1c, 0x0⟩, ⟨6, 1, .w1c, 0x0⟩]⟩,
  ⟨0x1600064, [], [⟨0, 7, .rw, 0x0⟩]⟩,
  ⟨0x1600068, [], [⟨0, 32, .ro, 0x0⟩]⟩,
  ⟨0x160006C, [], [⟨0, 24, .ro, 0x0⟩, ⟨24, 8, .ro, 0x0⟩]⟩,
  ⟨0x1600070, [], [⟨0, 1, .ro, 0x0⟩, ⟨1, 3, .ro, 0x0⟩, ⟨4, 1, .ro, 0x0⟩]⟩]

/-- Registers of block 14 (LPM), part 2. -/
def regRows14b : List RegRow := [
  ⟨0x1600100, [], [⟨0, 1, .wo, 0x0⟩, ⟨1, 1, .wo, 0x0⟩, ⟨2, 1, .rw, 0x0⟩, ⟨3, 1, .ro, 0x0⟩, ⟨4, 2, .rw, 0x0⟩, ⟨6, 1, .ro, 0x0⟩]⟩,
  ⟨0x1600104, [], [⟨5, 27, .rw, 0x0⟩]⟩,
  ⟨0x1600108, [], [⟨0, 32, .rw, 0x0⟩]⟩,
  ⟨0x160010C, [], [⟨0, 24, .rw, 0x0⟩]⟩,
  ⟨0x1600110, [], [⟨3, 29, .rw, 0x0⟩]⟩,
  ⟨0x1600114, [], [⟨0, 32, .rw, 0x0⟩]⟩,
  ⟨0x1600118, [], [⟨0, 16, .rw, 0x0⟩]⟩,
  ⟨0x160011C, [], [⟨0, 24, .ro, 0x0⟩]⟩,
  ⟨0x1600120, [], [⟨0, 32, .ro, 0x0⟩]⟩,
  ⟨0x1600124, [], [⟨0, 25, .ro, 0x0⟩]⟩,
  ⟨0x1600200, [(16, 0x20)], [⟨0, 13, .ro, 0x12C0⟩]⟩,
  ⟨0x1600204, [(16, 0x20)], [⟨0, 32, .ro, 0x0⟩]⟩,
  ⟨0x1600208, [(16, 0x20)], [⟨0, 32, .ro, 0x0⟩]⟩,
  ⟨0x160020C, [(16, 0x20)], [⟨0, 13, .ro, 0x0⟩, ⟨13, 19, .ro, 0x0⟩]⟩,
  ⟨0x1600210, [(16, 0x20)], [⟨0, 32, .ro, 0x0⟩]⟩,
  ⟨0x1600214, [(16, 0x20)], [⟨0, 32, .ro, 0x0⟩]⟩,
  ⟨0x1600218, [(16, 0x20)], [⟨0, 32, .ro, 0x0⟩]⟩]

/-- Registers of block 15 (EXM), part 1. -/
def regRows15a : List RegRow := [
  ⟨0x1800000, [], [⟨0, 1, .rw, 0x1⟩]⟩,
  ⟨0x1800004, [], [⟨0, 32, .rwl, 0x0⟩]⟩,
  ⟨0x1800008, [], [⟨0, 32, .rwl, 0x9E3779B9⟩]⟩,
  ⟨0x180000C, [], [⟨0, 32, .rwl, 0x0⟩]⟩,
  ⟨0x1800010, [], [⟨0, 21, .ro, 0x0⟩]⟩,
  ⟨0x1800014, [], [⟨0, 25, .ro, 0x0⟩]⟩,
  ⟨0x1800018, [], [⟨0, 17, .ro, 0x0⟩]⟩,
  ⟨0x180001C, [], [⟨0, 17, .ro, 0x0⟩]⟩,
  ⟨0x1800020, [], [⟨0, 11, .rw, 0x0⟩, ⟨16, 8, .rw, 0x3⟩]⟩,
  ⟨0x1800024, [], [⟨0, 16, .rw, 0x3E8⟩]⟩,
  ⟨0x1800028, [], [⟨0, 20, .rw, 0x2EE⟩, ⟨20, 3, .rw, 0x4⟩]⟩,
  ⟨0x180002C, [], [⟨0, 14, .ro, 0x0⟩, ⟨16, 13, .ro, 0x0⟩]⟩,
  ⟨0x1800030, [], [⟨0, 32, .ro, 0x0⟩]⟩,
  ⟨0x1800034, [], [⟨0, 32, .ro, 0x0⟩]⟩,
  ⟨0x1800038, [], [⟨0, 32, .ro, 0x0⟩]⟩,
  ⟨0x180003C, [], [⟨0, 32, .ro, 0x0⟩]⟩,
  ⟨0x1800040, [], [⟨0, 32, .ro, 0x0⟩]⟩,
  ⟨0x1800044, [], [⟨0, 32, .ro, 0x0⟩]⟩,
  ⟨0x1800048, [], [⟨0, 32, .ro, 0x0⟩]⟩,
  ⟨0x1800060, [], [⟨0, 1, .w1c, 0x0⟩, ⟨1, 1, .w1c, 0x0⟩, ⟨2, 1, .w1c, 0x0⟩, ⟨3, 1, .w1c, 0x0⟩, ⟨4, 1, .w1c, 0x0⟩, ⟨5, 1, .w1c, 0x0⟩, ⟨6, 1, .w1c, 0x0⟩, ⟨7, 1, .w1c, 0x0⟩, ⟨8, 1, .w1c, 0x0⟩, ⟨9, 1, .w1c, 0x0⟩, ⟨10, 1, .w1c, 0x0⟩]⟩]

/-- Registers of block 15 (EXM), part 2. -/
def regRows15b : List RegRow := [
  ⟨0x1800064, [], [⟨0, 11, .rw, 0x0⟩]⟩,
  ⟨0x1800068, [], [⟨0, 32, .ro, 0x0⟩]⟩,
  ⟨0x180006C, [], [⟨0, 32, .ro, 0x0⟩]⟩,
  ⟨0x1800070, [], [⟨0, 1, .ro, 0x0⟩, ⟨1, 1, .ro, 0x0⟩]⟩,
  ⟨0x1800100, [], [⟨0, 1, .wo, 0x0⟩, ⟨1, 1, .wo, 0x0⟩, ⟨2, 1, .rw, 0x0⟩, ⟨3, 1, .ro, 0x0⟩, ⟨4, 2, .rw, 0x0⟩, ⟨6, 1, .ro, 0x0⟩]⟩,
  ⟨0x1800104, [], [⟨6, 26, .rw, 0x0⟩]⟩,
  ⟨0x1800108, [], [⟨0, 32, .rw, 0x0⟩]⟩,
  ⟨0x180010C, [], [⟨0, 25, .rw, 0x0⟩]⟩,
  ⟨0x1800110, [], [⟨3, 29, .rw, 0x0⟩]⟩,
  ⟨0x1800114, [], [⟨0, 32, .rw, 0x0⟩]⟩,
  ⟨0x1800118, [], [⟨0, 16, .rw, 0x0⟩]⟩,
  ⟨0x180011C, [], [⟨0, 25, .ro, 0x0⟩]⟩,
  ⟨0x1800120, [], [⟨0, 32, .ro, 0x0⟩]⟩,
  ⟨0x1800124, [], [⟨0, 25, .ro, 0x0⟩]⟩,
  ⟨0x1800200, [], [⟨0, 1, .wo, 0x0⟩, ⟨1, 1, .ro, 0x0⟩, ⟨2, 3, .rw, 0x0⟩, ⟨5, 2, .rw, 0x0⟩, ⟨16, 16, .ro, 0x0⟩]⟩,
  ⟨0x1800204, [], [⟨0, 32, .rw, 0x0⟩]⟩,
  ⟨0x1800208, [], [⟨0, 7, .rw, 0x0⟩, ⟨7, 11, .rw, 0x0⟩, ⟨18, 6, .rw, 0x0⟩, ⟨24, 1, .rw, 0x0⟩]⟩,
  ⟨0x1800210, [(12, 0x4)], [⟨0, 32, .rw, 0x0⟩]⟩,
  ⟨0x1800240, [], [⟨0, 24, .rw, 0x0⟩, ⟨24, 2, .rw, 0x0⟩, ⟨26, 1, .ro, 0x0⟩, ⟨27, 1, .ro, 0x0⟩, ⟨28, 3, .ro, 0x0⟩]⟩,
  ⟨0x1800244, [], [⟨0, 6, .ro, 0x0⟩]⟩]

/-- Registers of block 15 (EXM), part 3. -/
def regRows15c : List RegRow := [
  ⟨0x1801000, [(64, 0x4)], [⟨0, 1, .rw, 0x0⟩, ⟨1, 2, .rw, 0x0⟩, ⟨3, 2, .rw, 0x0⟩, ⟨5, 1, .rw, 0x0⟩, ⟨6, 1, .rw, 0x0⟩, ⟨7, 1, .rw, 0x0⟩, ⟨8, 20, .rw, 0x0⟩]⟩,
  ⟨0x1801100, [(64, 0x4)], [⟨0, 25, .ro, 0x0⟩]⟩]

/-- Registers of block 16 (CAM), part 1. -/
def regRows16a : List RegRow := [
  ⟨0x1A00000, [], [⟨0, 1, .rw, 0x1⟩]⟩,
  ⟨0x1A00004, [], [⟨0, 16, .ro, 0x0⟩, ⟨16, 2, .ro, 0x0⟩, ⟨18, 1, .ro, 0x0⟩]⟩,
  ⟨0x1A00008, [], [⟨0, 15, .ro, 0x0⟩, ⟨16, 15, .ro, 0x0⟩, ⟨31, 1, .ro, 0x0⟩]⟩,
  ⟨0x1A00010, [], [⟨0, 1, .w1c, 0x0⟩, ⟨1, 1, .w1c, 0x0⟩, ⟨2, 1, .w1c, 0x0⟩, ⟨3, 1, .w1c, 0x0⟩, ⟨4, 1, .w1c, 0x0⟩, ⟨5, 1, .w1c, 0x0⟩]⟩,
  ⟨0x1A00014, [], [⟨0, 6, .rw, 0x0⟩]⟩,
  ⟨0x1A00018, [], [⟨0, 32, .ro, 0x0⟩]⟩,
  ⟨0x1A0001C, [], [⟨0, 15, .ro, 0x0⟩, ⟨16, 4, .ro, 0x0⟩, ⟨20, 1, .ro, 0x0⟩]⟩,
  ⟨0x1A00100, [], [⟨0, 1, .wo, 0x0⟩, ⟨1, 1, .wo, 0x0⟩, ⟨2, 1, .rw, 0x0⟩, ⟨3, 1, .ro, 0x0⟩, ⟨4, 2, .rw, 0x0⟩, ⟨6, 1, .ro, 0x0⟩]⟩,
  ⟨0x1A00104, [], [⟨7, 25, .rw, 0x0⟩]⟩,
  ⟨0x1A00108, [], [⟨0, 32, .rw, 0x0⟩]⟩,
  ⟨0x1A0010C, [], [⟨0, 16, .rw, 0x0⟩]⟩,
  ⟨0x1A00110, [], [⟨3, 29, .rw, 0x0⟩]⟩,
  ⟨0x1A00114, [], [⟨0, 32, .rw, 0x0⟩]⟩,
  ⟨0x1A00118, [], [⟨0, 16, .rw, 0x0⟩]⟩,
  ⟨0x1A0011C, [], [⟨0, 16, .ro, 0x0⟩]⟩,
  ⟨0x1A00120, [], [⟨0, 32, .ro, 0x0⟩]⟩,
  ⟨0x1A00124, [], [⟨0, 16, .ro, 0x0⟩]⟩,
  ⟨0x1A00200, [(16, 0x4)], [⟨0, 32, .ro, 0x0⟩]⟩]

/-- Registers of block 17 (ACT), part 1. -/
def regRows17a : List RegRow := [
  ⟨0x1C00000, [], [⟨0, 19, .ro, 0x0⟩]⟩,
  ⟨0x1C00004, [], [⟨0, 19, .ro, 0x0⟩]⟩,
  ⟨0x1C00008, [], [⟨0, 17, .ro, 0x0⟩]⟩,
  ⟨0x1C0000C, [], [⟨0, 19, .ro, 0x40000⟩]⟩,
  ⟨0x1C00010, [], [⟨0, 19, .ro, 0x40000⟩]⟩,
  ⟨0x1C00020, [], [⟨0, 32, .ro, 0x0⟩]⟩,
  ⟨0x1C00024, [], [⟨0, 32, .ro, 0x0⟩]⟩,
  ⟨0x1C00028, [], [⟨0, 32, .ro, 0x0⟩]⟩,
  ⟨0x1C0002C, [], [⟨0, 32, .ro, 0x0⟩]⟩,
  ⟨0x1C00030, [], [⟨0, 32, .ro, 0x0⟩]⟩,
  ⟨0x1C00034, [], [⟨0, 32, .ro, 0x0⟩]⟩,
  ⟨0x1C00040, [], [⟨0, 1, .w1c, 0x0⟩, ⟨1, 1, .w1c, 0x0⟩, ⟨2, 1, .w1c, 0x0⟩, ⟨3, 1, .w1c, 0x0⟩]⟩,
  ⟨0x1C00044, [], [⟨0, 4, .rw, 0x0⟩]⟩,
  ⟨0x1C00048, [], [⟨0, 32, .ro, 0x0⟩]⟩,
  ⟨0x1C0004C, [], [⟨0, 25, .ro, 0x0⟩, ⟨28, 3, .ro, 0x0⟩]⟩,
  ⟨0x1C00100, [], [⟨0, 16, .rw, 0x3E8⟩, ⟨31, 1, .rw, 0x1⟩]⟩,
  ⟨0x1C00104, [], [⟨0, 17, .ro, 0x0⟩]⟩,
  ⟨0x1C00108, [], [⟨0, 32, .ro, 0x0⟩]⟩,
  ⟨0x1C0010C, [], [⟨0, 13, .ro, 0x0⟩]⟩]

/-- Registers of block 18 (RCL), part 1. -/
def regRows18a : List RegRow := [
  ⟨0x1D00000, [], [⟨0, 4, .rw, 0x4⟩]⟩,
  ⟨0x1D00004, [], [⟨0, 32, .rw, 0x0⟩]⟩,
  ⟨0x1D00010, [], [⟨0, 1, .w1c, 0x0⟩, ⟨1, 1, .w1c, 0x0⟩, ⟨2, 1, .w1c, 0x0⟩, ⟨3, 1, .w1c, 0x0⟩, ⟨4, 1, .w1c, 0x0⟩]⟩,
  ⟨0x1D00014, [], [⟨0, 5, .rw, 0x0⟩]⟩,
  ⟨0x1D00100, [(16, 0x20)], [⟨0, 10, .ro, 0x0⟩, ⟨16, 11, .ro, 0x0⟩]⟩,
  ⟨0x1D00104, [(16, 0x20)], [⟨0, 32, .ro, 0x0⟩]⟩,
  ⟨0x1D00108, [(16, 0x20)], [⟨0, 32, .ro, 0x0⟩]⟩,
  ⟨0x1D0010C, [(16, 0x20)], [⟨0, 32, .ro, 0x0⟩]⟩,
  ⟨0x1D00110, [(16, 0x20)], [⟨0, 32, .ro, 0x0⟩]⟩,
  ⟨0x1D00114, [(16, 0x20)], [⟨0, 32, .ro, 0x0⟩]⟩,
  ⟨0x1D00118, [(16, 0x20)], [⟨0, 32, .ro, 0x0⟩]⟩,
  ⟨0x1D0011C, [(16, 0x20)], [⟨0, 11, .ro, 0x0⟩]⟩,
  ⟨0x1D00400, [(128, 0x4)], [⟨0, 4, .rw, 0x0⟩, ⟨4, 4, .rw, 0x0⟩]⟩,
  ⟨0x1D08000, [], [⟨0, 1, .rw, 0x0⟩, ⟨1, 6, .rw, 0x0⟩]⟩,
  ⟨0x1D08004, [], [⟨0, 1, .w1c, 0x0⟩, ⟨1, 1, .w1c, 0x0⟩]⟩,
  ⟨0x1D08008, [], [⟨0, 2, .rw, 0x0⟩]⟩,
  ⟨0x1D08010, [], [⟨0, 32, .ro, 0x0⟩]⟩,
  ⟨0x1D08014, [], [⟨0, 32, .ro, 0x0⟩]⟩,
  ⟨0x1D08018, [], [⟨0, 32, .ro, 0x0⟩]⟩,
  ⟨0x1D0801C, [], [⟨0, 32, .ro, 0x0⟩]⟩]

/-- Registers of block 18 (RCL), part 2. -/
def regRows18b : List RegRow := [
  ⟨0x1D08020, [], [⟨0, 22, .ro, 0x0⟩, ⟨28, 3, .ro, 0x0⟩]⟩,
  ⟨0x1D08024, [], [⟨0, 19, .ro, 0x0⟩]⟩,
  ⟨0x1D08028, [], [⟨0, 13, .ro, 0x0⟩]⟩,
  ⟨0x1D08100, [(16, 0x4)], [⟨0, 2, .rw, 0x0⟩, ⟨2, 2, .rw, 0x0⟩, ⟨4, 2, .rw, 0x0⟩, ⟨6, 2, .rw, 0x0⟩, ⟨8, 2, .rw, 0x0⟩, ⟨10, 2, .rw, 0x0⟩, ⟨12, 2, .rw, 0x0⟩, ⟨14, 2, .rw, 0x0⟩, ⟨16, 2, .rw, 0x0⟩, ⟨18, 2, .rw, 0x0⟩, ⟨20, 2, .rw, 0x0⟩, ⟨22, 2, .rw, 0x0⟩, ⟨24, 2, .rw, 0x0⟩, ⟨26, 2, .rw, 0x0⟩, ⟨28, 2, .rw, 0x0⟩, ⟨30, 2, .rw, 0x0⟩]⟩]

/-- Registers of block 19 (GEN), part 1. -/
def regRows19a : List RegRow := [
  ⟨0x1E00000, [], [⟨0, 3, .ro, 0x3⟩, ⟨4, 3, .ro, 0x0⟩, ⟨8, 3, .ro, 0x0⟩, ⟨12, 3, .ro, 0x0⟩, ⟨16, 2, .ro, 0x0⟩, ⟨18, 1, .ro, 0x0⟩, ⟨19, 1, .ro, 0x0⟩, ⟨20, 4, .ro, 0x0⟩]⟩,
  ⟨0x1E00004, [], [⟨0, 30, .ro, 0x0⟩]⟩,
  ⟨0x1E00008, [], [⟨0, 32, .ro, 0x0⟩]⟩,
  ⟨0x1E0000C, [], [⟨0, 16, .ro, 0x0⟩]⟩,
  ⟨0x1E00010, [(4, 0x4)], [⟨0, 32, .ro, 0x0⟩]⟩,
  ⟨0x1E00020, [(4, 0x4)], [⟨0, 32, .ro, 0x0⟩]⟩,
  ⟨0x1E00030, [], [⟨0, 16, .rw, 0x64⟩]⟩,
  ⟨0x1E00034, [], [⟨0, 1, .w1c, 0x0⟩, ⟨1, 1, .w1c, 0x0⟩, ⟨2, 1, .w1c, 0x0⟩, ⟨3, 1, .w1c, 0x0⟩, ⟨4, 1, .w1c, 0x0⟩, ⟨5, 1, .w1c, 0x0⟩]⟩,
  ⟨0x1E00038, [], [⟨0, 6, .rw, 0x0⟩]⟩,
  ⟨0x1E00040, [], [⟨0, 2, .ro, 0x0⟩, ⟨2, 2, .ro, 0x0⟩, ⟨4, 2, .ro, 0x0⟩, ⟨6, 2, .ro, 0x0⟩]⟩,
  ⟨0x1E00044, [], [⟨0, 32, .ro, 0x0⟩]⟩,
  ⟨0x1E00100, [(7, 0x4)], [⟨0, 5, .ro, 0xA⟩]⟩,
  ⟨0x1E00140, [(7, 0x4)], [⟨0, 25, .ro, 0x0⟩]⟩,
  ⟨0x1E00180, [(7, 0x4)], [⟨0, 25, .ro, 0x0⟩]⟩,
  ⟨0x1E001C0, [(7, 0x4)], [⟨0, 25, .ro, 0x0⟩]⟩]

/-- Registers of block 20 (HBF), part 1. -/
def regRows20a : List RegRow := [
  ⟨0x2000000, [], [⟨0, 16, .rw, 0x1000⟩, ⟨16, 2, .rw, 0x1⟩, ⟨18, 4, .rw, 0x3⟩]⟩,
  ⟨0x2000004, [], [⟨0, 16, .rw, 0x40⟩]⟩,
  ⟨0x2000008, [], []⟩,
  ⟨0x2000010, [], [⟨0, 1, .w1c, 0x0⟩, ⟨1, 1, .w1c, 0x0⟩, ⟨2, 1, .w1c, 0x0⟩, ⟨3, 1, .w1c, 0x0⟩, ⟨4, 1, .w1c, 0x0⟩, ⟨5, 1, .w1c, 0x0⟩, ⟨6, 1, .w1c, 0x0⟩]⟩,
  ⟨0x2000014, [], [⟨0, 7, .rw, 0x0⟩]⟩,
  ⟨0x2000018, [], [⟨0, 3, .ro, 0x0⟩, ⟨3, 6, .ro, 0x0⟩, ⟨9, 4, .ro, 0x0⟩, ⟨13, 15, .ro, 0x0⟩, ⟨28, 4, .ro, 0x0⟩]⟩,
  ⟨0x200001C, [], [⟨0, 5, .ro, 0x0⟩, ⟨5, 1, .ro, 0x0⟩, ⟨6, 1, .ro, 0x0⟩]⟩,
  ⟨0x2000020, [], [⟨0, 32, .ro, 0x0⟩]⟩,
  ⟨0x2000024, [], []⟩,
  ⟨0x2001000, [(4, 0x100)], [⟨0, 1, .wo, 0x0⟩]⟩,
  ⟨0x2001004, [(4, 0x100)], [⟨0, 3, .ro, 0x0⟩, ⟨3, 8, .ro, 0x0⟩, ⟨11, 1, .ro, 0x0⟩, ⟨12, 1, .ro, 0x0⟩, ⟨13, 1, .ro, 0x0⟩, ⟨16, 4, .ro, 0x0⟩]⟩,
  ⟨0x2001008, [(4, 0x100)], [⟨0, 32, .ro, 0x0⟩]⟩,
  ⟨0x200100C, [(4, 0x100)], [⟨0, 32, .ro, 0x0⟩]⟩,
  ⟨0x2001010, [(4, 0x100)], [⟨0, 32, .ro, 0x0⟩]⟩,
  ⟨0x2001014, [(4, 0x100)], [⟨0, 16, .ro, 0x0⟩]⟩,
  ⟨0x2001018, [(4, 0x100)], [⟨0, 32, .ro, 0x0⟩]⟩,
  ⟨0x200101C, [(4, 0x100)], [⟨0, 16, .ro, 0x0⟩]⟩,
  ⟨0x2001020, [(4, 0x100)], [⟨0, 32, .ro, 0x0⟩]⟩]

/-- Registers of block 21 (BUF), part 1. -/
def regRows21a : List RegRow := [
  ⟨0x4000000, [], [⟨0, 18, .rwl, 0x2000⟩]⟩,
  ⟨0x4000004, [], [⟨0, 19, .rwl, 0x10000⟩, ⟨24, 8, .rw, 0x10⟩]⟩,
  ⟨0x4000008, [], [⟨0, 21, .rw, 0x20000⟩]⟩,
  ⟨0x4000010, [], [⟨0, 21, .ro, 0xEE000⟩]⟩,
  ⟨0x4000014, [], [⟨0, 18, .ro, 0x0⟩]⟩,
  ⟨0x4000018, [], [⟨0, 19, .ro, 0x0⟩]⟩,
  ⟨0x400001C, [], [⟨0, 21, .ro, 0x0⟩]⟩,
  ⟨0x4000020, [], [⟨0, 1, .wo, 0x0⟩]⟩,
  ⟨0x4000030, [(6, 0x4)], [⟨0, 23, .ro, 0x600000⟩]⟩,
  ⟨0x4000050, [], [⟨0, 21, .ro, 0x0⟩]⟩,
  ⟨0x4000060, [(6, 0x4)], [⟨0, 3, .ro, 0x0⟩, ⟨3, 3, .ro, 0x0⟩, ⟨6, 3, .ro, 0x0⟩, ⟨9, 3, .ro, 0x0⟩, ⟨12, 3, .ro, 0x0⟩, ⟨15, 3, .ro, 0x0⟩, ⟨18, 3, .ro, 0x0⟩, ⟨21, 3, .ro, 0x0⟩, ⟨24, 8, .ro, 0x0⟩]⟩,
  ⟨0x4000080, [], [⟨0, 16, .rw, 0x64⟩]⟩,
  ⟨0x4000084, [], [⟨0, 26, .rw, 0x100000⟩]⟩,
  ⟨0x4000090, [], [⟨0, 16, .rw, 0x28⟩]⟩,
  ⟨0x40000A0, [], [⟨0, 1, .w1c, 0x0⟩, ⟨1, 1, .w1c, 0x0⟩, ⟨2, 1, .w1c, 0x0⟩, ⟨3, 1, .w1c, 0x0⟩, ⟨4, 1, .w1c, 0x0⟩, ⟨5, 1, .w1c, 0x0⟩, ⟨6, 1, .w1c, 0x0⟩, ⟨7, 1, .w1c, 0x0⟩, ⟨8, 1, .w1c, 0x0⟩]⟩,
  ⟨0x40000A4, [], [⟨0, 9, .rw, 0x0⟩]⟩,
  ⟨0x40000B0, [], [⟨0, 32, .ro, 0x0⟩]⟩,
  ⟨0x40000B4, [], [⟨0, 32, .ro, 0x0⟩]⟩,
  ⟨0x40000B8, [], [⟨0, 32, .ro, 0x0⟩]⟩,
  ⟨0x40000BC, [], [⟨0, 26, .ro, 0x0⟩]⟩]

/-- Registers of block 21 (BUF), part 2. -/
def regRows21b : List RegRow := [
  ⟨0x4000100, [(10, 0x8)], [⟨0, 32, .ro, 0x0⟩]⟩,
  ⟨0x4000104, [(10, 0x8)], [⟨0, 32, .ro, 0x0⟩]⟩,
  ⟨0x4000200, [], [⟨0, 7, .rw, 0x0⟩, ⟨7, 3, .rw, 0x0⟩, ⟨10, 2, .rw, 0x0⟩, ⟨12, 4, .rw, 0x0⟩, ⟨16, 1, .rw, 0x0⟩]⟩,
  ⟨0x4000208, [], [⟨0, 32, .ro, 0x0⟩]⟩,
  ⟨0x400020C, [], [⟨0, 32, .ro, 0x0⟩]⟩,
  ⟨0x4000300, [(32, 0x4)], [⟨0, 8, .ro, 0x0⟩, ⟨8, 8, .ro, 0x0⟩, ⟨16, 8, .ro, 0x0⟩, ⟨24, 8, .ro, 0x0⟩]⟩]

/-- Registers of block 22 (SCH), part 1. -/
def regRows22a : List RegRow := [
  ⟨0x4400000, [], [⟨0, 1, .rw, 0x1⟩]⟩,
  ⟨0x4400004, [], [⟨0, 3, .ro, 0x0⟩]⟩,
  ⟨0x4400008, [], [⟨0, 13, .ro, 0x1000⟩]⟩,
  ⟨0x4400010, [(8, 0x4)], [⟨0, 9, .rw, 0x0⟩]⟩,
  ⟨0x4400040, [], [⟨0, 1, .w1c, 0x0⟩, ⟨1, 1, .w1c, 0x0⟩, ⟨2, 1, .w1c, 0x0⟩]⟩,
  ⟨0x4400044, [], [⟨0, 3, .rw, 0x0⟩]⟩,
  ⟨0x4400048, [], [⟨0, 32, .ro, 0x0⟩]⟩,
  ⟨0x4400100, [(128, 0x4)], [⟨0, 2, .rw, 0x1⟩, ⟨2, 7, .rw, 0x0⟩, ⟨9, 7, .rw, 0x14⟩, ⟨16, 1, .rw, 0x1⟩]⟩,
  ⟨0x4400300, [(128, 0x4)], [⟨0, 32, .rw, 0x0⟩]⟩,
  ⟨0x4400500, [(128, 0x4)], [⟨0, 1, .ro, 0x0⟩, ⟨1, 1, .ro, 0x0⟩, ⟨2, 8, .ro, 0x0⟩, ⟨10, 1, .ro, 0x0⟩, ⟨11, 1, .ro, 0x0⟩]⟩,
  ⟨0x4400700, [(128, 0x4)], [⟨0, 20, .rw, 0x0⟩, ⟨31, 1, .rw, 0x0⟩]⟩]

/-- Registers of block 23 (SHP), part 1. -/
def regRows23a : List RegRow := [
  ⟨0x4800000, [], [⟨0, 18, .rw, 0x0⟩, ⟨18, 3, .rw, 0x0⟩]⟩,
  ⟨0x4800004, [], [⟨0, 32, .rw, 0x0⟩]⟩,
  ⟨0x4800008, [], [⟨0, 32, .rw, 0x0⟩]⟩,
  ⟨0x480000C, [], [⟨0, 1, .rw, 0x0⟩, ⟨1, 1, .rw, 0x0⟩]⟩,
  ⟨0x4800010, [], [⟨0, 32, .ro, 0x0⟩]⟩,
  ⟨0x4800014, [], [⟨0, 32, .ro, 0x0⟩]⟩,
  ⟨0x4801000, [], [⟨0, 1, .rw, 0x1⟩]⟩,
  ⟨0x4801004, [], [⟨0, 1, .w1c, 0x0⟩]⟩,
  ⟨0x4801008, [], [⟨0, 1, .rw, 0x0⟩]⟩,
  ⟨0x480100C, [], [⟨0, 32, .ro, 0x0⟩]⟩]

/-- Registers of block 24 (DLN), part 1. -/
def regRows24a : List RegRow := [
  ⟨0x4C00000, [], [⟨0, 1, .rw, 0x1⟩, ⟨1, 1, .rw, 0x0⟩]⟩,
  ⟨0x4C00004, [], [⟨0, 1, .w1c, 0x0⟩, ⟨1, 1, .w1c, 0x0⟩, ⟨2, 1, .w1c, 0x0⟩, ⟨3, 1, .w1c, 0x0⟩, ⟨4, 1, .w1c, 0x0⟩, ⟨5, 1, .w1c, 0x0⟩, ⟨6, 1, .w1c, 0x0⟩]⟩,
  ⟨0x4C00008, [], [⟨0, 7, .rw, 0x0⟩]⟩,
  ⟨0x4C00100, [], [⟨0, 7, .rw, 0x0⟩, ⟨7, 1, .rw, 0x0⟩, ⟨8, 5, .rw, 0x0⟩, ⟨16, 1, .rw, 0x0⟩]⟩,
  ⟨0x4C00108, [], [⟨0, 32, .ro, 0x0⟩]⟩,
  ⟨0x4C0010C, [], [⟨0, 32, .ro, 0x0⟩]⟩,
  ⟨0x4C00400, [(128, 0x4)], [⟨0, 16, .rw, 0x19A⟩]⟩,
  ⟨0x4C01000, [(128, 0x20)], [⟨0, 1, .rw, 0x0⟩, ⟨1, 1, .rw, 0x0⟩, ⟨2, 1, .rw, 0x0⟩, ⟨3, 2, .rw, 0x0⟩, ⟨8, 8, .rw, 0x0⟩, ⟨16, 8, .rw, 0x14⟩, ⟨24, 8, .rw, 0xA⟩]⟩,
  ⟨0x4C01004, [(128, 0x20)], [⟨0, 8, .ro, 0xFF⟩, ⟨8, 1, .ro, 0x0⟩, ⟨9, 1, .ro, 0x0⟩, ⟨10, 1, .ro, 0x0⟩, ⟨11, 2, .ro, 0x0⟩, ⟨13, 1, .ro, 0x0⟩, ⟨16, 16, .ro, 0x0⟩]⟩,
  ⟨0x4C01008, [(128, 0x20)], [⟨0, 30, .ro, 0x0⟩]⟩,
  ⟨0x4C0100C, [(128, 0x20)], [⟨0, 11, .ro, 0x0⟩]⟩,
  ⟨0x4C01010, [(128, 0x20)], [⟨0, 30, .ro, 0x0⟩]⟩,
  ⟨0x4C01014, [(128, 0x20)], [⟨0, 32, .ro, 0x0⟩]⟩,
  ⟨0x4C01018, [(128, 0x20)], [⟨0, 16, .ro, 0x0⟩]⟩]

/-- Registers of block 25 (FAB), part 1. -/
def regRows25a : List RegRow := [
  ⟨0x5000000, [], [⟨0, 11, .rwl, 0x0⟩, ⟨11, 2, .rwl, 0x0⟩, ⟨13, 7, .rw, 0x18⟩, ⟨31, 1, .rw, 0x0⟩]⟩,
  ⟨0x5000004, [], [⟨0, 10, .rw, 0x14⟩, ⟨16, 10, .rw, 0x64⟩]⟩,
  ⟨0x5000008, [], [⟨0, 16, .rw, 0x64⟩, ⟨16, 8, .rw, 0x14⟩, ⟨24, 8, .rw, 0xA⟩]⟩,
  ⟨0x5000010, [], [⟨0, 8, .ro, 0x0⟩, ⟨8, 18, .ro, 0x0⟩]⟩,
  ⟨0x5000020, [], [⟨0, 1, .w1c, 0x0⟩, ⟨1, 1, .w1c, 0x0⟩, ⟨2, 1, .w1c, 0x0⟩, ⟨3, 1, .w1c, 0x0⟩, ⟨4, 1, .w1c, 0x0⟩, ⟨5, 1, .w1c, 0x0⟩, ⟨6, 1, .w1c, 0x0⟩]⟩,
  ⟨0x5000024, [], [⟨0, 7, .rw, 0x0⟩]⟩,
  ⟨0x5000028, [], [⟨0, 32, .ro, 0x0⟩]⟩,
  ⟨0x500002C, [], [⟨0, 32, .ro, 0x0⟩]⟩,
  ⟨0x5000030, [], [⟨0, 32, .ro, 0x0⟩]⟩,
  ⟨0x5000034, [], [⟨0, 32, .ro, 0x0⟩]⟩,
  ⟨0x5000038, [], [⟨0, 32, .ro, 0x0⟩]⟩,
  ⟨0x5000040, [], [⟨0, 11, .rw, 0x0⟩]⟩,
  ⟨0x5000044, [], [⟨0, 1, .ro, 0x0⟩, ⟨8, 8, .ro, 0x0⟩, ⟨16, 11, .ro, 0x0⟩]⟩,
  ⟨0x5000050, [(5, 0x4)], [⟨0, 32, .ro, 0x0⟩]⟩,
  ⟨0x5001000, [(160, 0x10)], [⟨0, 1, .rw, 0x0⟩, ⟨1, 3, .ro, 0x0⟩]⟩,
  ⟨0x5001004, [(160, 0x10)], [⟨0, 32, .ro, 0x0⟩]⟩,
  ⟨0x5001008, [(160, 0x10)], [⟨0, 32, .ro, 0x0⟩]⟩,
  ⟨0x500100C, [(160, 0x10)], [⟨0, 15, .ro, 0x0⟩, ⟨16, 16, .ro, 0x0⟩]⟩,
  ⟨0x5004000, [(128, 0x20)], [⟨0, 11, .rw, 0x3F2⟩, ⟨11, 1, .rw, 0x1⟩, ⟨12, 8, .rw, 0x0⟩]⟩,
  ⟨0x5004004, [(128, 0x20)], [⟨0, 32, .rw, 0x0⟩]⟩]

/-- Registers of block 25 (FAB), part 2. -/
def regRows25b : List RegRow := [
  ⟨0x5004008, [(128, 0x20)], [⟨0, 16, .rw, 0x400⟩, ⟨16, 16, .rw, 0x200⟩]⟩,
  ⟨0x500400C, [(128, 0x20)], [⟨0, 4, .rw, 0x0⟩, ⟨4, 4, .rw, 0x0⟩, ⟨8, 4, .rw, 0x0⟩, ⟨12, 4, .rw, 0x0⟩, ⟨16, 4, .rw, 0x0⟩, ⟨20, 4, .rw, 0x0⟩, ⟨24, 4, .rw, 0x0⟩, ⟨28, 4, .rw, 0x0⟩]⟩,
  ⟨0x5004010, [(128, 0x20)], [⟨0, 1, .ro, 0x0⟩, ⟨8, 18, .ro, 0x0⟩]⟩]

/-- Registers of block 26 (HBT), part 1. -/
def regRows26a : List RegRow := [
  ⟨0x5400000, [], [⟨0, 16, .rw, 0x1000⟩, ⟨16, 2, .rw, 0x1⟩, ⟨18, 4, .rw, 0x3⟩]⟩,
  ⟨0x5400004, [], [⟨0, 16, .rw, 0x40⟩]⟩,
  ⟨0x5400008, [], [⟨0, 16, .rw, 0x64⟩, ⟨16, 1, .rw, 0x1⟩]⟩,
  ⟨0x5400010, [], [⟨0, 1, .w1c, 0x0⟩, ⟨1, 1, .w1c, 0x0⟩, ⟨2, 1, .w1c, 0x0⟩, ⟨3, 1, .w1c, 0x0⟩, ⟨4, 1, .w1c, 0x0⟩, ⟨5, 1, .w1c, 0x0⟩, ⟨6, 1, .w1c, 0x0⟩]⟩,
  ⟨0x5400014, [], [⟨0, 7, .rw, 0x0⟩]⟩,
  ⟨0x5400018, [], [⟨0, 3, .ro, 0x0⟩, ⟨3, 6, .ro, 0x0⟩, ⟨9, 4, .ro, 0x0⟩, ⟨13, 15, .ro, 0x0⟩, ⟨28, 4, .ro, 0x0⟩]⟩,
  ⟨0x540001C, [], [⟨0, 5, .ro, 0x0⟩, ⟨5, 1, .ro, 0x0⟩, ⟨6, 1, .ro, 0x0⟩]⟩,
  ⟨0x5400020, [], []⟩,
  ⟨0x5400024, [], [⟨0, 32, .ro, 0x0⟩]⟩,
  ⟨0x5401000, [(6, 0x100)], [⟨0, 1, .wo, 0x0⟩]⟩,
  ⟨0x5401004, [(6, 0x100)], [⟨0, 3, .ro, 0x0⟩, ⟨3, 8, .ro, 0x0⟩, ⟨11, 1, .ro, 0x0⟩, ⟨12, 1, .ro, 0x0⟩, ⟨13, 1, .ro, 0x0⟩, ⟨16, 4, .ro, 0x0⟩]⟩,
  ⟨0x5401008, [(6, 0x100)], [⟨0, 32, .ro, 0x0⟩]⟩,
  ⟨0x540100C, [(6, 0x100)], [⟨0, 32, .ro, 0x0⟩]⟩,
  ⟨0x5401010, [(6, 0x100)], [⟨0, 32, .ro, 0x0⟩]⟩,
  ⟨0x5401014, [(6, 0x100)], [⟨0, 16, .ro, 0x0⟩]⟩,
  ⟨0x5401018, [(6, 0x100)], [⟨0, 32, .ro, 0x0⟩]⟩,
  ⟨0x540101C, [(6, 0x100)], [⟨0, 16, .ro, 0x0⟩]⟩,
  ⟨0x5401020, [(6, 0x100)], [⟨0, 32, .ro, 0x0⟩]⟩]

/-- Registers of block 27 (LSW), part 1. -/
def regRows27a : List RegRow := [
  ⟨0x5800000, [], [⟨0, 1, .rw, 0x1⟩]⟩,
  ⟨0x5800100, [(16, 0x4)], [⟨0, 32, .ro, 0x0⟩]⟩,
  ⟨0x5800200, [(16, 0x4)], [⟨0, 16, .ro, 0x0⟩]⟩,
  ⟨0x5800300, [(16, 0x4)], [⟨0, 32, .ro, 0x0⟩]⟩]

/-- The rows of one block, by the block numbers of 22 R602. -/
def regRows (block : Nat) : List RegRow :=
  match block with
  | 0 => regRows0a
  | 1 => regRows1a ++ regRows1b
  | 2 => regRows2a
  | 3 => regRows3a
  | 4 => regRows4a
  | 5 => regRows5a ++ regRows5b
  | 6 => regRows6a
  | 7 => regRows7a ++ regRows7b
  | 8 => regRows8a ++ regRows8b
  | 9 => regRows9a
  | 10 => regRows10a
  | 11 => regRows11a
  | 12 => regRows12a ++ regRows12b
  | 13 => regRows13a
  | 14 => regRows14a ++ regRows14b
  | 15 => regRows15a ++ regRows15b ++ regRows15c
  | 16 => regRows16a
  | 17 => regRows17a
  | 18 => regRows18a ++ regRows18b
  | 19 => regRows19a
  | 20 => regRows20a
  | 21 => regRows21a ++ regRows21b
  | 22 => regRows22a
  | 23 => regRows23a
  | 24 => regRows24a
  | 25 => regRows25a ++ regRows25b
  | 26 => regRows26a
  | 27 => regRows27a
  | _ => []

end Sys2Proof.Machine
end

