-- ==== Sys2Proof/Machine/State/Err.lean ====
section
/-! DEFINITION. State of the error log, the interrupts, the fatal handling and the Well log (18 R518-R541). -/

namespace Sys2Proof.Machine

open Sys2Proof

/-- One entry of the error log (18 R520). -/
structure ErrEntry where
  code : Nat
  sev : Nat
  firmware : Bool
  injected : Bool
  count : Nat
  firstNs : Nat
  firstSec : Nat
  last : Nat
  info : Nat
  deriving DecidableEq, Repr

/-- One MSI-X table entry; every entry is masked from reset (18 R527). -/
structure MsixEntry where
  addr : Nat
  data : Nat
  masked : Bool
  deriving DecidableEq, Repr

/-- How far the handling of a fatal error has gone (18 R533, R535). -/
inductive FatalPhase where
  /-- No fatal error. -/
  | running
  /-- Steps 1 to 3 done; the Well log or the freeze is due. -/
  | stopped
  /-- The Well log is being written. -/
  | dumping
  /-- Frozen: register reads and configuration requests only. -/
  | frozen
  deriving DecidableEq, Repr

structure ErrState where
  /-- The queue of at most 64 entries, head first. -/
  log : List ErrEntry
  /-- The newest entries of firmware's history ring of 16,384, oldest first (18 R522). -/
  history : List ErrEntry
  /-- The history ring has overwritten its oldest entry since Priming (20 R559). -/
  historyWrapped : Bool
  /-- MSI-X table, by device vector (02 R46). -/
  msix : Assoc MsixEntry
  /-- Functions whose MSI-X Enable is set. -/
  msixEnabled : List Nat
  /-- Functions whose Function Mask is set. -/
  functionMasked : List Nat
  /-- Device vectors with a message held in the PBA. -/
  pba : List Nat
  /-- Fault inputs whose stuck report has been made for the present assertion (18 R530). -/
  stuckReported : List Nat
  fatal : FatalPhase
  /-- The ROM writes the dump: firmware's section is unreadable (18 R540). -/
  romDump : Bool
  /-- Well log sections dealt with: type, flags, offset, length, CRC (18 R537). -/
  wellSections : List (Nat × Nat × Nat × Nat × Nat)
  deriving DecidableEq, Repr

end Sys2Proof.Machine
end

