-- ==== Sys2Proof/Machine/State/Fwu.lean ====
section
/-! DEFINITION. State of the image store, the update session and the handover (20 R558-R584). It lies in MRAM, or in the
management complex, and survives every reset unless a rule says otherwise. -/

namespace Sys2Proof.Machine

open Sys2Proof

/-- One image bank: its directory entry (20 R562) and its contents, the image delivered with the part when `bytes` is none. -/
structure ImageBank where
  state : Nat
  reason : Nat
  version : Nat
  length : Nat
  crc : Nat
  bytes : Option (List Byte)
  deriving DecidableEq, Repr

/-- The parameters of FWU_SESSION_START (20 R583). -/
structure SessionParams where
  full : Bool
  sourceVersion : Nat
  sourceCrc : Nat
  targetVersion : Nat
  targetLength : Nat
  targetCrc : Nat
  deltaLength : Nat
  deltaCrc : Nat
  count : Nat
  deriving DecidableEq, Repr

/-- An open session (20 R566): chunks stored, each with its CRC; the device time (s) of the last accepted command. -/
structure Session where
  id : Nat
  params : SessionParams
  holder : Nat
  holderChain : Nat
  chunks : Assoc (Nat × List Byte)
  last : Nat
  deriving DecidableEq, Repr

/-- Who waits for an operation: a ring command, or the mailbox. -/
inductive FwuCaller where
  | ring (c : Cmd)
  | mailbox
  deriving DecidableEq, Repr

/-- A handover in progress (20 R573-R577). -/
structure Handover where
  target : Nat
  /-- State and reason of the target bank before FWU_ACTIVATE (21 R587). -/
  before : Nat × Nat
  hostConfirm : Bool
  window : Nat
  /-- The caller, until the switch instant. -/
  caller : Option FwuCaller
  /-- The switch instant, in ns. -/
  switched : Nat
  selfOk : Bool
  hostOk : Bool
  /-- The old image follows (20 R576). -/
  oldFollows : Bool
  deriving DecidableEq, Repr

structure FwuState where
  bank0 : ImageBank
  bank1 : ImageBank
  running : Nat
  /-- The next SESSION_ID. -/
  nextId : Nat
  session : Option Session
  handover : Option Handover
  /-- Completions that wait for a FWU_ACTIVATE before them (20 R583): command, opcode, status, results. -/
  held : List (Cmd × Nat × Nat × Nat × Nat)
  /-- Instant (ns) of the last pulse of message source 3. -/
  chunkPulse : Option Nat
  deriving DecidableEq, Repr

end Sys2Proof.Machine
end

