-- ==== Sys2Proof/Machine/State/Gen.lean ====
section
/-! DEFINITION. State of the generation unit beyond its registers (03 R91-R124), and the versions every versioned table is
made of. Generation states, sequence numbers, drain counts, parser banks and margins have their home in the GEN registers. -/

namespace Sys2Proof.Machine

open Sys2Proof

/-- The generation tag of a version (03 R98). -/
structure Tag where
  addV : Bool
  addGen : Nat
  delV : Bool
  delGen : Nat
  deriving DecidableEq, Repr

/-- One version of an entry of a versioned table (03 R98). -/
structure Ver (α : Type) where
  tag : Tag
  val : α
  deriving DecidableEq, Repr

/-- The commit armed in the stamp points (03 R110, R114): the build, the generation before it, the instant in quarter
nanoseconds, and the stamp points that have switched (line port p: p; injection of slice s: 128 + s; direct injection: 144;
fabric receive of slice s: 145 + s). -/
structure Arm where
  build : Nat
  prev : Nat
  instant : Nat
  switched : List Nat
  deriving DecidableEq, Repr

/-- A journal walk waiting or running (03 R112, R118): the generation, and the GEN_ABANDON command it completes. -/
structure Walk where
  gen : Nat
  abandon : Option Cmd
  deriving DecidableEq, Repr

/-- A command of the generation unit that waits for the one before it (03 R122). -/
structure GenReq where
  opcode : Nat
  cmd : Cmd
  data : HostData
  late : List Nat
  deriving DecidableEq, Repr

/-- What the command that runs in the generation unit waits for. -/
inductive GenWait where
  /-- Table-changing commands that started before it (03 R107, R112). -/
  | tables (r : GenReq)
  /-- A retirement (03 R109); whether one has come. -/
  | retirement (r : GenReq) (seen : Bool)
  /-- The abandon walk (03 R112). -/
  | walk (r : GenReq)
  deriving DecidableEq, Repr

structure GenState where
  arm : Option Arm
  /-- Instant (ns) at which each DRAINING generation was superseded (03 R117, R120). -/
  superseded : Assoc Nat
  /-- DRAINING generations whose DRAIN_SLOW has been reported. -/
  slowReported : List Nat
  /-- Journal records of each generation and table, at 16 g + table (03 R104). -/
  journal : Assoc Nat
  walks : List Walk
  wait : Option GenWait
  queue : List GenReq
  deriving DecidableEq, Repr

end Sys2Proof.Machine
end

