-- ==== Sys2Proof/Machine/State/Hbm.lean ====
section
/-! DEFINITION. State of the HBM controllers beyond their registers (17 R496-R517). -/

namespace Sys2Proof.Machine

open Sys2Proof

/-- The controllers' state. A stack has the number 8 · die + k, with die 0 FE and 1 TM. -/
structure HbmState where
  /-- Activate counter tables, rows and counts in entry order (R506), at ((stack · 64 + pseudo-channel) · 16 + bank). -/
  act : Assoc (List (Nat × Nat))
  /-- Retries in a row of a channel's access, and retrains in a row (R507), at stack · 32 + channel. -/
  retries : Assoc Nat
  retrains : Assoc Nat
  /-- Uncorrectable errors of a stack in the present second (R512). -/
  ueSec : Assoc Nat
  /-- Poisoned units (R509): FE unit u at u, unit k of Cistern page g at 2^30 + 64 g + k. -/
  poison : List Nat
  deriving DecidableEq, Repr

end Sys2Proof.Machine
end

