-- ==== Sys2Proof/Machine/State/Host.lean ====
section
/-! DEFINITION. State of the host side: command engine (02 R67-R75), packet rings (02 R74-R77), buffer pools (02 R78-R81),
DMA engine (02 R82-R86), Iglan chain (02 R47-R57), and what the block emits. -/

namespace Sys2Proof.Machine

open Sys2Proof

/-- What the block emits, in the order it emits it (02 R62 for PCIe). -/
inductive Out where
  /-- A posted write to host memory. -/
  | hostWrite (addr : Nat) (bytes : List Byte)
  /-- An MSI-X message of a function's table entry (18 R527). -/
  | msix (function entry addr data : Nat)
  /-- A message delivered through the wellhead as this device's local vector (18 R528). -/
  | chainMessage (vector : Nat)
  /-- The answer to a host read, a JTAG read or an I3C read. -/
  | readData (bytes : List Byte)
  /-- The answer to a PCIe configuration request: retry status or the request's answer (02 R42). -/
  | configAnswer (retry : Bool)
  /-- A frame leaving a line port: port, bytes, transmit instant in ns, whether its end was cut with an error mark. -/
  | lineFrame (port : Nat) (bytes : List Byte) (errored : Bool)
  /-- A MAC control frame (04 R132, 11 R333) of a port. -/
  | macControl (port : Nat) (bytes : List Byte)
  /-- A preemption verify or response mPacket (13 R405). -/
  | verifyPacket (port : Nat) (response : Bool)
  /-- A FlexE overhead frame of a group (05 R162). -/
  | flexeOverhead (group phy : Nat) (fields : List Nat)
  /-- A FlexE management-channel packet sent (05 R163). -/
  | flexeMgmt (group channel : Nat) (bytes : List Byte)
  /-- A data cell on a fabric link (14 R415). -/
  | fabCell (link seq : Nat) (bytes : List Byte)
  /-- A control cell on a fabric link: acknowledgement, NAK, reachability (14 R415-R418). -/
  | fabControl (link : Nat) (kind : Nat) (value : Nat)
  /-- A credit status message (14 R427): destination device and port, source queue, TC and WEIGHT, state. -/
  | creditStatus (dst port queue tc weight : Nat) (on : Bool)
  /-- A credit grant or a rejection sent to a source (14 R426-R428). -/
  | creditGrant (src queue : Nat) (granted epoch : Nat) (rejected : Bool)
  /-- A chain discovery token (02 R49). -/
  | discovery (east : Bool)
  /-- A chain frame sent on the EAST or WEST link, by its source or onward (02 R51, R55). -/
  | chainFrame (east : Bool) (f : ChainFrame)
  /-- A write or a read of a chained device on PCIe, under the requester ID of a function (02 R51). -/
  | chainWrite (pf addr : Nat) (bytes : List Byte)
  | chainRead (pf addr n : Nat)
  /-- A pin driven to a level: PPS_OUT (15 R463), THERM_TRIP_N (16 R478). -/
  | pin (which : Nat) (level : Bool)
  /-- Bits shifted out of TDO (23 R620). -/
  | tdo (bits : Nat) (value : Nat)
  /-- The provisional ID that the I3C target sends during ENTDAA (23 R621). -/
  | i3cId (pid : Nat)
  /-- A NACK on the I3C bus (23 R621). -/
  | i3cNack
  deriving DecidableEq, Repr

/-- A command entry fetched from a ring: its opcode and fields (02 R63). -/
structure Entry where
  opcode : Nat
  cmd : Cmd
  deriving DecidableEq, Repr

/-- Fetched but not started units of one command ring (02 R67, R68). -/
structure CeRing where
  /-- Whole entries, in ring order. -/
  fetched : List Entry
  /-- Units of an entry whose last units have not come yet. -/
  part : List Byte
  /-- The ring's enable has been cleared and waits (02 R75). -/
  disabling : Bool
  deriving DecidableEq, Repr

/-- The command engine (02 R67-R73). -/
structure CeState where
  rings : Assoc CeRing
  /-- Commands in execution, each with its reserved completion slot, in start order. -/
  executing : List Entry
  /-- Records since the last interrupt of each completion queue. -/
  unsignalled : Assoc Nat
  /-- Completion queues whose COAL_TIME runs. -/
  coalescing : List Nat
  /-- Completion queues whose enable has been cleared and waits. -/
  cqDisabling : List Nat
  /-- CE_RESET waits for commands in execution (02 R70). -/
  resetPending : Bool
  /-- The completion queue in which the next command due to start found no slot (02 R71). -/
  stalled : Option Nat
  deriving DecidableEq, Repr

/-- A packet on its way to a receive ring (02 R76); one whose frame has not ended waits for the end. -/
structure RxPacket where
  id : Nat
  complete : Bool
  slice : Nat
  ring : Nat
  bytes : List Byte
  inPort : Nat
  reason : Nat
  truncated : Bool
  lenConflict : Bool
  gen : Nat
  stampSec : Nat
  stampNs : Nat
  cookie : Nat
  deriving DecidableEq, Repr

/-- An enabled buffer pool beyond its registers (02 R78-R80). -/
structure PoolState where
  /-- Offset of the first free bucket; 0xFFFF_FFFF_FFFF_FFFF when none. -/
  head : Nat
  /-- Requesters waiting, with the sizes asked. -/
  waiting : List (Nat × Nat)
  deriving DecidableEq, Repr

/-- What a DMA transfer does (02 R83). -/
inductive DmaOp where
  | copy (src dst : Nat) (srcDev dstDev : Bool)
  | fill (dst pattern : Nat) (dstDev : Bool)
  | compare (a b : Nat) (aDev bDev : Bool)
  deriving DecidableEq, Repr

/-- A DMA transfer in progress or waiting for its channel (02 R82). -/
structure Xfer where
  op : DmaOp
  length : Nat
  /-- Requester number of 02 R80, 8 for a host command (02 R86). -/
  requester : Nat
  tag : Nat
  cmd : Option Cmd
  deriving DecidableEq, Repr

/-- A DMA record due, waiting for the record queue (02 R82, R86). -/
structure DmaRecord where
  channel : Nat
  requester : Nat
  status : Nat
  tag : Nat
  bytesDone : Nat
  mismatch : Nat
  deriving DecidableEq, Repr

/-- The DMA engine. -/
structure DmaState where
  chans : Assoc (List Xfer)
  due : List DmaRecord
  /-- The record queue's enable has been cleared and waits (02 R75). -/
  rqDisabling : Bool
  deriving DecidableEq, Repr

/-- Host side of the block. -/
structure HostState where
  /-- Host-path packets waiting in the receive engine, oldest first (02 R76, R81). -/
  rx : List RxPacket
  /-- Packet rings whose enable has been cleared and waits: receive n, transmit 64 + n (02 R75). -/
  ringDisabling : List Nat
  /-- Requesters served from each pool: (pool, bucket offset, requester). -/
  buckets : List (Nat × Nat × Nat)
  pools : Assoc PoolState
  /-- The 8 MiB of host-path memory (02 R78); unlisted bytes read 0. -/
  mem : List Host.Cell
  /-- The PCIe configuration record has been loaded (02 R42). -/
  configLoaded : Bool
  /-- PERST# is asserted or the link is down (02 R42, 21 R589). -/
  linkDown : Bool
  deriving DecidableEq, Repr

/-- The Iglan chain as one device holds it (02 R47-R57). -/
structure ChainState where
  /-- Next sequence number accepted from each source chain ID. -/
  rxSeq : Assoc Nat
  /-- Next sequence number sent to each destination chain ID. -/
  txSeq : Assoc Nat
  /-- Frames that came before one of a lower number of their pair. -/
  early : List ChainFrame
  /-- Frames waiting for acknowledgement, each with the link it was sent on (EAST). -/
  unacked : List (Bool × ChainFrame)
  /-- Devices the last discovery found. -/
  found : List ChainDev
  /-- The active host has written IGL_RELEASE (02 R57). -/
  released : Bool
  /-- Device time (ns) since which the active wellhead has not been reachable (02 R57). -/
  lostSince : Option Nat
  /-- This device is the active wellhead. -/
  active : Bool
  /-- The standby host has taken over: host masters are 0x9 (02 R57, R88). -/
  hostIsStandby : Bool
  /-- Every host path is cut (02 R56). -/
  cutOff : Bool
  deriving DecidableEq, Repr

end Sys2Proof.Machine
end

