-- ==== Sys2Proof/Machine/State/Parser.lean ====
section
/-! DEFINITION. State of the parser beyond its registers (06 R180-R208): the four microcode banks. -/

namespace Sys2Proof.Machine

open Sys2Proof

/-- A microcode bank of 81,920 bytes (06 R183): the bytes written since, over an image that is all zeros, or over the
base image of the stepping (06 R204). -/
structure Bank where
  base : Bool
  bytes : Assoc Byte
  deriving DecidableEq, Repr

structure ParState where
  banks : Assoc Bank
  deriving DecidableEq, Repr

end Sys2Proof.Machine
end

