-- ==== Sys2Proof/Machine/State/Tables.lean ====
section
/-! DEFINITION. State of the lookup tables: prefix tables with next hops and ECMP groups (07), exact-match tables (08), CAM,
policers, action sets, replication groups and flow statistics (09), edit programs, mirror sessions, encapsulation
entries and header templates (10). -/

namespace Sys2Proof.Machine

open Sys2Proof

/-- Where a prefix version is stored (07 R211): a bucket of its length's table, a position of the default store, or a
position of the overflow store. -/
inductive LpmPlace where
  | bucket (position : Nat)
  | dflt (position : Nat)
  | overflow (position : Nat)
  deriving DecidableEq, Repr

/-- A prefix entry (07 R213). A bucket's index follows from the key (07 R212). -/
structure LpmEntry where
  family : Nat
  vrf : Nat
  len : Nat
  /-- The 128-bit prefix, aligned as ADDR of 07 R209. -/
  pfx : Nat
  rtype : Nat
  result : Nat
  cls : Nat
  place : LpmPlace
  /-- The entry fails parity (07 R236). -/
  bad : Bool
  deriving DecidableEq, Repr

/-- The hash table of one length (07 R212, R216): its size, and the buckets already split while it doubles. -/
structure LenTable where
  log2 : Nat
  split : Option Nat
  deriving DecidableEq, Repr

/-- The filter region of one length (07 R217-R219): its size, the keys (family, VRF, length and prefix as one number) set in it,
the keys counted since its creation or last rebuild, and a rebuild that runs (its new size) or waits. -/
structure FiltRegion where
  units : Nat
  keys : List Nat
  inserts : Nat
  rebuild : Option Nat
  overload : Bool
  deriving DecidableEq, Repr

/-- A version of a table indexed by number: the entry's bits in the spec's layout with VALID, tag and PARITY 0. -/
structure IdxVal where
  idx : Nat
  bits : Nat
  /-- The entry fails parity. -/
  bad : Bool
  deriving DecidableEq, Repr

/-- A member block of an ECMP or replication group (07 R229, 09 R283). -/
structure Block where
  base : Nat
  members : List Nat
  /-- Positions in the block whose member fails parity. -/
  bad : List Nat
  /-- Instant (ns) after which the block is free: it was replaced in place (07 R235). -/
  freeAt : Option Nat
  deriving DecidableEq, Repr

/-- An exact-match entry (08 R242). -/
structure ExmEntry where
  tbl : Nat
  key : Nat
  rkind : Nat
  result : Nat
  learned : Bool
  hit : Bool
  age : Nat
  /-- Space and position of its first position (08 R262): the cursor. -/
  cursor : Nat
  /-- Positions it takes: 1, 2 or 4. -/
  size : Nat
  bad : Bool
  /-- A removal by aging is pending (08 R256). -/
  aging : Bool
  deriving DecidableEq, Repr

/-- A request of the learn queue (08 R252). -/
structure LearnReq where
  move : Bool
  /-- TBL and K as the 384-bit key of 08 R239. -/
  key : Nat
  port : Nat
  deriving DecidableEq, Repr

/-- A move candidate (08 R255). -/
structure MoveCand where
  key : Nat
  port : Nat
  count : Nat
  deriving DecidableEq, Repr

/-- A policer (09 R286): tokens in units of 10⁻⁹ byte. -/
structure Policer where
  en : Bool
  mode : Nat
  cir : Nat
  xir : Nat
  cbs : Nat
  xbs : Nat
  lenAdj : Int
  tc : Nat
  tx : Nat
  last : Nat
  deriving DecidableEq, Repr

/-- A flow-statistics pair (09 R290). -/
structure FlowPair where
  packets : Nat
  bytes : Nat
  deriving DecidableEq, Repr

/-- A CAM move in progress (09 R272). -/
structure CamMove where
  first : Nat
  last : Nat
  down : Bool
  cmd : Cmd
  deriving DecidableEq, Repr

/-- The fields of an exact-match window operation in progress (08 R265). -/
structure WinOp where
  op : Nat
  gen : Nat
  master : Nat
  deriving DecidableEq, Repr

structure TabState where
  lpm : List (Ver LpmEntry)
  /-- Length tables and filter regions, by 256 FAMILY + LENGTH. -/
  lens : Assoc LenTable
  filt : Assoc FiltRegion
  nh : List (Ver IdxVal)
  ecmp : List (Ver IdxVal)
  ecmpBlocks : List Block
  exm : List (Ver ExmEntry)
  learnQ : List LearnReq
  moveCands : List MoveCand
  cam : List (Ver IdxVal)
  /-- Slots whose copy fails parity: 16 slot + slice (09 R293). -/
  camBad : List Nat
  camMove : Option CamMove
  /-- CAM_MOVE commands and walks that wait for the move (09 R273). -/
  camWaiting : List (CamMove)
  act : List (Ver IdxVal)
  polb : List (Ver IdxVal)
  repl : List (Ver IdxVal)
  replBlocks : List Block
  edit : List (Ver IdxVal)
  mirror : List (Ver IdxVal)
  encap : List (Ver IdxVal)
  tmpl : List (Ver IdxVal)
  pol : Assoc Policer
  /-- Flow counters in HBM, and the increments in the cache (09 R291). -/
  fst : Assoc FlowPair
  fstCache : Assoc FlowPair
  /-- Increments on their way to HBM in the write-back queue. -/
  fstQueue : List (Nat × FlowPair)
  /-- Masters that started the shadow walks of LPM, EXM and CAM with REPAIR (07 R238). -/
  shadowMaster : Assoc Nat
  /-- A write that the CAM move holds back (09 R273): opcode, command. -/
  camHeld : List (Nat × Cmd)
  deriving DecidableEq, Repr

end Sys2Proof.Machine
end

