-- ==== Sys2Proof/Machine/State/Tm.lean ====
section
/-! DEFINITION. State of the TM die: packets with their metadata record (10 R299), buffering (11), queues, scheduler and shapers (12),
deadline unit and gate lists (13), fabric interface and local switch (14). -/

namespace Sys2Proof.Machine

open Sys2Proof

/-- The metadata record in its crossing form (10 R299); `cookie` is PASS_COOKIE of the recirculation form, and
`stampSec` the stamp's seconds in full, of which the record holds the low 16 bits. -/
structure Meta where
  stampNs : Nat
  stampQns : Nat
  stampSec : Nat
  gen : Nat
  pass : Nat
  express : Bool
  color : Nat
  tc : Nat
  remarkEn : Bool
  dscp : Nat
  flags : Nat
  inPort : Nat
  inClient : Nat
  pktLen : Nat
  queue : Nat
  destDev : Nat
  destPort : Nat
  encap : Nat
  offL3 : Nat
  offL4 : Nat
  offInner : Nat
  l3Kind : Nat
  ptpOp : Nat
  ptpOff : Nat
  session : Nat
  copyKind : Nat
  ldt : Nat
  cookie : Nat
  deriving DecidableEq, Repr

/-- A packet on its way, without FCS: its record, its bytes, whether its end has come, whether it carries an error mark (13 R388), and
the late verdict of the release check (13 R391). -/
structure Pkt where
  id : Nat
  md : Meta
  bytes : List Byte
  complete : Bool
  errored : Bool
  late : Bool
  /-- A unit of it met an uncorrectable error after its release: what receives it discards it whole (11 R335). -/
  poison : Bool
  /-- MAX_FRAME of the ingress port or client, for the charge of an unfinished packet (13 R386). -/
  maxFrame : Nat
  /-- The port rate in Mb/s the packet arrived at; 0 for host-injected packets (13 R387). -/
  inRate : Nat
  /-- It came through the fabric-receive input (11 R329, 14 R430). -/
  fromFabric : Bool
  /-- It carries an LDT on this device (13 R383, R391). -/
  ldtV : Bool
  /-- Directly injected: transmit ring and the slots of its descriptors that are written back (02 R77). -/
  direct : Option (Nat × List Nat)
  /-- The link it leaves by once released: line port p, client c at 128 + c, 384 fabric. -/
  link : Nat
  deriving DecidableEq, Repr

/-- Where a queued packet lies (11 R317-R324). -/
inductive Where where
  | shared | expressReserve | refill | cistern
  deriving DecidableEq, Repr

/-- A packet admitted to a queue: its charge (11 R326), the port node and class charged, the line port of its ingress account (11
R332), where it lies, and whether it holds an uncorrectable error (11 R335). -/
structure QPkt where
  pkt : Pkt
  charge : Nat
  node : Nat
  acct : Option Nat
  place : Where
  bad : Bool
  deriving DecidableEq, Repr

/-- A page of a queue's segment: page index and bytes written; all but the last are closed (11 R319, R337). -/
structure Page where
  index : Nat
  fill : Nat
  deriving DecidableEq, Repr

/-- A queue (11 R323, 12 R355). -/
structure Queue where
  attached : Bool
  /-- The descriptor of 12 R355, 126 bits. -/
  desc : Nat
  /-- Admission entry (11 R326). -/
  admEn : Bool
  profile : Nat
  spilled : Bool
  epoch : Nat
  /-- Packets in queue order: those in the Sump, then the segment. -/
  pkts : List QPkt
  pages : List Page
  /-- Bytes of the head page already read. -/
  headRead : Nat
  /-- The tail page is closed (11 R337). -/
  tailClosed : Bool
  /-- Detach with FLUSH waits (12 R377). -/
  detaching : Bool
  /-- Weighted-group state in the parent (12 R363, R364). -/
  deficit : Int
  sTag : Nat
  fTag : Nat
  backlogged : Bool
  /-- Fabric credit (14 R427, R428): balance, ON sent, REJECTED, epoch and last GRANTED accepted. -/
  balance : Nat
  onSent : Bool
  rejected : Bool
  epochSeen : Nat
  granted : Nat
  deriving DecidableEq, Repr

/-- A scheduler node of levels 0 to 3 (12 R350-R354, R363, R364). -/
structure Node where
  attached : Bool
  desc : Nat
  ptr : Nat
  inTurn : Bool
  vtime : Nat
  deficit : Int
  sTag : Nat
  fTag : Nat
  backlogged : Bool
  deriving DecidableEq, Repr

/-- A shaper or yield bucket (12 R366): tokens in 10⁻⁹ byte. -/
structure Shaper where
  en : Bool
  zero : Bool
  rate : Nat
  burst : Nat
  t : Int
  last : Nat
  deriving DecidableEq, Repr

/-- An admission profile (11 R330), in KiB. -/
structure AdmProfile where
  limitG : Nat
  limitY : Nat
  limitR : Nat
  min : Nat
  spill : Nat
  spillMin : Nat
  deriving DecidableEq, Repr

/-- A fence region (11 R321, R340). -/
structure Region where
  state : Nat
  held : Bool
  bump : Nat
  free : List Nat
  /-- Pages allocated and not yet freed. -/
  used : Nat
  /-- The stack is being taken out by plan (11 R344). -/
  leaving : Bool
  deriving DecidableEq, Repr

/-- A BUF_FENCE command that waits: the regions it names and the state they must reach. -/
structure FenceWait where
  cmd : Cmd
  regions : List Nat
  target : Nat
  deriving DecidableEq, Repr

/-- What a running flush completes (11 R338). -/
inductive FlushOwner where
  | flush (cmd : Cmd)
  | detach (cmd : Cmd) (queue : Nat)
  | port (p : Nat)
  deriving DecidableEq, Repr

/-- A running flush: its owner, packets dropped, pages still to be walked. -/
structure Flush where
  owner : FlushOwner
  count : Nat
  pages : List Nat
  deriving DecidableEq, Repr

/-- A deadline profile (13 R381). -/
structure DlnProfile where
  budget : Nat
  lateAct : Nat
  markKind : Nat
  lateDscp : Nat
  deriving DecidableEq, Repr

/-- One gate-list bank (13 R398). -/
structure GateBank where
  entries : Assoc Nat
  cycle : Nat
  ext : Nat
  length : Nat
  base : Nat
  deriving DecidableEq, Repr

/-- The gate lists of a port (13 R398-R403). -/
structure GateState where
  bankA : GateBank
  bankB : GateBank
  /-- A list has been switched in. -/
  running : Bool
  /-- The pending or last CCT, in ns. -/
  cct : Nat
  deriving DecidableEq, Repr

/-- A frame in a port's transmit FIFO (13 R394). -/
structure TxFrame where
  pkt : Pkt
  /-- Order of entry at the port. -/
  seq : Nat
  /-- Its wait under 13 R400 has been counted. -/
  deferred : Bool
  /-- Bytes sent before it was preempted. -/
  sent : Nat
  deriving DecidableEq, Repr

/-- The transmit stage of a port (13 R390, R394, R405). -/
structure PortTx where
  express : List TxFrame
  classes : Assoc (List TxFrame)
  nextSeq : Nat
  /-- A preemptable frame cut by an express frame waits for its rest. -/
  preempted : Option TxFrame
  /-- A cut-through frame in transmission whose end has not come (13 R387). -/
  sending : Option TxFrame
  attempts : Nat
  deriving DecidableEq, Repr

/-- A packet in a virtual output queue of the local switch (14 R435): bytes already sent. -/
structure VoqPkt where
  qp : QPkt
  sent : Nat
  deriving DecidableEq, Repr

/-- A cell as the sender keeps it (14 R415-R417): a data cell, with the packet it belongs to, or a credit or status message. -/
structure FabCell where
  level : Nat
  src : Nat
  dst : Nat
  e2e : Nat
  express : Bool
  first : Bool
  last : Bool
  err : Bool
  payload : List Byte
  pktId : Nat
  msg : Option Out
  deriving DecidableEq, Repr

/-- A fabric link beyond its registers (14 R414-R418). -/
structure FabLink where
  /-- Next LINK_SEQ to send, next expected. -/
  txSeq : Nat
  rxSeq : Nat
  /-- Unacknowledged entries, oldest first. -/
  replay : List (Nat × FabCell)
  /-- Consecutive NAKs of one LINK_SEQ. -/
  nakSeq : Nat
  nakRun : Nat
  /-- Devices its reachability bit is set for; runs of cells that name, and that omit, a device. -/
  reach : List Nat
  named : Assoc Nat
  omitted : Assoc Nat
  /-- A reachability cell has come since UP_WAIT began (14 R419). -/
  reachSeen : Bool
  /-- UP_HOLD_MS has passed in UP_WAIT. -/
  holdDone : Bool
  /-- Cells received since the last acknowledgement sent. -/
  unacked : Nat
  deriving DecidableEq, Repr

/-- A reorder context (14 R423): next number expected, the cells that wait, the packet being rebuilt, whether it carries an error,
and whether cells are passed over until the next first cell. -/
structure Reorder where
  next : Nat
  waiting : Assoc FabCell
  current : Option Nat
  err : Bool
  skipping : Bool
  deriving DecidableEq, Repr

/-- A credit flow at the destination (14 R426). -/
structure CFlow where
  src : Nat
  queue : Nat
  port : Nat
  tc : Nat
  weight : Nat
  on : Bool
  epoch : Nat
  granted : Nat
  deficit : Int
  deriving DecidableEq, Repr

/-- Deficit and round-robin state of a port's credit generation (14 R431). -/
structure CreditState where
  tokens : Int
  last : Nat
  stopped : Bool
  tcPtr : Nat
  tcInTurn : Bool
  tcDeficit : Assoc Int
  flowPtr : Assoc Nat
  flowInTurn : Assoc Bool
  deriving DecidableEq, Repr

structure TmState where
  nextId : Nat
  /-- Packets waiting at the inputs of 11 R329: slice 0 to 15, fabric receive 16, direct injection 17. -/
  inputs : Assoc (List Pkt)
  queues : Assoc Queue
  nodes : Assoc Node
  shapers : Assoc Shaper
  /-- TM-side policers, and whether each is colour-aware (12 R375). -/
  tmpol : Assoc Policer
  tmpolAware : List Nat
  profiles : Assoc AdmProfile
  /-- Limits of 11 R331 in KiB; unlisted ones are at reset. Port-class 8p + k, port p, class k. -/
  limitPc : Assoc Nat
  limitP : Assoc Nat
  limitC : Assoc Nat
  /-- XOFF_KB and XON_KB of port p, class k at 8p + k (11 R333). -/
  pfcLimit : Assoc (Nat × Nat)
  /-- Released packets not departed, with their place and charge. -/
  leaving : List QPkt
  /-- Released packets of FABRIC nodes not yet cut into cells, in release order (13 R387). -/
  cutQ : List QPkt
  /-- Cells kept for unacknowledged fabric cells: packet, partition, cells (14 R417). -/
  kept : List (Nat × Where × Nat)
  regions : Assoc Region
  /-- Position in the rotation of page allocation (11 R321). -/
  rotation : Nat
  /-- Pages awaiting the sweep (11 R336). -/
  scavenge : List Nat
  fenceWaits : List FenceWait
  flushes : List Flush
  /-- Queues with a refill read outstanding (11 R324). -/
  refilling : List Nat
  /-- Counters selected by BUF_SEL KIND 3: 16 p + reason (11 R346). -/
  portDrops : Assoc Nat
  /-- Destination map (12 R357): QBASE + 2^20 VALID + 2^21 STRIDE_8. -/
  qmap : Assoc Nat
  /-- The port node that decisions start from (12 R360). -/
  decisionPtr : Nat
  dlnProf : Assoc DlnProfile
  dlnMap : Assoc Nat
  gates : Assoc GateState
  ptx : Assoc PortTx
  /-- DLN counters (13): 32 obj + counter, ports above 4,096; and their one-second copies. -/
  dlnCnt : Assoc Nat
  dlnLatch : Assoc Nat
  /-- Virtual output queues at ((i × 16 + o) × 4 + level). -/
  voq : Assoc (List VoqPkt)
  gptr : Assoc Nat
  aptr : Assoc Nat
  /-- Packets rebuilt at the egress side of a slice, oldest first (14 R437). -/
  egressIn : Assoc (List Pkt)
  links : Assoc FabLink
  /-- Next E2E_SEQ to send, at 2 d + express; 1 + the link of the last non-express cell to a device. -/
  e2e : Assoc Nat
  spray : Assoc Nat
  /-- Cells waiting for a link, oldest first. -/
  cellWait : List FabCell
  reorder : Assoc Reorder
  cflows : List CFlow
  credits : Assoc CreditState
  /-- Express buckets per destination device (14 R432). -/
  expBuckets : Assoc Shaper
  /-- Devices with a usable link (14 R422). -/
  reachable : List Nat
  /-- Last EPOCH given to a flow of source device and queue (14 R426). -/
  epochs : Assoc Nat
  selfDestSeen : Bool
  deriving DecidableEq, Repr

end Sys2Proof.Machine
end

