-- ==== Sys2Proof/Machine/State/Path.lean ====
section
/-! DEFINITION. State of the packet path on the FE die: the slices' hold buffers, passes, recirculation and injection FIFOs, the replication
queues (01 R23-R25, 07 R223-R226, 10 R301, R312), and the updates that wait for a frame's end (13 R385). -/

namespace Sys2Proof.Machine

open Sys2Proof

/-- A pass in the ingress half of a slice: its packet, the probes it issues, and whether they are issued (07 R223, R224). -/
structure Pass where
  pkt : Pkt
  probes : Nat
  /-- Those of `probes` that are exact-match ones. -/
  em : Nat
  issued : Bool
  deriving DecidableEq, Repr

/-- A flood packet that waits for the replication engine (10 R312): its group, and the QUEUE attribute with Q_ABS, when set. -/
structure ReplReq where
  pkt : Pkt
  group : Nat
  queue : Option (Bool × Nat)
  deriving DecidableEq, Repr

/-- One slice of the FE die. -/
structure SliceState where
  /-- The hold buffer: first passes, in arrival order. -/
  hold : List Pkt
  passes : List Pass
  recirc : List Pkt
  /-- Recirculation records that wait for their frame's end or for the loop's latency. -/
  recircWait : List Pkt
  inject : List Pkt
  repl : List ReplReq
  /-- Probes of the passes that reached the issue point in the present CLK_FE cycle. -/
  cycle : Nat
  /-- Slots used or withheld in the present cycle, and whether it is the second of a pair of cycles of CAM step 1 (09 R274). -/
  grants : Nat
  odd : Bool
  /-- The slice is frozen (07 R224). -/
  frozen : Bool
  deriving DecidableEq, Repr

/-- Updates of a pass that wait for the end of its frame (13 R385): the bits of the bindings, PRECOLOR, and the counter. -/
structure Deferred where
  id : Nat
  pol0 : Option Nat
  pol1 : Option Nat
  precolor : Nat
  stat : Option Nat
  deriving DecidableEq, Repr

structure PathState where
  slices : Assoc SliceState
  /-- Copies made before their frame's end: frame, copy, whether it is a copy of the forwarded packet (flood). -/
  follow : List (Nat × Nat × Bool)
  deferred : List Deferred
  deriving DecidableEq, Repr

end Sys2Proof.Machine
end

