-- ==== Sys2Proof/Machine/State/Pmc.lean ====
section
/-! DEFINITION. State of the counter banks beyond their registers (19 R542-R557): the counters, their one-second copies, and the
start or stop that waits for its instant. -/

namespace Sys2Proof.Machine

open Sys2Proof

/-- A start (OP 1) or stop (OP 2) of the named banks, and its instant A in ns of device time (19 R550). -/
structure PmcRun where
  op : Nat
  banks : Nat
  instant : Nat
  deriving DecidableEq, Repr

structure PmcState where
  /-- Counter n of bank b at 2,048 b + n; 48 bits. -/
  cnt : Assoc Nat
  /-- The copies of the last tick (19 R555). -/
  lat : Assoc Nat
  run : Option PmcRun
  deriving DecidableEq, Repr

end Sys2Proof.Machine
end

