-- ==== Sys2Proof/Machine/State/Ports.lean ====
section
/-! DEFINITION. State of the line ports and FlexE clients beyond their registers (04 R125-R149, 05 R150-R179). -/

namespace Sys2Proof.Machine

open Sys2Proof

/-- A frame whose start has been received and whose end has not (04 R130, 13 R385): its packet (none when it reached no slice), its
length from the destination address to the FCS, whether it is a MAC control frame, and whether its start came while receive was off. -/
structure RxFrame where
  id : Option Nat
  len : Nat
  control : Option Nat
  off : Bool
  deriving DecidableEq, Repr

/-- A management-channel packet (05 R163). -/
structure MgmtPkt where
  channel : Nat
  bytes : List Byte
  deriving DecidableEq, Repr

/-- The FXE_CAL_SWITCH that waits on a group (05 R164): its command, the requested instant (none: ASAP), whether the other group goes
with it, whether boundary M1 has passed, and when CA was received. -/
structure CalSwitch where
  cmd : Cmd
  instant : Option Nat
  pair : Bool
  atM1 : Bool
  caAt : Option Nat
  deriving DecidableEq, Repr

/-- A FlexE group beyond its registers (05 R150-R170). -/
structure FlexeGroup where
  /-- Calendar pages: slot i of page g at 2 i + g, sent and received. -/
  txCal : Assoc Nat
  rxCal : Assoc Nat
  /-- The sent pages as the overhead carries them since the last multiframe boundary (R162). -/
  txSnap : Assoc Nat
  switch : Option CalSwitch
  /-- CR returns to 0 in the next overhead frame (R165). -/
  crClear : Bool
  /-- Management packets received, oldest first. -/
  mgmt : List MgmtPkt
  deriving DecidableEq, Repr

/-- What one 100G instance of a PHY has received of the overhead (05 R164, R168, R169): runs of good and bad checks, and the
calendars. -/
structure OhState where
  lofBad : Nat
  lofGood : Nat
  lomBad : Nat
  lomGood : Nat
  rpf1 : Nat
  rpf0 : Nat
  gidBad : Nat
  gidGood : Nat
  pidBad : Nat
  /-- The PHY number and map of the multiframe in progress have matched so far; an unequal map has been seen in it. -/
  pidClean : Bool
  mapBad : Bool
  calBad : Nat
  calGood : Nat
  crcBad : Nat
  crcGood : Nat
  /-- Consecutive good-CRC frames with CA = 1 (R164). -/
  caRun : Nat
  /-- Raw defects before masking, bit d as in R169. -/
  raw : Nat
  /-- Received entries: slot k of page g at 2 k + g; whether frames 0 to 19 of the multiframe in progress all had a good CRC. -/
  cal : Assoc Nat
  calClean : Bool
  /-- The received standby page matched the local one, and that of the multiframe before, in one complete multiframe. -/
  standbyOk : Bool
  calPrev : Assoc Nat
  standbyTwice : Bool
  deriving DecidableEq, Repr

structure PortsState where
  /-- State left on entering UP_WAIT, of port p and client c at 128 + c (04 R137). -/
  before : Assoc Nat
  /-- Ports and clients (128 + c) whose ACTION was KEEP when they entered DOWN (04 R138). -/
  downKeep : List Nat
  /-- MIB counters and their one-second copies: 256 port + counter (04 R147). -/
  mib : Assoc Nat
  mibLatch : Assoc Nat
  /-- Counters of FlexE clients and groups, and copies. -/
  fxeCnt : Assoc Nat
  fxeLatch : Assoc Nat
  rx : Assoc RxFrame
  /-- Ports whose hold-off runs; clients at 128 + c. -/
  holdoff : List Nat
  groups : Assoc FlexeGroup
  /-- Overhead received, instance j of port p at 8 p + j. -/
  oh : Assoc OhState
  /-- Client requests in force, as the op of FXE_PROT_OP; 0 none (05 R176). -/
  protReq : Assoc Nat
  /-- Clients whose selector went to protection for a signal fail (05 R176). -/
  selForSf : List Nat
  /-- Clients whose wait-to-restore runs. -/
  wtr : List Nat
  /-- Ports whose calibration runs. -/
  portCal : List Nat
  /-- Ports whose next up declaration waits for a calibration (04 R146). -/
  uncal : List Nat
  /-- Signal-fail hold-offs that have run out: 2 client + path (05 R176). -/
  sfHeld : List Nat
  deriving DecidableEq, Repr

end Sys2Proof.Machine
end

