-- ==== Sys2Proof/Machine/State/Power.lean ====
section
/-! DEFINITION. State of the PWR block beyond its registers (16 R470-R495). Domain states, the governor's terms, feed states
and their counters have their home in the PWR registers. -/

namespace Sys2Proof.Machine

open Sys2Proof

structure PwrState where
  /-- Energy bucket E, in units of 0.125 µJ (R480). -/
  energy : Nat
  /-- Sum and number of the P samples since the last evaluation (R481). -/
  sumP : Nat
  countP : Nat
  /-- Consecutive samples at or above each of the thresholds 95, 100 and 105 °C (R477). -/
  rise1 : Nat
  rise2 : Nat
  rise3 : Nat
  /-- Consecutive samples below the current step's threshold less the hysteresis (R477). -/
  fall : Nat
  /-- Consecutive samples at or above 115 °C (R478). -/
  tripRun : Nat
  /-- Every domain except AON is off after a trip (R478). -/
  tripped : Bool
  /-- THERM_TRIP_N is asserted (R478, 23 R618). -/
  thermTrip : Bool
  /-- Every domain is off after an input collapse (R490). -/
  collapsed : Bool
  /-- Credit of each background task by number, in millionths of the task's unit (R485). -/
  credit : Assoc Nat
  /-- Evaluations left without a fence request after a hardware unfence (R487). -/
  fenceHoldoff : Nat
  /-- PWR_DOMAIN commands that wait for their domain, by domain (R471). -/
  domWaiting : Assoc Cmd
  /-- NO_STANDBY has been reported since a feed last became GOOD (R490). -/
  noStandbySeen : Bool
  /-- Instant (ns of the stamping view) at which the last feed transfer completed (R493). -/
  lastXfer : Option Nat
  deriving DecidableEq, Repr

end Sys2Proof.Machine
end

