-- ==== Sys2Proof/Machine/State/Reset.lean ====
section
/-! DEFINITION. State of reset, Priming, straps and pins (21 R585-R596, 23 R618-R621). -/

namespace Sys2Proof.Machine

open Sys2Proof

/-- The JTAG instructions (23 R620). -/
inductive JtagInstr where
  | idcode | bypass | samplePreload | extest | extestPulse | extestTrain | clamp | highz | regAccess
  deriving DecidableEq, Repr

structure RstState where
  /-- CHAIN_ID[5:0] and PRIME_HOLD as the balls stand, and as sampled at POR_N deassertion (21 R585). -/
  strapChain : Nat
  strapHold : Bool
  /-- POR_N is low. -/
  porLow : Bool
  /-- A release has been accepted and READY is due (21 R594). -/
  released : Bool
  /-- A device reset is held while Tmax is 95 °C or more (16 R478): the master and the cause. -/
  heldReset : Option (Nat × Nat)
  /-- Firmware has started in Priming (18 R534). -/
  firmwareUp : Bool
  /-- The TAP's instruction (23 R620). -/
  jtag : JtagInstr
  /-- The instruction holds the balls: it was loaded while POR_N was low. -/
  jtagHolds : Bool
  /-- The I3C dynamic address, none until ENTDAA (23 R621). -/
  i3cAddr : Option Nat
  /-- The I3C register pointer. -/
  i3cPtr : Nat
  deriving DecidableEq, Repr

end Sys2Proof.Machine
end

