-- ==== Sys2Proof/Machine/State/Time.lean ====
section
/-! DEFINITION. State of the TIM block (15 R441-R469): the two device-time domains, stamp FIFOs, PPS, SyncE. -/

namespace Sys2Proof.Machine

open Sys2Proof

/-- A slew in progress (15 R452): offset in ns, cycles left, rate in 2^-56 ns a cycle, remainder of the last cycle. -/
structure Slew where
  delta : Int
  total : Nat
  left : Nat
  sigma : Int
  rest : Int
  deriving DecidableEq, Repr

/-- One device-time domain (15 R442, R445, R449). -/
structure TimeDomain where
  sec : Nat
  ns : Nat
  /-- Units of 2^-56 ns. -/
  frac : Nat
  rho : Int
  drift : Int
  slew : Option Slew
  /-- Stepped since READY. -/
  set : Bool
  /-- A step is permitted. -/
  permit : Bool
  deriving DecidableEq, Repr

/-- One transmit stamp FIFO entry (15 R460). -/
structure TxStamp where
  fastNs : Nat
  qns : Nat
  msgType : Nat
  domainNumber : Nat
  sequenceId : Nat
  dom : Nat
  deriving DecidableEq, Repr

/-- The lane of CLK_TIME the TM copy runs from (01 R30). -/
inductive TmClock where
  | module0 | module12 | holding
  deriving DecidableEq, Repr

structure TimState where
  dom0 : TimeDomain
  dom1 : TimeDomain
  /-- Transmit stamp FIFO of each line port. -/
  txts : Assoc (List TxStamp)
  tmClock : TmClock
  /-- CLK_TIME lanes of modules 0 and 12 that carry the clock. -/
  laneUp0 : Bool
  laneUp12 : Bool
  /-- PPS outputs with a pulse active. -/
  ppsActive : List Nat
  deriving DecidableEq, Repr

end Sys2Proof.Machine
end

