-- ==== Sys2Proof/Machine/State.lean ====
section
/-! DEFINITION. The state of the block, the reasons a command can stop, and the state after a power-on reset. -/

namespace Sys2Proof.Machine

open Sys2Proof

/-- Reasons a command ends in a fault. There is none: every command of the table has an effect. -/
inductive Fault where
  deriving DecidableEq, Repr

/-- Reasons a command is refused. -/
inductive Refusal where
  /-- Raised by the dispatch of a command that has no meaning yet, which it names. Safe: such a command takes no step. No command of the
  table is refused. -/
  | notModelled (mnemonic : String)
  deriving DecidableEq, Repr

/-- The block. Registers have their home in `regs`, where a register at its power-on value is not listed; what the spec gives the
block beyond its registers lies in the other fields, chapter by chapter. -/
structure State where
  /-- Registers by BAR0 offset (22 R602, R610). -/
  regs : Assoc Word
  /-- What the block has emitted on its outside interfaces, oldest first. -/
  outs : List Out
  /-- Command engine (02 R63-R73). -/
  ce : CeState
  /-- Packet rings, buffer pools, host-path memory, endpoint (02 R41-R46, R74-R81). -/
  host : HostState
  /-- DMA engine (02 R82-R86). -/
  dma : DmaState
  /-- Iglan chain (02 R47-R57). -/
  chain : ChainState
  /-- Error log, interrupts, fatal handling, Well log (18). -/
  err : ErrState
  /-- Device time (15). -/
  tim : TimState
  /-- Power, temperature, feeds (16). -/
  pwr : PwrState
  /-- Reset, Priming, straps, test and sideband ports (21, 23). -/
  rst : RstState
  /-- Performance counters (19). -/
  pmcs : PmcState
  /-- HBM controllers (17). -/
  hbm : HbmState
  /-- Image store and update (20). -/
  fwu : FwuState
  /-- Generations (03). -/
  gen : GenState
  /-- Parser microcode banks (06). -/
  par : ParState
  /-- Versioned tables, policers and flow statistics (07, 08, 09, 10). -/
  tab : TabState
  /-- Buffers, queues, scheduler, deadline unit, fabric interface and local switch (11, 12, 13, 14). -/
  tm : TmState
  /-- Line ports and FlexE (04, 05). -/
  ports : PortsState
  /-- Packets in the slices of the FE die (01, 10). -/
  path : PathState
  /-- The model's own: free values drawn so far. -/
  freeSeq : Nat
  /-- The commands that wait, first in, first out. -/
  pending : List Instr
  deriving DecidableEq, Repr

/-! ### The state after a power-on reset, chapter by chapter -/

def ceReset : CeState :=
  { rings := [], executing := [], unsignalled := [], coalescing := [], cqDisabling := [], resetPending := false, stalled := none }

def hostReset : HostState :=
  { rx := [], ringDisabling := [], buckets := [], pools := [], mem := [], configLoaded := false, linkDown := false }

def dmaReset : DmaState := { chans := [], due := [], rqDisabling := false }

def chainReset : ChainState :=
  { rxSeq := [], txSeq := [], early := [], unacked := [], found := [], released := false, lostSince := none, active := false
    hostIsStandby := false, cutOff := false }

def errReset : ErrState :=
  { log := [], history := [], historyWrapped := false, msix := [], msixEnabled := [], functionMasked := [], pba := [], stuckReported := []
    fatal := .running, romDump := false, wellSections := [] }

/-- A domain of device time as 15 R445 gives it. -/
def timeZero : TimeDomain :=
  { sec := 0, ns := 0, frac := 0, rho := 0, drift := 0, slew := none, set := false, permit := true }

def timReset : TimState :=
  { dom0 := timeZero, dom1 := timeZero, txts := [], tmClock := .module0, laneUp0 := true, laneUp12 := true, ppsActive := [] }

def pwrReset : PwrState :=
  { energy := 0, sumP := 0, countP := 0, rise1 := 0, rise2 := 0, rise3 := 0, fall := 0, tripRun := 0, tripped := false, thermTrip := false
    collapsed := false, credit := [], fenceHoldoff := 0, domWaiting := [], noStandbySeen := false, lastXfer := none }

def rstReset : RstState :=
  { strapChain := 0, strapHold := false, porLow := false, released := false, heldReset := none, firmwareUp := false
    jtag := .idcode, jtagHolds := false, i3cAddr := none, i3cPtr := 0 }

def pmcsReset : PmcState := { cnt := [], lat := [], run := none }

def hbmReset : HbmState := { act := [], retries := [], retrains := [], ueSec := [], poison := [] }

/-- The number whose little-endian bytes are bytes `i` to `i + n - 1` of the image delivered with the part. -/
def factoryLe (i : Nat) : Nat → Nat
  | 0 => 0
  | n + 1 => (Config.factoryImage i).toNat + 256 * factoryLe (i + 1) n

/-- The image store as the part is delivered: bank 0 holds an image, bank 1 none. -/
def fwuReset : FwuState :=
  { bank0 := { state := 3, reason := 0, version := factoryLe 8 4, length := factoryLe 16 4, crc := factoryLe 20 4, bytes := none }
    bank1 := { state := 0, reason := 0, version := 0, length := 0, crc := 0, bytes := some [] }
    running := 0, nextId := 1, session := none, handover := none, held := [], chunkPulse := none }

def genReset : GenState := { arm := none, superseded := [], slowReported := [], journal := [], walks := [], wait := none, queue := [] }

/-- The four microcode banks: bank 0 holds the base microcode (06 R204). -/
def parReset : ParState := { banks := [(0, ⟨true, []⟩)] }

def tabReset : TabState :=
  { lpm := [], lens := [], filt := [], nh := [], ecmp := [], ecmpBlocks := [], exm := [], learnQ := [], moveCands := [], cam := [], camBad := []
    camMove := none, camWaiting := [], act := [], polb := [], repl := [], replBlocks := [], edit := [], mirror := [], encap := [], tmpl := []
    pol := [], fst := [], fstCache := [], fstQueue := [], shadowMaster := [], camHeld := [] }

def tmReset : TmState :=
  { nextId := 1, inputs := [], queues := [], nodes := [], shapers := [], tmpol := [], tmpolAware := [], profiles := [], limitPc := []
    limitP := [], limitC := [], pfcLimit := [], leaving := [], cutQ := [], kept := [], regions := [], rotation := 0, scavenge := []
    fenceWaits := [], flushes := [], refilling := [], portDrops := [], qmap := [], decisionPtr := 0, dlnProf := [], dlnMap := [], gates := []
    ptx := [], dlnCnt := [], dlnLatch := [], voq := [], gptr := [], aptr := [], egressIn := [], links := [], e2e := [], spray := []
    cellWait := [], reorder := [], cflows := [], credits := [], expBuckets := [], reachable := [], epochs := [], selfDestSeen := false }

def portsReset : PortsState :=
  { before := [], downKeep := [], mib := [], mibLatch := [], fxeCnt := [], fxeLatch := [], rx := [], holdoff := [], groups := [], oh := []
    protReq := [], selForSf := [], wtr := [], portCal := [], uncal := [], sfHeld := [] }

def pathReset : PathState := { slices := [], follow := [], deferred := [] }

/-- The block right after a power-on reset (21 R585, R586): every register at its Reset value (00 R11), every table empty, no packet, no
command waiting. -/
def State.reset : State :=
  { regs := [], outs := [], ce := ceReset, host := hostReset, dma := dmaReset, chain := chainReset, err := errReset, tim := timReset
    pwr := pwrReset, rst := rstReset, pmcs := pmcsReset, hbm := hbmReset, fwu := fwuReset, gen := genReset, par := parReset, tab := tabReset
    tm := tmReset, ports := portsReset, path := pathReset, freeSeq := 0, pending := [] }

end Sys2Proof.Machine
end

