-- ==== Sys2Proof/Machine/Ops.lean ====
section
/-! DEFINITION. The operations every block shares: registers, device time as read, the error log, interrupts, fatal
errors, completion records, and the master and ownership rules. -/

namespace Sys2Proof.Machine

open Sys2Proof

/-! ### Registers (00 R10-R13, 22 R602, R610) -/

/-- The block number of a BAR0 offset (22 R602); `none` for an unassigned offset. -/
def blockOf (off : Nat) : Option Nat :=
  if off < 0xB00000 then some (off / 0x100000)
  else if off < 0x1000000 then none
  else if off < 0x1C00000 then some (11 + (off - 0x1000000) / 0x200000)
  else if off < 0x1D00000 then some 17
  else if off < 0x1E00000 then some 18
  else if off < 0x2000000 then some 19
  else if off < 0x4000000 then some 20
  else if off < 0x5C00000 then some (21 + (off - 0x4000000) / 0x400000)
  else none

/-- The register at a BAR0 offset: its row and its indices (22 R610). -/
def regAt (off : Nat) : Option (RegRow × List Nat) :=
  match blockOf off with
  | some b => findRow (regRows b) off
  | none => none

/-- The power-on value of a row's fields (00 R11). -/
def fieldsReset (fs : List RegField) : Nat := fs.foldl (fun x f => putBits x f.lo f.w f.rst) 0

/-- The default yield factors F[0..7], in 256ths (12 R371). -/
def yieldDefault (y : Nat) : Nat := [256, 192, 128, 96, 64, 32, 16, 0].getD y 0

/-- The power-on value of the register at `off`: the Reset column, with the registers whose column differs by index,
or names a fuse or a strap. -/
def regResetNat (off : Nat) : Nat :=
  if off = Reg.HIF_PF_CFG 0 then 1 + 512 * 64
  else if off = Reg.GLB_SERIAL_LO then Config.serial % 2 ^ 32
  else if off = Reg.GLB_SERIAL_HI then Config.serial / 2 ^ 32 % 2 ^ 32
  else if off = Reg.GLB_OWN 7 ∨ off = Reg.GLB_OWN 9 then 0
  else if Reg.GLB_OWN 0 ≤ off ∧ off ≤ Reg.GLB_OWN 27 then 1
  else if Reg.SCH_PORT_BIND 0 ≤ off ∧ off ≤ Reg.SCH_PORT_BIND 127 then 0x00012801 + (off - Reg.SCH_PORT_BIND 0)
  else if Reg.SCH_YIELD_FACTOR 0 ≤ off ∧ off ≤ Reg.SCH_YIELD_FACTOR 7 then
    yieldDefault ((off - Reg.SCH_YIELD_FACTOR 0) / 4)
  else if off = Reg.EDT_HDR_ROLE 0 then 0x00FC2400
  else if off = Reg.PAR_BANK_VER 0 then leNat ((List.range 4).map Config.baseImage)
  else if off = Reg.PAR_BANK_CRC 0 then Config.baseCrc % 2 ^ 32
  else
    match regAt off with
    | some (r, _) => fieldsReset r.fields
    | none => 0

def regReset (off : Nat) : Word := BitVec.ofNat 32 (regResetNat off)

/-- The value a register holds. -/
def State.reg (s : State) (off : Nat) : Word := Assoc.get s.regs (regReset off) off

/-- Stores a register's value; a register at its power-on value is not listed. -/
def State.setReg (s : State) (off : Nat) (v : Word) : State :=
  { s with regs := Assoc.put s.regs (regReset off) off v }

/-- The access types whose fields every level below device reset keeps (00 R10, 21 R586). -/
def Acc.kept : Acc → Bool
  | .rwl => true
  | .rws => true
  | _ => false

/-- `new` with the fields of the access types that satisfy `p` as in `old`. -/
def keepFields (p : Acc → Bool) (fs : List RegField) (old new : Nat) : Nat :=
  fs.foldl (fun x f => if p f.acc then putBits x f.lo f.w (bitsAt old f.lo f.w) else x) new

/-- The registers that satisfy `which` take their Reset values, except fields of the access types that satisfy `keep`. -/
def State.resetRegs (s : State) (which : Nat → Bool) (keep : Acc → Bool) : State :=
  { s with regs := s.regs.filterMap fun (kv : Nat × Word) =>
      if which kv.1 then
        match regAt kv.1 with
        | none => none
        | some (r, _) =>
          let v := BitVec.ofNat 32 (keepFields keep r.fields kv.2.toNat (regResetNat kv.1))
          if v = regReset kv.1 then none else some (kv.1, v)
      else some kv }

/-- The value of a field. -/
def State.fget (s : State) (f : Fld) : Nat := bitsAt (s.reg f.reg).toNat f.lo f.w

/-- Whether a field is not 0. -/
def State.fbit (s : State) (f : Fld) : Bool := s.fget f != 0

/-- Stores a field's value (its low bits), keeping the register's other bits. -/
def State.fset (s : State) (f : Fld) (v : Nat) : State :=
  s.setReg f.reg (BitVec.ofNat 32 (putBits (s.reg f.reg).toNat f.lo f.w v))

/-- Adds to a counter field that saturates. -/
def State.satAdd (s : State) (f : Fld) (n : Nat) : State := s.fset f (min (s.fget f + n) (2 ^ f.w - 1))

/-- Adds to a counter field that wraps. -/
def State.wrapAdd (s : State) (f : Fld) (n : Nat) : State := s.fset f ((s.fget f + n) % 2 ^ f.w)

/-- A 64-bit value in a LO and HI pair of registers. -/
def State.pair (s : State) (lo hi : Nat) : Nat := (s.reg lo).toNat + 2 ^ 32 * (s.reg hi).toNat

/-- Emits something on an outside interface, after everything emitted before. -/
def State.emit (s : State) (o : Out) : State := { s with outs := s.outs ++ [o] }

/-- The next free value of an open point of the spec, and the state with the counter advanced. -/
def State.free (s : State) (point : Nat) : Nat × State :=
  (Config.freeValue point s.freeSeq, { s with freeSeq := s.freeSeq + 1 })

/-! ### Device time as consumers read it (15 R443, R446, R447) -/

/-- The nanosecond count of a domain (15 R446). -/
def TimeDomain.count (d : TimeDomain) : Nat := d.sec * 1000000000 + d.ns

/-- Quarter-nanoseconds of a domain's fraction (15 R446). -/
def TimeDomain.qns (d : TimeDomain) : Nat := d.frac / 2 ^ 54

def State.timeDomain (s : State) (d : Nat) : TimeDomain := if d = 0 then s.tim.dom0 else s.tim.dom1

/-- The stamping view (15 R443). -/
def State.view (s : State) : TimeDomain := s.timeDomain (s.fget Fld.TIM_STATUS_STAMP_DOM)

/-- The stamping view's nanosecond count. -/
def State.nowNs (s : State) : Nat := s.view.count

/-- Fast-path form (15 R447). -/
def fastPath (count : Nat) : Nat := count % 2 ^ 32

/-- Writes an instant into NS, SEC_LO and SEC_HI registers. -/
def State.setInstant (s : State) (ns lo hi : Fld) (count : Nat) : State :=
  ((s.fset ns (count % 1000000000)).fset lo (count / 1000000000 % 2 ^ 32)).fset hi (count / 1000000000 / 2 ^ 32)

/-- The instant that NS, SEC_LO and SEC_HI registers hold. -/
def State.getInstant (s : State) (ns lo hi : Fld) : Nat :=
  (s.fget lo + 2 ^ 32 * s.fget hi) * 1000000000 + s.fget ns

/-! ### Functions and vectors (02 R42, R46) -/

/-- Whether a function is enabled. -/
def State.pfEnabled (s : State) (f : Nat) : Bool := decide (f < 8) && s.fbit (Fld.HIF_PF_CFG_EN f)

/-- Whether a device vector lies in a function's range. -/
def State.vectorInRange (s : State) (f v : Nat) : Bool :=
  s.pfEnabled f && decide (s.fget (Fld.HIF_PF_CFG_VEC_BASE f) ≤ v)
    && decide (v < s.fget (Fld.HIF_PF_CFG_VEC_BASE f) + s.fget (Fld.HIF_PF_CFG_VEC_COUNT f))

/-- The function that owns a packet ring (02 R45): receive ring n, transmit ring 64 + n. -/
def State.ringPf (s : State) (r : Nat) : Nat :=
  if r < 64 then s.fget (Fld.HIF_RXR_PF_PF (r / 8) (r % 8)) else s.fget (Fld.HIF_TXR_PF_PF ((r - 64) / 8) (r % 8))

def State.cmdPf (s : State) (ring : Nat) : Nat := s.fget (Fld.HIF_CMD_PF_PF ring)

def State.cqPf (s : State) (m : Nat) : Nat := s.fget (Fld.HIF_CQ_PF_PF m)

/-- The master ID of a host function (02 R88): the standby host's after a takeover. -/
def State.pfMaster (s : State) (f : Nat) : Nat := if s.chain.hostIsStandby then 9 else f + 1

/-- The master ID a command acts with (02 R88). -/
def State.cmdMaster (s : State) (c : Cmd) : Nat := s.pfMaster (s.cmdPf c.ring)

/-- Whether a master may write a block (02 R89). -/
def State.owns (s : State) (m block : Nat) : Bool :=
  s.fget (Fld.GLB_OWN_OWNER block) == 0xF || s.fget (Fld.GLB_OWN_OWNER block) == m

/-! ### Interrupts (18 R525-R528) -/

/-- Event and enable registers of a level source that has one event register. -/
def levelRegs (n : Nat) : Option (Nat × Nat) :=
  if n < 137 then none
  else if n < 265 then
    some (Reg.PRT_PORT_EVENT ((n - 137) / 8) ((n - 137) % 8), Reg.PRT_PORT_EVENT_EN ((n - 137) / 8) ((n - 137) % 8))
  else if n < 297 then some (Reg.FXE_GRP_EVENT (n - 265), Reg.FXE_GRP_EVENT_EN (n - 265))
  else if n < 425 then some (Reg.FXE_PHY_DEF_EVENT (n - 297), Reg.FXE_PHY_DEF_EN (n - 297))
  else if n < 681 then some (Reg.FXE_CLIENT_EVENT (n - 425), Reg.FXE_CLIENT_EVENT_EN (n - 425))
  else if n < 690 then none
  else
    match n with
    | 690 => some (Reg.GEN_EVENT, Reg.GEN_EVENT_EN)
    | 691 => some (Reg.PAR_EVENT, Reg.PAR_EVENT_EN)
    | 692 => some (Reg.LPM_EVENT, Reg.LPM_EVENT_EN)
    | 693 => some (Reg.EXM_EVENT, Reg.EXM_EVENT_EN)
    | 694 => some (Reg.CAM_EVENT, Reg.CAM_EVENT_EN)
    | 695 => some (Reg.ACT_EVENT, Reg.ACT_EVENT_EN)
    | 696 => some (Reg.RCL_EVENT, Reg.RCL_EVENT_EN)
    | 697 => some (Reg.EDT_EVENT, Reg.EDT_EVENT_EN)
    | 698 => some (Reg.BUF_EVENT, Reg.BUF_EVENT_EN)
    | 699 => some (Reg.SCH_EVENT, Reg.SCH_EVENT_EN)
    | 700 => some (Reg.POL_TM_EVENT, Reg.POL_TM_EVENT_EN)
    | 701 => some (Reg.DLN_EVENT, Reg.DLN_EVENT_EN)
    | 702 => some (Reg.FAB_EVENT, Reg.FAB_EVENT_EN)
    | 703 => some (Reg.PWR_EVENT, Reg.PWR_EVENT_EN)
    | 704 => some (Reg.HBF_EVENT, Reg.HBF_EVENT_EN)
    | 705 => some (Reg.HBT_EVENT, Reg.HBT_EVENT_EN)
    | 708 => some (Reg.FWU_EVENT, Reg.FWU_EVENT_EN)
    | 709 => some (Reg.PMC_EVENT, Reg.PMC_EVENT_EN)
    | _ => none

/-- The level source behind an event register or its enable register. -/
def sourceOfReg (off : Nat) : Option Nat :=
  if 0x1000000 ≤ off ∧ off < 0x1100000 then
    let r := (off - 0x1000000) % 0x10000
    if 0x100 ≤ r ∧ r < 0x300 ∧ (r % 0x40 = 0x14 ∨ r % 0x40 = 0x18) then
      some (137 + (off - 0x1000000) / 0x10000 * 8 + (r - 0x100) / 0x40)
    else none
  else if 0x1200000 ≤ off ∧ off < 0x1202000 then some (265 + (off - 0x1200000) / 0x100)
  else if 0x1204000 ≤ off ∧ off < 0x1204800 then some (297 + (off - 0x1204000) / 0x10)
  else if 0x1208000 ≤ off ∧ off < 0x120A000 then some (425 + (off - 0x1208000) / 0x20)
  else if off = Reg.TIM_EVENT ∨ off = Reg.TIM_EVENT_EN then some 689
  else ((List.range 20).map (· + 690)).find? fun n =>
    match levelRegs n with
    | some (e, en) => off == e || off == en
    | none => false

/-- Whether a level source is pending (18 R525). -/
def State.levelPending (s : State) (n : Nat) : Bool :=
  match levelRegs n with
  | some (e, en) => (s.reg e &&& s.reg en) != 0
  | none =>
    if 681 ≤ n ∧ n ≤ 688 then
      bitAt (s.reg Reg.TIM_EVENT).toNat (16 + (n - 681)) && bitAt (s.reg Reg.TIM_EVENT_EN).toNat (16 + (n - 681))
    else if n = 689 then (s.reg Reg.TIM_EVENT &&& s.reg Reg.TIM_EVENT_EN &&& 0xFFFF) != 0
    else if n = 707 then s.fbit Fld.CE_STATUS_HALTED
    else if 710 ≤ n ∧ n ≤ 725 then
      s.fbit (Fld.ERR_FAULT_STATUS_LATCHED (n - 710)) || s.fbit (Fld.ERR_FAULT_STATUS_STUCK (n - 710))
    else if n = 726 then !s.err.log.isEmpty
    else if n = 727 then (s.reg Reg.ERR_BLK_SEEN) != 0
    else false

/-- The vector, enable and owning function of a source (18 R526). -/
def State.sourceMap (s : State) (n : Nat) : Nat × Bool × Nat :=
  if n < 8 then (s.fget (Fld.CE_CQ_VEC_VECTOR n), s.fbit (Fld.CE_CQ_VEC_EN n), s.cqPf n)
  else if n = 8 then (s.fget Fld.DMA_RQ_VEC_VECTOR, s.fbit Fld.DMA_RQ_VEC_EN, 0)
  else if n < 73 then (s.fget (Fld.HIF_RXR_CFG_VECTOR (n - 9)), s.fbit (Fld.HIF_RXR_CFG_EN (n - 9)), s.ringPf (n - 9))
  else if n < 137 then
    (s.fget (Fld.HIF_TXR_CFG_VECTOR (n - 73)), s.fbit (Fld.HIF_TXR_CFG_EN (n - 73)), s.ringPf (n - 73 + 64))
  else (s.fget (Fld.ERR_SRC_MAP_VECTOR n), s.fbit (Fld.ERR_SRC_MAP_EN n), s.fget (Fld.ERR_SRC_MAP_PF n))

/-- The level sources that are enabled and mapped to a vector; a source not listed in the registers has EN 0. -/
def State.levelSourcesOf (s : State) (v : Nat) : List Nat :=
  s.regs.filterMap fun kv =>
    if Reg.ERR_SRC_MAP 137 ≤ kv.1 ∧ kv.1 ≤ Reg.ERR_SRC_MAP 727 ∧ bitAt kv.2.toNat 9 = true ∧ bitsAt kv.2.toNat 0 9 = v
        ∧ s.vectorInRange (bitsAt kv.2.toNat 10 4) v = true then
      some ((kv.1 - Reg.ERR_SRC_MAP 0) / 4)
    else none

/-- The OR of a vector's enabled, pending level sources (18 R527; ERR_VEC.ACTIVE). -/
def State.vectorActive (s : State) (v : Nat) : Bool := (s.levelSourcesOf v).any s.levelPending

/-- The function whose range holds a device vector. -/
def State.vectorPf (s : State) (v : Nat) : Option Nat := (List.range 8).find? fun f => s.vectorInRange f v

/-- Every domain, or every one except AON, is switched off (16 R478, R490), or POR_N is low. -/
def State.off (s : State) : Bool := s.pwr.tripped || s.pwr.collapsed || s.rst.porLow

/-- The device stands at the host: the active wellhead, or before READY the device that ROLE makes the wellhead (02 R49). -/
def State.atHost (s : State) : Bool := s.chain.active || (!s.fbit Fld.RST_STATUS_READY && s.fget Fld.IGL_CTRL_ROLE == 1)

/-- Delivers one message of a vector: by MSI-X on the wellhead, held in the PBA while masked (18 R527);
through the wellhead on another device (18 R528). A frozen device sends none (18 R535), nor one whose host path is off. -/
def State.sendMessage (s : State) (v : Nat) : State :=
  if s.err.fatal = .frozen ∨ s.off = true then s
  else if s.atHost then
    match s.vectorPf v with
    | none => s
    | some f =>
      let e := Assoc.get s.err.msix ⟨0, 0, true⟩ v
      if !s.err.msixEnabled.contains f || s.err.functionMasked.contains f || e.masked then
        { s with err := { s.err with pba := if s.err.pba.contains v then s.err.pba else s.err.pba ++ [v] } }
      else
        (s.satAdd (Fld.ERR_VEC_MSG_CNT v) 1).emit (.msix f (v - s.fget (Fld.HIF_PF_CFG_VEC_BASE f)) e.addr e.data)
  else if s.chain.cutOff then s.satAdd (Fld.ERR_VEC_MSG_CNT v) 1
  else (s.satAdd (Fld.ERR_VEC_MSG_CNT v) 1).emit (.chainMessage v)

/-- A pulse source pulses (18 R525, R527). -/
def State.pulse (s : State) (n : Nat) : State :=
  match s.sourceMap n with
  | (v, en, pf) => if en && s.vectorInRange pf v then s.sendMessage v else s

/-- Runs `f` and sends the message of a level source's vector when the OR of its sources rises (18 R527). -/
def State.withSource (s : State) (n : Nat) (f : State → State) : State :=
  match s.sourceMap n with
  | (v, _, _) =>
    if !s.vectorActive v && (f s).vectorActive v then (f s).sendMessage v else f s

/-- Sets event bits: a field of an event register is ORed with `v`. -/
def State.setEventBits (s : State) (f : Fld) (v : Nat) : State :=
  let upd := fun (t : State) => t.fset f (t.fget f ||| v)
  match sourceOfReg f.reg with
  | some n =>
    if n = 689 ∧ 16 ≤ f.lo then
      (List.range 8).foldl (fun t i => if bitAt v i then t.withSource (681 + i) (fun u => u.fset f (u.fget f ||| 2 ^ i)) else t) s
    else s.withSource n upd
  | none => upd s

/-- Sets a one-bit event. -/
def State.setEvent (s : State) (f : Fld) : State := s.setEventBits f 1

/-! ### The error log (18 R518-R522) -/

/-- Severity of a code (18 R519); `none` for a code the table does not hold. FAULT_ASSERT and FAULT_STUCK take the
severity of the input that INFO names. -/
def State.severity (s : State) (code info : Nat) : Option Nat :=
  if code = 0x0501 ∨ code = 0x0502 then some (max 1 (s.fget (Fld.ERR_FAULT_CFG_SEV (bitsAt info 0 4))))
  else if [0x0503, 0x0901, 0x0902, 0x1402, 0x1504].contains code then some 3
  else if [0x0101, 0x0102, 0x0401, 0x0402, 0x0403, 0x0701, 0x0702, 0x0703, 0x1002, 0x1403, 0x1505, 0x1506, 0x1901,
    0x1902, 0x1A02].contains code then some 2
  else if [0x0001, 0x0201, 0x0301, 0x0E01, 0x0F01, 0x1001, 0x1101, 0x1102, 0x1103, 0x1201, 0x1301, 0x1401, 0x1501,
    0x1502, 0x1503, 0x1701, 0x1A01].contains code then some 1
  else none

/-- Adds an entry, or a repeat, to firmware's history ring (18 R522); its first overwrite since Priming raises message
source 1 (20 R559). -/
def State.addHistory (s : State) (e : ErrEntry) : State :=
  let h := s.err.history ++ [e]
  let s' := { s with err := { s.err with history := h.drop (h.length - 16384) } }
  if h.length ≤ 16384 ∨ s.err.historyWrapped then s'
  else ({ s' with err := { s'.err with historyWrapped := true } }).pulse 731

/-- Adds the repeat of a class to its queued entry (18 R521). -/
def bumpEntry (code last : Nat) : List ErrEntry → List ErrEntry
  | [] => []
  | e :: es =>
    if e.code = code then { e with count := min (e.count + 1) 65535, last := last } :: es
    else e :: bumpEntry code last es

/-- Enters an error under 18 R521, without what a fatal severity starts. -/
def State.logEntry (s : State) (code info : Nat) (firmware injected : Bool) : State :=
  if s.err.fatal = .frozen then s
  else
    let sev := (s.severity code info).getD 1
    let e : ErrEntry := { code := code, sev := sev, firmware := firmware, injected := injected, count := 1
                          firstNs := s.view.ns, firstSec := s.view.sec % 65536, last := fastPath s.nowNs
                          info := info % 2 ^ 64 }
    let s1 :=
      if s.err.log.any (·.code == code) then
        { s with err := { s.err with log := bumpEntry code e.last s.err.log } }
      else if s.err.log.length < 64 then
        s.withSource 726 fun t => { t with err := { t.err with log := t.err.log ++ [e] } }
      else
        (s.satAdd Fld.ERR_LOG_OVF_CNT_COUNT 1).withSource 727 fun t =>
          t.fset Fld.ERR_BLK_SEEN_BLOCK (t.fget Fld.ERR_BLK_SEEN_BLOCK ||| 2 ^ (code / 256))
    let s2 := s1.addHistory e
    if code / 256 = 4 then s2.pulse 706 else s2

/-! ### Halt of the command engine (02 R67, R68) -/

/-- Halts the engine: first cause recorded, fetched commands discarded, CE_HALT entered. -/
def State.ceHalt (s : State) (ring reason pos : Nat) : State :=
  if s.fbit Fld.CE_STATUS_HALTED then s
  else
    let info := ring + 16 * reason + 256 * pos
    let s1 := s.setReg Reg.CE_HALT_INFO (BitVec.ofNat 32 info)
    let keep := fun (kv : Nat × CeRing) => if kv.2.disabling then some (kv.1, (⟨[], [], true⟩ : CeRing)) else none
    let s2 := { s1 with ce := { s1.ce with rings := s1.ce.rings.filterMap keep, stalled := none } }
    let s3 := s2.withSource 707 fun t => t.fset Fld.CE_STATUS_HALTED 1
    s3.logEntry 0x0201 info false false

/-! ### Index arithmetic of rings and queues (02 R58) -/

/-- Units between two indices of a ring of 2^k slots. -/
def occ (p c k : Nat) : Nat := (p + 2 ^ (k + 1) - c) % 2 ^ (k + 1)

/-- A record is due and the record queue is full (02 R82). -/
def State.rqWaits (s : State) : Bool :=
  !s.dma.due.isEmpty && s.fbit Fld.DMA_RQ_SIZE_EN
    && decide (2 ^ s.fget Fld.DMA_RQ_SIZE_SIZE_LOG2
      ≤ occ (s.fget Fld.DMA_RQ_PI_PI) (s.fget Fld.DMA_RQ_CI_CI) (s.fget Fld.DMA_RQ_SIZE_SIZE_LOG2))

/-! ### DMA withdrawal (02 R85) -/

/-- Ends the transfer at the head of a channel with a status; its record becomes due (02 R82). -/
def State.dmaEnd (s : State) (ch status bytes mismatch : Nat) : State :=
  match Assoc.get s.dma.chans [] ch with
  | [] => s
  | x :: xs =>
    let rec' : DmaRecord := { channel := ch, requester := x.requester, status := status, tag := x.tag
                              bytesDone := bytes, mismatch := mismatch }
    let s1 := { s with dma := { s.dma with chans := Assoc.put s.dma.chans [] ch xs, due := s.dma.due ++ [rec'] } }
    let s2 := s1.fset (Fld.DMA_CH_STATUS_BUSY ch) (b2n (!xs.isEmpty))
    let s3 := s2.fset (Fld.DMA_CH_STATUS_REQUESTER ch) (match xs with | y :: _ => y.requester | [] => 0)
    if status = 0x000D then s3.logEntry 0x0301 (ch + 2 ^ 32 * min bytes (2 ^ 32 - 1)) false false else s3

/-! ### Completion records (02 R71, R73) -/

/-- OK and the other status codes (02 R87). -/
def stOK : Nat := 0
def stOutOfRange : Nat := 1
def stNotOwner : Nat := 2
def stUnsupported : Nat := 3
def stBadPayload : Nat := 4
def stBusy : Nat := 5
def stNoSpace : Nat := 6
def stNotFound : Nat := 7
def stExists : Nat := 8
def stGenLimit : Nat := 9
def stTimeout : Nat := 10
def stWithdrawn : Nat := 11
def stMismatch : Nat := 12
def stHostError : Nat := 13
def stDataError : Nat := 14
def stChainLost : Nat := 15
def stState : Nat := 16
def stProfile : Nat := 17

/-- The 8-byte index write-back of 02 R60. -/
def State.writeIndex (s : State) (lo hi : Nat) (idx : Nat) : State :=
  s.emit (.hostWrite (s.pair lo hi) (leBytes 8 idx))

/-- The completion queue's vector fires. -/
def State.fireCq (s : State) (m : Nat) : State :=
  ({ s with ce := { s.ce with unsignalled := Assoc.put s.ce.unsignalled 0 m 0
                              coalescing := s.ce.coalescing.filter (· != m) } }).pulse m

/-- Writes a completion record at a queue's producer index, then the index, then interrupts as coalescing says. A
queue whose enable a host-path reset has cleared discards the record (21 R589). -/
def State.writeRecord (s : State) (c : Cmd) (opcode status r0 r1 : Nat) : State :=
  if !s.fbit (Fld.CE_CQ_SIZE_EN c.cq) then s
  else
    let k := s.fget (Fld.CE_CQ_SIZE_SIZE_LOG2 c.cq)
    let pi := s.fget (Fld.CE_CQ_PI_PI c.cq)
    let record := leBytes 2 opcode ++ leBytes 2 status ++ leBytes 4 c.tag ++ leBytes 1 c.ring
      ++ leBytes 1 (s.fget Fld.IGL_ID_CHAIN_ID) ++ leBytes 2 (1 - pi / 2 ^ k % 2) ++ leBytes 4 c.pos
      ++ leBytes 8 r0 ++ leBytes 8 r1
    let base := s.pair (Reg.CE_CQ_BASE_LO c.cq) (Reg.CE_CQ_BASE_HI c.cq)
    let s1 := s.emit (.hostWrite (base + 32 * (pi % 2 ^ k)) record)
    let pi' := (pi + 1) % 2 ^ (k + 1)
    let s2 := s1.fset (Fld.CE_CQ_PI_PI c.cq) pi'
    let s3 := s2.writeIndex (Reg.CE_CQ_WB_LO c.cq) (Reg.CE_CQ_WB_HI c.cq) pi'
    let n := Assoc.get s3.ce.unsignalled 0 c.cq + 1
    let s4 := { s3 with ce := { s3.ce with unsignalled := Assoc.put s3.ce.unsignalled 0 c.cq n } }
    if c.intr || decide (s4.fget (Fld.CE_CQ_VEC_COAL_CNT c.cq) ≤ n) then s4.fireCq c.cq
    else if s4.fbit (Fld.CE_CQ_VEC_COAL_TIME c.cq) && !s4.ce.coalescing.contains c.cq then
      { s4 with ce := { s4.ce with coalescing := s4.ce.coalescing ++ [c.cq] } }
    else s4

/-- Steps 2 and 3 of the command-engine reset (02 R70). -/
def State.ceResetNow (s : State) : State :=
  let s1 := { s with ce := { s.ce with rings := [], resetPending := false, stalled := none, unsignalled := [], coalescing := [] } }
  let zeroRing := fun (t : State) n =>
    (t.fset (Fld.CE_CMD_PI_PI n) 0).fset (Fld.CE_CMD_CI_CI n) 0
  let zeroCq := fun (t : State) n => (t.fset (Fld.CE_CQ_PI_PI n) 0).fset (Fld.CE_CQ_CI_CI n) 0
  let s2 := (List.range 8).foldl zeroRing s1
  let s3 := (List.range 8).foldl zeroCq s2
  (s3.fset Fld.CE_CTRL_RING_EN 0).fset Fld.CE_STATUS_HALTED 0

/-- Removes a command from those in execution. -/
def removeExec (c : Cmd) : List Entry → List Entry
  | [] => []
  | e :: es => if e.cmd.ring = c.ring ∧ e.cmd.pos = c.pos then es else e :: removeExec c es

/-- A command completes: its slot is freed, its record written unless NO_CMPL and OK (02 R63, R71); a waiting
command-engine reset goes on when it was the last (02 R70). -/
def State.complete (s : State) (c : Cmd) (opcode status r0 r1 : Nat) : State :=
  let s1 := { s with ce := { s.ce with executing := removeExec c s.ce.executing } }
  let s2 := if status = stOK ∧ c.noCmpl then s1 else s1.writeRecord c opcode status r0 r1
  if s2.ce.resetPending && s2.ce.executing.isEmpty then s2.ceResetNow else s2

/-! ### Fatal errors (18 R531-R534) -/

/-- Opcode of the command that starts a transfer (02 R83). -/
def DmaOp.opcode : DmaOp → Nat
  | .copy .. => 0x0201
  | .fill .. => 0x0202
  | .compare .. => 0x0203

/-- The transfer at the head of a channel ends, and with it the command that started it: RESULT0 is BYTES_DONE (02 R82). -/
def State.dmaFinish (s : State) (ch : Nat) (x : Xfer) (status bytes mismatch : Nat) : State :=
  let s1 := s.dmaEnd ch status bytes mismatch
  match x.cmd with
  | some c => s1.complete c x.op.opcode status bytes 0
  | none => s1

/-- Withdraws every transfer of a channel. -/
def State.dmaWithdrawCh (s : State) (ch : Nat) : State :=
  (Assoc.get s.dma.chans [] ch).foldl (fun (t : State) x => t.dmaFinish ch x stWithdrawn 0 0) s

/-- Withdraws every transfer of the channels other than the Well log's (18 R533 step 3; requester 7 is channel 15). -/
def State.dmaWithdrawAll (s : State) : State := (List.range 15).foldl State.dmaWithdrawCh s

/-- A fatal error: recorded, forwarding stopped, engine halted, transfers withdrawn (18 R532, R533); one that meets
the Well log dump ends it and freezes the device (18 R539). -/
def State.raiseFatal (s : State) (code : Nat) : State :=
  let second := fun (t : State) =>
    if t.fbit Fld.ERR_FATAL2_VALID then t.satAdd Fld.ERR_FATAL2_COUNT 1
    else ((t.fset Fld.ERR_FATAL2_CODE code).fset Fld.ERR_FATAL2_COUNT 0).fset Fld.ERR_FATAL2_VALID 1
  match s.err.fatal with
  | .frozen => s
  | .running =>
    let s1 := (s.fset Fld.ERR_FATAL_CODE_CODE code).fset Fld.ERR_FATAL_CODE_VALID 1
    let s2 := s1.setInstant Fld.ERR_FATAL_NS_NS Fld.ERR_FATAL_SEC_LO_SEC Fld.ERR_FATAL_SEC_HI_SEC s.nowNs
    let s3 := (s2.fset Fld.ERR_STATUS_FATAL 1).pulse 728
    let s4 := { s3 with err := { s3.err with fatal := .stopped } }
    (s4.ceHalt 0 11 0).dmaWithdrawAll
  | .stopped => second s
  | .dumping =>
    let s1 := (second s).fset Fld.ERR_WL_STATUS_STATE 5
    ({ s1 with err := { s1.err with fatal := .frozen } }).fset Fld.ERR_STATUS_FROZEN 1

/-- An error is raised: entered in the log, and fatal when its severity is 3 (18 R518, R531). -/
def State.raiseError (s : State) (code info : Nat) : State :=
  let s1 := s.logEntry code info false false
  if s.severity code info = some 3 then s1.raiseFatal code else s1

/-- An error raised by firmware (18 R520 FW). -/
def State.raiseErrorFw (s : State) (code info : Nat) : State :=
  let s1 := s.logEntry code info true false
  if s.severity code info = some 3 then s1.raiseFatal code else s1

/-- Forwarding has stopped after a fatal error (18 R533 step 2), the device is frozen, or its domains are off. -/
def State.stoppedForwarding (s : State) : Bool := s.err.fatal != .running || s.off

/-- A register-access error event (22 R606). -/
def State.regError (s : State) (off master : Nat) : State :=
  let s1 := s.satAdd Fld.GLB_REGERR_CNT_COUNT 1
  let s2 := (s1.fset Fld.GLB_REGERR_LAST_OFFSET off).fset Fld.GLB_REGERR_LAST_MASTER master
  s2.raiseError 0x0001 (off % 2 ^ 32 + 2 ^ 32 * master)

/-! ### Running a ring command -/

/-- How a command's execution ends: with a status and its results, or later, at another event. -/
inductive Done where
  | done (status r0 r1 : Nat)
  | later
  deriving DecidableEq, Repr

/-- Whether an opcode's subject targets a block of a die that is in die reset (21 R588): prefix, exact-match, CAM,
action, generation and FlexE commands the FE die, buffer and scheduling commands the TM die. -/
def State.dieResetHolds (s : State) (opcode : Nat) : Bool :=
  let sub := opcode / 256
  (s.fbit Fld.RST_STATUS_DIE_FE_BUSY && (decide (3 ≤ sub ∧ sub ≤ 7) || sub == 10))
    || (s.fbit Fld.RST_STATUS_DIE_TM_BUSY && (sub == 8 || sub == 9))

/-- A ring command of an opcode whose table gives LEN `lo` to `hi` (02 R65) runs: a LEN outside the range completes
with BAD_PAYLOAD and changes nothing; a command for a die in die reset completes with STATE (21 R588). -/
def cmdRun (opcode lo hi : Nat) (c : Cmd) (s : State) (body : State → State × Done) : State :=
  if s.off then s
  else if c.len < lo ∨ hi < c.len then s.complete c opcode stBadPayload 0 0
  else if s.dieResetHolds opcode then s.complete c opcode stState 0 0
  else
    match body s with
    | (s', .done st r0 r1) => s'.complete c opcode st r0 r1
    | (s', .later) => s'

/-- Runs a ring command: it always takes a next state. -/
def runCmd (opcode lo hi : Nat) (c : Cmd) (s : State) (body : State → State × Done) :
    Host.Outcome State Fault Refusal := .next (cmdRun opcode lo hi c s body)

/-- A command that fails one of the checks: nothing changes but its completion. -/
def fail (st : Nat) (s : State) : State × Done := (s, .done st 0 0)

/-- A command that completes OK with results. -/
def ok (s : State) (r0 r1 : Nat) : State × Done := (s, .done stOK r0 r1)

end Sys2Proof.Machine
end

