-- ==== Sys2Proof/Machine/Count.lean ====
section
/-! DEFINITION. Counting an event in the counter banks (19 R542-R548). Every row that makes an event of the table of R544 calls
`State.pmc` once for it. -/

namespace Sys2Proof.Machine

open Sys2Proof

/-- Instances of an event of R544 (0: the event takes no INST); `none` for a code the table does not hold. -/
def pmcInsts (ev : Nat) : Option Nat :=
  if [0x000, 0x001, 0x002, 0x801, 0x813, 0x815, 0x823].contains ev then some 0
  else if [0x010, 0x011, 0x012, 0x013, 0x014, 0x015, 0x020, 0x021, 0x022, 0x023, 0x024, 0x840].contains ev then some 16
  else if [0x030, 0x031, 0x032, 0x033, 0x810, 0x811, 0x812, 0x820, 0x821, 0x822, 0x832].contains ev then some 128
  else if ev = 0x040 ∨ ev = 0x041 then some 24
  else if ev = 0x050 ∨ ev = 0x051 then some 4
  else if ev = 0x060 ∨ ev = 0x061 then some 8
  else if ev = 0x062 then some 16
  else if ev = 0x814 ∨ ev = 0x850 ∨ ev = 0x851 then some 6
  else if ev = 0x830 ∨ ev = 0x831 then some 160
  else none

/-- Whether QUAL lies in an event's range; an event without QUAL has no range to leave. -/
def pmcQualOk (ev q : Nat) : Bool :=
  match ev with
  | 0x023 => decide (q ≤ 3)
  | 0x050 => decide (q ≤ 20) || q == 0xFF
  | 0x812 => decide (q ≤ 10)
  | 0x823 => decide (1 ≤ q ∧ q ≤ 7)
  | 0x830 => decide (q ≤ 3) || q == 0xFF
  | 0x850 => decide (q ≤ 5) || q == 0xFF
  | _ => true

/-- Whether an occurrence of an event with qualifier `x` counts for QUAL `q`. -/
def pmcQualHit (ev q x : Nat) : Bool :=
  match ev with
  | 0x023 => q == x
  | 0x050 => q == 0xFF || q == x
  | 0x812 => q == 0 || q == x
  | 0x823 => decide (q ≤ x)
  | 0x830 => q == 0xFF || q == x
  | 0x850 => q == 0xFF || q == x
  | _ => true

/-- The check of R545 on a configuration. -/
def pmcCfgOk (bank ev inst : Nat) (all : Bool) (q : Nat) : Bool :=
  (ev == 0 || ev / 0x800 == bank) && pmcQualOk ev q &&
    match pmcInsts ev with
    | none => false
    | some n => n == 0 || all || decide (inst < n)

def State.pmcCnt (s : State) (b n : Nat) : Nat := Assoc.get s.pmcs.cnt 0 (2048 * b + n)

/-- Counter `n` is the high half of a chained pair. -/
def State.pmcHigh (s : State) (b n : Nat) : Bool := n % 2 == 1 && s.fbit (Fld.PMC_CFG_CHAIN b (n - 1))

/-- A wrap of a counter that is not the low half of a chained pair (R548). -/
def State.pmcWrapped (s : State) (b n : Nat) : State :=
  let s1 := s.fset (Fld.PMC_OVF_OVF b (n / 32)) (s.fget (Fld.PMC_OVF_OVF b (n / 32)) ||| 2 ^ (n % 32))
  if s.fbit (Fld.PMC_CFG_OVF_EN b n) then s1.setEvent (if b = 0 then Fld.PMC_EVENT_OVF_FE else Fld.PMC_EVENT_OVF_TM) else s1

/-- Adds to one counter of 48 bits; the low half of a chained pair carries into the high half (R547). -/
def State.pmcAdd (s : State) (b n k : Nat) : State :=
  let v := s.pmcCnt b n + k
  let s1 := { s with pmcs := { s.pmcs with cnt := Assoc.put s.pmcs.cnt 0 (2048 * b + n) (v % 2 ^ 48) } }
  if v < 2 ^ 48 then s1
  else if s.fbit (Fld.PMC_CFG_CHAIN b n) then
    let w := s.pmcCnt b (n + 1) + v / 2 ^ 48
    let s2 := { s1 with pmcs := { s1.pmcs with cnt := Assoc.put s1.pmcs.cnt 0 (2048 * b + n + 1) (w % 2 ^ 48) } }
    if w < 2 ^ 48 then s2 else s2.pmcWrapped b (n + 1)
  else s1.pmcWrapped b n

/-- A bank counts (R542, R550); after a fatal error the counters have stopped (18 R533). -/
def State.pmcRunning (s : State) (b : Nat) : Bool :=
  bitAt (s.fget Fld.PMC_STATUS_RUNNING) b && !s.stoppedForwarding

/-- The enabled counters of a bank configured for an event. -/
def State.pmcOf (s : State) (b ev : Nat) : List Nat :=
  s.regs.filterMap fun (kv : Nat × Word) =>
    if Reg.PMC_CFG b 0 ≤ kv.1 ∧ kv.1 ≤ Reg.PMC_CFG b 2047 ∧ (kv.1 - Reg.PMC_CFG b 0) % 8 = 0
        ∧ bitAt kv.2.toNat 31 = true ∧ bitsAt kv.2.toNat 0 12 = ev ∧ s.pmcHigh b ((kv.1 - Reg.PMC_CFG b 0) / 8) = false then
      some ((kv.1 - Reg.PMC_CFG b 0) / 8)
    else none

/-- `k` occurrences of an event of R544, of an instance and a qualifier. -/
def State.pmc (s : State) (ev inst qual k : Nat) : State :=
  let b := ev / 0x800
  if !s.pmcRunning b || k == 0 then s
  else
    (s.pmcOf b ev).foldl (fun (t : State) n =>
      if (s.fbit (Fld.PMC_CFG_INST_ALL b n) || pmcInsts ev == some 0 || s.fget (Fld.PMC_CFG_INST b n) == inst)
          && pmcQualHit ev (s.fget (Fld.PMC_QUAL_QUAL b n)) qual then
        t.pmcAdd b n k
      else t) s

/-- Whether an event is counted at all. -/
def State.pmcCounts (s : State) (ev : Nat) : Bool := s.pmcRunning (ev / 0x800) && !(s.pmcOf (ev / 0x800) ev).isEmpty

/-! ### HBM units (17 R498, R499, R506, R509) -/

/-- A place in a stack of a die. -/
structure HbmLoc where
  die : Nat
  stack : Nat
  pc : Nat
  bank : Nat
  row : Nat
  column : Nat
  deriving DecidableEq, Repr

/-- A register of HBF, or the same register of HBT. -/
def dieFld (die : Nat) (f : Fld) : Fld := { f with reg := f.reg + 0x3400000 * die }

/-- The place of FE unit `u` (R498). -/
def hbfLoc (u : Nat) : HbmLoc :=
  ⟨0, u % 4, (u / 4 % 64) ^^^ (u / 65536 % 64), (u / 256 % 16) ^^^ (u / 2 ^ 22 % 16), u / 65536 % 16384, u / 4096 % 16⟩

/-- The place of unit `k` of the Cistern page `g` (R499). -/
def hbtLoc (g k : Nat) : HbmLoc :=
  let q := g % 6291456
  let i := q % 786432
  ⟨1, g / 6291456, (k + q) % 64, 2 * (q / 786432) + i % 2, i / 2 / 16, i / 2 % 16⟩

/-- Poison key of a Cistern unit. -/
def hbtUnit (g k : Nat) : Nat := 2 ^ 30 + 64 * g + k

def HbmLoc.key (l : HbmLoc) : Nat := ((8 * l.die + l.stack) * 64 + l.pc) * 16 + l.bank

/-- The first entry with the lowest count leaves its place to a row, counted once more. -/
def replaceLowest (low row : Nat) : List (Nat × Nat) → List (Nat × Nat)
  | [] => []
  | e :: es => if e.2 = low then (row, e.2 + 1) :: es else e :: replaceLowest low row es

/-- An activate table after an activate of a row (R506), before the threshold is compared. -/
def bankTable (t : List (Nat × Nat)) (row : Nat) : List (Nat × Nat) :=
  if t.any fun e => e.1 == row then t.map fun e => if e.1 = row then (row, e.2 + 1) else e
  else if t.length < 16 then t ++ [(row, 1)]
  else replaceLowest (t.foldl (fun n (e : Nat × Nat) => min n e.2) (t.headD (0, 0)).2) row t

/-- ACT_THRESH and BLAST of a die. -/
def State.actThresh (s : State) (die : Nat) : Nat := s.fget (dieFld die Fld.HBF_CFG_ACT_THRESH)
def State.blast (s : State) (die : Nat) : Nat := s.fget (dieFld die Fld.HBF_CFG_BLAST)

/-- Rows of a bank. -/
def hbmRows (die : Nat) : Nat := if die = 0 then 16384 else 24576

/-- The rows a neighbour refresh activates. -/
def neighbours (die row b : Nat) : List Nat :=
  ((List.range (2 * b + 1)).filterMap fun i => if b ≤ row + i then some (row + i - b) else none).filter
    fun x => x != row && decide (x < hbmRows die)

/-- Activates of rows of one bank, in order; a neighbour refresh activates rows of its own (R506). -/
def activateRows : Nat → HbmLoc → List Nat → State → State
  | 0, _, _, s => s
  | _, _, [], s => s
  | fuel + 1, l, row :: rows, s =>
    let t := bankTable (Assoc.get s.hbm.act [] l.key) row
    let hit := t.any fun e => e.1 == row && decide (s.actThresh l.die ≤ e.2)
    let t' := if hit then t.map fun e => if e.1 = row then (row, 0) else e else t
    let s1 := { s with hbm := { s.hbm with act := Assoc.put s.hbm.act [] l.key t' } }
    if hit then
      activateRows fuel l (rows ++ neighbours l.die row (s.blast l.die))
        ((s1.satAdd (dieFld l.die (Fld.HBF_NREF_CNT_COUNT l.stack)) 1).pmc (if l.die = 0 then 0x051 else 0x851) l.stack 0 1)
    else activateRows fuel l rows s1

/-- An access activates its row: a request is served by an activate, a transfer and a precharge. -/
def State.activate (s : State) (l : HbmLoc) : State := activateRows 10000 l [l.row] s

/-- An access of a source to an FE unit. -/
def State.hbfUnit (s : State) (src u : Nat) : State := (s.pmc 0x050 (hbfLoc u).stack src 1).activate (hbfLoc u)

/-- `n` accesses of a source (R500) to FE HBM units `base` to `base + size - 1`. The spec does not place a table's buckets in
its region, so the unit of each access is a free value (point 5). -/
def State.hbfAccess (s : State) (src base size : Nat) : Nat → State
  | 0 => s
  | n + 1 =>
    match s.free 5 with
    | (x, s1) => (s1.hbfUnit src (base + x % size)).hbfAccess src base size n

/-- Units of the LPM region, the exact-match tier and the flow statistics (R497): first unit and number. Pair `i` of the flow
statistics lies at 16 i. -/
def lpmUnits : Nat × Nat := (0, 2 ^ 26)
def exmUnits : Nat × Nat := (2 ^ 26, 2 ^ 22)
def flowUnits : Nat × Nat := (2 ^ 26 + 2 ^ 22, 2 ^ 23)

/-- A source's access to the unit `k` of Cistern page `g`; it wakes the stack (R514). -/
def State.hbtUnitAccess (s : State) (src g k : Nat) : State :=
  let l := hbtLoc g k
  let s1 := (s.pmc 0x850 l.stack src 1).activate l
  if s1.fbit (Fld.HBT_STACK_STATUS_SELF_REFRESH l.stack) then s1.fset (Fld.HBT_STACK_STATUS_SELF_REFRESH l.stack) 0 else s1

/-- Accesses to the units `lo` to `hi` of a page. -/
def State.hbtUnits (s : State) (src g lo hi : Nat) : State :=
  (List.range (hi + 1 - lo)).foldl (fun (t : State) i => t.hbtUnitAccess src g (lo + i)) s

/-- The unit that holds data byte `f` of a page: 16 bytes of header come first (11 R319). -/
def unitOf (f : Nat) : Nat := (16 + f) / 64

/-- Units a write replaces hold no poison any more; the first one keeps its own when the write begins inside it. -/
def State.unpoison (s : State) (g lo hi : Nat) (inside : Bool) : State :=
  { s with hbm := { s.hbm with poison := s.hbm.poison.filter fun u =>
      !(decide (hbtUnit g (if inside then lo + 1 else lo) ≤ u) && decide (u ≤ hbtUnit g hi)) } }

/-- The Cistern writer writes the data bytes `f` to `f' - 1` of a page; a write that begins inside a 64-bit word merges it (R502). -/
def State.hbtWrite (s : State) (g f f' : Nat) : State :=
  if f' ≤ f then s
  else
    let s1 := (s.hbtUnits 0 g (unitOf f) (unitOf (f' - 1))).unpoison g (unitOf f) (unitOf (f' - 1)) ((16 + f) % 64 != 0 && f != 0)
    if f % 8 = 0 then s1 else s1.satAdd Fld.HBT_RMW_CNT_COUNT 1

/-- A page taken from BUMP first receives an initialising write of its 64 units (R502). -/
def State.hbtInit (s : State) (g : Nat) : State := (s.hbtUnits 0 g 0 63).unpoison g 0 63 false

/-- An uncorrectable error is recorded (R509); `known` says the word was poisoned already. -/
def State.hbmUe (s : State) (l : HbmLoc) (unit src : Nat) (known scrub : Bool) : State :=
  let s1 := (((((s.fset (dieFld l.die Fld.HBF_ERR_LOC_STACK) l.stack).fset (dieFld l.die Fld.HBF_ERR_LOC_PC) l.pc).fset
    (dieFld l.die Fld.HBF_ERR_LOC_BANK) l.bank).fset (dieFld l.die Fld.HBF_ERR_LOC_ROW) l.row).fset
    (dieFld l.die Fld.HBF_ERR_LOC_COLUMN) l.column).fset (dieFld l.die Fld.HBF_ERR_INFO_SOURCE) src
  let s2 := (s1.fset (dieFld l.die Fld.HBF_ERR_INFO_KIND) (b2n known)).fset (dieFld l.die Fld.HBF_ERR_INFO_SCRUB) (b2n scrub)
  if known then s2
  else
    let k := 8 * l.die + l.stack
    let s3 := (s2.satAdd (dieFld l.die (Fld.HBF_UE_CNT_COUNT l.stack)) 1).setEvent (dieFld l.die Fld.HBF_EVENT_UE)
    let s4 := { s3 with hbm := { s3.hbm with ueSec := Assoc.put s3.hbm.ueSec 0 k (Assoc.get s3.hbm.ueSec 0 k + 1)
                                             poison := s3.hbm.poison ++ [unit] } }
    s4.raiseError (if l.die = 0 then 0x1401 else 0x1A01)
      ((s4.reg (dieFld l.die Fld.HBF_ERR_LOC_STACK).reg).toNat + 2 ^ 32 * (s4.reg (dieFld l.die Fld.HBF_ERR_INFO_SOURCE).reg).toNat)

/-- A stack's uncorrectable errors of this second reach UE_FAIL (R512). -/
def State.ueFails (s : State) (die k : Nat) : Bool :=
  let lim := s.fget (dieFld die Fld.HBF_FAIL_CFG_UE_FAIL)
  lim != 0 && decide (lim ≤ Assoc.get s.hbm.ueSec 0 (8 * die + k)) && s.fget (dieFld die (Fld.HBF_STACK_STATUS_STATE k)) != 4

/-- An FE stack fails: fatal (R512). -/
def State.hbfFail (s : State) (k : Nat) : State :=
  ((s.fset (Fld.HBF_STACK_STATUS_STATE k) 4).setEvent Fld.HBF_EVENT_STACK_FAIL).raiseError 0x1402 k

/-- An uncorrectable error of an FE unit, met by a source. -/
def State.hbfUeAt (s : State) (u src : Nat) (scrub : Bool) : State :=
  let l := hbfLoc u
  let s1 := s.hbmUe l u src (s.hbm.poison.contains u) scrub
  if s1.ueFails 0 l.stack then s1.hbfFail l.stack else s1

/-- A data error of a bucket or counter whose unit the spec does not place: a free one of its region (point 5). -/
def State.hbfUe (s : State) (src : Nat) (region : Nat × Nat) : State :=
  match s.free 5 with
  | (x, s1) => s1.hbfUeAt (region.1 + x % region.2) src false

/-- The data errors of HBM buckets among what a read of a source meets are recorded. -/
def State.hbfUes (s : State) (src : Nat) (upsets : List Upset) : State :=
  upsets.foldl (fun (t : State) u =>
    if !u.data then t
    else match u.table with
      | .lpm => t.hbfUe src lpmUnits
      | .exm => t.hbfUe src exmUnits
      | .flow => t.hbfUe src flowUnits
      | _ => t) s

/-- Flits of a packet that crosses to the TM die: their number and modules are free values (point 7). -/
def State.flits (s : State) : State :=
  if s.pmcCounts 0x040 then
    match s.free 7 with
    | (x, s1) => s1.pmc 0x040 (x % 24) 0 (x / 24)
  else s

end Sys2Proof.Machine
end

