-- ==== Sys2Proof/Machine/Gen.lean ====
section
/-! DEFINITION. The generation unit (03 R91-R124): states, visibility, the rules of a table-changing command, stamping and
drain counters. The generation commands and the journal walks are in Machine/GenCommands.lean. -/

namespace Sys2Proof.Machine

open Sys2Proof

/-! ### States and order (03 R91-R94) -/

def genFree : Nat := 0
def genBuilding : Nat := 1
def genPending : Nat := 2
def genActive : Nat := 3
def genDraining : Nat := 4
def genReclaim : Nat := 5

/-- The STATE field of index `g`. -/
def fldGenState (g : Nat) : Fld := ⟨Reg.GEN_STATE, 4 * g, 3⟩

/-- The parser bank field of index `g` (03 R106). -/
def fldGenBank (g : Nat) : Fld := ⟨Reg.GEN_PAR_BANK, 2 * g, 2⟩

def State.genStateOf (s : State) (g : Nat) : Nat := s.fget (fldGenState g)

def State.activeGen (s : State) : Nat := s.fget Fld.GEN_STATE_ACTIVE

def State.genSeq (s : State) (g : Nat) : Nat := s.fget (Fld.GEN_SEQ_SEQ g)

/-- The index that is BUILDING or PENDING: the one after ACTIVE (03 R94). -/
def State.buildGen (s : State) : Nat := (s.activeGen + 1) % 4

def State.buildOpen (s : State) : Bool := s.fbit Fld.GEN_STATE_BUILD_OPEN

def State.commitPending (s : State) : Bool := s.fbit Fld.GEN_STATE_PENDING

/-- Sequence number `a` is older than `b` (03 R94). -/
def seqOlder (a b : Nat) : Bool :=
  decide (1 ≤ (b + 2 ^ 32 - a) % 2 ^ 32) && decide ((b + 2 ^ 32 - a) % 2 ^ 32 < 2 ^ 31)

/-- Generation `p` is older than `g`. -/
def State.genOlder (s : State) (p g : Nat) : Bool := seqOlder (s.genSeq p) (s.genSeq g)

/-- Whether a version is visible to generation `p` (03 R98). -/
def State.visible (s : State) (t : Tag) (p : Nat) : Bool :=
  (!t.addV || !s.genOlder p t.addGen) && !(t.delV && !s.genOlder p t.delGen)

/-- Whether an index is live (03 R92). -/
def State.genLive (s : State) (g : Nat) : Bool :=
  s.genStateOf g == genPending || s.genStateOf g == genActive || s.genStateOf g == genDraining

/-- How many generations are live. -/
def State.liveCount (s : State) : Nat := ((List.range 4).filter s.genLive).length

/-- The oldest DRAINING generation: every other one is younger. -/
def State.oldestDraining (s : State) : Option Nat :=
  let dr := (List.range 4).filter fun g => s.genStateOf g == genDraining
  dr.find? fun g => dr.all fun h => !s.genOlder h g

/-! ### Versions (03 R98, R99, R102) -/

def tagNone : Tag := ⟨false, 0, false, 0⟩

/-- Where a table-changing command writes: the build, or the ACTIVE generation in place under profile 1 (03 R101). -/
structure WriteCtx where
  gen : Nat
  direct : Bool
  deriving DecidableEq, Repr

/-- What a table-changing command does to a key (03 R99). -/
inductive VerOp where
  | insert | replace | delete
  deriving DecidableEq, Repr

/-- What an operation changes in the counts of 03 R102: versions visible in the written generation (added, removed),
versions stored (added, removed), journal records. -/
structure VerCost where
  visAdd : Nat
  visSub : Nat
  storeAdd : Nat
  storeSub : Nat
  journal : Nat
  deriving DecidableEq, Repr

/-- Replaces the first element for which `p` holds. -/
def updateFirst {α : Type} (p : α → Bool) (f : α → α) : List α → List α
  | [] => []
  | x :: xs => if p x then f x :: xs else x :: updateFirst p f xs

/-- Removes the first element for which `p` holds. -/
def removeFirst {α : Type} (p : α → Bool) : List α → List α
  | [] => []
  | x :: xs => if p x then xs else x :: removeFirst p xs

/-- The rules of 03 R99 on a list of versions: `same` picks the key's versions, `new` gives the entry stored (from
the entry rewritten in place, when there is one), `weight` the count an entry takes. Answers the new list and its cost, or the status. -/
def verWrite {α : Type} (s : State) (ctx : WriteCtx) (same : α → Bool) (op : VerOp) (new : Option α → α) (weight : α → Nat)
    (vs : List (Ver α)) : Except Nat (List (Ver α) × VerCost) :=
  let hit := fun (v : Ver α) => same v.val && s.visible v.tag ctx.gen
  let own := fun (v : Ver α) => ctx.direct || (v.tag.addV && v.tag.addGen == ctx.gen)
  let tag : Tag := if ctx.direct then tagNone else ⟨true, ctx.gen, false, 0⟩
  match vs.find? hit, op with
  | some _, .insert => .error stExists
  | none, .insert => .ok (vs ++ [⟨tag, new none⟩], ⟨weight (new none), 0, weight (new none), 0, if ctx.direct then 0 else 1⟩)
  | none, _ => .error stNotFound
  | some v, .delete =>
    if own v then
      .ok (removeFirst hit vs, ⟨0, weight v.val, 0, weight v.val, if ctx.direct then 0 else 1⟩)
    else
      .ok (updateFirst hit (fun v => { v with tag := { v.tag with delV := true, delGen := ctx.gen } }) vs,
        ⟨0, weight v.val, 0, 0, 1⟩)
  | some v, .replace =>
    if own v then
      let w := weight (new (some v.val))
      .ok (updateFirst hit (fun v => { v with val := new (some v.val) }) vs, ⟨w - weight v.val, weight v.val - w,
        w - weight v.val, weight v.val - w, 0⟩)
    else
      let w := weight (new none)
      .ok (updateFirst hit (fun v => { v with tag := { v.tag with delV := true, delGen := ctx.gen } }) vs
        ++ [⟨tag, new none⟩], ⟨w - weight v.val, weight v.val - w, w, 0, 2⟩)

/-- Versions visible to a generation, by weight. -/
def verVisible {α : Type} (s : State) (g : Nat) (weight : α → Nat) (vs : List (Ver α)) : Nat :=
  (vs.filter fun v => s.visible v.tag g).foldl (fun n v => n + weight v.val) 0

/-- Versions stored, by weight. -/
def verStored {α : Type} (weight : α → Nat) (vs : List (Ver α)) : Nat := vs.foldl (fun n v => n + weight v.val) 0

/-- The tables that have a capacity of their own: the seven of 03 R96 by number, then those that share the margin of one
(07 R227, 09 R283, 10 R305, R307, R314): next hops 7, ECMP groups 8, replication groups 9, edit programs 10, mirror
sessions 11, header templates 12, ECMP members 13, replication members 14. -/
def tableCapacity (u : Nat) : Nat :=
  [12582912, 1048576, 16777216, 32768, 262144, 262144, 262144, 524288, 65536, 65536, 4096, 32, 4096, 1048576, 262144].getD u 0

/-- The table of 03 R96 whose margin applies. -/
def tableMargin (u : Nat) : Nat := [0, 1, 2, 3, 4, 5, 6, 0, 0, 5, 5, 5, 6, 0, 5].getD u 0

/-- The journal count of a generation and a table. -/
def State.journalCount (s : State) (g u : Nat) : Nat := Assoc.get s.gen.journal 0 (16 * g + u)

/-- Whether the counts stay in the limits of 03 R102: only a count that would rise is checked. `vis` and `stored` are
the table's counts before the write. -/
def State.withinLimits (s : State) (u : Nat) (ctx : WriteCtx) (vis stored : Nat) (k : VerCost) : Bool :=
  let c := tableCapacity u
  let m := s.fget (Fld.GEN_MARGIN_PERCENT (tableMargin u))
  (k.visAdd == 0 || decide (vis + k.visAdd ≤ c * (100 - m) / 100))
    && (k.storeAdd == 0 || decide (stored + k.storeAdd ≤ c))
    && (ctx.direct || k.journal == 0 || decide (s.journalCount ctx.gen u + k.journal ≤ 2 * (c * m / 100)))

/-- Adds journal records of the build. -/
def State.addJournal (s : State) (ctx : WriteCtx) (u n : Nat) : State :=
  if ctx.direct then s
  else
    let j := Assoc.put s.gen.journal 0 (16 * ctx.gen + u) (s.journalCount ctx.gen u + n)
    { s with gen := { s.gen with journal := j } }

/-! ### Admission of a table-changing command (03 R100, R101, R107) -/

/-- The status and RESULT0 of a command turned away because another master holds the build (02 R87 BUSY). -/
def State.busyResult (s : State) : Nat := s.fget Fld.GEN_STATE_HOLDER + 16 * s.fget Fld.IGL_ID_CHAIN_ID

/-- Whether a command of the generation unit has started its commit or abandon (03 R107, R112). -/
def State.genClosing (s : State) : Bool := s.gen.wait.isSome

/-- Where a table-changing command of master `m` may write, or its status and RESULT0. -/
def State.writeCtx (s : State) (m : Nat) : Except (Nat × Nat) WriteCtx :=
  if s.buildOpen then
    if s.fget Fld.GEN_STATE_HOLDER ≠ m then .error (stBusy, s.busyResult)
    else if s.genClosing then .error (stState, 0)
    else .ok ⟨s.buildGen, false⟩
  else if s.commitPending then .error (stState, 0)
  else if s.fget Fld.GLB_COMPAT_PROFILE_PROFILE = 1 then .ok ⟨s.activeGen, true⟩
  else .error (stState, 0)

/-- A direct write that completed OK is counted (03 R101). -/
def State.countDirect (s : State) (ctx : WriteCtx) : State :=
  if ctx.direct then s.satAdd Fld.GEN_DIRECT_CNT_COUNT 1 else s

/-! ### Stamping (03 R113, R114) and drain counters (03 R116, R121) -/

/-- Device time in quarter-nanoseconds. -/
def State.nowQns (s : State) : Nat := 4 * s.nowNs + s.view.qns

/-- The generation a stamp point gives to a stamp (in quarter-nanoseconds), and the state with the point switched when
the stamp is at or after the armed instant. -/
def State.stampGen (s : State) (point stamp : Nat) : Nat × State :=
  match s.gen.arm with
  | none => (s.activeGen, s)
  | some a =>
    if a.switched.contains point then (a.build, s)
    else if a.instant ≤ stamp then
      (a.build, { s with gen := { s.gen with arm := some { a with switched := a.switched ++ [point] } } })
    else if s.genStateOf a.prev = genActive ∨ s.genStateOf a.prev = genDraining then (a.prev, s)
    else (s.activeGen, s)

/-- A packet, or a copy, carries generation `g`. -/
def State.drainInc (s : State) (g : Nat) : State :=
  s.fset (Fld.GEN_DRAIN_COUNT g) (s.fget (Fld.GEN_DRAIN_COUNT g) + 1)

/-- A packet that carried `g` has left: a decrement that finds 0 is an error (03 R121). -/
def State.drainDec (s : State) (g : Nat) : State :=
  if s.fget (Fld.GEN_DRAIN_COUNT g) = 0 then (s.setEvent Fld.GEN_EVENT_COUNT_ERR).raiseError 0x1301 g
  else s.fset (Fld.GEN_DRAIN_COUNT g) (s.fget (Fld.GEN_DRAIN_COUNT g) - 1)

end Sys2Proof.Machine
end

