-- ==== Sys2Proof/Machine/Tables.lean ====
section
/-! DEFINITION. What the lookup tables share: indexed versions, member blocks, references among tables (07 R231, 09 R279,
10 R309) and the parity errors they meet. -/

namespace Sys2Proof.Machine

open Sys2Proof

/-- Whether a generation index may be read: not FREE, not in RECLAIM. -/
def State.genReadable (s : State) (g : Nat) : Bool := s.genStateOf g != genFree && s.genStateOf g != genReclaim

/-- Replaces element `i` of a list by `f` of it. -/
def modifyAt {α : Type} (f : α → α) : Nat → List α → List α
  | _, [] => []
  | 0, x :: xs => f x :: xs
  | n + 1, x :: xs => x :: modifyAt f n xs

/-- The lowest run of `n` free positions of a store: candidates are 0 and the position after each taken one. -/
def freeRun (cap n : Nat) (taken : List Nat) : Option Nat :=
  let cand := (0 :: taken.map (· + 1)).filter fun x =>
    decide (x + n ≤ cap) && (List.range n).all fun i => !taken.contains (x + i)
  match cand with
  | [] => none
  | x :: xs => some (xs.foldl min x)

/-! ### Tags and indexed versions -/

/-- The 6 bits of a tag: ADD_V, ADD_GEN, DEL_V, DEL_GEN from bit 0 (03 R98, 07 R213). -/
def Tag.bits (t : Tag) : Nat := b2n t.addV + 2 * t.addGen + 8 * b2n t.delV + 16 * t.delGen

/-- The version of an index visible to a generation. -/
def State.idxVer (s : State) (vs : List (Ver IdxVal)) (g i : Nat) : Option (Ver IdxVal) :=
  vs.find? fun v => v.val.idx == i && s.visible v.tag g

/-- The entry of an index visible to a generation, when it passes parity. -/
def State.idxGet (s : State) (vs : List (Ver IdxVal)) (g i : Nat) : Option Nat :=
  match s.idxVer vs g i with
  | some v => if v.val.bad then none else some v.val.bits
  | none => none

/-- Whether an index has a visible version (03 R98). -/
def State.idxHas (s : State) (vs : List (Ver IdxVal)) (g i : Nat) : Bool := (s.idxVer vs g i).isSome

/-- A version as a READ gives it: VALID, tag at [7:2], the fields, even PARITY in bit `n - 1`. -/
def verBits (n : Nat) (v : Ver IdxVal) : Nat :=
  let x := v.val.bits + 1 + 4 * v.tag.bits
  x + parityOf (n - 1) x * 2 ^ (n - 1)

/-- How many visible versions satisfy a test. -/
def State.countVis {α : Type} (s : State) (vs : List (Ver α)) (g : Nat) (p : α → Bool) : Nat :=
  (vs.filter fun v => s.visible v.tag g && p v.val).length

/-! ### Member blocks (07 R229, 09 R283) -/

/-- BASE and SIZE of an ECMP group's bits (07 R227). -/
def ecmpBase (bits : Nat) : Nat := bitsAt bits 8 20
def ecmpSize (bits : Nat) : Nat := bitsAt bits 28 8 + 1

/-- BASE and SIZE of a replication group's bits (09 R283). -/
def replBase (bits : Nat) : Nat := bitsAt bits 8 18
def replSize (bits : Nat) : Nat := bitsAt bits 26 10 + 1

/-- The blocks still held: named by a group version, or replaced in place less than 1 µs ago (07 R235). -/
def liveBlocks (now : Nat) (groups : List (Ver IdxVal)) (baseOf : Nat → Nat) (bs : List Block) : List Block :=
  bs.filter fun b => groups.any (fun v => baseOf v.val.bits == b.base)
    || (match b.freeAt with | some t => decide (now < t) | none => false)

/-- Whether `size` positions from `base` are free. -/
def runFree (cap base size : Nat) (bs : List Block) : Bool :=
  decide (base + size ≤ cap) && bs.all fun b => decide (b.base + b.members.length ≤ base) || decide (base + size ≤ b.base)

/-- The lowest free run of `size` positions: first fit. -/
def firstFit (cap size : Nat) (bs : List Block) : Option Nat :=
  let cand := (0 :: bs.map fun b => b.base + b.members.length).filter fun x => runFree cap x size bs
  match cand with
  | [] => none
  | x :: xs => some (xs.foldl min x)

/-- The members held by blocks. -/
def blocksSize (bs : List Block) : Nat := bs.foldl (fun n b => n + b.members.length) 0

/-- The room from a position to the next block, or to the table's end. -/
def roomFrom (cap x : Nat) (bs : List Block) : Nat :=
  bs.foldl (fun m b => if x ≤ b.base then min m (b.base - x) else m) (cap - x)

/-- The largest free run. -/
def largestRun (cap : Nat) (bs : List Block) : Nat :=
  let cand := (0 :: bs.map fun b => b.base + b.members.length).filter fun x => runFree cap x 1 bs
  cand.foldl (fun m x => max m (roomFrom cap x bs)) 0

/-- The block a group's bits name. -/
def blockAt (bs : List Block) (base : Nat) : Option Block := bs.find? fun b => b.base == base && b.freeAt.isNone

/-- The blocks named by the groups visible to a generation. -/
def State.visBlocks (s : State) (groups : List (Ver IdxVal)) (baseOf : Nat → Nat) (bs : List Block) (g : Nat) : List Block :=
  (groups.filter fun v => s.visible v.tag g).filterMap fun v => blockAt bs (baseOf v.val.bits)

/-! ### Fields of entries -/

def nhActSet (x : Nat) : Nat := bitsAt x 8 20
def nhEncap (x : Nat) : Nat := bitsAt x 28 22
def nhDev (x : Nat) : Nat := bitsAt x 50 11
def nhPort (x : Nat) : Nat := bitsAt x 61 7

def camKey (x : Nat) : Nat := bitsAt x 0 480
def camMask (x : Nat) : Nat := bitsAt x 480 480
def camActSet (x : Nat) : Nat := bitsAt x 968 18

def actCopyEn (x : Nat) : Bool := bitAt x 1
def actFwd (x : Nat) : Nat := bitsAt x 8 3
def actTcEn (x : Nat) : Bool := bitAt x 11
def actFwdArg (x : Nat) : Nat := bitsAt x 12 20
def actTc (x : Nat) : Nat := bitsAt x 32 3
def actQEn (x : Nat) : Bool := bitAt x 35
def actQAbs (x : Nat) : Bool := bitAt x 36
def actCookieEn (x : Nat) : Bool := bitAt x 37
def actStatEn (x : Nat) : Bool := bitAt x 38
def actPrecolorEn (x : Nat) : Bool := bitAt x 39
def actPrecolor (x : Nat) : Nat := bitsAt x 40 2
def actHostRing (x : Nat) : Nat := bitsAt x 42 6
def actReason (x : Nat) : Nat := bitsAt x 48 8
def actMirror (x : Nat) : Nat := bitsAt x 56 4
def actQueue (x : Nat) : Nat := bitsAt x 64 20
def actPol0 (x : Nat) : Nat := bitsAt x 84 18
def actPol1 (x : Nat) : Nat := bitsAt x 102 18
def actCookie (x : Nat) : Nat := bitsAt x 128 32
def actStat (x : Nat) : Nat := bitsAt x 160 25
def actEdit (x : Nat) : Nat := bitsAt x 192 12

def encTemplate (x : Nat) : Nat := bitsAt x 16 12

def mirEncap (x : Nat) : Nat := bitsAt x 46 22

def rmPort (x : Nat) : Nat := bitsAt x 0 7
def rmDev (x : Nat) : Nat := bitsAt x 7 11
def rmEncap (x : Nat) : Nat := bitsAt x 18 22
def rmSkipSrc (x : Nat) : Bool := bitAt x 40

/-! ### References in a generation (07 R231, 08 R243, 09 R279, 10 R309) -/

/-- References to next hop `i` visible in `g`. -/
def State.nhRefs (s : State) (g i : Nat) : Nat :=
  s.countVis s.tab.lpm g (fun e => e.rtype == 0 && e.result == i)
    + ((s.visBlocks s.tab.ecmp ecmpBase s.tab.ecmpBlocks g).filter fun b => b.members.contains i).length
    + s.countVis s.tab.exm g (fun e => e.rkind == 1 && e.result == i)
    + s.countVis s.tab.act g (fun e => actFwd e.bits == 3 && actFwdArg e.bits == i)

/-- References to ECMP group `i`. -/
def State.ecmpRefs (s : State) (g i : Nat) : Nat :=
  s.countVis s.tab.lpm g (fun e => e.rtype == 1 && e.result == i)
    + s.countVis s.tab.exm g (fun e => e.rkind == 2 && e.result == i)

/-- References to action set `i`. -/
def State.actRefs (s : State) (g i : Nat) : Nat :=
  s.countVis s.tab.cam g (fun e => camActSet e.bits == i) + s.countVis s.tab.nh g (fun e => nhActSet e.bits == i)
    + s.countVis s.tab.exm g (fun e => e.rkind == 0 && e.result == i)

/-- References to policer binding `i`; 0 names none. -/
def State.polbRefs (s : State) (g i : Nat) : Nat :=
  s.countVis s.tab.act g fun e => i != 0 && (actPol0 e.bits == i || actPol1 e.bits == i)

/-- References to replication group `i`. -/
def State.replRefs (s : State) (g i : Nat) : Nat :=
  s.countVis s.tab.act g fun e => actFwd e.bits == 5 && actFwdArg e.bits == i

/-- References to edit program `i`. -/
def State.editRefs (s : State) (g i : Nat) : Nat := s.countVis s.tab.act g fun e => actEdit e.bits == i

/-- References to mirror session `i`. -/
def State.mirrorRefs (s : State) (g i : Nat) : Nat := s.countVis s.tab.act g fun e => actMirror e.bits == i

/-- References to encapsulation entry `i`. -/
def State.encapRefs (s : State) (g i : Nat) : Nat :=
  s.countVis s.tab.nh g (fun e => nhEncap e.bits == i)
    + ((s.visBlocks s.tab.repl replBase s.tab.replBlocks g).filter fun b => b.members.any fun m => rmEncap m == i).length
    + s.countVis s.tab.mirror g (fun e => mirEncap e.bits == i)

/-- References to header template `i`. -/
def State.tmplRefs (s : State) (g i : Nat) : Nat := s.countVis s.tab.encap g fun e => encTemplate e.bits == i

/-- Whether a reference is satisfied: none named, or the object visible in `g`. -/
def State.refOk (s : State) (vs : List (Ver IdxVal)) (g i : Nat) : Bool := i == 0 || s.idxHas vs g i

/-! ### Writing an indexed entry -/

/-- The operation code of ARG0[25:24]. -/
def verOpOf (op : Nat) : VerOp := if op = 0 then .insert else if op = 1 then .replace else .delete

/-- What an indexed table is to the shared write: its number, its list in the state. -/
structure IdxTable where
  num : Nat
  get : TabState → List (Ver IdxVal)
  put : TabState → List (Ver IdxVal) → TabState

def nhTable : IdxTable := ⟨7, TabState.nh, fun t l => { t with nh := l }⟩
def ecmpTable : IdxTable := ⟨8, TabState.ecmp, fun t l => { t with ecmp := l }⟩
def actTable : IdxTable := ⟨5, TabState.act, fun t l => { t with act := l }⟩
def polbTable : IdxTable := ⟨4, TabState.polb, fun t l => { t with polb := l }⟩
def replTable : IdxTable := ⟨9, TabState.repl, fun t l => { t with repl := l }⟩
def editTable : IdxTable := ⟨10, TabState.edit, fun t l => { t with edit := l }⟩
def mirrorTable : IdxTable := ⟨11, TabState.mirror, fun t l => { t with mirror := l }⟩
def encapTable : IdxTable := ⟨6, TabState.encap, fun t l => { t with encap := l }⟩
def tmplTable : IdxTable := ⟨12, TabState.tmpl, fun t l => { t with tmpl := l }⟩

/-- Checks 7 to 9 of 02 R627 for one indexed entry, and the write: the rules of 03 R99, the references (a named object
absent: NOT_FOUND with RESULT0[1]; an object still named: STATE), the limits of 03 R102. Answers the state written
and the cost, or the status and RESULT0. -/
def State.idxApply (s : State) (t : IdxTable) (ctx : WriteCtx) (op : VerOp) (idx bits : Nat) (refsOk : Bool)
    (refs : Nat) : Except (Nat × Nat) State :=
  let vs := t.get s.tab
  match verWrite s ctx (fun v => v.idx == idx) op (fun _ => ⟨idx, bits, false⟩) (fun _ => 1) vs with
  | .error st => .error (st, 0)
  | .ok (vs', k) =>
    if op ≠ .delete ∧ refsOk = false then .error (stNotFound, 2)
    else if op = .delete ∧ refs ≠ 0 then .error (stState, 0)
    else if s.withinLimits t.num ctx (verVisible s ctx.gen (fun _ => 1) vs) vs.length k then
      let s1 := { s with tab := t.put s.tab vs' }
      .ok ((s1.addJournal ctx t.num k.journal).countDirect ctx)
    else .error (stNoSpace, 0)

/-- A table-changing command on one indexed entry. -/
def State.idxWrite (s : State) (c : Cmd) (t : IdxTable) (op idx bits : Nat) (refsOk : Nat → Bool)
    (refs : Nat → Nat) : State × Done :=
  match s.writeCtx (s.cmdMaster c) with
  | .error (st, r0) => (s, .done st r0 0)
  | .ok ctx =>
    match s.idxApply t ctx (verOpOf op) idx bits (refsOk ctx.gen) (refs ctx.gen) with
    | .error (st, r0) => (s, .done st r0 0)
    | .ok s' => (s', .done stOK 0 0)

/-- What a group table is to the shared group write. -/
structure GroupTable where
  idx : IdxTable
  blocks : TabState → List Block
  putBlocks : TabState → List Block → TabState
  baseOf : Nat → Nat
  sizeOf : Nat → Nat
  bitsOf : Nat → Nat → Nat
  /-- Number of the member table in `tableCapacity`. -/
  memNum : Nat

def ecmpGroups : GroupTable :=
  { idx := ecmpTable, blocks := TabState.ecmpBlocks, putBlocks := fun t b => { t with ecmpBlocks := b }
    baseOf := ecmpBase, sizeOf := ecmpSize, bitsOf := fun b n => b * 2 ^ 8 + (n - 1) * 2 ^ 28, memNum := 13 }

def replGroups : GroupTable :=
  { idx := replTable, blocks := TabState.replBlocks, putBlocks := fun t b => { t with replBlocks := b }
    baseOf := replBase, sizeOf := replSize, bitsOf := fun b n => b * 2 ^ 8 + (n - 1) * 2 ^ 26, memNum := 14 }

/-- Frees the blocks no group version names any more (07 R229). -/
def State.tidyGroups (s : State) (t : GroupTable) : State :=
  { s with tab := t.putBlocks s.tab (liveBlocks s.nowNs (t.idx.get s.tab) t.baseOf (t.blocks s.tab)) }

/-- The bits of the group's version visible in `g`. -/
def State.groupBits (s : State) (t : GroupTable) (g i : Nat) : Option Nat :=
  (s.idxVer (t.idx.get s.tab) g i).map fun v => v.val.bits

/-- Writes a group with its members: allocated first fit, no free run being NO_SPACE (07 R229); a group replaced in place
by a direct write keeps its old block for 1 µs (07 R235). Answers the state and BASE. -/
def State.groupApply (s0 : State) (t : GroupTable) (ctx : WriteCtx) (op : VerOp) (idx : Nat) (members : List Nat)
    (refsOk : Bool) (refs : Nat) : Except (Nat × Nat) (State × Nat) :=
  let s := s0.tidyGroups t
  let vis := (s.visBlocks (t.idx.get s.tab) t.baseOf (t.blocks s.tab) ctx.gen)
  let size := if op = .delete then 0 else members.length
  let cap := tableCapacity t.memNum
  let old := s.groupBits t ctx.gen idx
  let oldSize := match old with | some b => t.sizeOf b | none => 0
  let base := (firstFit cap size (t.blocks s.tab)).getD 0
  match s.idxApply t.idx ctx op idx (t.bitsOf base size) refsOk refs with
  | .error e => .error e
  | .ok s1 =>
    if op = .delete then .ok (s1.tidyGroups t, 0)
    else if (firstFit cap size (t.blocks s.tab)).isNone then .error (stNoSpace, 0)
    else if !s.withinLimits t.memNum ctx (blocksSize vis) (blocksSize (t.blocks s.tab))
        ⟨size - oldSize, 0, size, 0, 0⟩ then .error (stNoSpace, 0)
    else
      let stamp := fun (b : Block) =>
        if ctx.direct ∧ old.map t.baseOf = some b.base then { b with freeAt := some (s.nowNs + 1000) } else b
      let bs := (t.blocks s1.tab).map stamp ++ [⟨base, members, [], none⟩]
      .ok ((({ s1 with tab := t.putBlocks s1.tab bs }).tidyGroups t), base)

def State.groupWrite (s : State) (c : Cmd) (t : GroupTable) (op idx : Nat) (members : List Nat)
    (refsOk : Nat → Bool) (refs : Nat → Nat) : State × Done :=
  match s.writeCtx (s.cmdMaster c) with
  | .error (st, r0) => (s, .done st r0 0)
  | .ok ctx =>
    match s.groupApply t ctx (verOpOf op) idx members (refsOk ctx.gen) (refs ctx.gen) with
    | .error (st, r0) => (s, .done st r0 0)
    | .ok (s', base) => (s', .done stOK base 0)

/-- The state after the checks up to 6 of a table-changing command whose later checks need host data: whether it may go on. -/
def State.mayWrite (s : State) (c : Cmd) : Option (Nat × Nat) :=
  match s.writeCtx (s.cmdMaster c) with
  | .error e => some e
  | .ok _ => none

/-- Cuts a list of bytes into numbers of `n` bytes each. -/
def chunks (n : Nat) : Nat → List Byte → List Nat
  | 0, _ => []
  | k + 1, bs => leNat (bs.take n) :: chunks n k (bs.drop n)

/-- The members a group command reads from host memory, or the status it completes with: on a failed read, a status of the
checks before it (02 R627). -/
def State.groupCmd (s : State) (c : Cmd) (t : GroupTable) (op idx size bytes : Nat) (d : HostData)
    (valid : Nat → Option Nat)
    (refsOk : List Nat → Nat → Bool) (refs : Nat → Nat) : State × Done :=
  if op = 2 then s.groupWrite c t op idx [] (fun _ => true) refs
  else
    match d.get with
    | .error st =>
      match s.groupWrite c t op idx (List.replicate size 0) (fun _ => true) refs with
      | (_, .done 0 _ _) => fail st s
      | (_, r) => (s, r)
    | .ok b =>
      let ms := chunks bytes size b
      match ms.findSome? valid with
      | none => s.groupWrite c t op idx ms (refsOk ms) refs
      | some bad =>
        match s.mayWrite c with
        | some (st, r0) => (s, .done st r0 0)
        | none => fail bad s

end Sys2Proof.Machine
end

