-- ==== Sys2Proof/Machine/Prefix.lean ====
section
/-! DEFINITION. The prefix tables (07 R209-R238): keys, places, filter, lookup, and the commands of subject 0x04. -/

namespace Sys2Proof.Machine

open Sys2Proof

/-! ### Keys and slots (R209, R210) -/

/-- The first `len` bits of a 128-bit address. -/
def maskAddr (addr len : Nat) : Nat := addr / 2 ^ (128 - len) * 2 ^ (128 - len)

/-- Slots of a prefix (R210). -/
def lpmSlots (e : LpmEntry) : Nat := if e.family = 1 ∧ 64 < e.len then 2 else 1

/-- A length's number: 256 FAMILY + LENGTH. -/
def lenKey (family len : Nat) : Nat := 256 * family + len

/-- A key as one number, for the filter's regions. -/
def lpmKeyNum (family vrf len pfx : Nat) : Nat := ((family * 4096 + vrf) * 256 + len) * 2 ^ 128 + pfx

def LpmEntry.keyNum (e : LpmEntry) : Nat := lpmKeyNum e.family e.vrf e.len e.pfx

/-- Same key, the entry passing parity (R214). -/
def LpmEntry.isKey (family vrf len pfx : Nat) (e : LpmEntry) : Bool :=
  e.family == family && e.vrf == vrf && e.len == len && e.pfx == pfx && !e.bad

/-! ### Places (R211, R212, R215, R216) -/

/-- The hash of R212. -/
def State.lpmHash (s : State) (family vrf len pfx : Nat) : Nat :=
  crc32c (Nat.xor (s.fget Fld.LPM_HASH_SEED_SEED) (family * 256 + len))
    ([vrf % 256, vrf / 256, len, family] ++ natBytes 16 pfx)

/-- Versions stored at a length. -/
def State.lenCount (s : State) (family len : Nat) : Nat :=
  (s.tab.lpm.filter fun v => v.val.family == family && v.val.len == len).length

/-- The bucket a lookup of the key reads: while a table doubles, the new one once its pair has been split (R216). -/
def State.lpmBucket (s : State) (family vrf len pfx : Nat) : Nat :=
  let h := s.lpmHash family vrf len pfx
  let t := Assoc.get s.tab.lens ⟨10, none⟩ (lenKey family len)
  match t.split with
  | some done => if h % 2 ^ t.log2 < done then h % 2 ^ (t.log2 + 1) else h % 2 ^ t.log2
  | none => h % 2 ^ t.log2

/-- Positions of a bucket: four narrow, two wide (R211). -/
def bucketSize (family len : Nat) : Nat := if family = 1 ∧ 64 < len then 2 else 4

/-- The positions taken in the key's bucket, or in its default store pair. -/
def State.lpmTaken (s : State) (family vrf len pfx : Nat) : List Nat :=
  let j := s.lpmBucket family vrf len pfx
  s.tab.lpm.filterMap fun v =>
    let e := v.val
    match e.place with
    | .bucket k =>
      if e.family = family ∧ e.len = len ∧ s.lpmBucket e.family e.vrf e.len e.pfx = j then some k else none
    | .dflt k => if len = 0 ∧ e.len = 0 ∧ k / 2 = family * 4096 + vrf then some (k % 2) else none
    | .overflow _ => none

/-- Overflow positions taken. -/
def ovfTaken (vs : List (Ver LpmEntry)) : List Nat :=
  vs.flatMap fun v =>
    match v.val.place with
    | .overflow k => (List.range (lpmSlots v.val)).map (k + ·)
    | _ => []

/-- Overflow slots used. -/
def State.ovfUsed (s : State) : Nat := (ovfTaken s.tab.lpm).length

/-- Bytes of the 4 GiB region that the length tables take; a doubling takes both sizes' new half at once. -/
def State.lpmRegion (s : State) : Nat :=
  s.tab.lens.foldl (fun n kv => n + 64 * 2 ^ (kv.2.log2 + (if kv.2.split.isSome then 1 else 0))) 0

/-- Creates the length's table at b = 10 with its first entry (R216), when the region has room. -/
def State.lenCreate (s : State) (family len : Nat) : State :=
  if len = 0 ∨ (Assoc.find s.tab.lens (lenKey family len)).isSome ∨ 2 ^ 32 < s.lpmRegion + 64 * 1024 then s
  else { s with tab := { s.tab with lens := Assoc.insert s.tab.lens (lenKey family len) ⟨10, none⟩ } }

/-- Where a new version goes (R215). -/
def State.lpmPlace (s : State) (family vrf len pfx : Nat) : Option LpmPlace :=
  let taken := s.lpmTaken family vrf len pfx
  let inBucket :=
    if len = 0 then ((List.range 2).find? fun k => !taken.contains k).map fun k => .dflt ((family * 4096 + vrf) * 2 + k)
    else if (Assoc.find s.tab.lens (lenKey family len)).isNone then none
    else ((List.range (bucketSize family len)).find? fun k => !taken.contains k).map .bucket
  match inBucket with
  | some p => some p
  | none => (freeRun 131072 (if family = 1 ∧ 64 < len then 2 else 1) (ovfTaken s.tab.lpm)).map .overflow

/-- RESULT0 of an INSERT or REPLACE (R232): overflow flag, and where the version is stored. -/
def State.lpmWhere (s : State) (e : LpmEntry) : Nat :=
  match e.place with
  | .overflow k => 1 + 256 * k
  | .dflt k => 256 * k
  | .bucket _ => 256 * s.lpmBucket e.family e.vrf e.len e.pfx

/-! ### Filter (R217-R220) -/

/-- Sets a key's bits when its first version is stored (R218); the length's region is created with it (R219). -/
def State.filtSet (s : State) (family vrf len pfx : Nat) : State :=
  if len = 0 then s
  else
    let k := lenKey family len
    let r := Assoc.get s.tab.filt ⟨1, [], 0, none, false⟩ k
    let n := lpmKeyNum family vrf len pfx
    let r' := { r with keys := if r.keys.contains n then r.keys else n :: r.keys, inserts := r.inserts + 1 }
    { s with tab := { s.tab with filt := Assoc.insert s.tab.filt k r' } }

/-- Frees the regions of lengths that hold no stored version (R219). -/
def State.filtTidy (s : State) : State :=
  { s with tab := { s.tab with filt := s.tab.filt.filter fun kv => decide (s.lenCount (kv.1 / 256) (kv.1 % 256) ≠ 0) } }

/-- The candidate lengths of a key, longest first (R217): every length whose region has the key's bits set, and, of the
other populated ones, those a free value names (a false positive depends on the device's own seeds, R220). -/
def State.lpmCandidates (s : State) (family vrf addr noise : Nat) : List Nat :=
  ((List.range (if family = 1 then 129 else 33)).reverse).filter fun len =>
    decide (len ≠ 0) &&
    match Assoc.find s.tab.filt (lenKey family len) with
    | some r => r.keys.contains (lpmKeyNum family vrf len (maskAddr addr len)) || bitAt noise len
    | none => false

/-- Whether a length holds a stored version of the key, in any state. -/
def State.lpmStored (s : State) (family vrf addr len : Nat) : Bool :=
  s.tab.lpm.any fun v => v.val.family == family && v.val.vrf == vrf && v.val.len == len && v.val.pfx == maskAddr addr len

/-! ### Lookup (R221, R222, R230) -/

/-- The result record of R222, with the candidates and the false ones. -/
structure LpmResult where
  hit : Bool
  isDefault : Bool
  len : Nat
  nextHop : Nat
  ecmp : Bool
  member : Nat
  cls : Nat
  err : Bool
  cands : Nat
  falseCands : Nat
  deriving DecidableEq, Repr

def lpmMiss : LpmResult := ⟨false, false, 0, 0, false, 0, 0, false, 0, 0⟩

/-- Chooses the member of a group visible to `p` (R230): the next hop, the member, and whether an entry failed parity. -/
def State.ecmpResolve (s : State) (p group h : Nat) : Option (Nat × Nat) :=
  match s.idxGet s.tab.ecmp p group with
  | none => none
  | some bits =>
    let m := (h / 2 ^ 16) * ecmpSize bits / 2 ^ 16
    match blockAt s.tab.ecmpBlocks (ecmpBase bits) with
    | none => none
    | some b => if b.bad.contains m then none else b.members[m]?.map fun nh => (nh, m)

/-- The ECMP hash of R230 over the prefix key and the EM0 key; a key not built reads as zeros. -/
def State.ecmpHash (s : State) (pfxKey em0 : Nat) : Nat :=
  crc32c (s.fget Fld.LPM_ECMP_SEED_SEED) (natBytes 20 pfxKey ++ natBytes 48 em0)

/-- The longest visible match of a key (R214, R221): over the candidate lengths, the overflow store and the default
store, which hold no other lengths' matches. -/
def State.lpmBest (s : State) (p family vrf addr : Nat) : Option LpmEntry :=
  (s.tab.lpm.filter fun v =>
      v.val.isKey family vrf v.val.len (maskAddr addr v.val.len) && s.visible v.tag p).foldl
    (fun best v => match best with
      | none => some v.val
      | some e => if e.len < v.val.len then some v.val else some e) none

/-- Whether a visible version that would match was ignored for its parity. -/
def State.lpmErr (s : State) (p family vrf addr : Nat) : Bool :=
  s.tab.lpm.any fun v => v.val.bad && v.val.family == family && v.val.vrf == vrf
    && v.val.pfx == maskAddr addr v.val.len && s.visible v.tag p

/-- The lookup of a built key `k` for generation `p`, with the ECMP hash `h` (R221). A next-hop, group or member entry
that fails parity gives a miss with ERR (R236). -/
def State.lpmLookup (s : State) (k p h noise : Nat) : LpmResult :=
  if !s.fbit Fld.LPM_CFG_EN then lpmMiss
  else
    let family := bitsAt k 159 1
    let vrf := bitsAt k 128 12
    let addr := if family = 0 then bitsAt k 96 32 * 2 ^ 96 else bitsAt k 0 128
    let cands := s.lpmCandidates family vrf addr noise
    let falses := cands.filter fun l => !s.lpmStored family vrf addr l
    let err := s.lpmErr p family vrf addr
    let base := { lpmMiss with err := err, cands := cands.length, falseCands := falses.length }
    match s.lpmBest p family vrf addr with
    | none => base
    | some e =>
      let found := { base with hit := true, isDefault := e.len == 0, len := e.len, cls := e.cls }
      if e.rtype = 0 then
        match s.idxGet s.tab.nh p e.result with
        | some _ => { found with nextHop := e.result }
        | none => { base with err := true }
      else
        match s.ecmpResolve p e.result h with
        | none => { base with err := true }
        | some (nh, m) =>
          match s.idxGet s.tab.nh p nh with
          | some _ => { found with nextHop := nh, ecmp := true, member := m }
          | none => { base with err := true }

/-- The fields of R222 in the order listed, from bit 0. -/
def LpmResult.bits (r : LpmResult) : Nat :=
  b2n r.hit + 2 * b2n r.isDefault + 2 ^ 2 * r.len + 2 ^ 10 * r.nextHop + 2 ^ 29 * b2n r.ecmp + 2 ^ 30 * r.member
    + 2 ^ 38 * r.cls + 2 ^ 46 * b2n r.err

/-! ### Parity errors (R236) -/

/-- Reports a parity or data error: event, counter, place, log entry. -/
def State.lpmReport (s : State) (index len family table : Nat) (data : Bool) : State :=
  let s1 := s.satAdd Fld.LPM_PAR_ERR_CNT_COUNT 1
  let s2 := (s1.fset Fld.LPM_PAR_ERR_LOC_INDEX index).fset Fld.LPM_PAR_ERR_LOC_LENGTH len
  let s3 := ((s2.fset Fld.LPM_PAR_ERR_INFO_FAMILY family).fset Fld.LPM_PAR_ERR_INFO_TABLE table).fset
    Fld.LPM_PAR_ERR_INFO_KIND (b2n data)
  let s4 := s3.setEvent (if data then Fld.LPM_EVENT_DATA_ERR else Fld.LPM_EVENT_PAR_ERR)
  s4.raiseError 0x0E01 ((s4.reg Reg.LPM_PAR_ERR_LOC).toNat + 2 ^ 32 * (s4.reg Reg.LPM_PAR_ERR_INFO).toNat)

/-- An error met in the prefix tables: the entry, or with a data error every entry of its bucket, fails from now on. -/
def State.lpmUpset (s : State) (u : Upset) : State :=
  match u.table with
  | .lpm =>
    match s.tab.lpm[u.index]? with
    | none => s
    | some v =>
      let e := v.val
      let j := s.lpmBucket e.family e.vrf e.len e.pfx
      let same := fun (x : LpmEntry) =>
        match e.place, x.place with
        | .bucket _, .bucket _ =>
          u.data && x.family == e.family && x.len == e.len && s.lpmBucket x.family x.vrf x.len x.pfx == j
        | _, _ => false
      let mark := fun (w : Ver LpmEntry) =>
        if w.val = e ∨ same w.val = true then { w with val := { w.val with bad := true } } else w
      let s1 := { s with tab := { s.tab with lpm := s.tab.lpm.map mark } }
      match e.place with
      | .bucket _ => s1.lpmReport j e.len e.family 0 u.data
      | .overflow k => s1.lpmReport k 0 e.family 1 false
      | .dflt k => s1.lpmReport k 0 e.family 2 false
  | .nh =>
    match s.tab.nh[u.index]? with
    | none => s
    | some v =>
      let l := modifyAt (fun (w : Ver IdxVal) => { w with val := { w.val with bad := true } }) u.index s.tab.nh
      ({ s with tab := { s.tab with nh := l } }).lpmReport v.val.idx 0 0 3 false
  | .ecmp =>
    match s.tab.ecmp[u.index]? with
    | none => s
    | some v =>
      let l := modifyAt (fun (w : Ver IdxVal) => { w with val := { w.val with bad := true } }) u.index s.tab.ecmp
      ({ s with tab := { s.tab with ecmp := l } }).lpmReport v.val.idx 0 0 4 false
  | .ecmpMember =>
    let mark := fun (b : Block) =>
      if b.base ≤ u.index ∧ u.index < b.base + b.members.length then { b with bad := (u.index - b.base) :: b.bad } else b
    ({ s with tab := { s.tab with ecmpBlocks := s.tab.ecmpBlocks.map mark } }).lpmReport u.index 0 0 5 false
  | _ => s

/-! ### Writes (R99, R215, R231, R233) -/

/-- A route: the fields of R232 or of a record of R234. -/
structure Route where
  family : Nat
  vrf : Nat
  len : Nat
  pfx : Nat
  rtype : Nat
  result : Nat
  cls : Nat
  deriving DecidableEq, Repr

/-- OVF_HIGH is set when the overflow store reaches 90 % of its slots (R216). -/
def State.ovfWatch (s0 s : State) : State :=
  if 10 * s0.ovfUsed < 9 * 131072 ∧ 9 * 131072 ≤ 10 * s.ovfUsed then s.setEvent Fld.LPM_EVENT_OVF_HIGH else s

/-- Checks 2 and 3 of a route (R233). -/
def Route.check (r : Route) (op : VerOp) : Option Nat :=
  if (if r.family = 1 then 128 else 32) < r.len then some stOutOfRange
  else if op ≠ .delete ∧ r.rtype = 1 ∧ 65535 < r.result then some stOutOfRange
  else if maskAddr r.pfx r.len ≠ r.pfx then some stBadPayload
  else none

/-- Applies one route under a write context: checks 7 to 9, the placement, the filter. Answers the state and RESULT0. -/
def State.routeApply (s : State) (ctx : WriteCtx) (op : VerOp) (r : Route) : Except (Nat × Nat) (State × Nat) :=
  let s1 := if op = .delete then s else s.lenCreate r.family r.len
  let place := s1.lpmPlace r.family r.vrf r.len r.pfx
  let mk := fun (old : Option LpmEntry) =>
    let p := match old with | some o => o.place | none => place.getD (.overflow 0)
    (⟨r.family, r.vrf, r.len, r.pfx, r.rtype, r.result, r.cls, p, false⟩ : LpmEntry)
  let same := LpmEntry.isKey r.family r.vrf r.len r.pfx
  match verWrite s ctx same op mk lpmSlots s.tab.lpm with
  | .error st => .error (st, 0)
  | .ok (vs, k) =>
    let named := if r.rtype = 0 then s.idxHas s.tab.nh ctx.gen r.result else s.idxHas s.tab.ecmp ctx.gen r.result
    if op ≠ .delete ∧ named = false then .error (stNotFound, 2)
    else if !s.withinLimits 0 ctx (verVisible s ctx.gen lpmSlots s.tab.lpm) (verStored lpmSlots s.tab.lpm) k then
      .error (stNoSpace, 0)
    else if k.storeAdd ≠ 0 ∧ place.isNone then .error (stNoSpace, 0)
    else
      let first := k.storeAdd ≠ 0 ∧ s.tab.lpm.all (fun v => !same v.val)
      let base := if k.storeAdd ≠ 0 then s1 else s
      let s2 := { base with tab := { base.tab with lpm := vs } }
      let s3 := if first then s2.filtSet r.family r.vrf r.len r.pfx else s2
      let s4 := ((State.ovfWatch s s3.filtTidy).addJournal ctx 0 k.journal).countDirect ctx
      let r0 :=
        if op = .delete then b2n (k.storeSub != 0)
        else
          match vs.find? fun v => same v.val && s.visible v.tag ctx.gen with
          | some v => s4.lpmWhere v.val
          | none => 0
      .ok (s4, r0)

/-! ### Commands 0x0401 to 0x0405 (R232) -/

/-- The route of a command's operands. -/
def cmdRoute (c : Cmd) : Route :=
  ⟨c.fld 35 0 1, c.fld 32 0 12, c.fld 34 0 8, c.arg0 + 2 ^ 64 * c.arg1, c.fld 35 1 1, c.fld 36 0 19, c.fld 40 0 8⟩

def routeFields : List (Nat × Nat × Nat) := [(32, 0, 12), (34, 0, 8), (35, 0, 2), (36, 0, 19), (40, 0, 8)]

/-- One of INSERT, REPLACE, DELETE. -/
def routeWrite (opcode : Nat) (op : VerOp) (c : Cmd) (s : State) : Host.Outcome State Fault Refusal :=
  runCmd opcode 2 2 c s fun s =>
    if c.resv [(0, 64)] [(0, 64)] routeFields then fail stBadPayload s
    else
      match (cmdRoute c).check op with
      | some st => fail st s
      | none =>
        match s.writeCtx (s.cmdMaster c) with
        | .error (st, r0) => (s, .done st r0 0)
        | .ok ctx =>
          match s.routeApply ctx op (cmdRoute c) with
          | .error (st, r0) => (s, .done st r0 0)
          | .ok (s', r0) => (s', .done stOK r0 0)

def execLpmInsert (c : Cmd) (s : State) : Host.Outcome State Fault Refusal := routeWrite 0x0401 .insert c s

def execLpmReplace (c : Cmd) (s : State) : Host.Outcome State Fault Refusal := routeWrite 0x0402 .replace c s

def execLpmDelete (c : Cmd) (s : State) : Host.Outcome State Fault Refusal := routeWrite 0x0403 .delete c s

/-- LPM_READ (R232). `upsets` are the errors the read meets: a bucket that cannot be read completes with DATA_ERROR. -/
def execLpmRead (c : Cmd) (upsets : List Upset) (s : State) : Host.Outcome State Fault Refusal :=
  runCmd 0x0404 2 2 c s fun s =>
    let r := (cmdRoute c)
    if c.resv [(0, 64)] [(0, 64)] (routeFields ++ [(41, 0, 2)]) then fail stBadPayload s
    else
      match r.check .delete with
      | some st => fail st s
      | none =>
        if !s.genReadable (c.fld 41 0 2) then fail stState s
        else
          let s := upsets.foldl State.lpmUpset (s.hbfUes 17 upsets)
          let hit := fun (e : Ver LpmEntry) => e.val.family == r.family && e.val.vrf == r.vrf && e.val.len == r.len
            && e.val.pfx == r.pfx && s.visible e.tag (c.fld 41 0 2)
          if upsets.any (·.data) then fail stDataError s
          else
            match s.tab.lpm.find? hit with
            | none => fail stNotFound s
            | some v =>
              let ovf := match v.val.place with | .overflow _ => 1 | _ => 0
              if v.val.bad then (s, .done stNotFound (2 ^ 29) 0)
              else ok s (v.val.result + 2 ^ 19 * v.val.rtype + 2 ^ 20 * v.val.cls + 2 ^ 28 * ovf) v.tag.bits

/-- LPM_LOOKUP (R232): the address with VRF and FAMILY, in GEN, HASH as h of R230. -/
def execLpmLookup (c : Cmd) (upsets : List Upset) (s : State) : Host.Outcome State Fault Refusal :=
  runCmd 0x0405 2 2 c s fun s =>
    let r := (cmdRoute c)
    if c.resv [(0, 64)] [(0, 64)] (routeFields ++ [(41, 0, 2), (44, 0, 32)]) then fail stBadPayload s
    else if (if r.family = 1 then 128 else 32) < r.len then fail stOutOfRange s
    else if !s.genReadable (c.fld 41 0 2) then fail stState s
    else
      let s := upsets.foldl State.lpmUpset (s.hbfUes 17 upsets)
      let (noise, s) := s.free 1
      if upsets.any (·.data) then fail stDataError s
      else
        let k := r.pfx + 2 ^ 128 * r.vrf + 2 ^ 159 * r.family
        let x := s.lpmLookup k (c.fld 41 0 2) (c.fld 44 0 32) noise
        ok s x.bits (x.cands + 256 * x.falseCands)

/-! ### LPM_BULK (R234) -/

/-- The record's route, its OP, and whether a reserved bit is 1. -/
def bulkRecord (x : Nat) : Route × Nat × Bool :=
  (⟨bitsAt x 152 1, bitsAt x 128 12, bitsAt x 144 8, bitsAt x 0 128, bitsAt x 153 1, bitsAt x 160 19, bitsAt x 192 8⟩,
    bitsAt x 158 2, !onlyBits x [(0, 140), (144, 10), (158, 21), (192, 8)])

/-- Applies records in array order until one fails: the state, the number applied, and the failing status. -/
def bulkRun (ctx : WriteCtx) : List Nat → Nat → State → State × Nat × Nat
  | [], n, s => (s, n, stOK)
  | x :: xs, n, s =>
    match bulkRecord x with
    | (r, op, bad) =>
      if bad ∨ op = 3 then (s, n, stBadPayload)
      else
        match r.check (verOpOf op) with
        | some st => (s, n, st)
        | none =>
          match s.routeApply ctx (verOpOf op) r with
          | .error (st, _) => (s, n, st)
          | .ok (s', _) => bulkRun ctx xs (n + 1) s'

/-- LPM_BULK: the records come from host memory; `d` is what the read of them answers, in order, as far as it got. -/
def execLpmBulk (c : Cmd) (d : HostData) (got : List Byte) (s : State) : Host.Outcome State Fault Refusal :=
  runCmd 0x0406 2 2 c s fun s =>
    let n := c.fld 40 0 20
    if c.resv [] [] [(32, 0, 64), (40, 0, 20)] then fail stBadPayload s
    else if n = 0 then fail stOutOfRange s
    else
      match s.writeCtx (s.cmdMaster c) with
      | .error (st, r0) => (s, .done st r0 0)
      | .ok ctx =>
        let bytes := match d with | .bytes b => b | _ => got
        let recs := chunks 32 (min n (bytes.length / 32)) bytes
        match bulkRun ctx recs 0 s with
        | (s', k, st) =>
          if st ≠ stOK then (s', .done st k 0)
          else
            match d with
            | .bytes _ => (s', .done stOK k 0)
            | .hostError => (s', .done stHostError k 0)
            | .chainLost => (s', .done stChainLost k 0)

/-! ### Next hops and ECMP groups (R235) -/

/-- NH_SET: an ACT_SET or ENCAP beyond its table is OUT_OF_RANGE (R307 of 10). -/
def execNhSet (c : Cmd) (s : State) : Host.Outcome State Fault Refusal :=
  runCmd 0x0410 2 2 c s fun s =>
    let x := c.fld 32 0 128
    let op := bitsAt c.arg0 24 2
    let i := bitsAt c.arg0 0 19
    if c.resv [(0, 19), (24, 2)] [] [(33, 0, 60)] then fail stBadPayload s
    else if op = 3 ∨ (op ≠ 2 ∧ (262143 < nhActSet x ∨ 262143 < nhEncap x)) then fail stOutOfRange s
    else
      s.idxWrite c nhTable op i x
        (fun g => s.idxHas s.tab.act g (nhActSet x) && s.refOk s.tab.encap g (nhEncap x)) (fun g => s.nhRefs g i)

def execNhRead (c : Cmd) (s : State) : Host.Outcome State Fault Refusal :=
  runCmd 0x0411 1 1 c s fun s =>
    if c.resv [(0, 19)] [(0, 2)] [] then fail stBadPayload s
    else if !s.genReadable (bitsAt c.arg1 0 2) then fail stState s
    else
      match s.idxVer s.tab.nh (bitsAt c.arg1 0 2) (bitsAt c.arg0 0 19) with
      | none => fail stNotFound s
      | some v =>
        if v.val.bad then fail stNotFound s
        else ok s (bitsAt (verBits 128 v) 0 64) (bitsAt (verBits 128 v) 64 64)

/-- ECMP_SET: members of 4 bytes, each a next-hop index below 524,288. -/
def execEcmpSet (c : Cmd) (d : HostData) (s : State) : Host.Outcome State Fault Refusal :=
  runCmd 0x0412 1 1 c s fun s =>
    let op := bitsAt c.arg0 24 2
    let i := bitsAt c.arg0 0 16
    if c.resv [(0, 16), (24, 2), (32, 8)] [(0, 64)] [] then fail stBadPayload s
    else if op = 3 then fail stOutOfRange s
    else
      s.groupCmd c ecmpGroups op i (bitsAt c.arg0 32 8 + 1) 4 d (fun m => if m < 524288 then none else some stOutOfRange)
        (fun ms g => ms.all fun m => s.idxHas s.tab.nh g m) (fun g => s.ecmpRefs g i)

/-- ECMP_READ: the members are written to host memory. -/
def execEcmpRead (c : Cmd) (s : State) : Host.Outcome State Fault Refusal :=
  runCmd 0x0413 2 2 c s fun s =>
    if c.resv [(0, 16)] [(0, 2)] [(32, 0, 64)] then fail stBadPayload s
    else if !s.genReadable (bitsAt c.arg1 0 2) then fail stState s
    else
      match s.idxGet s.tab.ecmp (bitsAt c.arg1 0 2) (bitsAt c.arg0 0 16) with
      | none => fail stNotFound s
      | some x =>
        let ms := match blockAt s.tab.ecmpBlocks (ecmpBase x) with | some b => b.members | none => []
        let s1 := s.emit (.hostWrite (c.fld 32 0 64) (ms.flatMap fun m => leBytes 4 (m + parityOf 31 m * 2 ^ 31)))
        ok s1 (ecmpBase x + 2 ^ 20 * (ecmpSize x - 1)) 0

/-! ### Background work (R216, R219, R236) -/

/-- One bucket's split, or the start of a doubling when the load would pass its target and the region has room (R216). -/
def execTableDoubling (family len : Nat) (s : State) : Host.Outcome State Fault Refusal :=
  let k := lenKey family len
  match Assoc.find s.tab.lens k with
  | none => .next s
  | some t =>
    let put := fun (t' : LenTable) => { s with tab := { s.tab with lens := Assoc.insert s.tab.lens k t' } }
    match t.split with
    | none =>
      let need := (s.lenCount family len + 1) * (if bucketSize family len = 2 then 4 else 1)
      if 2 ^ t.log2 < need ∧ t.log2 < 24 ∧ s.lpmRegion + 64 * 2 ^ t.log2 ≤ 2 ^ 32 then .next (put { t with split := some 0 })
      else .next s
    | some done =>
      if done + 1 = 2 ^ t.log2 then .next (put ⟨t.log2 + 1, none⟩) else .next (put { t with split := some (done + 1) })

/-- Firmware moves an overflow entry back where a position has freed (R216): `n` is the entry's place in the list. -/
def execOverflowReturn (n : Nat) (s : State) : Host.Outcome State Fault Refusal :=
  match s.tab.lpm[n]? with
  | none => .next s
  | some v =>
    let e := v.val
    match e.place, s.lpmPlace e.family e.vrf e.len e.pfx with
    | .overflow _, some p =>
      match p with
      | .overflow _ => .next s
      | _ =>
        let l := modifyAt (fun (w : Ver LpmEntry) => { w with val := { w.val with place := p } }) n s.tab.lpm
        .next { s with tab := { s.tab with lpm := l } }
    | _, _ => .next s

/-- The 64 KiB units of a region at 24 bits a key (R219). -/
def filtUnits (keys : Nat) : Nat := ceilDiv (keys * 24) 524288

/-- A rebuild starts, waits for room in the 48 MiB (768 units), or ends with the switch of lookups (R219). -/
def execFilterRebuild (family len : Nat) (s : State) : Host.Outcome State Fault Refusal :=
  let k := lenKey family len
  match Assoc.find s.tab.filt k with
  | none => .next s
  | some r =>
    let put := fun (r' : FiltRegion) => { s with tab := { s.tab with filt := Assoc.insert s.tab.filt k r' } }
    let keys := ((s.tab.lpm.filter fun v => v.val.family == family && v.val.len == len).map fun v => v.val.keyNum).eraseDups
    match r.rebuild with
    | some units => .next (put ⟨units, keys, 0, none, false⟩)
    | none =>
      if r.units * 32768 < r.inserts then
        let total := s.tab.filt.foldl (fun n kv => n + kv.2.units + kv.2.rebuild.getD 0) 0
        if total + filtUnits keys.length ≤ 768 then
          .next (put { r with rebuild := some (max 1 (filtUnits keys.length)), overload := false })
        else .next ((put { r with overload := true }).setEvent Fld.LPM_EVENT_FLT_OVERLOAD)
      else .next s

/-- An error is met and, for a stored prefix, firmware frees the slot within 1 ms of the report (R236). The rest
of what it met, next hops, groups and members, stays until software rewrites it. -/
def execParityRepair (upsets : List Upset) (s : State) : Host.Outcome State Fault Refusal :=
  let s1 := upsets.foldl State.lpmUpset (s.hbfUes 17 upsets)
  .next ({ s1 with tab := { s1.tab with lpm := s1.tab.lpm.filter fun v => !v.val.bad } }).filtTidy

/-! ### Shadow compare (R237, R238) -/

/-- What a shadow walk finds for one record: none, or KIND 1 missing, 2 differs, 3 parity or data error, 4 invalid. -/
def State.lpmShadowKind (s : State) (g x : Nat) : Nat :=
  match bulkRecord x with
  | (r, _, bad) =>
    let key := fun (v : Ver LpmEntry) => v.val.family == r.family && v.val.vrf == r.vrf && v.val.len == r.len
      && v.val.pfx == r.pfx && s.visible v.tag g
    if bad ∨ (r.check .insert).isSome then 4
    else
      match s.tab.lpm.find? key with
      | none => 1
      | some v =>
        if v.val.bad then 3
        else if v.val.rtype = r.rtype ∧ v.val.result = r.result ∧ v.val.cls = r.cls then 0 else 2

/-- The 8-byte mismatch record. -/
def mismatchRecord (index kind : Nat) : List Byte := leBytes 4 index ++ leBytes 4 kind

/-- What the shadow walk of a block is to the shared walk: its registers, the bytes of a record, the kind found for a
generation and the record at an index, its repair, the versions visible. -/
structure ShadowUnit where
  ctrl : Nat
  recBytes : Nat
  count : Fld
  misLo : Nat
  misHi : Nat
  misMax : Fld
  done : Fld
  misCnt : Fld
  visible : Fld
  evDone : Fld
  evMis : Fld
  kind : State → Nat → Nat → Nat → Nat
  repair : State → Nat → Nat → State
  visibleIn : State → Nat → Nat

def ShadowUnit.fld (u : ShadowUnit) (lo w : Nat) : Fld := ⟨u.ctrl, lo, w⟩

/-- Walks records from the one numbered `i` (R237 steps 1 and 2). -/
def shadowRun (u : ShadowUnit) : List Nat → Nat → State → State
  | [], _, s => s
  | x :: xs, i, s =>
    let kind := u.kind s (s.fget (u.fld 4 2)) i x
    let s1 := s.fset u.done (i + 1)
    if kind = 0 then shadowRun u xs (i + 1) s1
    else
      let n := s1.fget u.misCnt
      let s2 := if n < s1.fget u.misMax then s1.emit (.hostWrite (s1.pair u.misLo u.misHi + 8 * n) (mismatchRecord i kind)) else s1
      let s3 := s2.satAdd u.misCnt 1
      let s4 := if s3.fbit (u.fld 2 1) ∧ kind ≠ 4 then u.repair s3 i x else s3
      shadowRun u xs (i + 1) s4

/-- The walk's steps 3 and 4. -/
def State.shadowEnd (s : State) (u : ShadowUnit) : State :=
  let s1 := (s.fset u.visible (u.visibleIn s (s.fget (u.fld 4 2)))).fset (u.fld 3 1) 0
  let s2 := s1.setEvent u.evDone
  if s2.fget u.misCnt ≠ 0 then s2.setEvent u.evMis else s2

/-- A GO write of a shadow control register, whose RW fields it has written: discarded during a walk; with REPAIR set under
a profile other than 1 discarded and reported (R238). -/
def State.shadowGo (s : State) (u : ShadowUnit) (master : Nat) : State :=
  if s.fbit (u.fld 3 1) then s
  else if s.fbit (u.fld 2 1) ∧ s.fget Fld.GLB_COMPAT_PROFILE_PROFILE ≠ 1 then s.regError u.ctrl master
  else
    let s1 := ((s.fset (u.fld 3 1) 1).fset (u.fld 6 1) 0)
    (s1.fset u.done 0).fset u.misCnt 0

/-- A STOP write: the walk ends after the current record. -/
def State.shadowStop (s : State) (u : ShadowUnit) : State :=
  if s.fbit (u.fld 3 1) then s.fset (u.fld 3 1) 0 else s

/-- The records read from host memory are checked from the next one on; the walk ends with the last of them. `d` holds the
records that follow those checked. -/
def State.shadowRecords (s : State) (u : ShadowUnit) (d : HostData) : State :=
  if !s.fbit (u.fld 3 1) then s
  else
    match d with
    | .bytes b =>
      let from_ := s.fget u.done
      let n := min (s.fget u.count - from_) (b.length / u.recBytes)
      let s1 := shadowRun u (chunks u.recBytes n b) from_ s
      if s1.fget u.count ≤ s1.fget u.done then s1.shadowEnd u else s1
    | _ => s.fset (u.fld 3 1) 0

/-- REPAIR rewrites a record of kind 1, 2 or 3 by a direct write (R101); it does what the direct write answers. -/
def State.lpmRepair (s : State) (x : Nat) : State :=
  match bulkRecord x with
  | (r, _, _) =>
    let g := s.activeGen
    let bad := fun (v : Ver LpmEntry) => v.val.bad && v.val.keyNum == lpmKeyNum r.family r.vrf r.len r.pfx
    let s1 := { s with tab := { s.tab with lpm := s.tab.lpm.filter fun v => !bad v } }
    let present := s1.tab.lpm.any fun v => v.val.isKey r.family r.vrf r.len r.pfx && s1.visible v.tag g
    if s.buildOpen || s.commitPending then s
    else
      match s1.routeApply ⟨g, true⟩ (if present then .replace else .insert) r with
      | .ok (s2, _) => s2
      | .error _ => s

def lpmShadow : ShadowUnit :=
  { ctrl := Reg.LPM_SHADOW_CTRL, recBytes := 32, count := Fld.LPM_SHADOW_COUNT_COUNT, misLo := Reg.LPM_SHADOW_MIS_BASE_LO
    misHi := Reg.LPM_SHADOW_MIS_BASE_HI, misMax := Fld.LPM_SHADOW_MIS_MAX_MAX, done := Fld.LPM_SHADOW_DONE_CNT_CHECKED
    misCnt := Fld.LPM_SHADOW_MIS_CNT_COUNT, visible := Fld.LPM_SHADOW_VISIBLE_COUNT, evDone := Fld.LPM_EVENT_SHADOW_DONE
    evMis := Fld.LPM_EVENT_SHADOW_MIS, kind := fun s g _ x => s.lpmShadowKind g x, repair := fun s _ x => s.lpmRepair x
    visibleIn := fun s g => s.countVis s.tab.lpm g fun _ => true }

/-- The walk of the prefix tables gets records, and ends with the last. -/
def execLpmShadowDone (d : HostData) (s : State) : Host.Outcome State Fault Refusal := .next (s.shadowRecords lpmShadow d)

end Sys2Proof.Machine
end

