-- ==== Sys2Proof/Machine/Exact.lean ====
section
/-! DEFINITION. The exact-match tables (08 R239-R265): keys, places, lookup, learning, aging, the commands of subject 0x05. -/

namespace Sys2Proof.Machine

open Sys2Proof

/-! ### Tables, keys and places (R239, R240, R245, R246) -/

def tblOf (key : Nat) : Nat := bitsAt key 376 8
def keyOf (key : Nat) : Nat := bitsAt key 0 376

def State.tblEn (s : State) (n : Nat) : Bool := decide (n < 64) && s.fbit (Fld.EXM_TBL_CFG_EN n)
def State.tblTier (s : State) (n : Nat) : Nat := s.fget (Fld.EXM_TBL_CFG_TIER n)

/-- Positions of an entry of table `n`: 1, 2 or 4 (R242). -/
def State.tblSize (s : State) (n : Nat) : Nat :=
  if s.fget (Fld.EXM_TBL_CFG_SIZE n) = 0 then 1 else if s.fget (Fld.EXM_TBL_CFG_SIZE n) = 1 then 2 else 4

/-- Width w of the key bits that take part (R240). -/
def State.tblWidth (s : State) (n : Nat) : Nat :=
  if s.tblSize n = 1 then 64 else if s.tblSize n = 2 then 192 else 376

/-- The key bits that take part in a lookup of table `n`. -/
def State.exmMask (s : State) (n k : Nat) : Nat := k % 2 ^ s.tblWidth n

/-- Bucket of a key under hash `x` (R245). -/
def State.exmHash (s : State) (x tbl k : Nat) : Nat :=
  let seed := if x = 0 then s.fget Fld.EXM_HASH_SEED_0_SEED else if x = 1 then s.fget Fld.EXM_HASH_SEED_1_SEED
    else s.fget Fld.EXM_HASH_SEED_2_SEED
  crc32c seed (tbl :: natBytes 47 (s.exmMask tbl k)) % (if x = 2 then 0x400000 else 0x20000)

/-- Space of a cursor (R262) and position in it. -/
def cursorSpace (c : Nat) : Nat := bitsAt c 30 2
def cursorPos (c : Nat) : Nat := bitsAt c 0 30
def mkCursor (space pos : Nat) : Nat := space * 2 ^ 30 + pos

/-- Positions of a space (R245). -/
def spaceSize (space : Nat) : Nat := [1048576, 65536, 16777216, 65536].getD space 0

/-- The tier of an entry: 0 on-die, 1 HBM (R246). -/
def ExmEntry.tier (e : ExmEntry) : Nat := cursorSpace e.cursor / 2

/-- Whether an entry is in an overflow store. -/
def ExmEntry.inOvf (e : ExmEntry) : Bool := cursorSpace e.cursor % 2 == 1

/-- Positions taken in a space. -/
def State.exmTaken (s : State) (space : Nat) : List Nat :=
  s.tab.exm.flatMap fun v =>
    if cursorSpace v.val.cursor = space then (List.range v.val.size).map (cursorPos v.val.cursor + ·) else []

/-- Whether the aligned place of `n` positions at `pos` is free in a space. -/
def State.exmPosFree (s : State) (space pos n : Nat) : Bool :=
  s.tab.exm.all fun v => cursorSpace v.val.cursor != space || decide (cursorPos v.val.cursor + v.val.size ≤ pos)
    || decide (pos + n ≤ cursorPos v.val.cursor)

/-- The lowest free aligned position of a bucket, and how many such there are. -/
def State.exmBucketRoom (s : State) (space bucket n : Nat) : List Nat :=
  ((List.range (4 / n)).map fun i => bucket * 4 + i * n).filter fun p => s.exmPosFree space p n

/-- The on-die place: the bucket with more free room, bank 0 on a tie. -/
def State.exmOnDie (s : State) (tbl k n : Nat) : Option Nat :=
  let b0 := s.exmBucketRoom 0 (s.exmHash 0 tbl k) n
  let b1 := s.exmBucketRoom 0 (131072 + s.exmHash 1 tbl k) n
  match (if b0.length < b1.length then b1 else b0) with
  | p :: _ => some (mkCursor 0 p)
  | [] => none

def State.exmHbm (s : State) (tbl k n : Nat) : Option Nat :=
  match s.exmBucketRoom 2 (s.exmHash 2 tbl k) n with
  | p :: _ => some (mkCursor 2 p)
  | [] => none

def State.exmOvf (s : State) (space n : Nat) : Option Nat :=
  (freeRun (spaceSize space) n (s.exmTaken space)).map (mkCursor space)

def orElse {α : Type} (a : Option α) (b : Option α) : Option α := match a with | some x => some x | none => b

/-- Whether an entry is of a key, passing parity. -/
def ExmEntry.isKey (tbl k : Nat) (e : ExmEntry) : Bool := e.tbl == tbl && e.key == k && !e.bad

/-- A stored version of the key, in any state. -/
def State.exmStored (s : State) (tbl k : Nat) : Option ExmEntry :=
  (s.tab.exm.find? fun v => v.val.tbl == tbl && v.val.key == k).map (·.val)

/-- Where a new version of a key goes (R246). -/
def State.exmPlace (s : State) (tbl k : Nat) : Option Nat :=
  let n := s.tblSize tbl
  let die := s.exmOnDie tbl k n
  let hbm := s.exmHbm tbl k n
  match s.exmStored tbl k with
  | some e => if e.tier = 0 then orElse die (s.exmOvf 1 n) else orElse hbm (s.exmOvf 3 n)
  | none =>
    match s.tblTier tbl with
    | 0 => orElse die (s.exmOvf 1 n)
    | 1 => orElse hbm (s.exmOvf 3 n)
    | _ => orElse die (orElse hbm (orElse (s.exmOvf 1 n) (s.exmOvf 3 n)))

/-- Positions used of a tier, overflow included. -/
def State.exmUsed (s : State) (tier : Nat) : Nat :=
  s.tab.exm.foldl (fun n v => if v.val.tier = tier then n + v.val.size else n) 0

/-- Positions visible of a tier in a generation. -/
def State.exmVisible (s : State) (tier g : Nat) : Nat :=
  s.tab.exm.foldl (fun n v => if v.val.tier = tier ∧ s.visible v.tag g = true then n + v.val.size else n) 0

def State.exmOvfUsed (s : State) (space : Nat) : Nat :=
  s.tab.exm.foldl (fun n v => if cursorSpace v.val.cursor = space then n + v.val.size else n) 0

/-- OVF_HIGH is set when either overflow store reaches 90 % of its positions (R246). -/
def exmOvfWatch (s0 s : State) : State :=
  let rose := fun sp => decide (10 * s0.exmOvfUsed sp < 9 * 65536 ∧ 9 * 65536 ≤ 10 * s.exmOvfUsed sp)
  if rose 1 || rose 3 then s.setEvent Fld.EXM_EVENT_OVF_HIGH else s

/-! ### Errors (R260) -/

def State.exmReport (s : State) (e : ExmEntry) (data : Bool) : State :=
  let s1 := (s.satAdd Fld.EXM_PAR_ERR_CNT_COUNT 1).fset Fld.EXM_PAR_ERR_LOC_CURSOR e.cursor
  let s2 := (s1.fset Fld.EXM_PAR_ERR_INFO_KIND (b2n data)).fset Fld.EXM_PAR_ERR_INFO_LEARNED (b2n e.learned)
  let s3 := s2.setEvent (if data then Fld.EXM_EVENT_DATA_ERR else Fld.EXM_EVENT_PAR_ERR)
  s3.raiseError 0x0F01 (e.cursor + 2 ^ 32 * (s3.reg Reg.EXM_PAR_ERR_INFO).toNat)

/-- An error met in an exact-match entry, or in its whole bucket. -/
def State.exmUpset (s : State) (u : Upset) : State :=
  if u.table ≠ .exm then s
  else
    match s.tab.exm[u.index]? with
    | none => s
    | some v =>
      let e := v.val
      let hit := fun (x : ExmEntry) => x.cursor == e.cursor
        || (u.data && cursorSpace x.cursor == cursorSpace e.cursor && !e.inOvf && x.cursor / 4 == e.cursor / 4)
      let mark := fun (w : Ver ExmEntry) => if hit w.val then { w with val := { w.val with bad := true } } else w
      ({ s with tab := { s.tab with exm := s.tab.exm.map mark } }).exmReport e u.data

/-- Whether the entry of a key fails. -/
def State.exmBad (s : State) (tbl k : Nat) : Bool := s.tab.exm.any fun v => v.val.bad && v.val.tbl == tbl && v.val.key == k

/-! ### Lookup (R247, R248) -/

/-- The record of R248. -/
structure ExmResult where
  /-- The key was built and its table is enabled. -/
  looked : Bool
  hit : Bool
  tier : Nat
  ovf : Bool
  learned : Bool
  rkind : Nat
  result : Nat
  missAct : Nat
  err : Bool
  probes : Nat
  deriving DecidableEq, Repr

def exmMiss : ExmResult := ⟨false, false, 0, false, false, 0, 0, 0, false, 0⟩

/-- HBM probes of a key (R247). -/
def State.exmProbes (s : State) (p tbl k : Nat) : Nat :=
  match s.tblTier tbl with
  | 0 => 0
  | 1 => if s.tab.exm.any (fun v => v.val.isKey tbl k && cursorSpace v.val.cursor == 3 && s.visible v.tag p) then 0 else 1
  | _ => if s.tab.exm.any (fun v => v.val.isKey tbl k && cursorSpace v.val.cursor != 2) then 0 else 1

/-- The lookup of a key for generation `p`; `h` is the ECMP hash of the pass (R230). -/
def State.exmLookup (s : State) (key : Option Nat) (p h : Nat) : ExmResult :=
  match key with
  | none => exmMiss
  | some k384 =>
    let tbl := tblOf k384
    if !s.fbit Fld.EXM_CFG_EN || !s.tblEn tbl then exmMiss
    else
      let k := s.exmMask tbl (keyOf k384)
      let base := { exmMiss with looked := true, probes := s.exmProbes p tbl k, err := s.exmBad tbl k }
      let missed := { base with missAct := s.fget (Fld.EXM_TBL_CFG_MISS_ACT tbl) }
      match s.tab.exm.find? fun v => v.val.isKey tbl k && s.visible v.tag p with
      | none => missed
      | some v =>
        let e := v.val
        let found := { base with hit := true, tier := e.tier, ovf := e.inOvf, learned := e.learned, rkind := e.rkind }
        match e.rkind with
        | 1 => if (s.idxGet s.tab.nh p e.result).isSome then { found with result := e.result } else { missed with err := true }
        | 2 =>
          match s.ecmpResolve p e.result h with
          | some (nh, _) => if (s.idxGet s.tab.nh p nh).isSome then { found with result := nh } else { missed with err := true }
          | none => { missed with err := true }
        | _ => { found with result := e.result }

/-! ### Learning (R250-R255) -/

/-- RESULT of a learned entry (R251): port, and EXM_LEARN_CFG.DEV_ID. -/
def State.learnResult (s : State) (port : Nat) : Nat := port % 128 + 128 * s.fget Fld.EXM_LEARN_CFG_DEV_ID

/-- Learned and without a tag (R250). -/
def verLearned (v : Ver ExmEntry) : Bool := v.val.learned && !v.tag.addV && !v.tag.delV

/-- Changes the entries of a key that are learned and untagged. -/
def State.exmLearnedUpdate (s : State) (tbl k : Nat) (f : ExmEntry → ExmEntry) : State :=
  let upd := fun (v : Ver ExmEntry) => if verLearned v && v.val.isKey tbl k then { v with val := f v.val } else v
  { s with tab := { s.tab with exm := s.tab.exm.map upd } }

/-- The key of a queued request or a candidate: the table's part of K under TBL. -/
def State.learnKey (s : State) (k384 : Nat) : Nat := s.exmMask (tblOf k384) (keyOf k384) + 2 ^ 376 * tblOf k384

/-- Enters a request in the learn queue: merged with an equal one, dropped when 8,192 are queued (R252). -/
def State.learnEnqueue (s : State) (r : LearnReq) : State :=
  if s.tab.learnQ.contains r then s
  else if 8192 ≤ s.tab.learnQ.length then (s.satAdd Fld.EXM_LEARN_QDROP_CNT_COUNT 1).setEvent Fld.EXM_EVENT_LEARN_QDROP
  else { s with tab := { s.tab with learnQ := s.tab.learnQ ++ [r] } }

/-- What the EM1 lookup of an eligible first pass leads to (R251). -/
def State.learnFrom (s : State) (slice : Nat) (key : Option Nat) (p port : Nat) : State :=
  match key with
  | none => s
  | some k384 =>
    let tbl := tblOf k384
    if !s.fbit Fld.EXM_CFG_EN || !s.tblEn tbl || !s.fbit (Fld.EXM_TBL_CFG_LEARN tbl) then s
    else
      let k := s.exmMask tbl (keyOf k384)
      let lk := s.learnKey k384
      match s.exmStored tbl k with
      | none => (s.pmc 0x024 slice 0 1).learnEnqueue ⟨false, lk, port⟩
      | some _ =>
        match s.tab.exm.find? fun v => v.val.isKey tbl k && s.visible v.tag p && verLearned v with
        | none => s
        | some v =>
          if v.val.result = s.learnResult port then
            let s1 := s.exmLearnedUpdate tbl k fun e => { e with hit := true }
            { s1 with tab := { s1.tab with moveCands := s1.tab.moveCands.filter (·.key != lk) } }
          else (s.pmc 0x024 slice 0 1).learnEnqueue ⟨true, lk, port⟩

/-- MOVE_DAMP: 0 reads back as 1. -/
def State.moveDamp (s : State) : Nat := max 1 (s.fget Fld.EXM_LEARN_CFG_MOVE_DAMP)

/-- Rewrites a moved station's entry in place (R255). -/
def State.moveRewrite (s : State) (key port : Nat) : State :=
  let s1 := s.exmLearnedUpdate (tblOf key) (keyOf key) fun e =>
    { e with result := s.learnResult port, rkind := 3, hit := true, age := 0 }
  ({ s1 with tab := { s1.tab with moveCands := s1.tab.moveCands.filter (·.key != key) } }).satAdd Fld.EXM_MOVE_CNT_COUNT 1

/-- Handles a MOVE of a key whose learned untagged entry has another port (R255). -/
def State.moveObserve (s : State) (key port : Nat) : State :=
  match s.tab.moveCands.find? (·.key == key) with
  | none =>
    if s.moveDamp ≤ 1 then s.moveRewrite key port
    else if 4096 ≤ s.tab.moveCands.length then s.satAdd Fld.EXM_MOVE_CAND_DROP_CNT_COUNT 1
    else { s with tab := { s.tab with moveCands := s.tab.moveCands ++ [⟨key, port, 1⟩] } }
  | some c =>
    let n := if c.port = port then c.count + 1 else 1
    if s.moveDamp ≤ n then s.moveRewrite key port
    else
      let upd := fun (x : MoveCand) => if x.key = key then ⟨key, port, n⟩ else x
      { s with tab := { s.tab with moveCands := s.tab.moveCands.map upd } }

/-- Whether `n` more positions of a tier break a limit of R102, in the ACTIVE generation, the build and the store. -/
def State.exmRoom (s : State) (tier n : Nat) : Bool :=
  s.withinLimits (1 + tier) ⟨s.activeGen, true⟩ (s.exmVisible tier s.activeGen) (s.exmUsed tier) ⟨n, 0, n, 0, 0⟩
    && (!(s.buildOpen || s.commitPending)
      || s.withinLimits (1 + tier) ⟨s.buildGen, true⟩ (s.exmVisible tier s.buildGen) (s.exmUsed tier) ⟨n, 0, n, 0, 0⟩)

/-- LEARN with no stored version (R254). -/
def State.learnPlace (s : State) (key port : Nat) : State :=
  let tbl := tblOf key
  let n := s.tblSize tbl
  let failed := (s.satAdd Fld.EXM_LEARN_FAIL_CNT_COUNT 1).setEvent Fld.EXM_EVENT_LEARN_FAIL
  match s.exmPlace tbl (keyOf key) with
  | none => failed
  | some cur =>
    if s.exmRoom (cursorSpace cur / 2) n then
      let e : ExmEntry := { tbl := tbl, key := keyOf key, rkind := 3, result := s.learnResult port, learned := true
                            hit := true, age := 0, cursor := cur, size := n, bad := false, aging := false }
      let v : Ver ExmEntry := ⟨tagNone, e⟩
      let s1 := { s with tab := { s.tab with exm := s.tab.exm ++ [v] } }
      exmOvfWatch s (s1.satAdd Fld.EXM_LEARN_CNT_COUNT 1)
    else failed

/-- The engine processes the request at the head of the queue (R254). -/
def execLearnProcess (s : State) : Host.Outcome State Fault Refusal :=
  match s.tab.learnQ with
  | [] => .next s
  | r :: rest =>
    let s1 := { s with tab := { s.tab with learnQ := rest } }
    let tbl := tblOf r.key
    match s1.exmStored tbl (keyOf r.key) with
    | none => .next (if r.move then s1 else s1.learnPlace r.key r.port)
    | some _ =>
      match s1.tab.exm.find? fun v => v.val.isKey tbl (keyOf r.key) && verLearned v with
      | none => .next s1
      | some v => .next (if v.val.result = s1.learnResult r.port then s1 else s1.moveObserve r.key r.port)

/-- The engine handles the first MOVE of the queue (R255): the earliest one, which the requests of other keys do not hold back
(R253). -/
def execMoveProcess (s : State) : Host.Outcome State Fault Refusal :=
  match s.tab.learnQ.find? (·.move) with
  | none => .next s
  | some r =>
    if (s.tab.learnQ.takeWhile fun q => q != r).any (fun q => q.key == r.key) then .next s
    else
      let s1 := { s with tab := { s.tab with learnQ := s.tab.learnQ.erase r } }
      match s1.tab.exm.find? fun v => v.val.isKey (tblOf r.key) (keyOf r.key) && verLearned v with
      | none => .next s1
      | some v => .next (if v.val.result = s1.learnResult r.port then s1 else s1.moveObserve r.key r.port)

/-- No increment for MOVE_WINDOW_MS: the candidate of a key is removed (R255). -/
def execMoveWindowExpiry (key : Nat) (s : State) : Host.Outcome State Fault Refusal :=
  .next { s with tab := { s.tab with moveCands := s.tab.moveCands.filter (·.key != key) } }

/-! ### Aging (R256, R257) -/

def State.ageMax (s : State) : Nat := max 1 (s.fget Fld.EXM_AGE_CFG_AGE_MAX)

/-- Whether the sweep visits an entry: on die, learned, untagged, of a table with AGE_EN. -/
def State.agingVisits (s : State) (v : Ver ExmEntry) : Bool :=
  verLearned v && !v.val.bad && v.val.tier == 0 && s.fbit (Fld.EXM_TBL_CFG_AGE_EN v.val.tbl)

/-- One visit (R256). -/
def ageVisit (ageMax : Nat) (e : ExmEntry) : ExmEntry :=
  if e.hit then { e with hit := false, age := 0 }
  else if ageMax ≤ e.age + 1 then { e with age := ageMax, aging := true }
  else { e with age := e.age + 1 }

/-- A sweep; `late` when the one before it had not finished as it came due (R257). A period of 0 runs none. -/
def execAgingSweep (late : Bool) (s : State) : Host.Outcome State Fault Refusal :=
  if s.fget Fld.EXM_AGE_CFG_PERIOD_100MS = 0 then .next s
  else
    let s1 := if late then s.setEvent Fld.EXM_EVENT_AGE_LATE else s
    let upd := fun (v : Ver ExmEntry) => if s1.agingVisits v then { v with val := ageVisit s1.ageMax v.val } else v
    .next { s1 with tab := { s1.tab with exm := s1.tab.exm.map upd } }

/-- One microsecond later the entry pending removal at a cursor is checked again (R256). -/
def execAgeRemovalCheck (cursor : Nat) (s : State) : Host.Outcome State Fault Refusal :=
  match s.tab.exm.find? fun v => v.val.cursor == cursor && v.val.aging && verLearned v with
  | none => .next s
  | some v =>
    if v.val.hit then
      let upd := fun (w : Ver ExmEntry) =>
        if w.val.cursor = cursor then { w with val := { w.val with hit := false, age := 0, aging := false } } else w
      .next (({ s with tab := { s.tab with exm := s.tab.exm.map upd } }).satAdd Fld.EXM_AGE_KEPT_CNT_COUNT 1)
    else
      .next (({ s with tab := { s.tab with exm := s.tab.exm.filter (·.val.cursor != cursor) } }).satAdd Fld.EXM_AGED_CNT_COUNT 1)

/-! ### Flush by port (R258) -/

/-- Whether a flush removes an entry: learned, untagged, of a selected table, to the port and device. -/
def flushHit (port dev : Nat) (sel : Nat → Bool) (v : Ver ExmEntry) : Bool :=
  verLearned v && !v.val.bad && sel v.val.tbl && v.val.result == port + 128 * dev && v.val.rkind == 3

/-- Flushes; answers the count removed. -/
def State.exmFlush (s : State) (port dev : Nat) (sel : Nat → Bool) : State × Nat :=
  let n := (s.tab.exm.filter (flushHit port dev sel)).length
  let s1 := { s with tab := { s.tab with exm := s.tab.exm.filter fun v => !flushHit port dev sel v } }
  (s1.setEvent Fld.EXM_EVENT_FLUSH_DONE, n)

/-! ### Operations on a key (R263, R264) -/

/-- Checks 2, 3 and the table's part of 6 on a key and, for a write, its result. -/
def State.exmCheck (s : State) (k384 : Nat) (res : Option (Nat × Nat)) : Option Nat :=
  let tbl := tblOf k384
  let bad := match res with
    | some (result, rkind) => decide (([2 ^ 20, 2 ^ 19, 2 ^ 16, 2 ^ 18].getD rkind 0) ≤ result)
    | none => false
  if 63 < tbl ∨ bad = true then some stOutOfRange
  else if 2 ^ s.tblWidth tbl ≤ keyOf k384 then some stBadPayload
  else if !s.tblEn tbl then some stState
  else none

/-- Whether the object a result names is visible in a generation (R243). -/
def State.exmNamed (s : State) (g result rkind : Nat) : Bool :=
  match rkind with
  | 0 => s.idxHas s.tab.act g result
  | 1 => s.idxHas s.tab.nh g result
  | 2 => s.idxHas s.tab.ecmp g result
  | _ => true

/-- One exact-match write under a context: checks 7 to 9 and the placement. Answers the state and RESULT0. -/
def State.exmApply (s : State) (ctx : WriteCtx) (op : VerOp) (k384 result rkind : Nat) :
    Except (Nat × Nat) (State × Nat) :=
  let tbl := tblOf k384
  let k := keyOf k384
  let same := ExmEntry.isKey tbl k
  let place := s.exmPlace tbl k
  let mk := fun (old : Option ExmEntry) =>
    let cur := match old with | some o => o.cursor | none => place.getD 0
    ({ tbl := tbl, key := k, rkind := rkind, result := result, learned := false, hit := false, age := 0, cursor := cur
       size := s.tblSize tbl, bad := false, aging := false } : ExmEntry)
  if s.exmBad tbl k then .error (stDataError, 0)
  else
    match verWrite s ctx same op mk (·.size) s.tab.exm with
    | .error st => .error (st, 0)
    | .ok (vs, c) =>
      let tier := match s.exmStored tbl k, place with
        | some e, _ => e.tier
        | none, some p => cursorSpace p / 2
        | none, none => 0
      if op ≠ .delete ∧ s.exmNamed ctx.gen result rkind = false then .error (stNotFound, 2)
      else if c.storeAdd ≠ 0 ∧ place.isNone then .error (stNoSpace, 0)
      else if !s.withinLimits (1 + tier) ctx (s.exmVisible tier ctx.gen) (s.exmUsed tier) c then .error (stNoSpace, 0)
      else
        let s1 := { s with tab := { s.tab with exm := vs } }
        let s2 := ((exmOvfWatch s s1).addJournal ctx (1 + tier) c.journal).countDirect ctx
        let r0 := if op = .delete then b2n (c.storeSub != 0)
          else match vs.find? fun v => same v.val && s.visible v.tag ctx.gen with | some v => v.val.cursor | none => 0
        .ok (s2, r0)

/-- A table-changing operation of a master. -/
def State.exmWrite (s : State) (m : Nat) (op : VerOp) (k384 result rkind : Nat) : State × Nat × Nat :=
  match s.exmCheck k384 (if op = .delete then none else some (result, rkind)) with
  | some st => (s, st, 0)
  | none =>
    match s.writeCtx m with
    | .error (st, r0) => (s, st, r0)
    | .ok ctx =>
      match s.exmApply ctx op k384 result rkind with
      | .error (st, r0) => (s, st, r0)
      | .ok (s', r0) => (s', stOK, r0)

/-- The version of a key visible in a generation, or the status. -/
def State.exmReadKey (s : State) (k384 g : Nat) : Except Nat (Ver ExmEntry) :=
  match s.exmCheck k384 none with
  | some st => .error st
  | none =>
    if !s.genReadable g then .error stState
    else if s.exmBad (tblOf k384) (keyOf k384) then .error stDataError
    else
      match s.tab.exm.find? fun v => v.val.isKey (tblOf k384) (keyOf k384) && s.visible v.tag g with
      | some v => .ok v
      | none => .error stNotFound

/-- Removes the learned untagged entry of a key; answers the port removed. -/
def State.exmUnlearn (s : State) (k384 : Nat) : State × Nat × Nat :=
  match s.exmCheck k384 none with
  | some st => (s, st, 0)
  | none =>
    let hit := fun (v : Ver ExmEntry) => verLearned v && v.val.isKey (tblOf k384) (keyOf k384)
    if s.exmBad (tblOf k384) (keyOf k384) then (s, stDataError, 0)
    else
      match s.tab.exm.find? hit with
      | none => (s, stNotFound, 0)
      | some v => ({ s with tab := { s.tab with exm := s.tab.exm.filter fun w => !hit w } }, stOK, v.val.result % 128)

/-- Whether a cursor lies in its space. -/
def cursorOk (c : Nat) : Bool := decide (cursorPos c < spaceSize (cursorSpace c))

/-- The earlier in cursor order. -/
def earlier (a : Option (Ver ExmEntry)) (b : Ver ExmEntry) : Option (Ver ExmEntry) :=
  match a with
  | none => some b
  | some x => if b.val.cursor < x.val.cursor then some b else a

/-- The first version at or after a cursor visible in a generation and accepted by a test. -/
def State.exmNextFrom (s : State) (cursor g : Nat) (p : Ver ExmEntry → Bool) : Option (Ver ExmEntry) :=
  (s.tab.exm.filter fun v => decide (cursor ≤ v.val.cursor) && s.visible v.tag g && p v).foldl earlier none

/-- The 64-byte record of R262. -/
def exmRecord (v : Ver ExmEntry) : List Byte :=
  let e := v.val
  leBytes 48 (e.key + 2 ^ 376 * e.tbl) ++ leBytes 3 e.result ++ leBytes 1 (e.rkind + 4 * b2n e.learned + 8 * b2n e.hit + 16 * e.age)
    ++ leBytes 1 v.tag.bits ++ leBytes 1 (if e.size = 1 then 0 else if e.size = 2 then 1 else 2) ++ leBytes 2 0
    ++ leBytes 4 e.cursor ++ leBytes 4 0

/-! ### Commands 0x0501 to 0x0508 -/

/-- The key of a LEN 3 command: bytes 32–79. -/
def cmdKey (c : Cmd) : Nat := c.fld 32 0 384

def exmKeyFields : List (Nat × Nat × Nat) := [(32, 0, 384)]

def exmDataFields : List (Nat × Nat × Nat) := [(32, 0, 384), (80, 0, 24), (83, 0, 2)]

/-- One of the table-changing commands; `upsets` are the errors it meets. -/
def exmWriteCmd (opcode : Nat) (op : VerOp) (c : Cmd) (upsets : List Upset) (s : State) :
    Host.Outcome State Fault Refusal :=
  runCmd opcode 3 3 c s fun s =>
    if c.resv [] [] (if op = .delete then exmKeyFields else exmDataFields) then fail stBadPayload s
    else
      match (upsets.foldl State.exmUpset (s.hbfUes 17 upsets)).exmWrite (s.cmdMaster c) op (cmdKey c) (c.fld 80 0 24) (c.fld 83 0 2) with
      | (s', st, r0) => (s', .done st r0 0)

def execExmInsert (c : Cmd) (upsets : List Upset) (s : State) : Host.Outcome State Fault Refusal :=
  exmWriteCmd 0x0501 .insert c upsets s

def execExmReplace (c : Cmd) (upsets : List Upset) (s : State) : Host.Outcome State Fault Refusal :=
  exmWriteCmd 0x0502 .replace c upsets s

def execExmDelete (c : Cmd) (upsets : List Upset) (s : State) : Host.Outcome State Fault Refusal :=
  exmWriteCmd 0x0503 .delete c upsets s

/-- RESULT, RKIND, LEARNED, HIT and AGE as EXM_READ gives them. -/
def exmReadBits (e : ExmEntry) : Nat :=
  e.result + 2 ^ 24 * e.rkind + 2 ^ 26 * b2n e.learned + 2 ^ 27 * b2n e.hit + 2 ^ 28 * e.age

def execExmRead (c : Cmd) (upsets : List Upset) (s : State) : Host.Outcome State Fault Refusal :=
  runCmd 0x0504 3 3 c s fun s =>
    if c.resv [] [(0, 2)] exmKeyFields then fail stBadPayload s
    else
      let s := upsets.foldl State.exmUpset (s.hbfUes 17 upsets)
      match s.exmReadKey (cmdKey c) (bitsAt c.arg1 0 2) with
      | .error st => (s, .done st (if st = stDataError then 2 ^ 31 else 0) 0)
      | .ok v => ok s (exmReadBits v.val + 2 ^ 32 * v.val.cursor) v.tag.bits

def execExmUnlearn (c : Cmd) (upsets : List Upset) (s : State) : Host.Outcome State Fault Refusal :=
  runCmd 0x0505 3 3 c s fun s =>
    if c.resv [] [] exmKeyFields then fail stBadPayload s
    else
      match (upsets.foldl State.exmUpset (s.hbfUes 17 upsets)).exmUnlearn (cmdKey c) with
      | (s', st, r0) => (s', .done st r0 0)

def execExmNext (c : Cmd) (upsets : List Upset) (s : State) : Host.Outcome State Fault Refusal :=
  runCmd 0x0506 2 2 c s fun s =>
    if c.resv [(0, 32)] [(0, 2)] [(32, 0, 64)] then fail stBadPayload s
    else if !cursorOk c.arg0 then fail stOutOfRange s
    else if !s.genReadable (bitsAt c.arg1 0 2) then fail stState s
    else
      let s := upsets.foldl State.exmUpset (s.hbfUes 17 upsets)
      match s.exmNextFrom c.arg0 (bitsAt c.arg1 0 2) fun _ => true with
      | none => fail stNotFound s
      | some v =>
        if v.val.bad then fail stDataError s
        else ok (s.emit (.hostWrite (c.fld 32 0 64) (exmRecord v))) v.val.cursor 0

/-- Positions before a space in ascending cursor order, and the cursor at such a rank. -/
def cursorRank (c : Nat) : Nat :=
  ((List.range (cursorSpace c)).foldl (fun n sp => n + spaceSize sp) 0) + cursorPos c

def rankCursor (n : Nat) : Nat :=
  if n < 1048576 then mkCursor 0 n
  else if n < 1114112 then mkCursor 1 (n - 1048576)
  else if n < 17891328 then mkCursor 2 (n - 1114112)
  else mkCursor 3 (n - 17891328)

/-- The matching records from a cursor on, in cursor order, at most `n`. -/
def State.exmCollect (s : State) (g : Nat) (p : Ver ExmEntry → Bool) : Nat → Nat → List (Ver ExmEntry)
  | 0, _ => []
  | n + 1, cursor =>
    match s.exmNextFrom cursor g p with
    | none => []
    | some v => v :: s.exmCollect g p n (v.val.cursor + 1)

/-- EXM_SEARCH: at most MAX records and 1,048,576 positions. The next cursor at the END is a free value. -/
def execExmSearch (c : Cmd) (upsets : List Upset) (s : State) : Host.Outcome State Fault Refusal :=
  runCmd 0x0507 2 2 c s fun s =>
    let max_ := bitsAt c.arg1 32 16
    let g := bitsAt c.arg1 0 2
    let start := bitsAt c.arg0 0 32
    if c.resv [(0, 32)] [(0, 2), (8, 9), (32, 16)] [(32, 0, 64), (40, 0, 7)] then fail stBadPayload s
    else if !cursorOk start ∨ max_ = 0 then fail stOutOfRange s
    else if !s.genReadable g then fail stState s
    else
      let s := upsets.foldl State.exmUpset (s.hbfUes 17 upsets)
      let stop := cursorRank start + 1048576
      let p := fun (v : Ver ExmEntry) =>
        (bitAt c.arg1 14 || v.val.tbl == bitsAt c.arg1 8 6) && (!bitAt c.arg1 15 || v.val.learned)
          && (!bitAt c.arg1 16 || (v.val.rkind == 3 && v.val.result % 128 == c.fld 40 0 7))
          && decide (cursorRank v.val.cursor < stop)
      let vs := s.exmCollect g p max_ start
      if vs.any (·.val.bad) then fail stDataError s
      else
        let s1 := s.emit (.hostWrite (c.fld 32 0 64) (vs.flatMap exmRecord))
        let next := if vs.length = max_ then match vs.getLast? with | some v => cursorRank v.val.cursor + 1 | none => stop
          else stop
        let (f, s2) := s1.free 2
        if next < 17956864 then ok s2 (rankCursor next) vs.length
        else ok s2 (f % 2 ^ 32 + 2 ^ 32) vs.length

def execExmFlushPort (c : Cmd) (s : State) : Host.Outcome State Fault Refusal :=
  runCmd 0x0508 1 1 c s fun s =>
    if c.resv [(0, 18), (24, 7)] [] [] then fail stBadPayload s
    else
      let tbl := bitsAt c.arg0 24 6
      if !bitAt c.arg0 30 && !s.tblEn tbl then fail stState s
      else
        match s.exmFlush (bitsAt c.arg0 0 7) (bitsAt c.arg0 7 11) fun t => bitAt c.arg0 30 || t == tbl with
        | (s', n) => ok s' n 0

/-! ### Register window (R265) -/

/-- The key in the window registers. -/
def State.winKey (s : State) : Nat :=
  (List.range 12).foldl (fun n w => n + 2 ^ (32 * w) * s.fget (Fld.EXM_WIN_KEY_KEY w)) 0

/-- READ and NEXT fill KEY, DATA, TAG and CURSOR. -/
def State.winFill (s : State) (v : Ver ExmEntry) : State :=
  let key := v.val.key + 2 ^ 376 * v.val.tbl
  let s1 := (List.range 12).foldl (fun t w => t.fset (Fld.EXM_WIN_KEY_KEY w) (bitsAt key (32 * w) 32)) s
  let s2 := s1.setReg Reg.EXM_WIN_DATA (BitVec.ofNat 32 (exmReadBits v.val))
  (s2.fset Fld.EXM_WIN_TAG_TAG v.tag.bits).fset Fld.EXM_WIN_CURSOR_CURSOR v.val.cursor

/-- The operation that a GO write starts, under the master of the write: it takes effect whole, STATUS holds its code and
WIN_DONE is set. -/
def State.winRun (s : State) (m : Nat) : State :=
  let g := s.fget Fld.EXM_WIN_CTRL_GEN
  let res := s.fget Fld.EXM_WIN_DATA_RESULT
  let rk := s.fget Fld.EXM_WIN_DATA_RKIND
  let out : State × Nat :=
    match s.fget Fld.EXM_WIN_CTRL_OP with
    | 0 => match s.exmReadKey s.winKey g with | .ok v => (s.winFill v, stOK) | .error st => (s, st)
    | 1 => match s.exmWrite m .insert s.winKey res rk with | (t, st, _) => (t, st)
    | 2 => match s.exmWrite m .replace s.winKey res rk with | (t, st, _) => (t, st)
    | 3 => match s.exmWrite m .delete s.winKey 0 0 with | (t, st, _) => (t, st)
    | 4 =>
      let cur := s.fget Fld.EXM_WIN_CURSOR_CURSOR
      if !cursorOk cur then (s, stOutOfRange)
      else if !s.genReadable g then (s, stState)
      else
        match s.exmNextFrom cur g fun _ => true with
        | none => (s, stNotFound)
        | some v => if v.val.bad then (s, stDataError) else (s.winFill v, stOK)
    | 5 => match s.exmUnlearn s.winKey with | (t, st, _) => (t, st)
    | 6 =>
      let tbl := s.fget Fld.EXM_WIN_PORT_TBL
      let all := s.fbit Fld.EXM_WIN_PORT_ALL_TBL
      if !all && !s.tblEn tbl then (s, stState)
      else
        match s.exmFlush (s.fget Fld.EXM_WIN_PORT_PORT) (s.fget Fld.EXM_WIN_PORT_DEV) fun t => all || t == tbl with
        | (t, _) => (t, stOK)
    | _ => (s, stOutOfRange)
  (out.1.fset Fld.EXM_WIN_CTRL_STATUS out.2).setEvent Fld.EXM_EVENT_WIN_DONE

/-! ### Shadow compare (R261) -/

/-- What the walk finds for a 64-byte record; learned entries are skipped. -/
def State.exmShadowKind (s : State) (g x : Nat) : Nat :=
  let k := bitsAt x 0 384
  if !onlyBits x [(0, 408), (408, 7), (416, 6), (424, 2), (448, 32)] ∨ 63 < tblOf k ∨ 2 ^ s.tblWidth (tblOf k) ≤ keyOf k then 4
  else
    match s.tab.exm.find? fun v => v.val.tbl == tblOf k && v.val.key == keyOf k && !v.val.learned && s.visible v.tag g with
    | none => 1
    | some v => if v.val.bad then 3 else if v.val.result = bitsAt x 384 24 ∧ v.val.rkind = bitsAt x 408 2 then 0 else 2

def State.exmRepair (s : State) (x : Nat) : State :=
  let k := bitsAt x 0 384
  let bad := fun (v : Ver ExmEntry) => v.val.bad && v.val.tbl == tblOf k && v.val.key == keyOf k
  let s1 := { s with tab := { s.tab with exm := s.tab.exm.filter fun v => !bad v } }
  let present := s1.tab.exm.any fun v => v.val.isKey (tblOf k) (keyOf k) && s1.visible v.tag s.activeGen
  if s.buildOpen || s.commitPending then s
  else
    match s1.exmApply ⟨s.activeGen, true⟩ (if present then .replace else .insert) k (bitsAt x 384 24) (bitsAt x 408 2) with
    | .ok (s2, _) => s2
    | .error _ => s

def exmShadow : ShadowUnit :=
  { ctrl := Reg.EXM_SHADOW_CTRL, recBytes := 64, count := Fld.EXM_SHADOW_COUNT_COUNT, misLo := Reg.EXM_SHADOW_MIS_BASE_LO
    misHi := Reg.EXM_SHADOW_MIS_BASE_HI, misMax := Fld.EXM_SHADOW_MIS_MAX_MAX, done := Fld.EXM_SHADOW_DONE_CNT_CHECKED
    misCnt := Fld.EXM_SHADOW_MIS_CNT_COUNT, visible := Fld.EXM_SHADOW_VISIBLE_COUNT, evDone := Fld.EXM_EVENT_SHADOW_DONE
    evMis := Fld.EXM_EVENT_SHADOW_MIS, kind := fun s g _ x => s.exmShadowKind g x, repair := fun s _ x => s.exmRepair x
    visibleIn := fun s g => s.countVis s.tab.exm g fun e => !e.learned }

def execExmShadowDone (d : HostData) (s : State) : Host.Outcome State Fault Refusal := .next (s.shadowRecords exmShadow d)

end Sys2Proof.Machine
end

