-- ==== Sys2Proof/Machine/Cam.lean ====
section
/-! DEFINITION. The classification CAM (09 R266-R275, R293, R295, R296): search, rules, moves, repair. -/

namespace Sys2Proof.Machine

open Sys2Proof

/-! ### Search (R266-R269) -/

/-- Weight of an entry: the 1 bits of its MASK. -/
def camWeight (bits : Nat) : Nat := popCount 480 (camMask bits)

/-- (KEY XOR k) AND MASK is 0. -/
def camMatches (bits k : Nat) : Bool := Nat.land (Nat.xor (camKey bits) k) (camMask bits) == 0

/-- The record of R269. -/
structure CamResult where
  hit : Bool
  index : Nat
  weight : Nat
  actSet : Nat
  err : Bool
  deriving DecidableEq, Repr

def camMiss : CamResult := ⟨false, 0, 0, 0, false⟩

/-- Keeps the better of two matches: the higher weight, then the lower slot. -/
def camBetter (r : CamResult) (v : Ver IdxVal) : CamResult :=
  let w := camWeight v.val.bits
  if !r.hit || decide (r.weight < w) || (r.weight == w && decide (v.val.idx < r.index)) then
    { r with hit := true, index := v.val.idx, weight := w, actSet := camActSet v.val.bits }
  else r

/-- The search of a slice's copy for a key and a generation. -/
def State.camSearch (s : State) (slice : Nat) (key : Option Nat) (p : Nat) : CamResult :=
  match key with
  | none => camMiss
  | some k =>
    if !s.fbit Fld.CAM_CFG_EN then camMiss
    else
      let hits := s.tab.cam.filter fun v => s.visible v.tag p && camMatches v.val.bits k
      let good := hits.filter fun v => !s.tab.camBad.contains (16 * v.val.idx + slice)
      { good.foldl camBetter camMiss with err := decide (good.length < hits.length) }

/-- The fields of R269 in the order listed, from bit 0. -/
def CamResult.bits (r : CamResult) : Nat :=
  b2n r.hit + 2 * r.index + 2 ^ 16 * r.weight + 2 ^ 25 * r.actSet + 2 ^ 43 * b2n r.err

/-- Whether a slice's domain is ON (16 R470). -/
def State.sliceOn (s : State) (slice : Nat) : Bool := s.fget (Fld.PWR_DOM_STATE_STATE (3 + slice)) == 0

/-! ### Writes (R270) -/

/-- The version a slot holds. -/
def State.camSlot (s : State) (i : Nat) : Option (Ver IdxVal) := s.tab.cam.find? (·.val.idx == i)

/-- The rules of R270 for a write context: the new versions, the cost, the slot written. -/
def State.camVersions (s : State) (ctx : WriteCtx) (op : VerOp) (i j bits : Nat) :
    Except Nat (List (Ver IdxVal) × VerCost × Nat) :=
  let new : Tag := if ctx.direct then tagNone else ⟨true, ctx.gen, false, 0⟩
  let own := fun (t : Tag) => ctx.direct || (t.addV && t.addGen == ctx.gen)
  let jr := if ctx.direct then 0 else 1
  let tagDel := s.tab.cam.map fun v =>
    if v.val.idx = i then { v with tag := { v.tag with delV := true, delGen := ctx.gen } } else v
  match s.camSlot i, op with
  | none, .insert => .ok (s.tab.cam ++ [⟨new, ⟨i, bits, false⟩⟩], ⟨1, 0, 1, 0, jr⟩, i)
  | some v, .insert => .error (if ctx.direct ∨ s.visible v.tag ctx.gen = true then stExists else stState)
  | none, _ => .error stNotFound
  | some v, .delete =>
    if !s.visible v.tag ctx.gen then .error stNotFound
    else if own v.tag then .ok (s.tab.cam.filter (·.val.idx != i), ⟨0, 1, 0, 1, jr⟩, i)
    else .ok (tagDel, ⟨0, 1, 0, 0, 1⟩, i)
  | some v, .replace =>
    if !s.visible v.tag ctx.gen then .error stNotFound
    else if own v.tag then
      let upd := fun (w : Ver IdxVal) => if w.val.idx = i then { w with val := ⟨i, bits, false⟩ } else w
      .ok (s.tab.cam.map upd, ⟨0, 0, 0, 0, 0⟩, i)
    else if (s.camSlot j).isSome then .error stState
    else .ok (tagDel ++ [⟨new, ⟨j, bits, false⟩⟩], ⟨0, 0, 1, 0, 2⟩, j)

/-- Applies a CAM write: checks 7 to 9. Answers the state, whether a version was freed, the slot written. -/
def State.camApply (s : State) (ctx : WriteCtx) (op : VerOp) (i j bits : Nat) : Except (Nat × Nat) (State × Bool × Nat) :=
  match s.camVersions ctx op i j bits with
  | .error st => .error (st, 0)
  | .ok (vs, k, slot) =>
    if op ≠ .delete ∧ s.idxHas s.tab.act ctx.gen (camActSet bits) = false then .error (stNotFound, 2)
    else if !s.withinLimits 3 ctx (verVisible s ctx.gen (fun _ => 1) s.tab.cam) s.tab.cam.length k then .error (stNoSpace, 0)
    else
      let s1 := { s with tab := { s.tab with cam := vs, camBad := s.tab.camBad.filter fun b => b / 16 != slot } }
      .ok ((s1.addJournal ctx 3 k.journal).countDirect ctx, k.storeSub != 0, slot)

/-- The entry of a command's payload in the layout of R267. -/
def camEntry (c : Cmd) : Nat := c.fld 32 0 480 + 2 ^ 480 * c.fld 92 0 480 + 2 ^ 968 * c.fld 152 0 18

def camFields : List (Nat × Nat × Nat) := [(32, 0, 480), (92, 0, 480), (152, 0, 18)]

/-- Runs a CAM write whose slots no move holds back. -/
def State.camWriteNow (s : State) (opcode : Nat) (c : Cmd) : State × Done :=
  let op : VerOp := if opcode = 0x0601 then .insert else if opcode = 0x0602 then .replace else .delete
  match s.writeCtx (s.cmdMaster c) with
  | .error (st, r0) => (s, .done st r0 0)
  | .ok ctx =>
    match s.camApply ctx op (bitsAt c.arg0 0 15) (bitsAt c.arg0 16 15) (if op = .delete then 0 else camEntry c) with
    | .error (st, r0) => (s, .done st r0 0)
    | .ok (s', freed, slot) =>
      if op = .delete then ok s' (b2n freed) 0
      else if op = .insert then ok s' (camWeight (camEntry c)) 0
      else ok s' (slot + 2 ^ 16 * camWeight (camEntry c)) 0

/-- Whether a write touches the slots of the running move (R273). -/
def State.camHolds (s : State) (opcode : Nat) (c : Cmd) : Bool :=
  match s.tab.camMove with
  | none => false
  | some m =>
    let held := fun i => decide (m.first ≤ i + 1 ∧ i ≤ m.last + 1)
    held (bitsAt c.arg0 0 15) || (opcode == 0x0602 && held (bitsAt c.arg0 16 15))

/-- A CAM write: checks 1 to 3, then the write, or its wait for the move (R273). -/
def camWriteCmd (opcode : Nat) (lo : Nat) (a0 : List (Nat × Nat)) (c : Cmd) (s : State) : Host.Outcome State Fault Refusal :=
  runCmd opcode lo lo c s fun s =>
    if c.resv a0 [] (if opcode = 0x0603 then [] else camFields) then fail stBadPayload s
    else if opcode ≠ 0x0603 ∧ Nat.land (c.fld 32 0 480) (c.fld 92 0 480) ≠ c.fld 32 0 480 then fail stBadPayload s
    else if s.camHolds opcode c then
      ({ s with tab := { s.tab with camHeld := s.tab.camHeld ++ [(opcode, c)] } }, .later)
    else s.camWriteNow opcode c

def execCamInsert (c : Cmd) (s : State) : Host.Outcome State Fault Refusal := camWriteCmd 0x0601 5 [(0, 15)] c s

def execCamReplace (c : Cmd) (s : State) : Host.Outcome State Fault Refusal := camWriteCmd 0x0602 5 [(0, 15), (16, 15)] c s

def execCamDelete (c : Cmd) (s : State) : Host.Outcome State Fault Refusal := camWriteCmd 0x0603 1 [(0, 15)] c s

/-! ### Reads (R296) -/

/-- The 128-byte CAM record. -/
def State.camRecord (s : State) (i g : Nat) : List Byte :=
  match s.camSlot i with
  | none => leBytes 128 0
  | some v =>
    let b := v.val.bits
    let flags := 1 + 2 * b2n (s.visible v.tag g) + 4 * b2n (s.tab.camBad.any fun x => x / 16 == i)
    leBytes 60 (camKey b) ++ leBytes 60 (camMask b) ++ leBytes 3 (camActSet b) ++ leBytes 1 v.tag.bits
      ++ leBytes 2 (camWeight b) ++ leBytes 1 flags ++ leBytes 1 0

def execCamRead (c : Cmd) (s : State) : Host.Outcome State Fault Refusal :=
  runCmd 0x0604 2 2 c s fun s =>
    if c.resv [(0, 15)] [(0, 2)] [(32, 0, 64)] then fail stBadPayload s
    else if !s.genReadable (bitsAt c.arg1 0 2) then fail stState s
    else ok (s.emit (.hostWrite (c.fld 32 0 64) (s.camRecord (bitsAt c.arg0 0 15) (bitsAt c.arg1 0 2)))) 0 0

/-- The occupancy bitmap: bit i says that slot i holds a version. -/
def State.camOcc (s : State) : Nat := s.tab.cam.foldl (fun n v => Nat.lor n (2 ^ v.val.idx)) 0

def execCamOcc (c : Cmd) (s : State) : Host.Outcome State Fault Refusal :=
  runCmd 0x0606 2 2 c s fun s =>
    if c.resv [] [] [(32, 0, 64)] then fail stBadPayload s
    else ok (s.emit (.hostWrite (c.fld 32 0 64) (leBytes 4096 s.camOcc))) 0 0

/-- CAM_SEARCH searches the copy of the lowest-numbered slice that is ON. -/
def execCamSearch (c : Cmd) (s : State) : Host.Outcome State Fault Refusal :=
  runCmd 0x0607 3 3 c s fun s =>
    if c.resv [] [(0, 2)] [(32, 0, 480)] then fail stBadPayload s
    else if !s.genReadable (bitsAt c.arg1 0 2) then fail stState s
    else
      match (List.range 16).find? s.sliceOn with
      | none => ok s 0 0
      | some slice => ok s (s.camSearch slice (some (c.fld 32 0 480)) (bitsAt c.arg1 0 2)).bits 0

/-! ### Moves (R272, R273) -/

/-- The slot next to the block that a move shifts into, when it lies in the table. -/
def CamMove.dest (m : CamMove) : Option Nat :=
  if m.down then (if m.first = 0 then none else some (m.first - 1)) else if m.last = 32767 then none else some (m.last + 1)

/-- Starts a move, or answers why not. -/
def State.camMoveStart (s : State) (m : CamMove) : State × Done :=
  match m.dest with
  | none => fail stOutOfRange s
  | some d =>
    if (s.camSlot d).isSome then fail stState s
    else
      let s1 := ((s.fset Fld.CAM_MOVE_STATUS_FIRST m.first).fset Fld.CAM_MOVE_STATUS_LAST m.last).fset
        Fld.CAM_MOVE_STATUS_DIR (b2n m.down)
      (({ s1 with tab := { s1.tab with camMove := some m } }).fset Fld.CAM_STATUS_MOVING 1, .later)

/-- CAM_MOVE: it waits for a running move and for a journal walk (R273). -/
def execCamMove (c : Cmd) (s : State) : Host.Outcome State Fault Refusal :=
  runCmd 0x0605 1 1 c s fun s =>
    let m : CamMove := ⟨bitsAt c.arg0 0 15, bitsAt c.arg0 16 15, bitAt c.arg0 31, c⟩
    if c.resv [(0, 15), (16, 16)] [] [] then fail stBadPayload s
    else if m.last < m.first ∨ m.dest.isNone = true then fail stOutOfRange s
    else if !s.owns (s.cmdMaster c) 16 then fail stNotOwner s
    else if s.tab.camMove.isSome ∨ s.gen.walks ≠ [] then
      ({ s with tab := { s.tab with camWaiting := s.tab.camWaiting ++ [m] } }, .later)
    else s.camMoveStart m

/-- The slot a moved slot's entry goes to. -/
def CamMove.shift (m : CamMove) (i : Nat) : Nat :=
  if i < m.first ∨ m.last < i then i else if m.down then i - 1 else i + 1

/-- Starts the waiting moves that fail at once and the first that runs; only while nothing runs. -/
def camNext : List CamMove → State → State
  | [], s => s
  | m :: ms, s =>
    if s.tab.camMove.isSome ∨ s.gen.walks ≠ [] then { s with tab := { s.tab with camWaiting := m :: ms } }
    else
      match s.camMoveStart m with
      | (s', .later) => { s' with tab := { s'.tab with camWaiting := ms } }
      | (s', .done st r0 r1) => camNext ms (s'.complete m.cmd 0x0605 st r0 r1)

/-- The waiting moves get their turn. -/
def State.camResume (s : State) : State := camNext s.tab.camWaiting { s with tab := { s.tab with camWaiting := [] } }

/-- Runs the writes a move held back, in order. -/
def camHeldRun : List (Nat × Cmd) → State → State
  | [], s => s
  | (op, c) :: r, s =>
    if s.camHolds op c then camHeldRun r { s with tab := { s.tab with camHeld := s.tab.camHeld ++ [(op, c)] } }
    else
      match s.camWriteNow op c with
      | (s', .done st r0 r1) => camHeldRun r (s'.complete c op st r0 r1)
      | (s', .later) => camHeldRun r s'

/-! ### Integrity (R293) and the shadow compare (R295) -/

/-- A copy of a slot fails parity: reported, ignored in its slice until repaired. -/
def State.camUpset (s : State) (u : Upset) : State :=
  if u.table ≠ .cam ∨ (s.camSlot u.index).isNone then s
  else
    let x := 16 * u.index + u.copy % 16
    let bad := if s.tab.camBad.contains x then s.tab.camBad else s.tab.camBad ++ [x]
    let s1 := { s with tab := { s.tab with camBad := bad } }
    let s2 := (s1.satAdd Fld.CAM_PAR_ERR_CNT_COUNT 1).fset Fld.CAM_PAR_ERR_LOC_INDEX u.index
    let s3 := (s2.fset Fld.CAM_PAR_ERR_LOC_COPY u.copy).fset Fld.CAM_PAR_ERR_LOC_ALL_FAILED 0
    (s3.setEvent Fld.CAM_EVENT_PAR_ERR).raiseError 0x1001 (s3.reg Reg.CAM_PAR_ERR_LOC).toNat

/-- Repairs one slot: its failing copies are rewritten from one that checks; with none, the slot is freed. -/
def State.camRepairSlot (s : State) (i : Nat) : State :=
  let bad := s.tab.camBad.filter fun b => b / 16 == i
  let s1 := { s with tab := { s.tab with camBad := s.tab.camBad.filter fun b => b / 16 != i } }
  if bad.length < 16 then s1
  else
    let s2 := { s1 with tab := { s1.tab with cam := s1.tab.cam.filter (·.val.idx != i) } }
    let s3 := (s2.setEvent Fld.CAM_EVENT_REPAIR_FAIL).fset Fld.CAM_PAR_ERR_LOC_ALL_FAILED 1
    s3.raiseError 0x1002 (s3.reg Reg.CAM_PAR_ERR_LOC).toNat

/-- Errors are met in copies, and within 1 ms firmware repairs every slot with a failing copy. -/
def execCamParityRepair (upsets : List Upset) (s : State) : Host.Outcome State Fault Refusal :=
  let s1 := upsets.foldl State.camUpset s
  .next ((s1.tab.camBad.map (· / 16)).eraseDups.foldl State.camRepairSlot s1)

/-- What the walk finds for the 128-byte record at an index, which is its slot (R295). -/
def State.camShadowKind (s : State) (g slot rec' : Nat) : Nat :=
  if !onlyBits rec' [(0, 978), (984, 6), (992, 9), (1008, 3)] ∨ 32767 < slot then 4
  else
    match s.camSlot slot with
    | none => if bitAt rec' 1009 then 1 else 0
    | some v =>
      if s.tab.camBad.any (fun b => b / 16 == slot) then 3
      else if !s.visible v.tag g then (if bitAt rec' 1009 then 1 else 0)
      else if camKey v.val.bits = bitsAt rec' 0 480 ∧ camMask v.val.bits = bitsAt rec' 480 480
          ∧ camActSet v.val.bits = bitsAt rec' 960 18 ∧ bitAt rec' 1009 = true then 0
      else 2

/-- REPAIR rewrites a slot by a direct write. -/
def State.camRepair (s : State) (slot rec' : Nat) : State :=
  let bits := bitsAt rec' 0 960 + 2 ^ 968 * bitsAt rec' 960 18
  if s.buildOpen || s.commitPending then s
  else
    let op : VerOp := if bitAt rec' 1009 then (if (s.camSlot slot).isSome then .replace else .insert) else .delete
    match s.camApply ⟨s.activeGen, true⟩ op slot slot bits with
    | .ok (s', _) => s'
    | .error _ => s

def camShadow : ShadowUnit :=
  { ctrl := Reg.CAM_SHADOW_CTRL, recBytes := 128, count := Fld.CAM_SHADOW_COUNT_COUNT, misLo := Reg.CAM_SHADOW_MIS_BASE_LO
    misHi := Reg.CAM_SHADOW_MIS_BASE_HI, misMax := Fld.CAM_SHADOW_MIS_MAX_MAX, done := Fld.CAM_SHADOW_DONE_CNT_CHECKED
    misCnt := Fld.CAM_SHADOW_MIS_CNT_COUNT, visible := Fld.CAM_SHADOW_VISIBLE_COUNT, evDone := Fld.CAM_EVENT_SHADOW_DONE
    evMis := Fld.CAM_EVENT_SHADOW_MIS, kind := State.camShadowKind, repair := State.camRepair
    visibleIn := fun s g => s.countVis s.tab.cam g fun _ => true }

/-- The walk of the CAM gets records. -/
def execCamShadowDone (d : HostData) (s : State) : Host.Outcome State Fault Refusal := .next (s.shadowRecords camShadow d)

end Sys2Proof.Machine
end

