-- ==== Sys2Proof/Machine/Action.lean ====
section
/-! DEFINITION. Action sets, policer bindings and policers, replication groups and flow statistics (09 R277-R292, R294, R297). -/

namespace Sys2Proof.Machine

open Sys2Proof

/-! ### Integrity (R294) -/

/-- Marks the version at a place of an indexed table as failing parity. -/
def IdxTable.mark (t : IdxTable) (i : Nat) (s : State) : State :=
  let l := modifyAt (fun (w : Ver IdxVal) => { w with val := { w.val with bad := true } }) i (t.get s.tab)
  { s with tab := t.put s.tab l }

def State.actReport (s : State) (index table : Nat) : State :=
  let s1 := (s.satAdd Fld.ACT_PAR_ERR_CNT_COUNT 1).fset Fld.ACT_PAR_ERR_LOC_INDEX index
  (s1.fset Fld.ACT_PAR_ERR_LOC_TABLE table)

/-- Policer state at reset: disabled and empty. -/
def policer0 : Policer := ⟨false, 0, 0, 0, 0, 0, 0, 0, 0, 0⟩

def State.polGet (s : State) (i : Nat) : Policer := Assoc.get s.tab.pol policer0 i
def State.polPut (s : State) (i : Nat) (p : Policer) : State :=
  { s with tab := { s.tab with pol := Assoc.put s.tab.pol policer0 i p } }

/-- The index of the version at a place. -/
def IdxTable.indexAt (t : IdxTable) (s : State) (i : Nat) : Nat :=
  match (t.get s.tab)[i]? with | some v => v.val.idx | none => i

/-- An error met in a table of the action stage. -/
def State.actUpset (s : State) (u : Upset) : State :=
  let entry := fun (t : IdxTable) (code : Nat) =>
    let s1 := ((t.mark u.index s).actReport (t.indexAt s u.index) code).setEvent Fld.ACT_EVENT_PAR_ERR
    s1.raiseError 0x1101 (s1.reg Reg.ACT_PAR_ERR_LOC).toNat
  match u.table with
  | .act => entry actTable 0
  | .polb => entry polbTable 1
  | .repl => entry replTable 2
  | .replMember =>
    let mark := fun (b : Block) =>
      if b.base ≤ u.index ∧ u.index < b.base + b.members.length then { b with bad := (u.index - b.base) :: b.bad } else b
    let s0 := { s with tab := { s.tab with replBlocks := s.tab.replBlocks.map mark } }
    let s1 := (s0.actReport u.index 3).setEvent Fld.ACT_EVENT_PAR_ERR
    s1.raiseError 0x1101 (s1.reg Reg.ACT_PAR_ERR_LOC).toNat
  | .policer =>
    let p := s.polGet u.index
    let full := { p with tc := p.cbs * 1000000000, tx := p.xbs * 1000000000, last := s.nowNs % 2 ^ 64 }
    (((s.polPut u.index full).actReport u.index 4).setEvent Fld.ACT_EVENT_POL_ECC).raiseError 0x1102 u.index
  | _ => s

/-! ### Action sets (R277, R278, R297) -/

def actFields : List (Nat × Nat × Nat) :=
  [(32, 1, 1), (33, 0, 56), (40, 0, 56), (48, 0, 57), (56, 0, 12)]

/-- Check 3 of an action set (R278). -/
def actBad (x : Nat) : Bool :=
  ((actCopyEn x || actFwd x == 6) && decide (actReason x < 0x20)) || (actFwd x == 4 && actFwdArg x != 0)

/-- The objects an action set names (R279, 10 R309). -/
def State.actRefsOk (s : State) (g x : Nat) : Bool :=
  s.refOk s.tab.polb g (actPol0 x) && s.refOk s.tab.polb g (actPol1 x)
    && (actFwd x != 5 || s.idxHas s.tab.repl g (actFwdArg x)) && (actFwd x != 3 || s.idxHas s.tab.nh g (actFwdArg x))
    && s.refOk s.tab.edit g (actEdit x) && s.refOk s.tab.mirror g (actMirror x)

def execActWrite (c : Cmd) (s : State) : Host.Outcome State Fault Refusal :=
  runCmd 0x0701 2 2 c s fun s =>
    let op := bitsAt c.arg0 24 2
    let x := c.fld 32 0 256
    if c.resv [(0, 18), (24, 2)] [] actFields || bitAt x 60 || bitAt x 61 || bitAt x 62 || bitAt x 63 then fail stBadPayload s
    else if op = 3 then fail stOutOfRange s
    else if op ≠ 2 ∧ actBad x = true then fail stBadPayload s
    else s.idxWrite c actTable op (bitsAt c.arg0 0 18) x (fun g => s.actRefsOk g x) (fun g => s.actRefs g (bitsAt c.arg0 0 18))

/-- Reads an indexed entry of the action or edit tables: the bits, or the status. -/
def State.idxRead (s : State) (t : IdxTable) (g i n badStatus : Nat) : Except Nat Nat :=
  if !s.genReadable g then .error stState
  else
    match s.idxVer (t.get s.tab) g i with
    | none => .error stNotFound
    | some v => if v.val.bad then .error badStatus else .ok (verBits n v)

def execActRead (c : Cmd) (s : State) : Host.Outcome State Fault Refusal :=
  runCmd 0x0702 2 2 c s fun s =>
    if c.resv [(0, 18)] [(0, 2)] [(32, 0, 64)] then fail stBadPayload s
    else
      match s.idxRead actTable (bitsAt c.arg1 0 2) (bitsAt c.arg0 0 18) 256 stDataError with
      | .error st => fail st s
      | .ok x => ok (s.emit (.hostWrite (c.fld 32 0 64) (leBytes 32 x))) 0 0

/-! ### Policer bindings (R284) -/

def polbPolicer (x : Nat) : Nat := bitsAt x 8 19
def polbAware (x : Nat) : Bool := bitAt x 27
def polbYelAct (x : Nat) : Nat := bitsAt x 28 2
def polbRedAct (x : Nat) : Nat := bitsAt x 30 2
def polbYelDscp (x : Nat) : Nat := bitsAt x 32 6
def polbRedDscp (x : Nat) : Nat := bitsAt x 38 6

def execPolbWrite (c : Cmd) (s : State) : Host.Outcome State Fault Refusal :=
  runCmd 0x0703 1 1 c s fun s =>
    let op := bitsAt c.arg0 24 2
    let i := bitsAt c.arg0 0 18
    if c.resv [(0, 18), (24, 2)] [(8, 36)] [] then fail stBadPayload s
    else if i = 0 ∨ op = 3 then fail stOutOfRange s
    else if op ≠ 2 ∧ (polbYelAct c.arg1 = 3 ∨ polbRedAct c.arg1 = 3) then fail stBadPayload s
    else s.idxWrite c polbTable op i c.arg1 (fun _ => true) (fun g => s.polbRefs g i)

def execPolbRead (c : Cmd) (s : State) : Host.Outcome State Fault Refusal :=
  runCmd 0x0704 1 1 c s fun s =>
    if c.resv [(0, 18)] [(0, 2)] [] then fail stBadPayload s
    else if bitsAt c.arg0 0 18 = 0 then fail stOutOfRange s
    else
      match s.idxRead polbTable (bitsAt c.arg1 0 2) (bitsAt c.arg0 0 18) 64 stDataError with
      | .error st => fail st s
      | .ok x => ok s x 0

/-! ### Policers (R286-R289) -/

inductive Colour where
  | green | yellow | red
  deriving DecidableEq, Repr

/-- The colour of a COLOR code: 3 is treated as red (11 R326). -/
def colourOf (n : Nat) : Colour := if n = 0 then .green else if n = 1 then .yellow else .red

def Colour.code : Colour → Nat
  | .green => 0
  | .yellow => 1
  | .red => 2

/-- Tokens earned up to instant `t` (ns modulo 2⁶⁴); time stepped back earns none (R287). -/
def Policer.refill (q : Policer) (t : Nat) : Policer :=
  let d0 := (t + 2 ^ 64 - q.last) % 2 ^ 64
  let d := if 2 ^ 63 ≤ d0 then 0 else d0
  { q with last := t, tc := min (q.tc + q.cir * 125 * d) (q.cbs * 1000000000)
           tx := min (q.tx + q.xir * 125 * d) (q.xbs * 1000000000) }

/-- Colours `b` bytes and debits the buckets (R287). -/
def Policer.police (q0 : Policer) (t b : Nat) (input : Colour) : Policer × Colour :=
  let q := q0.refill t
  let n := b * 1000000000
  if q.mode = 0 then
    if input = .red ∨ q.tx < n then (q, .red)
    else
      let q1 := { q with tx := q.tx - n }
      if input = .yellow ∨ q1.tc < n then (q1, .yellow) else ({ q1 with tc := q1.tc - n }, .green)
  else if input = .green ∧ n ≤ q.tc then ({ q with tc := q.tc - n }, .green)
  else if input ≠ .red ∧ n ≤ q.tx then ({ q with tx := q.tx - n }, .yellow)
  else (q, .red)

/-- The counted length: B = PKT_LEN + 4 + LEN_ADJ, at least 1 (R286). -/
def countedLen (pktLen : Nat) (adj : Int) : Nat := (max 1 ((pktLen : Int) + 4 + adj)).toNat

/-- A policer colours a packet; with EN 0 the packet keeps its input colour. -/
def State.policerRun (s : State) (i pktLen : Nat) (input : Colour) : State × Colour :=
  let q := s.polGet i
  if !q.en then (s, input)
  else
    match q.police (s.nowNs % 2 ^ 64) (countedLen pktLen q.lenAdj) input with
    | (q', col) => (s.polPut i q', col)

def polFields : List (Nat × Nat × Nat) := [(32, 0, 128), (48, 0, 2), (49, 0, 8)]

/-- Sets a policer's configuration and tokens (R289) at instant `t`. -/
def Policer.configure (q0 : Policer) (t tokens : Nat) (new : Policer) : Policer :=
  let q := q0.refill t
  let tc := if tokens = 0 then min q.tc (new.cbs * 1000000000) else if tokens = 1 then new.cbs * 1000000000 else 0
  let tx := if tokens = 0 then min q.tx (new.xbs * 1000000000) else if tokens = 1 then new.xbs * 1000000000 else 0
  { new with tc := tc, tx := tx, last := t }

/-- The configuration of a POL_SET or TMPOL_SET payload. -/
def polPayload (c : Cmd) : Policer :=
  { en := bitAt (c.fld 48 0 2) 0, mode := c.fld 48 1 1, cir := c.fld 32 0 32, xir := c.fld 36 0 32, cbs := c.fld 40 0 32
    xbs := c.fld 44 0 32, lenAdj := signed (c.fld 49 0 8) 8, tc := 0, tx := 0, last := 0 }

/-- The format rules of R289. -/
def Policer.badConfig (p : Policer) : Bool :=
  decide (p.cbs < 64) || decide (p.xbs < 64) || (p.mode == 0 && decide (p.xir < p.cir)) || decide (p.lenAdj < -64)
    || decide (63 < p.lenAdj)

def execPolSet (c : Cmd) (s : State) : Host.Outcome State Fault Refusal :=
  runCmd 0x0705 2 2 c s fun s =>
    let tokens := bitsAt c.arg0 24 2
    let i := bitsAt c.arg0 0 19
    if c.resv [(0, 19), (24, 2)] [] polFields then fail stBadPayload s
    else if tokens = 3 then fail stOutOfRange s
    else if (polPayload c).badConfig then fail stBadPayload s
    else ok (s.polPut i ((s.polGet i).configure (s.nowNs % 2 ^ 64) tokens (polPayload c))) 0 0

/-- The 48 bytes of POL_READ. -/
def polRecord (q : Policer) : List Byte :=
  leBytes 4 q.cir ++ leBytes 4 q.xir ++ leBytes 4 q.cbs ++ leBytes 4 q.xbs ++ leBytes 1 (b2n q.en + 2 * q.mode)
    ++ leBytes 1 (unsignedOf q.lenAdj 8) ++ leBytes 6 0 ++ leBytes 8 q.tc ++ leBytes 8 q.tx ++ leBytes 8 q.last

def execPolRead (c : Cmd) (s : State) : Host.Outcome State Fault Refusal :=
  runCmd 0x0706 2 2 c s fun s =>
    if c.resv [(0, 19)] [] [(32, 0, 64)] then fail stBadPayload s
    else ok (s.emit (.hostWrite (c.fld 32 0 64) (polRecord (s.polGet (bitsAt c.arg0 0 19))))) 0 0

/-! ### Replication groups (R283) -/

/-- A member's check: reserved bits and PARITY 0, ENCAP in its table (10 R307). -/
def replMemberCheck (m : Nat) : Option Nat :=
  if !onlyBits m [(0, 41)] then some stBadPayload else if 262143 < rmEncap m then some stOutOfRange else none

def execReplWrite (c : Cmd) (d : HostData) (s : State) : Host.Outcome State Fault Refusal :=
  runCmd 0x0707 1 1 c s fun s =>
    let op := bitsAt c.arg0 24 2
    let i := bitsAt c.arg0 0 16
    if c.resv [(0, 16), (24, 2), (32, 10)] [(0, 64)] [] then fail stBadPayload s
    else if op = 3 then fail stOutOfRange s
    else
      s.groupCmd c replGroups op i (bitsAt c.arg0 32 10 + 1) 8 d replMemberCheck
        (fun ms g => ms.all fun m => s.refOk s.tab.encap g (rmEncap m)) (fun g => s.replRefs g i)

/-- A member with its parity. -/
def replMemberBits (m : Nat) : Nat := m + parityOf 63 m * 2 ^ 63

def execReplRead (c : Cmd) (s : State) : Host.Outcome State Fault Refusal :=
  runCmd 0x0708 2 2 c s fun s =>
    if c.resv [(0, 16)] [(0, 2)] [(32, 0, 64)] then fail stBadPayload s
    else
      match s.idxRead replTable (bitsAt c.arg1 0 2) (bitsAt c.arg0 0 16) 64 stDataError with
      | .error st => fail st s
      | .ok x =>
        match blockAt s.tab.replBlocks (replBase x) with
        | none => fail stDataError s
        | some b =>
          if !b.bad.isEmpty then fail stDataError s
          else
            ok (s.emit (.hostWrite (c.fld 32 0 64) (b.members.flatMap fun m => leBytes 8 (replMemberBits m))))
              (replBase x + 2 ^ 18 * (replSize x - 1)) 0

/-! ### Flow statistics (R290-R292) -/

def flow0 : FlowPair := ⟨0, 0⟩

/-- Adds two pairs; each half wraps at 2⁶⁴. -/
def FlowPair.add (a b : FlowPair) : FlowPair := ⟨(a.packets + b.packets) % 2 ^ 64, (a.bytes + b.bytes) % 2 ^ 64⟩

/-- A counter as a read returns it: HBM value plus what the cache and the write-back queue hold (R292). -/
def State.flowValue (s : State) (i : Nat) : FlowPair :=
  (s.tab.fstQueue.filter (·.1 == i)).foldl (fun a q => a.add q.2)
    ((Assoc.get s.tab.fst flow0 i).add (Assoc.get s.tab.fstCache flow0 i))

/-- A cache entry leaves for HBM through the write-back queue of 4,096; a full queue loses it (R291). -/
def State.flowLeave (s : State) (i : Nat) : State :=
  match Assoc.find s.tab.fstCache i with
  | none => s
  | some d =>
    let s1 := { s with tab := { s.tab with fstCache := Assoc.erase s.tab.fstCache i } }
    if 4096 ≤ s.tab.fstQueue.length then (s1.satAdd Fld.FST_LOST_CNT_COUNT d.packets).setEvent Fld.ACT_EVENT_FST_LOST
    else { s1 with tab := { s1.tab with fstQueue := s1.tab.fstQueue ++ [(i, d)] } }

/-- A pass with a STAT group counts 1 packet and PKT_LEN + 4 bytes (R290); `evict` names the entry a full cache set evicts. -/
def State.flowCount (s : State) (i pktLen : Nat) (evict : Option Nat) : State :=
  if !s.fbit Fld.FST_CFG_EN then s
  else
    let s0 := match evict with | some e => if e = i then s else s.flowLeave e | none => s
    let d := (Assoc.get s0.tab.fstCache flow0 i).add ⟨1, pktLen + 4⟩
    let s1 := { s0 with tab := { s0.tab with fstCache := Assoc.insert s0.tab.fstCache i d } }
    if 2 ^ 20 ≤ d.packets ∨ 2 ^ 36 ≤ d.bytes then s1.flowLeave i else s1

/-- The write-back queue's increments reach HBM; an uncorrectable data error there replaces the pair with the increment
(R294). -/
def flowDrain (bad : List Nat) : List (Nat × FlowPair) → State → State
  | [], s => s
  | (i, d) :: r, s0 =>
    let u := flowUnits.1 + i / 4
    let s := (s0.hbfUnit 16 u).hbfUnit 16 u
    if bad.contains i then
      let s2 := s.hbfUeAt u 16 false
      let s1 := { s2 with tab := { s2.tab with fst := Assoc.put s2.tab.fst flow0 i d } }
      flowDrain (bad.filter (· != i)) r (((s1.actReport i 5).setEvent Fld.ACT_EVENT_FST_DATA_ERR).raiseError 0x1103 i)
    else
      let v := (Assoc.get s.tab.fst flow0 i).add d
      flowDrain bad r { s with tab := { s.tab with fst := Assoc.put s.tab.fst flow0 i v } }

/-- The periodic sweep: what the queue holds reaches HBM, then every cached increment leaves (R291). -/
def execFstFlushSweep (upsets : List Upset) (s : State) : Host.Outcome State Fault Refusal :=
  if s.fget Fld.FST_CFG_FLUSH_US = 0 then .next s
  else
    let bad := (upsets.filter fun u => u.table == .flow).map (·.index)
    let all := s.tab.fstQueue ++ s.tab.fstCache
    .next (flowDrain bad all { s with tab := { s.tab with fstQueue := [], fstCache := [] } })

/-- Zeroes a pair, in HBM and in the cache. -/
def State.flowClear (s : State) (i : Nat) : State :=
  { s with tab := { s.tab with fst := Assoc.erase s.tab.fst i, fstCache := Assoc.erase s.tab.fstCache i
                               fstQueue := s.tab.fstQueue.filter (·.1 != i) } }

def execFstRead (c : Cmd) (s : State) : Host.Outcome State Fault Refusal :=
  runCmd 0x0709 1 1 c s fun s =>
    let i := bitsAt c.arg0 0 25
    if c.resv [(0, 25), (32, 1)] [] [] then fail stBadPayload s
    else
      let v := s.flowValue i
      ok (if bitAt c.arg0 32 then s.flowClear i else s) v.packets v.bytes

def execFstBulk (c : Cmd) (s : State) : Host.Outcome State Fault Refusal :=
  runCmd 0x070A 2 2 c s fun s =>
    let first := bitsAt c.arg0 0 25
    let n := bitsAt c.arg1 0 21
    if c.resv [(0, 25)] [(0, 21), (32, 1)] [(32, 0, 64)] then fail stBadPayload s
    else if n = 0 ∨ 1048576 < n ∨ 33554432 < first + n then fail stOutOfRange s
    else
      let ix := (List.range n).map (first + ·)
      let bytes := ix.flatMap fun i => leBytes 8 (s.flowValue i).packets ++ leBytes 8 (s.flowValue i).bytes
      let s1 := s.emit (.hostWrite (c.fld 32 0 64) bytes)
      ok (if bitAt c.arg1 32 then ix.foldl State.flowClear s1 else s1) 0 0

/-! ### Edit programs, mirror sessions, encapsulation entries, header templates (10 R305-R308, R314, R316) -/

def execEditWrite (c : Cmd) (s : State) : Host.Outcome State Fault Refusal :=
  runCmd 0x0711 1 1 c s fun s =>
    let op := bitsAt c.arg0 24 2
    let i := bitsAt c.arg0 0 12
    if c.resv [(0, 12), (24, 2)] [(8, 26)] [] then fail stBadPayload s
    else if i = 0 ∨ op = 3 then fail stOutOfRange s
    else s.idxWrite c editTable op i c.arg1 (fun _ => true) (fun g => s.editRefs g i)

def execEditRead (c : Cmd) (s : State) : Host.Outcome State Fault Refusal :=
  runCmd 0x0712 1 1 c s fun s =>
    if c.resv [(0, 12)] [(0, 2)] [] then fail stBadPayload s
    else if bitsAt c.arg0 0 12 = 0 then fail stOutOfRange s
    else
      match s.idxRead editTable (bitsAt c.arg1 0 2) (bitsAt c.arg0 0 12) 64 stNotFound with
      | .error st => fail st s
      | .ok x => ok s x 0

/-- A TRUNC of 1–63, or above 9,216, is refused (10 R314). -/
def mirTrunc (x : Nat) : Nat := bitsAt x 68 14

def execMirrorWrite (c : Cmd) (s : State) : Host.Outcome State Fault Refusal :=
  runCmd 0x0713 2 2 c s fun s =>
    let op := bitsAt c.arg0 24 2
    let i := bitsAt c.arg0 0 4
    let x := c.fld 32 0 128
    if c.resv [(0, 4), (24, 2)] [] [(33, 0, 78)] then fail stBadPayload s
    else if i = 0 ∨ op = 3 ∨ (op ≠ 2 ∧ (262143 < mirEncap x ∨ 9216 < mirTrunc x)) then fail stOutOfRange s
    else if op ≠ 2 ∧ 1 ≤ mirTrunc x ∧ mirTrunc x ≤ 63 then fail stBadPayload s
    else s.idxWrite c mirrorTable op i x (fun g => s.refOk s.tab.encap g (mirEncap x)) (fun g => s.mirrorRefs g i)

def execMirrorRead (c : Cmd) (s : State) : Host.Outcome State Fault Refusal :=
  runCmd 0x0714 1 1 c s fun s =>
    if c.resv [(0, 4)] [(0, 2)] [] then fail stBadPayload s
    else if bitsAt c.arg0 0 4 = 0 then fail stOutOfRange s
    else
      match s.idxRead mirrorTable (bitsAt c.arg1 0 2) (bitsAt c.arg0 0 4) 128 stNotFound with
      | .error st => fail st s
      | .ok x => ok s (bitsAt x 0 64) (bitsAt x 64 64)

def encL2Op (x : Nat) : Nat := bitsAt x 8 2
def encTagOp (x : Nat) : Nat := bitsAt x 10 2
def encTpidSel (x : Nat) : Bool := bitAt x 12
def encTtlDec (x : Nat) : Bool := bitAt x 13
def encLabels (x : Nat) : Nat := bitsAt x 14 2
def encEtype (x : Nat) : Nat := bitsAt x 28 16
def encDa (x : Nat) : Nat := bitsAt x 44 48
def encSa (x : Nat) : Nat := bitsAt x 92 48
def encTci0 (x : Nat) : Nat := bitsAt x 140 16
def encTci1 (x : Nat) : Nat := bitsAt x 156 16
def encLabel (x k : Nat) : Nat := bitsAt x (172 + 20 * k) 20

def execEncapWrite (c : Cmd) (s : State) : Host.Outcome State Fault Refusal :=
  runCmd 0x0715 2 2 c s fun s =>
    let op := bitsAt c.arg0 24 2
    let i := bitsAt c.arg0 0 18
    let x := c.fld 32 0 256
    if c.resv [(0, 18), (24, 2)] [] [(33, 0, 224)] then fail stBadPayload s
    else if i = 0 ∨ op = 3 then fail stOutOfRange s
    else if op ≠ 2 ∧ (encL2Op x = 3 ∨ (encTagOp x = 3 ∧ encL2Op x = 2)) then fail stBadPayload s
    else s.idxWrite c encapTable op i x (fun g => s.refOk s.tab.tmpl g (encTemplate x)) (fun g => s.encapRefs g i)

def execEncapRead (c : Cmd) (s : State) : Host.Outcome State Fault Refusal :=
  runCmd 0x0716 2 2 c s fun s =>
    if c.resv [(0, 18)] [(0, 2)] [(32, 0, 64)] then fail stBadPayload s
    else if bitsAt c.arg0 0 18 = 0 then fail stOutOfRange s
    else
      match s.idxRead encapTable (bitsAt c.arg1 0 2) (bitsAt c.arg0 0 18) 256 stNotFound with
      | .error st => fail st s
      | .ok x => ok (s.emit (.hostWrite (c.fld 32 0 64) (leBytes 32 x))) 0 0

/-! A header template (10 R308) is held as the number of its 128 bytes, byte 0 lowest. -/

def tmplLen (x : Nat) : Nat := bitsAt x 8 8
def tmplIpOff (x : Nat) : Nat := bitsAt x 16 8
def tmplUdpOff (x : Nat) : Nat := bitsAt x 24 8
def tmplEntropy (x : Nat) : Bool := bitAt x 32

/-- DATA bytes of a template. -/
def tmplData (x : Nat) : List Nat := natBytes (tmplLen x) (x / 2 ^ 64)

/-- The format rules of R308. -/
def tmplBad (x : Nat) : Bool :=
  let n := tmplLen x
  let ver := (tmplData x).getD (tmplIpOff x) 0 / 16
  decide (n < 8) || decide (120 < n) || decide (2 ^ (64 + 8 * n) ≤ x)
    || (tmplIpOff x != 0xFF && decide (n < tmplIpOff x + (if ver = 6 then 40 else 20)))
    || (tmplUdpOff x != 0xFF && decide (n < tmplUdpOff x + 8))

def execTmplWrite (c : Cmd) (s : State) : Host.Outcome State Fault Refusal :=
  runCmd 0x0717 5 5 c s fun s =>
    let op := bitsAt c.arg0 24 2
    let i := bitsAt c.arg0 0 12
    let x := c.fld 32 0 1024
    if c.resv [(0, 12), (24, 2)] [] [(33, 0, 25), (40, 0, 960)] then fail stBadPayload s
    else if i = 0 ∨ op = 3 then fail stOutOfRange s
    else if op ≠ 2 ∧ tmplBad x = true then fail stBadPayload s
    else s.idxWrite c tmplTable op i x (fun _ => true) (fun g => s.tmplRefs g i)

/-- A template as TMPL_READ gives it: VALID and tag in byte 0, even parity over the 128 bytes in bit 7 of byte 7. -/
def tmplBits (v : Ver IdxVal) : Nat :=
  let x := v.val.bits + 1 + 4 * v.tag.bits
  x + parityOf 1024 x * 2 ^ 63

def execTmplRead (c : Cmd) (s : State) : Host.Outcome State Fault Refusal :=
  runCmd 0x0718 2 2 c s fun s =>
    if c.resv [(0, 12)] [(0, 2)] [(32, 0, 64)] then fail stBadPayload s
    else if bitsAt c.arg0 0 12 = 0 then fail stOutOfRange s
    else if !s.genReadable (bitsAt c.arg1 0 2) then fail stState s
    else
      match s.idxVer s.tab.tmpl (bitsAt c.arg1 0 2) (bitsAt c.arg0 0 12) with
      | none => fail stNotFound s
      | some v =>
        if v.val.bad then fail stNotFound s
        else ok (s.emit (.hostWrite (c.fld 32 0 64) (leBytes 128 (tmplBits v)))) 0 0

/-- An error met in the editing tables (10 R311). -/
def State.edtUpset (s : State) (u : Upset) : State :=
  let entry := fun (t : IdxTable) (code : Nat) =>
    let s1 := ((t.mark u.index s).satAdd Fld.EDT_PAR_ERR_CNT_COUNT 1).fset Fld.EDT_PAR_ERR_LOC_INDEX (t.indexAt s u.index)
    let s2 := (s1.fset Fld.EDT_PAR_ERR_LOC_TABLE code).setEvent Fld.EDT_EVENT_PAR_ERR
    s2.raiseError 0x1201 (s2.reg Reg.EDT_PAR_ERR_LOC).toNat
  match u.table with
  | .encap => entry encapTable 0
  | .tmpl => entry tmplTable 1
  | .edit => entry editTable 2
  | .mirror => entry mirrorTable 3
  | _ => s

/-- Any error a read of the tables meets. -/
def State.upset (s : State) (u : Upset) : State :=
  match u.table with
  | .lpm | .nh | .ecmp | .ecmpMember => s.lpmUpset u
  | .exm => s.exmUpset u
  | .cam => s.camUpset u
  | .act | .polb | .repl | .replMember | .policer | .flow => s.actUpset u
  | .edit | .mirror | .encap | .tmpl => s.edtUpset u

end Sys2Proof.Machine
end

