-- ==== Sys2Proof/Machine/Queue.lean ====
section
/-! DEFINITION. Queues and nodes as admission and the scheduler see them (11 R326, 12 R350-R358), the port states of 04 R137,
drop counters, and the write-back of a transmit descriptor (02 R77). -/

namespace Sys2Proof.Machine

open Sys2Proof

/-! ### Ports and clients (04 R137, 05 R174) -/

/-- STATE of line port `p`. -/
def State.portState (s : State) (p : Nat) : Nat := s.fget (Fld.PRT_PORT_STATUS_STATE (p / 8) (p % 8))

/-- STATE of FlexE client `c`. -/
def State.clientState (s : State) (c : Nat) : Nat := s.fget (Fld.FXE_CLIENT_STATUS_STATE c)

/-- State of a port p, or of a client c at 128 + c. -/
def State.linkState (s : State) (k : Nat) : Nat := if k < 128 then s.portState k else s.clientState (k - 128)

/-- Whether admission drops for a link in state `st` (04 R137). -/
def State.stateBlocks (s : State) (k st : Nat) : Bool :=
  match st with
  | 0 => true
  | 2 => !s.ports.downKeep.contains k
  | _ => false

/-- The Admission column of 04 R137; UP_WAIT goes by the state before. -/
def State.linkBlocks (s : State) (k : Nat) : Bool :=
  if s.linkState k = 3 then s.stateBlocks k (Assoc.get s.ports.before 2 k) else s.stateBlocks k (s.linkState k)

/-- Whether the scheduler serves a port or client: UP, and READMIT once it is being re-enabled. -/
def State.linkServed (s : State) (k : Nat) : Bool := s.linkState k == 5 || s.linkState k == 4

/-- Adds to a 64-bit wrapping counter of a sparse table. -/
def bumpCnt (m : Assoc Nat) (k n : Nat) : Assoc Nat := Assoc.put m 0 k ((Assoc.get m 0 k + n) % 2 ^ 64)

/-- Adds to a MIB counter of a port (04 R147), or of a client at 128 + c (05). -/
def State.mibAdd (s : State) (k counter n : Nat) : State :=
  if k < 128 then
    let ev := if counter = 0 then 0x030 else if counter = 1 then 0x031 else if counter = 9 then 0x032 else if counter = 10 then 0x033 else 0
    let s1 := { s with ports := { s.ports with mib := bumpCnt s.ports.mib (256 * k + counter) n } }
    if ev = 0 then s1 else s1.pmc ev k 0 n
  else { s with ports := { s.ports with fxeCnt := bumpCnt s.ports.fxeCnt (256 * (k - 128) + counter) n } }

/-- Adds to a DLN counter (13): of a port node, or of a port at 4,096 + p. -/
def State.dlnAdd (s : State) (obj counter : Nat) : State :=
  { s with tm := { s.tm with dlnCnt := bumpCnt s.tm.dlnCnt (32 * obj + counter) 1 } }

/-! ### Lengths (13 R386) -/

/-- PKT_LEN is known: it stands in the record, or the packet's end has come. -/
def Pkt.lenKnown (p : Pkt) : Bool := p.complete || p.md.pktLen != 0

/-- PKT_LEN, or MAX_FRAME while it is not known. -/
def Pkt.len (p : Pkt) : Nat := if p.lenKnown then p.md.pktLen else p.maxFrame

/-- The charge of a packet. -/
def Pkt.charge (p : Pkt) : Nat := p.len + 32

/-! ### Queues and nodes -/

def queue0 : Queue :=
  { attached := false, desc := 0, admEn := false, profile := 0, spilled := false, epoch := 0, pkts := [], pages := []
    headRead := 0, tailClosed := false, detaching := false, deficit := 0, sTag := 0, fTag := 0, backlogged := false
    balance := 0, onSent := false, rejected := false, epochSeen := 0, granted := 0 }

def node0 : Node :=
  { attached := false, desc := 0, ptr := 0, inTurn := false, vtime := 0, deficit := 0, sTag := 0, fTag := 0
    backlogged := false }

def State.queue (s : State) (q : Nat) : Queue := Assoc.get s.tm.queues queue0 q
def State.setQueue (s : State) (q : Nat) (v : Queue) : State :=
  { s with tm := { s.tm with queues := Assoc.put s.tm.queues queue0 q v } }

/-- Key of a node of level 0 to 3. -/
def nodeKey (level i : Nat) : Nat := level * 2 ^ 18 + i

def State.node (s : State) (level i : Nat) : Node := Assoc.get s.tm.nodes node0 (nodeKey level i)
def State.setNode (s : State) (level i : Nat) (v : Node) : State :=
  { s with tm := { s.tm with nodes := Assoc.put s.tm.nodes node0 (nodeKey level i) v } }

/-! Fields of the descriptors (12 R354, R355). -/

def ndEn (d : Nat) : Bool := bitAt d 0
def ndPrecision (d : Nat) : Bool := bitAt d 1
def ndPrio (d : Nat) : Nat := bitsAt d 2 3
def ndWeight (d : Nat) : Nat := bitsAt d 5 12 + 1
def ndUnit (d : Nat) : Nat := [64, 256, 1024, 4096].getD (bitsAt d 17 2) 64
def ndParent (d : Nat) : Nat := bitsAt d 19 18
def ndClientV (d : Nat) : Bool := bitAt d 37
def ndClient (d : Nat) : Nat := bitsAt d 38 8

def qdParent (d : Nat) : Nat := bitsAt d 0 17
def qdPrio (d : Nat) : Nat := bitsAt d 17 3
def qdWeight (d : Nat) : Nat := bitsAt d 20 12 + 1
def qdClass (d : Nat) : Nat := bitsAt d 32 2
def qdShaperEn (d : Nat) : Bool := bitAt d 34
def qdShaper (d : Nat) : Nat := bitsAt d 35 18
def qdPfcEn (d : Nat) : Bool := bitAt d 53
def qdPfcPri (d : Nat) : Nat := bitsAt d 54 3
def qdTmpol (d : Nat) : Nat := bitsAt d 57 13
def qdDestDev (d : Nat) : Nat := bitsAt d 70 11
def qdDestPort (d : Nat) : Nat := bitsAt d 81 7

/-- KIND of a port node (12 R351). -/
def State.bindKind (s : State) (n : Nat) : Nat := s.fget (Fld.SCH_PORT_BIND_KIND n)
def State.bindPort (s : State) (n : Nat) : Nat := s.fget (Fld.SCH_PORT_BIND_LINE_PORT n)

/-- Whether a node of level 1–3 is attached with every ancestor, and its port node. -/
def State.nodePort (s : State) : Nat → Nat → Option Nat
  | 0, i => if i < 128 then some i else none
  | level + 1, i =>
    let nd := s.node (level + 1) i
    if nd.attached then s.nodePort level (ndParent nd.desc) else none

/-- The port node below which a queue is attached (12 R353): itself, every ancestor attached, KIND 1 or 2. -/
def State.queuePort (s : State) (q : Nat) : Option Nat :=
  let qu := s.queue q
  if qu.attached then
    match s.nodePort 3 (qdParent qu.desc) with
    | some n => if s.bindKind n = 1 ∨ s.bindKind n = 2 then some n else none
    | none => none
  else none

/-- The channel above a queue. -/
def State.queueChannel (s : State) (q : Nat) : Nat :=
  ndParent (s.node 2 (ndParent (s.node 3 (qdParent (s.queue q).desc)).desc)).desc

/-- The link a queue's packets leave by: the client of its channel at 128 + c, or the line port of its node (12 R352). -/
def State.queueLink (s : State) (q n : Nat) : Nat :=
  let ch := (s.node 1 (s.queueChannel q)).desc
  if ndClientV ch then 128 + ndClient ch else s.bindPort n

/-- blocks_admission (11 R327): a FABRIC node never blocks. -/
def State.blocksAdmission (s : State) (q n : Nat) : Bool := s.bindKind n == 1 && s.linkBlocks (s.queueLink q n)

/-- This device's fabric ID (14 R413). -/
def State.devId (s : State) : Nat := s.fget Fld.FAB_CFG_DEV_ID

/-! ### The scheduler tree (12 R350-R355). Depth 0 is a queue, depth d the nodes of level 4 - d. -/

/-- Attached children of the object at a depth, in ascending index. -/
def State.children (s : State) : Nat → Nat → List Nat
  | 0, _ => []
  | 1, i => (s.tm.queues.filter fun kv => kv.2.attached && qdParent kv.2.desc == i).map (·.1)
  | d + 2, i =>
    (s.tm.nodes.filter fun kv => kv.1 / 2 ^ 18 == 3 - d && kv.2.attached && ndParent kv.2.desc == i).map (·.1 % 2 ^ 18)

def State.childPrio (s : State) (depth i : Nat) : Nat :=
  if depth = 0 then qdPrio (s.queue i).desc else ndPrio (s.node (4 - depth) i).desc

def State.childWeight (s : State) (depth i : Nat) : Nat :=
  if depth = 0 then qdWeight (s.queue i).desc else ndWeight (s.node (4 - depth) i).desc

/-- Weighted-group state of an object in its parent (R363, R364). -/
structure Wst where
  deficit : Int
  sTag : Nat
  fTag : Nat
  backlogged : Bool
  deriving DecidableEq, Repr

def State.wst (s : State) (depth i : Nat) : Wst :=
  if depth = 0 then ⟨(s.queue i).deficit, (s.queue i).sTag, (s.queue i).fTag, (s.queue i).backlogged⟩
  else ⟨(s.node (4 - depth) i).deficit, (s.node (4 - depth) i).sTag, (s.node (4 - depth) i).fTag, (s.node (4 - depth) i).backlogged⟩

def State.setWst (s : State) (depth i : Nat) (w : Wst) : State :=
  if depth = 0 then
    s.setQueue i { s.queue i with deficit := w.deficit, sTag := w.sTag, fTag := w.fTag, backlogged := w.backlogged }
  else
    s.setNode (4 - depth) i
      { s.node (4 - depth) i with deficit := w.deficit, sTag := w.sTag, fTag := w.fTag, backlogged := w.backlogged }

/-- The parent of an object of a depth below 4. -/
def State.parentOf (s : State) (depth i : Nat) : Nat :=
  if depth = 0 then qdParent (s.queue i).desc else ndParent (s.node (4 - depth) i).desc

/-- PRECISION and quantum unit of a node; a port node has no descriptor (its unit is the part's). -/
def State.isPrecision (s : State) (depth i : Nat) : Bool := decide (depth < 4) && ndPrecision (s.node (4 - depth) i).desc
def State.quantumUnit (s : State) (depth i : Nat) : Nat :=
  if depth < 4 then ndUnit (s.node (4 - depth) i).desc else max 1 Config.portQuantumUnit

/-- A queue's head is in the Sump: a non-express one only once its last cell is written (R358, 13 R386). -/
def headReady (qu : Queue) : Bool :=
  match qu.pkts with
  | h :: _ => h.place != .cistern && (h.pkt.complete || qdClass qu.desc == 3)
  | [] => false

/-- A child is backlogged when its subtree holds a packet at the head of a queue in the Sump (R363). -/
def State.backloggedNow (s : State) : Nat → Nat → Bool
  | 0, q => headReady (s.queue q)
  | d + 1, i => (s.children (d + 1) i).any fun c => s.backloggedNow d c

/-- The later of two 48-bit serial numbers. -/
def laterTag (a b : Nat) : Nat := if (a + 2 ^ 48 - b) % 2 ^ 48 < 2 ^ 47 then a % 2 ^ 48 else b % 2 ^ 48

/-- The tags follow a change of backlog along the path of a queue (R364). -/
def rebacklog : Nat → Nat → Nat → State → State
  | 0, _, _, s => s
  | fuel + 1, depth, i, s =>
    let w := s.wst depth i
    let now := s.backloggedNow depth i
    let par := s.parentOf depth i
    let prec := s.isPrecision (depth + 1) par
    let s1 :=
      if w.backlogged = now then s
      else if now ∧ prec = true ∧ s.childPrio depth i = 4 then
        s.setWst depth i { w with backlogged := true, sTag := laterTag (s.node (3 - depth) par).vtime w.fTag }
      else s.setWst depth i { w with backlogged := now }
    if depth = 3 then s1 else rebacklog fuel (depth + 1) par s1

/-! ### Write-back of a transmit descriptor (02 R77) -/

/-- Writes bytes 24–31 of a descriptor: TX_STAMP_NS, STATUS, DONE. -/
def State.txDescDone (s : State) (ring slot stamp status : Nat) : State :=
  let base := s.pair (Reg.HIF_TXR_BASE_LO ring) (Reg.HIF_TXR_BASE_HI ring)
  s.emit (.hostWrite (base + 32 * slot + 24) (leBytes 4 stamp ++ leBytes 1 status ++ leBytes 2 0 ++ leBytes 1 0x80))

/-- A directly injected packet ends with a status. TX_STAMP_NS of one that took no egress stamp is a free value (point 4). -/
def State.directDone (s : State) (p : Pkt) (stamp : Option Nat) (status : Nat) : State :=
  match p.direct with
  | none => s
  | some (ring, slots) =>
    match stamp with
    | some x => slots.foldl (fun (t : State) slot => t.txDescDone ring slot x status) s
    | none =>
      match s.free 4 with
      | (x, s1) => slots.foldl (fun (t : State) slot => t.txDescDone ring slot (x % 2 ^ 32) status) s1

/-! ### Drops (03 R116, 11 R328, R347) -/

/-- Adds to a 64-bit counter in a LO and HI pair. -/
def State.pairAdd (s : State) (lo hi : Nat) (n : Nat) : State :=
  let v := (s.pair lo hi + n) % 2 ^ 64
  (s.setReg lo (BitVec.ofNat 32 v)).setReg hi (BitVec.ofNat 32 (v / 2 ^ 32))

/-- Counts a drop of the TM die for a reason (1 to 10), and for a port node when there is one. -/
def State.countDrop (s : State) (reason : Nat) (node : Option Nat) : State :=
  let s1 := s.pairAdd (Reg.BUF_DROP_CNT_LO (reason - 1)) (Reg.BUF_DROP_CNT_HI (reason - 1)) 1
  match node with
  | some n => ({ s1 with tm := { s1.tm with portDrops := bumpCnt s1.tm.portDrops (16 * n + reason) 1 } }).pmc 0x812 n reason 1
  | none => s1

end Sys2Proof.Machine
end

