-- ==== Sys2Proof/Machine/Cells.lean ====
section
/-! DEFINITION. Fabric cells on their way out (14 R412-R422, R427): links, the cutting of packets into cells, spraying and pinning,
and the status messages of source queues. -/

namespace Sys2Proof.Machine

open Sys2Proof

/-- Lf of a packet (14 R429). -/
def State.fabricLen (s : State) (p : Pkt) : Nat :=
  (max 0 ((p.len : Int) + signed (s.fget Fld.FAB_CFG_CREDIT_ADJ) 7)).toNat

/-- CREDIT_BYTES (14 R429). -/
def State.creditBytes (s : State) : Nat := 4096 * 2 ^ s.fget Fld.FAB_CFG_CREDIT_SIZE

/-! ### Links (R414, R418) -/

def fabLink0 : FabLink := ⟨0, 0, [], 0, 0, [], [], [], false, false, 0⟩

def State.fabLink (s : State) (l : Nat) : FabLink := Assoc.get s.tm.links fabLink0 l
def State.setFabLink (s : State) (l : Nat) (v : FabLink) : State :=
  { s with tm := { s.tm with links := Assoc.put s.tm.links fabLink0 l v } }

/-- STATE of a link: 0 OFF, 1 TRAINING, 2 UP_WAIT, 3 ACTIVE, 4 FAILED. -/
def State.fabState (s : State) (l : Nat) : Nat := s.fget (Fld.FAB_LINK_CTRL_STATE l)

/-- A link is usable for a destination while it is ACTIVE and its reachability bit is set. -/
def State.usable (s : State) (l d : Nat) : Bool := s.fabState l == 3 && (s.fabLink l).reach.contains d

/-- Links usable for a destination. -/
def State.usableLinks (s : State) (d : Nat) : List Nat := (List.range 160).filter fun l => s.usable l d

/-- The first usable link at or after `l` in ascending cyclic order. -/
def State.usableFrom (s : State) (d l : Nat) : Option Nat :=
  ((List.range 160).map fun i => (l + i) % 160).find? fun x => s.usable x d

/-- The pinned link of a destination (R420). -/
def State.pinnedLink (s : State) (d : Nat) : Option Nat := s.usableFrom d (d % 160)

/-! ### Cells (R415) -/

/-- Bytes padded with zeros to a multiple of 16. -/
def padTo16 (bs : List Byte) : List Byte := bs ++ List.replicate ((16 - bs.length % 16) % 16) 0

/-- The bytes of a data cell with its LINK_SEQ: header, payload, CRC-32. -/
def FabCell.bytes (c : FabCell) (linkSeq : Nat) : List Byte :=
  let h := 4 * b2n c.first + 8 * b2n c.last + 16 * c.level + 2 ^ 6 * c.payload.length + 2 ^ 15 * c.src + 2 ^ 26 * c.dst
    + 2 ^ 37 * c.e2e + 2 ^ 53 * linkSeq + 2 ^ 69 * b2n c.err
  let body := leBytes 12 h ++ padTo16 c.payload
  body ++ leBytes 4 (crc32 body)

/-- The packet header of R416. -/
def pktHeader (p : Pkt) : List Byte :=
  let m := p.md
  leBytes 32 (m.pktLen + 2 ^ 14 * m.destPort + 2 ^ 21 * m.tc + 2 ^ 24 * m.color + 2 ^ 26 * b2n m.remarkEn + 2 ^ 27 * m.dscp
    + 2 ^ 33 * m.flags + 2 ^ 41 * m.inPort + 2 ^ 57 * m.encap + 2 ^ 79 * m.offL3 + 2 ^ 88 * m.offL4 + 2 ^ 97 * m.offInner
    + 2 ^ 106 * m.l3Kind + 2 ^ 108 * m.ptpOp + 2 ^ 110 * m.ptpOff + 2 ^ 119 * m.session + 2 ^ 123 * m.copyKind
    + 2 ^ 125 * b2n p.ldtV + 2 ^ 126 * m.ldt)

/-- Pieces of 256 bytes; `fuel` bounds them. -/
def cellPieces : Nat → List Byte → List (List Byte)
  | 0, _ => []
  | fuel + 1, bs => if bs.isEmpty then [] else bs.take 256 :: cellPieces fuel (bs.drop 256)

/-- The cells of a packet from an end-to-end number on; an error mark stands in the last. -/
def makeCells (src level : Nat) (p : Pkt) : Nat → Bool → List (List Byte) → List FabCell
  | _, _, [] => []
  | e2e, first, pl :: rest =>
    ⟨level, src, p.md.destDev, e2e % 65536, p.md.express, first, rest.isEmpty, (p.errored || p.poison) && rest.isEmpty, pl, p.id, none⟩
      :: makeCells src level p (e2e + 1) false rest

/-! ### Sending (R417, R420, R421) -/

/-- Sends a cell on a link: it takes the next LINK_SEQ and a replay entry. -/
def State.sendOn (s : State) (l : Nat) (c : FabCell) : State :=
  let k := s.fabLink l
  let s1 := s.setFabLink l { k with txSeq := (k.txSeq + 1) % 65536, replay := k.replay ++ [(k.txSeq, c)] }
  match c.msg with
  | some o => s1.emit o
  | none =>
    let s2 := if c.express then s1 else { s1 with tm := { s1.tm with spray := Assoc.put s1.tm.spray 0 c.dst (l + 1) } }
    (s2.emit (.fabCell l k.txSeq (c.bytes k.txSeq))).pmc 0x830 l c.level 1

/-- The link a cell takes: express cells and messages the pinned one, others the next after the last used. -/
def State.cellLink (s : State) (c : FabCell) : Option Nat :=
  if c.express || c.msg.isSome then s.pinnedLink c.dst else s.usableFrom c.dst (Assoc.get s.tm.spray 0 c.dst % 160)

/-- Cells of one order: a reorder context, or the messages to a device. -/
def FabCell.context (c : FabCell) : Nat := if c.msg.isSome then 8192 + c.dst else 2 * c.dst + b2n c.express

/-- Sends what can be sent of the waiting cells; a cell that waits holds back the later ones of its order. A full replay
buffer is counted. -/
def sendWaiting : List FabCell → List Nat → State → State × List FabCell
  | [], _, s => (s, [])
  | c :: cs, blocked, s =>
    if blocked.contains c.context then
      match sendWaiting cs blocked s with | (t, w) => (t, c :: w)
    else
      match s.cellLink c with
      | none => match sendWaiting cs (c.context :: blocked) s with | (t, w) => (t, c :: w)
      | some l =>
        if 16384 ≤ (s.fabLink l).replay.length then
          match sendWaiting cs (c.context :: blocked) (s.satAdd (Fld.FAB_LINK_REPLAY_FULL l) 1) with | (t, w) => (t, c :: w)
        else sendWaiting cs blocked (s.sendOn l c)

def State.drainCells (s : State) : State :=
  match sendWaiting s.tm.cellWait [] s with
  | (t, w) => { t with tm := { t.tm with cellWait := w } }

/-- A cell joins those that wait. -/
def State.queueCell (s : State) (c : FabCell) : State := { s with tm := { s.tm with cellWait := s.tm.cellWait ++ [c] } }

/-- Cuts one released packet into cells; its last cell handed over, the drain counter falls (03 R116). -/
def State.cutPacket (s : State) (x : QPkt) : State :=
  let p := x.pkt
  let key := 2 * p.md.destDev + b2n p.md.express
  let e2e := Assoc.get s.tm.e2e 0 key
  let level := if p.md.express then 1 else if qdClass (s.queue p.md.queue).desc = 2 ∨ p.direct.isSome = true then 2 else 3
  let body := pktHeader p ++ p.bytes
  let cells := makeCells s.devId level p e2e true (cellPieces (body.length / 256 + 1) body)
  let s1 := { s with tm := { s.tm with e2e := Assoc.put s.tm.e2e 0 key ((e2e + cells.length) % 65536)
                                       cellWait := s.tm.cellWait ++ cells } }
  (s1.drainDec p.md.gen).directDone p none 0

/-- Cuts the released packets whose end has come, in release order within a reorder context. -/
def cutReady : List QPkt → List Nat → State → State × List QPkt
  | [], _, s => (s, [])
  | x :: xs, blocked, s =>
    let key := 2 * x.pkt.md.destDev + b2n x.pkt.md.express
    if x.pkt.complete ∧ blocked.contains key = false then cutReady xs blocked (s.cutPacket x)
    else match cutReady xs (key :: blocked) s with | (t, w) => (t, x :: w)

/-- Cuts and sends all that can be cut and sent. -/
def State.pump (s : State) : State :=
  match cutReady s.tm.cutQ [] s with
  | (t, w) => ({ t with tm := { t.tm with cutQ := w } }).drainCells

/-! ### Status messages of source queues (R427) -/

/-- The message of a source queue. -/
def State.statusMsg (s : State) (q : Nat) (on : Bool) : State :=
  let qu := s.queue q
  let tc := match qu.pkts with | h :: _ => h.pkt.md.tc | [] => 0
  let d := qu.desc
  let o : Out := .creditStatus (qdDestDev d) (qdDestPort d) q tc (min (qdWeight d) 64) on
  (s.queueCell ⟨0, s.devId, qdDestDev d, 0, false, false, false, false, [], 0, some o⟩).drainCells

/-- Sends ON when the queue holds a packet and less than one credit, OFF when it has become empty. A queue toward an unreachable
device sends no request (R422). -/
def State.creditCheck (s : State) (q : Nat) : State :=
  let qu := s.queue q
  match s.queuePort q with
  | none => s
  | some n =>
    if s.bindKind n ≠ 2 ∨ qdClass qu.desc = 3 ∨ qdDestDev qu.desc = s.devId then s
    else if qu.pkts = [] then
      if qu.onSent then (s.setQueue q { qu with onSent := false, rejected := false }).statusMsg q false else s
    else if qu.balance < s.creditBytes ∧ qu.onSent = false ∧ s.tm.reachable.contains (qdDestDev qu.desc) = true then
      (s.setQueue q { qu with onSent := true }).statusMsg q true
    else s

end Sys2Proof.Machine
end

