-- ==== Sys2Proof/Machine/Buf.lean ====
section
/-! DEFINITION. Packet buffering (11 R317-R349): Sump, Cistern, admission, PFC, flushes, fence regions and the buffer commands. -/

namespace Sys2Proof.Machine

open Sys2Proof

/-! ### Sump (R317, R318) -/

/-- Cells of a charge: ⌈c / 256⌉. -/
def cellsOf (charge : Nat) : Nat := (charge + 255) / 256

/-- Cells in use of a place: of queued packets, released ones, and those kept for unacknowledged fabric cells. -/
def State.cellsUsed (s : State) (w : Where) : Nat :=
  let one := fun (n : Nat) (q : QPkt) => if q.place = w then n + cellsOf q.charge else n
  let queued := s.tm.queues.foldl (fun n kv => kv.2.pkts.foldl one n) 0
  s.tm.kept.foldl (fun n k => if k.2.1 = w then n + k.2.2 else n) (s.tm.leaving.foldl one queued)

/-- Size of the shared partition: all cells that the other two do not take. -/
def State.sharedSize (s : State) : Nat :=
  1048576 - s.fget Fld.BUF_SUMP_CFG_EXP_RESERVE - s.fget Fld.BUF_REFILL_CFG_POOL_CELLS

def State.sharedFree (s : State) : Nat := s.sharedSize - s.cellsUsed .shared
def State.expFree (s : State) : Nat := s.fget Fld.BUF_SUMP_CFG_EXP_RESERVE - s.cellsUsed .expressReserve
def State.refillFree (s : State) : Nat := s.fget Fld.BUF_REFILL_CFG_POOL_CELLS - s.cellsUsed .refill

/-- BUF_SUMP_PEAK follows the highest shared use. -/
def State.notePeak (s : State) : State :=
  s.fset Fld.BUF_SUMP_PEAK_SHARED_USED (max (s.fget Fld.BUF_SUMP_PEAK_SHARED_USED) (s.cellsUsed .shared))

/-! ### Cistern pages (R319, R321) -/

def regActive : Nat := 0
def regFencing : Nat := 1
def regParked : Nat := 2
def regWaking : Nat := 3
def regOut : Nat := 4

def region0 : Region := ⟨regActive, false, 0, [], 0, false⟩

def State.region (s : State) (r : Nat) : Region := Assoc.get s.tm.regions region0 r
def State.setRegion (s : State) (r : Nat) (v : Region) : State :=
  { s with tm := { s.tm with regions := Assoc.put s.tm.regions region0 r v } }

/-- Free pages of a region. -/
def Region.pages (r : Region) : Nat := r.free.length + (786432 - r.bump)

/-- Region r of stack s has the number 8 s + r; the rotation takes region 0 of every stack, then region 1 of every stack. -/
def rotationRegion (k : Nat) : Nat := 8 * (k % 6) + k / 6

/-- The region of a page index. -/
def pageRegion (page : Nat) : Nat := page / 786432

/-- Free pages in ACTIVE regions. -/
def State.activePages (s : State) : Nat :=
  (List.range 48).foldl (fun n r => if (s.region r).state = regActive then n + (s.region r).pages else n) 0

/-- Allocates the next page of the rotation (R321): from the region's list, else from its bump pointer. -/
def State.allocPage (s : State) : Option (Nat × State) :=
  let order := (List.range 48).map fun i => (s.tm.rotation + i) % 48
  match order.find? fun k => (s.region (rotationRegion k)).state == regActive && (s.region (rotationRegion k)).pages != 0 with
  | none => none
  | some k =>
    let r := rotationRegion k
    let rg := s.region r
    let s1 := { s with tm := { s.tm with rotation := (k + 1) % 48 } }
    match rg.free with
    | p :: ps => some (p, s1.setRegion r { rg with free := ps, used := rg.used + 1 })
    | [] =>
      some (r * 786432 + rg.bump, (s1.setRegion r { rg with bump := rg.bump + 1, used := rg.used + 1 }).hbtInit (r * 786432 + rg.bump))

/-- The activate tables of a region's banks are cleared (17 R513). -/
def State.clearBanks (s : State) (r : Nat) : State :=
  { s with hbm := { s.hbm with act := s.hbm.act.filter fun (kv : Nat × List (Nat × Nat)) =>
      !(kv.1 / 1024 == 8 + r / 8 && kv.1 % 16 / 2 == r % 8) } }

/-- A fencing region with no page in use parks; a stack leaving by plan goes OUT when all its regions are parked (R341, R344). -/
def State.tryPark (s : State) (r : Nat) : State :=
  let rg := s.region r
  if rg.state = regFencing ∧ rg.used = 0 then
    let s1 := ((s.setRegion r { rg with state := regParked, bump := 0, free := [] }).clearBanks r).setEvent Fld.BUF_EVENT_PARKED
    let stack := (List.range 8).map fun i => 8 * (r / 8) + i
    if stack.all fun x => (s1.region x).leaving && (s1.region x).state == regParked then
      ((stack.foldl (fun t x => t.setRegion x { t.region x with state := regOut, leaving := false }) s1).fset
        (Fld.HBT_STACK_STATUS_STATE (r / 8)) 3).fset (Fld.HBT_STACK_STATUS_TRAINED (r / 8)) 0
    else s1
  else s

/-- Frees a page to its own region's list (R321). -/
def State.freePage (s : State) (page : Nat) : State :=
  let r := pageRegion page
  let rg := s.region r
  if rg.state = regOut then s
  else (s.setRegion r { rg with free := page :: rg.free, used := rg.used - 1 }).tryPark r

/-- Room in the tail page of a queue. -/
def tailRoom (q : Queue) : Nat :=
  if q.tailClosed then 0 else match q.pages.getLast? with | some p => 4080 - p.fill | none => 0

/-- cistern_room(c) (R327). -/
def State.cisternRoom (s : State) (q : Queue) (c : Nat) : Bool :=
  decide (c ≤ tailRoom q) || decide (ceilDiv (c - tailRoom q) 4080 ≤ s.activePages)

/-- Writes bytes into the last page of a list, answering what did not fit. -/
def fillTail (n : Nat) : List Page → List Page × Nat
  | [] => ([], n)
  | [p] => ([⟨p.index, p.fill + min n (4080 - p.fill)⟩], n - (4080 - p.fill))
  | p :: ps => match fillTail n ps with | (qs, m) => (p :: qs, m)

/-- Appends pages for `n` bytes; `fuel` bounds the pages. -/
def appendPages : Nat → Nat → List Page → State → List Page × State
  | 0, _, ps, s => (ps, s)
  | fuel + 1, n, ps, s =>
    if n = 0 then (ps, s)
    else
      match s.allocPage with
      | none => (ps, s)
      | some (pg, s') => appendPages fuel (n - min n 4080) (ps ++ [⟨pg, min n 4080⟩]) s'

/-- Writes a packet's charge to the tail of a queue's segment. -/
def State.writeSegment (s : State) (q : Nat) (c : Nat) : State :=
  let qu := s.queue q
  match (if qu.tailClosed then (qu.pages, c) else fillTail c qu.pages) with
  | (ps, rest) =>
    let s0 := match qu.pages.getLast?, ps.getLast? with
      | some a, some b => s.hbtWrite a.index a.fill b.fill
      | _, _ => s
    match appendPages (ceilDiv rest 4080) rest ps s0 with
    | (ps', s') =>
      let fresh := (ps'.drop ps.length).foldl (fun (t : State) p => t.hbtWrite p.index 0 p.fill) s'
      fresh.setQueue q { qu with pages := ps', tailClosed := if rest = 0 then qu.tailClosed else false }

/-- Reads bytes from the head of a segment: pages whose last byte has been read are freed. Answers pages, offset, freed. -/
def readPages (n : Nat) : List Page → Nat → List Page × Nat × List Nat
  | [], off => ([], off, [])
  | p :: ps, off =>
    if off + n < p.fill ∨ (ps = [] ∧ p.fill < 4080 ∧ off + n = p.fill) then (p :: ps, off + n, [])
    else match readPages (n - (p.fill - off)) ps 0 with | (a, b, c) => (a, b, p.index :: c)

/-! ### Charges (R326, R327) -/

/-- Sums charges over queued and released packets that satisfy a test. -/
def State.sumCharges (s : State) (f : QPkt → Bool) : Nat :=
  let one := fun (n : Nat) (q : QPkt) => if f q then n + q.charge else n
  s.tm.leaving.foldl one (s.tm.queues.foldl (fun n kv => kv.2.pkts.foldl one n) 0)

def State.qb (s : State) (q : Nat) : Nat := s.sumCharges fun x => x.pkt.md.queue == q
def State.pcb (s : State) (n k : Nat) : Nat := s.sumCharges fun x => x.node == n && x.pkt.md.tc == k
def State.pb (s : State) (n : Nat) : Nat := s.sumCharges fun x => x.node == n
def State.cb (s : State) (k : Nat) : Nat := s.sumCharges fun x => x.pkt.md.tc == k
def State.account (s : State) (p k : Nat) : Nat := s.sumCharges fun x => x.acct == some p && x.pkt.md.tc == k

/-- Bytes of a queue charged to the Sump. -/
def State.qsump (s : State) (q : Nat) : Nat := s.sumCharges fun x => x.pkt.md.queue == q && x.place != .cistern

/-- The limits at reset (R331). -/
def limitReset : Nat := 0x0FFFFFFF

/-! ### PFC (R332, R333) -/

/-- A PFC frame from its type on: opcode 0x0101, the priorities, their quanta. -/
def pfcFrame (prios quanta : Nat) : List Byte :=
  beBytes 2 0x8808 ++ beBytes 2 0x0101 ++ beBytes 2 prios
    ++ (List.range 8).flatMap fun k => beBytes 2 (if bitAt prios k then quanta else 0)

/-- XOFF bits of a port: one per priority. -/
def fldXoff (p : Nat) : Fld := ⟨Reg.BUF_PFC_XOFF (p / 4), 8 * (p % 4), 8⟩

/-- Sends a PAUSE or PFC frame of a port; it is counted. -/
def State.sendControl (s : State) (p : Nat) (frame : List Byte) : State :=
  (s.mibAdd p 12 1).emit (.macControl p frame)

/-- The port acts on its ingress account of a class after a change (R333). -/
def State.pfcUpdate (s : State) (p k : Nat) : State :=
  if !bitAt (s.fget (Fld.PRT_PORT_MAC_PFC_TX_EN (p / 8) (p % 8))) k then s
  else
    match Assoc.get s.tm.pfcLimit (limitReset, limitReset - 1) (8 * p + k) with
    | (xoff, xon) =>
      let a := s.account p k
      let bits := s.fget (fldXoff p)
      if !bitAt bits k && decide (xoff * 1024 ≤ a) then
        (s.fset (fldXoff p) (bits + 2 ^ k)).sendControl p (pfcFrame (2 ^ k) 0xFFFF)
      else if bitAt bits k && decide (a ≤ xon * 1024) then
        (s.fset (fldXoff p) (bits - 2 ^ k)).sendControl p (pfcFrame (2 ^ k) 0)
      else s

/-- The account of a packet has changed. -/
def State.acctChanged (s : State) (q : QPkt) : State :=
  match q.acct with
  | some p => s.pfcUpdate p q.pkt.md.tc
  | none => s

/-- XOFF is repeated every REFRESH_US while the account stays at XON_KB or more. -/
def execPfcRefresh (port : Nat) (s : State) : Host.Outcome State Fault Refusal :=
  let due := (List.range 8).filter fun k =>
    bitAt (s.fget (fldXoff port)) k
      && decide ((Assoc.get s.tm.pfcLimit (limitReset, limitReset - 1) (8 * port + k)).2 * 1024 ≤ s.account port k)
  if due.isEmpty then .next s
  else .next (s.sendControl port (pfcFrame (due.foldl (fun n k => n + 2 ^ k) 0) 0xFFFF))

/-! ### Admission (R326-R328) -/

def profile0 : AdmProfile := ⟨limitReset, limitReset, limitReset, 0, limitReset, limitReset⟩

def AdmProfile.limit (p : AdmProfile) (color : Nat) : Nat :=
  if color = 0 then p.limitG else if color = 1 then p.limitY else p.limitR


/-- What admission decides. -/
inductive Decision where
  | drop (reason : Nat) (node : Option Nat)
  | accept (node : Nat) (place : Where)
  deriving DecidableEq, Repr

/-- decide(pkt) of R327. -/
def State.admission (s : State) (p : Pkt) : Decision :=
  let c := p.charge
  let q := p.md.queue
  let k := p.md.tc
  let qu := s.queue q
  match (if qu.admEn && !qu.detaching then s.queuePort q else none) with
  | none => .drop 1 none
  | some n =>
    let pr := Assoc.get s.tm.profiles profile0 qu.profile
    let exceeds := fun (m : Assoc Nat) (key held : Nat) => decide (Assoc.get m limitReset key * 1024 < held + c)
    let qb := s.qb q
    let cells := cellsOf c
    if s.blocksAdmission q n then .drop 2 (some n)
    else if pr.limit p.md.color * 1024 < qb + c then .drop 3 (some n)
    else if pr.min * 1024 < qb + c ∧ exceeds s.tm.limitPc (8 * n + k) (s.pcb n k) = true then .drop 4 (some n)
    else if pr.min * 1024 < qb + c ∧ exceeds s.tm.limitP n (s.pb n) = true then .drop 5 (some n)
    else if pr.min * 1024 < qb + c ∧ exceeds s.tm.limitC k (s.cb k) = true then .drop 6 (some n)
    else if p.md.express then
      if cells ≤ s.sharedFree then .accept n .shared
      else if cells ≤ s.expFree then .accept n .expressReserve
      else .drop 7 (some n)
    else if qu.spilled then (if s.cisternRoom qu c then .accept n .cistern else .drop 8 (some n))
    else
      let want := decide (pr.spill * 1024 < s.qsump q + c)
        || (decide (s.sharedFree < s.fget Fld.BUF_SPILL_CFG_SUMP_SPILL_FREE) && decide (pr.spillMin * 1024 ≤ qb))
      if want ∧ s.cisternRoom qu c = true then .accept n .cistern
      else if cells ≤ s.sharedFree then .accept n .shared
      else if s.cisternRoom qu c then .accept n .cistern
      else .drop 7 (some n)

/-- The state of a TM-side policer cannot be corrected: both buckets are full from now on (12 R376). -/
def State.tmpolEcc (s : State) (i : Nat) : State :=
  if i = 0 then s
  else
    let q0 := Assoc.get s.tm.tmpol policer0 i
    let q := { q0 with tc := q0.cbs * 1000000000, tx := q0.xbs * 1000000000, last := s.nowNs % 2 ^ 64 }
    let s1 := { s with tm := { s.tm with tmpol := Assoc.put s.tm.tmpol policer0 i q } }
    ((s1.satAdd Fld.POL_TM_ECC_CNT_COUNT 1).setEvent Fld.POL_TM_EVENT_ECC).raiseError 0x1701 i

/-- The TM-side policer of a queue meters a packet before the decision (12 R375). -/
def State.tmMeter (s : State) (p : Pkt) : State × Pkt :=
  let i := qdTmpol (s.queue p.md.queue).desc
  if i = 0 ∨ s.fbit Fld.POL_TM_CFG_EN = false then (s, p)
  else
    let q := Assoc.get s.tm.tmpol policer0 i
    let input := if s.tm.tmpolAware.contains i then colourOf p.md.color else Colour.green
    if !q.en then (s, { p with md := { p.md with color := if s.tm.tmpolAware.contains i then p.md.color else 0 } })
    else
      match q.police (s.nowNs % 2 ^ 64) (countedLen p.len q.lenAdj) input with
      | (q', col) =>
        ({ s with tm := { s.tm with tmpol := Assoc.put s.tm.tmpol policer0 i q' } },
          { p with md := { p.md with color := col.code } })

/-- A packet dropped after admission: its drain counter falls, its account changes. -/
def State.dropped (s : State) (qp : QPkt) : State := ((s.drainDec qp.pkt.md.gen).acctChanged qp).directDone qp.pkt none 2

/-- Heads that must be dropped are dropped: an uncorrectable error (11 R335), an error mark that reached the Sump (13 R388). -/
def dropHeads : Nat → Nat → State → State
  | 0, _, s => s
  | fuel + 1, q, s =>
    let qu := s.queue q
    match qu.pkts with
    | [] => s
    | h :: rest =>
      if h.place = .cistern then s
      else if h.bad then
        dropHeads fuel q (((s.setQueue q { qu with pkts := rest }).satAdd Fld.BUF_UE_DROP_CNT_COUNT 1).dropped h)
      else if h.pkt.errored then
        dropHeads fuel q (((s.setQueue q { qu with pkts := rest }).dlnAdd h.node 6).dropped h)
      else s

/-- After any change of a queue's head: heads to drop are dropped, the tags follow. -/
def State.settleQueue (s : State) (q : Nat) : State :=
  let s1 := dropHeads (s.queue q).pkts.length q s
  if (s1.queue q).attached then (rebacklog 4 0 q s1).creditCheck q else s1

/-- A drop of R327 (R328): counted, the drain counter decreased, a port's or client's DOWN_ADMIT_DROP for reason 2, STATUS 1 in a
direct injection's descriptor. -/
def State.admissionDrop (s : State) (p : Pkt) (reason : Nat) (node : Option Nat) : State :=
  let s1 := (s.countDrop reason node).drainDec p.md.gen
  let s2 := match reason, node with
    | 2, some n =>
      let k := s1.queueLink p.md.queue n
      s1.mibAdd k (if k < 128 then 18 else 13) 1
    | _, _ => s1
  s2.directDone p none 1

/-- Admits or drops one packet. -/
def State.admitPkt (s0 : State) (ecc : Bool) (p0 : Pkt) : State :=
  match (if ecc then s0.tmpolEcc (qdTmpol (s0.queue p0.md.queue).desc) else s0).tmMeter p0 with
  | (s, p) =>
    match s.admission p with
    | .drop reason node => s.admissionDrop p reason node
    | .accept n place =>
      let acct := if !p.fromFabric ∧ p.md.pass = 0 ∧ p.md.inPort < 128 ∧ bitAt p.md.inClient 8 = false
          ∧ bitAt p.md.flags 3 = false ∧ p.direct.isNone ∧ p.md.copyKind = 0 then some p.md.inPort else none
      let qp : QPkt := ⟨p, p.charge, n, acct, place, false⟩
      let s0 := (s.pmc 0x810 n 0 1).pmc 0x811 n 0 p.charge
      let s1 := if place = .cistern then s0.writeSegment p.md.queue p.charge else s0
      let qu := s1.queue p.md.queue
      let s2 := s1.setQueue p.md.queue { qu with pkts := qu.pkts ++ [qp], spilled := qu.spilled || place == .cistern }
      (s2.notePeak.acctChanged qp).settleQueue p.md.queue

/-! ### Refill (R324, R325) -/

/-- The first part of a queue's packets that lies in the Sump, and its segment. -/
def sumpPart (ps : List QPkt) : List QPkt := ps.filter (·.place != .cistern)
def segPart (ps : List QPkt) : List QPkt := ps.filter (·.place == .cistern)

def sumpBytes (ps : List QPkt) : Nat := (sumpPart ps).foldl (fun n q => n + q.charge) 0

/-- REFILL_KB: 0 reads back as 1. -/
def State.refillKb (s : State) : Nat := max 1 (s.fget Fld.BUF_REFILL_CFG_REFILL_KB)

/-- A SPILLED queue short of Sump bytes starts reading its segment; with the refill pool full it waits, and that is counted. -/
def execRefillStart (q : Nat) (s : State) : Host.Outcome State Fault Refusal :=
  let qu := s.queue q
  match segPart qu.pkts with
  | [] => .next s
  | h :: _ =>
    if !qu.spilled ∨ s.tm.refilling.contains q ∨ s.refillKb * 512 ≤ sumpBytes qu.pkts then .next s
    else if s.refillFree < cellsOf h.charge then .next (s.satAdd Fld.BUF_REFILL_WAIT_CNT_COUNT 1)
    else .next (({ s with tm := { s.tm with refilling := s.tm.refilling ++ [q] } }).pmc 0x815 0 0 1)

/-- The units of a chain's pages that hold the next `n` bytes: page index, first and last unit. -/
def unitRanges (n : Nat) : List Page → Nat → List (Nat × Nat × Nat)
  | [], _ => []
  | p :: ps, off =>
    let m := min n (p.fill - off)
    if m = 0 then (if n = 0 then [] else unitRanges n ps 0)
    else (p.index, unitOf off, unitOf (off + m - 1)) :: (if n ≤ m then [] else unitRanges (n - m) ps 0)

/-- Whether a unit range holds poison. -/
def State.poisoned (s : State) (r : Nat × Nat × Nat) : Bool :=
  s.hbm.poison.any fun u => decide (hbtUnit r.1 r.2.1 ≤ u) && decide (u ≤ hbtUnit r.1 r.2.2)

/-- A refill read meets an uncorrectable error: the units that hold poison show it again; a new error is in a free unit (point 5). -/
def State.refillUe (s : State) (ranges : List (Nat × Nat × Nat)) (bad : Bool) : State :=
  let known := ranges.filter s.poisoned
  match known, ranges with
  | (g, lo, hi) :: _, _ =>
    let k := ((List.range (hi + 1 - lo)).find? fun i => s.hbm.poison.contains (hbtUnit g (lo + i))).getD 0
    s.hbmUe (hbtLoc g (lo + k)) (hbtUnit g (lo + k)) 1 true false
  | [], (g, lo, hi) :: rs =>
    if bad then
      match s.free 5 with
      | (x, s1) =>
        let r := ((g, lo, hi) :: rs).getD (x % (rs.length + 1)) (g, lo, hi)
        let k := r.2.1 + x / (rs.length + 1) % (r.2.2 + 1 - r.2.1)
        s1.hbmUe (hbtLoc r.1 k) (hbtUnit r.1 k) 1 false false
    else s
  | [], [] => s

/-- Moves the head of a segment into the refill pool; `bad` says its read met a new uncorrectable error. -/
def State.refillOne (s : State) (q : Nat) (bad : Bool) : State :=
  let qu := s.queue q
  match segPart qu.pkts with
  | [] => s
  | h :: _ =>
    let ranges := unitRanges h.charge qu.pages qu.headRead
    let hit := bad || ranges.any s.poisoned
    match readPages h.charge qu.pages qu.headRead with
    | (ps, off, freed) =>
      let pkts := updateFirst (fun x => x.place == Where.cistern)
        (fun x => { x with place := .refill, bad := x.bad || hit }) qu.pkts
      let s1 := ranges.foldl (fun (t : State) r => t.hbtUnits 1 r.1 r.2.1 r.2.2) s
      let s2 := (s1.refillUe ranges bad).setQueue q { qu with pkts := pkts, pages := ps, headRead := off }
      let s3 := if hit then (s2.setEvent Fld.BUF_EVENT_CIST_UE).raiseError 0x1502 q else s2
      freed.foldl State.freePage s3

/-- Reads whole packets until the queue holds REFILL_KB in the Sump, the segment is empty or the pool is full. -/
def refillRun : Nat → Nat → List Bool → State → State
  | 0, _, _, s => s
  | fuel + 1, q, bad, s =>
    match segPart (s.queue q).pkts with
    | [] => s
    | h :: _ =>
      if s.refillKb * 1024 ≤ sumpBytes (s.queue q).pkts then s
      else if s.refillFree < cellsOf h.charge then s.satAdd Fld.BUF_REFILL_WAIT_CNT_COUNT 1
      else refillRun fuel q bad.tail (s.refillOne q (bad.headD false))

/-- A queue whose segment is empty with no refill outstanding returns to ONCHIP (R325); its last pages are freed. -/
def State.tryOnchip (s : State) (q : Nat) : State :=
  let qu := s.queue q
  if qu.spilled ∧ segPart qu.pkts = [] ∧ s.tm.refilling.contains q = false then
    (qu.pages.map (·.index)).foldl State.freePage (s.setQueue q { qu with spilled := false, pages := [], headRead := 0, tailClosed := false })
  else s

/-! ### Removing packets (R335-R337) -/

/-- Removes a queued packet by id: charges and cells go with it. -/
def State.takeQueued (s : State) (q id : Nat) : State :=
  let qu := s.queue q
  s.setQueue q { qu with pkts := qu.pkts.filter (·.pkt.id != id) }

/-- The segment of a queue is lost (R336, R345): its packets dropped for reason 10, epoch raised, queue ONCHIP. Answers its pages. -/
def State.loseSegment (s : State) (q : Nat) : State × List Nat :=
  let qu := s.queue q
  let lost := segPart qu.pkts
  let s1 := s.setQueue q { qu with pkts := sumpPart qu.pkts, pages := [], headRead := 0, tailClosed := false, spilled := false
                                   epoch := (qu.epoch + 1) % 256 }
  let s2 := { s1 with tm := { s1.tm with refilling := s1.tm.refilling.filter (· != q) } }
  ((lost.foldl (fun t x => (t.countDrop 10 (some x.node)).dropped x) s2).settleQueue q, qu.pages.map (·.index))

/-- An uncorrectable error in the header of page number `i` of a queue's chain (R336): earlier pages are freed by the walk,
later ones wait for the sweep. -/
def State.segmentLost (s : State) (q i : Nat) : State :=
  match s.loseSegment q with
  | (s1, pages) =>
    let s2 := (pages.take i).foldl State.freePage s1
    let s3 := { s2 with tm := { s2.tm with scavenge := s2.tm.scavenge ++ pages.drop i } }
    ((s3.fset Fld.BUF_SCAVENGE_PAGES s3.tm.scavenge.length).setEvent Fld.BUF_EVENT_SEGMENT_LOST).raiseError 0x1503 q

/-- A failed TM stack (R345): every segment is lost, its regions go OUT, the others start empty. -/
def State.stackLost (s : State) (stack : Nat) : State :=
  let s1 := (s.tm.queues.map (·.1)).foldl (fun t q => if (t.queue q).spilled then (t.loseSegment q).1 else t) s
  let reset := fun (t : State) r =>
    let rg := t.region r
    t.setRegion r (if r / 8 = stack then { rg with state := regOut, bump := 0, free := [], used := 0, leaving := false }
      else { rg with bump := 0, free := [], used := 0 })
  let s2 := (List.range 48).foldl reset s1
  let s3 := { s2 with tm := { s2.tm with scavenge := [] } }
  let s4 := ((s3.fset Fld.BUF_SCAVENGE_PAGES 0).setEvent Fld.BUF_EVENT_STACK_LOST).raiseError 0x1505 stack
  (List.range 48).foldl State.tryPark s4

/-- TM stacks whose uncorrectable errors have reached UE_FAIL fail (17 R512). -/
def State.hbtFail (s : State) (k : Nat) : State :=
  (((s.fset (Fld.HBT_STACK_STATUS_STATE k) 4).setEvent Fld.HBT_EVENT_STACK_FAIL).raiseError 0x1A02 k).stackLost k

def State.settleStacks (s : State) : State :=
  (List.range 6).foldl (fun (t : State) k => if t.ueFails 1 k then t.hbtFail k else t) s

/-- A refill read completes; `bad` says of each packet read whether its data met a new uncorrectable error (R335). -/
def execRefillReadDone (q : Nat) (bad : List Bool) (s : State) : Host.Outcome State Fault Refusal :=
  if s.tm.refilling.contains q then
    let s1 := { s with tm := { s.tm with refilling := s.tm.refilling.filter (· != q) } }
    .next (((refillRun (segPart (s1.queue q).pkts).length q bad s1).tryOnchip q).settleQueue q).settleStacks
  else .next s

/-- The sweep of allocated headers: page headers that show an uncorrectable error lose their segments, then every page of an
old epoch is freed (R336). The error itself is recorded with its unit, unit 0 of the page (17 R509). -/
def execHeaderSweep (lost : List (Nat × Nat)) (s : State) : Host.Outcome State Fault Refusal :=
  let lose := fun (t : State) (qi : Nat × Nat) =>
    match (t.queue qi.1).pages[qi.2]? with
    | some p =>
      let u := hbtUnit p.index 0
      (t.hbmUe (hbtLoc p.index 0) u 2 (t.hbm.poison.contains u) false).segmentLost qi.1 qi.2
    | none => t
  let s1 := lost.foldl lose s
  let s2 := s1.tm.scavenge.foldl State.freePage s1
  .next ((({ s2 with tm := { s2.tm with scavenge := [] } }).fset Fld.BUF_SCAVENGE_PAGES 0).settleStacks)

/-! ### Flushes (R337, R338) -/

/-- Starts a flush of queues: every packet admitted before it is dropped for reason 9; pages of the segments are left to the
chain walk. Answers the packets dropped and the pages. -/
def State.flushQueue (s : State) (q : Nat) : State × Nat × List Nat :=
  let qu := s.queue q
  let s1 := s.setQueue q { qu with pkts := [], pages := [], headRead := 0, tailClosed := false, spilled := false }
  let s2 := { s1 with tm := { s1.tm with refilling := s1.tm.refilling.filter (· != q) } }
  let count := fun (t : State) (x : QPkt) =>
    let k := t.queueLink q x.node
    let t1 := if t.bindKind x.node = 1 ∧ s.tm.flushes.any (fun f => match f.owner with | .port p => p == k | _ => false) = true
      then t.mibAdd k (if k < 128 then 17 else 12) 1 else t
    (t1.countDrop 9 (some x.node)).dropped x
  ((qu.pkts.foldl count s2).settleQueue q, qu.pkts.length, qu.pages.map (·.index))

/-- Flushes a list of queues for an owner. -/
def State.startFlush (s : State) (owner : FlushOwner) (qs : List Nat) : State :=
  let s0 := { s with tm := { s.tm with flushes := s.tm.flushes ++ [⟨owner, 0, []⟩] } }
  let acc := qs.foldl (fun (a : State × Nat × List Nat) q =>
    match a.1.flushQueue q with | (t, n, ps) => (t, a.2.1 + n, a.2.2 ++ ps)) (s0, 0, [])
  { acc.1 with tm := { acc.1.tm with flushes := acc.1.tm.flushes.dropLast ++ [⟨owner, acc.2.1, acc.2.2⟩] } }

/-- The queues attached below a line port's node or a client's channel (12 R352). -/
def State.linkQueues (s : State) (k : Nat) : List Nat :=
  (s.tm.queues.map (·.1)).filter fun q =>
    match s.queuePort q with
    | some n => s.bindKind n == 1 && s.queueLink q n == k
    | none => false

/-- A queue range of R348: FIRST, COUNT. -/
def rangeOk (first count : Nat) : Bool := decide (1 ≤ count) && decide (first + count ≤ 1048576)

def queueFields : List (Nat × Nat) := [(0, 20), (32, 21)]

def execBufFlush (c : Cmd) (s : State) : Host.Outcome State Fault Refusal :=
  runCmd 0x0806 1 1 c s fun s =>
    let first := bitsAt c.arg0 0 20
    let count := bitsAt c.arg0 32 21
    let byPort := bitAt c.arg1 7
    if c.resv queueFields [(0, 8)] [] then fail stBadPayload s
    else if !byPort && !rangeOk first count then fail stOutOfRange s
    else
      let held := s.tm.queues.map (·.1)
      let qs := if byPort then held.filter fun q => s.queuePort q == some (bitsAt c.arg1 0 7)
        else held.filter fun q => decide (first ≤ q) && decide (q < first + count)
      (s.startFlush (.flush c) qs, .later)

/-- Raises the bits of a port's or client's events. -/
def State.linkEvent (s : State) (k bit : Nat) : State :=
  if k < 128 then s.setEvent ⟨Reg.PRT_PORT_EVENT (k / 8) (k % 8), bit, 1⟩
  else s.setEvent ⟨Reg.FXE_CLIENT_EVENT (k - 128), bit, 1⟩

/-- A flush completes (R338): its pages are walked, its event set, its command completed, a queue that waited detached. -/
def State.completeFlush (s : State) (f : Flush) (fs : List Flush) : State :=
  let s1 := f.pages.foldl State.freePage { s with tm := { s.tm with flushes := fs } }
  let s2 := s1.setEvent Fld.BUF_EVENT_FLUSH_DONE
  match f.owner with
  | .flush c => s2.complete c 0x0806 stOK f.count 0
  | .detach c q =>
    let qu := s2.queue q
    (s2.setQueue q { qu with attached := false, detaching := false }).complete c 0x0811 stOK (f.count % 2 ^ 32) 0
  | .port k =>
    let s3 := if k < 128 then s2.fset (Fld.PRT_PORT_STATUS_FLUSHING (k / 8) (k % 8)) 0 else s2
    s3.linkEvent k 2

/-- The oldest flush completes. -/
def execFlushComplete (s : State) : Host.Outcome State Fault Refusal :=
  match s.tm.flushes with
  | [] => .next s
  | f :: fs => .next (s.completeFlush f fs)

/-! ### Fence regions (R340-R344) -/

/-- The stack's regions. -/
def stackRegions (stack : Nat) : List Nat := (List.range 8).map fun i => 8 * stack + i

/-- The region itself, or the eight of its stack. -/
def fenceTargets (region : Nat) (whole : Bool) : List Nat := if whole then stackRegions (region / 8) else [region]

/-- A fence request on an ACTIVE region is refused when it leaves its stack with no ACTIVE or WAKING region (R341). -/
def State.fenceRefused (s : State) (r : Nat) : Bool :=
  (s.region r).state == regActive
    && !(stackRegions (r / 8)).any fun x => x != r && ((s.region x).state == regActive || (s.region x).state == regWaking)

/-- Fences an ACTIVE region; it parks at once when it holds no page. -/
def State.fence (s : State) (r : Nat) : State :=
  if (s.region r).state = regActive then (s.setRegion r { s.region r with state := regFencing }).tryPark r else s

/-- Unfences (R342): FENCING returns to ACTIVE, PARKED starts waking. -/
def State.unfence (s : State) (r : Nat) : State :=
  match (s.region r).state with
  | 1 => s.setRegion r { s.region r with state := regActive, leaving := false }
  | 2 => s.setRegion r { s.region r with state := regWaking, leaving := false }
  | _ => s

/-- RESULT0 and RESULT1 of BUF_FENCE (R348). -/
def State.fenceResult (s : State) (region : Nat) : Nat × Nat :=
  let stack := region / 8
  ((List.range 8).foldl (fun n i => n + (s.region (8 * stack + i)).state * 2 ^ (3 * i)) 0 + stack * 2 ^ 24,
    (List.range 48).foldl (fun n r => if (s.region r).state = regActive then n + 2 ^ r else n) 0)

/-- Completes the fence commands whose regions have all reached their state. -/
def State.fenceSettle (s : State) : State :=
  let done := fun (w : FenceWait) => w.regions.all fun r => (s.region r).state == w.target
  let ready := s.tm.fenceWaits.filter done
  let s1 := { s with tm := { s.tm with fenceWaits := s.tm.fenceWaits.filter fun w => !done w } }
  ready.foldl (fun t w =>
    let (a, b) := t.fenceResult (bitsAt w.cmd.arg0 0 6)
    t.complete w.cmd 0x0807 stOK a b) s1

/-- One of the BUF_FENCE operations: release, fence and hold, unfence and hold, stack out. `op` is the row's OP; the command's own
OP says which applies. -/
def fenceCmd (c : Cmd) (trained : Bool) (s : State) : Host.Outcome State Fault Refusal :=
  runCmd 0x0807 1 1 c s fun s =>
    let region := bitsAt c.arg0 0 6
    let op := bitsAt c.arg0 9 3
    let rs := fenceTargets region (bitAt c.arg0 8 || op == 3)
    if c.resv [(0, 6), (8, 4)] [] [] then fail stBadPayload s
    else if 47 < region ∨ 3 < op then fail stOutOfRange s
    else
      let hold := fun (t : State) r => t.setRegion r { t.region r with held := op != 0 }
      let finish := fun (t : State) (target : Nat) =>
        let w : FenceWait := ⟨c, rs, target⟩
        if rs.all fun r => (t.region r).state == target then
          let (a, b) := t.fenceResult region
          (t, Done.done stOK a b)
        else ({ t with tm := { t.tm with fenceWaits := t.tm.fenceWaits ++ [w] } }, Done.later)
      match op with
      | 0 =>
        let t := rs.foldl hold s
        let (a, b) := t.fenceResult region
        ok t a b
      | 1 =>
        let walk := rs.foldl (fun (a : State × Bool) r => (a.1.fence r, a.2 || a.1.fenceRefused r)) (s, false)
        if walk.2 then fail stState s else finish (rs.foldl hold walk.1) regParked
      | 2 =>
        if rs.any (fun r => (s.region r).state == regOut) ∧ trained = false then fail stState s
        else
          let wake := fun (t : State) r =>
            if (t.region r).state = regOut then t.setRegion r { region0 with state := regWaking } else t.unfence r
          let woken := rs.foldl wake s
          let s1 := if rs.any (fun r => (s.region r).state == regOut) then woken.fset (Fld.HBT_STACK_STATUS_STATE (region / 8)) 2 else woken
          finish (rs.foldl hold s1) regActive
      | _ =>
        if rs.all fun r => (s.region r).state == regOut then fail stState s
        else
          let leave := fun (t : State) r =>
            let t1 := t.setRegion r { t.region r with leaving := true }
            (if (t1.region r).state = regActive ∨ (t1.region r).state = regWaking then
              t1.setRegion r { t1.region r with state := regFencing } else t1).tryPark r
          finish (rs.foldl leave (rs.foldl hold s)) regOut

/-- Whether the HBT controller reports a stack trained (17). -/
def State.hbtTrained (s : State) (stack : Nat) : Bool := s.fbit (Fld.HBT_STACK_STATUS_TRAINED stack)

def execBufFenceRelease (c : Cmd) (s : State) : Host.Outcome State Fault Refusal := fenceCmd c (s.hbtTrained (bitsAt c.arg0 3 3)) s

def execBufFenceHold (c : Cmd) (s : State) : Host.Outcome State Fault Refusal := fenceCmd c (s.hbtTrained (bitsAt c.arg0 3 3)) s

def execBufUnfenceHold (c : Cmd) (s : State) : Host.Outcome State Fault Refusal := fenceCmd c (s.hbtTrained (bitsAt c.arg0 3 3)) s

def execBufStackOut (c : Cmd) (s : State) : Host.Outcome State Fault Refusal := fenceCmd c (s.hbtTrained (bitsAt c.arg0 3 3)) s

/-- A fencing region has emptied and parks; the commands that waited complete. -/
def execRegionParked (region : Nat) (s : State) : Host.Outcome State Fault Refusal := .next (s.tryPark region).fenceSettle

/-- A region still FENCING after WAIT_MS returns to ACTIVE (R341); a command that named it completes with TIMEOUT. -/
def execFenceTimeout (region : Nat) (s : State) : Host.Outcome State Fault Refusal :=
  if (s.region region).state ≠ regFencing ∨ s.fget Fld.BUF_FENCE_CFG_WAIT_MS = 0 then .next s
  else
    let s1 := (s.setRegion region { s.region region with state := regActive, leaving := false }).setEvent Fld.BUF_EVENT_FENCE_TIMEOUT
    let hit := fun (w : FenceWait) => w.regions.contains region && w.target != regActive
    let late := s1.tm.fenceWaits.filter hit
    let s2 := { s1 with tm := { s1.tm with fenceWaits := s1.tm.fenceWaits.filter fun w => !hit w } }
    .next (late.foldl (fun t w => let (a, b) := t.fenceResult (bitsAt w.cmd.arg0 0 6); t.complete w.cmd 0x0807 stTimeout a b) s2)

/-- A WAKING region becomes ACTIVE with an empty list and BUMP 0 (R342). -/
def execRegionWakeDone (region : Nat) (s : State) : Host.Outcome State Fault Refusal :=
  if (s.region region).state = regWaking then
    .next (s.setRegion region { s.region region with state := regActive, bump := 0, free := [], used := 0 }).fenceSettle
  else .next s

/-- Free pages below BUF_UNFENCE_FREE: hardware unfences one region, whatever the holds (R343). -/
def execAutoUnfence (s : State) : Host.Outcome State Fault Refusal :=
  if s.fget Fld.BUF_UNFENCE_FREE_PAGES ≤ s.activePages then .next s
  else
    let find := fun st => (List.range 48).find? fun r => (s.region r).state == st
    match (match find regFencing with | some r => some r | none => find regParked) with
    | none => .next s
    | some r =>
      let s1 := (s.unfence r)
      let s2 := (s1.setRegion r { s1.region r with held := false }).setEvent Fld.BUF_EVENT_AUTO_UNFENCE
      .next ({ s2 with pwr := { s2.pwr with fenceHoldoff := 10 } }).fenceSettle

/-! ### Commands 0x0801 to 0x0805 (R348) -/

def execBufQadmSet (c : Cmd) (s : State) : Host.Outcome State Fault Refusal :=
  runCmd 0x0801 1 1 c s fun s =>
    let first := bitsAt c.arg0 0 20
    let count := bitsAt c.arg0 32 21
    if c.resv queueFields [(0, 9)] [] then fail stBadPayload s
    else if !rangeOk first count then fail stOutOfRange s
    else
      let set := fun (t : State) i =>
        t.setQueue (first + i) { t.queue (first + i) with admEn := bitAt c.arg1 8, profile := bitsAt c.arg1 0 8 }
      ok ((List.range count).foldl set s) count 0

def execBufQRead (c : Cmd) (s : State) : Host.Outcome State Fault Refusal :=
  runCmd 0x0802 1 1 c s fun s =>
    if c.resv [(0, 20)] [] [] then fail stBadPayload s
    else
      let q := bitsAt c.arg0 0 20
      let qu := s.queue q
      let kib := ceilDiv ((segPart qu.pkts).foldl (fun n x => n + x.charge) 0) 1024
      ok s (s.qb q + 2 ^ 38 * b2n qu.spilled + 2 ^ 39 * b2n qu.admEn + 2 ^ 40 * qu.profile + 2 ^ 48 * qu.epoch)
        (qu.pkts.length + 2 ^ 32 * kib)

def profFields : List (Nat × Nat × Nat) := (List.range 6).map fun i => (32 + 4 * i, 0, 28)

def execBufProfSet (c : Cmd) (s : State) : Host.Outcome State Fault Refusal :=
  runCmd 0x0803 2 2 c s fun s =>
    let p : AdmProfile := ⟨c.fld 32 0 28, c.fld 36 0 28, c.fld 40 0 28, c.fld 44 0 28, c.fld 48 0 28, c.fld 52 0 28⟩
    if c.resv [(0, 8)] [] profFields then fail stBadPayload s
    else if p.limitG < p.limitY ∨ p.limitY < p.limitR ∨ p.limitG < p.min then fail stBadPayload s
    else ok { s with tm := { s.tm with profiles := Assoc.put s.tm.profiles profile0 (bitsAt c.arg0 0 8) p } } 0 0

def execBufProfRead (c : Cmd) (s : State) : Host.Outcome State Fault Refusal :=
  runCmd 0x0804 2 2 c s fun s =>
    if c.resv [(0, 8)] [] [(32, 0, 64)] then fail stBadPayload s
    else
      let p := Assoc.get s.tm.profiles profile0 (bitsAt c.arg0 0 8)
      let b := [p.limitG, p.limitY, p.limitR, p.min, p.spill, p.spillMin].flatMap (leBytes 4)
      ok (s.emit (.hostWrite (c.fld 32 0 64) b)) 0 0

/-- The value in force of a limit, in the layout of ARG1. -/
def State.limitValue (s : State) (kind port cls : Nat) : Nat :=
  match kind with
  | 0 => Assoc.get s.tm.limitPc limitReset (8 * port + cls)
  | 1 => Assoc.get s.tm.limitP limitReset port
  | 2 => Assoc.get s.tm.limitC limitReset cls
  | _ => match Assoc.get s.tm.pfcLimit (limitReset, limitReset - 1) (8 * port + cls) with | (a, b) => a + 2 ^ 32 * b

/-- BUF_LIMIT: KIND's limit is set, or with READ only read. -/
def bufLimit (c : Cmd) (s : State) : Host.Outcome State Fault Refusal :=
  runCmd 0x0805 1 1 c s fun s =>
    let kind := bitsAt c.arg0 0 2
    let port := bitsAt c.arg0 8 7
    let cls := bitsAt c.arg0 16 3
    let v := bitsAt c.arg1 0 28
    let xon := bitsAt c.arg1 32 28
    if c.resv [(0, 2), (8, 7), (16, 3), (24, 1)] (if kind = 3 then [(0, 28), (32, 28)] else [(0, 28)]) [] then fail stBadPayload s
    else if bitAt c.arg0 24 then ok s (s.limitValue kind port cls) 0
    else if kind = 3 ∧ v ≤ xon then fail stBadPayload s
    else
      let tm := match kind with
        | 0 => { s.tm with limitPc := Assoc.put s.tm.limitPc limitReset (8 * port + cls) v }
        | 1 => { s.tm with limitP := Assoc.put s.tm.limitP limitReset port v }
        | 2 => { s.tm with limitC := Assoc.put s.tm.limitC limitReset cls v }
        | _ => { s.tm with pfcLimit := Assoc.put s.tm.pfcLimit (limitReset, limitReset - 1) (8 * port + cls) (v, xon) }
      let s1 := { s with tm := tm }
      let s2 := if kind = 3 then s1.pfcUpdate port cls else s1
      ok s2 (s2.limitValue kind port cls) 0

def execBufLimitSet (c : Cmd) (s : State) : Host.Outcome State Fault Refusal := bufLimit c s

def execBufLimitRead (c : Cmd) (s : State) : Host.Outcome State Fault Refusal := bufLimit c s

/-! ### Die-to-die link and Sump errors (R334, R335) -/

/-- A flit fails its CRC and is replayed; after 16 failed replays in a row the module retrains (R334). -/
def execD2dFlitError (module failed : Nat) (s : State) : Host.Outcome State Fault Refusal :=
  let s1 := s.pmc 0x041 module 0 1
  if failed < 16 then .next s1 else .next ((s1.setEvent Fld.BUF_EVENT_D2D_RETRAIN).raiseError 0x1506 module)

end Sys2Proof.Machine
end

