-- ==== Sys2Proof/Machine/Sched.lean ====
section
/-! DEFINITION. Queues, scheduling, shaping and TM-side policing (12 R350-R379): the hierarchy, eligibility, the decision of a port node,
shapers and yield buckets, and the queue and scheduling commands. -/

namespace Sys2Proof.Machine

open Sys2Proof

/-! ### Shapers (R366-R369, R371) -/

def shaper0 : Shaper := ⟨false, false, 0, 0, 0, 0⟩

/-- SREF of SHP_SEL: KIND and index. -/
def sref (kind i : Nat) : Nat := kind * 2 ^ 18 + i

/-- Shapers of each KIND. -/
def srefCount (kind : Nat) : Nat := [262144, 128, 4096, 32768, 131072, 128].getD kind 0

/-- The refill of R366 at instant `t` in ns. -/
def Shaper.refill (h : Shaper) (t : Nat) : Shaper :=
  let d0 := (t + 2 ^ 64 - h.last) % 2 ^ 64
  let d := if 2 ^ 63 ≤ d0 then 0 else d0
  { h with last := t, t := min (h.t + (h.rate * 125 * d : Nat)) ((h.burst * 1000000000 : Nat) : Int) }

/-- A debit of `l` bytes, down to the floor of R366. -/
def Shaper.debit (h : Shaper) (l : Nat) : Shaper :=
  { h with t := max (h.t - ((l * 1000000000 : Nat) : Int)) (-(2 ^ 20 * 1000000000)) }

/-- A configuration write resets the tokens (R368). -/
def Shaper.configure (t : Nat) (en zero : Bool) (rate burst : Nat) : Shaper :=
  ⟨en, zero, rate, burst, if zero then 0 else ((burst * 1000000000 : Nat) : Int), t⟩

def State.yieldStep (s : State) : Nat := s.fget Fld.SCH_STATUS_YIELD_STEP

/-- RATE of a port node's yield bucket (R371). -/
def State.yieldRate (s : State) (n : Nat) : Nat :=
  s.fget (Fld.SCH_YIELD_FACTOR_FACTOR s.yieldStep) * s.fget (Fld.SCH_PORT_YBASE_KBPS n) / 256

/-- A shaper or yield bucket as it is configured. -/
def State.shaper (s : State) (r : Nat) : Shaper :=
  let h := Assoc.get s.tm.shapers shaper0 r
  if r / 2 ^ 18 = 5 then { h with en := s.yieldStep != 0, rate := s.yieldRate (r % 2 ^ 18), burst := 65536 } else h

def State.setShaper (s : State) (r : Nat) (h : Shaper) : State :=
  { s with tm := { s.tm with shapers := Assoc.put s.tm.shapers shaper0 r h } }

/-- Device time as policers and shapers count it. -/
def State.shapeTime (s : State) : Nat := s.nowNs % 2 ^ 64

/-- A shaper conforms (R367). -/
def State.conforms (s : State) (r : Nat) : Bool :=
  let h := s.shaper r
  !h.en || decide (0 ≤ (h.refill s.shapeTime).t)

def State.debit (s : State) (r l : Nat) : State :=
  let h := s.shaper r
  if h.en then s.setShaper r ((h.refill s.shapeTime).debit l) else s

/-- Every yield bucket is brought up to date before its rate changes (R372: tokens kept, capped at BURST). -/
def State.refillYields (s : State) : State :=
  (List.range 128).foldl (fun t n => t.setShaper (sref 5 n) ((t.shaper (sref 5 n)).refill t.shapeTime)) s

/-- The governor issues a yield step (R372). -/
def State.setYieldStep (s : State) (y : Nat) : State :=
  if s.yieldStep = y then s
  else (s.refillYields.fset Fld.SCH_STATUS_YIELD_STEP y).setEvent Fld.SCH_EVENT_YIELD_CHANGE

/-! ### Counted length, head packets -/

/-- The counted length (R365), with the ADJ of a port node. -/
def State.countedL (s : State) (n : Nat) (p : Pkt) : Nat :=
  countedLen p.md.pktLen (signed (s.fget (Fld.SCH_PORT_BIND_ADJ n)) 7)

/-- MAX_FRAME of a link: line port p, client c at 128 + c. -/
def State.linkMaxFrame (s : State) (k : Nat) : Nat :=
  if k < 128 then s.fget (Fld.PRT_PORT_MAC_MAX_FRAME (k / 8) (k % 8)) else s.fget (Fld.FXE_CLIENT_MAC_MAX_FRAME (k - 128))

/-- Nominal rate of a SPEED code in Mb/s (04 R125). -/
def speedMbps (code : Nat) : Nat := [10000, 25000, 50000, 100000, 200000, 400000, 800000, 1600000].getD code 0

/-- Rate of a link in Mb/s: the port's, or 5 Gb/s a transmit slot of the client. -/
def State.linkRate (s : State) (k : Nat) : Nat :=
  if k < 128 then speedMbps (s.fget (Fld.PRT_PORT_CFG_SPEED (k / 8) (k % 8)))
  else 5000 * s.fget (Fld.FXE_CLIENT_STATUS_TX_SLOTS (k - 128))

/-! ### Transmit room (13 R390, R394, 14 R435) -/

def ptx0 : PortTx := ⟨[], [], 0, none, none, 0⟩

def State.ptx (s : State) (k : Nat) : PortTx := Assoc.get s.tm.ptx ptx0 k
def State.setPtx (s : State) (k : Nat) (t : PortTx) : State :=
  { s with tm := { s.tm with ptx := Assoc.put s.tm.ptx ptx0 k t } }

/-- Bytes waiting in a FIFO of a port. -/
def fifoBytes (fs : List TxFrame) : Nat := fs.foldl (fun n f => n + f.pkt.bytes.length) 0

/-- Depth of a class FIFO in bytes; a client MAC has the reset depth. -/
def State.classDepth (s : State) (k : Nat) : Nat :=
  1024 * (if k < 128 then s.fget (Fld.DLN_PORT_CFG_TC_KB k) else 20)

/-- Every class FIFO has room for a frame of MAX_FRAME bytes. -/
def State.fifoRoom (s : State) (k : Nat) : Bool :=
  (List.range 8).all fun c => decide (fifoBytes (Assoc.get (s.ptx k).classes [] c) + s.linkMaxFrame k ≤ s.classDepth k)

/-- Key of a virtual output queue: input, output, level. -/
def voqKey (i o level : Nat) : Nat := (i * 16 + o) * 4 + level

def State.voqOf (s : State) (i o level : Nat) : List VoqPkt := Assoc.get s.tm.voq [] (voqKey i o level)

/-- The arbitration level of a packet of a queue: L1 express, L2 guaranteed or directly injected, L3 (R370, 01 R33). -/
def levelOf (qu : Queue) (p : Pkt) : Nat :=
  if p.md.express then 1 else if qdClass qu.desc = 2 ∨ p.direct.isSome = true then 2 else 3

/-- A packet fits into its virtual output queue of 64 KiB. -/
def State.voqRoom (s : State) (q k : Nat) (p : Pkt) : Bool :=
  let o := if k < 128 then k / 8 else (k - 128) / 16
  let held := (s.voqOf (q % 16) o (levelOf (s.queue q) p)).foldl (fun n v => n + (v.qp.pkt.bytes.length - v.sent)) 0
  decide (held + p.len ≤ 65536)

/-! ### Eligibility (R358) -/

/-- A hold of R374: PAUSE on the port node, PFC on a queue with PFC_EN; never a FABRIC node or a client channel. -/
def State.queueHeld (s : State) (q n : Nat) : Bool :=
  let d := (s.queue q).desc
  s.bindKind n == 1 && decide (s.queueLink q n < 128)
    && (s.fbit (Fld.SCH_PORT_STATUS_PAUSED n)
      || (qdPfcEn d && bitAt (s.fget (Fld.SCH_PORT_STATUS_PFC_HELD n)) (qdPfcPri d)))

/-- Fabric credit for the head packet (14 R413, R429). -/
def State.fabricCredit (s : State) (q : Nat) : Bool :=
  let qu := s.queue q
  match qu.pkts with
  | h :: _ => qdDestDev qu.desc != s.devId && decide (s.fabricLen h.pkt ≤ qu.balance)
  | [] => false

def State.queueEligible (s : State) (q : Nat) : Bool :=
  let qu := s.queue q
  match s.queuePort q with
  | none => false
  | some n =>
    !qu.detaching && qdClass qu.desc != 3 && headReady qu && !s.queueHeld q n
      && (!qdShaperEn qu.desc || s.conforms (sref 0 (qdShaper qu.desc)))
      && (qdClass qu.desc != 1 || s.yieldStep == 0 || s.conforms (sref 5 n))
      && (s.bindKind n != 2 || s.fabricCredit q)

/-- Link state and transmit room of a channel: its client's, or those of the port its node serves (R358 condition 4). -/
def State.channelServed (s : State) (ch : Nat) : Bool :=
  let d := (s.node 1 ch).desc
  let n := ndParent d
  if s.bindKind n = 1 then
    let k := if ndClientV d then 128 + ndClient d else s.bindPort n
    s.linkServed k && s.fifoRoom k && s.fbit Fld.LSW_CFG_EN
  else s.bindKind n == 2 && s.fbit Fld.FAB_CFG_EN

/-- An object at a depth is eligible. -/
def State.eligible (s : State) : Nat → Nat → Bool
  | 0, q => s.queueEligible q
  | d + 1, i =>
    let own :=
      if d = 3 then s.fbit (Fld.SCH_PORT_BIND_EN i) && (s.bindKind i == 1 || s.bindKind i == 2)
      else ndEn (s.node (3 - d) i).desc && (s.nodePort (3 - d) i).isSome
    own && s.conforms (sref (4 - d) i) && (d != 2 || s.channelServed i) && (s.children (d + 1) i).any fun c => s.eligible d c

/-! ### Decisions (R359-R364) -/

/-- Whether tag `a` comes before tag `b`. -/
def tagBefore (a b : Nat) : Bool :=
  decide ((b + 2 ^ 48 - a) % 2 ^ 48 ≠ 0) && decide ((b + 2 ^ 48 - a) % 2 ^ 48 < 2 ^ 47)

/-- cost(L, W) of R364. -/
def tagCost (l w : Nat) : Nat := (l * 4096 + w - 1) / w

/-- Weighted children of a node. -/
def State.weighted (s : State) (depth i : Nat) : List Nat :=
  (s.children depth i).filter fun c => s.childPrio (depth - 1) c == 4

/-- The weighted child at or after an index, wrapping. -/
def atOrAfter (cs : List Nat) (i : Nat) : Nat := (cs.find? (i ≤ ·)).getD (cs.headD 0)

/-- Moves a node's pointer to the next weighted child and ends the turn. -/
def State.advancePtr (s : State) (depth i c : Nat) : State :=
  let nd := s.node (4 - depth) i
  s.setNode (4 - depth) i { nd with ptr := atOrAfter (s.weighted depth i) (c + 1), inTurn := false }

/-- dwrr_pick (R363). -/
def dwrrPick : Nat → Nat → Nat → State → State × Option Nat
  | 0, _, _, s => (s, none)
  | fuel + 1, depth, i, s =>
    let nd := s.node (4 - depth) i
    let c := atOrAfter (s.weighted depth i) nd.ptr
    let w := s.wst (depth - 1) c
    if !s.backloggedNow (depth - 1) c then
      dwrrPick fuel depth i ((s.setWst (depth - 1) c { w with deficit := 0 }).advancePtr depth i c)
    else if !s.eligible (depth - 1) c then dwrrPick fuel depth i (s.advancePtr depth i c)
    else
      let q : Int := s.childWeight (depth - 1) c * s.quantumUnit depth i
      let s1 :=
        if nd.inTurn ∧ nd.ptr = c then s
        else (s.setWst (depth - 1) c { w with deficit := min (w.deficit + q) q }).setNode (4 - depth) i { nd with ptr := c, inTurn := true }
      if 0 < (s1.wst (depth - 1) c).deficit then (s1, some c) else dwrrPick fuel depth i (s1.advancePtr depth i c)

/-- Rounds enough for some eligible child's deficit to rise above 0. -/
def State.dwrrFuel (s : State) (depth i : Nat) : Nat :=
  let cs := s.weighted depth i
  let rounds := cs.foldl (fun n c =>
    max n ((-(s.wst (depth - 1) c).deficit).toNat / max 1 (s.childWeight (depth - 1) c * s.quantumUnit depth i))) 0
  cs.length * (rounds + 3) + 1

/-- The earliest finish tag among candidates; on a tie the first. -/
def earliest : List (Nat × Nat) → Option (Nat × Nat)
  | [] => none
  | (c, f) :: rest =>
    match earliest rest with
    | none => some (c, f)
    | some (c', f') => if tagBefore f' f then some (c', f') else some (c, f)

/-- The queue that a decision reaches from a node (R359), with the state of the groups it passed over. -/
def State.pickQueue : Nat → Nat → State → State × Option Nat
  | 0, q, s => (s, if s.queueEligible q then some q else none)
  | d + 1, i, s =>
    let el := (s.children (d + 1) i).filter fun c => s.eligible d c
    if el.isEmpty then (s, none)
    else
      match (List.range 4).findSome? fun p => el.find? fun c => s.childPrio d c == p with
      | some c => State.pickQueue d c s
      | none =>
        if s.isPrecision (d + 1) i then
          let cand := el.filterMap fun c =>
            match State.pickQueue d c s with
            | (_, some q) =>
              match (s.queue q).pkts, s.queuePort q with
              | h :: _, some n => some (c, ((s.wst d c).sTag + tagCost (s.countedL n h.pkt) (s.childWeight d c)) % 2 ^ 48)
              | _, _ => none
            | (_, none) => none
          match earliest cand with
          | some (c, _) => State.pickQueue d c s
          | none => (s, none)
        else
          match dwrrPick (s.dwrrFuel (d + 1) i) (d + 1) i s with
          | (s1, some c) => State.pickQueue d c s1
          | (s1, none) => (s1, none)

/-- The weighted groups on the path of a released packet are updated (R361, R363, R364). -/
def chargePath : Nat → Nat → Nat → Nat → State → State
  | 0, _, _, _, s => s
  | fuel + 1, depth, i, l, s =>
    let par := s.parentOf depth i
    let w := s.wst depth i
    let s1 :=
      if s.childPrio depth i ≠ 4 then s
      else if s.isPrecision (depth + 1) par then
        let f := (w.sTag + tagCost l (s.childWeight depth i)) % 2 ^ 48
        let nd := s.node (3 - depth) par
        (s.setWst depth i { w with sTag := f, fTag := f }).setNode (3 - depth) par { nd with vtime := laterTag nd.vtime f }
      else s.setWst depth i { w with deficit := w.deficit - l }
    if depth = 3 then s1 else chargePath fuel (depth + 1) par l s1

/-- The shapers above a queue, and its own (R361). -/
def State.pathShapers (s : State) (q n : Nat) : List Nat :=
  let cg := qdParent (s.queue q).desc
  let ag := ndParent (s.node 3 cg).desc
  let ch := ndParent (s.node 2 ag).desc
  let own := if qdShaperEn (s.queue q).desc then [sref 0 (qdShaper (s.queue q).desc)] else []
  own ++ [sref 4 cg, sref 3 ag, sref 2 ch, sref 1 n]

/-- A packet released to a line port enters its virtual output queue (14 R435). -/
def State.toSwitch (s : State) (q k : Nat) (qp : QPkt) : State :=
  let o := if k < 128 then k / 8 else (k - 128) / 16
  let key := voqKey (q % 16) o (levelOf (s.queue q) qp.pkt)
  let v : VoqPkt := ⟨qp, 0⟩
  { s with tm := { s.tm with voq := Assoc.put s.tm.voq [] key (Assoc.get s.tm.voq [] key ++ [v]) } }

/-- The head of a queue is released: it leaves the queue, keeps its charge until departure, and goes to its path (R351, 14 R439).
`late` is the verdict of the release check (13 R391). -/
def State.releaseHead (s : State) (q n : Nat) (late : Bool) : State :=
  let qu := s.queue q
  match qu.pkts with
  | [] => s
  | h :: rest =>
    let l := s.countedL n h.pkt
    let k := if s.bindKind n = 2 then 384 else s.queueLink q n
    let dev := if k = 384 then qdDestDev qu.desc else h.pkt.md.destDev
    let h' : QPkt := { h with pkt := { h.pkt with late := late, link := k, md := { h.pkt.md with destDev := dev } } }
    let s1 := (s.pathShapers q n).foldl (fun t r => t.debit r l) s
    let s2 := if qdClass qu.desc = 1 ∧ s1.yieldStep ≠ 0 then s1.debit (sref 5 n) l else s1
    let lf := s2.fabricLen h.pkt
    let qu2 := s2.queue q
    let s3 := s2.setQueue q { qu2 with pkts := rest
                                       balance := if k = 384 ∧ qdClass qu.desc ≠ 3 then qu2.balance - lf else qu2.balance }
    let s4 := if qdClass qu.desc = 3 then s3 else chargePath 4 0 q l s3
    let s5 := { s4 with tm := { s4.tm with leaving := s4.tm.leaving ++ [h'] } }
    let s6 := if k = 384 then ({ s5 with tm := { s5.tm with cutQ := s5.tm.cutQ ++ [h'] } }).pump else s5.toSwitch q k h'
    s6.settleQueue q

/-- What the units of a released head meet in the Sump (11 R334, R335): 1 a corrected word, 2 an uncorrectable word, 3 an uncorrectable
error of both copies of the link RAM at `cell`. -/
def State.sumpError (s : State) (q ue cell : Nat) : State :=
  match ue with
  | 1 => s.satAdd Fld.BUF_CORR_CNT_COUNT 1
  | 2 =>
    let qu := s.queue q
    let mark := fun (x : QPkt) => { x with pkt := { x.pkt with poison := true } }
    let s1 := s.setQueue q { qu with pkts := match qu.pkts with | h :: rest => mark h :: rest | [] => [] }
    ((s1.satAdd Fld.BUF_UE_DROP_CNT_COUNT 1).setEvent Fld.BUF_EVENT_SUMP_UE).raiseError 0x1501 q
  | 3 => s.raiseError 0x1504 cell
  | _ => s

/-! ### Queue selection (R357) -/

/-- QUEUE for a destination; `none` drops the packet and counts it. -/
def State.selectQueue (s : State) (dev port tc : Nat) : Option Nat :=
  if dev = s.devId then
    if s.fbit (Fld.SCH_PORT_QBASE_VALID port) ∧ s.fget (Fld.SCH_PORT_QBASE_QBASE port) + tc ≤ 1048575 then
      some (s.fget (Fld.SCH_PORT_QBASE_QBASE port) + tc)
    else none
  else
    let e := Assoc.get s.tm.qmap 0 dev
    let q := bitsAt e 0 20 + (if bitAt e 21 then 8 * port else 0) + tc
    if bitAt e 20 ∧ q ≤ 1048575 then some q else none

/-- A packet dropped for want of a queue. -/
def State.qselMiss (s : State) (gen : Nat) : State :=
  ((s.satAdd Fld.SCH_QSEL_MISS_CNT_COUNT 1).setEvent Fld.SCH_EVENT_QSEL_MISS).drainDec gen

/-! ### Flow-control holds (R374) -/

/-- The LINE node bound to a line port. -/
def State.lineNode (s : State) (p : Nat) : Option Nat :=
  (List.range 128).find? fun n => s.bindKind n == 1 && s.bindPort n == p

/-- A received PAUSE (class 8) or PFC frame of a class holds while its quanta is not 0. -/
def State.setHold (s : State) (p cls : Nat) (held : Bool) : State :=
  match s.lineNode p with
  | none => s
  | some n =>
    if cls = 8 then s.fset (Fld.SCH_PORT_STATUS_PAUSED n) (b2n held)
    else
      let x := s.fget (Fld.SCH_PORT_STATUS_PFC_HELD n)
      s.fset (Fld.SCH_PORT_STATUS_PFC_HELD n) (putBits x cls 1 (b2n held))

/-- Re-admission clears every hold of the port. -/
def State.clearHolds (s : State) (p : Nat) : State :=
  match s.lineNode p with
  | none => s
  | some n => (s.fset (Fld.SCH_PORT_STATUS_PAUSED n) 0).fset (Fld.SCH_PORT_STATUS_PFC_HELD n) 0

/-! ### Commands of subject 0x08 (R377) -/

/-- Children of a parent at strict position `prio` or in the weighted group, other than `i`. -/
def State.siblings (s : State) (depth par i prio : Nat) : List Nat :=
  (s.children (depth + 1) par).filter fun c => c != i && s.childPrio depth c == prio

/-- Precision nodes attached. -/
def State.precUsed (s : State) : Nat := (s.tm.nodes.filter fun kv => kv.2.attached && ndPrecision kv.2.desc).length

/-- The port node above a class group or node that may take children: attached to the root, KIND not 0. -/
def State.liveParent (s : State) (level i : Nat) : Option Nat :=
  match s.nodePort level i with
  | some n => if s.bindKind n = 0 then none else some n
  | none => none

def execQAttach (c : Cmd) (s : State) : Host.Outcome State Fault Refusal :=
  runCmd 0x0810 2 2 c s fun s =>
    let q := bitsAt c.arg0 0 20
    let d := c.fld 32 0 88
    let qu := s.queue q
    if c.resv [(0, 20)] [] [(32, 0, 88)] then fail stBadPayload s
    else if 4 < qdPrio d then fail stOutOfRange s
    else if qdClass d = 3 ∧ qdShaperEn d = true then fail stBadPayload s
    else
      match s.liveParent 3 (qdParent d) with
      | none => fail stState s
      | some n =>
        let moved := qu.attached && s.nodePort 3 (qdParent qu.desc) != some n
        if qu.detaching then fail stState s
        else if qu.attached ∧ qdClass qu.desc ≠ qdClass d then fail stState s
        else if moved ∧ qu.pkts ≠ [] then fail stState s
        else if qdPrio d < 4 ∧ s.siblings 0 (qdParent d) q (qdPrio d) ≠ [] then fail stState s
        else if qdPrio d = 4 ∧ s.isPrecision 1 (qdParent d) = true ∧ 64 ≤ (s.siblings 0 (qdParent d) q 4).length then
          fail stNoSpace s
        else
          let same := qu.attached && qdParent qu.desc == qdParent d && qdPrio qu.desc == qdPrio d
          let q0 := { qu with attached := true, desc := d }
          let q1 := if same then q0 else { q0 with deficit := 0, sTag := 0, fTag := 0, backlogged := false }
          let s1 := (s.setQueue q q1).settleQueue q
          let self := s.bindKind n == 2 && qdDestDev d == s.devId && !s.tm.selfDestSeen
          let s2 := if self then ({ s1 with tm := { s1.tm with selfDestSeen := true } }).setEvent Fld.FAB_EVENT_SELF_DEST else s1
          ok s2 (qdParent d + 2 ^ 17 * n) 0

/-- Q_DETACH, with or without FLUSH. -/
def qDetach (c : Cmd) (s : State) : Host.Outcome State Fault Refusal :=
  runCmd 0x0811 1 1 c s fun s =>
    let q := bitsAt c.arg0 0 20
    let qu := s.queue q
    if c.resv [(0, 20)] [(0, 1)] [] then fail stBadPayload s
    else if qu.detaching then fail stState s
    else if bitAt c.arg1 0 then
      if qu.attached then ((s.setQueue q { qu with detaching := true }).startFlush (.detach c q) [q], .later) else ok s 0 0
    else if qu.pkts ≠ [] then fail stState s
    else ok (s.setQueue q { qu with attached := false }) 0 0

def execQDetach (c : Cmd) (s : State) : Host.Outcome State Fault Refusal := qDetach c s

def execQDetachFlush (c : Cmd) (s : State) : Host.Outcome State Fault Refusal := qDetach c s

def execQRead (c : Cmd) (s : State) : Host.Outcome State Fault Refusal :=
  runCmd 0x0812 1 1 c s fun s =>
    if c.resv [(0, 20)] [] [] then fail stBadPayload s
    else
      let q := bitsAt c.arg0 0 20
      let att := (s.queuePort q).isSome && !(s.queue q).detaching
      let v := (s.queue q).desc + 2 ^ 126 * b2n (s.queueEligible q) + 2 ^ 127 * b2n att
      ok s (v % 2 ^ 64) (v / 2 ^ 64)

/-- Q_MAP_SET, or its READ. -/
def qMapSet (c : Cmd) (s : State) : Host.Outcome State Fault Refusal :=
  runCmd 0x0813 1 1 c s fun s =>
    let dev := bitsAt c.arg0 0 11
    let new := bitsAt c.arg1 0 20 + 2 ^ 20 * b2n (bitAt c.arg0 12) + 2 ^ 21 * b2n (bitAt c.arg0 13)
    if c.resv [(0, 11), (12, 2), (16, 1)] [(0, 64)] [] then fail stBadPayload s
    else if 1048575 < c.arg1 then fail stOutOfRange s
    else
      let s1 := if bitAt c.arg0 16 then s else { s with tm := { s.tm with qmap := Assoc.put s.tm.qmap 0 dev new } }
      let e := Assoc.get s1.tm.qmap 0 dev
      ok s1 (dev + 2 ^ 12 * bitsAt e 20 1 + 2 ^ 13 * bitsAt e 21 1) (bitsAt e 0 20)

def execQMapSet (c : Cmd) (s : State) : Host.Outcome State Fault Refusal := qMapSet c s

def execQMapRead (c : Cmd) (s : State) : Host.Outcome State Fault Refusal := qMapSet c s

/-! ### Commands of subject 0x09 (R378) -/

/-- Nodes of a level. -/
def levelCount (level : Nat) : Nat := [128, 4096, 32768, 131072].getD level 0

/-- The anchor port of FlexE group f: the lowest port of its PHY mask (05 R149). -/
def State.groupAnchor (s : State) (f : Nat) : Nat :=
  8 * (f / 2) + ((List.range 8).find? fun i => bitAt (s.fget (Fld.FXE_GRP_PHY_PHY_MASK f)) i).getD 0

/-- The anchor port of a FlexE client's group. -/
def State.anchorPort (s : State) (client : Nat) : Nat :=
  s.groupAnchor (2 * (client / 16) + s.fget (Fld.FXE_CLIENT_CFG_GRP client))

/-- NODE_SET, or with DETACH the detach of a node. -/
def nodeSet (c : Cmd) (s : State) : Host.Outcome State Fault Refusal :=
  runCmd 0x0901 1 1 c s fun s =>
    let i := bitsAt c.arg0 0 18
    let level := bitsAt c.arg0 18 2
    let depth := 4 - level
    let detach := bitAt c.arg0 24
    let d := bitsAt c.arg1 0 46
    let nd := s.node level i
    let par := ndParent d
    let done := fun (t : State) => ok t (4096 - t.precUsed) 0
    if c.resv [(0, 20), (24, 1)] (if detach then [(0, 64)] else [(0, 46)]) [] then fail stBadPayload s
    else if level = 0 ∨ levelCount level ≤ i then fail stOutOfRange s
    else if detach then
      if !nd.attached then done s
      else if s.children depth i ≠ [] then fail stState s
      else done (s.setNode level i { nd with attached := false })
    else if 4 < ndPrio d ∨ levelCount (level - 1) ≤ par then fail stOutOfRange s
    else if level ≠ 1 ∧ (bitsAt d 37 9 ≠ 0) then fail stBadPayload s
    else if ndClientV d ∧ ¬ (s.bindKind par = 1 ∧ s.bindPort par = s.anchorPort (ndClient d)) then fail stBadPayload s
    else
      match s.liveParent (level - 1) par with
      | none => fail stState s
      | some n =>
        let newPrec := ndPrecision d && !(nd.attached && ndPrecision nd.desc)
        if nd.attached ∧ s.nodePort level i ≠ some n then fail stState s
        else if nd.attached ∧ ndPrecision nd.desc ≠ ndPrecision d ∧ s.children depth i ≠ [] then fail stState s
        else if ndPrio d < 4 ∧ s.siblings depth par i (ndPrio d) ≠ [] then fail stState s
        else if newPrec ∧ 4096 ≤ s.precUsed then fail stNoSpace s
        else if ndPrio d = 4 ∧ s.isPrecision (depth + 1) par = true ∧ 64 ≤ (s.siblings depth par i 4).length then fail stNoSpace s
        else
          let same := nd.attached && ndParent nd.desc == par && ndPrio nd.desc == ndPrio d
          let n0 := { nd with attached := true, desc := d }
          let n1 := if same then n0 else { n0 with deficit := 0, sTag := 0, fTag := 0, backlogged := false }
          let n2 := if newPrec ∨ nd.attached = false then { n1 with vtime := 0, ptr := 0, inTurn := false } else n1
          done (rebacklog 4 depth i (s.setNode level i n2))

def execNodeSet (c : Cmd) (s : State) : Host.Outcome State Fault Refusal := nodeSet c s

def execNodeDetach (c : Cmd) (s : State) : Host.Outcome State Fault Refusal := nodeSet c s

def execNodeRead (c : Cmd) (s : State) : Host.Outcome State Fault Refusal :=
  runCmd 0x0902 1 1 c s fun s =>
    let i := bitsAt c.arg0 0 18
    let level := bitsAt c.arg0 18 2
    if c.resv [(0, 20)] [] [] then fail stBadPayload s
    else if level = 0 ∨ levelCount level ≤ i then fail stOutOfRange s
    else
      let nd := s.node level i
      ok s nd.desc (b2n nd.attached + 2 * b2n (s.eligible (4 - level) i) + 4 * min (s.children (4 - level) i).length 65535)

/-- SREF fields of a command: valid KIND and index. -/
def srefOk (r : Nat) : Bool := decide (r % 2 ^ 18 < srefCount (r / 2 ^ 18))

def execSchShaperSet (c : Cmd) (s : State) : Host.Outcome State Fault Refusal :=
  runCmd 0x0903 1 1 c s fun s =>
    let r := bitsAt c.arg0 0 21
    if c.resv [(0, 21), (32, 2)] [(0, 64)] [] then fail stBadPayload s
    else if !srefOk r then fail stOutOfRange s
    else if r / 2 ^ 18 = 5 then fail stState s
    else
      ok (s.setShaper r (Shaper.configure s.shapeTime (bitAt c.arg0 32) (bitAt c.arg0 33) (bitsAt c.arg1 0 32) (bitsAt c.arg1 32 32))) 0 0

/-- RESULT0: RATE in bits [31:0], EN and RESET_MODE in bits [33:32]; RESULT1: T. -/
def execSchShaperRead (c : Cmd) (s : State) : Host.Outcome State Fault Refusal :=
  runCmd 0x0904 1 1 c s fun s =>
    let r := bitsAt c.arg0 0 21
    if c.resv [(0, 21)] [] [] then fail stBadPayload s
    else if !srefOk r then fail stOutOfRange s
    else
      let h := s.shaper r
      ok s (h.rate + 2 ^ 32 * b2n h.en + 2 ^ 33 * b2n h.zero) (unsignedOf (h.refill s.shapeTime).t 64)

def execTmpolSet (c : Cmd) (s : State) : Host.Outcome State Fault Refusal :=
  runCmd 0x0905 2 2 c s fun s =>
    let tokens := bitsAt c.arg0 24 2
    let i := bitsAt c.arg0 0 13
    if c.resv [(0, 13), (24, 2)] [] [(32, 0, 128), (48, 0, 3), (49, 0, 8)] then fail stBadPayload s
    else if i = 0 ∨ tokens = 3 then fail stOutOfRange s
    else if (polPayload c).badConfig then fail stBadPayload s
    else
      let p := (Assoc.get s.tm.tmpol policer0 i).configure s.shapeTime tokens (polPayload c)
      let aware := s.tm.tmpolAware.filter (· != i) ++ (if bitAt (c.fld 48 0 3) 2 then [i] else [])
      ok { s with tm := { s.tm with tmpol := Assoc.put s.tm.tmpol policer0 i p, tmpolAware := aware } } 0 0

def execTmpolRead (c : Cmd) (s : State) : Host.Outcome State Fault Refusal :=
  runCmd 0x0906 2 2 c s fun s =>
    let i := bitsAt c.arg0 0 13
    if c.resv [(0, 13)] [] [(32, 0, 64)] then fail stBadPayload s
    else if i = 0 then fail stOutOfRange s
    else
      let rec' := polRecord (Assoc.get s.tm.tmpol policer0 i)
      let flags := byteOr0 rec' 16 + 4 * b2n (s.tm.tmpolAware.contains i)
      ok (s.emit (.hostWrite (c.fld 32 0 64) (setAt rec' 16 (BitVec.ofNat 8 flags)))) 0 0

/-! ### Register hooks of SCH and SHP. A hook answers `none` where the write is rejected. -/

/-- A write of SCH_PORT_BIND (R351): a rejected change sets CFG_ERR and leaves the register as it was. -/
def State.hookPortBind (s : State) (n v : Nat) : State :=
  let kind := bitsAt v 0 2
  let port := bitsAt v 2 7
  let changed := kind != s.bindKind n || port != s.bindPort n
  let twice := kind == 1 && (List.range 128).any fun m => m != n && s.bindKind m == 1 && s.bindPort m == port
  if kind = 3 ∨ (changed ∧ (twice = true ∨ s.children 4 n ≠ [])) then s.setEvent Fld.SCH_EVENT_CFG_ERR
  else s.setReg (Reg.SCH_PORT_BIND n) (BitVec.ofNat 32 (bitsAt v 0 17))

/-- A write of SHP_SEL loads the staged registers; one beyond its KIND is an error. -/
def State.hookShpSel (s : State) (v : Nat) : Option State :=
  let r := bitsAt v 0 21
  if !srefOk r then none
  else
    let h := s.shaper r
    some ((((s.setReg Reg.SHP_SEL (BitVec.ofNat 32 r)).fset Fld.SHP_RATE_KBPS h.rate).fset Fld.SHP_BURST_BYTES h.burst).setReg
      Reg.SHP_CFG (BitVec.ofNat 32 (b2n h.en + 2 * b2n h.zero)))

/-- The selected shaper. -/
def State.shpSel (s : State) : Nat := (s.reg Reg.SHP_SEL).toNat % 2 ^ 21

/-- A write of SHP_CFG applies the staged configuration (R368). -/
def State.hookShpCfg (s : State) (v : Nat) : Option State :=
  if s.fget Fld.SHP_SEL_KIND = 5 then none
  else
    let h := Shaper.configure s.shapeTime (bitAt v 0) (bitAt v 1) (s.fget Fld.SHP_RATE_KBPS) (s.fget Fld.SHP_BURST_BYTES)
    some ((s.setShaper s.shpSel h).setReg Reg.SHP_CFG (BitVec.ofNat 32 (v % 4)))

/-- A write of SCH_PORT_YBASE: the bucket is brought up to date first. -/
def State.hookYbase (s : State) (n v : Nat) : State :=
  let r := sref 5 n
  (s.setShaper r ((s.shaper r).refill s.shapeTime)).setReg (Reg.SCH_PORT_YBASE n) (BitVec.ofNat 32 v)

/-- A write of SCH_YIELD_FACTOR: above 256 reads back as 256; F[0] is read only. -/
def State.hookYieldFactor (s : State) (y v : Nat) : State :=
  if y = 0 then s else s.refillYields.fset (Fld.SCH_YIELD_FACTOR_FACTOR y) (min (bitsAt v 0 9) 256)

end Sys2Proof.Machine
end

