-- ==== Sys2Proof/Machine/Fab.lean ====
section
/-! DEFINITION. Fabric interface and local switch (14 R412-R440): link states, link-level retransmission, reachability, receive, reorder
and reassembly, the credit pump, the switch's matching, and the fabric commands. -/

namespace Sys2Proof.Machine

open Sys2Proof

/-! ### Reachability (R418, R422) -/

/-- The devices with a usable link change: UNREACH and REACH are set, sources that may ask again do so, waiting cells go. -/
def State.reachUpdate (s : State) : State :=
  let active := (List.range 160).filter fun l => s.fabState l == 3
  let now := (active.flatMap fun l => (s.fabLink l).reach).eraseDups
  let lost := s.tm.reachable.filter fun d => !now.contains d
  let new := now.filter fun d => !s.tm.reachable.contains d
  let s1 := { s with tm := { s.tm with reachable := now } }
  let s2 := if lost.isEmpty then s1 else lost.foldl (fun t d => t.raiseError 0x1902 d) (s1.setEvent Fld.FAB_EVENT_UNREACH)
  let s3 := if new.isEmpty then s2 else s2.setEvent Fld.FAB_EVENT_REACH
  let ask := (s3.tm.queues.filter fun kv => kv.2.attached && new.contains (qdDestDev kv.2.desc)).map (·.1)
  (ask.foldl State.creditCheck s3).drainCells

/-! ### Link states (R414, R419, R421) -/

/-- Every entry of a replay buffer is sent again on another link, its order kept, and counted there. -/
def State.redistribute (s : State) (l : Nat) : State :=
  let k := s.fabLink l
  let s1 := s.setFabLink l { k with replay := [] }
  let again := k.replay.map fun (e : Nat × FabCell) => e.2
  ({ s1 with tm := { s1.tm with cellWait := again ++ s1.tm.cellWait } }).reachUpdate

/-- A link moves to a state; leaving ACTIVE sets LINK_DOWN and re-sends what is not acknowledged, entering it sets LINK_UP. -/
def State.fabMove (s : State) (l st : Nat) : State :=
  let old := s.fabState l
  let s0 := s.fset (Fld.FAB_LINK_CTRL_STATE l) st
  let s1 := if st = 4 ∧ old ≠ 4 then s0.raiseError 0x1901 l else s0
  if old = 3 ∧ st ≠ 3 then (s1.setEvent Fld.FAB_EVENT_LINK_DOWN).redistribute l
  else if old ≠ 3 ∧ st = 3 then (s1.setEvent Fld.FAB_EVENT_LINK_UP).reachUpdate
  else s1

/-- A write of FAB_LINK_CTRL: EN 1 starts training, EN 0 turns the link off. -/
def State.hookFabLink (s : State) (l v : Nat) : State :=
  let s1 := s.fset (Fld.FAB_LINK_CTRL_EN l) (v % 2)
  if v % 2 = 0 then s1.fabMove l 0 else if s1.fabState l = 0 then s1.fabMove l 1 else s1

/-- Lock and handshake complete: the link layer starts anew in UP_WAIT. -/
def execFabLinkTrained (l : Nat) (s : State) : Host.Outcome State Fault Refusal :=
  if s.fabState l = 1 then
    let k := s.fabLink l
    .next ((s.setFabLink l { k with txSeq := 0, rxSeq := 0, nakSeq := 0, nakRun := 0, unacked := 0, reachSeen := false
                                    holdDone := false }).fabMove l 2)
  else .next s

/-- UP_HOLD_MS has passed in UP_WAIT. -/
def execFabLinkActive (l : Nat) (s : State) : Host.Outcome State Fault Refusal :=
  if s.fabState l = 2 then
    let k := s.fabLink l
    let s1 := s.setFabLink l { k with holdDone := true }
    .next (if k.reachSeen then s1.fabMove l 3 else s1)
  else .next s

def execFabLockLoss (l : Nat) (s : State) : Host.Outcome State Fault Refusal :=
  if 2 ≤ s.fabState l then .next (s.fabMove l 1) else .next s

def execFabLinkRetry (l : Nat) (s : State) : Host.Outcome State Fault Refusal :=
  if s.fabState l = 4 then .next (s.fabMove l 1) else .next s

/-- Three cells in a row that name a device set its bit, three that omit it clear it. -/
def FabLink.reachCell (k : FabLink) (devs : List Nat) : FabLink :=
  let named := devs.eraseDups.map fun d => (d, Assoc.get k.named 0 d + 1)
  let gone := (k.reach.filter fun d => !devs.contains d).map fun d => (d, Assoc.get k.omitted 0 d + 1)
  let kept := k.reach.filter fun d => decide (Assoc.get gone 0 d < 3)
  let new := (named.filter fun x => decide (3 ≤ x.2) && !kept.contains x.1).map (·.1)
  { k with reach := kept ++ new, named := named, omitted := gone, reachSeen := true }

def execReachCellReceive (l : Nat) (devs : List Nat) (s : State) : Host.Outcome State Fault Refusal :=
  if s.fabState l ≠ 2 ∧ s.fabState l ≠ 3 then .next s
  else
    let k := (s.fabLink l).reachCell (devs.filter (· < 2048))
    let s1 := s.setFabLink l k
    .next (if s1.fabState l = 2 ∧ k.holdDone = true then s1.fabMove l 3 else s1.reachUpdate)

def execReachTimeout (l : Nat) (s : State) : Host.Outcome State Fault Refusal :=
  .next ((s.setFabLink l { s.fabLink l with reach := [], named := [], omitted := [] }).reachUpdate)

/-! ### Link-level retransmission (R417) -/

/-- Cells of a packet that wait or are not acknowledged. -/
def State.cellsOut (s : State) (id : Nat) : Nat :=
  let own := fun (c : FabCell) => c.pktId == id && c.msg.isNone
  s.tm.links.foldl (fun n kv => n + (kv.2.replay.filter fun e => own e.2).length) (s.tm.cellWait.filter own).length

/-- The cells kept in the Sump for unacknowledged fabric cells follow their number. -/
def State.updateKept (s : State) : State :=
  let kept := (s.tm.kept.map fun k => (k.1, k.2.1, s.cellsOut k.1)).filter (·.2.2 != 0)
  { s with tm := { s.tm with kept := kept } }

/-- An acknowledgement frees the entries up to the LINK_SEQ it names. -/
def execFabAckReceive (l linkSeq : Nat) (s : State) : Host.Outcome State Fault Refusal :=
  let k := s.fabLink l
  let s1 := s.setFabLink l { k with replay := k.replay.filter fun e => decide (32768 ≤ (linkSeq + 65536 - e.1) % 65536), nakRun := 0 }
  .next s1.updateKept.drainCells

/-- A NAK makes the sender re-send from the LINK_SEQ it names; the sixteenth in a row for one LINK_SEQ fails the link. -/
def execFabNakReceive (l linkSeq : Nat) (s : State) : Host.Outcome State Fault Refusal :=
  let k := s.fabLink l
  let run := if k.nakSeq = linkSeq ∧ k.nakRun ≠ 0 then k.nakRun + 1 else 1
  let s1 := s.setFabLink l { k with nakSeq := linkSeq, nakRun := run }
  if 16 ≤ run then .next (s1.fabMove l 4)
  else
    let again := k.replay.filter fun e => decide ((e.1 + 65536 - linkSeq) % 65536 < 32768)
    let send := fun (t : State) (e : Nat × FabCell) =>
      match e.2.msg with
      | some o => t.emit o
      | none => t.emit (.fabCell l e.1 (e.2.bytes e.1))
    .next ((again.foldl send (s1.satAdd (Fld.FAB_LINK_RETX_COUNT l) again.length)).pmc 0x831 l 0 again.length)

/-- An entry has stayed unacknowledged for ACK_TIMEOUT_US. -/
def execFabAckTimeout (l : Nat) (s : State) : Host.Outcome State Fault Refusal :=
  if (s.fabLink l).replay.isEmpty then .next s else .next (s.fabMove l 4)

/-- The receiver of a link sends an acknowledgement of the highest LINK_SEQ received in order. -/
def State.sendAck (s : State) (l : Nat) : State :=
  let k := s.fabLink l
  (s.setFabLink l { k with unacked := 0 }).emit (.fabControl l 0 ((k.rxSeq + 65535) % 65536))

def execFabAckInterval (l : Nat) (s : State) : Host.Outcome State Fault Refusal :=
  if s.fabState l = 3 ∧ (s.fabLink l).unacked ≠ 0 then .next (s.sendAck l) else .next s

/-- The receiver sends a NAK naming the next LINK_SEQ it expects. -/
def State.sendNak (s : State) (l : Nat) : State := s.emit (.fabControl l 1 (s.fabLink l).rxSeq)

/-- Takes a cell in LINK_SEQ order: the next state when it is accepted. -/
def State.acceptLink (s : State) (l linkSeq : Nat) : Option State :=
  let k := s.fabLink l
  if k.rxSeq = linkSeq then
    let s1 := s.setFabLink l { k with rxSeq := (k.rxSeq + 1) % 65536, unacked := k.unacked + 1 }
    some (if 16 ≤ k.unacked + 1 then s1.sendAck l else s1)
  else none

/-! ### Changes to a packet on its way through the TM die -/

def QPkt.upd (id : Nat) (f : Pkt → Pkt) (x : QPkt) : QPkt :=
  if x.pkt.id = id then { x with pkt := f x.pkt, charge := (f x.pkt).charge } else x

def Pkt.upd (id : Nat) (f : Pkt → Pkt) (p : Pkt) : Pkt := if p.id = id then f p else p

def TxFrame.upd (id : Nat) (f : Pkt → Pkt) (x : TxFrame) : TxFrame := { x with pkt := x.pkt.upd id f }

def PortTx.upd (id : Nat) (f : Pkt → Pkt) (t : PortTx) : PortTx :=
  { t with express := t.express.map (TxFrame.upd id f)
           classes := t.classes.map fun kv => (kv.1, kv.2.map (TxFrame.upd id f))
           preempted := t.preempted.map (TxFrame.upd id f)
           sending := t.sending.map (TxFrame.upd id f) }

/-- Applies a change to every place that holds packet `id` (13 R385-R388: its end arrives while it is on its way). -/
def State.updPkt (s : State) (id : Nat) (f : Pkt → Pkt) : State :=
  let tm := s.tm
  let hit := tm.queues.filter fun kv => kv.2.pkts.any fun x => x.pkt.id == id
  let queues := tm.queues.map fun kv => (kv.1, { kv.2 with pkts := kv.2.pkts.map (QPkt.upd id f) })
  let s1 := { s with tm := { tm with
    inputs := tm.inputs.map fun kv => (kv.1, kv.2.map (Pkt.upd id f))
    queues := queues
    leaving := tm.leaving.map (QPkt.upd id f)
    cutQ := tm.cutQ.map (QPkt.upd id f)
    voq := tm.voq.map fun kv => (kv.1, kv.2.map fun v => { v with qp := v.qp.upd id f })
    egressIn := tm.egressIn.map fun kv => (kv.1, kv.2.map (Pkt.upd id f))
    ptx := tm.ptx.map fun kv => (kv.1, kv.2.upd id f) } }
  let accts := s1.tm.leaving.filter (·.pkt.id == id) ++ hit.flatMap fun kv => (s1.queue kv.1).pkts.filter (·.pkt.id == id)
  (hit.map (·.1)).foldl State.settleQueue (accts.foldl State.acctChanged s1).pump

/-- More bytes of a packet arrive; with `last` its end is there, and PKT_LEN is known. -/
def Pkt.append (more : List Byte) (last err : Bool) (p : Pkt) : Pkt :=
  let bytes := p.bytes ++ more
  { p with bytes := bytes, complete := p.complete || last, errored := p.errored || err
           md := { p.md with pktLen := if last then bytes.length else p.md.pktLen } }

/-! ### Receive, reorder and reassembly (R423-R425) -/

def reorder0 : Reorder := ⟨0, [], none, false, false⟩

/-- The crossing record of a packet received from the fabric (R424). -/
def fabricMeta (devId : Nat) (h : Nat) (stampNs qns gen : Nat) : Meta :=
  { stampNs := stampNs % 1000000000, stampQns := qns, stampSec := stampNs / 1000000000, gen := gen, pass := 0
    express := false, color := bitsAt h 24 2, tc := bitsAt h 21 3, remarkEn := bitAt h 26, dscp := bitsAt h 27 6
    flags := bitsAt h 33 8, inPort := bitsAt h 41 16, inClient := 0, pktLen := bitsAt h 0 14, queue := 0, destDev := devId
    destPort := bitsAt h 14 7, encap := bitsAt h 57 22, offL3 := bitsAt h 79 9, offL4 := bitsAt h 88 9
    offInner := bitsAt h 97 9, l3Kind := bitsAt h 106 2, ptpOp := bitsAt h 108 2, ptpOff := bitsAt h 110 9
    session := bitsAt h 119 4, copyKind := bitsAt h 123 2, ldt := bitsAt h 126 32, cookie := 0 }

/-- Adds a packet to an input of admission. -/
def State.toInput (s : State) (i : Nat) (p : Pkt) : State :=
  { s with tm := { s.tm with inputs := Assoc.put s.tm.inputs [] i (Assoc.get s.tm.inputs [] i ++ [p]) } }

def dlnProf0 : DlnProfile := ⟨0, 0, 0, 0⟩

/-- The deadline profile of a queue (13 R380). -/
def State.dlnProfOf (s : State) (q : Nat) : DlnProfile := Assoc.get s.tm.dlnProf dlnProf0 (Assoc.get s.tm.dlnMap 0 q)

/-- LDT from a stamp in ns (13 R382). -/
def ldtOf (stamp budget : Nat) : Nat := (stamp + budget) % 2 ^ 32

/-- The packet that a first cell starts, as admission's fabric input gets it: record `m` with its queue, and the LDT with its validity. -/
def fabricPkt (m : Meta) (c : FabCell) (id q : Nat) (express : Bool) (ldt : Nat) (ldtV : Bool) : Pkt :=
  let body := c.payload.drop 32
  { id := id, md := { m with queue := q, express := express, ldt := ldt, pktLen := if c.last then body.length else m.pktLen }
    bytes := body, complete := c.last, errored := c.last && c.err, late := false, poison := false, maxFrame := 9216, inRate := 200000
    fromFabric := true, ldtV := ldtV, direct := none, link := 384 }

/-- A packet with the next number enters admission's fabric input. -/
def State.enterFabric (s : State) (p : Pkt) : State := ({ s with tm := { s.tm with nextId := p.id + 1 } }).toInput 16 p

/-- The packet of record `m` and first cell `c` enters the queue its destination selects: the LDT is carried or made anew (13 R383). -/
def State.fabricEnter (s : State) (c : FabCell) (h : Nat) (m : Meta) (q : Nat) : State :=
  let express := qdClass (s.queue q).desc == 3
  let budget := (s.dlnProfOf q).budget
  let carry := !s.fbit Fld.DLN_CFG_FAB_LDT
  let ldt := if !express then 0 else if carry then m.ldt else ldtOf s.nowNs budget
  s.enterFabric (fabricPkt m c s.tm.nextId q express ldt (express && (if carry then bitAt h 125 else budget != 0)))

/-- The packet of record `m` and generation `g` selects its queue and enters it, or counts a miss. -/
def State.fabricSelect (s : State) (c : FabCell) (h g : Nat) (m : Meta) : State × Option Nat :=
  match s.selectQueue s.devId m.destPort m.tc with
  | none => (s.qselMiss g, none)
  | some q => (s.fabricEnter c h m q, some s.tm.nextId)

/-- The packet of header `h` gets its stamp and generation, and its record. -/
def State.fabricStamp (s : State) (c : FabCell) (h : Nat) : State × Option Nat :=
  match s.stampGen (145 + bitsAt h 14 7 / 8) s.nowQns with
  | (g, s1) => (s1.drainInc g).fabricSelect c h g (fabricMeta s.devId h s.nowNs s.view.qns g)

/-- The first cell of a packet leaves the reorder stage: stamp, generation, record, and admission's fabric input (R424). -/
def State.startFabricPkt (s : State) (c : FabCell) : State × Option Nat := s.fabricStamp c (leNat (c.payload.take 32))

/-- One data cell leaves the reorder stage in sequence. -/
def State.deliverCell (s : State) (key : Nat) (c : FabCell) : State :=
  let r := Assoc.get s.tm.reorder reorder0 key
  let put := fun (t : State) (v : Reorder) => { t with tm := { t.tm with reorder := Assoc.put t.tm.reorder reorder0 key v } }
  let r1 := { r with next := (c.e2e + 1) % 65536 }
  let count := fun (t : State) (err : Bool) => if c.last && err then t.satAdd Fld.FAB_ERR_DROP_CNT_COUNT 1 else t
  if c.first then
    match (count s c.err).startFabricPkt c with
    | (s1, id) => put s1 { r1 with current := if c.last then none else id, err := c.err, skipping := false }
  else if r.skipping then put s r1
  else
    match r.current with
    | none => put s r1
    | some id =>
      let err := r.err || c.err
      let s1 := (count s err).updPkt id (Pkt.append c.payload c.last (c.last && err))
      put s1 { r1 with current := if c.last then none else some id, err := err }

/-- Cells that wait are delivered as far as their numbers go on. -/
def deliverWaiting : Nat → Nat → State → State
  | 0, _, s => s
  | fuel + 1, key, s =>
    let r := Assoc.get s.tm.reorder reorder0 key
    match Assoc.find r.waiting r.next with
    | none => s
    | some c =>
      let s1 := { s with tm := { s.tm with reorder := Assoc.put s.tm.reorder reorder0 key { r with waiting := Assoc.erase r.waiting r.next } } }
      deliverWaiting fuel key (s1.deliverCell key c)

/-- Bytes in the reassembly store. -/
def State.storeBytes (s : State) : Nat :=
  s.tm.reorder.foldl (fun n kv => kv.2.waiting.foldl (fun m c => m + c.2.payload.length) n) 0

/-- A data cell received on a link (R415, R417, R423). -/
def execFabCellReceive (l : Nat) (cell : List Byte) (s : State) : Host.Outcome State Fault Refusal :=
  let h := leNat (cell.take 12)
  let len := bitsAt h 6 9
  let body := cell.take (cell.length - 4)
  let linkSeq := bitsAt h 53 16
  if s.fabState l ≠ 3 ∨ s.fbit Fld.FAB_CFG_EN = false then .next s
  else if cell.length < 16 ∨ leNat (cell.drop (cell.length - 4)) ≠ crc32 body then
    .next ((s.satAdd (Fld.FAB_LINK_CRC_COUNT l) 1).sendNak l)
  else if bitsAt h 0 2 ≠ 0 then .next s
  else if (s.fabLink l).rxSeq ≠ linkSeq then .next (s.sendNak l)
  else
    let express := bitsAt h 4 2 == 1
    let c : FabCell := { level := bitsAt h 4 2, src := bitsAt h 15 11, dst := bitsAt h 26 11, e2e := bitsAt h 37 16
                         express := express, first := bitAt h 2, last := bitAt h 3, err := bitAt h 69
                         payload := (cell.drop 12).take len, pktId := 0, msg := none }
    let key := 2 * c.src + b2n express
    let r := Assoc.get s.tm.reorder reorder0 key
    let ahead := (c.e2e + 65536 - r.next) % 65536
    if ahead ≠ 0 ∧ ahead < 32768 ∧ 8388608 < s.storeBytes + c.payload.length then
      .next ((s.satAdd Fld.FAB_RX_NAK_CNT_COUNT 1).sendNak l)
    else
      match s.acceptLink l linkSeq with
      | none => .next s
      | some s1 =>
        if 32768 ≤ ahead ∨ (Assoc.find r.waiting c.e2e).isSome = true then .next (s1.satAdd Fld.FAB_DUP_CNT_COUNT 1)
        else if ahead = 0 then .next (deliverWaiting r.waiting.length key (s1.deliverCell key c))
        else
          let r' := { r with waiting := Assoc.insert r.waiting c.e2e c }
          .next { s1 with tm := { s1.tm with reorder := Assoc.put s1.tm.reorder reorder0 key r' } }

/-- The number that comes first after `next`. -/
def firstAfter (next : Nat) : List Nat → Option Nat
  | [] => none
  | k :: ks =>
    match firstAfter next ks with
    | none => some k
    | some b => if (k + 65536 - next) % 65536 ≤ (b + 65536 - next) % 65536 then some k else some b

/-- A missing cell has not come: the context moves on, and packets with a missing cell are dropped (R423). -/
def execReorderTimeout (src : Nat) (express : Bool) (s : State) : Host.Outcome State Fault Refusal :=
  let key := 2 * src + b2n express
  let r := Assoc.get s.tm.reorder reorder0 key
  match firstAfter r.next (r.waiting.map (·.1)) with
  | none => .next s
  | some n =>
    let beheaded := match Assoc.find r.waiting n with | some c => !c.first | none => false
    let drops := if r.current.isSome || beheaded then 1 else 0
    let r' := { r with next := n, current := none, err := false, skipping := beheaded }
    let s1 := { s with tm := { s.tm with reorder := Assoc.put s.tm.reorder reorder0 key r' } }
    let s2 := match r.current with
      | some id => s1.updPkt id (Pkt.append [] true true)
      | none => s1
    let s3 := if drops = 0 then s2 else (s2.satAdd Fld.FAB_GAP_DROP_CNT_COUNT drops).setEvent Fld.FAB_EVENT_GAP_DROP
    .next (deliverWaiting r.waiting.length key s3)

/-! ### The credit pump (R426-R431) -/

def flowKey (src q : Nat) : Nat := src * 2 ^ 20 + q

/-- Flows in ascending source device and queue. -/
def putFlow (f : CFlow) (fs : List CFlow) : List CFlow :=
  fs.filter (fun g => decide (flowKey g.src g.queue < flowKey f.src f.queue)) ++ f ::
    fs.filter (fun g => decide (flowKey f.src f.queue < flowKey g.src g.queue))

def State.flowsOn (s : State) (p : Nat) : List CFlow := s.tm.cflows.filter fun f => f.port == p && f.on

def credit0 : CreditState := ⟨0, 0, false, 0, false, [], [], []⟩

def State.credit (s : State) (p : Nat) : CreditState := Assoc.get s.tm.credits credit0 p
def State.setCredit (s : State) (p : Nat) (c : CreditState) : State :=
  { s with tm := { s.tm with credits := Assoc.put s.tm.credits credit0 p c } }

/-- R_p in kb/s (R430). -/
def State.creditRate (s : State) (p n : Nat) : Nat :=
  s.linkRate p * s.fget (Fld.FAB_PORT_CRED_FACTOR n) - s.fget (Fld.FAB_PORT_EXPRES_KBPS n)

/-- Tokens brought up to date, with a burst of one credit; none are saved while no flow is ON. -/
def State.creditRefill (s : State) (n : Nat) : State :=
  let c := s.credit n
  let h : Shaper := (⟨true, false, s.creditRate (s.bindPort n) n, s.creditBytes, c.tokens, c.last⟩ : Shaper).refill s.shapeTime
  let t := if (s.flowsOn (s.bindPort n)).isEmpty then min c.tokens 0 else h.t
  s.setCredit n { c with tokens := t, last := s.shapeTime }

/-- A credit or rejection message to a source (R428). -/
def State.grantMsg (s : State) (src q granted epoch : Nat) (reject : Bool) : State :=
  (s.queueCell ⟨0, s.devId, src, 0, false, false, false, false, [], 0, some (.creditGrant src q granted epoch reject)⟩).drainCells

/-- The credit pump handles a status message. -/
def execCreditStatusReceive (l linkSeq src port q tc weight : Nat) (on : Bool) (s : State) : Host.Outcome State Fault Refusal :=
  if s.fabState l ≠ 3 ∨ s.fbit Fld.FAB_CFG_EN = false then .next s
  else
    match s.acceptLink l linkSeq with
    | none => .next (s.sendNak l)
    | some s1 =>
      let s2 := match s1.lineNode port with | some n => s1.creditRefill n | none => s1
      match s2.tm.cflows.find? fun f => f.src == src && f.queue == q with
      | some f =>
        let f' := if on then { f with on := true, tc := tc, weight := weight } else { f with on := false }
        .next { s2 with tm := { s2.tm with cflows := putFlow f' s2.tm.cflows } }
      | none =>
        if !on then .next s2
        else if 131072 ≤ s2.tm.cflows.length then
          .next (((s2.satAdd Fld.FAB_CFLOW_REJ_CNT_COUNT 1).setEvent Fld.FAB_EVENT_CFLOW_FULL).grantMsg src q 0 0 true)
        else
          let e := (Assoc.get s2.tm.epochs 0 (flowKey src q) + 1) % 256
          let f : CFlow := ⟨src, q, port, tc, weight, true, e, 0, 0⟩
          .next { s2 with tm := { s2.tm with cflows := putFlow f s2.tm.cflows, epochs := Assoc.put s2.tm.epochs 0 (flowKey src q) e } }

/-- A flow OFF for CF_IDLE_US is removed. -/
def execCflowIdleExpiry (src q : Nat) (s : State) : Host.Outcome State Fault Refusal :=
  .next { s with tm := { s.tm with cflows := s.tm.cflows.filter fun f => !(f.src == src && f.queue == q && !f.on) } }

/-- Fabric-received bytes held in queues below a node (R430). -/
def State.fabricHeld (s : State) (n : Nat) : Nat :=
  s.tm.queues.foldl (fun m kv => kv.2.pkts.foldl (fun k x => if x.pkt.fromFabric ∧ x.node = n then k + x.charge else k) m) 0

/-- Whether generation has to stop; a stopped one resumes at GO_KB. -/
def State.creditStop (s : State) (n : Nat) : Bool :=
  let held := s.fabricHeld n
  s.portState (s.bindPort n) != 5 || !s.fbit (Fld.FAB_PORT_CRED_EN n)
    || decide (1024 * s.fget (Fld.FAB_PORT_STOP_STOP_KB n) ≤ held)
    || ((s.credit n).stopped && decide (1024 * s.fget (Fld.FAB_PORT_STOP_GO_KB n) < held))

/-- One turn of deficit round robin in credit units over (index, quantum, deficit) with ascending indexes, from a pointer: the
chosen index, the deficits, the pointer and whether the turn goes on. -/
def creditDrr : Nat → List (Nat × Nat × Int) → Nat → Bool → Option (Nat × List (Nat × Int))
  | 0, _, _, _ => none
  | fuel + 1, es, ptr, inTurn =>
    let c := atOrAfter (es.map (·.1)) ptr
    match es.find? (·.1 == c) with
    | none => none
    | some (_, q, d) =>
      let d' := if inTurn && c == ptr then d else min (d + q) q
      if 0 < d' then some (c, es.map fun e => if e.1 = c then (e.1, d' - 1) else (e.1, e.2.2))
      else creditDrr fuel (es.map fun e => if e.1 = c then (e.1, e.2.1, d') else e) (c + 1) false

/-- The flow a credit goes to (R431), and the state of the round robins after it. -/
def State.chooseFlow (s : State) (n : Nat) (fs : List CFlow) (c : CreditState) : Option (CFlow × CreditState × List CFlow) :=
  let strict := s.fget (Fld.FAB_PORT_CRED_STRICT_TC n)
  let key := fun (f : CFlow) => flowKey f.src f.queue
  match (List.range 8).reverse.find? fun k => bitAt strict k && fs.any (·.tc == k) with
  | some k =>
    let mine := fs.filter (·.tc == k)
    let i := atOrAfter (mine.map key) (Assoc.get c.flowPtr 0 k)
    match mine.find? fun f => key f == i with
    | some f => some (f, { c with flowPtr := Assoc.put c.flowPtr 0 k (i + 1) }, [])
    | none => none
  | none =>
    let tcs := (List.range 8).filter fun k => fs.any (·.tc == k)
    let es := tcs.map fun k => (k, s.fget (Fld.FAB_PORT_TCW_TCW n k) + 1, Assoc.get c.tcDeficit 0 k)
    match creditDrr (es.length * 3 + 1) es c.tcPtr c.tcInTurn with
    | none => none
    | some (k, ds) =>
      let left := Assoc.get ds 0 k
      let c1 := { c with tcDeficit := ds.foldl (fun (m : Assoc Int) (x : Nat × Int) => Assoc.put m 0 x.1 x.2) c.tcDeficit
                         tcPtr := if 0 < left then k else k + 1, tcInTurn := decide (0 < left) }
      let mine := fs.filter (·.tc == k)
      let fe := mine.map fun f => (key f, max 1 f.weight, f.deficit)
      match creditDrr (fe.length * 3 + 1) fe (Assoc.get c.flowPtr 0 k) (Assoc.get c.flowInTurn false k) with
      | none => none
      | some (i, fd) =>
        let fl := Assoc.get fd 0 i
        let c2 := { c1 with flowPtr := Assoc.put c1.flowPtr 0 k (if 0 < fl then i else i + 1)
                            flowInTurn := Assoc.put c1.flowInTurn false k (decide (0 < fl)) }
        match mine.find? fun f => key f == i with
        | some f => some (f, c2, mine.map fun g => { g with deficit := Assoc.get fd 0 (key g) })
        | none => none

/-- The credit pump generates a credit for a port, when its tokens allow it and a flow is ON, and grants it. -/
def execCreditGenerate (port : Nat) (s : State) : Host.Outcome State Fault Refusal :=
  match s.lineNode port with
  | none => .next s
  | some n =>
    let s1 := s.creditRefill n
    let stop := s1.creditStop n
    let s2 := s1.setCredit n { s1.credit n with stopped := stop }
    let fs := s2.flowsOn port
    if stop ∨ fs = [] ∨ (s2.credit n).tokens < 0 ∨ s2.fbit Fld.FAB_CFG_EN = false then .next s2
    else
      match s2.chooseFlow n fs (s2.credit n) with
      | none => .next s2
      | some (f, c, changed) =>
        let g := (f.granted + 1) % 2 ^ 32
        let cost : Int := s2.creditBytes * 1000000000
        let flows := changed.foldl (fun m x => putFlow x m) s2.tm.cflows
        let f1 := (flows.find? fun x => x.src == f.src && x.queue == f.queue).getD f
        let s3 := { s2 with tm := { s2.tm with cflows := putFlow { f1 with granted := g } flows } }
        .next (((s3.setCredit n { c with tokens := c.tokens - cost }).grantMsg f.src f.queue g f.epoch false).pmc 0x832 n 0 1)

/-- A source queue takes a grant or a rejection (R427, R428). `epochSeen` holds the epoch plus 1. -/
def execGrantReceive (l linkSeq q epoch granted : Nat) (reject : Bool) (s : State) : Host.Outcome State Fault Refusal :=
  if s.fabState l ≠ 3 ∨ s.fbit Fld.FAB_CFG_EN = false then .next s
  else
    match s.acceptLink l linkSeq with
    | none => .next (s.sendNak l)
    | some s1 =>
      let qu := s1.queue q
      let cap := 4 * s1.creditBytes
      if !qu.attached then .next s1
      else if reject then .next (s1.setQueue q { qu with rejected := true })
      else if qu.epochSeen = epoch + 1 then
        let d := (granted + 2 ^ 32 - qu.granted) % 2 ^ 32
        if d = 0 ∨ 2 ^ 31 ≤ d then .next s1
        else .next (s1.setQueue q { qu with balance := min (qu.balance + d * s1.creditBytes) cap, granted := granted, rejected := false })
      else
        .next (s1.setQueue q { qu with balance := min (qu.balance + granted * s1.creditBytes) cap, granted := granted
                                       epochSeen := epoch + 1, rejected := false })

/-- An ON queue repeats its status. -/
def execStatusRefresh (q : Nat) (s : State) : Host.Outcome State Fault Refusal :=
  if (s.queue q).onSent ∧ s.tm.reachable.contains (qdDestDev (s.queue q).desc) = true then .next (s.statusMsg q true) else .next s

/-- A rejected source repeats its ON. -/
def execCflowRejectRetry (q : Nat) (s : State) : Host.Outcome State Fault Refusal :=
  let qu := s.queue q
  if qu.rejected ∧ qu.pkts ≠ [] then .next ((s.setQueue q { qu with rejected := false, onSent := true }).statusMsg q true) else .next s

/-! ### Local switch (R434-R438) -/

/-- A virtual output queue can send a switch cell: 512 bytes, or what is left of a packet whose end has come. -/
def voqReady : List VoqPkt → Bool
  | v :: _ => v.qp.pkt.complete || decide (v.sent + 512 ≤ v.qp.pkt.bytes.length)
  | [] => false

/-- The levels 1 to 3 at which input i requests output o, highest first. -/
def State.requests (s : State) (i o : Nat) : List Nat := [1, 2, 3].filter fun lv => voqReady (s.voqOf i o lv)

/-- The first element of `xs` at or after `p` in cyclic order of 16. -/
def cyclicFrom (p : Nat) (xs : List Nat) : Option Nat := ((List.range 16).map fun k => (p + k) % 16).find? xs.contains

/-- The best (lowest) level of a list. -/
def bestLevel (ls : List Nat) : Nat := ls.foldl min 4

/-- The grant of an output among the unmatched inputs: input and level. -/
def State.grantOf (s : State) (free : List Nat) (o : Nat) : Option (Nat × Nat) :=
  let lv := bestLevel (free.flatMap fun i => s.requests i o)
  if lv = 4 then none
  else
    (cyclicFrom (Assoc.get s.tm.gptr 0 (4 * o + lv)) (free.filter fun i => (s.requests i o).contains lv)).map fun i => (i, lv)

/-- One iteration of R436: new matches of (input, output), pointers moved in the first. -/
def State.matchRound (s : State) (first : Bool) (matched : List (Nat × Nat)) : State × List (Nat × Nat) :=
  let freeIn := (List.range 16).filter fun i => !matched.any (·.1 == i)
  let freeOut := (List.range 16).filter fun o => s.sliceOn o && !matched.any (·.2 == o)
  let grants := freeOut.filterMap fun o => (s.grantOf freeIn o).map fun g => (o, g.1, g.2)
  let accept := freeIn.filterMap fun i =>
    let mine := grants.filter (·.2.1 == i)
    let lv := bestLevel (mine.map (·.2.2))
    (cyclicFrom (Assoc.get s.tm.aptr 0 (4 * i + lv)) ((mine.filter (·.2.2 == lv)).map (·.1))).map fun o => (i, o, lv)
  let move := fun (t : State) (m : Nat × Nat × Nat) =>
    { t with tm := { t.tm with gptr := Assoc.put t.tm.gptr 0 (4 * m.2.1 + m.2.2) ((m.1 + 1) % 16)
                               aptr := Assoc.put t.tm.aptr 0 (4 * m.1 + m.2.2) ((m.2.1 + 1) % 16) } }
  (if first then accept.foldl move s else s, matched ++ accept.map fun m => (m.1, m.2.1))

/-- A packet reaches the egress half of a slice. -/
def State.toEgress (s : State) (o : Nat) (p : Pkt) : State :=
  { s with tm := { s.tm with egressIn := Assoc.put s.tm.egressIn [] o (Assoc.get s.tm.egressIn [] o ++ [p]) } }

/-- A matched pair sends one switch cell of its highest virtual output queue (R436, R437). -/
def State.switchCell (s : State) (io : Nat × Nat) : State :=
  let i := io.1
  let o := io.2
  match s.requests i o with
  | [] => s
  | lv :: _ =>
    match s.voqOf i o lv with
    | [] => s
    | v :: rest =>
      let p := v.qp.pkt
      let sent := min (v.sent + 512) p.bytes.length
      let fin := p.complete && decide (p.bytes.length ≤ v.sent + 512)
      let now := if fin then rest else { v with sent := sent } :: rest
      let s1 := { s with tm := { s.tm with voq := Assoc.put s.tm.voq [] (voqKey i o lv) now } }
      let s2 := ((s1.satAdd (Fld.LSW_OUT_CELLS_COUNT o) 1).satAdd (Fld.LSW_IN_CELLS_COUNT i) 1).pmc 0x840 o 0 1
      if (if p.md.express then v.sent = 0 else fin) then s2.toEgress o p else s2

/-- One cell time of the local switch: four iterations of matching, then one switch cell for each pair. -/
def execSwitchMatching (s : State) : Host.Outcome State Fault Refusal :=
  if s.fbit Fld.LSW_CFG_EN = false ∨ s.stoppedForwarding = true then .next s
  else
    match s.matchRound true [] with
    | (s1, m1) =>
      let m4 := (List.range 3).foldl (fun m _ => (s1.matchRound false m).2) m1
      .next (m4.foldl State.switchCell s1)

/-! ### Departure (11 R329, 14 R417) -/

/-- The last byte of a released packet has been read: its charge is removed, and the Sump keeps the cells of what is not acknowledged. -/
def execPacketDeparture (id : Nat) (s : State) : Host.Outcome State Fault Refusal :=
  match s.tm.leaving.find? (·.pkt.id == id) with
  | none => .next s
  | some x =>
    if (s.tm.voq.any fun kv => kv.2.any fun v => v.qp.pkt.id == id) || s.tm.cutQ.any (·.pkt.id == id) then .next s
    else
      let out := s.cellsOut id
      let kept := if out = 0 then s.tm.kept else s.tm.kept ++ [(id, x.place, out)]
      .next (({ s with tm := { s.tm with leaving := s.tm.leaving.filter (·.pkt.id != id), kept := kept } }).acctChanged x)

/-! ### Admission and the decision of a port node -/

/-- The packet at the head of an input of admission is decided (11 R327-R329); `ecc`: the state of its TM-side policer fails SEC-DED. After a
fatal error every packet is dropped, and nothing counts (18 R533 step 2). -/
def execAdmission (input : Nat) (ecc : Bool) (s : State) : Host.Outcome State Fault Refusal :=
  match Assoc.get s.tm.inputs [] input with
  | [] => .next s
  | p :: rest =>
    let s1 := { s with tm := { s.tm with inputs := Assoc.put s.tm.inputs [] input rest } }
    if s.off || s.err.fatal == .frozen then .next s
    else if s.stoppedForwarding then .next s1
    else .next (s1.admitPkt ecc p)

/-- A port node descends its hierarchy and releases the head of a queue (12 R358-R361); without transmit room nothing moves. -/
def execSchedulerDecision (node ue cell : Nat) (s : State) : Host.Outcome State Fault Refusal :=
  if s.fbit Fld.SCH_CFG_EN = false ∨ s.stoppedForwarding = true ∨ s.eligible 4 node = false then .next s
  else
    match State.pickQueue 4 node s with
    | (s1, some q) =>
      match (s1.queue q).pkts with
      | h :: _ =>
        if s1.bindKind node = 1 ∧ s1.voqRoom q (s1.queueLink q node) h.pkt = false then .next s
        else .next (((s1.pmc 0x820 node 0 1).sumpError q ue cell).releaseHead q node false)
      | [] => .next s
    | (_, none) => .next s

/-! ### Commands (R440) -/

/-- FAB_EXP_SET, or its READ. -/
def fabExpSet (c : Cmd) (s : State) : Host.Outcome State Fault Refusal :=
  runCmd 0x0930 1 1 c s fun s =>
    let d := bitsAt c.arg0 0 11
    let burst := bitsAt c.arg1 32 32
    if c.resv [(0, 11), (16, 1), (24, 1)] [(0, 64)] [] then fail stBadPayload s
    else if bitAt c.arg0 24 = false ∧ bitAt c.arg0 16 = true ∧ burst < 64 then fail stBadPayload s
    else
      let h := Shaper.configure s.shapeTime (bitAt c.arg0 16) false (bitsAt c.arg1 0 32) burst
      let s1 := if bitAt c.arg0 24 then s else { s with tm := { s.tm with expBuckets := Assoc.put s.tm.expBuckets shaper0 d h } }
      let e := Assoc.get s1.tm.expBuckets shaper0 d
      ok s1 (d + 2 ^ 16 * b2n e.en) (e.rate + 2 ^ 32 * e.burst)

def execFabExpSet (c : Cmd) (s : State) : Host.Outcome State Fault Refusal := fabExpSet c s

def execFabExpRead (c : Cmd) (s : State) : Host.Outcome State Fault Refusal := fabExpSet c s

def execFabCflowRead (c : Cmd) (s : State) : Host.Outcome State Fault Refusal :=
  runCmd 0x0931 1 1 c s fun s =>
    let q := bitsAt c.arg0 0 20
    let qu := s.queue q
    if c.resv [(0, 20)] [] [] then fail stBadPayload s
    else
      match s.queuePort q with
      | none => fail stState s
      | some n =>
        if s.bindKind n ≠ 2 then fail stState s
        else ok s (qu.balance + 2 ^ 32 * b2n qu.onSent + 2 ^ 33 * b2n qu.rejected + 2 ^ 40 * (qu.epochSeen - 1)) qu.granted

end Sys2Proof.Machine
end

