-- ==== Sys2Proof/Machine/Dln.lean ====
section
/-! DEFINITION. Deadline traffic (13 R380-R411): profiles, the express arbiter, late packets, the ports' FIFOs and choice of a frame,
time-aware gates, frame preemption, and the deadline commands. -/

namespace Sys2Proof.Machine

open Sys2Proof

/-! ### Late packets (R384, R391) -/

/-- Instant `t` (ns) is after LDT. -/
def afterLdt (t ldt : Nat) : Bool :=
  let d := (t % 2 ^ 32 + 2 ^ 32 - ldt) % 2 ^ 32
  decide (1 ≤ d) && decide (d < 2 ^ 31)

/-- The packet carries a deadline: its profile's budget at the source, the LDT of R383 at the destination. -/
def State.hasDeadline (s : State) (p : Pkt) : Bool :=
  s.fbit Fld.DLN_CFG_EN && (if p.fromFabric then p.ldtV else (s.dlnProfOf p.md.queue).budget != 0)

/-! ### Express release (R387, R389, R390) -/

/-- The egress encapsulation names a template with a length to write ahead of the body. -/
def State.lengthTemplate (s : State) (p : Pkt) : Bool :=
  if p.md.encap = 0 ∨ p.md.flags / 64 % 2 = 1 then false
  else
    match s.idxVer s.tab.encap p.md.gen p.md.encap with
    | none => false
    | some e =>
      match s.idxVer s.tab.tmpl p.md.gen (encTemplate e.val.bits) with
      | none => false
      | some t => tmplIpOff t.val.bits != 0xFF || tmplUdpOff t.val.bits != 0xFF

/-- The packet may be released from its first cell (R387, 14 R425). -/
def State.cutThrough (s : State) (n k : Nat) (p : Pkt) : Bool :=
  s.bindKind n == 2
    || (decide (s.linkRate k ≤ p.inRate) && !bitAt p.md.flags 3 && p.direct.isNone && !s.lengthTemplate p)

/-- Express packets released to a link that have not left it, each once. -/
def State.expressHeld (s : State) (k : Nat) : List Pkt :=
  let sw := s.tm.voq.flatMap fun kv => kv.2.map fun v => v.qp.pkt
  let eg := s.tm.egressIn.flatMap fun kv => kv.2
  let t := s.ptx k
  let mine := (sw ++ eg).filter fun p => p.md.express && p.link == k
  let fifo := t.express.map (·.pkt) ++ (match t.sending with | some f => [f.pkt] | none => [])
  (fifo ++ mine).foldl (fun ps p => if ps.any (·.id == p.id) then ps else ps ++ [p]) []

/-- Bytes charged to the express FIFO of 64 KiB. -/
def State.expressBytes (s : State) (k : Nat) : Nat := (s.expressHeld k).foldl (fun n p => n + p.len) 0

def State.expressRoom (s : State) (k : Nat) : Bool := decide (s.expressBytes k + s.linkMaxFrame k ≤ 65536)

/-- The express credit of a destination device (14 R432). -/
def State.expressCredit (s : State) (d : Nat) : Bool :=
  let b := Assoc.get s.tm.expBuckets shaper0 d
  d != s.devId && b.en && decide (0 ≤ (b.refill s.shapeTime).t)

/-- An express queue is a candidate at a port node, FIFO room apart. -/
def State.candidate (s : State) (n q : Nat) : Bool :=
  let qu := s.queue q
  match qu.pkts with
  | [] => false
  | h :: _ =>
    let k := s.queueLink q n
    qdClass qu.desc == 3 && !qu.detaching && s.queuePort q == some n && headReady qu
      && (h.pkt.complete || s.cutThrough n k h.pkt) && !s.queueHeld q n
      && (if s.bindKind n = 1 then s.linkServed k else s.fbit Fld.FAB_CFG_EN && s.expressCredit (qdDestDev qu.desc))

/-- The candidate with the earliest LDT; on equal LDT the lowest queue. -/
def earliestLdt (s : State) : List Nat → Option Nat
  | [] => none
  | q :: qs =>
    match earliestLdt s qs with
    | none => some q
    | some b =>
      let ldt := fun x => match (s.queue x).pkts with | h :: _ => h.pkt.md.ldt | [] => 0
      if afterLdt (ldt q) (ldt b) then some b else some q

/-- The release itself: counted, debited, on its way (R361, R373, R387). -/
def State.expressGo (s : State) (q n : Nat) (h : QPkt) (late : Bool) (ue cell : Nat) : State :=
  let k := s.queueLink q n
  let s1 := (s.dlnAdd n 0).pmc 0x821 n 0 1
  let s2 := if s.cutThrough n k h.pkt then s1 else s1.dlnAdd n 4
  let s3 :=
    if s.bindKind n = 2 then
      let d := qdDestDev (s.queue q).desc
      let b := ((Assoc.get s2.tm.expBuckets shaper0 d).refill s2.shapeTime).debit (s2.fabricLen h.pkt)
      { s2 with tm := { s2.tm with expBuckets := Assoc.put s2.tm.expBuckets shaper0 d b } }
    else s2
  (s3.sumpError q ue cell).releaseHead q n late

/-- The release check of a head that carries a deadline (R391). -/
def State.releaseCheck (s : State) (q n : Nat) (h : QPkt) (ue cell : Nat) : State :=
  let tail := s.fget (Fld.DLN_NODE_TAIL_TAIL_NS n)
  if s.hasDeadline h.pkt ∧ afterLdt (s.nowNs + tail) h.pkt.md.ldt = true then
    let s1 := (s.setEvent Fld.DLN_EVENT_LATE).pmc 0x822 n 0 1
    let act := (s.dlnProfOf q).lateAct
    if act = 0 then (((s1.dlnAdd n 1).takeQueued q h.pkt.id).dropped h).settleQueue q
    else if s.bindKind n = 1 ∧ act = 1 then (s1.dlnAdd n 2).expressGo q n h true ue cell
    else (s1.dlnAdd n 3).expressGo q n h false ue cell
  else s.expressGo q n h false ue cell

/-- The express arbiter of a port node (R389): one release, or a cycle of waiting for the express FIFO; `ue` and `cell` say what its
units meet in the Sump. -/
def execExpressRelease (node ue cell : Nat) (s : State) : Host.Outcome State Fault Refusal :=
  if s.fbit Fld.SCH_CFG_EN = false ∨ s.stoppedForwarding = true ∨ s.fbit (Fld.SCH_PORT_BIND_EN node) = false then .next s
  else
    let all := (s.tm.queues.map (·.1)).filter fun q => s.candidate node q
    let free := all.filter fun q =>
      s.bindKind node != 1 || (s.expressRoom (s.queueLink q node)
        && (match (s.queue q).pkts with | h :: _ => s.voqRoom q (s.queueLink q node) h.pkt | [] => false))
    match earliestLdt s free with
    | some q =>
      match (s.queue q).pkts with
      | h :: _ => .next (s.releaseCheck q node h ue cell)
      | [] => .next s
    | none => .next (if all.isEmpty then s else s.dlnAdd node 5)

/-! ### Gates (R397-R400) -/

def gateBank0 : GateBank := ⟨[], 0, 0, 0, 0⟩
def gate0 : GateState := ⟨gateBank0, gateBank0, false, 0⟩

def State.gate (s : State) (p : Nat) : GateState := Assoc.get s.tm.gates gate0 p
def State.setGate (s : State) (p : Nat) (g : GateState) : State :=
  { s with tm := { s.tm with gates := Assoc.put s.tm.gates gate0 p g } }

/-- The bank in operation, and the other. -/
def State.operBank (s : State) (p : Nat) : GateBank :=
  if s.fbit (Fld.DLN_PORT_STATUS_OPER_BANK p) then (s.gate p).bankB else (s.gate p).bankA
def State.otherBank (s : State) (p : Nat) : GateBank :=
  if s.fbit (Fld.DLN_PORT_STATUS_OPER_BANK p) then (s.gate p).bankA else (s.gate p).bankB

def State.gclPending (s : State) (p : Nat) : Bool := s.fbit (Fld.DLN_PORT_STATUS_PENDING p)

/-- Offset of instant `t` in its cycle, and the cycle's start. -/
def GateBank.offset (b : GateBank) (t : Nat) : Nat := (((t : Int) - b.base) % (max 1 b.cycle : Nat)).toNat

/-- The entry at an offset of a cycle: its value and the offset at which it ends (the last one at the cycle's end). -/
def entryAt (b : GateBank) : Nat → Nat → Nat → Nat → Nat × Nat
  | 0, _, _, _ => (255 * 2 ^ 30, b.cycle)
  | fuel + 1, i, start, off =>
    let e := Assoc.get b.entries 0 i
    let stop := start + bitsAt e 0 30
    if b.length ≤ i + 1 then (e, b.cycle)
    else if off < stop then (e, min stop b.cycle)
    else entryAt b fuel (i + 1) stop off

/-- The entry in force at instant `t`, and the instant at which the next may take effect. -/
def GateBank.at (b : GateBank) (t : Nat) : Nat × Nat :=
  let off := b.offset t
  match entryAt b 1024 0 0 off with
  | (e, stop) => (e, t + (stop - off))

/-- The last entry of a list. -/
def GateBank.last (b : GateBank) : Nat := Assoc.get b.entries 0 (b.length - 1)

/-- The entry in force on a port at instant `t`, with the end of its state: a pending switch cuts the old list at CCT, or holds its
last state until CCT when less than EXT_NS is missing (R402). `none` while no list has been switched in. -/
def State.gateAt (s : State) (p t : Nat) : Option (Nat × Nat) :=
  let g := s.gate p
  let old := s.operBank p
  if s.gclPending p then
    if g.cct ≤ t then some ((s.otherBank p).at t)
    else if !g.running then some (255 * 2 ^ 30, g.cct)
    else
      let start := g.cct - old.offset g.cct
      if start ≤ t ∧ 0 < g.cct - start ∧ g.cct - start < (s.otherBank p).ext then some (old.last, g.cct)
      else match old.at t with | (e, stop) => some (e, min stop g.cct)
  else if g.running then some (old.at t)
  else none

/-- The gates of a port at instant `t`: all open with GATE_EN 0 or before the first switch. -/
def State.gatesAt (s : State) (p t : Nat) : Nat :=
  if s.fbit (Fld.DLN_PORT_CFG_GATE_EN p) then match s.gateAt p t with | some (e, _) => bitsAt e 30 8 | none => 255 else 255

/-- Gate k of a port is open from `t` to `stop`; `fuel` bounds the transitions. -/
def State.gateOpen (s : State) (p k stop : Nat) : Nat → Nat → Bool
  | 0, _ => true
  | fuel + 1, t =>
    bitAt (s.gatesAt p t) k
      && (match s.gateAt p t with
        | some (_, e) => if stop ≤ e then true else s.gateOpen p k stop fuel (max e (t + 1))
        | none => true)

/-- An interval ends and the next gate states take effect; a hold begins with OP 1 and ends with OP 2 while preemption is active. -/
def execGateTransition (port : Nat) (s : State) : Host.Outcome State Fault Refusal :=
  match s.gateAt port s.nowNs with
  | none => .next s
  | some (e, _) =>
    let s1 := s.fset (Fld.DLN_PORT_STATUS_GATES port) (s.gatesAt port s.nowNs)
    let active := s.fbit (Fld.DLN_PORT_STATUS_PREEMPT_ACTIVE port)
    let op := bitsAt e 38 2
    if active ∧ op = 1 ∧ s.fbit (Fld.DLN_PORT_STATUS_HOLD port) = false then
      .next ((s1.fset (Fld.DLN_PORT_STATUS_HOLD port) 1).dlnAdd (4096 + port) 9)
    else if active ∧ op = 2 then .next (s1.fset (Fld.DLN_PORT_STATUS_HOLD port) 0)
    else .next s1

/-! ### Preemption (R404, R405) -/

/-- The port is declared up: preemption becomes active, or its verification begins. -/
def State.preemptUp (s : State) (p : Nat) : State :=
  if !s.fbit (Fld.DLN_PORT_CFG_PREEMPT_EN p) then s
  else if !s.fbit (Fld.DLN_PORT_CFG_VERIFY_EN p) then s.fset (Fld.DLN_PORT_STATUS_PREEMPT_ACTIVE p) 1
  else
    let s1 := s.setPtx p { s.ptx p with attempts := 1 }
    ((s1.fset (Fld.DLN_PORT_STATUS_VERIFY p) 1).dlnAdd (4096 + p) 10).emit (.verifyPacket p false)

/-- The port leaves UP: preemption ends until the next up declaration. -/
def State.preemptDown (s : State) (p : Nat) : State :=
  ((s.fset (Fld.DLN_PORT_STATUS_PREEMPT_ACTIVE p) 0).fset (Fld.DLN_PORT_STATUS_VERIFY p) 0).fset (Fld.DLN_PORT_STATUS_HOLD p) 0

/-- VERIFY_MS has passed without a response: the next of three attempts, or failure. -/
def execVerifyAttempt (port : Nat) (s : State) : Host.Outcome State Fault Refusal :=
  if s.fget (Fld.DLN_PORT_STATUS_VERIFY port) ≠ 1 then .next s
  else
    let t := s.ptx port
    if t.attempts < 3 then
      .next (((s.setPtx port { t with attempts := t.attempts + 1 }).dlnAdd (4096 + port) 10).emit (.verifyPacket port false))
    else .next ((s.fset (Fld.DLN_PORT_STATUS_VERIFY port) 3).setEvent Fld.DLN_EVENT_VERIFY_FAIL)

def execVerifyResponse (port : Nat) (s : State) : Host.Outcome State Fault Refusal :=
  if s.fget (Fld.DLN_PORT_STATUS_VERIFY port) ≠ 1 then .next s
  else .next ((s.fset (Fld.DLN_PORT_STATUS_VERIFY port) 2).fset (Fld.DLN_PORT_STATUS_PREEMPT_ACTIVE port) 1)

/-- SPEED codes of MAC ports that have the merge sublayer: 10 to 400 Gb/s. -/
def State.canPreempt (s : State) (p : Nat) : Bool :=
  decide (s.fget (Fld.PRT_PORT_CFG_SPEED (p / 8) (p % 8)) ≤ 5) && !s.fbit (Fld.PRT_PORT_CFG_FLEXE (p / 8) (p % 8))

def State.isFlexePhy (s : State) (p : Nat) : Bool := s.fbit (Fld.PRT_PORT_CFG_FLEXE (p / 8) (p % 8))
def State.portEn (s : State) (p : Nat) : Bool := s.fbit (Fld.PRT_PORT_CFG_EN (p / 8) (p % 8))

/-- A value held between limits. -/
def clampTo (lo hi x : Nat) : Nat := min hi (max lo x)

/-- A write of DLN_PORT_CFG (R404); TC_KB and VERIFY_MS read back inside their limits, a FlexE PHY's registers ignore writes. -/
def State.hookDlnPort (s : State) (p v : Nat) : State :=
  let changed := bitsAt v 1 4 != bitsAt (s.reg (Reg.DLN_PORT_CFG p)).toNat 1 4
  if s.isFlexePhy p ∧ bitAt v 1 = false then s
  else if (bitAt v 1 ∧ s.canPreempt p = false) ∨ (changed ∧ s.portEn p = true) then s.setEvent Fld.DLN_EVENT_CFG_ERR
  else
    let v1 := putBits (putBits (putBits v 16 8 (clampTo 10 128 (bitsAt v 16 8))) 24 8 (clampTo 1 128 (bitsAt v 24 8))) 5 3 0
    s.setReg (Reg.DLN_PORT_CFG p) (BitVec.ofNat 32 v1)

/-! ### The ports' choice of a frame (R394, R395, R400) -/

/-- Length on the line from the destination address to the FCS: padded to 64 bytes (04 R129). -/
def wireLen (p : Pkt) : Nat := max 64 ((if p.complete then p.bytes.length else p.maxFrame) + 4)

/-- The minimum fragment (R405). -/
def State.minFragment (s : State) (p : Nat) : Nat := 64 * (1 + s.fget (Fld.DLN_PORT_CFG_ADD_FRAG_SIZE p))

/-- A frame of class k that needs `bytes` on the line may start at once (R400). -/
def State.gatePass (s : State) (link k bytes : Nat) : Bool :=
  if 128 ≤ link then true
  else
    let d := ceilDiv (bytes * 8000) (s.linkRate link)
    s.gateOpen link k (s.nowNs + d) (d / 8 + 1040) s.nowNs

/-- Class k is carried by the express MAC. -/
def State.expressClass (s : State) (link k : Nat) : Bool := decide (link < 128) && bitAt (s.fget (Fld.DLN_PORT_CFG_EXPRESS_TC link)) k

/-- Preemption is active on a link. -/
def State.preempting (s : State) (link : Nat) : Bool := decide (link < 128) && s.fbit (Fld.DLN_PORT_STATUS_PREEMPT_ACTIVE link)

/-- The head of FIFO k (8: the express FIFO) of a link. -/
def PortTx.head (t : PortTx) (k : Nat) : Option TxFrame := if k = 8 then t.express.head? else (Assoc.get t.classes [] k).head?

/-- Bytes of gate time a head needs: a preemptable frame only its minimum fragment. -/
def State.gateNeed (s : State) (link k : Nat) (f : TxFrame) : Nat :=
  if k < 8 ∧ s.preempting link = true ∧ s.expressClass link k = false then min (s.minFragment link) (wireLen f.pkt - f.sent)
  else wireLen f.pkt - f.sent

/-- A head may start now: its gate admits it, and no hold stops a preemptable one. -/
def State.mayStart (s : State) (link k : Nat) (f : TxFrame) : Bool :=
  let cls := if k = 8 then f.pkt.md.tc else k
  s.gatePass link cls (s.gateNeed link k f)
    && (k == 8 || s.expressClass link k || !(s.preempting link && s.fbit (Fld.DLN_PORT_STATUS_HOLD link)))

/-- The oldest of the heads of some FIFOs. -/
def PortTx.oldest (t : PortTx) (ks : List Nat) : Option Nat :=
  ks.foldl (fun b k =>
    match t.head k, b with
    | none, b => b
    | some _, none => some k
    | some f, some b' => match t.head b' with | some g => if f.seq < g.seq then some k else some b' | none => some k) none

/-- The FIFO the port grants (R395): the express head, the classes of the express MAC, then the preemptable ones, oldest first. While
a preempted frame waits for its rest no other preemptable frame starts; 9 stands for it. -/
def State.grantFrom (s : State) (link : Nat) : Option Nat :=
  let t := s.ptx link
  let open' := (List.range 9).filter fun k => match t.head k with | some f => s.mayStart link k f | none => false
  if open'.contains 8 then some 8
  else
    match t.oldest (open'.filter fun k => s.expressClass link k) with
    | some k => some k
    | none =>
      match t.preempted with
      | some f =>
        if s.gatePass link f.pkt.md.tc (s.gateNeed link f.pkt.md.tc f) && !s.fbit (Fld.DLN_PORT_STATUS_HOLD link) then some 9 else none
      | none => t.oldest (open'.filter fun k => !s.expressClass link k)

/-- Heads that wait for their gate are counted once each (R400). -/
def State.countDeferred (s : State) (link : Nat) : State :=
  if 128 ≤ link then s
  else
    let one := fun (t : State) k =>
      match (t.ptx link).head k with
      | none => t
      | some f =>
        let cls := if k = 8 then f.pkt.md.tc else k
        if f.deferred ∨ t.gatePass link cls (t.gateNeed link k f) = true then t
        else
          let x := t.ptx link
          let f' := { f with deferred := true }
          let x' := if k = 8 then { x with express := f' :: x.express.tail }
            else { x with classes := Assoc.put x.classes [] k (f' :: (Assoc.get x.classes [] k).tail) }
          (t.setPtx link x').dlnAdd (4096 + link) 3
    (List.range 9).foldl one s

/-- A packet enters a FIFO of its link: the express FIFO, or that of its class (R394). -/
def State.toFifo (s : State) (p : Pkt) : State :=
  let t := s.ptx p.link
  let f : TxFrame := ⟨p, t.nextSeq, false, 0⟩
  let t' := if p.md.express then { t with express := t.express ++ [f] }
    else { t with classes := Assoc.put t.classes [] p.md.tc (Assoc.get t.classes [] p.md.tc ++ [f]) }
  s.setPtx p.link { t' with nextSeq := t.nextSeq + 1 }

/-- The port leaves UP: every packet of its FIFOs is dropped (R396); a frame in transmission ends with an error code (04 R140). -/
def State.dropFifos (s : State) (k : Nat) : State :=
  let t := s.ptx k
  let fs := t.express ++ t.classes.flatMap fun kv => kv.2
  let drop := fun (u : State) (f : TxFrame) =>
    let u1 := if k < 128 then u.dlnAdd (4096 + k) 4 else u
    (u1.drainDec f.pkt.md.gen).directDone f.pkt none 2
  let s1 := fs.foldl drop s
  let s2 := if fs.isEmpty then s1 else s1.setEvent Fld.DLN_EVENT_TX_FIFO_DROP
  let cut := (match t.preempted with | some f => [f] | none => []) ++ (match t.sending with | some f => [f] | none => [])
  let s3 := cut.foldl (fun u f => ((u.drainDec f.pkt.md.gen).directDone f.pkt none 2).emit (.lineFrame k f.pkt.bytes true)) s2
  s3.setPtx k { t with express := [], classes := [], preempted := none, sending := none }

/-! ### Commands (R410) -/

/-- DLN_PROF_SET, or its READ. -/
def dlnProfSet (c : Cmd) (s : State) : Host.Outcome State Fault Refusal :=
  runCmd 0x0920 1 1 c s fun s =>
    let i := bitsAt c.arg0 0 8
    let new : DlnProfile := ⟨bitsAt c.arg1 0 30, bitsAt c.arg0 8 2, bitsAt c.arg0 10 1, bitsAt c.arg0 16 6⟩
    let read := bitAt c.arg0 24
    if c.resv [(0, 11), (16, 6), (24, 1)] [(0, 30)] [] then fail stBadPayload s
    else if read = false ∧ 1000000000 < new.budget then fail stOutOfRange s
    else if read = false ∧ new.lateAct = 3 then fail stBadPayload s
    else
      let s1 := if read then s else { s with tm := { s.tm with dlnProf := Assoc.put s.tm.dlnProf dlnProf0 i new } }
      let p := Assoc.get s1.tm.dlnProf dlnProf0 i
      ok s1 (i + 2 ^ 8 * p.lateAct + 2 ^ 10 * p.markKind + 2 ^ 16 * p.lateDscp) p.budget

def execDlnProfSet (c : Cmd) (s : State) : Host.Outcome State Fault Refusal := dlnProfSet c s

def execDlnProfRead (c : Cmd) (s : State) : Host.Outcome State Fault Refusal := dlnProfSet c s

/-- DLN_QMAP_SET, or its READ with COUNT 1. -/
def dlnQmapSet (c : Cmd) (s : State) : Host.Outcome State Fault Refusal :=
  runCmd 0x0921 1 1 c s fun s =>
    let first := bitsAt c.arg0 0 20
    let count := bitsAt c.arg0 32 21
    let read := bitAt c.arg1 8
    if c.resv queueFields [(0, 9)] [] then fail stBadPayload s
    else if !rangeOk first count ∨ (read ∧ count ≠ 1) then fail stOutOfRange s
    else
      let put := fun (m : Assoc Nat) i => Assoc.put m 0 (first + i) (bitsAt c.arg1 0 8)
      let s1 := if read then s else { s with tm := { s.tm with dlnMap := (List.range count).foldl put s.tm.dlnMap } }
      ok s1 (Assoc.get s1.tm.dlnMap 0 first) 0

def execDlnQmapSet (c : Cmd) (s : State) : Host.Outcome State Fault Refusal := dlnQmapSet c s

def execDlnQmapRead (c : Cmd) (s : State) : Host.Outcome State Fault Refusal := dlnQmapSet c s

/-- A port number on which no GCL command may act: a FlexE PHY, or one no configured port takes (R411, 00 R5). -/
def State.gclClosed (s : State) (p : Nat) : Bool := s.isFlexePhy p || !s.portEn p

/-- Puts a bank in place of the one not in operation. -/
def State.setOther (s : State) (p : Nat) (b : GateBank) : State :=
  let g := s.gate p
  s.setGate p (if s.fbit (Fld.DLN_PORT_STATUS_OPER_BANK p) then { g with bankA := b } else { g with bankB := b })

def execGclWrite (c : Cmd) (s : State) : Host.Outcome State Fault Refusal :=
  runCmd 0x0922 2 16 c s fun s =>
    let p := bitsAt c.arg0 0 7
    let first := bitsAt c.arg0 16 10
    let count := bitsAt c.arg0 32 10
    let entry := fun i => c.fld (32 + 8 * i) 0 64
    let es := List.range count
    if c.resv [(0, 7), (16, 10), (32, 10)] [] ((List.range (min count (4 * (c.len - 1)))).map fun i => (32 + 8 * i, 0, 64)) then
      fail stBadPayload s
    else if count = 0 ∨ 1024 < first + count then fail stOutOfRange s
    else if 4 * (c.len - 1) < count then fail stBadPayload s
    else if es.any (fun i => decide (bitsAt (entry i) 0 30 < 16) || decide (999999999 < bitsAt (entry i) 0 30)
        || bitsAt (entry i) 38 2 == 3 || bitsAt (entry i) 40 24 != 0) then fail stBadPayload s
    else if s.gclClosed p ∨ s.gclPending p = true then fail stState s
    else
      let b := s.otherBank p
      let put := fun (m : Assoc Nat) i => Assoc.put m 0 (first + i) (entry i)
      ok (s.setOther p { b with entries := es.foldl put b.entries }) count 0

/-- CCT of R402: BASE, or BASE + N x CYCLE_NS, at least 2,000 ns ahead. -/
def cctOf (base cycle now : Nat) : Nat :=
  if now + 2000 ≤ base then base else base + ceilDiv (now + 2000 - base) cycle * cycle

def execGclSet (c : Cmd) (s : State) : Host.Outcome State Fault Refusal :=
  runCmd 0x0923 2 2 c s fun s =>
    let ns := bitsAt c.arg0 0 32
    let sec := bitsAt c.arg0 32 32 + 2 ^ 32 * bitsAt c.arg1 0 16
    let p := bitsAt c.arg1 16 7
    let cycle := c.fld 32 0 32
    let ext := c.fld 36 0 32
    let len := c.fld 40 0 11
    let base := sec * 1000000000 + ns
    if c.resv [(0, 64)] [(0, 23)] [(32, 0, 64), (40, 0, 11)] then fail stBadPayload s
    else if 1000000000 ≤ ns ∨ s.nowNs + 60000000000 < base ∨ cycle < 1000 ∨ 1000000000 < cycle ∨ cycle < ext ∨ len = 0 ∨ 1024 < len then
      fail stOutOfRange s
    else if s.gclClosed p ∨ s.gclPending p = true then fail stState s
    else
      let cct := cctOf base cycle s.nowNs
      let s1 := s.setOther p { s.otherBank p with cycle := cycle, ext := ext, length := len, base := base }
      let s2 := (s1.setGate p { s1.gate p with cct := cct }).fset (Fld.DLN_PORT_STATUS_PENDING p) 1
      let s3 := s2.setInstant (Fld.DLN_PORT_CCT_NS_NS p) (Fld.DLN_PORT_CCT_SEC_LO_SEC p) (Fld.DLN_PORT_CCT_SEC_HI_SEC p) cct
      let csec := cct / 1000000000
      ok s3 (cct % 1000000000 + 2 ^ 32 * (csec % 2 ^ 32))
        (csec / 2 ^ 32 % 2 ^ 16 + 2 ^ 16 * b2n (!s.fbit (Fld.DLN_PORT_STATUS_OPER_BANK p)))

/-- CCT is reached: the banks exchange roles. -/
def execGclSwitch (port : Nat) (s : State) : Host.Outcome State Fault Refusal :=
  if s.gclPending port = false ∨ s.nowNs < (s.gate port).cct then .next s
  else
    let b := s.otherBank port
    let s1 := s.fset (Fld.DLN_PORT_STATUS_OPER_BANK port) (1 - s.fget (Fld.DLN_PORT_STATUS_OPER_BANK port))
    let s2 := ((s1.fset (Fld.DLN_PORT_STATUS_PENDING port) 0).fset (Fld.DLN_PORT_CYCLE_CYCLE_NS port) b.cycle).fset
      (Fld.DLN_PORT_LEN_LENGTH port) b.length
    let s3 := s2.setGate port { s2.gate port with running := true }
    .next ((s3.setEvent Fld.DLN_EVENT_GCL_SWITCHED).fset (Fld.DLN_PORT_STATUS_GATES port) (s3.gatesAt port s3.nowNs))

def execGclCancel (c : Cmd) (s : State) : Host.Outcome State Fault Refusal :=
  runCmd 0x0924 1 1 c s fun s =>
    let p := bitsAt c.arg0 0 7
    if c.resv [(0, 7)] [] [] then fail stBadPayload s
    else if s.gclClosed p ∨ s.gclPending p = false ∨ (s.gate p).cct < s.nowNs + 2000 then fail stState s
    else ok (s.fset (Fld.DLN_PORT_STATUS_PENDING p) 0) 0 0

def execGclRead (c : Cmd) (s : State) : Host.Outcome State Fault Refusal :=
  runCmd 0x0925 2 2 c s fun s =>
    let p := bitsAt c.arg0 0 7
    let first := bitsAt c.arg0 16 10
    let count := bitsAt c.arg0 32 10
    let b := if bitAt c.arg0 8 then (s.gate p).bankB else (s.gate p).bankA
    if c.resv [(0, 7), (8, 1), (16, 10), (32, 10)] [] [(32, 0, 64)] then fail stBadPayload s
    else if count = 0 ∨ 1024 < first + count then fail stOutOfRange s
    else if s.gclClosed p then fail stState s
    else
      let bytes := (List.range count).flatMap fun i => leBytes 8 (Assoc.get b.entries 0 (first + i))
      ok (s.emit (.hostWrite (c.fld 32 0 64) bytes)) (b.cycle + 2 ^ 32 * b.length) b.ext

end Sys2Proof.Machine
end

