-- ==== Sys2Proof/Machine/Rx.lean ====
section
/-! DEFINITION. Frames as they arrive (04 R129-R132, 05 R156, R157): the hold buffer (07 R226), the end of a frame and what waited for it
(13 R385, R388), policing (09 R285). -/

namespace Sys2Proof.Machine

open Sys2Proof

def slice0 : SliceState := ⟨[], [], [], [], [], [], 0, 0, false, false⟩

def State.slice (s : State) (i : Nat) : SliceState := Assoc.get s.path.slices slice0 i
def State.setSlice (s : State) (i : Nat) (v : SliceState) : State :=
  { s with path := { s.path with slices := Assoc.put s.path.slices slice0 i v } }

/-- The slice that serves a port p, or a client c at 128 + c (01 R17, 05 R155). -/
def linkSlice (k : Nat) : Nat := if k < 128 then k / 8 else (k - 128) / 16

/-- The ingress port of a link: a client's is its group's anchor port (05 R157). -/
def State.linkPort (s : State) (k : Nat) : Nat := if k < 128 then k else s.anchorPort (k - 128)

/-- A number for a new packet. -/
def State.newId (s : State) : Nat × State := (s.tm.nextId, { s with tm := { s.tm with nextId := s.tm.nextId + 1 } })

/-- The record of a packet at its first pass, or before it. -/
def freshMeta (stampQ gen inPort inClient : Nat) : Meta :=
  { stampNs := stampQ / 4 % 1000000000, stampQns := stampQ % 4, stampSec := stampQ / 4 / 1000000000, gen := gen
    pass := 0, express := false, color := 0, tc := 0, remarkEn := false, dscp := 0, flags := 0, inPort := inPort
    inClient := inClient, pktLen := 0, queue := 0, destDev := 0, destPort := 0, encap := 0, offL3 := 0x1FF, offL4 := 0x1FF
    offInner := 0x1FF, l3Kind := 0, ptpOp := 0, ptpOff := 0x1FF, session := 0, copyKind := 0, ldt := 0, cookie := 0 }

/-! ### Policing (09 R285) -/

/-- What policing decides. -/
structure Policed where
  colour : Colour
  /-- COLOR as the record takes it: a PRECOLOR of 3 counts as red and stays 3 until a policer colours the packet (11 R326, R286). -/
  code : Nat
  dscp : Option Nat
  drop : Bool
  deriving DecidableEq, Repr

/-- The action a binding gives a colour: 0 pass, 1 remark, 2 drop; and its DSCP. -/
def polbAct (b : Nat) (c : Colour) : Nat × Nat :=
  match c with
  | .green => (0, 0)
  | .yellow => (polbYelAct b, polbYelDscp b)
  | .red => (polbRedAct b, polbRedDscp b)

/-- One binding (its bits) polices a packet of `len` bytes; `last` is the last colour produced. -/
def State.policeOne (s : State) (bind : Option Nat) (len : Nat) (last : Colour) (p : Policed) : State × Policed :=
  match bind with
  | none => (s, p)
  | some b =>
    if p.drop then (s, p)
    else
      match s.policerRun (polbPolicer b) len (if polbAware b then last else Colour.green) with
      | (s1, c) =>
        let code := if (s.polGet (polbPolicer b)).en = false ∧ polbAware b = true then p.code else c.code
        match polbAct b c with
        | (2, _) =>
          (if c = .yellow then s1.satAdd Fld.ACT_POL_YEL_DROP_CNT_COUNT 1 else s1.satAdd Fld.ACT_POL_RED_DROP_CNT_COUNT 1,
            ⟨c, code, p.dscp, true⟩)
        | (1, d) => (s1, ⟨c, code, some d, false⟩)
        | _ => (s1, ⟨c, code, p.dscp, false⟩)

/-- POL0, then POL1 (R285). -/
def State.police (s : State) (b0 b1 : Option Nat) (precolor len : Nat) : State × Policed :=
  let pre := colourOf precolor
  match s.policeOne b0 len pre ⟨pre, precolor, none, false⟩ with
  | (s1, p1) => s1.policeOne b1 len p1.colour p1

/-! ### Changes to a packet wherever it is -/

def Pass.upd (id : Nat) (f : Pkt → Pkt) (x : Pass) : Pass := { x with pkt := x.pkt.upd id f }
def ReplReq.upd (id : Nat) (f : Pkt → Pkt) (x : ReplReq) : ReplReq := { x with pkt := x.pkt.upd id f }

def SliceState.upd (id : Nat) (f : Pkt → Pkt) (x : SliceState) : SliceState :=
  { x with hold := x.hold.map (Pkt.upd id f), passes := x.passes.map (Pass.upd id f), recirc := x.recirc.map (Pkt.upd id f)
           recircWait := x.recircWait.map (Pkt.upd id f), inject := x.inject.map (Pkt.upd id f)
           repl := x.repl.map (ReplReq.upd id f) }

/-- Applies a change to packet `id` on both dies. -/
def State.updPacket (s : State) (id : Nat) (f : Pkt → Pkt) : State :=
  let s1 := { s with path := { s.path with slices := s.path.slices.map fun (kv : Nat × SliceState) => (kv.1, kv.2.upd id f) } }
  s1.updPkt id f

/-- The end of a packet is there: its length is known (13 R385). -/
def Pkt.finish (p : Pkt) : Pkt := { p with complete := true, md := { p.md with pktLen := p.bytes.length } }

/-- The end carries an error mark (13 R388). -/
def Pkt.fail (p : Pkt) : Pkt := { p.finish with errored := true }

/-- The copies of a frame that wait for its end. -/
def State.copiesOf (s : State) (id : Nat) (floodOnly : Bool) : List Nat :=
  (s.path.follow.filter fun f => f.1 == id && (f.2.2 || !floodOnly)).map fun f => f.2.1

def State.unfollow (s : State) (id : Nat) : State :=
  { s with path := { s.path with follow := s.path.follow.filter fun f => f.1 != id } }

/-- Packets that carry an error and wait where they can be dropped at once leave the slice (04 R130). -/
def SliceState.takeErrored (x : SliceState) : SliceState × List Pkt :=
  let bad := fun (p : Pkt) => p.errored
  ({ x with hold := x.hold.filter (fun p => !bad p), recircWait := x.recircWait.filter (fun p => !bad p)
            repl := x.repl.filter (fun r => !bad r.pkt) },
   x.hold.filter bad ++ x.recircWait.filter bad ++ (x.repl.map (·.pkt)).filter bad)

/-- A packet, and copies of it, end with an error: dropped where they wait, or marked where they are on their way (R388). -/
def State.failPackets (s : State) (ids : List Nat) : State :=
  let s1 := ids.foldl (fun t id => t.updPacket id Pkt.fail) s
  let s2 := { s1 with host := { s1.host with rx := s1.host.rx.filter fun r => r.complete || !ids.contains r.id } }
  s2.path.slices.foldl (fun t (kv : Nat × SliceState) =>
    match kv.2.takeErrored with
    | (x, ps) => ps.foldl (fun u p => u.drainDec p.md.gen) (t.setSlice kv.1 x)) s2

/-! ### The start of a frame (R130, R226) -/

/-- Bytes a packet counts in the hold buffer. -/
def Pkt.holdBytes (p : Pkt) : Nat := if p.complete then p.bytes.length + 4 else p.maxFrame

def SliceState.holdBytes (x : SliceState) : Nat := x.hold.foldl (fun n p => n + p.holdBytes) 0

/-- The receive adjustment of a port, in quarter-nanoseconds (04 R144). -/
def State.rxAdj (s : State) (p : Nat) : Int := signed (s.fget (Fld.PRT_PORT_TS_RX_ADJ_ADJ (p / 8) (p % 8))) 16

/-- The type field of a MAC control frame, and its opcode. -/
def controlOpcode (bytes : List Byte) : Option Nat :=
  if beAt bytes 12 2 = 0x8808 then some (beAt bytes 14 2) else none

/-- Rate a link receives at, in Mb/s. -/
def State.rxRate (s : State) (k : Nat) : Nat :=
  if k < 128 then s.linkRate k else 5000 * s.fget (Fld.FXE_CLIENT_STATUS_RX_SLOTS (k - 128))

def State.setRx (s : State) (k : Nat) (f : RxFrame) : State :=
  { s with ports := { s.ports with rx := Assoc.insert s.ports.rx k f } }

/-- A frame that the MAC hands to the slice: stamped, and taken into the hold buffer or dropped. `bytes` runs from the destination
address to the byte before the FCS. -/
def State.frameIn (s : State) (k : Nat) (bytes : List Byte) : State :=
  let port := s.linkPort k
  let stampQ := ((s.nowQns : Int) + s.rxAdj port).toNat
  match s.stampGen port stampQ with
  | (gen, s1) =>
    match (s1.drainInc gen).newId with
    | (id, s2) =>
      let i := linkSlice k
      let max := s2.linkMaxFrame k
      let p : Pkt := { id := id, md := freshMeta stampQ gen port (if k < 128 then 0 else 256 + (k - 128)), bytes := bytes.take max
                       complete := false, errored := false, late := false, poison := false, maxFrame := max, inRate := s2.rxRate k
                       fromFabric := false, ldtV := false, direct := none, link := 0 }
      let x := s2.slice i
      if x.hold.length + 1 ≤ 4096 ∧ x.holdBytes + p.holdBytes ≤ 1048576 then
        (s2.setSlice i { x with hold := x.hold ++ [p] }).setRx k ⟨some id, bytes.length + 4, none, false⟩
      else
        (((s2.satAdd (Fld.LPM_HOLD_DROP_COUNT i) 1).setEvent Fld.LPM_EVENT_HOLD_DROP).drainDec gen).setRx k
          ⟨none, bytes.length + 4, none, false⟩

/-- The start of a frame arrives at a port or client (R130); the bytes after the parse depth are looked at only once its end has come. -/
def execFrameReceive (link : Nat) (bytes : List Byte) (s : State) : Host.Outcome State Fault Refusal :=
  if 384 ≤ link ∨ s.stoppedForwarding = true ∨ s.linkState link = 0 then .next s
  else if s.linkServed link = false then .next (s.setRx link ⟨none, bytes.length + 4, none, true⟩)
  else
    match controlOpcode bytes with
    | some op => .next (s.setRx link ⟨none, bytes.length + 4, some op, false⟩)
    | none => .next (s.frameIn link bytes)

/-! ### The end of a frame (R130, R385) -/

/-- The counter of a received frame's check: end 0 is good, 1 an FCS error, 2 a PCS error or a frame that is cut. -/
def rxCause (len max ending : Nat) : Option Nat :=
  if ending = 2 then some 5
  else if len < 64 then some 3
  else if max < len then some 4
  else if ending = 1 then some 2
  else none

/-- The updates of a pass that waited for the length (R385); a policer's drop ends the packet under R388. -/
def State.runDeferred (s : State) (id len : Nat) (evict : Option Nat) : State :=
  match s.path.deferred.find? (·.id == id) with
  | none => s
  | some d =>
    let s0 := { s with path := { s.path with deferred := s.path.deferred.filter (·.id != id) } }
    match s0.police d.pol0 d.pol1 d.precolor len with
    | (s1, r) =>
      let s2 := match d.stat with | some i => s1.flowCount i len evict | none => s1
      if r.drop then s2.failPackets (id :: s2.copiesOf id true) else s2

/-- A frame's packet and its copies are whole. -/
def State.finishFrame (s : State) (id len : Nat) (evict : Option Nat) : State :=
  let copies := s.copiesOf id false
  let s1 := (id :: copies).foldl (fun t i => t.updPacket i Pkt.finish) s
  let ids := id :: copies
  let rx := s1.host.rx.map fun r => if ids.contains r.id then { r with complete := true } else r
  ((({ s1 with host := { s1.host with rx := rx } }).runDeferred id len evict)).unfollow id

/-- A frame ends in an error of R130: no update is made, and the packet and its copies are dropped. -/
def State.failFrame (s : State) (id : Nat) : State :=
  let s1 := { s with path := { s.path with deferred := s.path.deferred.filter (·.id != id) } }
  (s1.failPackets (id :: s1.copiesOf id false)).unfollow id

/-- The end of the frame in progress on a link. -/
def State.frameEnd (s : State) (k ending : Nat) (evict : Option Nat) : State :=
  match Assoc.find s.ports.rx k with
  | none => s
  | some f =>
    let s1 := { s with ports := { s.ports with rx := Assoc.erase s.ports.rx k } }
    if f.off then s1
    else
      match rxCause f.len (s1.linkMaxFrame k) ending, f.control with
      | some c, _ =>
        let s2 := s1.mibAdd k c 1
        match f.id with | some id => s2.failFrame id | none => s2
      | none, some op =>
        if 128 ≤ k then s1.mibAdd k 7 1 else if op = 1 ∨ op = 0x0101 then s1 else s1.mibAdd k 8 1
      | none, none =>
        let s2 := (s1.mibAdd k 0 1).mibAdd k 1 f.len
        match f.id with | some id => s2.finishFrame id (f.len - 4) evict | none => s2

/-- The end of a frame passes the receive crossing; `evict` names the flow counter its update pushes out of the cache. -/
def execFrameEnd (link ending : Nat) (evict : Option Nat) (s : State) : Host.Outcome State Fault Refusal :=
  .next (s.frameEnd link ending evict)

end Sys2Proof.Machine
end

