-- ==== Sys2Proof/Machine/Links.lean ====
section
/-! DEFINITION. Link states of ports and clients (04 R136-R141, 05 R174), signal fail of FlexE groups and the protection selector
(05 R173-R177). A port p is link p, a client c link 128 + c. -/

namespace Sys2Proof.Machine

open Sys2Proof

/-! ### Good (04 R136, 05 R173, R174) -/

/-- A port's link is good. -/
def State.portGood (s : State) (p : Nat) : Bool :=
  let g := p / 8
  let i := p % 8
  s.portState p != 0 && s.fbit (Fld.PRT_PORT_STATUS_PCS_LOCK g i)
    && (s.fget (Fld.PRT_PORT_CFG_FEC g i) == 0 || s.fbit (Fld.PRT_PORT_STATUS_FEC_LOCK g i))
    && !s.fbit (Fld.PRT_PORT_STATUS_LF g i) && !s.fbit (Fld.PRT_PORT_STATUS_RF g i)
    && !(s.fbit (Fld.PRT_PORT_STATUS_HI_SER g i) && s.fbit (Fld.PRT_PORT_MAC_HI_SER_DOWN g i))

/-- The ports of a FlexE group's mask (05 R149). -/
def State.groupPhys (s : State) (f : Nat) : List Nat :=
  ((List.range 8).filter fun i => bitAt (s.fget (Fld.FXE_GRP_PHY_PHY_MASK f)) i).map fun i => 8 * (f / 2) + i

def State.groupEn (s : State) (f : Nat) : Bool := s.fbit (Fld.FXE_GRP_CFG_EN f)

/-- 100G instances of a PHY: SPEED 3 to 6 (05 R148). -/
def State.phyInstances (s : State) (p : Nat) : Nat := 2 ^ (s.fget (Fld.PRT_PORT_CFG_SPEED (p / 8) (p % 8)) - 3)

def State.groupInstances (s : State) (f : Nat) : Nat := (s.groupPhys f).foldl (fun n p => n + s.phyInstances p) 0

/-- Slots of a group (05 R152). -/
def State.groupSlots (s : State) (f : Nat) : Nat := 20 * s.groupInstances f

def flexeGroup0 : FlexeGroup := ⟨[], [], [], none, false, []⟩

def State.group (s : State) (f : Nat) : FlexeGroup := Assoc.get s.ports.groups flexeGroup0 f
def State.setGroup (s : State) (f : Nat) (g : FlexeGroup) : State :=
  { s with ports := { s.ports with groups := Assoc.put s.ports.groups flexeGroup0 f g } }

/-- LOF, LOM, GIDM, PIDM and CALM. -/
def sfDefects : Nat := 0x3B

/-- A group is in signal fail (R173); one that is not enabled carries no client. -/
def State.groupSf (s : State) (f : Nat) : Bool :=
  !s.groupEn f || s.fbit (Fld.FXE_GRP_STATUS_SKEW_EXCEED f)
    || (s.groupPhys f).any fun p => !s.portGood p || Nat.land (s.fget (Fld.FXE_PHY_DEF_RAW p)) sfDefects != 0

/-- Group of a client's working and protection copy (05 R155, R175). -/
def State.workGroup (s : State) (c : Nat) : Nat := 2 * (c / 16) + s.fget (Fld.FXE_CLIENT_CFG_GRP c)
def State.protGroup (s : State) (c : Nat) : Nat := 2 * (c / 16) + (1 - s.fget (Fld.FXE_CLIENT_CFG_GRP c))

def State.clientEn (s : State) (c : Nat) : Bool := s.fbit (Fld.FXE_CLIENT_CFG_EN c)
def State.clientProt (s : State) (c : Nat) : Bool := s.fbit (Fld.FXE_CLIENT_PROT_EN c)

/-- Slots of a page (0 A, 1 B) that carry an ID. -/
def slotsOf (cal : Assoc Nat) (n page id : Nat) : Nat := ((List.range n).filter fun k => Assoc.get cal 0 (2 * k + page) == id).length

/-- A client's slots in the pages in use, sent and received. -/
def State.txSlots (s : State) (c : Nat) : Nat :=
  let f := s.workGroup c
  slotsOf (s.group f).txCal (s.groupSlots f) (s.fget (Fld.FXE_GRP_STATUS_TX_PAGE f)) (s.fget (Fld.FXE_CLIENT_CFG_CLIENT_ID c))

def State.rxSlots (s : State) (c : Nat) : Nat :=
  let f := s.workGroup c
  slotsOf (s.group f).rxCal (s.groupSlots f) (s.fget (Fld.FXE_GRP_STATUS_RX_PAGE f)) (s.fget (Fld.FXE_CLIENT_CFG_CLIENT_ID c))

/-- The request placed on a client: 0 none, 1 LOCKOUT, 2 FORCE_PROT, 3 MANUAL_PROT, 4 MANUAL_WORK, 5 FORCE_WORK. -/
def State.protRequest (s : State) (c : Nat) : Nat := Assoc.get s.ports.protReq 0 c

/-- A client is good (05 R174): it has a receive slot, and an eligible path free of signal fail. -/
def State.clientGood (s : State) (c : Nat) : Bool :=
  let w := !s.fbit (Fld.FXE_CLIENT_STATUS_SF_WORK c)
  let p := !s.fbit (Fld.FXE_CLIENT_STATUS_SF_PROT c)
  s.clientEn c && decide (1 ≤ s.rxSlots c)
    && (if !s.clientProt c then w
      else
        match s.protRequest c with
        | 1 => w
        | 2 => p
        | 5 => w
        | _ => w || p)

/-- A link is good. -/
def State.linkGood (s : State) (k : Nat) : Bool := if k < 128 then s.portGood k else s.clientGood (k - 128)

/-! ### Link states (R137) -/

def State.setLinkState (s : State) (k st : Nat) : State :=
  if k < 128 then s.fset (Fld.PRT_PORT_STATUS_STATE (k / 8) (k % 8)) st else s.fset (Fld.FXE_CLIENT_STATUS_STATE (k - 128)) st

/-- ACTION is KEEP; HOLDOFF_MS; of the port, or of the client's anchor port. -/
def State.downKeeps (s : State) (k : Nat) : Bool := s.fbit (Fld.PRT_PORT_DOWN_ACTION (s.linkPort k / 8) (s.linkPort k % 8))
def State.holdoffMs (s : State) (k : Nat) : Nat := s.fget (Fld.PRT_PORT_DOWN_HOLDOFF_MS (s.linkPort k / 8) (s.linkPort k % 8))

def State.setKeep (s : State) (k : Nat) (keep : Bool) : State :=
  let others := s.ports.downKeep.filter (· != k)
  { s with ports := { s.ports with downKeep := if keep then others ++ [k] else others } }

/-- The flush of 08 R258 for a port that goes down, on tables with AUTO_FLUSH. -/
def State.autoFlush (s : State) (k : Nat) : State :=
  if k < 128 then (s.exmFlush k s.devId fun t => s.fbit (Fld.EXM_TBL_CFG_AUTO_FLUSH t)).1 else s

/-- The port's ACTION applies (R138): FLUSH drops what its queues hold, KEEP keeps it. -/
def State.downAction (s : State) (k : Nat) : State :=
  let s1 := { s with ports := { s.ports with holdoff := s.ports.holdoff.filter (· != k) } }
  let s2 := (s1.setKeep k (s1.downKeeps k)).autoFlush k
  if s2.downKeeps k then s2
  else
    let s3 := if k < 128 then s2.fset (Fld.PRT_PORT_STATUS_FLUSHING (k / 8) (k % 8)) 1 else s2
    s3.startFlush (.port k) (s3.linkQueues k)

/-- The link leaves READMIT or UP: its transmit FIFOs are emptied, preemption ends. -/
def State.leaveUp (s : State) (k : Nat) : State :=
  if !s.linkServed k then s
  else
    let s1 := s.dropFifos k
    if k < 128 then s1.preemptDown k else s1

/-- A good state that begins or ends moves a link into UP_WAIT, or back to the state it left. -/
def State.goodChange (s : State) (k : Nat) : State :=
  let st := s.linkState k
  let good := s.linkGood k
  if good ∧ (st = 1 ∨ st = 2) then
    ({ s with ports := { s.ports with before := Assoc.insert s.ports.before k st } }).setLinkState k 3
  else if !good ∧ st = 3 then s.setLinkState k (Assoc.get s.ports.before 2 k)
  else s

/-- The link is declared down (R136, R138). -/
def State.declareDown (s : State) (k : Nat) : State :=
  if !s.linkServed k || s.linkGood k then s
  else
    let s1 := (s.leaveUp k).linkEvent k 1
    let s2 := if k < 128 then s1.mibAdd k 16 1 else s1
    if s2.holdoffMs k = 0 then (s2.setLinkState k 2).downAction k
    else ({ s2 with ports := { s2.ports with holdoff := s2.ports.holdoff.filter (· != k) ++ [k] } }).setLinkState k 1

/-- The hold-off ends before an up declaration: the link is in DOWN, or returns there from UP_WAIT (R138). -/
def State.holdoffEnd (s : State) (k : Nat) : State :=
  if !s.ports.holdoff.contains k then s
  else if s.linkState k = 3 then
    ({ s with ports := { s.ports with before := Assoc.insert s.ports.before k 2 } }).downAction k
  else (s.setLinkState k 2).downAction k

/-- Calibration holds back a port's up declaration (R142, R146). -/
def State.calHolds (s : State) (k : Nat) : Bool :=
  decide (k < 128) && (s.ports.uncal.contains k || s.fbit (Fld.PRT_GRP_CTRL_CAL_BUSY (k / 8)))

/-- The link is declared up and enters READMIT (R141): a frame in progress is not received, PAUSE and PFC holds are cleared. -/
def State.declareUp (s : State) (k : Nat) : State :=
  if s.linkState k ≠ 3 ∨ s.linkGood k = false ∨ s.calHolds k = true then s
  else
    let s1 := (s.setLinkState k 4).linkEvent k 0
    let s2 := { s1 with ports := { s1.ports with holdoff := s1.ports.holdoff.filter (· != k) } }
    let s3 := s2.setKeep k false
    let s4 := match Assoc.find s3.ports.rx k with
      | some _ => s3.mibAdd k 6 1
      | none => s3
    if k < 128 then (s4.clearHolds k).preemptUp k else s4

/-- Re-admission completes (R141). -/
def State.readmitted (s : State) (k : Nat) : State :=
  if s.linkState k = 4 then (s.setLinkState k 5).linkEvent k 3 else s

/-- A link is disabled at once (R140): a frame received is cut, one sent ends with an error code, and its ACTION applies. -/
def State.disableLink (s : State) (k : Nat) : State :=
  if s.linkState k = 0 then s
  else (((s.leaveUp k).frameEnd k 2 none).setLinkState k 0).downAction k

/-- A link is enabled: it is down until it is declared up. -/
def State.enableLink (s : State) (k : Nat) : State := (s.setLinkState k 2).setKeep k (s.downKeeps k)

/-! ### The protection selector (05 R175-R177) -/

/-- A path's signal fail counts for the selector: path 0 working, 1 protection. -/
def State.sfCounts (s : State) (c path : Nat) : Bool := s.ports.sfHeld.contains (2 * c + path)

/-- The selector moves to a path: a stream in signal fail is cut at once, with the frame in progress on it. -/
def State.selectPath (s : State) (c path : Nat) (forSf : Bool) : State :=
  let old := s.fget (Fld.FXE_CLIENT_STATUS_SEL c)
  if old = path then s
  else
    let oldSf := if old = 0 then s.fbit (Fld.FXE_CLIENT_STATUS_SF_WORK c) else s.fbit (Fld.FXE_CLIENT_STATUS_SF_PROT c)
    let k := 128 + c
    let s1 :=
      match Assoc.find s.ports.rx k with
      | some f =>
        if oldSf then
          let t := { s with ports := { s.ports with rx := Assoc.erase s.ports.rx k } }
          let t1 := t.mibAdd k 6 1
          match f.id with | some id => t1.failFrame id | none => t1
        else s
      | none => s
    let others := s1.ports.selForSf.filter (· != c)
    let s2 := { s1 with ports := { s1.ports with selForSf := if forSf && path == 1 then others ++ [c] else others } }
    ((s2.fset (Fld.FXE_CLIENT_STATUS_SEL c) path).mibAdd k 11 1).linkEvent k 4

/-- A higher request cancels MANUAL and WAIT_TO_RESTORE. -/
def State.cancelLower (s : State) (c : Nat) : State :=
  let r := s.protRequest c
  let req := if r = 3 ∨ r = 4 then Assoc.erase s.ports.protReq c else s.ports.protReq
  { s with ports := { s.ports with protReq := req, wtr := s.ports.wtr.filter (· != c) } }

/-- The selector obeys the highest request in force (R176). -/
def State.selector (s : State) (c : Nat) : State :=
  let sel := s.fget (Fld.FXE_CLIENT_STATUS_SEL c)
  let r := s.protRequest c
  let put := fun (t : State) n => t.fset (Fld.FXE_CLIENT_STATUS_REQ c) n
  if r = 1 then put ((s.cancelLower c).selectPath c 0 false) 1
  else if r = 2 then put ((s.cancelLower c).selectPath c 1 false) 2
  else if r = 5 then put ((s.cancelLower c).selectPath c 0 false) 2
  else if s.sfCounts c sel = true ∧ s.sfCounts c (1 - sel) = false then put ((s.cancelLower c).selectPath c (1 - sel) true) 3
  else if r = 3 ∨ r = 4 then
    let path := if r = 3 then 1 else 0
    let s1 := { s with ports := { s.ports with wtr := s.ports.wtr.filter (· != c) } }
    put (if s.sfCounts c path then s1 else s1.selectPath c path false) 4
  else if s.ports.wtr.contains c then put s 5
  else put s 6

/-- Signal fail of a path begins or ends: it counts at once with a hold-off of 0; a working path that recovers starts WAIT_TO_RESTORE, and
one that fails again ends it. -/
def State.pathSf (s : State) (c path : Nat) (sf : Bool) : State :=
  let f := if path = 0 then Fld.FXE_CLIENT_STATUS_SF_WORK c else Fld.FXE_CLIENT_STATUS_SF_PROT c
  let s1 := s.fset f (b2n sf)
  let key := 2 * c + path
  let others := s1.ports.sfHeld.filter (· != key)
  if sf then
    if s1.fget (Fld.FXE_CLIENT_PROT_HOLDOFF c) = 0 then
      { s1 with ports := { s1.ports with sfHeld := others ++ [key]
                                         wtr := if path = 0 then s1.ports.wtr.filter (· != c) else s1.ports.wtr } }
    else s1
  else
    let restore := s1.ports.sfHeld.contains key && path == 0 && s1.ports.selForSf.contains c && s1.fbit (Fld.FXE_CLIENT_PROT_REVERTIVE c)
    { s1 with ports := { s1.ports with sfHeld := others
                                       wtr := if restore then s1.ports.wtr.filter (· != c) ++ [c] else s1.ports.wtr } }

/-- A client follows its groups: signal fail, slots, the selector, its good state. -/
def State.refreshClient (s : State) (c : Nat) : State :=
  if !s.clientEn c then s
  else
    let s1 := s.pathSf c 0 (s.groupSf (s.workGroup c))
    let s2 := s1.pathSf c 1 (s1.clientProt c && s1.groupSf (s1.protGroup c))
    let s3 := (s2.fset (Fld.FXE_CLIENT_STATUS_TX_SLOTS c) (s2.txSlots c)).fset (Fld.FXE_CLIENT_STATUS_RX_SLOTS c) (s2.rxSlots c)
    let s4 := if s3.clientProt c then s3.selector c else s3
    s4.goodChange (128 + c)

/-- A group's signal fail, and every client of its slice, follow its PHYs. -/
def State.refreshGroup (s : State) (f : Nat) : State :=
  if !s.groupEn f then s
  else
    let s1 := s.fset (Fld.FXE_GRP_STATUS_SF f) (b2n (s.groupSf f))
    (List.range 16).foldl (fun t i => t.refreshClient (16 * (f / 2) + i)) s1

/-- The groups that a port may be a PHY of follow it. -/
def State.refreshPort (s : State) (p : Nat) : State :=
  if s.isFlexePhy p then (s.refreshGroup (2 * (p / 8))).refreshGroup (2 * (p / 8) + 1) else s

end Sys2Proof.Machine
end

