-- ==== Sys2Proof/Machine/Ports.lean ====
section
/-! DEFINITION. Line ports (04 R125-R147): layout and enabling, link conditions, groups, calibration, PAUSE and PFC frames. -/

namespace Sys2Proof.Machine

open Sys2Proof

/-! ### Layout (R125-R128) -/

/-- The signalling rate of a combination of SPEED, LANES and FEC (0: 10.3125, 1: 25.78125, 2: 53.125, 3: 106.25, 4: 212.5 Gb/s), when it
is a row of R125. -/
def portRow (speed lanes fec : Nat) : Option Nat :=
  match speed, lanes with
  | 0, 0 => if fec ≤ 1 then some 0 else none
  | 1, 0 => if fec ≤ 2 then some 1 else none
  | 2, 0 => if fec = 3 then some 2 else none
  | 3, 2 => if fec = 0 ∨ fec = 2 then some 1 else none
  | 3, 1 => if fec = 3 then some 2 else none
  | 3, 0 => if fec = 3 then some 3 else none
  | 4, 2 => if fec = 3 then some 2 else none
  | 4, 1 => if fec = 3 then some 3 else none
  | 4, 0 => if fec = 3 then some 4 else none
  | 5, 3 => if fec = 3 then some 2 else none
  | 5, 2 => if fec = 3 then some 3 else none
  | 5, 1 => if fec = 3 then some 4 else none
  | 6, 3 => if fec = 3 then some 3 else none
  | 6, 2 => if fec = 3 then some 4 else none
  | 7, 3 => if fec = 3 then some 4 else none
  | _, _ => none

/-- Rate and lanes that a value of PRT_PORT_CFG asks for. -/
def cfgRow (v : Nat) : Option Nat := portRow (bitsAt v 1 4) (bitsAt v 5 2) (bitsAt v 8 2)
def cfgLanes (i v : Nat) : List Nat := (List.range (2 ^ bitsAt v 5 2)).map (i + ·)

/-- The enabled ports of a group other than `i`: index and PRT_PORT_CFG. -/
def State.otherPorts (s : State) (g i : Nat) : List (Nat × Nat) :=
  ((List.range 8).map fun j => (j, (s.reg (Reg.PRT_PORT_CFG g j)).toNat)).filter fun e => e.1 != i && bitAt e.2 0

/-- A lane map is a permutation of 0 to 7. -/
def isLaneMap (v : Nat) : Bool := (List.range 8).all fun j => (List.range 8).any fun k => bitsAt v (3 * k) 3 == j

/-- Distinct rates in half `h` of a group. -/
def halfRates (ports : List (Nat × Nat)) (h : Nat) : Nat :=
  ((ports.filter fun (e : Nat × Nat) => (cfgLanes e.1 e.2).any fun l => l / 4 == h).map fun (e : Nat × Nat) => cfgRow e.2).eraseDups.length

/-- The checks of R126, R128 and R135 on the enabling of port `i` of group `g` with the value `v`. -/
def State.layoutOk (s : State) (g i v : Nat) : Bool :=
  let others := s.otherPorts g i
  let lanes := cfgLanes i v
  match cfgRow v with
  | none => false
  | some rate =>
    (!bitAt v 10 || rate == 4) && i % lanes.length == 0 && decide (i + lanes.length ≤ 8)
      && others.all (fun e => (cfgLanes e.1 e.2).all fun l => !lanes.contains l)
      && decide (halfRates ((i, v) :: others) 0 ≤ 2) && decide (halfRates ((i, v) :: others) 1 ≤ 2)
      && s.fbit (Fld.PRT_GRP_CTRL_EN g)
      && isLaneMap (s.reg (Reg.PRT_LANE_MAP_RX g)).toNat && isLaneMap (s.reg (Reg.PRT_LANE_MAP_TX g)).toNat
      && (!bitAt v 12 || (decide (3 ≤ bitsAt v 1 4) && decide (bitsAt v 1 4 ≤ 6)))

/-- Bits of PRT_PORT_CFG that software writes, EN apart. -/
def portCfgMask : Nat := 0x1F7E

/-- A port starts: down, and to be calibrated before its first up declaration (R146). -/
def State.startPort (s : State) (p : Nat) : State :=
  let s1 := s.enableLink p
  { s1 with ports := { s1.ports with uncal := s1.ports.uncal.filter (· != p) ++ [p]
                                     portCal := s1.ports.portCal.filter (· != p) ++ [p] } }

/-- A port stops (R140). -/
def State.stopPort (s : State) (p : Nat) : State :=
  let s1 := s.disableLink p
  { s1 with ports := { s1.ports with uncal := s1.ports.uncal.filter (· != p), portCal := s1.ports.portCal.filter (· != p) } }

/-- A write of PRT_PORT_CFG (R126, R127, R140). -/
def State.hookPortCfg (s : State) (p v : Nat) : State :=
  let g := p / 8
  let i := p % 8
  let old := (s.reg (Reg.PRT_PORT_CFG g i)).toNat
  let fields := Nat.land v portCfgMask
  let store := fun (t : State) (en err : Nat) => t.setReg (Reg.PRT_PORT_CFG g i) (BitVec.ofNat 32 (fields + en + err * 2 ^ 31))
  let oldErr := b2n (bitAt old 31)
  if bitAt old 0 then
    if fields ≠ Nat.land old portCfgMask then s
    else if bitAt v 0 then s
    else (store (s.stopPort p) 0 oldErr).refreshPort p
  else if !bitAt v 0 then store s 0 oldErr
  else if s.layoutOk g i v then (((store s 1 0).startPort p).goodChange p).refreshPort p
  else (store s 0 1).linkEvent p 4

/-- Lane maps and polarities change only while no port of the group is enabled (R128). -/
def State.hookLaneMap (s : State) (g off v : Nat) : State :=
  if (s.otherPorts g 8).isEmpty then s.setReg off (BitVec.ofNat 32 v) else s

/-- A write of PRT_PORT_MAC: MAX_FRAME reads back inside its limits; HI_SER_DOWN takes part in the link's good state. -/
def State.hookPortMac (s : State) (p v : Nat) : State :=
  let s1 := s.setReg (Reg.PRT_PORT_MAC (p / 8) (p % 8)) (BitVec.ofNat 32 (putBits v 0 14 (clampTo 64 9216 (bitsAt v 0 14))))
  (s1.goodChange p).refreshPort p

/-! ### Groups (R140, R142) -/

/-- A write of PRT_GRP_CTRL. -/
def State.hookGrpCtrl (s : State) (g v : Nat) : State :=
  let was := s.fbit (Fld.PRT_GRP_CTRL_EN g)
  let s1 := s.fset (Fld.PRT_GRP_CTRL_EN g) (v % 2)
  let mine := (List.range 8).map fun i => 8 * g + i
  if v % 2 = 1 ∧ was = false then s1.fset (Fld.PRT_GRP_CTRL_CAL_BUSY g) 1
  else if v % 2 = 0 ∧ was = true then
    mine.foldl (fun t p => (t.stopPort p).refreshPort p) (s1.fset (Fld.PRT_GRP_CTRL_CAL_BUSY g) 0)
  else s1

/-- Lane calibration ends: every port with EN set starts its bring-up. -/
def execGroupCalDone (group : Nat) (s : State) : Host.Outcome State Fault Refusal :=
  if s.fbit (Fld.PRT_GRP_CTRL_CAL_BUSY group) = false then .next s
  else
    let start := fun (t : State) p =>
      if t.portEn p then
        let t1 := if t.portState p = 0 then t.startPort p else t
        (t1.goodChange p).refreshPort p
      else t
    .next (((List.range 8).map fun i => 8 * group + i).foldl start (s.fset (Fld.PRT_GRP_CTRL_CAL_BUSY group) 0))

/-! ### Link conditions (R133, R136) -/

/-- The link's conditions, and the FEC's counts since the last report. -/
def execLinkConditionChange (port : Nat) (lock fec lf rf hiSer : Bool) (cwCorrected cwUncorrectable symCorrected : Nat) (s : State) :
    Host.Outcome State Fault Refusal :=
  let g := port / 8
  let i := port % 8
  if 128 ≤ port then .next s
  else
    let s1 := ((s.fset (Fld.PRT_PORT_STATUS_PCS_LOCK g i) (b2n lock)).fset (Fld.PRT_PORT_STATUS_FEC_LOCK g i) (b2n fec)).fset
      (Fld.PRT_PORT_STATUS_LF g i) (b2n lf)
    let s2 := (s1.fset (Fld.PRT_PORT_STATUS_RF g i) (b2n rf)).fset (Fld.PRT_PORT_STATUS_HI_SER g i) (b2n hiSer)
    let s3 := if hiSer && !s.fbit (Fld.PRT_PORT_STATUS_HI_SER g i) then s2.linkEvent port 5 else s2
    let s4 := ((s3.mibAdd port 13 cwCorrected).mibAdd port 14 cwUncorrectable).mibAdd port 15 symCorrected
    let s5 := if lock then s4 else s4.frameEnd port 2 none
    .next ((s5.goodChange port).refreshPort port)

/-- The link has not been good for DOWN_DEBOUNCE_US. -/
def execLinkDownDeclared (port : Nat) (s : State) : Host.Outcome State Fault Refusal := .next (s.declareDown port)

/-- The link has been good for UP_HOLD_MS. -/
def execLinkUpDeclared (port : Nat) (s : State) : Host.Outcome State Fault Refusal := .next (s.declareUp port)

/-- The hold-off of a port or client expires. -/
def execHoldoffExpiry (link : Nat) (s : State) : Host.Outcome State Fault Refusal := .next (s.holdoffEnd link)

/-- The flush of a port or client ends. -/
def execPortFlushDone (link : Nat) (s : State) : Host.Outcome State Fault Refusal :=
  let mine := fun (f : Flush) => match f.owner with | .port k => k == link | _ => false
  match s.tm.flushes.find? mine with
  | some f => .next (s.completeFlush f (s.tm.flushes.eraseP mine))
  | none => .next s

/-- Re-admission of a port or client completes. -/
def execReadmitDone (link : Nat) (s : State) : Host.Outcome State Fault Refusal := .next (s.readmitted link)

/-! ### Calibration (R146) -/

/-- A write of PRT_PORT_CAL: GO recalibrates an enabled port. -/
def State.hookPortCal (s : State) (p v : Nat) : State :=
  if v % 2 = 1 ∧ s.portEn p = true then
    { s with ports := { s.ports with portCal := s.ports.portCal.filter (· != p) ++ [p] } }
  else s

/-- A calibration ends: the delays measured are taken, or the previous ones kept. -/
def execPortCalDone (port : Nat) (converged : Bool) (rxInt txInt : Nat) (s : State) : Host.Outcome State Fault Refusal :=
  let g := port / 8
  let i := port % 8
  if !s.ports.portCal.contains port then .next s
  else
    let s1 := { s with ports := { s.ports with portCal := s.ports.portCal.filter (· != port)
                                               uncal := s.ports.uncal.filter (· != port) } }
    let s2 := if converged then
        (((s1.fset (Fld.PRT_PORT_CAL_STATUS_DONE g i) 1).fset (Fld.PRT_PORT_CAL_STATUS_FAIL g i) 0).fset
          (Fld.PRT_PORT_CAL_STATUS_RX_INT g i) rxInt).fset (Fld.PRT_PORT_CAL_STATUS_TX_INT g i) txInt
      else s1.fset (Fld.PRT_PORT_CAL_STATUS_FAIL g i) 1
    .next (s2.linkEvent port 6)

/-! ### PAUSE and PFC (R132, 12 R374) -/

/-- A PAUSE frame (its one quanta), or a PFC frame with its enabled priorities and their quanta, is received. -/
def execPauseFrameReceived (port : Nat) (pfc : Bool) (prios : Nat) (quanta : List Nat) (s : State) : Host.Outcome State Fault Refusal :=
  let g := port / 8
  let i := port % 8
  if s.linkServed port = false ∨ 128 ≤ port ∨ s.isFlexePhy port = true then .next s
  else
    let s1 := s.mibAdd port 7 1
    if pfc then
      let en := Nat.land prios (s.fget (Fld.PRT_PORT_MAC_PFC_RX_EN g i))
      .next ((List.range 8).foldl (fun t k => if bitAt en k then t.setHold port k (quanta.getD k 0 != 0) else t) s1)
    else if s.fbit (Fld.PRT_PORT_MAC_PAUSE_RX_EN g i) then .next (s1.setHold port 8 (quanta.getD 0 0 != 0))
    else .next s1

/-- The pause timer of a priority, or of PAUSE (8), expires. -/
def execPauseTimerExpiry (port cls : Nat) (s : State) : Host.Outcome State Fault Refusal := .next (s.setHold port cls false)

end Sys2Proof.Machine
end

