-- ==== Sys2Proof/Machine/Flexe.lean ====
section
/-! DEFINITION. FlexE (05 R148-R179): groups and clients, calendars and their switch, overhead and defects, management channels, protection. -/

namespace Sys2Proof.Machine

open Sys2Proof

/-! ### Groups and clients (R149-R155, R175) -/

/-- PHY number of index `i` of a group. -/
def State.phyNum (s : State) (f i : Nat) : Nat :=
  if i < 4 then s.fget (Fld.FXE_GRP_PHYNUM_LO_PHYNUM f i) else s.fget (Fld.FXE_GRP_PHYNUM_HI_PHYNUM f (i - 4))

/-- Insertion of a PHY by its number. -/
def insertPhy (num : Nat → Nat) (p : Nat) : List Nat → List Nat
  | [] => [p]
  | q :: qs => if num p < num q then p :: q :: qs else q :: insertPhy num p qs

/-- PHYs of a group in ascending PHY number (R152). -/
def State.physByNum (s : State) (f : Nat) : List Nat :=
  (s.groupPhys f).foldl (fun ps p => insertPhy (fun x => s.phyNum f (x % 8)) p ps) []

/-- The instances of a group in order: port and instance number. -/
def State.instances (s : State) (f : Nat) : List (Nat × Nat) :=
  (s.physByNum f).flatMap fun p => (List.range (s.phyInstances p)).map fun j => (p, j)

/-- The first slot of an instance of a PHY (R152). -/
def State.instBase (s : State) (f p inst : Nat) : Nat := 20 * (s.instances f).idxOf (p, inst)

/-- The checks of R150. -/
def State.groupOk (s : State) (f v : Nat) : Bool :=
  let g := f / 2
  let mask := s.fget (Fld.FXE_GRP_PHY_PHY_MASK f)
  let idx := (List.range 8).filter fun i => bitAt mask i
  let speeds := idx.map fun i => s.fget (Fld.PRT_PORT_CFG_SPEED g i)
  let nums := idx.map fun i => s.phyNum f i
  let other := if f % 2 = 0 then f + 1 else f - 1
  mask != 0 && idx.all (fun i => s.portEn (8 * g + i) && s.isFlexePhy (8 * g + i)) && decide (speeds.eraseDups.length = 1)
    && Nat.land mask (s.fget (Fld.FXE_GRP_PHY_PHY_MASK other)) == 0
    && decide (nums.eraseDups.length = nums.length) && nums.all (fun n => decide (1 ≤ n) && decide (n ≤ 254))
    && decide (1 ≤ bitsAt v 8 20) && decide (bitsAt v 8 20 ≤ 0xFFFFE)

/-- A write of FXE_GRP_CFG (R150): at enable the pages are zeroed and page A is in use. -/
def State.hookFxeGrp (s : State) (f v : Nat) : State :=
  let old := (s.reg (Reg.FXE_GRP_CFG f)).toNat
  let mask := 0x0FFFFF02
  let fields := Nat.land v mask
  let store := fun (t : State) (en err : Nat) => t.setReg (Reg.FXE_GRP_CFG f) (BitVec.ofNat 32 (fields + en + 4 * err))
  let oldErr := b2n (bitAt old 2)
  let clients := (List.range 16).map fun i => 16 * (f / 2) + i
  if bitAt old 0 then
    if fields ≠ Nat.land old mask ∨ bitAt v 0 = true then s
    else clients.foldl State.refreshClient (store s 0 oldErr)
  else if !bitAt v 0 then store s 0 oldErr
  else if s.groupOk f v then
    let s1 := store s 1 0
    let g := s1.group f
    let s2 := s1.setGroup f { g with txCal := [], rxCal := [], txSnap := [], crClear := false }
    ((s2.fset (Fld.FXE_GRP_STATUS_TX_PAGE f) 0).fset (Fld.FXE_GRP_STATUS_RX_PAGE f) 0).refreshGroup f
  else (store s 0 1).setEvent (Fld.FXE_GRP_EVENT_CFG_ERR f)

/-- FXE_GRP_PHY and FXE_GRP_PHYNUM change only while the group is not enabled. -/
def State.hookFxePhy (s : State) (f off v : Nat) : State :=
  if s.groupEn f then s else s.setReg off (BitVec.ofNat 32 v)

/-- Another enabled client of a group uses an ID. -/
def State.idTaken (s : State) (c f id : Nat) : Bool :=
  ((List.range 16).map fun i => 16 * (c / 16) + i).any fun d =>
    d != c && s.clientEn d && s.workGroup d == f && s.fget (Fld.FXE_CLIENT_CFG_CLIENT_ID d) == id

def State.clientErr (s : State) (c : Nat) : State := (s.fset (Fld.FXE_CLIENT_CFG_CFG_ERR c) 1).linkEvent (128 + c) 5

/-- A write of FXE_CLIENT_CFG (R155). -/
def State.hookFxeClient (s : State) (c v : Nat) : State :=
  let old := (s.reg (Reg.FXE_CLIENT_CFG c)).toNat
  let mask := 0xFFFF0002
  let fields := Nat.land v mask
  let store := fun (t : State) (en err : Nat) => t.setReg (Reg.FXE_CLIENT_CFG c) (BitVec.ofNat 32 (fields + en + 4 * err))
  let oldErr := b2n (bitAt old 2)
  let f := 2 * (c / 16) + bitsAt v 1 1
  let id := bitsAt v 16 16
  if bitAt old 0 then
    if fields ≠ Nat.land old mask ∨ bitAt v 0 = true then s
    else
      let s1 := store (s.disableLink (128 + c)) 0 oldErr
      (s1.fset (Fld.FXE_CLIENT_STATUS_TX_SLOTS c) 0).fset (Fld.FXE_CLIENT_STATUS_RX_SLOTS c) 0
  else if !bitAt v 0 then store s 0 oldErr
  else if s.groupEn f ∧ 1 ≤ id ∧ id ≤ 0xFFFE ∧ s.idTaken c f id = false then
    ((store s 1 0).enableLink (128 + c)).refreshClient c
  else (store s 0 0).clientErr c

/-- A write of FXE_CLIENT_PROT (R175). -/
def State.hookFxeProt (s : State) (c v : Nat) : State :=
  let mask := 0xFFFF07F2
  let fields := Nat.land v mask
  let store := fun (t : State) (en : Nat) => t.setReg (Reg.FXE_CLIENT_PROT c) (BitVec.ofNat 32 (fields + en))
  let was := s.clientProt c
  if bitAt v 0 = true ∧ was = false then
    if s.groupEn (s.workGroup c) ∧ s.groupEn (s.protGroup c) ∧ s.idTaken c (s.protGroup c) (bitsAt v 16 16) = false then
      (store s 1).refreshClient c
    else (store s 0).clientErr c
  else if bitAt v 0 then (store s 1).refreshClient c
  else
    let s1 := if was then (s.selectPath c 0 false) else s
    let s2 := { s1 with ports := { s1.ports with protReq := Assoc.erase s1.ports.protReq c
                                                 wtr := s1.ports.wtr.filter (· != c) } }
    ((store s2 0).fset (Fld.FXE_CLIENT_STATUS_REQ c) 6).refreshClient c

def State.hookFxeMac (s : State) (c v : Nat) : State :=
  s.setReg (Reg.FXE_CLIENT_MAC c) (BitVec.ofNat 32 (clampTo 64 9216 (bitsAt v 0 14)))

/-- A write of FXE_INTEG: SET and CLR read back inside 1 to 1,000 (R171). -/
def State.hookFxeInteg (s : State) (d v : Nat) : State :=
  s.setReg (Reg.FXE_INTEG d) (BitVec.ofNat 32 (clampTo 1 1000 (bitsAt v 0 10) + 65536 * clampTo 1 1000 (bitsAt v 16 10)))

/-! ### Defects (R169-R172) -/

def oh0 : OhState :=
  { lofBad := 0, lofGood := 0, lomBad := 0, lomGood := 0, rpf1 := 0, rpf0 := 0, gidBad := 0, gidGood := 0, pidBad := 0
    pidClean := false, mapBad := false, calBad := 0, calGood := 0, crcBad := 0, crcGood := 0, caRun := 0, raw := 0, cal := []
    calClean := false, standbyOk := false, calPrev := [], standbyTwice := false }

def State.oh (s : State) (p j : Nat) : OhState := Assoc.get s.ports.oh oh0 (8 * p + j)
def State.setOh (s : State) (p j : Nat) (o : OhState) : State :=
  { s with ports := { s.ports with oh := Assoc.put s.ports.oh oh0 (8 * p + j) o } }

/-- Adds to a counter of a FlexE PHY (R178). -/
def State.phyAdd (s : State) (p counter n : Nat) : State :=
  { s with ports := { s.ports with fxeCnt := bumpCnt s.ports.fxeCnt (2 ^ 17 + 256 * p + counter) n } }

/-- A run of a condition: one longer while it holds, else 0. -/
def runLen (holds : Bool) (n : Nat) : Nat := if holds then n + 1 else 0

/-- Sets or clears a raw defect by its two runs. -/
def OhState.defect (o : OhState) (d : Nat) (set clear : Bool) : OhState :=
  { o with raw := if bitAt o.raw d then putBits o.raw d 1 (b2n (!clear)) else putBits o.raw d 1 (b2n set) }

/-- LOF over the blocks of a frame: five that fail set it, two that pass clear it. -/
def OhState.lof (o : OhState) : List Bool → OhState
  | [] => o
  | ok :: rest =>
    let o1 := { o with lofBad := runLen (!ok) o.lofBad, lofGood := runLen ok o.lofGood }
    (o1.defect 0 (decide (5 ≤ o1.lofBad)) (decide (2 ≤ o1.lofGood))).lof rest

/-- Every defect but LOF starts its set rule afresh. -/
def OhState.maskAll (o : OhState) : OhState :=
  { o with lomBad := 0, rpf1 := 0, gidBad := 0, pidBad := 0, calBad := 0, crcBad := 0, raw := o.raw % 2 }

/-- GIDM, PIDM and CALM start afresh under LOM. -/
def OhState.maskLom (o : OhState) : OhState :=
  { o with gidBad := 0, pidBad := 0, calBad := 0, raw := putBits o.raw 3 3 0 }

/-- The entries of page g as an instance received them. -/
def OhState.page (o : OhState) (g : Nat) : List Nat := (List.range 20).map fun k => Assoc.get o.cal 0 (2 * k + g)

/-- The entries of page g of the local receive calendar for an instance whose first slot is `base`. -/
def localPage (cal : Assoc Nat) (base g : Nat) : List Nat := (List.range 20).map fun k => Assoc.get cal 0 (2 * (base + k) + g)

/-- The checks of one frame on one instance: `num` and `phy` are the numbers expected, `page` the receive page in use. -/
def OhState.frame (o : OhState) (x : OhFrame) (num phy : Nat) (rxCal : Assoc Nat) (base page : Nat) : OhState :=
  let o1 := o.lof x.blocks
  let o2 := if x.index = 31 then
      let a := { o1 with lomBad := runLen (!x.omfOk) o1.lomBad, lomGood := runLen x.omfOk o1.lomGood }
      a.defect 1 (decide (2 ≤ a.lomBad)) (decide (2 ≤ a.lomGood))
    else o1
  let c := { o2 with crcBad := runLen (!x.crcOk) o2.crcBad, crcGood := runLen x.crcOk o2.crcGood
                     caRun := if x.crcOk && x.ca then o2.caRun + 1 else 0 }
  let o3 := c.defect 6 (decide (3 ≤ c.crcBad)) (decide (3 ≤ c.crcGood))
  let clean := x.crcOk && (x.index == 0 || o3.calClean)
  let o4 := { o3 with calClean := if x.index ≤ 19 then clean else o3.calClean }
  if !x.crcOk then o4
  else
    let r := { o4 with rpf1 := runLen x.rpf o4.rpf1, rpf0 := runLen (!x.rpf) o4.rpf0 }
    let o5 := r.defect 2 (decide (3 ≤ r.rpf1)) (decide (3 ≤ r.rpf0))
    let gOk := x.groupNum == num
    let g := { o5 with gidBad := runLen (!gOk) o5.gidBad, gidGood := runLen gOk o5.gidGood }
    let o6 := g.defect 3 (decide (3 ≤ g.gidBad)) (decide (3 ≤ g.gidGood))
    let pOk := x.phyNum == phy
    let q := { o6 with pidBad := runLen (!pOk) o6.pidBad, pidClean := pOk && x.mapOk && (x.index == 0 || o6.pidClean)
                       mapBad := !x.mapOk && x.index == 31 }
    let o7 := q.defect 4 (decide (3 ≤ q.pidBad) || q.mapBad) (q.pidClean && x.index == 31)
    let o8 : OhState := if x.index ≤ 19 then
        { o7 with cal := Assoc.put (Assoc.put o7.cal 0 (2 * x.index) x.calA) 0 (2 * x.index + 1) x.calB }
      else o7
    if x.index = 19 ∧ o8.calClean = true then
      let same := o8.page page == localPage rxCal base page
      let standby := o8.page (1 - page)
      let prev := (List.range 20).map fun k => Assoc.get o8.calPrev 0 k
      let k := { o8 with calBad := runLen (!same) o8.calBad, calGood := runLen same o8.calGood
                         standbyOk := standby == localPage rxCal base (1 - page), standbyTwice := standby == prev
                         calPrev := (List.range 20).foldl (fun m i => Assoc.put m 0 i (standby.getD i 0)) [] }
      k.defect 5 (decide (2 ≤ k.calBad)) (decide (2 ≤ k.calGood))
    else if x.index = 19 then { o8 with standbyOk := false, standbyTwice := false }
    else o8

/-- The raw defects of a PHY: those of any of its instances. -/
def State.phyRaw (s : State) (p : Nat) : Nat := (List.range (s.phyInstances p)).foldl (fun r j => Nat.lor r (s.oh p j).raw) 0

/-- The group a port is a PHY of. -/
def State.groupOfPort (s : State) (p : Nat) : Option Nat :=
  [2 * (p / 8), 2 * (p / 8) + 1].find? fun f => s.groupEn f && (s.groupPhys f).contains p

/-- The masks of R170 and the defect registers of a PHY. -/
def State.settleDefects (s : State) (p : Nat) : State :=
  let live := s.phyRaw p
  let flags := Assoc.get s.ports.fxeCnt 0 (2 ^ 17 + 256 * p + 3)
  let s0 := { s with ports := { s.ports with fxeCnt := Assoc.put s.ports.fxeCnt 0 (2 ^ 17 + 256 * p + 3) (Nat.lor flags live) } }
  let mask := fun (o : OhState) => if bitAt live 0 then o.maskAll else if bitAt live 1 then o.maskLom else o
  let s1 := (List.range (s.phyInstances p)).foldl (fun t j => t.setOh p j (mask (t.oh p j))) s0
  let entered := bitAt live 0 && !bitAt (s.fget (Fld.FXE_PHY_DEF_RAW p)) 0
  let s2 := if entered then s1.phyAdd p 2 1 else s1
  s2.fset (Fld.FXE_PHY_DEF_RAW p) (s2.phyRaw p)

/-- Every 10 ms unit of SET or CLR has passed for raw defect `d` of a PHY: its failure follows (R171). -/
def execDefectIntegrationExpiry (port d : Nat) (s : State) : Host.Outcome State Fault Refusal :=
  let raw := bitAt (s.fget (Fld.FXE_PHY_DEF_RAW port)) d
  let fail := bitAt (s.fget (Fld.FXE_PHY_DEF_FAIL port)) d
  if 128 ≤ port ∨ 7 ≤ d ∨ s.isFlexePhy port = false ∨ raw = fail then .next s
  else
    let s1 := s.fset (Fld.FXE_PHY_DEF_FAIL port) (putBits (s.fget (Fld.FXE_PHY_DEF_FAIL port)) d 1 (b2n raw))
    .next (s1.setEventBits (if raw then Fld.FXE_PHY_DEF_EVENT_FAIL_SET port else Fld.FXE_PHY_DEF_EVENT_FAIL_CLR port) (2 ^ d))

/-! ### Pages (R153, R154) -/

/-- Sizes that a client may have. -/
def sizeOk (n : Nat) : Bool := n == 1 || n == 2 || n == 8 || (n % 5 == 0 && decide (1 ≤ n / 5) && decide (n / 5 ≤ 32))

/-- The client IDs of a page. -/
def pageIds (cal : Assoc Nat) (n page : Nat) : List Nat :=
  (((List.range n).map fun k => Assoc.get cal 0 (2 * k + page)).filter fun e => e != 0 && e != 0xFFFF).eraseDups

/-- A page passes R153. -/
def pageOk (cal : Assoc Nat) (n page : Nat) : Bool := (pageIds cal n page).all fun id => sizeOk (slotsOf cal n page id)

/-- Page `to` becomes a copy of page `src`. -/
def copyPage (cal : Assoc Nat) (n src dst : Nat) : Assoc Nat :=
  (List.range n).foldl (fun m k => Assoc.put m 0 (2 * k + dst) (Assoc.get m 0 (2 * k + src))) cal

def State.txPage (s : State) (f : Nat) : Nat := s.fget (Fld.FXE_GRP_STATUS_TX_PAGE f)
def State.rxPage (s : State) (f : Nat) : Nat := s.fget (Fld.FXE_GRP_STATUS_RX_PAGE f)

/-- The other group of the port group. -/
def pairOf (f : Nat) : Nat := if f % 2 = 0 then f + 1 else f - 1

/-! ### Overhead received (R164, R167, R168) -/

/-- Two of the three C bits. -/
def majorityC (c : Nat) : Nat := if 2 ≤ b2n (bitAt c 0) + b2n (bitAt c 1) + b2n (bitAt c 2) then 1 else 0

/-- CA counts as received on a group (R164). -/
def State.caReceived (s : State) (f : Nat) : Bool :=
  !(s.instances f).isEmpty && (s.instances f).all fun e => decide (3 ≤ (s.oh e.1 e.2).caRun)

/-- A waiting switch notes when CA was received. -/
def State.noteCa (s : State) (f : Nat) : State :=
  match (s.group f).switch with
  | none => s
  | some w =>
    if w.atM1 ∧ w.caAt = none ∧ s.caReceived f = true ∧ (w.pair = false ∨ s.caReceived (pairOf f) = true) then
      s.setGroup f { s.group f with switch := some { w with caAt := some s.nowNs } }
    else s

/-- Copies the received standby calendar into the local standby page under RX_CAL_AUTO. -/
def State.rxAuto (s : State) (f : Nat) : State :=
  let page := 1 - s.rxPage f
  let insts := s.instances f
  let got := (insts.zipIdx.flatMap fun (e : (Nat × Nat) × Nat) => ((s.oh e.1.1 e.1.2).page page).zipIdx.map fun (x : Nat × Nat) =>
    (20 * e.2 + x.2, x.1))
  let clients := (List.range 16).map fun i => 16 * (f / 2) + i
  let known := fun id => id == 0 || id == 0xFFFF
    || clients.any fun c => s.clientEn c && s.workGroup c == f && s.fget (Fld.FXE_CLIENT_CFG_CLIENT_ID c) == id
  if s.fbit (Fld.FXE_GRP_CFG_RX_CAL_AUTO f) && insts.all (fun e => (s.oh e.1 e.2).standbyTwice) && got.all (fun e => known e.2) then
    let g := s.group f
    s.setGroup f { g with rxCal := got.foldl (fun m e => Assoc.put m 0 (2 * e.1 + page) e.2) g.rxCal }
  else s

/-- CA is sent while CR is received, once the standby page has matched and passes R153. -/
def State.updateCaTx (s : State) (f : Nat) : State :=
  let ready := (s.instances f).all (fun e => (s.oh e.1 e.2).standbyOk) && pageOk (s.group f).rxCal (s.groupSlots f) (1 - s.rxPage f)
  if !s.fbit (Fld.FXE_GRP_STATUS_CR_RX f) then s.fset (Fld.FXE_GRP_STATUS_CA_TX f) 0
  else if ready then s.fset (Fld.FXE_GRP_STATUS_CA_TX f) 1
  else s

/-- An overhead frame is received on an instance of a FlexE PHY. -/
def execOverheadFrameReceive (port inst : Nat) (o : OhFrame) (s : State) : Host.Outcome State Fault Refusal :=
  match (if port < 128 ∧ s.isFlexePhy port = true then s.groupOfPort port else none) with
  | none => .next s
  | some f =>
    if s.phyInstances port ≤ inst then .next s
    else
      let s1 := (s.phyAdd port 0 1).phyAdd port 1 (b2n (!o.crcOk))
      let x := (s1.oh port inst).frame o (s1.fget (Fld.FXE_GRP_CFG_GROUP_NUM f)) (s1.phyNum f (port % 8)) (s1.group f).rxCal
        (s1.instBase f port inst) (s1.rxPage f)
      let s2 := (s1.setOh port inst x).settleDefects port
      let s3 := (s2.fset (Fld.FXE_GRP_STATUS_SKEW_NS f) (min o.skewNs 65535)).fset (Fld.FXE_GRP_STATUS_SKEW_EXCEED f)
        (b2n (decide (10000 < o.skewNs)))
      if bitAt (s3.fget (Fld.FXE_PHY_DEF_RAW port)) 0 then .next (s3.refreshGroup f)
      else
        let s4 := if o.crcOk then
            ((s3.fset (Fld.FXE_PHY_RX_ID_PHYNUM port) o.phyNum).fset (Fld.FXE_PHY_RX_ID_GROUP_NUM port) o.groupNum).fset
              (Fld.FXE_GRP_STATUS_CR_RX f) (b2n o.cr)
          else s3
        let s5 := (s4.fset (Fld.FXE_GRP_STATUS_CA_RX f) (b2n (s4.caReceived f))).noteCa f
        let s6 := if (s5.group (pairOf f)).switch.isSome then s5.noteCa (pairOf f) else s5
        let s7 := if majorityC o.c ≠ s6.rxPage f then
            (s6.fset (Fld.FXE_GRP_STATUS_RX_PAGE f) (majorityC o.c)).setEvent (Fld.FXE_GRP_EVENT_RX_SWITCHED f)
          else s6
        .next (((s7.rxAuto f).updateCaTx f).refreshGroup f)

/-! ### Overhead sent (R162, R164, R172) -/

/-- RPF is sent on a PHY (R172). -/
def State.rpfTx (s : State) (p : Nat) : Bool := Nat.land (s.fget (Fld.FXE_PHY_DEF_RAW p)) 3 != 0 || !s.portGood p

/-- A group sends overhead frame `index` of its multiframe; frame 0 is the boundary at which pages written since appear and a waiting
switch begins to send CR. -/
def execOverheadFrameTransmit (f index : Nat) (s : State) : Host.Outcome State Fault Refusal :=
  if s.groupEn f = false ∨ 32 ≤ index then .next s
  else
    let g := s.group f
    let s1 := if g.crClear then (s.setGroup f { g with crClear := false }).fset (Fld.FXE_GRP_STATUS_CR_TX f) 0 else s
    let boundary := fun (t : State) =>
      let h := t.group f
      let t1 := t.setGroup f { h with txSnap := h.txCal }
      match h.switch with
      | some w =>
        if w.atM1 then t1
        else
          let t2 := (t1.setGroup f { t1.group f with switch := some { w with atM1 := true } }).fset (Fld.FXE_GRP_STATUS_CR_TX f) 1
          if w.pair then t2.fset (Fld.FXE_GRP_STATUS_CR_TX (pairOf f)) 1 else t2
      | none => t1
    let s2 := if index = 0 then boundary s1 else s1
    let send := fun (t : State) (p : Nat) =>
      let base := t.instBase f p 0
      let entries := if index < 20 then (List.range (t.phyInstances p)).flatMap fun j =>
          [Assoc.get (t.group f).txSnap 0 (2 * (base + 20 * j + index)), Assoc.get (t.group f).txSnap 0 (2 * (base + 20 * j + index) + 1)]
        else []
      t.emit (.flexeOverhead f p ([index, 7 * t.txPage f, t.fget (Fld.FXE_GRP_STATUS_CR_TX f), t.fget (Fld.FXE_GRP_STATUS_CA_TX f),
        b2n (t.rpfTx p), t.fget (Fld.FXE_GRP_CFG_GROUP_NUM f), t.phyNum f (p % 8)] ++ entries))
    .next ((s2.physByNum f).foldl send s2)

/-! ### Management channels (R163) -/

/-- A management packet arrives on channel 0 (section) or 1 (shim-to-shim). -/
def execMgmtPacketReceive (f channel : Nat) (bytes : List Byte) (s : State) : Host.Outcome State Fault Refusal :=
  if s.groupEn f = false then .next s
  else
    let g := s.group f
    if 64 ≤ (g.mgmt.filter (·.channel == channel)).length then
      .next ((s.satAdd (Fld.FXE_GRP_MGMT_DROP_CNT f) 1).setEvent (Fld.FXE_GRP_EVENT_MGMT_DROP f))
    else .next (s.setGroup f { g with mgmt := g.mgmt ++ [⟨channel, bytes⟩] })

/-- The operands of the management commands: host address, length, group, channel. -/
def mgmtFields : List (Nat × Nat × Nat) := [(32, 0, 64), (40, 0, 16), (42, 0, 5), (43, 0, 1)]

def execFxeMgmtSend (c : Cmd) (d : HostData) (s : State) : Host.Outcome State Fault Refusal :=
  runCmd 0x0A06 2 2 c s fun s =>
    let len := c.fld 40 0 16
    let f := c.fld 42 0 5
    if c.resv [] [] mgmtFields || decide (len < 64) || decide (1518 < len) then fail stBadPayload s
    else if !s.groupEn f then fail stState s
    else
      match d.get with
      | .error st => fail st s
      | .ok bytes => ok (s.emit (.flexeMgmt f (c.fld 43 0 1) (bytes.take len))) 0 0

def execFxeMgmtRecv (c : Cmd) (s : State) : Host.Outcome State Fault Refusal :=
  runCmd 0x0A07 2 2 c s fun s =>
    let f := c.fld 42 0 5
    let mine := fun (m : MgmtPkt) => m.channel == c.fld 43 0 1
    if c.resv [] [] mgmtFields then fail stBadPayload s
    else if !s.groupEn f then fail stState s
    else
      let g := s.group f
      match g.mgmt.find? mine with
      | none => fail stNotFound s
      | some m =>
        if c.fld 40 0 16 < m.bytes.length then fail stNoSpace s
        else
          let s1 := s.setGroup f { g with mgmt := g.mgmt.eraseP mine }
          ok (s1.emit (.hostWrite (c.fld 32 0 64) m.bytes)) m.bytes.length 0

/-! ### Calendar commands (R164-R166, R179) -/

def State.switching (s : State) (f : Nat) : Bool := s.fbit (Fld.FXE_GRP_STATUS_SWITCHING f)

def execFxeCalWrite (c : Cmd) (s : State) : Host.Outcome State Fault Refusal :=
  runCmd 0x0A01 2 16 c s fun s =>
    let f := bitsAt c.arg0 0 5
    let dir := bitAt c.arg0 8
    let first := bitsAt c.arg0 16 9
    let count := bitsAt c.arg0 32 9
    if c.resv [(0, 5), (8, 1), (16, 9), (32, 9)] [] [(32, 0, 16 * count)] then fail stBadPayload s
    else if count = 0 ∨ (s.groupEn f = true ∧ s.groupSlots f < first + count) then fail stOutOfRange s
    else if 16 * (c.len - 1) < count then fail stBadPayload s
    else if !s.groupEn f || s.switching f || (dir && s.fbit (Fld.FXE_GRP_CFG_RX_CAL_AUTO f)) then fail stState s
    else
      let page := 1 - (if dir then s.rxPage f else s.txPage f)
      let put := fun (m : Assoc Nat) => (List.range count).foldl (fun m k => Assoc.put m 0 (2 * (first + k) + page) (c.fld (32 + 2 * k) 0 16)) m
      let g := s.group f
      ok (s.setGroup f (if dir then { g with rxCal := put g.rxCal } else { g with txCal := put g.txCal })) count 0

def execFxeCalRead (c : Cmd) (s : State) : Host.Outcome State Fault Refusal :=
  runCmd 0x0A02 1 1 c s fun s =>
    let f := bitsAt c.arg0 0 5
    let page := bitsAt c.arg0 9 1
    let first := bitsAt c.arg0 16 9
    if c.resv [(0, 5), (8, 2), (16, 9)] [] [] then fail stBadPayload s
    else if !s.groupEn f then fail stState s
    else
      let cal := if bitAt c.arg0 8 then (s.group f).rxCal else (s.group f).txCal
      let entry := fun k => if first + k < s.groupSlots f then Assoc.get cal 0 (2 * (first + k) + page) else 0
      let word := fun b => entry b + 2 ^ 16 * entry (b + 1) + 2 ^ 32 * entry (b + 2) + 2 ^ 48 * entry (b + 3)
      ok s (word 0) (word 4)

def execFxeCalCopy (c : Cmd) (s : State) : Host.Outcome State Fault Refusal :=
  runCmd 0x0A04 1 1 c s fun s =>
    let f := bitsAt c.arg0 0 5
    if c.resv [(0, 5), (8, 1)] [] [] then fail stBadPayload s
    else if !s.groupEn f || s.switching f then fail stState s
    else
      let g := s.group f
      let n := s.groupSlots f
      ok (s.setGroup f (if bitAt c.arg0 8 then { g with rxCal := copyPage g.rxCal n (s.rxPage f) (1 - s.rxPage f) }
        else { g with txCal := copyPage g.txCal n (s.txPage f) (1 - s.txPage f) })) 0 0

/-- The IDs that clients of a group may use in its pages: their own, and PROT_ID of those it protects. -/
def State.groupIds (s : State) (f : Nat) : List Nat :=
  ((List.range 16).map fun i => 16 * (f / 2) + i).flatMap fun c =>
    if !s.clientEn c then []
    else if s.workGroup c = f then [s.fget (Fld.FXE_CLIENT_CFG_CLIENT_ID c)]
    else if s.clientProt c then [s.fget (Fld.FXE_CLIENT_PROT_PROT_ID c)]
    else []

/-- The page a group transmits from once the groups `fs` have switched. -/
def State.pageAfter (s : State) (fs : List Nat) (f : Nat) : Nat := if fs.contains f then 1 - s.txPage f else s.txPage f

/-- Every protected client of a slice would have one size in both its groups. -/
def State.sizesAgree (s : State) (fs : List Nat) (slice : Nat) : Bool :=
  ((List.range 16).map fun i => 16 * slice + i).all fun c =>
    if s.clientEn c && s.clientProt c then
      let w := s.workGroup c
      let p := s.protGroup c
      slotsOf (s.group w).txCal (s.groupSlots w) (s.pageAfter fs w) (s.fget (Fld.FXE_CLIENT_CFG_CLIENT_ID c))
        == slotsOf (s.group p).txCal (s.groupSlots p) (s.pageAfter fs p) (s.fget (Fld.FXE_CLIENT_PROT_PROT_ID c))
    else true

def execFxeCalSwitch (c : Cmd) (s : State) : Host.Outcome State Fault Refusal :=
  runCmd 0x0A03 1 1 c s fun s =>
    let ns := bitsAt c.arg0 0 32
    let sec := bitsAt c.arg0 32 32 + 2 ^ 32 * bitsAt c.arg1 0 16
    let asap := bitAt c.arg1 16
    let f := bitsAt c.arg1 17 5
    let pair := bitAt c.arg1 22
    let t := sec * 1000000000 + ns
    let fs := if pair then [f, pairOf f] else [f]
    let bad := fun g => !pageOk (s.group g).txCal (s.groupSlots g) (1 - s.txPage g)
      || !(pageIds (s.group g).txCal (s.groupSlots g) (1 - s.txPage g)).all fun id => (s.groupIds g).contains id
    if c.resv [(0, 64)] [(0, 23), (32, 16)] [] then fail stBadPayload s
    else if bitsAt c.arg1 32 16 = 0 ∨ 1000000000 ≤ ns ∨ (asap = false ∧ s.nowNs + 60000000000 < t) then fail stOutOfRange s
    else if fs.any (fun g => !s.groupEn g) || fs.any s.switching then fail stState s
    else if fs.any bad || !s.sizesAgree fs (f / 2) then fail stBadPayload s
    else
      let s1 := s.setGroup f { s.group f with switch := some ⟨c, if asap then none else some t, pair, false, none⟩ }
      (fs.foldl (fun u g => u.fset (Fld.FXE_GRP_STATUS_SWITCHING g) 1) s1, .later)

/-- The groups a waiting switch names. -/
def CalSwitch.groups (w : CalSwitch) (f : Nat) : List Nat := if w.pair then [f, pairOf f] else [f]

/-- The switch multiframe begins (R164 steps 4 to 6): the boundary must lie after M₁, 104.77 µs after CA, and not before T. -/
def execCalSwitchExecute (f : Nat) (s : State) : Host.Outcome State Fault Refusal :=
  match (s.group f).switch with
  | none => .next s
  | some w =>
    match w.caAt with
    | none => .next s
    | some t =>
      if !w.atM1 || decide (s.nowNs < t + 104770) || (match w.instant with | some i => decide (s.nowNs < i) | none => false) then .next s
      else
        let one := fun (u : State) g =>
          let u1 := ((u.fset (Fld.FXE_GRP_STATUS_TX_PAGE g) (1 - u.txPage g)).fset (Fld.FXE_GRP_STATUS_CR_TX g) 0).fset
            (Fld.FXE_GRP_STATUS_SWITCHING g) 0
          let u2 := u1.setInstant (Fld.FXE_GRP_SW_NS_NS g) (Fld.FXE_GRP_SW_SEC_LO_SEC g) (Fld.FXE_GRP_SW_SEC_HI_SEC g) u1.nowNs
          (u2.setEvent (Fld.FXE_GRP_EVENT_TX_SWITCHED g)).refreshGroup g
        let s1 := (w.groups f).foldl one (s.setGroup f { s.group f with switch := none })
        let sec := s.nowNs / 1000000000
        .next (s1.complete w.cmd 0x0A03 stOK (s.nowNs % 1000000000 + 2 ^ 32 * (sec % 2 ^ 32))
          (sec / 2 ^ 32 % 2 ^ 16 + 2 ^ 16 * s1.txPage f))

/-- TIMEOUT_MS passes before the switch multiframe (R165). -/
def execCalSwitchTimeout (f : Nat) (s : State) : Host.Outcome State Fault Refusal :=
  match (s.group f).switch with
  | none => .next s
  | some w =>
    let one := fun (u : State) g =>
      (((u.setGroup g { u.group g with crClear := true }).fset (Fld.FXE_GRP_STATUS_SWITCHING g) 0).setEvent
        (Fld.FXE_GRP_EVENT_SWITCH_TIMEOUT g))
    let s1 := (w.groups f).foldl one (s.setGroup f { s.group f with switch := none })
    .next (s1.complete w.cmd 0x0A03 stTimeout 0 0)

/-! ### Clients and protection (R174-R177) -/

/-- A client has not been good for DOWN_DEBOUNCE_US, or has been good for UP_HOLD_MS, of its anchor port. -/
def execClientDownDeclared (c : Nat) (s : State) : Host.Outcome State Fault Refusal := .next (s.declareDown (128 + c))

def execClientUpDeclared (c : Nat) (s : State) : Host.Outcome State Fault Refusal := .next (s.declareUp (128 + c))

/-- Signal fail of a path has lasted HOLDOFF: it counts for the selector. -/
def execSfHoldoffExpiry (c path : Nat) (s : State) : Host.Outcome State Fault Refusal :=
  let sf := if path = 0 then s.fbit (Fld.FXE_CLIENT_STATUS_SF_WORK c) else s.fbit (Fld.FXE_CLIENT_STATUS_SF_PROT c)
  if 256 ≤ c ∨ 2 ≤ path ∨ sf = false ∨ s.clientProt c = false then .next s
  else
    let key := 2 * c + path
    let s1 := { s with ports := { s.ports with sfHeld := s.ports.sfHeld.filter (· != key) ++ [key]
                                               wtr := if path = 0 then s.ports.wtr.filter (· != c) else s.ports.wtr } }
    .next ((s1.selector c).goodChange (128 + c))

/-- WTR_S has passed: the selector reverts to working. -/
def execWaitToRestoreExpiry (c : Nat) (s : State) : Host.Outcome State Fault Refusal :=
  if s.ports.wtr.contains c then
    let s1 := { s with ports := { s.ports with wtr := s.ports.wtr.filter (· != c) } }
    .next (((s1.selectPath c 0 false).selector c).goodChange (128 + c))
  else .next s

/-- Priority of a request in the table of R176. -/
def requestRank (op : Nat) : Nat := if op = 1 then 1 else if op = 2 ∨ op = 5 then 2 else if op = 3 ∨ op = 4 then 4 else 6

def execFxeProtOp (c : Cmd) (s : State) : Host.Outcome State Fault Refusal :=
  runCmd 0x0A05 1 1 c s fun s =>
    let cl := bitsAt c.arg0 0 8
    let op := bitsAt c.arg0 8 3
    if c.resv [(0, 11)] [] [] then fail stBadPayload s
    else if 5 < op then fail stOutOfRange s
    else if !s.clientEn cl || !s.clientProt cl then fail stState s
    else
      let keep := op != 0 && decide (requestRank (s.protRequest cl) < requestRank op)
      let s1 := if keep then s else { s with ports := { s.ports with protReq := Assoc.put s.ports.protReq 0 cl op } }
      let s2 := (s1.selector cl).goodChange (128 + cl)
      ok s2 (s2.fget (Fld.FXE_CLIENT_STATUS_SEL cl)) 0

end Sys2Proof.Machine
end

