-- ==== Sys2Proof/Machine/Parser.lean ====
section
/-! DEFINITION. The parser (06 R180-R208, R628): microcode banks, the parse of a pass, key construction, loading and reading microcode. -/

namespace Sys2Proof.Machine

open Sys2Proof

/-! ### Banks (R183-R187, R200, R201) -/

def bank0 : Bank := ⟨false, []⟩

def State.bank (s : State) (b : Nat) : Bank := Assoc.get s.par.banks bank0 b
def State.setBank (s : State) (b : Nat) (v : Bank) : State := { s with par := { s.par with banks := Assoc.put s.par.banks bank0 b v } }

/-- A byte of a bank's image. -/
def Bank.byte (b : Bank) (i : Nat) : Byte := Assoc.get b.bytes (if b.base then Config.baseImage i else 0) i

/-- `n` bytes of an image from `i`, little-endian. -/
def Bank.le (b : Bank) (i n : Nat) : Nat := leNat ((List.range n).map fun k => b.byte (i + k))

/-- The image is the base microcode, unchanged. -/
def Bank.isBase (b : Bank) : Bool := b.base && b.bytes.isEmpty

def Bank.image (b : Bank) : List Byte := (List.range 81920).map b.byte

def Bank.write (b : Bank) (off : Nat) (bs : List Byte) : Bank :=
  { b with bytes := bs.zipIdx.foldl (fun m e => Assoc.put m (if b.base then Config.baseImage (off + e.2) else 0) (off + e.2) e.1) b.bytes }

/-- A length check (R187); widths are counts of bits. -/
structure PCheck where
  off : Nat
  w : Nat
  scale : Nat
  kind : Nat
  limit : Bool
  add : Int
  deriving DecidableEq, Repr

/-- A parse state (R185). -/
structure PState where
  valid : Bool
  tunnel : Bool
  profileSet : Bool
  punt : Bool
  fragKind : Nat
  hdrType : Nat
  profile : Nat
  puntCode : Nat
  lenSrc : Bool
  lenFixed : Nat
  lenOff : Nat
  lenW : Nat
  lenScale : Nat
  lenAdd : Int
  lenMin : Nat
  check0 : PCheck
  check1 : PCheck
  selOff : Nat
  selW : Nat
  /-- VALUE, MASK, NEXT, T_VALID. -/
  trans : List (Nat × Nat × Nat × Bool)
  dflt : Nat
  deriving DecidableEq, Repr

def Bank.check (b : Bank) (o : Nat) : PCheck :=
  { off := bitsAt (b.le o 2) 0 9, w := bitsAt (b.le o 2) 9 4 + 1, scale := bitsAt (b.le (o + 2) 1) 0 2
    kind := bitsAt (b.le (o + 2) 1) 2 3, limit := bitAt (b.le (o + 2) 1) 5, add := signed (b.le (o + 4) 2) 16 }

/-- Byte offset of state n. -/
def stateOff (n : Nat) : Nat := 0x4000 + 128 * n

/-- State `n` of an image. -/
def Bank.state (b : Bank) (n : Nat) : PState :=
  let o := stateOff n
  let f := b.le o 1
  let len := b.le (o + 4) 2
  { valid := bitAt f 0, tunnel := bitAt f 1, profileSet := bitAt f 2, punt := bitAt f 3, fragKind := bitsAt f 4 2
    hdrType := b.le (o + 1) 1, profile := bitsAt (b.le (o + 2) 1) 0 4, puntCode := bitsAt (b.le (o + 2) 1) 4 4
    lenSrc := bitAt len 15, lenFixed := bitsAt len 0 9
    lenOff := bitsAt (b.le (o + 6) 2) 0 9, lenW := bitsAt (b.le (o + 6) 2) 9 4 + 1
    lenScale := bitsAt (b.le (o + 8) 1) 0 2, lenAdd := signed (b.le (o + 9) 1) 8, lenMin := bitsAt (b.le (o + 10) 2) 0 9
    check0 := b.check (o + 12), check1 := b.check (o + 20)
    selOff := bitsAt (b.le (o + 28) 2) 0 9, selW := bitsAt (b.le (o + 28) 2) 9 4 + 1
    trans := (List.range 8).map fun j =>
      (b.le (o + 32 + 8 * j) 2, b.le (o + 34 + 8 * j) 2, bitsAt (b.le (o + 36 + 8 * j) 2) 0 10, bitAt (b.le (o + 36 + 8 * j) 2) 15)
    dflt := bitsAt (b.le (o + 96) 2) 0 10 }

/-! ### The base microcode's graph (R204, R628) -/

def noCheck : PCheck := ⟨0, 1, 0, 0, false, 0⟩

/-- A state of a fixed length that ends the parse. -/
def leafState (hdrType len : Nat) : PState :=
  { valid := true, tunnel := false, profileSet := false, punt := false, fragKind := 0, hdrType := hdrType, profile := 0
    puntCode := 0, lenSrc := false, lenFixed := len, lenOff := 0, lenW := 1, lenScale := 0, lenAdd := 0, lenMin := 0
    check0 := noCheck, check1 := noCheck, selOff := 0, selW := 1, trans := [], dflt := 0x3FF }

/-- A check of kind 4 on a 16-bit field. -/
def fitCheck (off : Nat) (add : Int) (limit : Bool) : PCheck := ⟨off, 16, 0, 4, limit, add⟩

/-- Transitions on a whole field. -/
def onField (xs : List (Nat × Nat)) : List (Nat × Nat × Nat × Bool) := xs.map fun e => (e.1, 0xFFFF, e.2, true)

/-- The graph's states: type t at number t before any tunnel, at 32 + t after one. -/
def baseState (n : Nat) : PState :=
  let post := decide (32 ≤ n)
  let go := fun t => if post then 32 + t else t
  let etype := onField [(0x8100, go 2), (0x88A8, go 2), (0x9100, go 2), (0x8847, go 3), (0x0800, go 5), (0x86DD, go 6),
    (0xAEFE, go 15), (0x88F7, go 16)]
  let next6 := onField [(6, go 10), (17, go 9), (47, go 12), (58, go 11), (44, go 8), (0, go 7), (43, go 7), (60, go 7)]
  match n % 32 with
  | 1 => { leafState 1 14 with selOff := 96, selW := 16, trans := etype }
  | 2 => { leafState 2 4 with selOff := 16, selW := 16, trans := etype }
  | 3 => { leafState 3 4 with
      selOff := 23, selW := 13
      trans := [(0, 0x1000, go 3, true), (0x1004, 0x100F, go 5, true), (0x1006, 0x100F, go 6, true), (0x1000, 0x100F, go 4, true)] }
  | 4 => { leafState 4 4 with tunnel := true, dflt := 33 }
  | 5 => { leafState 5 0 with
      lenSrc := true, lenOff := 4, lenW := 4, lenScale := 2, lenMin := 20, fragKind := 1, check0 := fitCheck 16 0 true
      profileSet := !post, profile := 1, selOff := 72, selW := 8
      trans := onField [(6, go 10), (17, go 9), (47, go 12), (1, go 11)] }
  | 6 => { leafState 6 40 with
      check0 := fitCheck 32 40 true, profileSet := !post, profile := 2, selOff := 48, selW := 8, trans := next6 }
  | 7 => { leafState 7 0 with
      lenSrc := true, lenOff := 8, lenW := 8, lenScale := 3, lenAdd := 8, selOff := 0, selW := 8, trans := next6 }
  | 8 => { leafState 8 8 with fragKind := 2, selOff := 0, selW := 8, trans := next6 }
  | 9 => { leafState 9 8 with
      check0 := fitCheck 32 0 true, selOff := 16, selW := 16
      trans := onField [(4789, go 13), (2152, go 14), (319, go 16), (320, go 16)] }
  | 10 => { leafState 10 0 with lenSrc := true, lenOff := 96, lenW := 4, lenScale := 2, lenMin := 20 }
  | 11 => leafState 11 8
  | 12 => { leafState 12 4 with
      tunnel := true, selOff := 16, selW := 16, trans := onField [(0x6558, 33), (0x0800, 37), (0x86DD, 38)] }
  | 13 => { leafState 13 8 with tunnel := true, dflt := 33 }
  | 14 => { leafState 14 8 with tunnel := true, selOff := 64, selW := 4, trans := [(4, 0xF, 37, true), (6, 0xF, 38, true)] }
  | 15 => { leafState 15 4 with check0 := fitCheck 16 4 false }
  | 16 => leafState 16 34
  | _ => { leafState 0 1 with valid := false }

/-- State `n` of a bank, as the parse runs it. -/
def Bank.stateAt (b : Bank) (n : Nat) : PState := if b.isBase then baseState n else b.state n

/-- What the bank header gives the parse: DEPTH in bytes, LC_ACTION, LC_RING, PUNT_RING (R184). -/
def Bank.depth (b : Bank) : Nat := if b.isBase then 256 else 32 * bitsAt (b.le 4 1) 0 5
def Bank.lcPunt (b : Bank) : Bool := !b.isBase && bitAt (b.le 5 1) 0
def Bank.lcRing (b : Bank) : Nat := bitsAt (b.le 6 1) 0 6
def Bank.puntRing (b : Bank) : Nat := bitsAt (b.le 7 1) 0 6

/-- The start state (R181): of a first pass, of a host packet, of a recirculated pass. -/
def Bank.start (b : Bank) (md : Meta) : Nat :=
  if b.isBase then 1
  else if md.pass ≠ 0 then bitsAt (b.le 12 2) 0 10
  else if bitAt md.flags 3 ∧ md.inPort = 0xFFFF then bitsAt (b.le 10 2) 0 10
  else bitsAt (b.le 8 2) 0 10

/-! ### The parse (R186-R196) -/

/-- `w` bits of a packet from bit `o`, in network order; bits beyond its end read as 0. -/
def pktBits (bytes : List Byte) (o w : Nat) : Nat :=
  let n := (o % 8 + w + 7) / 8
  beAt bytes (o / 8) n / 2 ^ (8 * n - o % 8 - w) % 2 ^ w

/-- A field of a header at `off` ends at or past byte limit `x`. -/
def reaches (off o w x : Nat) : Bool := decide (x < (8 * off + o + w + 7) / 8)

def PCheck.on (c : PCheck) : Bool := c.kind != 0

/-- fields_reach of R189. -/
def PState.fieldsReach (st : PState) (off x : Nat) : Bool :=
  (st.lenSrc && reaches off st.lenOff st.lenW x) || (st.check0.on && reaches off st.check0.off st.check0.w x)
    || (st.check1.on && reaches off st.check1.off st.check1.w x)

/-- The header length (R186). -/
def PState.hdrLen (st : PState) (bytes : List Byte) (off : Nat) : Int :=
  if st.lenSrc then ((pktBits bytes (8 * off + st.lenOff) st.lenW * 2 ^ st.lenScale : Nat) : Int) + st.lenAdd else (st.lenFixed : Nat)

/-- L of a check. -/
def PCheck.value (c : PCheck) (bytes : List Byte) (off : Nat) : Int :=
  ((pktBits bytes (8 * off + c.off) c.w * 2 ^ c.scale : Nat) : Int) + c.add

/-- A check passes for header length h and remainder r (R187). -/
def PCheck.passes (c : PCheck) (bytes : List Byte) (off : Nat) (h r : Int) : Bool :=
  let l := c.value bytes off
  match c.kind with
  | 1 => decide (l ≤ r)
  | 2 => decide (l = r)
  | 3 => decide (h ≤ l)
  | 4 => decide (h ≤ l) && decide (l ≤ r)
  | _ => true

/-- The packet end after a header's limits. -/
def PState.limits (st : PState) (bytes : List Byte) (off e : Nat) : Nat :=
  let one := fun (e : Nat) (c : PCheck) => if c.on && c.limit then ((off : Int) + c.value bytes off).toNat else e
  one (one e st.check0) st.check1

/-- The selector: bits at or beyond the end or the depth read as 0 (R188). -/
def PState.selector (st : PState) (bytes : List Byte) (off e depth : Nat) : Nat :=
  let start := 8 * off + st.selOff
  let seen := min st.selW (8 * min e depth - start)
  pktBits bytes start st.selW / 2 ^ (st.selW - seen) * 2 ^ (st.selW - seen)

/-- The next state. -/
def PState.next (st : PState) (sel : Nat) : Nat :=
  match st.trans.find? fun t => t.2.2.2 && Nat.land sel t.2.1 == t.1 with
  | some t => t.2.2.1
  | none => st.dflt

/-- A fragmenting header: offset and more-fragments bit (R196). -/
def PState.fragment (st : PState) (bytes : List Byte) (off : Nat) : Option Bool :=
  let o := if st.fragKind = 1 then pktBits bytes (8 * off + 51) 13 else pktBits bytes (8 * off + 16) 13
  let m := if st.fragKind = 1 then pktBits bytes (8 * off + 50) 1 else pktBits bytes (8 * off + 31) 1
  if st.fragKind = 0 ∨ (o = 0 ∧ m = 0) then none else some (o == 0)

/-- A recorded header instance (R198). -/
structure PInst where
  type : Nat
  off : Nat
  level : Nat
  deriving DecidableEq, Repr

/-- The state of a parse, and its outcome. -/
structure Parse where
  off : Nat
  fin : Nat
  level : Nat
  insts : List PInst
  parsedLen : Nat
  profile : Nat
  trunc : Nat
  conflict : Bool
  fragFirst : Bool
  fragLater : Bool
  punt : Option Nat
  last : Nat
  deriving DecidableEq, Repr

/-- One step of the loop of R189 in state `n`: the parse so far, and the next state when it goes on. -/
def Parse.step (b : Bank) (bytes : List Byte) (n : Nat) (p : Parse) : Parse × Option Nat :=
  let st := b.stateAt n
  let depth := b.depth
  let stop := { p with last := n }
  let h := st.hdrLen bytes p.off
  let r := (p.fin : Int) - (p.off : Int)
  if st.fieldsReach p.off p.fin then ({ stop with conflict := true }, none)
  else if st.fieldsReach p.off depth then ({ stop with trunc := 1 }, none)
  else if h < 1 ∨ 256 < h ∨ h < (st.lenMin : Int) then ({ stop with conflict := true }, none)
  else if r < h then ({ stop with conflict := true }, none)
  else if !(st.check0.passes bytes p.off h r && st.check1.passes bytes p.off h r) then ({ stop with conflict := true }, none)
  else if (depth : Int) < (p.off : Int) + h then ({ stop with trunc := 1 }, none)
  else if st.hdrType ≠ 0 ∧ p.insts.length = 16 then ({ stop with trunc := 2 }, none)
  else
    let len := h.toNat
    let rec' := if st.hdrType ≠ 0 then { stop with insts := p.insts ++ [⟨st.hdrType, p.off, p.level⟩], parsedLen := p.parsedLen + len }
      else stop
    let fin := st.limits bytes p.off p.fin
    let q := { rec' with fin := fin, profile := if st.profileSet then st.profile else p.profile }
    if st.punt then ({ q with punt := some st.puntCode }, none)
    else
      match st.fragment bytes p.off with
      | some first => ({ q with fragFirst := first, fragLater := !first }, none)
      | none =>
        let reach := (8 * p.off + st.selOff + st.selW + 7) / 8
        if depth < reach ∧ reach ≤ fin then ({ q with trunc := 1 }, none)
        else
          let nx := st.next (st.selector bytes p.off fin depth)
          let q1 := { q with off := p.off + len }
          if st.tunnel then
            if p.level = 7 then ({ q1 with trunc := 4 }, none) else ({ q1 with level := p.level + 1 }, some nx)
          else (q1, some nx)

/-- The loop: `fuel` states are left of the 32 (R190). -/
def Parse.run (b : Bank) (bytes : List Byte) : Nat → Nat → Parse → Parse
  | fuel, n, p =>
    if n = 0x3FF then { p with last := 0x3FF }
    else
      match fuel with
      | 0 => { p with trunc := 3, last := n }
      | fuel' + 1 =>
        match p.step b bytes n with
        | (q, some nx) => Parse.run b bytes fuel' nx q
        | (q, none) => q

/-- The parse of a packet at the start of a pass. -/
def Bank.parse (b : Bank) (p : Pkt) : Parse :=
  Parse.run b p.bytes 32 (b.start p.md)
    { off := 0, fin := p.bytes.length, level := 0, insts := [], parsedLen := 0, profile := 0, trunc := 0, conflict := false
      fragFirst := false, fragLater := false, punt := none, last := 0x3FF }

/-! ### The result record (R198) -/

/-- LAST_STATE as the record shows it: the base image numbers its own states. -/
def Bank.shownState (b : Bank) (n : Nat) : Nat := if b.isBase && n != 0x3FF then Config.baseStateNum n % 512 else n

def Parse.record (r : Parse) (b : Bank) (bankNum : Nat) (md : Meta) : List Byte :=
  let inst := (List.range 16).flatMap fun i =>
    match r.insts[i]? with
    | some x => leBytes 3 (x.type + 2 ^ 8 * x.off + 2 ^ 17 * x.level)
    | none => leBytes 3 0
  leBytes 1 (md.gen + 4 * bankNum + 16 * md.pass)
    ++ leBytes 1 (b2n (r.trunc != 0) + 2 * b2n r.conflict + 4 * b2n r.fragFirst + 8 * b2n r.fragLater + 16 * b2n r.punt.isSome)
    ++ leBytes 1 (r.trunc + 8 * r.level) ++ leBytes 1 r.insts.length
    ++ leBytes 2 (b.shownState r.last + 2 ^ 12 * r.profile) ++ leBytes 2 r.parsedLen ++ leBytes 1 (r.punt.getD 0) ++ leBytes 7 0 ++ inst

/-! ### Keys (R199-R203) -/

/-- A key selector (R201); `w` is its width. -/
structure KeySel where
  src : Nat
  type : Nat
  occ : Nat
  inner : Bool
  bitOff : Nat
  const : Nat
  w : Nat
  dst : Nat
  deriving DecidableEq, Repr

def keySel (x : Nat) : KeySel :=
  { src := bitsAt x 38 2, type := bitsAt x 30 8, occ := bitsAt x 27 3, inner := bitAt x 26, bitOff := bitsAt x 17 9
    const := bitsAt x 17 21, w := bitsAt x 12 5 + 1, dst := bitsAt x 3 9 }

/-- Byte offset of template t. -/
def tmplOff (t : Nat) : Nat := 0x1000 + 128 * t

/-- The selectors in use of a template. -/
def Bank.tmplSels (b : Bank) (t : Nat) : List KeySel :=
  (List.range (bitsAt (b.le (tmplOff t + 1) 1) 0 5)).map fun k => keySel (b.le (tmplOff t + 8 + 5 * k) 5)

def hdrSel (type bitOff w dst : Nat) : KeySel := ⟨0, type, 0, false, bitOff, 0, w, dst⟩
def constSel (v w dst : Nat) : KeySel := ⟨2, 0, 0, false, 0, v, w, dst⟩

/-- The keys of the base microcode (R204, R241, R628): 0 prefix, 1 EM0, 2 EM1, 3 CAM, of a profile. -/
def baseKey (profile key : Nat) : Option (List KeySel) :=
  let vid := hdrSel 2 4 12 48
  match key with
  | 0 =>
    if profile = 1 then some [hdrSel 5 128 32 96]
    else if profile = 2 then
      some [hdrSel 6 192 32 96, hdrSel 6 224 32 64, hdrSel 6 256 32 32, hdrSel 6 288 32 0, constSel 1 1 159]
    else none
  | 1 => some [hdrSel 1 0 16 32, hdrSel 1 16 32 0, vid]
  | 2 => some [hdrSel 1 48 16 32, hdrSel 1 64 32 0, vid]
  | _ => none

/-- The selectors of a key of a profile, when it is built (R199). -/
def Bank.keySels (b : Bank) (profile key : Nat) : Option (List KeySel) :=
  if b.isBase then baseKey profile key
  else
    let e := b.le (64 + 4 * profile + key) 1
    if bitAt e 7 then some (b.tmplSels (bitsAt e 0 6)) else none

/-- The instance a header selector names. -/
def KeySel.inst (k : KeySel) (r : Parse) : Option PInst :=
  let mine := r.insts.filter (·.type == k.type)
  (if k.inner then mine.reverse else mine)[k.occ]?

/-- The field of a selector is found (R202). -/
def KeySel.found (k : KeySel) (r : Parse) (depth : Nat) : Bool :=
  k.src != 0
    || (match k.inst r with
      | some i => !reaches i.off k.bitOff k.w r.fin && !reaches i.off k.bitOff k.w depth
      | none => false)

/-- The metadata fields of R203 with their widths. -/
def metaField (p : Pkt) (r : Parse) (depth present id : Nat) : Nat × Nat :=
  match id with
  | 0 => (p.md.inPort, 16)
  | 1 => (p.md.inClient, 9)
  | 2 => (p.md.pass, 3)
  | 3 => (b2n (r.trunc != 0) + 2 * b2n r.fragFirst + 4 * b2n r.fragLater + 8 * b2n (bitAt p.md.flags 3) + 16 * b2n (bitAt p.md.flags 4), 5)
  | 4 => (r.level, 3)
  | 5 => (present, 24)
  | 6 => (p.md.cookie, 32)
  | 7 => (if p.md.pass = 0 ∧ bitAt p.md.flags 3 = false ∧ depth < p.bytes.length then 0 else p.bytes.length, 14)
  | _ => (0, 1)

/-- The value a selector writes. -/
def KeySel.value (k : KeySel) (p : Pkt) (r : Parse) (depth present : Nat) : Nat :=
  match k.src with
  | 0 =>
    match k.inst r with
    | some i => if k.found r depth then pktBits p.bytes (8 * i.off + k.bitOff) k.w else 0
    | none => 0
  | 1 =>
    match metaField p r depth present k.type with
    | (v, fw) => v * 2 ^ (k.bitOff + k.w) / 2 ^ fw % 2 ^ k.w
  | 2 => k.const
  | _ => 0

/-- Builds a key from its selectors. -/
def buildKey (sels : List KeySel) (p : Pkt) (r : Parse) (depth : Nat) : Nat :=
  let present := (sels.zipIdx.filter fun e => e.1.found r depth).foldl (fun n e => n + 2 ^ e.2) 0
  sels.foldl (fun key k => putBits key k.dst k.w (k.value p r depth present)) 0

/-- Key 0 to 3 of a pass. -/
def Bank.key (b : Bank) (p : Pkt) (r : Parse) (key : Nat) : Option Nat :=
  (b.keySels r.profile key).map fun sels => buildKey sels p r b.depth

/-! ### Trace and counters (R207, R208) -/

/-- A write of PAR_TRACE_CTRL: the filter, and ARM. -/
def State.hookTrace (s : State) (v : Nat) : State :=
  let busy := if v % 2 = 1 then 1 else s.fget Fld.PAR_TRACE_CTRL_BUSY
  s.setReg Reg.PAR_TRACE_CTRL (BitVec.ofNat 32 (putBits (Nat.land v 0x3FFC) 1 1 busy))

/-- An armed capture takes the record of a pass that its filter matches. -/
def State.traceCapture (s : State) (slice : Nat) (p : Pkt) (record : List Byte) : State :=
  let hit := if s.fbit Fld.PAR_TRACE_CTRL_ANY_PORT then s.fget Fld.PAR_TRACE_CTRL_SLICE == slice
    else p.md.inPort == s.fget Fld.PAR_TRACE_CTRL_PORT && s.portEn p.md.inPort
  if s.fbit Fld.PAR_TRACE_CTRL_BUSY && hit then
    let s1 := (List.range 16).foldl (fun t w => t.setReg (Reg.PAR_TRACE_DATA w) (BitVec.ofNat 32 (leAt record (4 * w) 4))) s
    (s1.fset Fld.PAR_TRACE_CTRL_BUSY 0).setEvent Fld.PAR_EVENT_TRACE_DONE
  else s

/-- Counts the outcome of a parse (R191, R192, R195, R197). -/
def State.parseCount (s : State) (slice : Nat) (r : Parse) : State :=
  let s1 := if r.trunc = 0 then s else (s.satAdd (Fld.PAR_TRUNC_CNT_COUNT slice) 1).setEvent Fld.PAR_EVENT_TRUNC_SEEN
  let s2 := if r.conflict then (s1.satAdd (Fld.PAR_LC_CNT_COUNT slice) 1).setEvent Fld.PAR_EVENT_LC_SEEN else s1
  let s3 := if r.fragFirst || r.fragLater then s2.satAdd (Fld.PAR_FRAG_CNT_COUNT slice) 1 else s2
  if r.punt.isSome then s3.satAdd (Fld.PAR_PUNT_CNT_COUNT slice) 1 else s3

/-! ### Validation (R206) -/

/-- Bits of byte `i` of an image that a field defines. -/
def definedBits (i : Nat) : Nat :=
  let check := fun k => if k < 2 then [0xFF, 0x1F].getD k 0 else if k = 2 then 0x3F else if k = 4 ∨ k = 5 then 0xFF else 0
  if i < 4 then 0xFF
  else if i < 14 then [0x1F, 0x01, 0x3F, 0x3F, 0xFF, 0x03, 0xFF, 0x03, 0xFF, 0x03].getD (i - 4) 0
  else if i < 64 then 0
  else if i < 128 then 0xBF
  else if i < 0x1000 then 0
  else if i < 0x3000 then
    let k := i % 128
    if k = 0 then 0x03 else if k = 1 then 0x1F else if k < 8 then 0 else if (k - 8) % 5 = 0 then 0xF8 else 0xFF
  else if i < 0x4000 then 0
  else
    let k := i % 128
    if k < 12 then [0x3F, 0xFF, 0xFF, 0x00, 0xFF, 0x81, 0xFF, 0x1F, 0x03, 0xFF, 0xFF, 0x01].getD k 0
    else if k < 20 then check (k - 12)
    else if k < 28 then check (k - 20)
    else if k < 32 then [0xFF, 0x1F, 0, 0].getD (k - 28) 0
    else if k < 96 then [0xFF, 0xFF, 0xFF, 0xFF, 0xFF, 0x83, 0, 0].getD (k % 8) 0
    else [0xFF, 0x03].getD (k - 96) 0

/-- The first of some numbered offsets whose test fails. -/
def firstBad (rule : Nat) (xs : List (Nat × Bool)) : Option (Nat × Nat) := (xs.find? fun e => !e.2).map fun e => (rule, e.1)

/-- The first rule of R206 that an image fails, and the byte offset of the item. -/
def Bank.validate (b : Bank) : Option (Nat × Nat) :=
  let validNext := fun n => n == 0x3FF || (decide (n < 512) && (b.state n).valid)
  let validStart := fun n => decide (n < 512) && (b.state n).valid
  let states := (List.range 512).filter fun n => (b.state n).valid
  let perState := fun (f : Nat → PState → List (Nat × Bool)) => states.flatMap fun n => f (stateOff n) (b.state n)
  let checks := fun (o : Nat) (c : PCheck) =>
    [(o, decide (c.kind ≤ 4) && !(c.limit && (c.kind == 0 || c.kind == 3)) && decide (c.off + c.w ≤ 512))]
  let entries := ((List.range 16).flatMap fun p => (List.range 4).map fun k => (64 + 4 * p + k, k)).filter fun e => bitAt (b.le e.1 1) 7
  let kindOf := fun k => if k = 0 then 0 else if k = 3 then 2 else 1
  let widthOf := fun k => if k = 0 then 160 else if k = 3 then 480 else 384
  let tmpl := fun o => bitsAt (b.le o 1) 0 6
  let rules : List (Option (Nat × Nat)) := [
    firstBad 1 [(4, decide (2 ≤ bitsAt (b.le 4 1) 0 5) && decide (bitsAt (b.le 4 1) 0 5 ≤ 16))],
    firstBad 2 ([8, 10, 12].map fun o => (o, validStart (bitsAt (b.le o 2) 0 10))),
    firstBad 3 (perState fun o st => (st.trans.zipIdx.map fun e => (o + 36 + 8 * e.2, !e.1.2.2.2 || validNext e.1.2.2.1))
      ++ [(o + 96, validNext st.dflt)]),
    firstBad 4 (perState fun o st => [(o + 4, st.lenSrc || (decide (1 ≤ st.lenFixed) && decide (st.lenFixed ≤ 256))),
      (o + 6, decide (st.lenOff + st.lenW ≤ 512)), (o + 10, decide (st.lenMin ≤ 256))]),
    firstBad 5 (perState fun o st => checks (o + 12) st.check0 ++ checks (o + 20) st.check1),
    firstBad 6 (perState fun o st => [(o + 28, decide (st.selOff + st.selW ≤ 512))]),
    firstBad 7 (entries.map fun e => (e.1, decide (1 ≤ bitsAt (b.le (tmplOff (tmpl e.1) + 1) 1) 0 5)
      && bitsAt (b.le (tmplOff (tmpl e.1)) 1) 0 2 == kindOf e.2)),
    firstBad 8 (entries.flatMap fun e => (b.tmplSels (tmpl e.1)).zipIdx.map fun x =>
      (tmplOff (tmpl e.1) + 8 + 5 * x.2, decide (x.1.src ≤ 2) && decide (x.1.dst + x.1.w ≤ widthOf e.2)
        && (x.1.src != 1 || decide (x.1.type ≤ 7)) && (x.1.src != 2 || decide (x.1.w ≤ 21))
        && (x.1.src != 0 || decide (x.1.bitOff + x.1.w ≤ 512)))),
    firstBad 10 ((List.range 81920).map fun i => (i, Nat.land (b.byte i).toNat (255 - definedBits i) == 0))]
  rules.foldl (fun r x => match r with | some e => some e | none => x) none

/-! ### Commands (R205) -/

/-- CRC-32C of a bank's image. -/
def Bank.crc (b : Bank) : Nat := if b.isBase then Config.baseCrc % 2 ^ 32 else crc32cStd (b.image.map (·.toNat))

def parFields : List (Nat × Nat × Nat) := [(32, 0, 64), (40, 0, 20), (44, 0, 20)]

/-- OFFSET and LENGTH are in range (R205). -/
def parRange (off len : Nat) : Bool := off % 4 == 0 && len % 4 == 0 && decide (4 ≤ len) && decide (off + len ≤ 81920)

/-- A bank takes an image: its version and CRC are shown. -/
def State.installBank (s : State) (n : Nat) (b : Bank) : State :=
  ((s.setBank n b).setReg (Reg.PAR_BANK_VER n) (BitVec.ofNat 32 (b.le 0 4))).setReg (Reg.PAR_BANK_CRC n) (BitVec.ofNat 32 b.crc)

/-- The bank that a load of the open build writes (03 R106): its own, or the lowest-numbered one that no live generation maps. -/
def State.loadBank (s : State) : Nat :=
  let g := s.buildGen
  let own := s.fget (fldGenBank g)
  if own ≠ s.fget (fldGenBank s.activeGen) then own
  else
    let mapped := ((List.range 4).filter fun h => s.genLive h).map fun h => s.fget (fldGenBank h)
    ((List.range 4).find? fun n => !mapped.contains n).getD own

/-- Loads bytes into the build's bank; a bank that fails validation stays as it was. Answers the state and the outcome: status, RESULT0, RESULT1. -/
def State.parLoad (s : State) (off : Nat) (bytes : List Byte) : State × Nat × Nat × Nat :=
  let g := s.buildGen
  let n := s.loadBank
  let b := (s.bank (s.fget (fldGenBank g))).write off bytes
  match b.validate with
  | some (rule, at') => (s, stBadPayload, 0, rule + 2 ^ 32 * at')
  | none => ((s.installBank n b).fset (fldGenBank g) n, stOK, b.crc + 2 ^ 32 * n, 0)

/-- The status of a command that acts on the open build of its master (R205). -/
def State.parState (s : State) (m : Nat) : Option (Nat × Nat) :=
  if !s.buildOpen then some (stState, 0)
  else if s.fget Fld.GEN_STATE_HOLDER ≠ m then some (stBusy, s.busyResult)
  else if s.genClosing then some (stState, 0)
  else none

/-- PAR_LOAD. -/
def parLoadCmd (c : Cmd) (d : HostData) (s : State) : State × Done :=
  let off := c.fld 40 0 20
  let len := c.fld 44 0 20
  if c.resv [] [] parFields then fail stBadPayload s
  else if !parRange off len then fail stOutOfRange s
  else
    match s.parState (s.cmdMaster c) with
    | some (st, r0) => (s, .done st r0 0)
    | none =>
      match d.get with
      | .error st => fail st s
      | .ok bytes =>
        match s.parLoad off (bytes.take len ++ List.replicate (len - bytes.length) 0) with
        | (s1, st, r0, r1) => (s1, .done st r0 r1)

/-- PAR_READ. -/
def parReadCmd (c : Cmd) (s : State) : State × Done :=
  let off := c.fld 40 0 20
  let len := c.fld 44 0 20
  let g := bitsAt c.arg0 0 2
  if c.resv [(0, 2)] [] parFields then fail stBadPayload s
  else if !parRange off len then fail stOutOfRange s
  else if !s.genReadable g then fail stState s
  else
    let n := s.fget (fldGenBank g)
    let b := s.bank n
    ok (s.emit (.hostWrite (c.fld 32 0 64) ((List.range len).map fun k => b.byte (off + k)))) (b.crc + 2 ^ 32 * n) 0

end Sys2Proof.Machine
end

