-- ==== Sys2Proof/Machine/Ingress.lean ====
section
/-! DEFINITION. The ingress half of a slice: slot grants and freezes (01 R23-R25, 07 R223-R225, 09 R274), the end of a pass with parse,
lookups, decision and attributes (06 R197-R203, 09 R280-R285), host and mirror copies (10 R312-R315), ingress edits and offsets (10
R300-R306), recirculation (10 R301-R304), replication (09 R283, 10 R312), late probes (17 R503). -/

namespace Sys2Proof.Machine

open Sys2Proof

/-- FLAGS bit numbers of the metadata record (10 R299). -/
def flagHost : Nat := 3
def flagRecirc : Nat := 4
def flagErr : Nat := 5
def flagTsReq : Nat := 6

/-- `x` with bit `i` as `b`. -/
def withBit (x i : Nat) (b : Bool) : Nat := putBits x i 1 (b2n b)

/-! ### Slot grants and probes -/

/-- Probes of a pass, how many of them are exact-match ones, and how many are false candidates (07 R221, R223). -/
def State.passProbes (s : State) (p : Pkt) : Nat × Nat × Nat × State :=
  let g := p.md.gen
  let b := s.bank (s.fget (fldGenBank g))
  let r := b.parse p
  if r.conflict ∨ r.punt.isSome then (0, 0, 0, s)
  else
    let exm := fun (key : Option Nat) =>
      match key with
      | none => 0
      | some k => if s.fbit Fld.EXM_CFG_EN && s.tblEn (tblOf k) then s.exmProbes g (tblOf k) (s.exmMask (tblOf k) (keyOf k)) else 0
    let em := exm (b.key p r 1) + exm (b.key p r 2)
    match b.key p r 0 with
    | none => (em, em, 0, s)
    | some k =>
      match s.free 1 with
      | (noise, s1) =>
        let res := s1.lpmLookup k g 0 noise
        (res.cands + em, em, res.falseCands, s1)

/-- Probes leave for the FE HBM: debited and counted. -/
def State.issueProbes (s : State) (i n em : Nat) : State :=
  let s1 := (s.fset (Fld.LPM_CREDIT_CREDIT i) (s.fget (Fld.LPM_CREDIT_CREDIT i) - n)).pairAdd (Reg.LPM_PROBES_LO i) (Reg.LPM_PROBES_HI i) n
  (((s1.pmc 0x020 i 0 (n - em)).pmc 0x021 i 0 em).hbfAccess i lpmUnits.1 lpmUnits.2 (n - em)).hbfAccess i exmUnits.1 exmUnits.2 em

/-- Earns the credit of some CLK_FE cycles, up to the cap of 4,800. -/
def State.earnCredit (s : State) (i cycles : Nat) : State :=
  s.fset (Fld.LPM_CREDIT_CREDIT i) (min 4800 (s.fget (Fld.LPM_CREDIT_CREDIT i) + 4 * cycles))

/-- Cycles pass in a slice: a new cycle has no grant yet, and step 1 alternates (09 R274). -/
def SliceState.tick (x : SliceState) (cycles : Nat) : SliceState :=
  if cycles = 0 then x else { x with cycle := 0, grants := 0, odd := if cycles % 2 = 1 then !x.odd else x.odd }

/-- Slots of the present cycle under a CAM step. -/
def SliceState.slots (x : SliceState) (step : Nat) : Nat := if step = 0 then 2 else if step = 1 ∧ x.odd = false then 2 else 1

/-- A CAM step change takes effect in every slice in the same cycle (09 R275). -/
def State.setCamStep (s : State) (step : Nat) : State :=
  if s.fget Fld.CAM_STATUS_STEP = step then s
  else
    let s1 := (List.range 16).foldl (fun t i => t.setSlice i { t.slice i with odd := false }) s
    (s1.fset Fld.CAM_STATUS_STEP step).setEvent Fld.CAM_EVENT_STEP_CHANGE

/-- A die reset stops the grants of first passes (21 R588). -/
def State.dieResetRuns (s : State) : Bool := s.fbit Fld.RST_STATUS_DIE_FE_BUSY || s.fbit Fld.RST_STATUS_DIE_TM_BUSY

/-- The packet that the arbiter grants next, and the slice without it (R24). -/
def SliceState.nextPass (x : SliceState) (firstToo : Bool) : Option (Pkt × SliceState) :=
  match (if firstToo then x.hold else []), x.recirc, x.inject with
  | p :: ps, _, _ => some (p, { x with hold := ps })
  | [], p :: ps, _ => some (p, { x with recirc := ps })
  | [], [], p :: ps => some (p, { x with inject := ps })
  | [], [], [] => none

/-- A pipeline-injected packet takes its stamp and its generation at the grant of its slot (03 R113). -/
def State.injectStamp (s : State) (slice : Nat) (p : Pkt) : State × Pkt :=
  if p.md.pass ≠ 0 ∨ bitAt p.md.flags flagHost = false then (s, p)
  else
    match s.stampGen (128 + slice) s.nowQns with
    | (gen, s1) =>
      (s1.drainInc gen,
       { p with md := { p.md with gen := gen, stampNs := s.nowNs % 1000000000, stampQns := s.view.qns, stampSec := s.view.sec } })

/-- The slot arbiter grants a slot, `idle` CLK_FE cycles after the last one; the pass issues its probes, or the slice freezes. -/
def execSlotGrant (slice idle : Nat) (s : State) : Host.Outcome State Fault Refusal :=
  if 16 ≤ slice ∨ s.stoppedForwarding = true ∨ (s.slice slice).frozen = true ∨ 1 < s.fget (Fld.PWR_DOM_STATE_STATE (3 + slice)) then
    .next s
  else
    let s1 := (s.earnCredit slice idle).pmc 0x013 slice 0 (2 * idle - (s.slice slice).grants)
    let x := (s1.slice slice).tick idle
    let s2 := s1.setSlice slice x
    match x.nextPass (!s.dieResetRuns) with
    | none => .next s2
    | some (waiting, y) =>
      if 2 ≤ x.grants then .next s2
      else if x.slots (s.fget Fld.CAM_STATUS_STEP) ≤ x.grants then
        .next (((s2.setSlice slice { x with grants := 2 }).satAdd (Fld.CAM_WITHHELD_COUNT slice) 1).pmc 0x015 slice 0 1)
      else
        match s2.injectStamp slice waiting with
        | (s2', p) =>
        match s2'.passProbes p with
        | (n, em, false', s3) =>
          let s4 := (s3.satAdd (Fld.LPM_FALSE_CNT_COUNT slice) false').pmc 0x022 slice 0 false'
          let s5 :=
            if p.md.pass ≠ 0 then (s4.satAdd (Fld.RCL_PASS_CNT_COUNT slice) 1).pmc 0x011 slice 0 1
            else s4.pmc (if bitAt p.md.flags flagHost then 0x012 else 0x010) slice 0 1
          let total := y.cycle + n
          if s5.fget (Fld.LPM_CREDIT_CREDIT slice) < n ∨ 16 < total then
            .next (s5.setSlice slice { y with passes := y.passes ++ [⟨p, n, em, false⟩], cycle := total, grants := y.grants + 1, frozen := true })
          else
            .next ((s5.issueProbes slice n em).setSlice slice
              { y with passes := y.passes ++ [⟨p, n, em, true⟩], cycle := total, grants := y.grants + 1 })

/-- Frozen cycles pass; once the credit covers the waiting probes they are issued and the freeze ends (R224). -/
def execFreezeEnd (slice cycles : Nat) (s : State) : Host.Outcome State Fault Refusal :=
  let x := s.slice slice
  if 16 ≤ slice ∨ x.frozen = false then .next s
  else
    let s1 := ((s.earnCredit slice cycles).satAdd (Fld.LPM_FREEZE_CNT_COUNT slice) cycles).pmc 0x014 slice 0 cycles
    let need := x.passes.foldl (fun n q => if q.issued then n else n + q.probes) 0
    let em := x.passes.foldl (fun n q => if q.issued then n else n + q.em) 0
    let y := x.tick cycles
    if s1.fget (Fld.LPM_CREDIT_CREDIT slice) < need then .next (s1.setSlice slice y)
    else
      .next ((s1.issueProbes slice need em).setSlice slice
        { y with frozen := false, passes := y.passes.map fun q => { q with issued := true } })

/-! ### Copies to the host (02 R76, R81) -/

/-- Hands a packet to the receive engine; the crossing of its slice holds 16 packets. -/
def State.toHost (s : State) (slice ring reason cookie : Nat) (conflict : Bool) (p : Pkt) : State :=
  if 16 ≤ (s.host.rx.filter (·.slice == slice)).length then s.satAdd Fld.HIF_RX_NOBUF_DROP_COUNT 1
  else
    let r : RxPacket :=
      { id := p.id, complete := p.complete, slice := slice, ring := ring, bytes := p.bytes, inPort := p.md.inPort, reason := reason
        truncated := bitAt p.md.flags 0, lenConflict := conflict, gen := p.md.gen, stampSec := p.md.stampSec % 65536
        stampNs := p.md.stampNs, cookie := cookie }
    { s with host := { s.host with rx := s.host.rx ++ [r] } }

/-- A copy whose frame has not ended follows it. -/
def State.followFrame (s : State) (frame copy : Pkt) (flood : Bool) : State :=
  if frame.complete then s else { s with path := { s.path with follow := s.path.follow ++ [(frame.id, copy.id, flood)] } }

/-- A copy of a packet is made for the host. -/
def State.hostCopy (s : State) (slice ring reason cookie : Nat) (p : Pkt) : State :=
  match s.newId with
  | (id, s1) =>
    let c := { p with id := id }
    (s1.toHost slice ring reason cookie false c).followFrame p c false

/-! ### Queues of a record (12 R357, 13 R382) -/

/-- The arrival stamp in whole nanoseconds. -/
def Meta.stamp (m : Meta) : Nat := m.stampSec * 1000000000 + m.stampNs

/-- QUEUE, EXPRESS and LDT of a packet sent to a queue; LDT_V for a budget that is not 0 (13 R383). -/
def State.intoQueue (s : State) (q : Nat) (p : Pkt) : Pkt :=
  let express := qdClass (s.queue q).desc == 3
  let budget := (s.dlnProfOf q).budget
  { p with md := { p.md with queue := q, express := express, ldt := if express then ldtOf p.md.stamp budget else 0 }
           ldtV := express && budget != 0 }

/-! ### Mirror copies (10 R312-R315) -/

def mirQueue (x : Nat) : Nat := bitsAt x 8 20
def mirDev (x : Nat) : Nat := bitsAt x 28 11
def mirPort (x : Nat) : Nat := bitsAt x 39 7
def mirSample (x : Nat) : Nat := bitsAt x 82 4

/-- The sample of R314. -/
def State.mirSampled (s : State) (x : Nat) (m : Meta) : Bool :=
  let stamp := m.stampNs + 2 ^ 30 * m.stampQns + 2 ^ 32 * (m.stampSec % 65536)
  crc32c (s.fget Fld.RCL_MIR_SEED_SEED) (natBytes 6 stamp ++ natBytes 2 m.inPort) % 2 ^ mirSample x == 0

/-- Makes the copy of a session (0: none), KIND 1 at ingress or 3 at egress, for the copy FIFO of a slice: 256 copies or 512 KiB. -/
def State.mirror (s : State) (slice session kind : Nat) (p : Pkt) : State :=
  match (if session = 0 then none else s.idxGet s.tab.mirror p.md.gen session) with
  | none => s
  | some x =>
    if !s.mirSampled x p.md then s
    else
      let bytes := if mirTrunc x = 0 then p.bytes else p.bytes.take (mirTrunc x)
      let input := (if kind = 1 then 18 else 34) + slice
      let fifo := Assoc.get s.tm.inputs [] input
      if 256 ≤ fifo.length ∨ 524288 < fifo.foldl (fun n c => n + c.bytes.length) bytes.length then
        if kind = 1 then (s.satAdd (Fld.RCL_IMIR_DROP_CNT_COUNT slice) 1).setEvent Fld.RCL_EVENT_IMIR_DROP
        else (s.satAdd (Fld.RCL_EMIR_DROP_CNT_COUNT slice) 1).setEvent Fld.RCL_EVENT_EMIR_DROP
      else
        match (s.drainInc p.md.gen).newId with
        | (id, s1) =>
          let md := { p.md with color := 0, tc := 0, remarkEn := false, dscp := 0, flags := withBit p.md.flags flagTsReq false
                                pktLen := if p.complete then bytes.length else 0, destDev := mirDev x, destPort := mirPort x
                                encap := mirEncap x, ptpOp := 0, ptpOff := 0x1FF, session := session, copyKind := kind, cookie := 0 }
          let c := s1.intoQueue (mirQueue x) { p with id := id, md := md, bytes := bytes, late := false, poison := false, direct := none, link := 0 }
          (s1.toInput input c).followFrame p c false

/-! ### Ingress edits and offsets (10 R300, R305, R306) -/

/-- The L2 header of a packet: 14 bytes, and 4 for each of up to four tags. -/
def l2Len (bytes : List Byte) : Nat :=
  let tagged := fun (e : Nat) => beAt bytes (e - 2) 2 == 0x8100 || beAt bytes (e - 2) 2 == 0x88A8 || beAt bytes (e - 2) 2 == 0x9100
  (List.range 4).foldl (fun (e : Nat) k => if e = 14 + 4 * k && tagged e then e + 4 else e) 14

def edStrip (x : Nat) : Nat := bitsAt x 8 9
def edKeepL2 (x : Nat) : Bool := bitAt x 17
def edEtype (x : Nat) : Nat := bitsAt x 18 16

/-- Where an edit program removes bytes, and how many. -/
def edCut (x : Nat) (bytes : List Byte) : Nat × Nat := (if edKeepL2 x then l2Len bytes else 0, edStrip x)

/-- The packet after an edit program; `none` when fewer than 14 bytes would be kept. -/
def edApply (x : Nat) (bytes : List Byte) : Option (List Byte) :=
  match edCut x bytes with
  | (at', n) =>
    let kept := bytes.take at' ++ bytes.drop (at' + n)
    if kept.length < 14 then none
    else if edKeepL2 x then some (patchBytes kept (at' - 2) (beBytes 2 (edEtype x)))
    else some kept

/-- The role of a header type. -/
def State.role (s : State) (type : Nat) : Nat := s.fget (Fld.EDT_HDR_ROLE_ROLE (type / 16) (type % 16))

/-- The recorded instances after the removal of `n` bytes at `at'`. -/
def movedInsts (at' n : Nat) (is : List PInst) : List PInst :=
  (is.filter fun i => decide (i.off < at') || decide (at' + n ≤ i.off)).map fun i =>
    if i.off < at' then i else { i with off := i.off - n }

/-- An offset of the record: above 510 it reads as absent. -/
def recOff (o : Option Nat) : Nat := match o with | some x => if 510 < x then 0x1FF else x | none => 0x1FF

/-- Instances after the first `k` ones. -/
def firstIp (s : State) : List PInst → Option (PInst × List PInst)
  | [] => none
  | i :: is => if s.role i.type = 1 ∨ s.role i.type = 2 then some (i, is) else firstIp s is

/-- OFF_L3, OFF_L4, OFF_INNER, L3_KIND and PTP_OFF of a record (R300, 15 R457). -/
def State.offsets (s : State) (is : List PInst) (m : Meta) : Meta :=
  let ptp := recOff ((is.find? fun i => i.type == s.fget Fld.TIM_PTP_CFG_HDR_TYPE).map (·.off))
  match firstIp s is with
  | none => { m with offL3 := 0x1FF, offL4 := 0x1FF, offInner := 0x1FF, l3Kind := 0, ptpOff := ptp }
  | some (l3, later) =>
    let l4 := later.find? fun i => i.level == l3.level && s.role i.type == 3
    let inner := (later.filter fun i => (s.role i.type == 1 || s.role i.type == 2) && decide (l3.level < i.level)).getLast?
    { m with offL3 := recOff (some l3.off), offL4 := recOff (l4.map (·.off)), offInner := recOff (inner.map (·.off))
             l3Kind := if 510 < l3.off then 0 else s.role l3.type, ptpOff := ptp }

/-- PTP_OP of R457. -/
def State.ptpOpOf (s : State) (m : Meta) : Nat :=
  if m.ptpOff = 0x1FF then 0
  else if bitAt m.flags flagHost then (if s.fbit Fld.TIM_PTP_CFG_HOST_ONE_STEP then 3 else 1)
  else if s.fbit Fld.TIM_PTP_CFG_TC_EN ∧ m.destDev = s.devId then 2
  else 0

/-! ### Decision and attributes (09 R280-R282) -/

/-- What a pass decides. -/
inductive Verdict where
  | drop (undecided : Bool)
  | forward (dev port encap : Nat)
  | flood (group : Nat)
  | trap (ring reason : Nat)
  | recirc
  deriving DecidableEq, Repr

/-- NEXT_HOP to an entry read in `g`. -/
def State.toNextHop (s : State) (g nh : Nat) : Verdict :=
  match s.idxGet s.tab.nh g nh with
  | some x => .forward (nhDev x) (nhPort x) (nhEncap x)
  | none => .drop true

/-- The decision of an action set whose FWD is neither CONTINUE nor ROUTE. -/
def State.fwdOf (s : State) (g x : Nat) : Option Verdict :=
  match actFwd x with
  | 1 => some (.drop false)
  | 2 => some (.forward (bitsAt (actFwdArg x) 7 11) (bitsAt (actFwdArg x) 0 7) 0)
  | 3 => some (s.toNextHop g (bitsAt (actFwdArg x) 0 19))
  | 5 => some (.flood (bitsAt (actFwdArg x) 0 16))
  | 6 => some (.trap (actHostRing x) (actReason x))
  | 7 => some .recirc
  | _ => none

/-- What the sources of a pass give: the sets of each rank that is visible and sound. -/
structure Sources where
  cam : Option Nat
  em0 : Option Nat
  em0Res : ExmResult
  pfx : Option Nat
  pfxRes : LpmResult
  em1 : Option Nat
  dflt : Option Nat
  deriving DecidableEq, Repr

/-- Steps 4 and 5. -/
def Sources.route (s : State) (g : Nat) (x : Sources) : Verdict :=
  let last : Verdict := match x.dflt.bind (s.fwdOf g) with | some v => v | none => .drop true
  if x.pfxRes.hit then (match x.pfx.bind (s.fwdOf g) with | some v => v | none => s.toNextHop g x.pfxRes.nextHop) else last

/-- The procedure of R280: the decision, and whether step 4 was reached. -/
def Sources.decide (s : State) (g : Nat) (x : Sources) : Verdict × Bool :=
  match x.cam.bind (s.fwdOf g) with
  | some v => (v, false)
  | none =>
    if (match x.cam with | some b => actFwd b == 4 | none => false) then (x.route s g, true)
    else
      match x.em0.bind (s.fwdOf g) with
      | some v => (v, false)
      | none =>
        if x.em0Res.hit ∧ (x.em0Res.rkind = 1 ∨ x.em0Res.rkind = 2) then (s.toNextHop g x.em0Res.result, false)
        else if x.em0Res.hit ∧ x.em0Res.rkind = 3 then
          (.forward (bitsAt x.em0Res.result 7 11) (bitsAt x.em0Res.result 0 7) 0, false)
        else (x.route s g, true)

/-- The applied sets in rank order. -/
def Sources.sets (x : Sources) (reached4 : Bool) : List Nat :=
  let l := [x.cam, x.em0, if reached4 && x.pfxRes.hit then x.pfx else none, x.em1, x.dflt]
  l.filterMap id

/-- An attribute group: the first applied set that sets it gives its value (R281). -/
def attr {α : Type} (sets : List Nat) (has : Nat → Bool) (get : Nat → α) (unset : α) : α :=
  match sets.find? has with
  | some x => get x
  | none => unset

/-- An action set read in `g`: its bits when it is visible and sound, and whether it failed parity (R279, R294). -/
def State.actSetAt (s : State) (g i : Nat) : Option Nat × Bool :=
  match s.idxVer s.tab.act g i with
  | none => (none, false)
  | some v => if v.val.bad then (none, true) else (some v.val.bits, false)

/-- The action set of a next hop. -/
def State.nhSet (s : State) (g nh : Nat) : Option Nat × Bool :=
  match s.idxGet s.tab.nh g nh with
  | some x => s.actSetAt g (nhActSet x)
  | none => (none, false)

/-- Gathers the sources of a pass; a MISS_ACT set that is not visible is counted (R279). Answers whether an error was met. -/
def State.sources (s : State) (slice : Nat) (b : Bank) (r : Parse) (p : Pkt) : State × Sources × Bool :=
  let g := p.md.gen
  let k0 := b.key p r 0
  let k1 := b.key p r 1
  let h := s.ecmpHash (k0.getD 0) (k1.getD 0)
  let lpm := match k0 with | some k => s.lpmLookup k g h 0 | none => lpmMiss
  let em0 := s.exmLookup k1 g h
  let em1 := s.exmLookup (b.key p r 2) g h
  let cam := s.camSearch slice (b.key p r 3) g
  let none' : Option Nat × Bool := (none, false)
  let camSet := if cam.hit then s.actSetAt g cam.actSet else none'
  let missSet := !em0.hit && em0.missAct != 0
  let em0Set :=
    if em0.hit then (if em0.rkind = 0 then s.actSetAt g em0.result else if em0.rkind = 3 then none' else s.nhSet g em0.result)
    else if missSet then s.actSetAt g em0.missAct
    else none'
  let pfxSet := if lpm.hit then s.nhSet g lpm.nextHop else none'
  let em1Set := if em1.hit && em1.rkind == 0 then s.actSetAt g em1.result else none'
  let dflt := s.actSetAt g 0
  let miss := fun (t : State) (looked hit : Bool) (kind : Nat) => if looked && !hit then t.pmc 0x023 slice kind 1 else t
  let s0 := miss (miss (miss (miss s k0.isSome lpm.hit 0) em0.looked em0.hit 1) em1.looked em1.hit 2) (b.key p r 3).isSome cam.hit 3
  let s1 := if missSet && em0Set == none' then s0.satAdd Fld.ACT_ABSENT_CNT_COUNT 1 else s0
  (s1, ⟨camSet.1, em0Set.1, em0, pfxSet.1, lpm, em1Set.1, dflt.1⟩,
    lpm.err || em0.err || em1.err || cam.err || camSet.2 || em0Set.2 || pfxSet.2 || em1Set.2 || dflt.2)

/-! ### The end of a pass -/

/-- A packet ends here: its drain counter falls. -/
def State.endPkt (s : State) (p : Pkt) : State := s.drainDec p.md.gen

/-- The attributes of a pass that act after its decision. -/
structure PassAttrs where
  tc : Nat
  queue : Option (Bool × Nat)
  cookie : Nat
  edit : Option Nat
  deriving DecidableEq, Repr

/-- The queue of a packet: the one an action set names, or the destination's (12 R357). -/
def State.queueFor (s : State) (named : Option (Bool × Nat)) (dev port tc : Nat) : Option Nat :=
  match named with
  | some (abs, q) => if abs then some q else if q + tc ≤ 1048575 then some (q + tc) else none
  | none => s.selectQueue dev port tc

/-- A packet crosses to the TM die for a destination; FLAGS, offsets and colour are already in its record. -/
def State.cross (s : State) (slice q dev port encap : Nat) (p : Pkt) : State :=
  let md := { p.md with destDev := dev, destPort := port, encap := encap, pktLen := if p.complete then p.bytes.length else 0
                        session := 0, cookie := 0 }
  let md' := { md with ptpOp := s.ptpOpOf md }
  s.flits.toInput slice (s.intoQueue q { p with md := md' })

/-- The edited packet with its offsets, or a drop (R305). -/
def State.editPkt (s : State) (edit : Option Nat) (r : Parse) (p : Pkt) : Option Pkt :=
  match edit with
  | none => some { p with md := s.offsets r.insts p.md }
  | some x =>
    match edCut x p.bytes with
    | (at', n) => (edApply x p.bytes).map fun bytes => { p with bytes := bytes, md := s.offsets (movedInsts at' n r.insts) p.md }

/-- A drop of an ingress edit. -/
def State.stripDrop (s : State) (p : Pkt) : State := (s.satAdd Fld.EDT_STRIP_DROP_CNT_COUNT 1).endPkt p

/-- A flood packet enters the replication engine's input queue of 1,024 (R312). -/
def State.toRepl (s : State) (slice group : Nat) (queue : Option (Bool × Nat)) (p : Pkt) : State :=
  let x := s.slice slice
  if 1024 ≤ x.repl.length then
    ((s.satAdd (Fld.RCL_REPL_DROP_CNT_COUNT slice) 1).setEvent Fld.RCL_EVENT_REPL_DROP).endPkt p
  else s.setSlice slice { x with repl := x.repl ++ [⟨p, group, queue⟩] }

/-- MAX_PASSES: values outside 2 to 8 read back as the nearer limit. -/
def State.maxPasses (s : State) : Nat := clampTo 2 8 (s.fget Fld.RCL_CFG_MAX_PASSES)

/-- A RECIRC decision: the pass limit, the edit, then the recirculation form waits for its place (R302, R303). -/
def State.recirculate (s : State) (slice : Nat) (a : PassAttrs) (r : Parse) (p : Pkt) : State :=
  if s.maxPasses ≤ p.md.pass + 1 then
    ((s.satAdd (Fld.RCL_LIMIT_DROP_CNT_COUNT slice) 1).setEvent Fld.RCL_EVENT_LIMIT_DROP).endPkt p
  else
    match s.editPkt a.edit r p with
    | none => s.stripDrop p
    | some q =>
      let m := q.md
      let md := { m with pass := m.pass + 1, express := false, color := 0, tc := 0, remarkEn := false, dscp := 0
                         flags := withBit m.flags flagRecirc true, queue := 0, destDev := 0, destPort := 0, encap := 0, offL3 := 0x1FF
                         offL4 := 0x1FF, offInner := 0x1FF, l3Kind := 0, ptpOp := 0, ptpOff := 0x1FF, ldt := 0, cookie := a.cookie
                         pktLen := if q.complete then q.bytes.length else 0 }
      let x := s.slice slice
      s.setSlice slice { x with recircWait := x.recircWait ++ [{ q with md := md }] }

/-- What the decision does with the packet, once it has been policed (R282). -/
def State.carryOut (s : State) (slice : Nat) (v : Verdict) (q : Option Nat) (a : PassAttrs) (r : Parse) (p : Pkt) : State :=
  match v with
  | .drop _ => s.endPkt p
  | .trap ring reason => (s.toHost slice ring reason a.cookie false p).endPkt p
  | .recirc => s.recirculate slice a r p
  | .flood group =>
    match s.editPkt a.edit r p with
    | none => s.stripDrop p
    | some e => s.toRepl slice group a.queue e
  | .forward dev port encap =>
    match s.editPkt a.edit r p with
    | none => s.stripDrop p
    | some e => s.cross slice (q.getD 0) dev port encap e

/-- Policing and flow statistics of a pass (R285, R290): now, or with the length of a frame that has not ended (13 R385), when the
colour and the remark that the record takes meanwhile are free values (point 3). -/
def State.meter (s : State) (d : Deferred) (police : Bool) (evict : Option Nat) (p : Pkt) : State × Pkt × Bool :=
  if p.complete then
    let s1 := match d.stat with | some i => s.flowCount i p.bytes.length evict | none => s
    if !police then (s1, { p with md := { p.md with color := d.precolor } }, false)
    else
      match s1.police d.pol0 d.pol1 d.precolor p.bytes.length with
      | (s2, r) =>
        (s2, { p with md := { p.md with color := r.code, remarkEn := r.dscp.isSome, dscp := r.dscp.getD 0 } }, r.drop)
  else
    let d' := if police then d else { d with pol0 := none, pol1 := none }
    let s1 := if d'.pol0.isNone && d'.pol1.isNone && d'.stat.isNone then s
      else { s with path := { s.path with deferred := s.path.deferred ++ [d'] } }
    if d'.pol0.isNone && d'.pol1.isNone then (s1, { p with md := { p.md with color := d.precolor } }, false)
    else
      match s1.free 3 with
      | (x, s2) =>
        (s2, { p with md := { p.md with color := x % 3, remarkEn := bitAt x 8, dscp := bitsAt x 16 6 } }, false)

/-- The action stage of a pass whose lookups ran. -/
def State.actionStage (s0 : State) (slice : Nat) (b : Bank) (r : Parse) (evict : Option Nat) (p0 : Pkt) : State :=
  let g := p0.md.gen
  match s0.sources slice b r p0 with
  | (s, x, err) =>
    match x.decide s g with
    | (v, reached4) =>
      let sets := x.sets reached4
      let bind := fun (f : Nat → Nat) => attr sets (fun e => f e != 0) (fun e => s.idxGet s.tab.polb g (f e)) none
      let mir := attr sets (fun e => actMirror e != 0) actMirror 0
      let ed := attr sets (fun e => actEdit e != 0) actEdit 0
      let a : PassAttrs :=
        { tc := attr sets actTcEn actTc 0, cookie := attr sets actCookieEn actCookie 0
          queue := attr sets actQEn (fun e => some (actQAbs e, actQueue e)) none
          edit := if ed = 0 then none else s.idxGet s.tab.edit g ed }
      let p := { p0 with md := { p0.md with flags := withBit p0.md.flags flagErr (err || bitAt p0.md.flags flagErr), tc := a.tc } }
      let s1 := match sets.find? actCopyEn with
        | some e => s.hostCopy slice (actHostRing e) (actReason e) a.cookie p
        | none => s
      let rx := if p.md.pass = 0 ∧ p.md.inPort < 128 ∧ bitAt p.md.flags flagHost = false
        then s.fget (Fld.RCL_PORT_MIRROR_RX_SESSION p.md.inPort) else 0
      let pm := { p with md := s.offsets r.insts p.md }
      let s2 := s1.mirror slice rx 1 pm
      let s3 := if mir = rx then s2 else s2.mirror slice mir 1 pm
      let d : Deferred :=
        { id := p.id, pol0 := bind actPol0, pol1 := bind actPol1, precolor := attr sets actPrecolorEn actPrecolor 0
          stat := attr sets actStatEn (fun e => some (actStat e)) none }
      let q := match v with | .forward dev port _ => s3.queueFor a.queue dev port a.tc | _ => none
      let missed := match v with | .forward .. => q.isNone | _ => false
      let dropped := match v with | .drop _ => true | _ => false
      match s3.meter d (!missed && !dropped) evict p with
      | (s4, p1, polDrop) =>
        if missed then s4.qselMiss g
        else if polDrop then s4.endPkt p1
        else
          let s5 := match v with
            | .drop true => s4.satAdd Fld.ACT_NODEC_CNT_COUNT 1
            | .drop false => s4.satAdd Fld.ACT_DROP_CNT_COUNT 1
            | _ => s4
          s5.carryOut slice v q a r p1

/-- A pass that skips its lookups: the mirror copy of the port is made, and the packet goes to a receive ring or is dropped. -/
def State.skipStage (s : State) (slice : Nat) (ring : Option (Nat × Nat)) (r : Parse) (p : Pkt) : State :=
  let rx := if p.md.pass = 0 ∧ p.md.inPort < 128 ∧ bitAt p.md.flags flagHost = false
    then s.fget (Fld.RCL_PORT_MIRROR_RX_SESSION p.md.inPort) else 0
  let s1 := s.mirror slice rx 1 { p with md := s.offsets r.insts p.md }
  match ring with
  | some (n, reason) => (s1.toHost slice n reason 0 r.conflict p).endPkt p
  | none => s1.endPkt p

/-- A pass ends: parse, lookups, learning, decision. A packet whose end has shown an error is dropped whole (04 R130). -/
def State.passEnd (s0 : State) (slice : Nat) (upsets : List Upset) (evict : Option Nat) (p0 : Pkt) : State :=
  let s := upsets.foldl State.upset (s0.hbfUes slice upsets)
  let n := s.fget (fldGenBank p0.md.gen)
  let b := s.bank n
  let r := b.parse p0
  let s1 := (s.parseCount slice r).traceCapture slice p0 (r.record b n p0.md)
  let f := p0.md.flags
  let flags := withBit (withBit (withBit f 0 (r.trunc != 0)) 1 r.fragFirst) 2 r.fragLater
  let p := { p0 with md := { p0.md with flags := flags } }
  if r.conflict then (if p.errored then s1.endPkt p else s1.skipStage slice (if b.lcPunt then some (b.lcRing, 1) else none) r p)
  else
    match r.punt with
    | some code => if p.errored then s1.endPkt p else s1.skipStage slice (some (b.puntRing, 0x10 + code)) r p
    | none =>
      let fromLine := p.md.pass == 0 && !bitAt flags flagHost
      let s2 := if fromLine then s1.learnFrom slice (b.key p r 2) p.md.gen p.md.inPort else s1
      if p.errored then s2.endPkt p else s2.actionStage slice b r evict p

/-- An ingress pass completes; `evict` names the flow counter that its update pushes out of the cache. -/
def execIngressPassEnd (slice : Nat) (upsets : List Upset) (evict : Option Nat) (s : State) : Host.Outcome State Fault Refusal :=
  let x := s.slice slice
  match x.passes with
  | [] => .next s
  | q :: rest =>
    if s.stoppedForwarding ∨ q.issued = false then .next s
    else .next ((s.setSlice slice { x with passes := rest }).passEnd slice upsets evict q.pkt)

/-! ### Recirculation FIFO and replication -/

/-- Takes the first packet of a list whose frame has ended. -/
def takeComplete : List Pkt → Option (Pkt × List Pkt)
  | [] => none
  | p :: ps => if p.complete then some (p, ps) else (takeComplete ps).map fun r => (r.1, p :: r.2)

/-- A recirculation record enters the FIFO of 512 passes and 1 MiB, or is dropped (R25, R301). -/
def execRecircEnqueue (slice : Nat) (s : State) : Host.Outcome State Fault Refusal :=
  let x := s.slice slice
  match takeComplete x.recircWait with
  | none => .next s
  | some (p, rest) =>
    if s.stoppedForwarding then .next s
    else
      let bytes := x.recirc.foldl (fun n q => n + q.bytes.length) p.bytes.length
      if 512 ≤ x.recirc.length ∨ 1048576 < bytes then
        .next ((((s.setSlice slice { x with recircWait := rest }).satAdd (Fld.RCL_OVF_DROP_CNT_COUNT slice) 1).setEvent
          Fld.RCL_EVENT_OVF_DROP).endPkt p)
      else .next (s.setSlice slice { x with recircWait := rest, recirc := x.recirc ++ [p] })

/-- The members of a group that a packet is copied to: sound ones, without the source (R283, R294). -/
def State.floodMembers (s : State) (group : Nat) (p : Pkt) : List Nat :=
  match s.idxGet s.tab.repl p.md.gen group with
  | none => []
  | some g =>
    match blockAt s.tab.replBlocks (replBase g) with
    | none => []
    | some b =>
      (b.members.zipIdx.filter fun e =>
        !b.bad.contains e.2 && !(rmSkipSrc e.1 && rmDev e.1 == s.devId && rmPort e.1 == p.md.inPort)).map (·.1)

/-- One copy of a flood packet goes to its member's queue. -/
def State.floodOne (s : State) (slice : Nat) (queue : Option (Bool × Nat)) (p : Pkt) (m : Nat) : State :=
  match s.queueFor queue (rmDev m) (rmPort m) p.md.tc with
  | some q => s.cross slice q (rmDev m) (rmPort m) (rmEncap m) p
  | none => s.qselMiss p.md.gen

/-- New copies for the members after the first. -/
def State.floodCopy (s : State) (slice : Nat) (queue : Option (Bool × Nat)) (p : Pkt) (m : Nat) : State :=
  match (s.drainInc p.md.gen).newId with
  | (id, s1) =>
    let c := { p with id := id, md := { p.md with copyKind := 2 } }
    (s1.followFrame p c true).floodOne slice queue c m

/-- The replication engine takes a flood packet: the packet itself for the first member, a new copy for each further one. -/
def execReplication (slice : Nat) (s : State) : Host.Outcome State Fault Refusal :=
  let x := s.slice slice
  match x.repl with
  | [] => .next s
  | r :: rest =>
    if s.stoppedForwarding then .next s
    else
      let s1 := s.setSlice slice { x with repl := rest }
      match s1.floodMembers r.group r.pkt with
      | [] => .next ((s1.satAdd Fld.ACT_FLOOD_EMPTY_CNT_COUNT 1).endPkt r.pkt)
      | m :: ms => .next (ms.foldl (fun t k => t.floodCopy slice r.queue r.pkt k) (s1.floodOne slice r.queue r.pkt m))

/-- A probe is not answered within 300 ns: its bucket is delivered as an uncorrectable data error; its late response is counted. -/
def execProbeTimeout (u : Upset) (s : State) : Host.Outcome State Fault Refusal :=
  .next ((s.upset { u with data := true }).satAdd Fld.HBF_LATE_CNT_COUNT 1)

end Sys2Proof.Machine
end

