-- ==== Sys2Proof/Machine/Egress.lean ====
section
/-! DEFINITION. The egress half of a slice (10 R306-R311, R392 of 13) and the ports' transmit stage (04 R129, R131, R143, 13 R393-R395,
R405, 15 R457-R460). -/

namespace Sys2Proof.Machine

open Sys2Proof

/-! ### Bytes and checksums -/

/-- One's-complement sum of 16-bit words, folded. -/
def onesFold (n : Nat) : Nat := let a := n % 65536 + n / 65536; a % 65536 + a / 65536

/-- The incremental update of RFC 1624: ~(~HC + ~m + m'). -/
def csumUpdate (hc old new : Nat) : Nat := 65535 - onesFold ((65535 - hc) + (65535 - old) + new)

/-- Updates a checksum over each 16-bit word that differs between two ranges of `n` words. -/
def csumRange (hc : Nat) (old new : List Byte) (at' n : Nat) : Nat :=
  (List.range n).foldl (fun h k =>
    let a := beAt old (at' + 2 * k) 2
    let b := beAt new (at' + 2 * k) 2
    if a = b then h else csumUpdate h a b) hc

/-- The checksum of a header computed afresh, its own field (at byte 10) counted as 0. -/
def ipv4Csum (bytes : List Byte) (at' words : Nat) : Nat :=
  65535 - onesFold (onesFold ((List.range words).foldl (fun n k => if k = 5 then n else n + beAt bytes (at' + 2 * k) 2) 0))

/-- Bytes put in front of position `at'`. -/
def putIn (bytes : List Byte) (at' : Nat) (v : List Byte) : List Byte := bytes.take at' ++ v ++ bytes.drop at'

/-- An offset of the record moved by an insertion (or, with `n` negative, a removal) at `at'`; an absent one stays absent. -/
def moveOff (at' : Nat) (n : Int) (o : Nat) : Nat := if 65536 ≤ o ∨ o < at' then o else ((o : Int) + n).toNat

/-- A packet in the egress half: its bytes, its offsets (65,536 and above: absent), and skipped operations counted. -/
structure Edit where
  bytes : List Byte
  offL3 : Nat
  offL4 : Nat
  ptpOff : Nat
  skips : Nat
  deriving DecidableEq, Repr

def absentOff (o : Nat) : Nat := if o = 0x1FF then 65536 else o

def Edit.insert (e : Edit) (at' : Nat) (v : List Byte) : Edit :=
  let n : Int := (v.length : Nat)
  { e with bytes := putIn e.bytes at' v, offL3 := moveOff at' n e.offL3, offL4 := moveOff at' n e.offL4, ptpOff := moveOff at' n e.ptpOff }

def Edit.remove (e : Edit) (at' n : Nat) : Edit :=
  let d : Int := -((n : Nat) : Int)
  { e with bytes := e.bytes.take at' ++ e.bytes.drop (at' + n), offL3 := moveOff at' d e.offL3, offL4 := moveOff at' d e.offL4
           ptpOff := moveOff at' d e.ptpOff }

def Edit.skip (e : Edit) : Edit := { e with skips := e.skips + 1 }

/-! ### Steps 1 to 3: DSCP, TTL, checksum -/

/-- The bytes with an IPv4 header changed and its checksum updated incrementally; an IPv6 header has none. -/
def fixIpv4 (old new : List Byte) (off kind : Nat) : List Byte :=
  if kind ≠ 1 then new else patchBytes new (off + 10) (beBytes 2 (csumRange (beAt old (off + 10) 2) old new off 5))

/-- Writes a DSCP into the header at OFF_L3. -/
def Edit.dscp (e : Edit) (kind d : Nat) : Edit :=
  if 65536 ≤ e.offL3 then e.skip
  else
    let o := e.offL3
    if kind = 1 then
      { e with bytes := fixIpv4 e.bytes (patchBytes e.bytes (o + 1) (beBytes 1 (4 * d + beAt e.bytes (o + 1) 1 % 4))) o 1 }
    else
      let w := beAt e.bytes o 2
      { e with bytes := patchBytes e.bytes o (beBytes 2 (w / 4096 * 4096 + d * 64 + w % 64)) }

/-- Offset of the TTL or hop limit. -/
def ttlAt (kind off : Nat) : Nat := if kind = 1 then off + 8 else off + 7

def Edit.ttlDec (e : Edit) (kind : Nat) : Edit :=
  let t := ttlAt kind e.offL3
  { e with bytes := fixIpv4 e.bytes (patchBytes e.bytes t (beBytes 1 (beAt e.bytes t 1 - 1))) e.offL3 kind }

/-! ### Steps 4 to 7: tags, labels, template, addresses -/

/-- The tags an entry pushes. -/
def encTags (x : Nat) : List Byte :=
  let outer := beBytes 2 (if encTpidSel x then 0x88A8 else 0x8100) ++ beBytes 2 (encTci0 x)
  match encTagOp x with
  | 1 => outer
  | 2 => outer ++ beBytes 2 0x8100 ++ beBytes 2 (encTci1 x)
  | _ => []

/-- Step 4: TAG_OP on the L2 header; the tags of L2_OP 2 go into the new header in step 5. -/
def Edit.tags (e : Edit) (x : Nat) : Edit :=
  if encTagOp x = 3 then (if l2Len e.bytes = 14 then e.skip else e.remove 12 4)
  else if encL2Op x = 2 then e
  else e.insert 12 (encTags x)

/-- The labels of an entry: TC from the record, the TTL, S on the innermost one unless MPLS follows. -/
def encLabelBytes (x tc ttl : Nat) (bottom : Bool) : List Byte :=
  (List.range (encLabels x)).flatMap fun k =>
    let s := b2n (bottom && k + 1 == encLabels x)
    beBytes 4 (encLabel x k * 4096 + tc * 512 + s * 256 + ttl)

/-- The entropy of R310: bits [13:0] of a CRC-32C over the IP addresses and the first four transport bytes. -/
def entropyOf (e : Edit) (kind : Nat) : Nat :=
  let addrs := if kind = 1 then (e.bytes.drop (e.offL3 + 12)).take 8 else if kind = 2 then (e.bytes.drop (e.offL3 + 8)).take 32 else []
  let l4 := if 65536 ≤ e.offL4 then [] else (e.bytes.drop e.offL4).take 4
  crc32cStd ((addrs ++ l4).map (·.toNat)) % 2 ^ 14

/-- Step 7: the lengths, the checksum and the entropy of a template that stands at `at'`. -/
def fixTemplate (bytes : List Byte) (t at' entropy : Nat) : List Byte :=
  let ip := at' + tmplIpOff t
  let udp := at' + tmplUdpOff t
  let b1 :=
    if tmplIpOff t = 0xFF then bytes
    else if beAt bytes ip 1 / 16 = 6 then patchBytes bytes (ip + 4) (beBytes 2 (bytes.length - (ip + 40)))
    else
      let sized := patchBytes bytes (ip + 2) (beBytes 2 (bytes.length - ip))
      patchBytes sized (ip + 10) (beBytes 2 (ipv4Csum sized ip (2 * (beAt sized ip 1 % 16))))
  if tmplUdpOff t = 0xFF then b1
  else
    let b2 := patchBytes b1 (udp + 4) (beBytes 2 (bytes.length - udp) ++ beBytes 2 0)
    if tmplEntropy t then patchBytes b2 udp (beBytes 2 (0xC000 + entropy)) else b2

/-- Steps 5 to 7 for an entry `x` and its template's bits `t` (0: none). -/
def Edit.encap (e : Edit) (x t tc kind : Nat) : Edit :=
  let ttl := if kind = 0 ∨ 65536 ≤ e.offL3 then 255 else beAt e.bytes (ttlAt kind e.offL3) 1
  let data : List Byte := (tmplData t).map (BitVec.ofNat 8)
  let entropy := entropyOf e kind
  if encL2Op x = 2 then
    let labels := encLabelBytes x tc ttl true
    let front := beBytes 6 (encDa x) ++ beBytes 6 (encSa x) ++ encTags x ++ beBytes 2 (encEtype x) ++ labels
    let e1 := e.insert 0 (front ++ data)
    if t = 0 then e1 else { e1 with bytes := fixTemplate e1.bytes t front.length entropy }
  else
    let l2 := l2Len e.bytes
    let old := beAt e.bytes (l2 - 2) 2
    let labels := encLabelBytes x tc ttl (!(old == 0x8847 || old == 0x8848))
    let ins := labels ++ data
    let e1 := if ins.isEmpty then e else { e with bytes := patchBytes e.bytes (l2 - 2) (beBytes 2 (encEtype x)) }
    let e2 := e1.insert l2 ins
    let e3 := if encL2Op x = 1 then { e2 with bytes := patchBytes e2.bytes 0 (beBytes 6 (encDa x) ++ beBytes 6 (encSa x)) } else e2
    if t = 0 then e3 else { e3 with bytes := fixTemplate e3.bytes t (l2 + labels.length) entropy }

/-- The DEI bit of the outermost tag of a packet (13 R392). -/
def Edit.dei (e : Edit) : Edit :=
  if l2Len e.bytes = 14 then e.skip
  else { e with bytes := patchBytes e.bytes 14 (beBytes 1 (beAt e.bytes 14 1 / 32 * 32 + 16 + beAt e.bytes 14 1 % 16)) }

/-! ### The egress pass -/

/-- The encapsulation a packet takes: none, an entry with its template's bits (0: none), or an entry or template that is missing or fails
parity: its table and index (R311). -/
inductive EncapFound where
  | none
  | found (x t : Nat)
  | failed (table index : Nat)
  deriving DecidableEq, Repr

def State.encapOf (s : State) (m : Meta) : EncapFound :=
  if m.encap = 0 ∨ bitAt m.flags flagTsReq = true then .none
  else
    match s.idxGet s.tab.encap m.gen m.encap with
    | none => .failed 0 m.encap
    | some x =>
      if encTemplate x = 0 then .found x 0
      else
        match s.idxGet s.tab.tmpl m.gen (encTemplate x) with
        | none => .failed 1 (encTemplate x)
        | some t => .found x t

/-- A packet that the egress half drops. -/
def State.egressDrop (s : State) (p : Pkt) : State := (s.endPkt p).directDone p none 2

/-- An entry that fails is counted and reported. -/
def State.encapFail (s : State) (table index : Nat) (p : Pkt) : State :=
  let s1 := ((s.satAdd Fld.EDT_PAR_ERR_CNT_COUNT 1).fset Fld.EDT_PAR_ERR_LOC_INDEX index).fset Fld.EDT_PAR_ERR_LOC_TABLE table
  let s2 := s1.setEvent Fld.EDT_EVENT_PAR_ERR
  (s2.raiseError 0x1201 (s2.reg Reg.EDT_PAR_ERR_LOC).toNat).egressDrop p

/-- A TTL that has run out (R311). -/
def State.ttlExpired (s : State) (slice : Nat) (p : Pkt) : State :=
  let s1 := (s.satAdd Fld.EDT_TTL_CNT_COUNT 1).setEvent Fld.EDT_EVENT_TTL_EXPIRED
  if s1.fbit Fld.EDT_CFG_TTL_TRAP then
    ((s1.toHost slice (s1.fget Fld.EDT_CFG_TTL_RING) 2 0 false p).endPkt p).directDone p none 2
  else s1.egressDrop p

/-- The packet with the bytes and offsets of an edit. -/
def Pkt.edited (p : Pkt) (e : Edit) : Pkt :=
  { p with bytes := e.bytes, md := { p.md with pktLen := if p.complete then e.bytes.length else 0, offL3 := e.offL3, offL4 := e.offL4
                                               ptpOff := e.ptpOff } }

/-- The record of an egress mirror copy: offsets in their width again. -/
def Pkt.forMirror (p : Pkt) : Pkt :=
  let clip := fun (o : Nat) => if 510 < o then 0x1FF else o
  { p with md := { p.md with offL3 := clip p.md.offL3, offL4 := clip p.md.offL4, offInner := 0x1FF, ptpOff := 0x1FF } }

/-- The edited packet leaves the egress half: egress mirror, MAX_FRAME, the FIFO of its link. -/
def State.egressOut (s : State) (slice : Nat) (e : Edit) (p : Pkt) : State :=
  let s1 := s.satAdd Fld.EDT_SKIP_CNT_COUNT e.skips
  let q := p.edited e
  let tx := if p.md.copyKind = 0 ∨ p.md.copyKind = 2 then s1.fget (Fld.RCL_PORT_MIRROR_TX_SESSION (s1.linkPort p.link)) else 0
  let s2 := s1.mirror slice tx 3 q.forMirror
  if s2.linkMaxFrame p.link < max 64 (e.bytes.length + 4) then
    (s2.mibAdd p.link (if p.link < 128 then 11 else 10) 1).egressDrop p
  else s2.toFifo q

/-- The egress half edits a packet (R310). -/
def State.egress (s : State) (slice : Nat) (p : Pkt) : State :=
  let m := p.md
  let e0 : Edit := ⟨p.bytes, absentOff m.offL3, absentOff m.offL4, absentOff m.ptpOff, 0⟩
  let prof := s.dlnProfOf m.queue
  let markDscp := p.late && prof.markKind == 0
  let markDei := p.late && prof.markKind == 1
  let e1 := if markDscp then e0.dscp m.l3Kind prof.lateDscp else if m.remarkEn then e0.dscp m.l3Kind m.dscp else e0
  match s.encapOf m with
  | .failed table index => s.encapFail table index p
  | .none => s.egressOut slice (if markDei then e1.dei else e1) p
  | .found x t =>
    if encTtlDec x ∧ e0.offL3 < 65536 ∧ beAt p.bytes (ttlAt m.l3Kind m.offL3) 1 ≤ 1 then s.ttlExpired slice p
    else
      let e2 := if encTtlDec x then (if 65536 ≤ e1.offL3 then e1.skip else e1.ttlDec m.l3Kind) else e1
      let e3 := e2.tags x
      let inNew := encL2Op x == 2 && !(encTags x).isEmpty
      let e4 := if markDei && !inNew then e3.dei else e3
      let e5 := e4.encap x t m.tc m.l3Kind
      s.egressOut slice (if markDei && inNew then e5.dei else e5) p

/-- Marks what a read of the editing tables at the egress half finds damaged; it is reported where it drops a packet. -/
def State.egressUpset (s : State) (u : Upset) : State :=
  match u.table with
  | .encap => encapTable.mark u.index s
  | .tmpl => tmplTable.mark u.index s
  | _ => s.upset u

/-- The egress half finishes a packet that arrives from the TM die. -/
def execEgressPass (slice : Nat) (upsets : List Upset) (s : State) : Host.Outcome State Fault Refusal :=
  match Assoc.get s.tm.egressIn [] slice with
  | [] => .next s
  | p :: rest =>
    if s.stoppedForwarding then .next s
    else
      let s1 := { s with tm := { s.tm with egressIn := Assoc.put s.tm.egressIn [] slice rest } }
      .next (if p.poison then s1.egressDrop p else (upsets.foldl State.egressUpset s1).egress slice p)

/-! ### Time-stamp operations at the grant (15 R458-R460) -/

/-- The transmit adjustment of a port, in quarter-nanoseconds (04 R144). -/
def State.txAdj (s : State) (p : Nat) : Int := signed (s.fget (Fld.PRT_PORT_TS_TX_ADJ_ADJ (p / 8) (p % 8))) 16

/-- The instant at which a frame granted now passes the transmit time-stamp point of a link, in quarter-nanoseconds. -/
def State.txInstant (s : State) (link : Nat) : Nat := ((s.nowQns : Int) + s.txAdj (s.linkPort link)).toNat

/-- Adds to the correctionField of the PTP header at `off`, in units of 2^-16 ns. -/
def addCorrection (bytes : List Byte) (off : Nat) (d : Int) : List Byte :=
  patchBytes bytes (off + 8) (beBytes 8 (unsignedOf (((beAt bytes (off + 8) 8 : Nat) : Int) + d) 64))

/-- The UDP checksum follows a change of the PTP message (R459). -/
def udpFollows (m : Meta) (old new : List Byte) : List Byte :=
  let udp := m.ptpOff - 8
  let hc := beAt old (udp + 6) 2
  if m.offL4 + 8 = m.ptpOff ∧ hc ≠ 0 then patchBytes new (udp + 6) (beBytes 2 (csumRange hc old new m.ptpOff 22)) else new

/-- An entry for the transmit stamp FIFO of a port; a full one of 64 discards it (R460). -/
def State.txStamp (s : State) (port : Nat) (e : TxStamp) : State :=
  let f := Assoc.get s.tim.txts [] port
  if 64 ≤ f.length then (s.satAdd (Fld.TIM_PORT_PTP_TXTS_OVF port) 1).setEvent Fld.TIM_EVENT_TXTS_OVF
  else
    let s1 := { s with tim := { s.tim with txts := Assoc.put s.tim.txts [] port (f ++ [e]) } }
    s1.fset (Fld.TIM_PORT_PTP_TXTS_LEVEL port) (f.length + 1)

/-- The operation named by PTP_OP on a frame granted now. -/
def State.ptpStage (s : State) (link : Nat) (p : Pkt) : State × Pkt :=
  let port := s.linkPort link
  let sq := s.txInstant link
  let o := p.md.ptpOff
  let type := beAt p.bytes o 1 % 16
  if p.md.ptpOp = 0 ∨ 65536 ≤ o then (s, p)
  else
    match p.md.ptpOp with
    | 1 =>
      if type ≤ 3 then
        (s.txStamp port ⟨fastPath (sq / 4), sq % 4, type, beAt p.bytes (o + 4) 1, beAt p.bytes (o + 30) 2, s.fget Fld.TIM_STATUS_STAMP_DOM⟩, p)
      else (s, p)
    | 2 =>
      if type ≤ 3 then
        let a := 4 * p.md.stamp + p.md.stampQns
        let b := addCorrection p.bytes o ((((sq : Nat) : Int) - ((a : Nat) : Int)) * 2 ^ 14)
        (s, { p with bytes := udpFollows p.md p.bytes b })
      else (s, p)
    | _ =>
      if type ≤ 2 then
        let d := s.timeDomain (s.fget (Fld.TIM_PORT_PTP_OS_DOM port))
        let q := (((4 * d.count + d.qns : Nat) : Int) + s.txAdj port).toNat
        let b0 := patchBytes p.bytes (o + 34) (beBytes 6 (q / 4 / 1000000000) ++ beBytes 4 (q / 4 % 1000000000))
        (s, { p with bytes := udpFollows p.md p.bytes (addCorrection b0 o (((q % 4 * 2 ^ 14 : Nat) : Nat) : Int)) })
      else (s, p)

/-! ### Transmission -/

/-- A frame as it leaves: padded to 60 bytes, with its FCS (04 R129). -/
def onWire (bytes : List Byte) : List Byte :=
  let padded := bytes ++ List.replicate (60 - bytes.length) 0
  padded ++ leBytes 4 (crc32 padded)

/-- A frame has been sent to its end; one that carries an error mark ends with an error code (13 R388). -/
def State.txDone (s : State) (link : Nat) (p : Pkt) : State :=
  if p.errored then
    let s1 := if link < 128 then s.dlnAdd (4096 + link) 2 else s
    (((s1.setEvent Fld.DLN_EVENT_CT_ABORT).emit (.lineFrame link p.bytes true)).endPkt p).directDone p none 2
  else
    let w := onWire p.bytes
    let s1 := (s.mibAdd link (if link < 128 then 9 else 8) 1).mibAdd link (if link < 128 then 10 else 9) w.length
    ((s1.emit (.lineFrame link w false)).endPkt p).directDone p (some (fastPath (s.txInstant link / 4))) 0

/-- The packet of a FIFO leaves it: 8 the express FIFO, 9 the preempted frame, else a class. -/
def PortTx.pop (t : PortTx) (k : Nat) : PortTx :=
  if k = 9 then { t with preempted := none }
  else if k = 8 then { t with express := t.express.tail }
  else { t with classes := Assoc.put t.classes [] k (Assoc.get t.classes [] k).tail }

/-- The check of R393: the packet carries a deadline that its transmit instant misses. -/
def State.lateAtPort (s : State) (link : Nat) (p : Pkt) : Bool := s.hasDeadline p && afterLdt (s.txInstant link / 4) p.md.ldt

/-- Counts in a DLN counter of a line port. -/
def State.portCount (s : State) (link counter : Nat) : State := if link < 128 then s.dlnAdd (4096 + link) counter else s

/-- A granted frame is sent: whole, up to a cut by preemption, or, while its end has not come, as far as it is there. -/
def State.sendFrame (s : State) (link k cut : Nat) (f : TxFrame) (p : Pkt) : State :=
  let t := s.ptx link
  let may := decide (k < 8 ∨ k = 9) && s.preempting link && !s.expressClass link p.md.tc && !(p.md.ptpOp == 2 || p.md.ptpOp == 3)
    && t.preempted.isNone && decide (s.minFragment link ≤ cut) && decide (f.sent + cut + 64 ≤ wireLen p)
  if may then (s.setPtx link { t with preempted := some { f with pkt := p, sent := f.sent + cut } }).portCount link 5
  else if !p.complete then s.setPtx link { t with sending := some { f with pkt := p } }
  else s.txDone link p

/-- The port grants a frame at a start opportunity (R395); `cut` bytes of it are sent before it is preempted (0: it is not). A
cut-through frame in transmission comes to its end first. -/
def execPortFrameGrant (link cut : Nat) (s : State) : Host.Outcome State Fault Refusal :=
  let t := s.ptx link
  match t.sending with
  | some f =>
    if f.pkt.complete then .next ((s.setPtx link { t with sending := none }).txDone link f.pkt) else .next s
  | none =>
    if s.stoppedForwarding then .next s
    else
      let s0 := s.countDeferred link
      let t0 := s0.ptx link
      match s0.grantFrom link with
      | none => .next s0
      | some k =>
        match (if k = 9 then t0.preempted else t0.head k) with
        | none => .next s0
        | some f =>
          let s1 := s0.setPtx link (t0.pop k)
          let late := k == 8 && s1.lateAtPort link f.pkt
          if late && (s1.dlnProfOf f.pkt.md.queue).lateAct == 0 then
            .next (((s1.setEvent Fld.DLN_EVENT_LATE).portCount link 0).egressDrop f.pkt)
          else
            let s2 := if late then (s1.setEvent Fld.DLN_EVENT_LATE).portCount link 1 else s1
            match (if k = 9 then (s2, f.pkt) else s2.ptpStage link f.pkt) with
            | (s3, p) => .next (s3.sendFrame link k cut f p)

end Sys2Proof.Machine
end

