-- ==== Sys2Proof/Machine/Pmc.lean ====
section
/-! DEFINITION. The counter banks: configuration, clearing, running, the one-second latch, reads and the window (19 R543-R557). -/

namespace Sys2Proof.Machine

open Sys2Proof

/-- The counters of an object are set to 0; a chained low half takes its high half with it (R549). -/
def State.pmcClear (s : State) (b n : Nat) : State :=
  let c := Assoc.erase s.pmcs.cnt (2048 * b + n)
  { s with pmcs := { s.pmcs with cnt := if s.fbit (Fld.PMC_CFG_CHAIN b n) then Assoc.erase c (2048 * b + n + 1) else c } }

/-- Every counter of a bank is set to 0. -/
def State.pmcClearBank (s : State) (b : Nat) : State :=
  { s with pmcs := { s.pmcs with cnt := s.pmcs.cnt.filter fun kv => kv.1 / 2048 != b } }

/-- A write of PMC_CLR. -/
def State.hookPmcClr (s : State) (v : Nat) : State :=
  if bitAt v 12 then s.pmcClearBank (bitsAt v 11 1) else s.pmcClear (bitsAt v 11 1) (bitsAt v 0 11)

/-- A write of PMC_RUN: start or stop at the first whole microsecond at least 1 µs later; it replaces one that waits (R550). OP 0 and
3 are discarded. -/
def State.hookPmcRun (s : State) (v : Nat) : State :=
  let op := bitsAt v 0 2
  if op = 0 ∨ op = 3 then s
  else
    ({ s with pmcs := { s.pmcs with run := some ⟨op, bitsAt v 2 2, ceilDiv (s.nowNs + 1000) 1000 * 1000⟩ } }).fset Fld.PMC_STATUS_PENDING 1

/-- The start or stop that waits takes place (R550). -/
def State.pmcRunNow (s : State) : State :=
  match s.pmcs.run with
  | none => s
  | some r =>
    let old := s.fget Fld.PMC_STATUS_RUNNING
    let new := if r.op = 1 then old ||| r.banks else old - (old &&& r.banks)
    (((({ s with pmcs := { s.pmcs with run := none } }).fset Fld.PMC_STATUS_RUNNING new).fset Fld.PMC_STATUS_PENDING 0)).setEvent
      Fld.PMC_EVENT_RUN_APPLIED

/-- A write of PMC_CFG: checked under R545; CHAIN on an odd counter reads back 0 (R547). `none`: rejected. -/
def State.pmcCfgWrite (s : State) (b n v : Nat) : Option State :=
  if pmcCfgOk b (bitsAt v 0 12) (bitsAt v 12 10) (bitAt v 22) (s.fget (Fld.PMC_QUAL_QUAL b n)) then
    let keep := putBits (putBits v 25 6 0) 23 1 (if n % 2 = 0 then bitsAt v 23 1 else 0)
    some (s.setReg (Reg.PMC_CFG b n) (BitVec.ofNat 32 keep))
  else none

/-- A write of PMC_QUAL (R545). -/
def State.pmcQualWrite (s : State) (b n v : Nat) : Option State :=
  let cfg := (s.reg (Reg.PMC_CFG b n)).toNat
  if pmcCfgOk b (bitsAt cfg 0 12) (bitsAt cfg 12 10) (bitAt cfg 22) (bitsAt v 0 8) then
    some (s.fset (Fld.PMC_QUAL_QUAL b n) v)
  else none

/-- The latch of the one-second tick at an instant of the stamping view (R555). -/
def State.pmcLatch (s : State) (instant : Nat) : State :=
  let s1 := { s with pmcs := { s.pmcs with lat := s.pmcs.cnt } }
  (s1.wrapAdd Fld.PMC_LATCH_SEQ_SEQ 1).setInstant Fld.PMC_LATCH_NS_NS Fld.PMC_LATCH_SEC_LO_SEC Fld.PMC_LATCH_SEC_HI_SEC instant

/-- A counter as PMC_CNT or PMC_LAT show it, 64 bits (R553). -/
def State.pmcShow (s : State) (m : Assoc Nat) (b n : Nat) : Nat :=
  let v := Assoc.get m 0 (2048 * b + n)
  if s.fbit (Fld.PMC_CFG_CHAIN b n) then v + 2 ^ 48 * (Assoc.get m 0 (2048 * b + n + 1) % 2 ^ 16) else v

/-- PMC_READ: counters of a bank to host memory (R554). -/
def execPmcRead (c : Cmd) (s : State) : Host.Outcome State Fault Refusal :=
  runCmd 0x0E01 2 2 c s fun s =>
    let first := bitsAt c.arg0 0 11
    let b := bitsAt c.arg0 16 1
    let count := bitsAt c.arg1 0 12
    if c.resv [(0, 11), (16, 1), (17, 1)] [(0, 12)] [(32, 0, 64)] then fail stBadPayload s
    else if count = 0 ∨ 2048 < first + count then fail stOutOfRange s
    else
      let m := if bitAt c.arg0 17 then s.pmcs.lat else s.pmcs.cnt
      let bytes := (List.range count).flatMap fun i => leBytes 8 (s.pmcShow m b (first + i))
      let q := s.fget Fld.PMC_LATCH_SEQ_SEQ
      ok (s.emit (.hostWrite (c.fld 32 0 64) bytes)) q q

/-! ### The counter window (R557) -/

/-- Offsets of the window in BAR0. -/
def inPmcWindow (off : Nat) : Bool := decide (0x680000 ≤ off ∧ off < 0x691000)

/-- A write to the window is discarded and counted. -/
def State.pmcWindowWrite (s : State) : State := s.satAdd Fld.PMC_WIN_WR_CNT_COUNT 1

/-- Whether the group of counter `n` of bank `b` may be read through the window. -/
def State.pmcGroup (s : State) (b n : Nat) : Bool :=
  bitAt (s.reg (if b = 0 then Reg.PMC_WIN_MASK_LO else Reg.PMC_WIN_MASK_HI)).toNat (n / 64)

/-- What the window holds at an offset, for a reader whose function may read. -/
def State.pmcWindow (s : State) (off : Nat) : Nat :=
  let r := off - 0x680000
  if r < 0x10000 then
    let m := if r < 0x8000 then s.pmcs.cnt else s.pmcs.lat
    let b := r % 0x8000 / 0x4000
    let n := r % 0x4000 / 8
    if s.pmcGroup b n then s.pmcShow m b n / 2 ^ (8 * (r % 8 / 4 * 4)) % 2 ^ 32 else 0
  else if r = 0x10000 then (s.reg Reg.PMC_LATCH_SEQ).toNat
  else if r = 0x10004 then (s.reg Reg.PMC_LATCH_NS).toNat
  else if r = 0x10008 then (s.reg Reg.PMC_LATCH_SEC_LO).toNat
  else if r = 0x1000C then (s.reg Reg.PMC_LATCH_SEC_HI).toNat
  else 0

/-- The block reset of PMC (R551, 21 R590): counters and copies 0, both banks stopped, every register at its Reset value. -/
def State.pmcReset (s : State) : State :=
  let s1 := { s with pmcs := ⟨[], [], none⟩ }
  { s1 with regs := s1.regs.filter fun kv => kv.1 / 0x100000 != 6 }

end Sys2Proof.Machine
end

