-- ==== Sys2Proof/Machine/Time.lean ====
section
/-! DEFINITION. Device time runs (15 R441-R455, R463, R467): the two domains, the one-second tick, PPS outputs and triggers. -/

namespace Sys2Proof.Machine

open Sys2Proof

/-! ### One domain (R442, R452) -/

/-- The units of 2^-56 ns in a nanosecond, and the limit of rho. -/
def unitsPerNs : Int := 2 ^ 56
def rhoLimit : Int := 2 ^ 47

/-- Units that a domain gains in its next cycle. -/
def TimeDomain.inc (d : TimeDomain) : Int :=
  unitsPerNs + d.rho + match d.slew with
    | none => 0
    | some w => if w.left ≤ 1 then w.sigma + w.rest else w.sigma

/-- A domain's nanoseconds and fraction, in units. -/
def TimeDomain.units (d : TimeDomain) : Int := (d.ns : Int) * unitsPerNs + (d.frac : Int)

/-- Cycles after which the units of a domain reach `target`, at its present rate. -/
def TimeDomain.cyclesTo (d : TimeDomain) (target : Int) : Nat := ceilDiv (target - d.units).toNat (max 1 d.inc.toNat)

/-- The longest run, of at most `n` cycles, in which only the last cycle can end a second and the rate does not change. -/
def TimeDomain.span (d : TimeDomain) (n : Nat) : Nat :=
  let k := min n (max 1 (d.cyclesTo (1000000000 * unitsPerNs)))
  match d.slew with
  | none => k
  | some w => min k (if w.left ≤ 1 then 1 else w.left - 1)

/-- The clamp of rho. -/
def clampRho (x : Int) : Int := max (-rhoLimit) (min rhoLimit x)

/-- What a run of cycles brought: the domain, whether a slew ended, whether rho was clamped. -/
structure Ran where
  dom : TimeDomain
  slewDone : Bool
  clamped : Bool
  deriving DecidableEq, Repr

/-- A domain runs `k` cycles, `k` within its span. -/
def TimeDomain.run (d : TimeDomain) (k : Nat) : Ran :=
  let u := (d.units + (k : Int) * d.inc).toNat
  let ns := u / 2 ^ 56
  let slew := match d.slew with
    | none => none
    | some w => if w.left ≤ k then none else some { w with left := w.left - k }
  let d1 := { d with ns := ns, frac := u % 2 ^ 56, slew := slew }
  let done := d.slew.isSome && slew.isNone
  if ns < 1000000000 then ⟨d1, done, false⟩
  else
    let rho := clampRho (d.rho + d.drift)
    ⟨{ d1 with ns := ns - 1000000000, sec := (d.sec + 1) % 2 ^ 48, rho := rho }, done, rho != d.rho + d.drift⟩

/-- The unapplied part of a slew, in ns (R452). -/
def Slew.unapplied (w : Slew) : Int := (w.delta * unitsPerNs - w.sigma * ((w.total - w.left : Nat) : Int)).tdiv unitsPerNs

def TimeDomain.unapplied (d : TimeDomain) : Int := match d.slew with | some w => w.unapplied | none => 0

def State.setDomain (s : State) (d : Nat) (x : TimeDomain) : State :=
  if d = 0 then { s with tim := { s.tim with dom0 := x } } else { s with tim := { s.tim with dom1 := x } }

/-! ### The one-second tick (R455) -/

/-- Restarts DEFECT_FLAGS of every PHY with the raw defects present now (05 R178). -/
def State.restartDefects (s : State) : State :=
  (List.range 128).foldl (fun (t : State) p =>
    let live := (List.range 8).foldl (fun n j => match Assoc.find t.ports.oh (8 * p + j) with | some o => Nat.lor n o.raw | none => n) 0
    { t with ports := { t.ports with fxeCnt := Assoc.put t.ports.fxeCnt 0 (2 ^ 17 + 256 * p + 3) live } }) s

/-- Every counter copy is latched. -/
def State.secondTick (s : State) : State :=
  let s1 := { s with ports := { s.ports with mibLatch := s.ports.mib, fxeLatch := s.ports.fxeCnt }
                     tm := { s.tm with dlnLatch := s.tm.dlnCnt }
                     hbm := { s.hbm with ueSec := [] } }
  (s1.restartDefects.pmcLatch s1.nowNs).wrapAdd Fld.TIM_TICK_CNT_COUNT 1

/-! ### Triggers (R467) -/

def State.trigInstant (s : State) (n : Nat) : Nat := s.getInstant (Fld.TIM_TRIG_NS_NS n) (Fld.TIM_TRIG_SEC_LO_SEC n) (Fld.TIM_TRIG_SEC_HI_SEC n)

/-- A trigger whose instant the view has reached fires; after a jump, or a late enable, the periods skipped are counted. -/
def State.trigCheck (jump : Bool) (s : State) (n : Nat) : State :=
  let period := s.fget (Fld.TIM_TRIG_PERIOD_PERIOD_NS n)
  let t := s.trigInstant n
  if !s.fbit (Fld.TIM_TRIG_CFG_EN n) || (period == 0 && s.fbit (Fld.TIM_TRIG_CFG_FIRED n)) || decide (s.nowNs < t) then s
  else
    let s1 := (s.setEventBits Fld.TIM_EVENT_TRIG (2 ^ n)).fset (Fld.TIM_TRIG_CFG_FIRED n) 1
    if period = 0 then s1
    else
      let k := (s.nowNs - t) / period + 1
      let s2 := s1.setInstant (Fld.TIM_TRIG_NS_NS n) (Fld.TIM_TRIG_SEC_LO_SEC n) (Fld.TIM_TRIG_SEC_HI_SEC n) (t + k * period)
      if jump then s2.satAdd (Fld.TIM_TRIG_MISSED_COUNT n) (k - 1) else s2

def State.trigAll (s : State) (jump : Bool) : State := (List.range 8).foldl (State.trigCheck jump) s

/-! ### PPS outputs (R463) -/

/-- Drives output `n` to its active or inactive level. -/
def State.ppsDrive (s : State) (n : Nat) (active : Bool) : State := s.emit (.pin n (active != s.fbit (Fld.TIM_PPSOUT_CFG_POL n)))

/-- A pulse is due. -/
def State.ppsPulse (s : State) (n : Nat) : State :=
  if s.tim.ppsActive.contains n then s.satAdd (Fld.TIM_PPSOUT_SKIP_COUNT n) 1
  else ({ s with tim := { s.tim with ppsActive := s.tim.ppsActive ++ [n] } }).ppsDrive n true

/-- OFFSET of an output. -/
def State.ppsOffset (s : State) (n : Nat) : Int := signed (s.fget (Fld.TIM_PPSOUT_OFS_OFFSET n)) 32

/-- The whole second that a domain less OFFSET stands in. -/
def State.ppsSecond (s : State) (n : Nat) : Int :=
  (((s.timeDomain (s.fget (Fld.TIM_PPSOUT_CFG_DOM n))).count : Int) - s.ppsOffset n) / 1000000000

/-! ### Cycles of the other clocks (19 R544) -/

/-- `x` cycles of CLK_MGMT: a wait for a completion slot (02 R71) and for room in a full record queue is counted. -/
def State.mgmtCycles (s : State) (x : Nat) : State :=
  let s1 := s.pmc 0x002 0 0 x
  let s2 := match s1.ce.stalled with
    | some m => (s1.satAdd (Fld.CE_CQ_STALL_COUNT m) x).pmc 0x061 m 0 x
    | none => s1
  if s2.rqWaits then s2.satAdd Fld.DMA_RQ_STALL_COUNT x else s2

/-- Cycles of CLK_FE, CLK_MGMT and CLK_TM pass with device time; no domain is related to another in frequency or phase (01 R27), so how
many is a free value (points 8 to 10). -/
def State.clockCycles (s : State) : State :=
  let s1 := if s.pmcCounts 0x001 then (match s.free 8 with | (x, t) => t.pmc 0x001 0 0 x) else s
  let s2 := if s1.pmcCounts 0x002 || s1.ce.stalled.isSome || s1.rqWaits then (match s1.free 9 with | (x, t) => t.mgmtCycles x) else s1
  if s2.pmcCounts 0x801 || s2.pmcCounts 0x813 || s2.pmcCounts 0x814 || s2.pmcCounts 0x823 then
    match s2.free 10 with
    | (x, t) =>
      let t1 := ((t.pmc 0x801 0 0 x).pmc 0x813 0 0 (x * (t.cellsUsed .shared / 256))).pmc 0x823 0 t.yieldStep x
      (List.range 6).foldl (fun (u : State) k =>
        u.pmc 0x814 k 0 (x * (((List.range 8).foldl (fun n r => n + (u.region (8 * k + r)).used) 0) / 16384))) t1
  else s2

/-! ### Device time runs -/

/-- Both domains run `k` cycles, within the span of each: the tick, PPS pulses and triggers that fall in the last cycle follow. -/
def State.runSpan (s : State) (k : Nat) : State :=
  let a := s.tim.dom0.run k
  let b := s.tim.dom1.run k
  let s1 := { s with tim := { s.tim with dom0 := a.dom, dom1 := b.dom } }
  let s2 := if a.slewDone || b.slewDone then s1.setEvent Fld.TIM_EVENT_SLEW_DONE else s1
  let s3 := if a.clamped || b.clamped then s2.setEvent Fld.TIM_EVENT_RATE_CLAMP else s2
  let s4 := if s.view.sec < s3.view.sec then s3.secondTick else s3
  let s5 := (List.range 2).foldl (fun (t : State) n =>
    if t.fbit (Fld.TIM_PPSOUT_CFG_EN n) && decide (s.ppsSecond n < t.ppsSecond n) then t.ppsPulse n else t) s4
  (s5.trigAll false).clockCycles

/-- Device time runs `n` cycles of CLK_TIME, span by span. -/
def State.advance : Nat → Nat → State → State
  | 0, _, s => s
  | fuel + 1, n, s =>
    if n = 0 then s
    else
      let k := min (s.tim.dom0.span n) (s.tim.dom1.span n)
      State.advance fuel (n - k) (s.runSpan k)

/-- Spans enough for `n` cycles. -/
def spanFuel (n : Nat) : Nat := n / 400000000 + 12

/-- Device time runs until the count of domain `d` is `target` or more. -/
def State.advanceTo (d target : Nat) : Nat → State → State
  | 0, s => s
  | fuel + 1, s =>
    let x := s.timeDomain d
    if target ≤ x.count then s
    else
      let c := max 1 (x.cyclesTo (((target : Int) - (x.sec : Int) * 1000000000) * unitsPerNs))
      State.advanceTo d target fuel (s.runSpan (min (s.tim.dom0.span c) (s.tim.dom1.span c)))

/-- Device time runs until the stamping view reaches an instant. -/
def State.waitFor (s : State) (instant : Nat) : State :=
  State.advanceTo (s.fget Fld.TIM_STATUS_STAMP_DOM) instant (spanFuel (instant - s.nowNs)) s

/-! ### Jumps of the stamping view (R454) -/

/-- What follows a step or a switch that took the view from seconds `old`: one tick when SEC rose, triggers passed. -/
def State.afterJump (s : State) (old : Nat) : State := (if old < s.view.sec then s.secondTick else s).trigAll true

end Sys2Proof.Machine
end

