-- ==== Sys2Proof/Machine/Tim.lean ====
section
/-! DEFINITION. The TIM block: the time commands (15 R449-R453, R468, R469), reference and lanes (15 R441, 01 R30), PPS, SyncE and triggers
(15 R462-R467). -/

namespace Sys2Proof.Machine

open Sys2Proof

/-! ### Commands (R468, R469) -/

/-- A time value as two results hold it. -/
def timeLo (count : Nat) : Nat := count % 1000000000 + 2 ^ 32 * (count / 1000000000 % 2 ^ 32)
def timeHi (count : Nat) : Nat := count / 1000000000 / 2 ^ 32 % 2 ^ 16

/-- Whether a command's master may change the TIM block. -/
def State.timOwned (s : State) (c : Cmd) : Bool := s.owns (s.cmdMaster c) 8

def execTimeRead (c : Cmd) (s : State) : Host.Outcome State Fault Refusal :=
  runCmd 0x0B01 1 1 c s fun s =>
    if c.resv [(0, 1)] [] [] then fail stBadPayload s
    else
      let d := bitsAt c.arg0 0 1
      let x := (s.timeDomain d).count
      ok s (timeLo x) (timeHi x + 2 ^ 16 * s.fget Fld.TIM_STATUS_STAMP_DOM + 2 ^ 32 * fastPath (s.timeDomain (1 - d)).count)

/-- A domain after a step to a count (R450). -/
def TimeDomain.stepped (d : TimeDomain) (count : Nat) : TimeDomain :=
  { d with sec := count / 1000000000, ns := count % 1000000000, frac := 0, slew := none, set := true, permit := false }

/-- A step takes effect at once; a step of the stamping domain is a jump of the view. -/
def State.stepDomain (s : State) (d count : Nat) : State :=
  let s1 := s.setDomain d ((s.timeDomain d).stepped count)
  (s1.setEvent Fld.TIM_EVENT_STEPPED).afterJump s.view.sec

def execTimeSet (c : Cmd) (s : State) : Host.Outcome State Fault Refusal :=
  runCmd 0x0B02 1 1 c s fun s =>
    let d := bitsAt c.arg1 16 1
    let old := (s.timeDomain d).count
    let ns := bitsAt c.arg0 0 32
    if c.resv [(0, 64)] [(0, 17)] [] then fail stBadPayload s
    else if 1000000000 ≤ ns then fail stOutOfRange s
    else if !s.timOwned c then fail stNotOwner s
    else if !(s.timeDomain d).permit then fail stState s
    else ok (s.stepDomain d ((bitsAt c.arg0 32 32 + 2 ^ 32 * bitsAt c.arg1 0 16) * 1000000000 + ns)) (timeLo old) (timeHi old)

def execTimeStep (c : Cmd) (s : State) : Host.Outcome State Fault Refusal :=
  runCmd 0x0B03 1 1 c s fun s =>
    let d := bitsAt c.arg1 0 1
    let off := signed c.arg0 64
    let new := ((s.timeDomain d).count : Int) + off
    if c.resv [(0, 64)] [(0, 1)] [] then fail stBadPayload s
    else if 2 ^ 62 ≤ off.natAbs then fail stOutOfRange s
    else if !s.timOwned c then fail stNotOwner s
    else if !(s.timeDomain d).permit then fail stState s
    else if new < 0 ∨ 2 ^ 48 * 1000000000 ≤ new then fail stOutOfRange s
    else ok (s.stepDomain d new.toNat) (timeLo new.toNat) (timeHi new.toNat)

def execTimeRate (c : Cmd) (s : State) : Host.Outcome State Fault Refusal :=
  runCmd 0x0B04 1 1 c s fun s =>
    let d := bitsAt c.arg1 32 1
    let rho := signed c.arg0 48
    let x := s.timeDomain d
    if c.resv [(0, 48)] [(0, 34)] [] then fail stBadPayload s
    else if rho < -rhoLimit ∨ rhoLimit < rho then fail stOutOfRange s
    else if !s.timOwned c then fail stNotOwner s
    else
      ok (s.setDomain d { x with rho := rho, drift := if bitAt c.arg1 33 then signed c.arg1 32 else x.drift }) (unsignedOf x.rho 48) 0

def execTimeSlew (c : Cmd) (s : State) : Host.Outcome State Fault Refusal :=
  runCmd 0x0B05 1 1 c s fun s =>
    let d := bitsAt c.arg1 48 1
    let delta := signed c.arg0 64
    let n := bitsAt c.arg1 0 40
    let x := s.timeDomain d
    if c.resv [(0, 64)] [(0, 40), (48, 1)] [] then fail stBadPayload s
    else if n < 1000 ∨ n < 2000 * delta.natAbs then fail stOutOfRange s
    else if !s.timOwned c then fail stNotOwner s
    else
      let sigma := (delta * unitsPerNs).fdiv (n : Int)
      let w : Slew := { delta := delta, total := n, left := n, sigma := sigma, rest := delta * unitsPerNs - sigma * (n : Int) }
      ok (s.setDomain d { x with slew := some w }) (unsignedOf x.unapplied 64) 0

def execTimeUnlock (c : Cmd) (s : State) : Host.Outcome State Fault Refusal :=
  runCmd 0x0B06 1 1 c s fun s =>
    let d := bitsAt c.arg0 0 1
    if c.resv [(0, 1)] [] [] then fail stBadPayload s
    else if !s.timOwned c then fail stNotOwner s
    else ok (s.setDomain d { s.timeDomain d with permit := true }) 0 0

/-- A difference of counts as a signed 32-bit value that saturates. -/
def sat32 (x : Int) : Nat := unsignedOf (max (-(2 ^ 31)) (min (2 ^ 31 - 1) x)) 32

def execTimeSwitch (c : Cmd) (s : State) : Host.Outcome State Fault Refusal :=
  runCmd 0x0B07 1 1 c s fun s =>
    let d := bitsAt c.arg0 0 1
    if c.resv [(0, 1)] [] [] then fail stBadPayload s
    else if !s.timOwned c then fail stNotOwner s
    else if s.fget Fld.TIM_STATUS_STAMP_DOM = d then ok s (timeLo s.nowNs) (timeHi s.nowNs)
    else
      let s1 := (s.fset Fld.TIM_STATUS_STAMP_DOM d).setEvent Fld.TIM_EVENT_SWITCHED
      ok (s1.afterJump s.view.sec) (timeLo s1.nowNs) (timeHi s1.nowNs + 2 ^ 32 * sat32 ((s1.nowNs : Int) - (s.nowNs : Int)))

/-- An entry of a transmit stamp FIFO (R460). -/
def TxStamp.bytes (e : TxStamp) (port : Nat) : List Byte :=
  leBytes 4 e.fastNs ++ leBytes 1 (e.qns % 4 + 16 * (e.msgType % 16)) ++ leBytes 1 e.domainNumber ++ leBytes 2 e.sequenceId
    ++ leBytes 1 port ++ leBytes 1 e.dom ++ leBytes 6 0

def execTimeTxtsRead (c : Cmd) (s : State) : Host.Outcome State Fault Refusal :=
  runCmd 0x0B08 2 2 c s fun s =>
    let p := bitsAt c.arg0 0 7
    let n := bitsAt c.arg0 8 7
    let f := Assoc.get s.tim.txts [] p
    if c.resv [(0, 15)] [] [(32, 0, 64)] then fail stBadPayload s
    else if n = 0 ∨ 64 < n then fail stOutOfRange s
    else if !s.timOwned c then fail stNotOwner s
    else if !s.fbit (Fld.PRT_PORT_CFG_EN (p / 8) (p % 8)) then fail stState s
    else
      let out := f.take n
      let s1 := if out.isEmpty then s else s.emit (.hostWrite (c.fld 32 0 64) (out.flatMap fun e => e.bytes p))
      let s2 := { s1 with tim := { s1.tim with txts := Assoc.put s1.tim.txts [] p (f.drop n) } }
      ok (s2.fset (Fld.TIM_PORT_PTP_TXTS_LEVEL p) (f.drop n).length) out.length 0

/-! ### Time-driven events: device time runs to the instant -/

/-- The last cycle of a slew of domain `d` (R452). -/
def execSlewEnd (d : Nat) (s : State) : Host.Outcome State Fault Refusal :=
  match (s.timeDomain (d % 2)).slew with
  | none => .next s
  | some w => .next (State.advance (spanFuel w.left) w.left s)

/-- The next natural increase of SEC of the stamping view (R455). -/
def execOneSecondTick (s : State) : Host.Outcome State Fault Refusal := .next (s.waitFor ((s.view.sec + 1) * 1000000000))

/-- The next pulse of PPS output `n` (R463). -/
def execPpsOutPulse (n : Nat) (s : State) : Host.Outcome State Fault Refusal :=
  let d := s.fget (Fld.TIM_PPSOUT_CFG_DOM (n % 2))
  let target := ((s.ppsSecond (n % 2) + 1) * 1000000000 + s.ppsOffset (n % 2)).toNat
  if !s.fbit (Fld.TIM_PPSOUT_CFG_EN (n % 2)) then .next s
  else .next (State.advanceTo d target (spanFuel (target - (s.timeDomain d).count)) s)

/-- WIDTH_MS after a pulse began. -/
def execPpsOutPulseEnd (n : Nat) (s : State) : Host.Outcome State Fault Refusal :=
  if s.tim.ppsActive.contains n then
    .next (({ s with tim := { s.tim with ppsActive := s.tim.ppsActive.filter (· != n) } }).ppsDrive n false)
  else .next s

/-- The view reaches the instant of trigger `n` (R467). -/
def execTriggerFire (n : Nat) (s : State) : Host.Outcome State Fault Refusal :=
  if 8 ≤ n ∨ s.fbit (Fld.TIM_TRIG_CFG_EN n) = false then .next s
  else .next ((s.waitFor (s.trigInstant n)).trigAll false)

/-- The banks named by PMC_RUN start or stop at their instant (19 R550). -/
def execPmcRunApply (s : State) : Host.Outcome State Fault Refusal :=
  match s.pmcs.run with
  | none => .next s
  | some r => .next (s.waitFor r.instant).pmcRunNow

/-! ### Reference and lanes (R441, 01 R30) -/

def execTimeRefLoss (s : State) : Host.Outcome State Fault Refusal :=
  if s.fbit Fld.TIM_STATUS_REF_PRESENT then
    .next (((s.fset Fld.TIM_STATUS_REF_PRESENT 0).fset Fld.TIM_STATUS_PLL_LOCK 0).setEvent Fld.TIM_EVENT_REF_LOSS)
  else .next s

def execTimeRefReturn (s : State) : Host.Outcome State Fault Refusal :=
  if s.fbit Fld.TIM_STATUS_REF_PRESENT then .next s
  else .next (((s.fset Fld.TIM_STATUS_REF_PRESENT 1).fset Fld.TIM_STATUS_PLL_LOCK 1).setEvent Fld.TIM_EVENT_REF_BACK)

/-- The clock that the TM copy runs from, given which lanes carry the clock and what it ran from. -/
def tmClockOf (up0 up12 : Bool) : TmClock → TmClock
  | .module0 => if up0 then .module0 else if up12 then .module12 else .holding
  | .module12 => if up12 then .module12 else if up0 then .module0 else .holding
  | .holding => if up0 then .module0 else if up12 then .module12 else .holding

/-- A lane of CLK_TIME to the TM die (0: module 0, 1: module 12) stops or carries the clock. -/
def State.setLane (s : State) (lane : Nat) (up : Bool) : State :=
  let u0 := if lane = 0 then up else s.tim.laneUp0
  let u12 := if lane = 0 then s.tim.laneUp12 else up
  let clk := tmClockOf u0 u12 s.tim.tmClock
  let s1 := { s with tim := { s.tim with laneUp0 := u0, laneUp12 := u12, tmClock := clk } }
  if clk = .holding ∧ s.tim.tmClock ≠ .holding then s1.setEvent Fld.TIM_EVENT_TM_TIME_LOST else s1

def execTimeLaneLoss (lane : Nat) (s : State) : Host.Outcome State Fault Refusal := .next (s.setLane lane false)

def execTimeLaneReturn (lane : Nat) (s : State) : Host.Outcome State Fault Refusal := .next (s.setLane lane true)

/-! ### PPS inputs (R462) -/

/-- An edge of input `n` that held its active level for `held` units of 10 ns, `gap` ms after the last accepted edge. -/
def execPpsInEdge (n held gap : Nat) (s : State) : Host.Outcome State Fault Refusal :=
  if 2 ≤ n ∨ s.fbit (Fld.TIM_PPSIN_CFG_EN n) = false then .next s
  else if held < max 1 (s.fget (Fld.TIM_PPSIN_CFG_MIN_PULSE n)) then .next (s.satAdd (Fld.TIM_PPSIN_CNT_GLITCH n) 1)
  else if gap < s.fget (Fld.TIM_PPSIN_WIN_MIN_GAP_MS n) then .next (s.satAdd (Fld.TIM_PPSIN_CNT_EARLY n) 1)
  else
    let d := s.timeDomain (s.fget (Fld.TIM_PPSIN_CFG_DOM n))
    let q := (((4 * d.count + d.qns : Nat) : Int) + signed (s.fget (Fld.TIM_PPSIN_ADJ_ADJ n)) 16).toNat
    let s1 := s.setInstant (Fld.TIM_PPSIN_NS_NS n) (Fld.TIM_PPSIN_SEC_LO_SEC n) (Fld.TIM_PPSIN_SEC_HI_SEC n) (q / 4)
    let s2 := (s1.fset (Fld.TIM_PPSIN_NS_QNS n) (q % 4)).wrapAdd (Fld.TIM_PPSIN_SEQ_SEQ n) 1
    .next ((s2.fset (Fld.TIM_PPSIN_SEQ_LOST n) 0).setEventBits Fld.TIM_EVENT_PPSIN_EDGE (2 ^ n))

/-- No edge of input `n` has been accepted for LOSS_MS. -/
def execPpsInLoss (n : Nat) (s : State) : Host.Outcome State Fault Refusal :=
  if 2 ≤ n ∨ s.fbit (Fld.TIM_PPSIN_CFG_EN n) = false ∨ s.fbit (Fld.TIM_PPSIN_SEQ_LOST n) = true then .next s
  else .next ((s.fset (Fld.TIM_PPSIN_SEQ_LOST n) 1).setEventBits Fld.TIM_EVENT_PPSIN_LOSS (2 ^ n))

/-! ### SyncE outputs (R464, R465) -/

/-- The port of logical line lane `lane` has a good link. -/
def State.laneGood (s : State) (lane : Nat) : Bool :=
  (s.otherPorts (lane / 8) 8).any fun (e : Nat × Nat) =>
    (cfgLanes e.1 e.2).contains (lane % 8) && s.linkGood (8 * (lane / 8) + e.1)

/-- The lane of output `n` has lost PCS lock, or its port's link has ceased to be good. -/
def execSynceSquelch (n : Nat) (s : State) : Host.Outcome State Fault Refusal :=
  if 2 ≤ n ∨ s.fbit (Fld.TIM_SYNCE_CFG_EN n) = false ∨ s.fbit (Fld.TIM_SYNCE_CFG_SQUELCH_EN n) = false
      ∨ s.fbit (Fld.TIM_SYNCE_STATUS_SQUELCHED n) = true then .next s
  else .next ((s.fset (Fld.TIM_SYNCE_STATUS_SQUELCHED n) 1).setEventBits Fld.TIM_EVENT_SYNCE_SQUELCH (2 ^ n))

/-- The lane of output `n` has been good for HOLD_MS. -/
def execSynceResume (n : Nat) (s : State) : Host.Outcome State Fault Refusal :=
  if 2 ≤ n ∨ s.fbit (Fld.TIM_SYNCE_CFG_EN n) = false ∨ s.laneGood (s.fget (Fld.TIM_SYNCE_CFG_LANE n)) = false then .next s
  else .next (s.fset (Fld.TIM_SYNCE_STATUS_SQUELCHED n) 0)

/-! ### Register writes -/

/-- A write of TIM_SYNCE_CFG: an output that is off, or whose lane is not good under SQUELCH_EN, is held low. -/
def State.hookSynce (s : State) (n v : Nat) : State :=
  let v1 := if bitsAt v 9 12 = 0 then putBits v 9 12 1 else v
  let s1 := s.setReg (Reg.TIM_SYNCE_CFG n) (BitVec.ofNat 32 v1)
  let low := !bitAt v 0 || (bitAt v 1 && !s1.laneGood (bitsAt v 2 7)) || (bitAt v 1 && s.fbit (Fld.TIM_SYNCE_STATUS_SQUELCHED n))
  s1.fset (Fld.TIM_SYNCE_STATUS_SQUELCHED n) (b2n low)

/-- A write of TIM_TRIG_CFG: EN rising starts the trigger afresh, and one whose instant is past fires at once, late (R467). -/
def State.hookTrig (s : State) (n v : Nat) : State :=
  if !bitAt v 0 then s.fset (Fld.TIM_TRIG_CFG_EN n) 0
  else if s.fbit (Fld.TIM_TRIG_CFG_EN n) then s
  else
    let late := decide (s.trigInstant n < s.nowNs)
    let s1 := s.setReg (Reg.TIM_TRIG_CFG n) (BitVec.ofNat 32 (1 + 2 * b2n late))
    State.trigCheck true s1 n

/-- A write of TIM_SNAP (R444). -/
def State.hookSnap (s : State) (v : Nat) : State :=
  if bitAt v 0 then
    [0, 1].foldl (fun (t : State) d =>
      t.setInstant (Fld.TIM_SNAP_NS_NS d) (Fld.TIM_SNAP_SEC_LO_SEC d) (Fld.TIM_SNAP_SEC_HI_SEC d) (t.timeDomain d).count) s
  else s

/-- A write of TIM_PPSOUT_CFG: WIDTH_MS reads back inside its limits; with EN 0, or a new polarity, the pin takes its level. -/
def State.hookPpsOut (s : State) (n v : Nat) : State :=
  let keep := putBits v 6 10 (min 999 (max 1 (bitsAt v 6 10)))
  let s1 := s.setReg (Reg.TIM_PPSOUT_CFG n) (BitVec.ofNat 32 (keep % 8 + bitsAt keep 6 10 * 64))
  if bitAt v 0 then
    if bitAt v 1 = s.fbit (Fld.TIM_PPSOUT_CFG_POL n) then s1 else s1.ppsDrive n (s.tim.ppsActive.contains n)
  else ({ s1 with tim := { s1.tim with ppsActive := s1.tim.ppsActive.filter (· != n) } }).ppsDrive n false

/-- A write of TIM_PPSOUT_OFS. -/
def State.hookPpsOfs (s : State) (n v : Nat) : State :=
  s.fset (Fld.TIM_PPSOUT_OFS_OFFSET n) (unsignedOf (max (-500000000) (min 500000000 (signed v 32))) 32)

/-- A write of TIM_PPSIN_CFG or TIM_PPSIN_WIN: MIN_PULSE and LOSS_MS 0 read back as 1. -/
def State.hookPpsInCfg (s : State) (n v : Nat) : State :=
  s.setReg (Reg.TIM_PPSIN_CFG n) (BitVec.ofNat 32 (v % 8 + 2 ^ 16 * max 1 (bitsAt v 16 16)))
def State.hookPpsInWin (s : State) (n v : Nat) : State :=
  s.setReg (Reg.TIM_PPSIN_WIN n) (BitVec.ofNat 32 (v % 2 ^ 16 + 2 ^ 16 * max 1 (bitsAt v 16 16)))

/-! ### Views of the domains -/

/-- TIM_DOM_STATE, RATE, DRIFT and SLEW of domain `d`, by distance from TIM_DOM_STATE. -/
def State.domView (s : State) (d r : Nat) : Nat :=
  let x := s.timeDomain d
  if r = 0 then b2n x.set + 2 * b2n x.permit + 4 * b2n x.slew.isSome
  else if r = 4 then unsignedOf x.rho 48 % 2 ^ 32
  else if r = 8 then unsignedOf x.rho 48 / 2 ^ 32
  else if r = 12 then unsignedOf x.drift 32
  else if r = 16 then unsignedOf x.unapplied 64 % 2 ^ 32
  else unsignedOf x.unapplied 64 / 2 ^ 32

end Sys2Proof.Machine
end

