-- ==== Sys2Proof/Machine/Restart.lean ====
section
/-! DEFINITION. Power-on reset and device reset: what every reset that runs Priming leaves (21 R585-R587, 20 R578). -/

namespace Sys2Proof.Machine

open Sys2Proof

/-- The image store after a reset that restarts firmware: sessions and banks stay (20 R566); a bank in TRIAL is FAILED with
REASON 9 (20 R578); a handover before its switch instant leaves the banks as they were (21 R587). -/
def State.mramKept (s : State) : FwuState :=
  let fail := fun (b : ImageBank) => if b.state = 4 then { b with state := 6, reason := 9 } else b
  { s.fwu with bank0 := fail s.fwu.bank0, bank1 := fail s.fwu.bank1, handover := none, held := [], chunkPulse := none }

/-- The block with every field at its reset value but `regs`, the image store, the straps as they were sampled, the test access port, and the
PCIe link's own state. -/
def State.restarted (s : State) (regs : Assoc Word) : State :=
  let r := { rstReset with strapChain := s.rst.strapChain, strapHold := s.rst.strapHold, porLow := s.rst.porLow, jtag := s.rst.jtag
                           jtagHolds := s.rst.jtagHolds }
  { State.reset with regs := regs, outs := s.outs, pending := s.pending, freeSeq := s.freeSeq, fwu := s.mramKept, rst := r
                     host := { hostReset with linkDown := s.host.linkDown } }

/-- The straps' registers take what was sampled (21 R585, R594). -/
def State.strapRegs (s : State) : State :=
  (s.fset Fld.IGL_ID_CHAIN_ID s.rst.strapChain).fset Fld.RST_CFG_HOLD (b2n s.rst.strapHold)

/-- POR_N is held low: a power-on reset (21 R585). -/
def State.powerOnReset (s : State) : State :=
  let t := s.restarted []
  ({ t with rst := { t.rst with porLow := true } }).strapRegs

/-- RWS fields stay, and the feed switches with what is read at the feeds (21 R586). -/
def State.deviceReset (s : State) (cause master : Nat) : State :=
  let kept := s.resetRegs (fun off => off != Reg.PWR_FEED_STATUS) (· == .rws)
  let t := (s.restarted kept.regs).strapRegs
  let t1 := ((t.fset Fld.PWR_FEED_STATUS_TRANSFER 0).fset Fld.PWR_FEED_STATUS_HOLDING 0).fset Fld.PWR_FEED_STATUS_HEALTH 0
  let t2 := (t1.fset Fld.RST_CAUSE_CAUSE cause).fset Fld.RST_CAUSE_MASTER master
  let t3 := t2.fset Fld.RST_CAUSE_COUNT (min 65535 (s.fget Fld.RST_CAUSE_COUNT + 1))
  let t4 := { t3 with pwr := { t3.pwr with noStandbySeen := s.pwr.noStandbySeen, thermTrip := s.pwr.thermTrip } }
  if s.err.fatal = .dumping then t4.fset Fld.ERR_WL_STATUS_STATE 5 else t4

/-- A device reset is held while Tmax is 95 °C or more (21 R587). -/
def State.askDeviceReset (s : State) (cause master : Nat) : State :=
  if s.fbit Fld.PWR_THERM_MAX_VALID && decide ((760 : Int) ≤ signed (s.fget Fld.PWR_THERM_MAX_TEMP) 12) then
    { s with rst := { s.rst with heldReset := some (master, cause) } }
  else s.deviceReset cause master

/-- A held device reset goes on once Tmax has fallen below 95 °C (16 R478). -/
def State.heldReset (s : State) (t : Int) : State :=
  match s.rst.heldReset with
  | some (master, cause) => if t < 760 then s.deviceReset cause master else s
  | none => s

end Sys2Proof.Machine
end

