-- ==== Sys2Proof/Machine/Power.lean ====
section
/-! DEFINITION. The PWR block: power domains, temperature, the budget governor, background credit, the fencing policy, and the feeds
(16 R470-R495). -/

namespace Sys2Proof.Machine

open Sys2Proof

/-! ### Domains (R470-R472, 22 R602) -/

/-- The power domain that holds the register at a BAR0 offset. -/
def regDomain (off : Nat) : Nat :=
  match blockOf off with
  | none => 0
  | some b =>
    if b = 0 ∨ b = 5 ∨ b = 7 ∨ b = 8 ∨ b = 10 then 0
    else if b = 6 then (if 0x610000 ≤ off ∧ off < 0x640000 ∧ (off - 0x610000) % 0x10000 / 0x4000 = 1 then 30 else 1)
    else if b ≤ 10 then 1
    else if b = 11 then 3 + (off - 0x1000000) / 0x10000 % 16
    else if b = 12 then
      if off < 0x1202000 then 3 + (off - 0x1200000) / 0x200
      else if 0x1204000 ≤ off ∧ off < 0x1204800 then 3 + (off - 0x1204000) / 0x80
      else if 0x1208000 ≤ off ∧ off < 0x120A000 then 3 + (off - 0x1208000) / 0x200
      else 1
    else if b = 13 then (if Reg.PAR_TRUNC_CNT 0 ≤ off ∧ off < Reg.PAR_TRUNC_CNT 16 then 3 + (off - Reg.PAR_TRUNC_CNT 0) / 0x10 else 23)
    else if b = 14 then (if Reg.LPM_CREDIT 0 ≤ off ∧ off < Reg.LPM_CREDIT 16 then 3 + (off - Reg.LPM_CREDIT 0) / 0x20 else 23)
    else if b = 16 then (if Reg.CAM_WITHHELD 0 ≤ off ∧ off < Reg.CAM_WITHHELD 16 then 3 + (off - Reg.CAM_WITHHELD 0) / 4 else 23)
    else if b = 18 then (if Reg.RCL_FIFO 0 ≤ off ∧ off < Reg.RCL_FIFO 16 then 3 + (off - Reg.RCL_FIFO 0) / 0x20 else 23)
    else if b = 20 then (if Reg.HBF_STACK_CTRL 0 ≤ off ∧ off < Reg.HBF_STACK_CTRL 4 then 24 + (off - Reg.HBF_STACK_CTRL 0) / 0x100 else 23)
    else if b ≤ 19 then 23
    else if b = 25 then (if Reg.FAB_LINK_CTRL 0 ≤ off ∧ off < Reg.FAB_LINK_CTRL 160 then 37 + (off - Reg.FAB_LINK_CTRL 0) / 0x10 / 80 else 39)
    else if b = 26 then (if Reg.HBT_STACK_CTRL 0 ≤ off ∧ off < Reg.HBT_STACK_CTRL 6 then 31 + (off - Reg.HBT_STACK_CTRL 0) / 0x100 else 30)
    else 30

/-- State of a domain: 0 ON, 1 PARKING, 2 PARKED, 3 WAKING. -/
def State.domState (s : State) (d : Nat) : Nat := s.fget (Fld.PWR_DOM_STATE_STATE d)

/-- A domain is ON; after a trip only AON is, after a collapse none. -/
def State.domOn (s : State) (d : Nat) : Bool := s.domState d == 0 && !s.pwr.collapsed && (d == 0 || !s.pwr.tripped)

/-- The condition of R470 for parking a domain. -/
def State.parkable (s : State) (d : Nat) : Bool :=
  if d = 2 then !s.fbit Fld.IGL_CTRL_EAST_EN && !s.fbit Fld.IGL_CTRL_WEST_EN
  else if 3 ≤ d ∧ d ≤ 18 then !s.fbit (Fld.PRT_GRP_CTRL_EN (d - 3))
  else if 19 ≤ d ∧ d ≤ 22 then (List.range 4).all fun i => !s.fbit (Fld.PRT_GRP_CTRL_EN (4 * (d - 19) + i))
  else if 31 ≤ d ∧ d ≤ 36 then (stackRegions (d - 31)).all fun r => (s.region r).state == regOut
  else if d = 37 ∨ d = 38 then (List.range 80).all fun i => !s.fbit (Fld.FAB_LINK_CTRL_EN (80 * (d - 37) + i))
  else if d = 39 then !s.fbit Fld.FAB_CFG_EN
  else false

/-- A slice holds nothing that is on its way. -/
def SliceState.idle (x : SliceState) : Bool :=
  x.hold.isEmpty && x.passes.isEmpty && x.recirc.isEmpty && x.recircWait.isEmpty && x.inject.isEmpty && x.repl.isEmpty

/-- A domain has emptied. -/
def State.domEmpty (s : State) (d : Nat) : Bool :=
  if 3 ≤ d ∧ d ≤ 18 then (s.slice (d - 3)).idle && (Assoc.get s.tm.egressIn [] (d - 3)).isEmpty else true

/-- A link (port p, client c at 128 + c) belongs to port group `g`. -/
def linkGroup (k : Nat) : Nat := if k < 128 then k / 8 else (k - 128) / 16

/-- The state of a slice and of its port group is lost (R471). -/
def State.loseSlice (s : State) (g : Nat) : State :=
  let link := fun (kv : Nat × Nat) => linkGroup kv.1 != g
  let cnt := fun (kv : Nat × Nat) => if kv.1 < 2 ^ 17 then kv.1 / 4096 != g else (kv.1 - 2 ^ 17) / 2048 != g
  let p := s.ports
  { s with
    path := { s.path with slices := Assoc.erase s.path.slices g }
    tab := { s.tab with camBad := s.tab.camBad.filter fun x => x % 16 != g }
    ports := { p with
      before := p.before.filter link
      downKeep := p.downKeep.filter fun k => linkGroup k != g
      mib := p.mib.filter fun (kv : Nat × Nat) => kv.1 / 2048 != g
      mibLatch := p.mibLatch.filter fun (kv : Nat × Nat) => kv.1 / 2048 != g
      fxeCnt := p.fxeCnt.filter cnt
      fxeLatch := p.fxeLatch.filter cnt
      rx := p.rx.filter fun (kv : Nat × RxFrame) => linkGroup kv.1 != g
      holdoff := p.holdoff.filter fun k => linkGroup k != g
      groups := p.groups.filter fun (kv : Nat × FlexeGroup) => kv.1 / 2 != g
      oh := p.oh.filter fun (kv : Nat × OhState) => kv.1 / 64 != g
      protReq := p.protReq.filter fun (kv : Nat × Nat) => kv.1 / 16 != g
      selForSf := p.selForSf.filter fun c => c / 16 != g
      wtr := p.wtr.filter fun c => c / 16 != g
      portCal := p.portCal.filter fun k => k / 8 != g
      uncal := p.uncal.filter fun k => k / 8 != g
      sfHeld := p.sfHeld.filter fun k => k / 32 != g } }

/-- The state of FAB_CORE is lost: contexts, sequence numbers, flows, waiting cells. -/
def State.loseFabCore (s : State) : State :=
  { s with tm := { s.tm with kept := [], e2e := [], spray := [], cellWait := [], reorder := [], cflows := [], credits := [], reachable := []
                             epochs := [], selfDestSeen := false } }

/-- The state of a parked domain is lost: its registers and what its blocks hold. -/
def State.loseDomain (s : State) (d : Nat) : State :=
  let s1 := s.resetRegs (fun off => regDomain off == d) Acc.kept
  if 3 ≤ d ∧ d ≤ 18 then s1.loseSlice (d - 3)
  else if d = 37 ∨ d = 38 then
    { s1 with tm := { s1.tm with links := s1.tm.links.filter fun (kv : Nat × FabLink) => kv.1 / 80 + 37 != d } }
  else if d = 39 then s1.loseFabCore
  else s1

def State.setDomState (s : State) (d st : Nat) : State := s.fset (Fld.PWR_DOM_STATE_STATE d) st

/-- The command that waits for a domain completes. -/
def State.domComplete (s : State) (d status : Nat) : State :=
  match Assoc.find s.pwr.domWaiting d with
  | none => s
  | some c =>
    let s1 := { s with pwr := { s.pwr with domWaiting := Assoc.erase s.pwr.domWaiting d } }
    s1.complete c 0x0C01 status (if status = stOK then s1.domState d else 0) 0

/-- Whether a command may change PWR (R495). -/
def State.pwrOwned (s : State) (c : Cmd) : Bool :=
  let o := s.fget (Fld.GLB_OWN_OWNER 7)
  o == 0 || o == 0xF || o == s.cmdMaster c

/-- PWR_DOMAIN: OP 0 parks, OP 1 unparks. -/
def pwrDomain (c : Cmd) (s : State) : Host.Outcome State Fault Refusal :=
  runCmd 0x0C01 1 1 c s fun s =>
    let d := bitsAt c.arg0 0 6
    let st := s.domState d
    let start := fun (t : State) (x : Nat) =>
      let t1 := t.setDomState d x
      ({ t1 with pwr := { t1.pwr with domWaiting := Assoc.insert t1.pwr.domWaiting d c } }, Done.later)
    if c.resv [(0, 6), (8, 1)] [] [] then fail stBadPayload s
    else if 39 < d then fail stOutOfRange s
    else if !s.pwrOwned c then fail stNotOwner s
    else if bitAt c.arg0 8 then (if st = 0 then ok s 0 0 else if st = 2 then start s 3 else fail stState s)
    else if st = 2 then ok s 2 0
    else if st ≠ 0 ∨ s.parkable d = false then fail stState s
    else start s 1

def execPwrDomainPark (c : Cmd) (s : State) : Host.Outcome State Fault Refusal := pwrDomain c s

def execPwrDomainUnpark (c : Cmd) (s : State) : Host.Outcome State Fault Refusal := pwrDomain c s

/-- A parking domain has emptied: it is PARKED and its state is lost. -/
def execDomainDrained (d : Nat) (s : State) : Host.Outcome State Fault Refusal :=
  if 40 ≤ d ∨ s.domState d ≠ 1 ∨ s.domEmpty d = false then .next s
  else
    let s1 := ((s.loseDomain d).setDomState d 2).satAdd (Fld.PWR_DOM_STATE_PARK_CNT d) 1
    .next ((s1.setEvent Fld.PWR_EVENT_PARKED).domComplete d stOK)

/-- A domain has not emptied within 1 ms. -/
def execDomainParkTimeout (d : Nat) (s : State) : Host.Outcome State Fault Refusal :=
  if 40 ≤ d ∨ s.domState d ≠ 1 then .next s else .next ((s.setDomState d 0).domComplete d stTimeout)

/-- The restore of a waking domain ends; `trained` and `lanes` are the training of a TM stack (R472, 17 R517). -/
def execDomainUnparkDone (d : Nat) (trained : Bool) (lanes : Nat) (s : State) : Host.Outcome State Fault Refusal :=
  if 40 ≤ d ∨ s.domState d ≠ 3 then .next s
  else
    let s1 := s.setDomState d 0
    let s2 :=
      if 31 ≤ d ∧ d ≤ 36 then
        let k := d - 31
        if trained then
          (((s1.fset (Fld.HBT_STACK_STATUS_STATE k) 3).fset (Fld.HBT_STACK_STATUS_TRAINED k) 1).fset
            (Fld.HBT_STACK_STATUS_LANES_REPAIRED k) lanes).setEvent Fld.HBT_EVENT_TRAIN_DONE
        else (s1.fset (Fld.HBT_STACK_STATUS_STATE k) 4).setEvent Fld.HBT_EVENT_TRAIN_FAIL
      else s1
    .next ((s2.setEvent Fld.PWR_EVENT_READY).domComplete d stOK)

/-! ### The governor (R479-R484) -/

/-- E_MAX in units of 0.125 µJ. -/
def State.eMax (s : State) : Nat := s.fget Fld.PWR_GOV_EMAX_E_MAX_MJ * 8000

def State.setEnergy (s : State) (e : Nat) : State :=
  ({ s with pwr := { s.pwr with energy := e } }).fset Fld.PWR_GOV_STATUS_E_MJ (e / 8000)

/-- The background level of the present terms (R484). -/
def State.bgLevel (s : State) : Nat :=
  let y := s.fget Fld.PWR_GOV_STATUS_Y_ENERGY
  let step := s.fget Fld.PWR_GOV_STATUS_THERM_STEP
  if s.fget Fld.PWR_GOV_CFG_BG_YIELD ≤ y ∨ 2 ≤ step then 0 else if 1 ≤ y ∨ step = 1 then 1 else 2

/-- The governor follows its terms: Y, its issue to the scheduler, and the background level (R479, R484). -/
def State.govern (s : State) : State :=
  let yt := s.fget (Fld.PWR_GOV_YTHERM_YT (s.fget Fld.PWR_GOV_STATUS_THERM_STEP))
  let y := max (s.fget Fld.PWR_GOV_STATUS_Y_ENERGY) (max yt (s.fget Fld.PWR_GOV_CFG_Y_FLOOR))
  let s1 := ((s.fset Fld.PWR_GOV_STATUS_Y_THERMAL yt).fset Fld.PWR_GOV_STATUS_Y y).setYieldStep y
  s1.fset Fld.PWR_GOV_STATUS_BG_LEVEL s1.bgLevel

/-- The 1 µs sample: feed voltages (mV) and currents (10 mA), and the power of each domain (R474, R480). -/
def execTelemetrySample (mvA curA mvB curB : Nat) (power : List Nat) (s : State) : Host.Outcome State Fault Refusal :=
  let p := (mvA * curA + mvB * curB) / 12500
  let s1 := ((s.fset Fld.PWR_FEED_A_MV mvA).fset Fld.PWR_FEED_A_CURRENT curA).fset Fld.PWR_FEED_B_MV mvB
  let s2 := (s1.fset Fld.PWR_FEED_B_CURRENT curB).fset Fld.PWR_PKG_POWER_P p
  let s3 := (List.range 40).foldl (fun (t : State) d => t.fset (Fld.PWR_DOM_STATE_POWER d) (power.getD d 0)) s2
  let low := fun (e : Nat) => decide (e * 100 < s.fget Fld.PWR_GOV_CFG_LOW_PCT * s.eMax)
  let e := min s.eMax (s.pwr.energy + s.fget Fld.PWR_GOV_LIMIT_LIMIT_W * 8 - p)
  let s4 := ({ s3 with pwr := { s3.pwr with sumP := s3.pwr.sumP + p, countP := s3.pwr.countP + 1 } }).setEnergy e
  .next (if low e && !low s.pwr.energy then s4.setEvent Fld.PWR_EVENT_ENERGY_LOW else s4)

/-- Y_ENERGY after an evaluation (R481). -/
def State.evalEnergy (s : State) : Nat :=
  let y := s.fget Fld.PWR_GOV_STATUS_Y_ENERGY
  let pct := s.pwr.energy * 100
  if !s.fbit Fld.PWR_GOV_CFG_EN then 0
  else if pct < s.fget Fld.PWR_GOV_CFG_LOW_PCT * s.eMax ∧ s.fget Fld.PWR_GOV_LIMIT_LIMIT_W * 8 * s.pwr.countP < s.pwr.sumP then min 7 (y + 1)
  else if s.fget Fld.PWR_GOV_CFG_HIGH_PCT * s.eMax ≤ pct then y - 1
  else y

def execEnergyEvaluation (s : State) : Host.Outcome State Fault Refusal :=
  let s1 := s.fset Fld.PWR_GOV_STATUS_Y_ENERGY s.evalEnergy
  .next ({ s1 with pwr := { s1.pwr with sumP := 0, countP := 0 } }).govern

/-! ### Temperature (R475-R478) -/

/-- Limits of a good reading, and the trip, in eighths of a degree. -/
def tempGood (t : Int) : Bool := decide (-320 ≤ t) && decide (t ≤ 1200)
def tripTemp : Int := 920

/-- A conversion of one sensor. -/
def State.sensor (s : State) (x : Nat × Option Int) : State :=
  match x.2 with
  | some t =>
    if tempGood t then
      let s1 := (s.fset (Fld.PWR_TEMP_TEMP x.1) (unsignedOf t 12)).fset (Fld.PWR_TEMP_FAULT x.1) 0
      if t < 0 then s1.setEvent Fld.PWR_EVENT_COLD else s1
    else ((s.fset (Fld.PWR_TEMP_FAULT x.1) 1).setEvent Fld.PWR_EVENT_SENSOR_FAULT).raiseError 0x0701 x.1
  | none => ((s.fset (Fld.PWR_TEMP_FAULT x.1) 1).setEvent Fld.PWR_EVENT_SENSOR_FAULT).raiseError 0x0701 x.1

def State.tempOf (s : State) (i : Nat) : Int := signed (s.fget (Fld.PWR_TEMP_TEMP i)) 12

/-- Sensors without FAULT; and of those, the ones that take part in Tmax. -/
def State.validSensors (s : State) : List Nat := (List.range 64).filter fun i => !s.fbit (Fld.PWR_TEMP_FAULT i)
def State.tmaxSensors (s : State) : List Nat := s.validSensors.filter fun i => !s.fbit (Fld.PWR_TEMP_EXCLUDE i)

/-- The hottest of some sensors: its reading and number (the lowest of equal ones). -/
def State.hottest (s : State) : List Nat → Option (Int × Nat)
  | [] => none
  | i :: is =>
    match s.hottest is with
    | none => some (s.tempOf i, i)
    | some (t, j) => if t ≤ s.tempOf i then some (s.tempOf i, i) else some (t, j)

/-- Tmax: a die whose sensors are all out counts as 105 °C; then no sensor reads Tmax, and SENSOR is a free value (point 11). -/
def State.tmax (s : State) : Int × Nat × State :=
  let xs := s.tmaxSensors
  let blind := !xs.any (· < 40) || !xs.any (fun i => decide (40 ≤ i))
  match s.hottest xs with
  | some (t, i) => if blind && decide (t < 840) then (match s.free 11 with | (x, s1) => (840, x % 64, s1)) else (t, i, s)
  | none => match s.free 11 with | (x, s1) => (840, x % 64, s1)

/-- A new thermal step with what follows it (R477, R482). -/
def State.setThermStep (s : State) (step tmax : Nat) : State :=
  if s.fget Fld.PWR_GOV_STATUS_THERM_STEP = step then s
  else
    let s1 := (s.fset Fld.PWR_GOV_STATUS_THERM_STEP step).setEvent Fld.PWR_EVENT_THERM_STEP
    let s2 := if step = 3 then s1.raiseError 0x0702 tmax else s1
    (s2.setCamStep step).govern

/-- The trip: THERM_TRIP_N, PWR_TRIP_INFO, every domain except AON off (R478). -/
def State.trip (s : State) (t : Int) (i : Nat) : State :=
  let s1 := ((s.fset Fld.PWR_TRIP_INFO_TEMP (unsignedOf t 12)).fset Fld.PWR_TRIP_INFO_SENSOR i).fset Fld.PWR_TRIP_INFO_TRIPPED 1
  ({ s1 with pwr := { s1.pwr with tripped := true, thermTrip := true } }).emit (.pin 2 false)

/-- THERM_MAX after a sample: the highest reading, its sensor, and whether a sensor is valid. -/
def State.thermMax (s : State) (t : Int) (i : Nat) : State :=
  let s1 := (s.fset Fld.PWR_THERM_MAX_TEMP (unsignedOf t 12)).fset Fld.PWR_THERM_MAX_SENSOR i
  s1.fset Fld.PWR_THERM_MAX_VALID (b2n (!s1.validSensors.isEmpty))

/-- The hottest sensor, when it stands at the trip temperature or above (R478). -/
def State.hotTrip (s : State) : Option (Int × Nat) :=
  match s.hottest s.validSensors with
  | some (x, j) => if tripTemp ≤ x then some (x, j) else none
  | none => none

/-- The consecutive samples after one of Tmax `t`, and the thermal step they lead to (R477). -/
def State.thermCount (s : State) (t : Int) (trips : Nat) : State × Nat :=
  let run := fun (n : Nat) (lim : Int) => if lim ≤ t then n + 1 else 0
  let step := s.fget Fld.PWR_GOV_STATUS_THERM_STEP
  let floor : Int := [0, 760, 800, 840].getD step 0 - 8 * s.fget Fld.PWR_THERM_CFG_HYST_C
  let fall := if step ≠ 0 ∧ t < floor then s.pwr.fall + 1 else 0
  let r1 := run s.pwr.rise1 760
  let r2 := run s.pwr.rise2 800
  let r3 := run s.pwr.rise3 840
  let up := if 3 ≤ r3 then 3 else if 3 ≤ r2 then 2 else if 3 ≤ r1 then 1 else 0
  let next := if step < up then up else if 100 ≤ fall then step - 1 else step
  ({ s with pwr := { s.pwr with rise1 := r1, rise2 := r2, rise3 := r3, fall := if next = step then fall else 0, tripRun := trips } }, next)

/-- The thermal step and the trip that follow a sample of Tmax `t` (R477, R478). -/
def State.thermJudge (s : State) (t : Int) : State :=
  let trips := if s.hotTrip.isSome then s.pwr.tripRun + 1 else 0
  match s.thermCount t trips with
  | (s1, next) =>
    let s2 := s1.setThermStep next (s1.reg Reg.PWR_THERM_MAX).toNat
    match s.hotTrip with
    | some (x, j) => if 3 ≤ trips then s2.trip x j else s2
    | none => s2

/-- The 10 µs sample of every sensor, in eighths of a degree; `none` for a conversion that fails. -/
def execTempSample (temps : List (Option Int)) (s : State) : Host.Outcome State Fault Refusal :=
  if s.pwr.collapsed || s.rst.porLow then .next s
  else
    match (((List.range 64).zip temps).foldl State.sensor s).tmax with
    | (t, i, s1) =>
      let s2 := s1.thermMax t i
      if s.pwr.tripped then .next (s2.heldReset t) else .next ((s2.thermJudge t).heldReset t)

/-! ### Background credit (R485, R486) -/

/-- Rates of the background tasks at MIN, REDUCED and FULL, in millionths of a unit a microsecond: HBM scrub of each die, CAM scrub,
header sweep, aging, CAM moves, journal walks, doublings, filter rebuilds, overflow returns, shadow compares of LPM, EXM and CAM,
flow-statistics flush. -/
def bgRates : List (Nat × Nat × Nat) :=
  [(320000000, 1280000000, 2560000000), (480000000, 1920000000, 3840000000), (32768, 262144, 262144), (3800000, 7600000, 15100000),
   (64000000, 128000000, 256000000), (16000000, 75000000, 150000000), (16000000, 48000000, 96000000), (16000000, 48000000, 96000000),
   (16000000, 48000000, 96000000), (16000000, 48000000, 96000000), (5000000, 10000000, 20000000), (5000000, 10000000, 20000000),
   (5000000, 10000000, 20000000), (100000000, 200000000, 400000000)]

/-- A microsecond's credit of every task, capped at 4 µs of its FULL rate. -/
def execBackgroundCreditEarn (s : State) : Host.Outcome State Fault Refusal :=
  let level := s.fget Fld.PWR_GOV_STATUS_BG_LEVEL
  let earn := fun (m : Assoc Nat) (i : Nat) =>
    let r := bgRates.getD i (0, 0, 0)
    let rate := if level = 0 then r.1 else if level = 1 then r.2.1 else r.2.2
    Assoc.put m 0 i (min (4 * r.2.2) (Assoc.get m 0 i + rate))
  .next { s with pwr := { s.pwr with credit := (List.range 14).foldl earn s.pwr.credit } }

/-- A unit of work of a background task debits 1. -/
def State.bgSpend (s : State) (task : Nat) : State :=
  { s with pwr := { s.pwr with credit := Assoc.put s.pwr.credit 0 task (Assoc.get s.pwr.credit 0 task - 1000000) } }

/-! ### The fencing policy (R487) -/

/-- The target number of regions. -/
def State.fenceTarget (s : State) : Nat :=
  let used := (List.range 48).foldl (fun n r => n + (s.region r).used) 0
  let present := ((List.range 48).filter fun r => (s.region r).state != regOut).length
  min present (max (s.fget Fld.PWR_FENCE_CFG_N_MIN)
    (ceilDiv (used * 100) (786432 * s.fget Fld.PWR_FENCE_CFG_FILL_PCT) + s.fget Fld.PWR_FENCE_CFG_SPARE))

/-- The unheld ACTIVE region with the fewest pages in use that may be fenced; of equal ones the highest. -/
def State.fenceChoice (s : State) : Option Nat :=
  let cands := (List.range 48).filter fun r => (s.region r).state == regActive && !(s.region r).held && !s.fenceRefused r
  cands.foldl (fun best r =>
    match best with
    | none => some r
    | some b => if (s.region r).used ≤ (s.region b).used then some r else some b) none

/-- An evaluation of the Cistern by firmware: at most one request. -/
def execFencePolicyEval (s : State) : Host.Outcome State Fault Refusal :=
  if s.fbit Fld.PWR_FENCE_CFG_EN = false then .next s
  else
    let a := ((List.range 48).filter fun r => (s.region r).state == regActive || (s.region r).state == regWaking).length
    let s1 := { s with pwr := { s.pwr with fenceHoldoff := s.pwr.fenceHoldoff - 1 } }
    let unheld := fun st => (List.range 48).find? fun r => (s.region r).state == st && !(s.region r).held
    if s.fenceTarget < a then
      if s.pwr.fenceHoldoff ≠ 0 then .next s1
      else match s.fenceChoice with
        | some r => .next (s1.fence r).fenceSettle
        | none => .next s1
    else if a < s.fenceTarget then
      match (match unheld regFencing with | some r => some r | none => unheld regParked) with
      | some r => .next (s1.unfence r).fenceSettle
      | none => .next s1
    else .next s1

/-! ### Feeds (R488-R493) -/

def feedGood : Nat := 0
def feedAbsent : Nat := 2

def State.feedState (s : State) (f : Nat) : Nat :=
  if f = 0 then s.fget Fld.PWR_FEED_STATUS_STATE_A else s.fget Fld.PWR_FEED_STATUS_STATE_B

def State.activeFeed (s : State) : Nat := s.fget Fld.PWR_FEED_STATUS_ACTIVE

/-- The revert hold runs while the preferred feed is standby and GOOD (R491). -/
def State.feedHold (s : State) : State :=
  let pref := s.fget Fld.PWR_FEED_CFG_PREF
  s.fset Fld.PWR_FEED_STATUS_HOLDING (b2n (s.fbit Fld.PWR_FEED_CFG_REVERT_EN && pref != s.activeFeed && s.feedState pref == feedGood))

/-- A feed is GOOD, LOW or ABSENT. -/
def execFeedStateChange (feed st : Nat) (s : State) : Host.Outcome State Fault Refusal :=
  if 2 ≤ feed ∨ 3 ≤ st then .next s
  else
    let s1 := s.fset (if feed = 0 then Fld.PWR_FEED_STATUS_STATE_A else Fld.PWR_FEED_STATUS_STATE_B) st
    .next ({ s1 with pwr := { s1.pwr with noStandbySeen := s1.pwr.noStandbySeen && st != feedGood } }).feedHold

/-- A sag that finds no feed to go to (R490). -/
def State.noStandby (s : State) : State :=
  let s1 := s.satAdd Fld.PWR_FEED_CNT2_NO_STANDBY 1
  if s1.pwr.noStandbySeen then s1
  else ({ s1 with pwr := { s1.pwr with noStandbySeen := true } }).setEvent Fld.PWR_EVENT_NO_STANDBY

/-- The other feed becomes the active one. -/
def State.transfer (s : State) : State :=
  let s1 := s.fset Fld.PWR_FEED_STATUS_ACTIVE (1 - s.activeFeed)
  let s2 := s1.setInstant Fld.PWR_FEED_LAST_NS_NS Fld.PWR_FEED_LAST_SEC_LO_SEC Fld.PWR_FEED_LAST_SEC_HI_SEC s1.nowNs
  ({ s2 with pwr := { s2.pwr with lastXfer := some s2.nowNs } }).feedHold

/-- What meets a transfer (R492): `sagged` the new feed sags before the old switch is off, `fell` it falls within 2 µs of the completion;
`oldOk` the old feed is above 10.2 V then. -/
def State.afterTransfer (s : State) (fell oldOk : Bool) : State :=
  if fell then
    let s1 := (s.setEvent Fld.PWR_EVENT_FAILOVER_FAIL).raiseError 0x0703 s.activeFeed
    if oldOk then s1.transfer else s1.noStandby
  else s

/-- The active feed is below 10.2 V for `ticks` units of 10 ns (R489, R490). -/
def execFeedSag (ticks : Nat) (sagged fell oldOk : Bool) (s : State) : Host.Outcome State Fault Refusal :=
  if ticks < s.fget Fld.PWR_FEED_CFG_SAG_FILTER then .next (s.satAdd Fld.PWR_FEED_CNT2_SAG_GLITCH 1)
  else if s.feedState (1 - s.activeFeed) ≠ feedGood then .next s.noStandby
  else if sagged then .next (if oldOk then s else s.noStandby)
  else .next (((s.transfer.satAdd Fld.PWR_FEED_CNT_FAILOVERS 1).setEvent Fld.PWR_EVENT_FAILOVER).afterTransfer fell oldOk)

/-- The input bus stays below 9.0 V: every domain is off. -/
def execInputCollapse (s : State) : Host.Outcome State Fault Refusal := .next { s with pwr := { s.pwr with collapsed := true } }

/-- A planned transfer (R491). -/
def State.plannedTransfer (s : State) (fell oldOk : Bool) : State :=
  ((s.transfer.satAdd Fld.PWR_FEED_CNT_REVERTS 1).setEvent Fld.PWR_EVENT_REVERT).afterTransfer fell oldOk

/-- The revert hold ends; with the active feed GOOD too, the planned transfer runs. -/
def execRevertHoldExpiry (fell oldOk : Bool) (s : State) : Host.Outcome State Fault Refusal :=
  if s.fbit Fld.PWR_FEED_STATUS_HOLDING = false then .next s
  else if s.feedState s.activeFeed ≠ feedGood then .next (s.fset Fld.PWR_FEED_STATUS_HOLDING 0)
  else .next (s.plannedTransfer fell oldOk)

/-- A transfer has ended within the last 10 s. -/
def State.justTransferred (s : State) : Bool :=
  match s.pwr.lastXfer with
  | some t => decide (t ≤ s.nowNs) && decide (s.nowNs < t + 10000000000)
  | none => false

/-- The result of a test is there (R493). -/
def State.health (s : State) (result : Nat) : State :=
  let s1 := (s.fset Fld.PWR_FEED_STATUS_HEALTH result).setEvent Fld.PWR_EVENT_HEALTH_DONE
  if result = 1 then s1 else s1.setEvent Fld.PWR_EVENT_HEALTH_FAIL

/-- TEST_MIN expires: the standby feed is tested, with a result of R493 (6 when the active feed sags meanwhile). -/
def execFeedSelfTest (result : Nat) (s : State) : Host.Outcome State Fault Refusal :=
  if s.fbit Fld.PWR_FEED_CFG_HEALTH_MODE ∨ s.justTransferred = true ∨ s.feedState (1 - s.activeFeed) = feedAbsent then .next s
  else .next (s.health result)

/-! ### Commands (R495) -/

/-- The governor's settings as PWR_GOV_SET lays them out. -/
def State.govArg0 (s : State) : Nat :=
  s.fget Fld.PWR_GOV_LIMIT_LIMIT_W + 2 ^ 16 * s.fget Fld.PWR_GOV_LIMIT_STEP_US + 2 ^ 32 * s.fget Fld.PWR_GOV_EMAX_E_MAX_MJ
    + 2 ^ 48 * s.fget Fld.PWR_GOV_CFG_LOW_PCT + 2 ^ 56 * s.fget Fld.PWR_GOV_CFG_HIGH_PCT
def State.govArg1 (s : State) : Nat :=
  s.fget Fld.PWR_GOV_CFG_Y_FLOOR + 8 * s.fget Fld.PWR_GOV_CFG_EN + 16 * bitsAt (s.reg Reg.PWR_GOV_YTHERM).toNat 0 12
    + 2 ^ 16 * s.fget Fld.PWR_GOV_CFG_BG_YIELD

/-- PWR_GOV_SET, or its READ. -/
def pwrGovSet (c : Cmd) (s : State) : Host.Outcome State Fault Refusal :=
  runCmd 0x0C02 1 1 c s fun s =>
    let limit := bitsAt c.arg0 0 16
    let step := bitsAt c.arg0 16 16
    let bg := bitsAt c.arg1 16 4
    let read := bitAt c.arg1 21
    if c.resv [(0, 64)] [(0, 22)] [] then fail stBadPayload s
    else if !read && (limit < 300 || 1350 < limit || step < 10 || 10000 < step || bitsAt c.arg0 32 16 == 0
        || decide (bitsAt c.arg0 56 8 ≤ bitsAt c.arg0 48 8) || bg == 0 || decide (7 < bg)) then fail stOutOfRange s
    else if !s.pwrOwned c then fail stNotOwner s
    else if read then ok s s.govArg0 s.govArg1
    else
      let s1 := ((s.setReg Reg.PWR_GOV_LIMIT (BitVec.ofNat 32 (limit + 2 ^ 16 * step))).fset Fld.PWR_GOV_EMAX_E_MAX_MJ (bitsAt c.arg0 32 16)).setReg
        Reg.PWR_GOV_YTHERM (BitVec.ofNat 32 (bitsAt c.arg1 4 12))
      let s2 := s1.setReg Reg.PWR_GOV_CFG (BitVec.ofNat 32 (bitsAt c.arg1 3 1 + 2 * bitsAt c.arg1 0 3 + 16 * bg
        + 2 ^ 8 * bitsAt c.arg0 48 8 + 2 ^ 16 * bitsAt c.arg0 56 8))
      let s3 := (s2.setEnergy (if bitAt c.arg1 20 then s2.eMax else min s2.pwr.energy s2.eMax)).govern
      ok s3 s3.govArg0 s3.govArg1

def execPwrGovSet (c : Cmd) (s : State) : Host.Outcome State Fault Refusal := pwrGovSet c s

def execPwrGovRead (c : Cmd) (s : State) : Host.Outcome State Fault Refusal := pwrGovSet c s

/-- The fencing policy as PWR_FENCE_SET lays it out. -/
def State.fenceArg (s : State) : Nat :=
  s.fget Fld.PWR_FENCE_CFG_EN + 2 ^ 8 * s.fget Fld.PWR_FENCE_CFG_FILL_PCT + 2 ^ 16 * s.fget Fld.PWR_FENCE_CFG_SPARE
    + 2 ^ 20 * s.fget Fld.PWR_FENCE_CFG_N_MIN + 2 ^ 32 * s.fget Fld.PWR_FENCE_EVAL_EVAL_MS

/-- PWR_FENCE_SET, or its READ. -/
def pwrFenceSet (c : Cmd) (s : State) : Host.Outcome State Fault Refusal :=
  runCmd 0x0C03 1 1 c s fun s =>
    let fill := bitsAt c.arg0 8 8
    let n := bitsAt c.arg0 20 6
    let read := bitAt c.arg0 48
    if c.resv [(0, 1), (8, 18), (32, 17)] [] [] then fail stBadPayload s
    else if !read && (fill < 10 || 100 < fill || n == 0 || decide (48 < n) || bitsAt c.arg0 32 16 == 0) then fail stOutOfRange s
    else if !s.pwrOwned c then fail stNotOwner s
    else
      let s1 := if read then s else
        (s.setReg Reg.PWR_FENCE_CFG (BitVec.ofNat 32 (bitsAt c.arg0 0 26))).fset Fld.PWR_FENCE_EVAL_EVAL_MS (bitsAt c.arg0 32 16)
      ok s1 s1.fenceArg 0

def execPwrFenceSet (c : Cmd) (s : State) : Host.Outcome State Fault Refusal := pwrFenceSet c s

def execPwrFenceRead (c : Cmd) (s : State) : Host.Outcome State Fault Refusal := pwrFenceSet c s

/-- The feed policy as PWR_FEED_SET lays it out. -/
def State.feedArg (s : State) : Nat := (s.reg Reg.PWR_FEED_CFG).toNat + 2 ^ 32 * s.fget Fld.PWR_FEED_TEST_TEST_MIN

/-- PWR_FEED_SET, or its READ. -/
def pwrFeedSet (c : Cmd) (s : State) : Host.Outcome State Fault Refusal :=
  runCmd 0x0C04 1 1 c s fun s =>
    let sag := bitsAt c.arg0 8 8
    let hold := bitsAt c.arg0 16 16
    let test := bitsAt c.arg0 32 16
    let read := bitAt c.arg0 48
    if c.resv [(0, 3), (8, 24), (32, 17)] [] [] then fail stBadPayload s
    else if !read && (sag < 5 || 50 < sag || hold == 0 || decide (3600 < hold) || test == 0 || decide (10080 < test)) then fail stOutOfRange s
    else if !s.pwrOwned c then fail stNotOwner s
    else
      let s1 := if read then s else
        ((s.setReg Reg.PWR_FEED_CFG (BitVec.ofNat 32 (bitsAt c.arg0 0 32))).fset Fld.PWR_FEED_TEST_TEST_MIN test).feedHold
      ok s1 s1.feedArg 0

def execPwrFeedSet (c : Cmd) (s : State) : Host.Outcome State Fault Refusal := pwrFeedSet c s

def execPwrFeedRead (c : Cmd) (s : State) : Host.Outcome State Fault Refusal := pwrFeedSet c s

/-- PWR_FEED_TEST, with the test's result and the standby's voltage under load; an ABSENT standby gives HEALTH 5 at once. -/
def execPwrFeedTest (c : Cmd) (result mv : Nat) (s : State) : Host.Outcome State Fault Refusal :=
  runCmd 0x0C05 1 1 c s fun s =>
    if c.resv [] [] [] then fail stBadPayload s
    else if !s.pwrOwned c then fail stNotOwner s
    else if s.fbit Fld.PWR_FEED_CFG_HEALTH_MODE ∨ s.justTransferred = true then fail stState s
    else
      let r := if s.feedState (1 - s.activeFeed) = feedAbsent then 5 else result
      let s1 := s.health r
      ok s1 (s1.fget Fld.PWR_FEED_STATUS_HEALTH + 2 ^ 16 * (mv % 2 ^ 16)) 0

/-- PWR_FEED_SWITCH, with what meets the transfer (R492). -/
def execPwrFeedSwitch (c : Cmd) (fell oldOk : Bool) (s : State) : Host.Outcome State Fault Refusal :=
  runCmd 0x0C06 1 1 c s fun s =>
    if c.resv [] [] [] then fail stBadPayload s
    else if !s.pwrOwned c then fail stNotOwner s
    else if s.feedState (1 - s.activeFeed) ≠ feedGood then fail stState s
    else
      let s1 := s.plannedTransfer fell oldOk
      ok s1 s1.activeFeed 0

def execPwrSnapshot (c : Cmd) (s : State) : Host.Outcome State Fault Refusal :=
  runCmd 0x0C07 2 2 c s fun s =>
    if c.resv [] [] [(32, 0, 64)] then fail stBadPayload s
    else if !s.pwrOwned c then fail stNotOwner s
    else
      let doms := (List.range 40).flatMap fun d => leBytes 4 (s.domState d + 16 * s.fget (Fld.PWR_DOM_STATE_POWER d))
      let temps := (List.range 64).flatMap fun i => leBytes 2 ((s.reg (Reg.PWR_TEMP i)).toNat % 2 ^ 14)
      let rest := leBytes 4 (s.reg Reg.PWR_FEED_A).toNat ++ leBytes 4 (s.reg Reg.PWR_FEED_B).toNat
        ++ leBytes 4 (s.reg Reg.PWR_GOV_STATUS).toNat ++ leBytes 4 (fastPath s.nowNs) ++ leBytes 16 0
      ok (s.emit (.hostWrite (c.fld 32 0 64) (doms ++ temps ++ rest))) 0 0

/-! ### Register writes -/

/-- A write of a governor register: the energy bucket is capped, the issue follows. -/
def State.hookGov (s : State) (off v : Nat) : State :=
  let s1 := s.setReg off (BitVec.ofNat 32 (if off = Reg.PWR_GOV_CFG then v % 2 ^ 24 else if off = Reg.PWR_GOV_EMAX then v % 2 ^ 16
    else if off = Reg.PWR_GOV_YTHERM then v % 2 ^ 12 else v))
  (s1.setEnergy (min s1.pwr.energy s1.eMax)).govern

/-- A write of PWR_THERM_CFG. -/
def State.hookTherm (s : State) (v : Nat) : State := s.fset Fld.PWR_THERM_CFG_HYST_C (max 1 (min 10 (v % 16)))

/-- A write of PWR_FEED_CFG. -/
def State.hookFeed (s : State) (v : Nat) : State :=
  (s.setReg Reg.PWR_FEED_CFG (BitVec.ofNat 32 (putBits v 3 5 0))).feedHold

end Sys2Proof.Machine
end

