-- ==== Sys2Proof/Machine/Hbm.lean ====
section
/-! DEFINITION. The HBM controllers of both dies: link errors, refresh windows, the scrubber, stack failure, self-refresh and
training (17 R496-R517). Rows name the die 0 for HBF and 1 for HBT. -/

namespace Sys2Proof.Machine

open Sys2Proof

/-- Stacks of a die (R496). -/
def hbmStacks (die : Nat) : Nat := if die = 0 then 4 else 6

def State.stackState (s : State) (die k : Nat) : Nat := s.fget (dieFld die (Fld.HBF_STACK_STATUS_STATE k))

/-- A stack that serves accesses: ON. -/
def State.stackOn (s : State) (die k : Nat) : Bool := decide (die < 2) && decide (k < hbmStacks die) && s.stackState die k == 2

/-- A stack fails (R512). -/
def State.stackFail (s : State) (die k : Nat) : State := if die = 0 then s.hbfFail k else (s.hbtFail k).fenceSettle

/-- A transfer of a channel fails its CRC or parity; `again` says that the access that failed is the one that failed last on the
channel, so that its retries go on (R507). -/
def execHbmLinkError (die stack ch : Nat) (again : Bool) (s : State) : Host.Outcome State Fault Refusal :=
  if !s.stackOn die stack || decide (32 ≤ ch) then .next s
  else
    let key := (8 * die + stack) * 32 + ch
    let run := if again then Assoc.get s.hbm.retries 0 key else 0
    let trains := if again then Assoc.get s.hbm.retrains 0 key else 0
    if run < s.fget (dieFld die Fld.HBF_CFG_RETRY_MAX) then
      let s1 := s.satAdd (dieFld die (Fld.HBF_RETRY_CNT_COUNT stack)) 1
      .next { s1 with hbm := { s1.hbm with retries := Assoc.put s1.hbm.retries 0 key (run + 1)
                                           retrains := Assoc.put s1.hbm.retrains 0 key trains } }
    else
      let s1 := (s.satAdd (dieFld die (Fld.HBF_RETRAIN_CNT_COUNT stack)) 1).setEvent (dieFld die Fld.HBF_EVENT_RETRAIN)
      let s2 := { s1 with hbm := { s1.hbm with retries := Assoc.put s1.hbm.retries 0 key 0
                                               retrains := Assoc.put s1.hbm.retrains 0 key (trains + 1) } }
      .next (if trains + 1 < 3 then s2 else s2.stackFail die stack)

/-- A bank's refresh window restarts: its activate table is cleared (R506). -/
def execRefreshWindow (die stack pc bank : Nat) (s : State) : Host.Outcome State Fault Refusal :=
  if 2 ≤ die ∨ hbmStacks die ≤ stack ∨ 64 ≤ pc ∨ 16 ≤ bank then .next s
  else .next { s with hbm := { s.hbm with act := Assoc.erase s.hbm.act (HbmLoc.key ⟨die, stack, pc, bank, 0, 0⟩) } }

/-- The stack sensor is read (R505). -/
def execStackTempRead (die stack temp : Nat) (s : State) : Host.Outcome State Fault Refusal :=
  if 2 ≤ die ∨ hbmStacks die ≤ stack ∨ s.off = true then .next s
  else .next ((s.fset (dieFld die (Fld.HBF_STACK_STATUS_TEMP stack)) temp).fset (dieFld die (Fld.HBF_STACK_STATUS_REFRESH_2X stack))
    (b2n (decide (85 ≤ temp % 256))))

/-- Self-refresh of a TM stack idle for SR_IDLE_US (R514): entered when enabled and no region holds a page in use. -/
def execSelfRefreshEntry (stack : Nat) (s : State) : Host.Outcome State Fault Refusal :=
  if s.stackOn 1 stack && s.fbit Fld.HBT_SR_CFG_SR_EN && (stackRegions stack).all (fun r => (s.region r).used == 0) then
    .next (s.fset (Fld.HBT_STACK_STATUS_SELF_REFRESH stack) 1)
  else .next s

/-! ### The scrubber (R508-R510) -/

/-- Units of a stack. -/
def stackUnits (die : Nat) : Nat := if die = 0 then 268435456 else 402653184

/-- Whether a region is scrubbed, and how many of its units. -/
def State.scrubSpan (s : State) (r : Nat) : Nat :=
  let rg := s.region r
  if rg.state = regActive ∨ rg.state = regFencing then rg.bump * 64 else 0

/-- The first unit of a TM stack's coverage from a position on, by ascending regions. -/
def State.scrubFrom (s : State) (stack pos : Nat) : Option Nat :=
  (List.range 8).findSome? fun i =>
    let lo := i * 50331648
    let p := max lo pos
    if p < lo + s.scrubSpan (8 * stack + i) then some p else none

/-- The next unit the scrubber reads from a position on. -/
def State.scrubNext (s : State) (die stack pos : Nat) : Option Nat :=
  if die = 0 then (if pos < stackUnits 0 then some pos else none) else s.scrubFrom stack pos

/-- The place and the poison key of a unit of a stack, numbered as SCRUB_POS does. -/
def unitPlace (die stack unit : Nat) : HbmLoc × Nat :=
  if die = 0 then (hbfLoc (4 * unit + stack), 4 * unit + stack)
  else (hbtLoc (stack * 6291456 + unit / 64) (unit % 64), hbtUnit (stack * 6291456 + unit / 64) (unit % 64))

/-- What the scrubber finds in a unit: `found` is 0 nothing, 1 a corrected error, 2 an uncorrectable one. A unit poisoned before shows
its poison. -/
def State.scrubUnit (s : State) (die stack unit found : Nat) : State :=
  let x := unitPlace die stack unit
  let src := if die = 0 then 18 else 3
  let s1 := (s.pmc (if die = 0 then 0x050 else 0x850) stack src 1).activate x.1
  if s1.hbm.poison.contains x.2 then s1.hbmUe x.1 x.2 src true true
  else if found = 1 then (s1.satAdd (dieFld die (Fld.HBF_CORR_CNT_COUNT stack)) 1).setEvent (dieFld die Fld.HBF_EVENT_CORR)
  else if found = 2 then s1.hbmUe x.1 x.2 src false true
  else s1

/-- Firmware's part of an error found on the FE die (R510): the rule of the table that holds the unit, on the stored entries it
holds (`upsets`), or HBF_FW_REGION_UE. -/
def State.scrubRule (s : State) (u : Nat) (upsets : List Upset) : State :=
  if flowUnits.1 + flowUnits.2 ≤ u then s.raiseErrorFw 0x1403 (u * 64) else upsets.foldl State.upset s

/-- The scrubber reads the next unit of a stack (R510). The pass ends after the last unit. -/
def execScrubRead (die stack found : Nat) (upsets : List Upset) (s : State) : Host.Outcome State Fault Refusal :=
  if !s.stackOn die stack || s.off then .next s
  else
    match s.scrubNext die stack (s.fget (dieFld die (Fld.HBF_SCRUB_POS_UNIT stack))) with
    | none => .next s
    | some unit =>
      let fresh := !s.hbm.poison.contains (unitPlace die stack unit).2
      let s1 := (s.bgSpend (if die = 0 then 0 else 1)).scrubUnit die stack unit found
      let s2 := if die = 0 ∧ found = 2 ∧ fresh = true then s1.scrubRule (4 * unit + stack) upsets else s1
      let s3 := match s2.scrubNext die stack (unit + 1) with
        | some n => s2.fset (dieFld die (Fld.HBF_SCRUB_POS_UNIT stack)) n
        | none =>
          (s2.wrapAdd (dieFld die (Fld.HBF_SCRUB_PASS_PASSES stack)) 1).fset (dieFld die (Fld.HBF_SCRUB_POS_UNIT stack))
            ((s2.scrubNext die stack 0).getD 0)
      .next (if s3.ueFails die stack then s3.stackFail die stack else s3)

/-- No request of a stack has been answered for 100 µs (R512). -/
def execStackNoResponse (die stack : Nat) (s : State) : Host.Outcome State Fault Refusal :=
  if s.stackOn die stack then .next (s.stackFail die stack) else .next s

/-! ### Training (R515, R517) -/

/-- HBT_STACK_CTRL.TRAIN: a stack OUT or FAILED starts training while its domain is ON; `none` where the write is discarded and
reported. -/
def hookHbtTrain (k : Nat) (s : State) : Option State :=
  if (s.stackState 1 k == 3 || s.stackState 1 k == 4) && s.domOn (31 + k) then
    some ((s.fset (Fld.HBT_STACK_STATUS_STATE k) 1).fset (Fld.HBT_STACK_STATUS_TRAINED k) 0)
  else none

/-- A training ends (R517): OUT with TRAINED, or FAILED. -/
def execHbtTrainDone (k : Nat) (trained : Bool) (lanes : Nat) (s : State) : Host.Outcome State Fault Refusal :=
  if 6 ≤ k ∨ s.stackState 1 k ≠ 1 then .next s
  else if trained then
    .next ((((s.fset (Fld.HBT_STACK_STATUS_STATE k) 3).fset (Fld.HBT_STACK_STATUS_TRAINED k) 1).fset
      (Fld.HBT_STACK_STATUS_LANES_REPAIRED k) lanes).setEvent Fld.HBT_EVENT_TRAIN_DONE)
  else .next ((s.fset (Fld.HBT_STACK_STATUS_STATE k) 4).setEvent Fld.HBT_EVENT_TRAIN_FAIL)

/-! ### Register writes -/

/-- HBF_CFG and HBT_CFG: ACT_THRESH, BLAST and RETRY_MAX read back within their ranges. -/
def hookHbmCfg (die : Nat) (s : State) : State :=
  let t := s.actThresh die
  let b := s.blast die
  let r := s.fget (dieFld die Fld.HBF_CFG_RETRY_MAX)
  ((s.fset (dieFld die Fld.HBF_CFG_ACT_THRESH) (max 512 t)).fset (dieFld die Fld.HBF_CFG_BLAST) (max 1 (min 2 b))).fset
    (dieFld die Fld.HBF_CFG_RETRY_MAX) (max 1 (min 8 r))

/-- HBT_SR_CFG: SR_IDLE_US 0 reads back as 1. -/
def hookHbtSr (s : State) : State := s.fset Fld.HBT_SR_CFG_SR_IDLE_US (max 1 (s.fget Fld.HBT_SR_CFG_SR_IDLE_US))

end Sys2Proof.Machine
end

