-- ==== Sys2Proof/Machine/Err.lean ====
section
/-! DEFINITION. The ERR block: fault inputs, the error log's commands, interrupt mapping and MSI-X, fatal errors that firmware, the
watchdog and software raise (18 R518-R541). -/

namespace Sys2Proof.Machine

open Sys2Proof

/-! ### Fault inputs (R529, R530) -/

/-- An input goes active for `held` units of 10 ns or longer: a shorter pulse than MIN_PULSE counts in GLITCH. -/
def execFaultInputAssert (i held : Nat) (s : State) : Host.Outcome State Fault Refusal :=
  if 16 ≤ i ∨ s.off = true ∨ s.fbit (Fld.ERR_FAULT_STATUS_LEVEL i) = true then .next s
  else if held < s.fget (Fld.ERR_FAULT_CFG_MIN_PULSE i) then .next (s.satAdd (Fld.ERR_FAULT_STATUS_GLITCH i) 1)
  else
    let s1 := s.fset (Fld.ERR_FAULT_STATUS_LEVEL i) 1
    if s1.fbit (Fld.ERR_FAULT_CFG_EN i) && !s1.fbit (Fld.ERR_FAULT_STATUS_LATCHED i) then
      .next ((s1.withSource (710 + i) fun t => t.fset (Fld.ERR_FAULT_STATUS_LATCHED i) 1).raiseError 0x0501 i)
    else .next s1

/-- An input goes inactive for `held` units of 10 ns or longer; a shorter gap does not end an assertion. -/
def execFaultInputDeassert (i held : Nat) (s : State) : Host.Outcome State Fault Refusal :=
  if 16 ≤ i ∨ s.off = true ∨ held < s.fget (Fld.ERR_FAULT_CFG_MIN_PULSE i) then .next s
  else
    let s1 := s.fset (Fld.ERR_FAULT_STATUS_LEVEL i) 0
    .next { s1 with err := { s1.err with stuckReported := s1.err.stuckReported.filter (· != i) } }

/-- An input has stayed active for STUCK_MS. -/
def execFaultInputStuck (i : Nat) (s : State) : Host.Outcome State Fault Refusal :=
  if i < 16 && s.fbit (Fld.ERR_FAULT_STATUS_LEVEL i) && s.fbit (Fld.ERR_FAULT_CFG_EN i) && s.fbit (Fld.ERR_FAULT_STUCK_STUCK_MS i)
      && !s.err.stuckReported.contains i && !s.off then
    let s1 := { s with err := { s.err with stuckReported := s.err.stuckReported ++ [i] } }
    .next ((s1.withSource (710 + i) fun t => t.fset (Fld.ERR_FAULT_STATUS_STUCK i) 1).raiseError 0x0502 i)
  else .next s

/-- ERR_FAULT_CFG: SEV 0 and MIN_PULSE 0 read back as 1. -/
def hookFaultCfg (i : Nat) (s : State) : State :=
  (s.fset (Fld.ERR_FAULT_CFG_SEV i) (max 1 (s.fget (Fld.ERR_FAULT_CFG_SEV i)))).fset (Fld.ERR_FAULT_CFG_MIN_PULSE i)
    (max 1 (s.fget (Fld.ERR_FAULT_CFG_MIN_PULSE i)))

/-- ERR_WL_SIZE: values above 2,048 read back as 2,048. -/
def hookWlSize (s : State) : State := s.fset Fld.ERR_WL_SIZE_SIZE_MIB (min 2048 (s.fget Fld.ERR_WL_SIZE_SIZE_MIB))

/-! ### The log (R520-R523, R541) -/

/-- The 32 bytes of an entry (R520). -/
def ErrEntry.bytes (e : ErrEntry) (chain : Nat) : List Byte :=
  leBytes 2 e.code ++ leBytes 1 (e.sev + 4 * b2n e.firmware + 8 * b2n e.injected) ++ leBytes 1 chain ++ leBytes 2 e.count ++ leBytes 2 0
    ++ leBytes 4 e.firstNs ++ leBytes 2 e.firstSec ++ leBytes 2 0 ++ leBytes 4 e.last ++ leBytes 4 0 ++ leBytes 8 e.info

def State.entryBytes (s : State) (e : ErrEntry) : List Byte := e.bytes (s.fget Fld.IGL_ID_CHAIN_ID)

/-- Removes the head entries of the log. -/
def State.popLog (s : State) (n : Nat) : State := { s with err := { s.err with log := s.err.log.drop n } }

/-- ERR_LOG_POP.GO. -/
def hookErrPop (v : Nat) (s : State) : State := if bitAt v 0 then s.popLog 1 else s

/-- Whether a command's master may change ERR. -/
def State.errOwned (s : State) (c : Cmd) : Bool := s.owns (s.cmdMaster c) 5

/-- Writes entries to host memory, one after the other. -/
def State.writeEntries (s : State) (addr : Nat) : List ErrEntry → State
  | [] => s
  | e :: es => (s.emit (.hostWrite addr (s.entryBytes e))).writeEntries (addr + 32) es

/-- ERR_LOG_POP. `failed` is the number of entries written before the host reports an error, when it does. -/
def execErrLogPop (c : Cmd) (failed : Option Nat) (s : State) : Host.Outcome State Fault Refusal :=
  runCmd 0x0F01 2 2 c s fun s =>
    let max := bitsAt c.arg0 0 7
    if c.resv [(0, 7)] [] [(32, 0, 64)] then fail stBadPayload s
    else if max = 0 ∨ 64 < max then fail stOutOfRange s
    else if !s.errOwned c then fail stNotOwner s
    else
      let n := min max s.err.log.length
      let k := match failed with | some f => min f n | none => n
      let s1 := (s.writeEntries (c.fld 32 0 64) (s.err.log.take k)).popLog k
      if k < n then (s1, .done stHostError 0 0) else ok s1 n 0

def execErrInject (c : Cmd) (s : State) : Host.Outcome State Fault Refusal :=
  runCmd 0x0F02 1 1 c s fun s =>
    let code := bitsAt c.arg0 0 16
    if c.resv [(0, 16)] [(0, 64)] [] then fail stBadPayload s
    else
      match s.severity code c.arg1 with
      | none => fail stOutOfRange s
      | some sev =>
        if !s.errOwned c then fail stNotOwner s
        else if sev = 3 then fail stState s
        else ok (s.logEntry code c.arg1 false true) 0 0

def execErrMsgRaise (c : Cmd) (s : State) : Host.Outcome State Fault Refusal :=
  runCmd 0x0F03 1 1 c s fun s =>
    let n := bitsAt c.arg0 0 9
    if c.resv [(0, 9)] [] [] then fail stBadPayload s
    else if 485 < n then fail stOutOfRange s
    else if !s.errOwned c then fail stNotOwner s
    else ok (s.pulse (730 + n)) 0 0

/-! ### Interrupts (R526, R527) -/

/-- ERR_SW_RAISE: `none` where the write is discarded and reported. -/
def hookSwRaise (v : Nat) (s : State) : Option State := if 485 < bitsAt v 0 9 then none else some (s.pulse (730 + bitsAt v 0 9))

/-- ERR_VEC.REARM. -/
def hookRearm (n v : Nat) (s : State) : State := if bitAt v 0 && s.vectorActive n then s.sendMessage n else s

/-- ERR_SRC_MAP of a source above 136: a vector outside the range of the function named is discarded and reported (R526). -/
def hookSrcMap (n v : Nat) (s : State) : Option State :=
  if n ≤ 136 then some s
  else if !s.vectorInRange (bitsAt v 10 4) (bitsAt v 0 9) then none
  else
    let s1 := ((s.fset (Fld.ERR_SRC_MAP_VECTOR n) (bitsAt v 0 9)).fset (Fld.ERR_SRC_MAP_EN n) (bitsAt v 9 1)).fset
      (Fld.ERR_SRC_MAP_PF n) (bitsAt v 10 4)
    some (if !s.vectorActive (bitsAt v 0 9) && s1.vectorActive (bitsAt v 0 9) then s1.sendMessage (bitsAt v 0 9) else s1)

/-- The held messages of a function leave, as far as nothing masks them any more. -/
def State.sendHeld (s : State) (f : Nat) : State :=
  if s.err.fatal = .frozen ∨ s.err.msixEnabled.contains f = false ∨ s.err.functionMasked.contains f = true then s
  else
    (List.range 512).foldl (fun (t : State) v =>
      if t.err.pba.contains v && t.vectorInRange f v && !(Assoc.get t.err.msix ⟨0, 0, true⟩ v).masked then
        ({ t with err := { t.err with pba := t.err.pba.filter (· != v) } }).sendMessage v
      else t) s

/-- The host sets entry `entry` of a function's MSI-X table, its MSI-X Enable and its Function Mask. -/
def execMsixUnmask (f entry addr data : Nat) (masked enable functionMask : Bool) (s : State) : Host.Outcome State Fault Refusal :=
  if s.pfEnabled f = false ∨ s.off = true then .next s
  else
    let v := s.fget (Fld.HIF_PF_CFG_VEC_BASE f) + entry
    let others := fun (xs : List Nat) => xs.filter (· != f)
    let e := s.err
    let e1 := { e with
      msix := if s.vectorInRange f v then Assoc.put e.msix ⟨0, 0, true⟩ v ⟨addr, data, masked⟩ else e.msix
      msixEnabled := if enable then others e.msixEnabled ++ [f] else others e.msixEnabled
      functionMasked := if functionMask then others e.functionMasked ++ [f] else others e.functionMasked }
    .next ({ s with err := e1 }.sendHeld f)

/-! ### Fatal errors (R531, R540) -/

/-- ERR_FATAL_FORCE.GO, written by a master. -/
def hookFatalForce (m v : Nat) (s : State) : State := if bitAt v 0 then s.raiseError 0x0503 m else s

/-- Firmware finds its own state unusable. -/
def execFwFatal (reason : Nat) (s : State) : Host.Outcome State Fault Refusal :=
  if s.off then .next s else .next (s.raiseErrorFw 0x0901 reason)

/-- The watchdog of a core expires: the ROM dump routine takes over. -/
def execWatchdogExpiry (core : Nat) (s : State) : Host.Outcome State Fault Refusal :=
  if s.off ∨ s.err.fatal = .frozen then .next s
  else
    let s1 := s.raiseError 0x0902 (core % 4)
    .next { s1 with err := { s1.err with romDump := true } }

end Sys2Proof.Machine
end

