-- ==== Sys2Proof/Machine/Fwu.lean ====
section
/-! DEFINITION. The FWU block: image banks, update sessions, apply, handover and trial, and the mailbox (20 R558-R584). -/

namespace Sys2Proof.Machine

open Sys2Proof

/-! ### Images (R562, R563) -/

def bankEmpty : Nat := 0
def bankWriting : Nat := 1
def bankReady : Nat := 2
def bankActive : Nat := 3
def bankTrial : Nat := 4
def bankPrevious : Nat := 5
def bankFailed : Nat := 6

/-- Byte `i` of a bank's image. -/
def ImageBank.byte (b : ImageBank) (i : Nat) : Byte :=
  match b.bytes with
  | none => Config.factoryImage i
  | some bs => bs.getD i 0

/-- `n` bytes of an image from byte `i`. -/
def ImageBank.range (b : ImageBank) (i n : Nat) : List Byte := (List.range n).map fun k => b.byte (i + k)

/-- `n` bytes of an image from `i`, as a number. -/
def ImageBank.le (b : ImageBank) (i n : Nat) : Nat := leNat (b.range i n)

/-- An image verifies (R563), for a profile and a stepping. -/
def ImageBank.verifies (b : ImageBank) (profile stepping : Nat) : Bool :=
  let length := b.le 16 4
  b.le 0 4 == 0x4D495A46 && b.le 4 2 == 1 && decide (4096 ≤ length) && decide (length ≤ 25165824)
    && crc32cStd ((b.range 4096 (length - 4096)).map (·.toNat)) == b.le 20 4
    && Config.signatureOk (b.range 64 96) (b.range 0 64 ++ b.range 4096 (length - 4096))
    && bitAt (b.le 24 2) profile && decide (b.le 26 2 ≤ stepping)

def State.fwBank (s : State) (k : Nat) : ImageBank := if k = 0 then s.fwu.bank0 else s.fwu.bank1

def State.setFwBank (s : State) (k : Nat) (b : ImageBank) : State :=
  { s with fwu := if k = 0 then { s.fwu with bank0 := b } else { s.fwu with bank1 := b } }

/-- A bank's state and reason change. -/
def State.markBank (s : State) (k st reason : Nat) : State := s.setFwBank k { s.fwBank k with state := st, reason := reason }

def State.runningBank (s : State) : ImageBank := s.fwBank s.fwu.running

/-- The bank a session writes. -/
def State.inactiveBank (s : State) : Nat := 1 - s.fwu.running

def State.bankVerifies (s : State) (k : Nat) : Bool :=
  (s.fwBank k).verifies (s.fget Fld.GLB_COMPAT_PROFILE_PROFILE) (s.fget Fld.GLB_STEPPING_STEPPING)

/-! ### Phases (R573) -/

def State.fwPhase (s : State) : Nat := s.fget Fld.FWU_STATUS_PHASE

/-- A handover phase changes: message source 2 (R559). -/
def State.setFwPhase (s : State) (p : Nat) : State := (s.fset Fld.FWU_STATUS_PHASE p).pulse 732

/-- Whether a master may use the update service (R581). -/
def State.fwuOwned (s : State) (m : Nat) : Bool :=
  let o := s.fget (Fld.GLB_OWN_OWNER 9)
  o == 0 || o == 0xF || o == m || m == 0

/-- A FWU_ACTIVATE issued as a ring command waits for its switch instant. -/
def State.activateWaits (s : State) : Bool :=
  match s.fwu.handover with
  | some h => match h.caller with | some (.ring _) => true | _ => false
  | none => false

/-- A command of the subject completes, after a FWU_ACTIVATE that started before it. -/
def State.fwuComplete (s : State) (c : Cmd) (opcode st r0 r1 : Nat) : State :=
  if s.activateWaits then { s with fwu := { s.fwu with held := s.fwu.held ++ [(c, opcode, st, r0, r1)] } }
  else s.complete c opcode st r0 r1

/-- The mailbox completes its operation (R582). -/
def State.mboxComplete (s : State) (st r0 r1 : Nat) : State :=
  let s1 := ((s.fset Fld.FWU_MBOX_CTRL_BUSY 0).fset Fld.FWU_MBOX_CTRL_STATUS st).setReg (Reg.FWU_MBOX_RES 0) (BitVec.ofNat 32 r0)
  let s2 := s1.setReg (Reg.FWU_MBOX_RES 1) (BitVec.ofNat 32 (r0 / 2 ^ 32))
  let s3 := (s2.setReg (Reg.FWU_MBOX_RES 2) (BitVec.ofNat 32 r1)).setReg (Reg.FWU_MBOX_RES 3) (BitVec.ofNat 32 (r1 / 2 ^ 32))
  s3.setEvent Fld.FWU_EVENT_MBOX_DONE

/-- The FWU_ACTIVATE of the handover completes, and with it what waited behind it. -/
def State.activateDone (s : State) (h : Handover) (st r0 r1 : Nat) : State :=
  let s1 := { s with fwu := { s.fwu with handover := some { h with caller := none }, held := [] } }
  let s2 := match h.caller with
    | none => s1
    | some (.ring c) => s1.complete c 0x0D07 st r0 r1
    | some .mailbox => s1.mboxComplete st r0 r1
  s.fwu.held.foldl (fun (t : State) (x : Cmd × Nat × Nat × Nat × Nat) => t.complete x.1 x.2.1 x.2.2.1 x.2.2.2.1 x.2.2.2.2) s2

/-! ### Sessions (R565-R570) -/

/-- The rounded number of chunks of a length. -/
def chunksOf (length : Nat) : Nat := (length + 4095) / 4096

/-- The length a session's chunks hold, and its limit (R565). -/
def SessionParams.length (p : SessionParams) : Nat := if p.full then p.targetLength else p.deltaLength
def SessionParams.limit (p : SessionParams) : Nat := if p.full then 25165824 else 12582912

def cmdParams (c : Cmd) : SessionParams :=
  { full := c.fld 62 0 1 == 1, sourceVersion := c.fld 32 0 32, sourceCrc := c.fld 36 0 32, targetVersion := c.fld 40 0 32
    targetLength := c.fld 44 0 32, targetCrc := c.fld 48 0 32, deltaLength := c.fld 52 0 32, deltaCrc := c.fld 56 0 32
    count := c.fld 60 0 13 }

def State.setSession (s : State) (x : Option Session) : State := { s with fwu := { s.fwu with session := x } }

/-- The session ends (R570). -/
def State.endSession (s : State) : State := (s.setSession none).setEvent Fld.FWU_EVENT_SESSION_END

/-- A session ends other than by FWU_APPLY: the bank of a full session that has stored a chunk is FAILED. -/
def State.abortSession (s : State) (x : Session) : State :=
  let s1 := if x.params.full && (s.fwBank s.inactiveBank).state == bankWriting then s.markBank s.inactiveBank bankFailed 5 else s
  s1.endSession

/-- What the service holds of a lock: holder and chain ID (02 R87). -/
def Session.busyResult (x : Session) : Nat := x.holder + 16 * x.holderChain

/-- The service runs in ROM recovery mode (R579). -/
def State.inRecovery (s : State) : Bool := s.fbit Fld.FWU_STATUS_MODE

/-- The session a command names, or the status it completes with: held by another master, or not the one named. -/
def State.sessionFor (s : State) (m id : Nat) : Except (Nat × Nat) Session :=
  match s.fwu.session with
  | none => .error (stState, 0)
  | some x => if x.holder ≠ m then .error (stBusy, x.busyResult) else if x.id ≠ id then .error (stState, 0) else .ok x

/-- An operation that ends at once. -/
def opDone (s : State) (st : Nat) : State × Done := (s, .done st 0 0)

def fwuSessionStart (m : Nat) (c : Cmd) (s : State) : State × Done :=
  let p := cmdParams c
  let fields := [(32, 0, 32), (36, 0, 32), (40, 0, 32), (44, 0, 32), (48, 0, 32), (52, 0, 32), (56, 0, 32), (60, 0, 13), (62, 0, 1)]
  let sourceOk := p.full || (p.sourceVersion == s.runningBank.version && p.sourceCrc == s.runningBank.crc)
  let sec := s.view.sec
  if c.resv [] [] fields then opDone s stBadPayload
  else if p.count = 0 ∨ p.count ≠ chunksOf p.length ∨ p.limit < p.length then opDone s stOutOfRange
  else if p.full ∧ (p.deltaLength ≠ 0 ∨ p.deltaCrc ≠ 0) then opDone s stBadPayload
  else if !s.fwuOwned m then opDone s stNotOwner
  else if s.fwPhase ≠ 0 ∨ (s.inRecovery = true ∧ p.full = false) then opDone s stState
  else
    match s.fwu.session with
    | none =>
      if !sourceOk then opDone s stState
      else
        let x : Session := ⟨s.fwu.nextId, p, m, s.fget Fld.IGL_ID_CHAIN_ID, [], sec⟩
        ({ s with fwu := { s.fwu with session := some x, nextId := s.fwu.nextId + 1 } }, .done stOK (x.id % 2 ^ 32) 0)
    | some x =>
      if x.holder ≠ m then (s, .done stBusy x.busyResult 0)
      else if x.params ≠ p ∨ sourceOk = false then opDone s stState
      else (s.setSession (some { x with last := sec }), .done stOK (x.id % 2 ^ 32 + 2 ^ 32 * x.chunks.length) 0)

/-- Message source 3, at most once per 100 ms (R559). -/
def State.chunkMessage (s : State) : State :=
  let due := match s.fwu.chunkPulse with | none => true | some t => decide (t + 100000000 ≤ s.nowNs) || decide (s.nowNs < t)
  if due then ({ s with fwu := { s.fwu with chunkPulse := some s.nowNs } }).pulse 733 else s

/-- Stores a chunk (R569). -/
def fwuChunk (m : Nat) (c : Cmd) (d : HostData) (s : State) : State × Done :=
  let seq := bitsAt c.arg0 0 13
  let crc := bitsAt c.arg1 0 32
  if c.resv [(0, 13), (32, 32)] [(0, 32)] [(32, 0, 64)] then opDone s stBadPayload
  else if !s.fwuOwned m then opDone s stNotOwner
  else
    match s.sessionFor m (bitsAt c.arg0 32 32) with
    | .error (st, r0) => (s, .done st r0 0)
    | .ok x =>
      if x.params.count ≤ seq then opDone s stOutOfRange
      else if x.params.full ∧ s.fwPhase ≠ 0 then opDone s stState
      else
        match d.get with
        | .error st => opDone s st
        | .ok got =>
          let bytes := got.take 4096 ++ List.replicate (4096 - got.length) 0
          let s1 := s.setSession (some { x with last := s.view.sec })
          if crc32cStd (bytes.map (·.toNat)) ≠ crc then opDone s stBadPayload
          else
            match Assoc.find x.chunks seq with
            | some old =>
              if old.1 = crc then (s1, .done stOK (x.chunks.length + 2 ^ 16) 0) else opDone s stBadPayload
            | none =>
              let x1 := { x with chunks := Assoc.insert x.chunks seq (crc, bytes), last := s.view.sec }
              let s2 := if x.params.full then s1.markBank s1.inactiveBank bankWriting 0 else s1
              ((s2.setSession (some x1)).chunkMessage, .done stOK x1.chunks.length 0)

/-- The 768 bytes of the bitmap (R583). -/
def bitmapBytes (x : Session) : List Byte :=
  (List.range 768).map fun b => BitVec.ofNat 8 ((List.range 8).foldl (fun n i =>
    if (Assoc.find x.chunks (8 * b + i)).isSome then n + 2 ^ i else n) 0)

/-- Writes bytes into the staging buffer from its first word. -/
def State.stageBytes (s : State) (bs : List Byte) : State :=
  (List.range (bs.length / 4)).foldl (fun (t : State) w => t.setReg (Reg.FWU_STAGE w) (BitVec.ofNat 32 (leAt bs (4 * w) 4))) s

/-- The 4,096 bytes of the staging buffer. -/
def State.staged (s : State) : List Byte := (List.range 1024).flatMap fun w => leBytes 4 (s.reg (Reg.FWU_STAGE w)).toNat

def fwuBitmap (m : Nat) (c : Cmd) (mbox : Bool) (s : State) : State × Done :=
  if c.resv [(32, 32)] [] [(32, 0, 64)] then opDone s stBadPayload
  else if !s.fwuOwned m then opDone s stNotOwner
  else
    match s.sessionFor m (bitsAt c.arg0 32 32) with
    | .error (st, r0) => (s, .done st r0 0)
    | .ok x =>
      let s1 := s.setSession (some { x with last := s.view.sec })
      let s2 := if mbox then s1.stageBytes (bitmapBytes x) else s1.emit (.hostWrite (c.fld 32 0 64) (bitmapBytes x))
      (s2, .done stOK x.chunks.length 0)

/-! ### Apply (R571, R572) -/

/-- Executes a delta stream over the running image; `none` where it fails (step 2). Each record takes one unit of fuel. -/
def runDelta (src : ImageBank) : Nat → List Byte → List Byte → Option (List Byte)
  | 0, _, _ => none
  | fuel + 1, stream, out =>
    if stream.length < 4 ∨ leAt stream 1 3 ≠ 0 then none
    else
      match byteOr0 stream 0 with
      | 1 =>
        let at' := leAt stream 4 4
        let len := leAt stream 8 4
        if stream.length < 12 ∨ src.length < at' + len ∨ 25165824 < out.length + len then none
        else runDelta src fuel (stream.drop 12) (out ++ src.range at' len)
      | 2 =>
        let len := leAt stream 4 4
        if stream.length < 8 + (len + 3) / 4 * 4 ∨ 25165824 < out.length + len then none
        else runDelta src fuel (stream.drop (8 + (len + 3) / 4 * 4)) (out ++ (stream.drop 8).take len)
      | 3 => some out
      | _ => none

/-- The chunks of a session, in order. -/
def Session.content (x : Session) : List Byte :=
  ((List.range x.params.count).flatMap fun i => (Assoc.get x.chunks (0, []) i).2).take x.params.length

/-- The image a session makes, or the REASON of the step that fails. -/
def State.applied (s : State) (x : Session) : Except Nat (List Byte) :=
  let p := x.params
  let check := fun (bs : List Byte) =>
    let b : ImageBank := ⟨0, 0, 0, 0, 0, some bs⟩
    if bs.length ≠ p.targetLength ∨ b.le 20 4 ≠ p.targetCrc then Except.error 4
    else if b.verifies (s.fget Fld.GLB_COMPAT_PROFILE_PROFILE) (s.fget Fld.GLB_STEPPING_STEPPING) then Except.ok bs
    else Except.error 1
  if p.full then check x.content
  else if crc32cStd (x.content.map (·.toNat)) ≠ p.deltaCrc then .error 3
  else if s.runningBank.version ≠ p.sourceVersion ∨ s.runningBank.crc ≠ p.sourceCrc then .error 2
  else match runDelta s.runningBank x.content.length x.content [] with
    | none => .error 3
    | some bs => check bs

/-- The bank a finished apply writes. -/
def imageOf (bs : List Byte) : ImageBank :=
  let b : ImageBank := ⟨bankReady, 0, 0, 0, 0, some bs⟩
  { b with version := b.le 8 4, length := b.le 16 4, crc := b.le 20 4 }

/-- FWU_APPLY; `bad` says that an MRAM read fails its check. -/
def fwuApply (m : Nat) (c : Cmd) (bad : Bool) (s : State) : State × Done :=
  if c.resv [(32, 32)] [] [] then opDone s stBadPayload
  else if !s.fwuOwned m then opDone s stNotOwner
  else
    match s.sessionFor m (bitsAt c.arg0 32 32) with
    | .error (st, r0) => (s, .done st r0 0)
    | .ok x =>
      let k := s.inactiveBank
      if x.chunks.length < x.params.count ∨ s.fwPhase ≠ 0 then opDone s stState
      else
        match (if bad then .error 10 else s.applied x) with
        | .ok bs => (((s.setFwBank k (imageOf bs)).endSession).setEvent Fld.FWU_EVENT_APPLY_DONE, .done stOK k 0)
        | .error reason =>
          (((s.markBank k bankFailed reason).endSession).setEvent Fld.FWU_EVENT_APPLY_FAIL, .done stDataError (k + 256 * reason) 0)

def fwuAbort (m : Nat) (c : Cmd) (s : State) : State × Done :=
  if c.resv [(32, 32)] [] [] then opDone s stBadPayload
  else if !s.fwuOwned m then opDone s stNotOwner
  else
    match s.sessionFor m (bitsAt c.arg0 32 32) with
    | .error (st, r0) => (s, .done st r0 0)
    | .ok x => (s.abortSession x, .done stOK 0 0)

/-- FWU_INFO. -/
def fwuInfo (m : Nat) (c : Cmd) (s : State) : State × Done :=
  if c.resv [] [] [] then opDone s stBadPayload
  else if !s.fwuOwned m then opDone s stNotOwner
  else
    let r0 := s.runningBank.version % 2 ^ 32 + 2 ^ 32 * (s.fwu.bank0.state + 8 * s.fwu.bank1.state + 64 * s.fwu.running + 128 * s.fwPhase)
    let r1 := match s.fwu.session with | some x => x.id % 2 ^ 32 + 2 ^ 32 * x.chunks.length | none => 0
    (s, .done stOK r0 r1)

/-! ### Handover, trial and fallback (R573-R577) -/

/-- FWU_ACTIVATE starts TRANSFER; it completes at the switch instant or when the handover fails. -/
def fwuActivate (m : Nat) (c : Cmd) (caller : FwuCaller) (s : State) : State × Done :=
  let k := bitsAt c.arg0 0 1
  let w := bitsAt c.arg0 16 12
  let b := s.fwBank k
  if c.resv [(0, 2), (16, 12)] [] [] then opDone s stBadPayload
  else if w ≠ 0 ∧ (w < 10 ∨ 3600 < w) then opDone s stOutOfRange
  else if !s.fwuOwned m then opDone s stNotOwner
  else if (b.state ≠ bankReady ∧ b.state ≠ bankPrevious) ∨ s.fwPhase ≠ 0 then opDone s stState
  else
    let h : Handover := ⟨k, (b.state, b.reason), bitAt c.arg0 1, if w = 0 then s.fget Fld.FWU_CFG_WINDOW_S else w, some caller, 0, false, false, true⟩
    (({ s with fwu := { s.fwu with handover := some h } }).setFwPhase 1, .later)

/-- Seconds left of a trial's window. -/
def State.trialLeft (s : State) : Nat :=
  match s.fwu.handover with
  | some h => if s.fwPhase = 3 then h.window - (s.nowNs - h.switched) / 1000000000 else 0
  | none => 0

/-- Confirmation (R577). -/
def State.confirmTrial (s : State) (h : Handover) : State :=
  let s1 := { s.markBank h.target bankActive 0 with fwu := { (s.markBank h.target bankActive 0).fwu with handover := none } }
  (s1.setEvent Fld.FWU_EVENT_CONFIRMED).setFwPhase 0

/-- Confirms when every confirmation the trial needs has come (R576). -/
def State.tryConfirm (s : State) (h : Handover) : State :=
  let s1 := { s with fwu := { s.fwu with handover := some h } }
  if h.selfOk && (!h.hostConfirm || h.hostOk) then s1.confirmTrial h else s1

/-- Fallback to the old image (R577), while it follows. -/
def State.fallback (s : State) (reason : Nat) : State :=
  match s.fwu.handover with
  | none => s
  | some h =>
    if s.fwPhase ≠ 3 ∨ h.oldFollows = false then s
    else
      let s1 := (s.markBank h.target bankFailed reason).markBank (1 - h.target) bankActive 0
      let s2 := { s1 with fwu := { s1.fwu with handover := none, running := 1 - h.target } }
      (s2.setEvent Fld.FWU_EVENT_FALLBACK).setFwPhase 0

def fwuConfirm (m : Nat) (c : Cmd) (s : State) : State × Done :=
  if c.resv [] [] [] then opDone s stBadPayload
  else if !s.fwuOwned m then opDone s stNotOwner
  else
    match s.fwu.handover with
    | none => opDone s stState
    | some h =>
      if s.fwPhase ≠ 3 ∨ h.hostConfirm = false then opDone s stState
      else (s.tryConfirm { h with hostOk := true }, .done stOK s.trialLeft 0)

/-- Every service is mirrored, and actorship moves at the switch instant (R574). -/
def execHandoverCommit (s : State) : Host.Outcome State Fault Refusal :=
  match s.fwu.handover with
  | none => .next s
  | some h =>
    if s.fwPhase ≠ 1 then .next s
    else
      let s1 := ((s.setFwPhase 2).markBank h.target bankTrial 0).markBank (1 - h.target) bankPrevious 0
      let s2 := { s1 with fwu := { s1.fwu with running := h.target } }
      let now := s2.nowNs
      let sec := now / 1000000000
      .next (((s2.setFwPhase 3).activateDone { h with switched := now } stOK (now % 1000000000 + 2 ^ 32 * (sec % 2 ^ 32))
        (sec / 2 ^ 32 % 2 ^ 16)))

/-- A handover fails before the switch instant (R575). -/
def execHandoverFail (s : State) : Host.Outcome State Fault Refusal :=
  match s.fwu.handover with
  | none => .next s
  | some h =>
    if s.fwPhase ≠ 1 then .next s
    else
      let s1 := ((s.markBank h.target bankFailed 6).activateDone h stState 0 0)
      let s2 := { s1 with fwu := { s1.fwu with handover := none } }
      .next ((s2.setEvent Fld.FWU_EVENT_HANDOVER_FAIL).setFwPhase 0)

/-- The new image has run 5 s with every self-check passed (R576). -/
def execTrialSelfConfirm (s : State) : Host.Outcome State Fault Refusal :=
  match s.fwu.handover with
  | none => .next s
  | some h => .next (if s.fwPhase = 3 then s.tryConfirm { h with selfOk := true } else s)

def execTrialWindowExpiry (s : State) : Host.Outcome State Fault Refusal := .next (s.fallback 7)

def execTrialWatchdogExpiry (s : State) : Host.Outcome State Fault Refusal := .next (s.fallback 8)

def execTrialImageFault (s : State) : Host.Outcome State Fault Refusal := .next (s.fallback 8)

/-- The old image stops during the trial: the trial goes on without a fallback target (R576). -/
def execOldImageStop (s : State) : Host.Outcome State Fault Refusal :=
  match s.fwu.handover with
  | none => .next s
  | some h =>
    if s.fwPhase ≠ 3 ∨ h.oldFollows = false then .next s
    else .next (({ s with fwu := { s.fwu with handover := some { h with oldFollows := false } } }).setEvent Fld.FWU_EVENT_FALLBACK_LOST)

/-- IDLE_H hours without an accepted command of the session (R570). -/
def execSessionIdleExpiry (s : State) : Host.Outcome State Fault Refusal :=
  match s.fwu.session with
  | none => .next s
  | some x => .next (s.abortSession x)

/-! ### Microcode staging (R564) -/

/-- The microcode section of an image, when it has one. -/
def ImageBank.ucode (b : ImageBank) : Option (List Byte) :=
  if b.le 32 4 = 0 ∨ b.le 36 4 ≠ 81920 then none else some (b.range (b.le 32 4) 81920)

def fwuUcodeStage (m : Nat) (c : Cmd) (s : State) : State × Done :=
  if c.resv [] [] [] then opDone s stBadPayload
  else if !s.fwuOwned m then opDone s stNotOwner
  else
    match s.parState m with
    | some (st, r0) => (s, .done st r0 0)
    | none =>
      match s.runningBank.ucode with
      | none => opDone s stNotFound
      | some bytes => match s.parLoad 0 bytes with | (s1, st, r0, r1) => (s1, .done st r0 r1)

/-! ### Ring commands (R583) -/

/-- Runs a command of the subject; its completion keeps the start order. -/
def fwuCmd (opcode lo hi : Nat) (c : Cmd) (s : State) (body : State → State × Done) : Host.Outcome State Fault Refusal :=
  if s.off then .next s
  else if c.len < lo ∨ hi < c.len then .next (s.fwuComplete c opcode stBadPayload 0 0)
  else
    match body s with
    | (s', .done st r0 r1) => .next (s'.fwuComplete c opcode st r0 r1)
    | (s', .later) => .next s'

def execFwuInfo (c : Cmd) (s : State) : Host.Outcome State Fault Refusal :=
  fwuCmd 0x0D01 1 1 c s (fwuInfo (s.cmdMaster c) c)

def execFwuSessionStart (c : Cmd) (s : State) : Host.Outcome State Fault Refusal :=
  fwuCmd 0x0D02 2 2 c s (fwuSessionStart (s.cmdMaster c) c)

def execFwuChunk (c : Cmd) (d : HostData) (s : State) : Host.Outcome State Fault Refusal :=
  fwuCmd 0x0D03 2 2 c s (fwuChunk (s.cmdMaster c) c d)

def execFwuBitmap (c : Cmd) (s : State) : Host.Outcome State Fault Refusal :=
  fwuCmd 0x0D04 2 2 c s (fwuBitmap (s.cmdMaster c) c false)

def execFwuApply (c : Cmd) (bad : Bool) (s : State) : Host.Outcome State Fault Refusal :=
  fwuCmd 0x0D05 1 1 c s (fwuApply (s.cmdMaster c) c bad)

def execFwuSessionAbort (c : Cmd) (s : State) : Host.Outcome State Fault Refusal :=
  fwuCmd 0x0D06 1 1 c s (fwuAbort (s.cmdMaster c) c)

def execFwuActivate (c : Cmd) (s : State) : Host.Outcome State Fault Refusal :=
  fwuCmd 0x0D07 1 1 c s (fwuActivate (s.cmdMaster c) c (.ring c))

def execFwuConfirm (c : Cmd) (s : State) : Host.Outcome State Fault Refusal :=
  fwuCmd 0x0D08 1 1 c s (fwuConfirm (s.cmdMaster c) c)

def execFwuUcodeStage (c : Cmd) (s : State) : Host.Outcome State Fault Refusal :=
  fwuCmd 0x0D09 1 1 c s (fwuUcodeStage (s.cmdMaster c) c)

/-! ### The mailbox (R582) -/

/-- The operation that FWU_MBOX_ARG spells, as a command: command bytes 16 to 63. The payload counts only for the operations of LEN 2. -/
def State.mboxCmd (s : State) (len : Nat) : Cmd :=
  let w := fun a => (s.reg (Reg.FWU_MBOX_ARG a)).toNat
  { ring := 0, len := len, fence := false, noCmpl := false, intr := false, tag := 0, cq := 0, pos := 0
    arg0 := w 0 + 2 ^ 32 * w 1, arg1 := w 2 + 2 ^ 32 * w 3
    payload := if len = 1 then [] else (List.range 8).flatMap fun a => leBytes 4 (w (4 + a)) }

/-- Runs the operation of the mailbox for the master of the write. -/
def State.mboxRun (s : State) (m op : Nat) (bad : Bool) : State × Done :=
  if s.inRecovery ∧ [1, 2, 3, 4, 5, 6].contains op = false ∧ op ≤ 8 then opDone s stState
  else
    match op with
    | 1 => fwuInfo m (s.mboxCmd 1) s
    | 2 => fwuSessionStart m (s.mboxCmd 2) s
    | 3 => fwuChunk m (s.mboxCmd 2) (.bytes s.staged) s
    | 4 => fwuBitmap m (s.mboxCmd 2) true s
    | 5 => fwuApply m (s.mboxCmd 1) bad s
    | 6 => fwuAbort m (s.mboxCmd 1) s
    | 7 => fwuActivate m (s.mboxCmd 1) .mailbox s
    | 8 => fwuConfirm m (s.mboxCmd 1) s
    | _ => opDone s stUnsupported

/-- A write of FWU_MBOX_CTRL with GO; `bad` is the MRAM's failure of an FWU_APPLY. -/
def hookMboxGo (m v : Nat) (bad : Bool) (s : State) : State :=
  if !bitAt v 0 then s
  else
    match (s.fset Fld.FWU_MBOX_CTRL_BUSY 1).mboxRun m (bitsAt v 8 8) bad with
    | (t, .done st r0 r1) => t.mboxComplete st r0 r1
    | (t, .later) => t

/-- FWU_CFG: WINDOW_S reads back within 10 to 3,600, IDLE_H 0 as 1. -/
def hookFwuCfg (s : State) : State :=
  (s.fset Fld.FWU_CFG_WINDOW_S (max 10 (min 3600 (s.fget Fld.FWU_CFG_WINDOW_S)))).fset Fld.FWU_CFG_IDLE_H (max 1 (s.fget Fld.FWU_CFG_IDLE_H))

end Sys2Proof.Machine
end

