-- ==== Sys2Proof/Machine/GenCmds.lean ====
section
/-! DEFINITION. The generation unit: builds, commits, cancellation, abandonment, activation, retirement and journal walks, with the
parser commands that share its order (03 R91-R122, 06 R205). -/

namespace Sys2Proof.Machine

open Sys2Proof

/-! ### Counts (R96, R102) -/

/-- The count of GEN_VISIBLE for a generation, of the table's first kind of entry. -/
def State.genVisible (s : State) (t g : Nat) : Nat :=
  let one := fun (l : List (Ver IdxVal)) => verVisible s g (fun _ => 1) l
  match t with
  | 0 => verVisible s g lpmSlots s.tab.lpm
  | 1 => s.exmVisible 0 g
  | 2 => s.exmVisible 1 g
  | 3 => one s.tab.cam
  | 4 => one s.tab.polb
  | 5 => one s.tab.act
  | _ => one s.tab.encap

/-- The count of GEN_STORED. -/
def State.genStored (s : State) (t : Nat) : Nat :=
  match t with
  | 0 => verStored lpmSlots s.tab.lpm
  | 1 => s.exmUsed 0
  | 2 => s.exmUsed 1
  | 3 => s.tab.cam.length
  | 4 => s.tab.polb.length
  | 5 => s.tab.act.length
  | _ => s.tab.encap.length

/-- The count of GEN_JOURNAL: the build's records. -/
def State.genJournal (s : State) (t : Nat) : Nat :=
  if s.buildOpen ∨ s.commitPending then s.journalCount s.buildGen t else 0

/-! ### Steps of the unit -/

def State.setWait (s : State) (w : Option GenWait) : State := { s with gen := { s.gen with wait := w } }

/-- A table-changing command on the build has started and has not completed (R107): one that a CAM move holds back. -/
def State.tablesBusy (s : State) : Bool := !s.tab.camHeld.isEmpty

/-- The build held by a master, or the status (R107 check 1, R112). -/
def State.heldBuild (s : State) (m : Nat) : Option (Nat × Nat) :=
  if !s.buildOpen then some (stState, 0)
  else if s.fget Fld.GEN_STATE_HOLDER ≠ m then some (stBusy, s.busyResult)
  else none

/-- GEN_STATE.BUILD_OPEN and PENDING, with the build's state. -/
def State.setBuildState (s : State) (g st : Nat) : State :=
  ((s.fset (fldGenState g) st).fset Fld.GEN_STATE_BUILD_OPEN (b2n (st == genBuilding))).fset Fld.GEN_STATE_PENDING (b2n (st == genPending))

/-- GEN_OPEN (R94, R99, R106). -/
def genOpen (c : Cmd) (s : State) : State × Done :=
  let g := s.buildGen
  let seq := (s.genSeq s.activeGen + 1) % 2 ^ 32
  if c.resv [] [] [] then fail stBadPayload s
  else if s.buildOpen ∨ s.commitPending ∨ s.genStateOf g ≠ genFree then fail stState s
  else
    let s1 := (s.setBuildState g genBuilding).fset (Fld.GEN_SEQ_SEQ g) seq
    let s2 := (s1.fset Fld.GEN_STATE_HOLDER (s.cmdMaster c)).fset (fldGenBank g) (s.fget (fldGenBank s.activeGen))
    ok { s2 with gen := { s2.gen with journal := s2.gen.journal.filter fun (kv : Nat × Nat) => kv.1 / 16 != g } } (g + 2 ^ 32 * seq) 0

/-- Device time at or after the present, in whole nanoseconds. -/
def State.nowCeil (s : State) : Nat := s.nowNs + (if s.view.frac = 0 then 0 else 1)

/-- Checks 2 and 3 of R107 on a commit's operands, and T (R108). -/
def State.commitInstant (s : State) (c : Cmd) : Except Nat Nat :=
  let ns := bitsAt c.arg0 0 32
  let t := (bitsAt c.arg0 32 32 + 2 ^ 32 * bitsAt c.arg1 0 16) * 1000000000 + ns
  if bitAt c.arg1 16 then .ok (ceilDiv (s.nowCeil + 2000) 1000 * 1000)
  else if 1000000000 ≤ ns ∨ s.nowNs + 60000000000 < t then .error stOutOfRange
  else if t < s.nowCeil + 2000 then .error stState
  else .ok t

/-- Arms a commit (R110); points past T before they are armed switch at once (R114). -/
def State.armCommit (s : State) (t : Nat) (late : List Nat) : State :=
  let g := s.buildGen
  let s1 := (s.setBuildState g genPending).setInstant Fld.GEN_COMMIT_NS_NS Fld.GEN_COMMIT_SEC_LO_SEC Fld.GEN_COMMIT_SEC_HI_SEC t
  let s2 := { s1 with gen := { s1.gen with arm := some ⟨g, s.activeGen, 4 * t, late⟩, wait := none } }
  if late.isEmpty then s2 else s2.setEvent Fld.GEN_EVENT_LATE_ARM

/-- The checks of R107 and what follows; `again` says that a retirement has ended the wait of R109. -/
def genCommitNow (r : GenReq) (again : Bool) (s0 : State) : State × Done :=
  let s := s0.setWait none
  match s.heldBuild (s.cmdMaster r.cmd) with
  | some (st, r0) => (s, .done st r0 0)
  | none =>
    match s.commitInstant r.cmd with
    | .error st => fail st s
    | .ok t =>
      if 3 ≤ s.liveCount then
        if again = false ∧ bitsAt r.cmd.arg1 32 16 ≠ 0 then (s.setWait (some (.retirement r false)), .later)
        else fail stGenLimit s
      else
        let g := s.buildGen
        let sec := t / 1000000000
        ok (s.armCommit t r.late) (t % 1000000000 + 2 ^ 32 * (sec % 2 ^ 32))
          (sec / 2 ^ 32 % 2 ^ 16 + 2 ^ 16 * g + 2 ^ 32 * s.genSeq g)

/-- GEN_COMMIT. -/
def genCommit (r : GenReq) (s : State) : State × Done :=
  if r.cmd.resv [(0, 64)] [(0, 17), (32, 16)] [] then fail stBadPayload s
  else if s.tablesBusy then (s.setWait (some (.tables r)), .later)
  else genCommitNow r false s

/-- GEN_CANCEL (R111). -/
def genCancel (c : Cmd) (s : State) : State × Done :=
  if c.resv [] [] [] then fail stBadPayload s
  else if !s.commitPending then fail stState s
  else if s.fget Fld.GEN_STATE_HOLDER ≠ s.cmdMaster c then (s, .done stBusy s.busyResult 0)
  else if s.getInstant Fld.GEN_COMMIT_NS_NS Fld.GEN_COMMIT_SEC_LO_SEC Fld.GEN_COMMIT_SEC_HI_SEC < s.nowCeil + 2000 then fail stState s
  else
    let g := s.buildGen
    let s1 := s.setBuildState g genBuilding
    ok { s1 with gen := { s1.gen with arm := none } } g 0

/-- The shadow compares of a generation stop when it retires or is abandoned (07 R238). -/
def State.shadowLost (s : State) (g : Nat) : State :=
  let stop := fun (t : State) (u : ShadowUnit) =>
    if t.fbit (u.fld 3 1) && t.fget (u.fld 4 2) == g then (t.fset (u.fld 3 1) 0).fset (u.fld 6 1) 1 else t
  stop (stop (stop s lpmShadow) exmShadow) camShadow

/-- The abandon walk starts (R112). -/
def genAbandonNow (r : GenReq) (s : State) : State × Done :=
  let g := s.buildGen
  let s1 := ((s.setBuildState g genReclaim).fset Fld.GEN_STATE_HOLDER 0).setWait (some (.walk r))
  ({ s1 with gen := { s1.gen with walks := s1.gen.walks ++ [Walk.mk g (some r.cmd)] } }.shadowLost g, .later)

/-- GEN_ABANDON. -/
def genAbandon (r : GenReq) (s : State) : State × Done :=
  if r.cmd.resv [] [] [] then fail stBadPayload s
  else
    match s.heldBuild (s.cmdMaster r.cmd) with
    | some (st, r0) => (s, .done st r0 0)
    | none => if s.tablesBusy then (s.setWait (some (.tables r)), .later) else genAbandonNow r s

/-- GEN_QUERY. -/
def genQuery (c : Cmd) (s : State) : State × Done :=
  if c.resv [] [] [] then fail stBadPayload s
  else
    ok s ((s.reg Reg.GEN_STATE).toNat % 2 ^ 16 + 2 ^ 32 * s.genSeq s.activeGen)
      (match s.oldestDraining with | some g => s.fget (Fld.GEN_DRAIN_COUNT g) | none => 0)

/-- GEN_SET_MARGIN (R105). -/
def genSetMargin (c : Cmd) (s : State) : State × Done :=
  let t := bitsAt c.arg0 0 3
  let m := bitsAt c.arg0 8 5
  if c.resv [(0, 3), (8, 5)] [] [] then fail stBadPayload s
  else if 6 < t ∨ m < 3 ∨ 25 < m then fail stOutOfRange s
  else if s.buildOpen ∨ s.commitPending then fail stState s
  else if tableCapacity t * (100 - m) / 100 < s.genVisible t s.activeGen then fail stNoSpace s
  else ok (s.fset (Fld.GEN_MARGIN_PERCENT t) m) (s.fget (Fld.GEN_MARGIN_PERCENT t)) 0

/-! ### The unit's order (R122) -/

/-- What a command of the unit does when its turn comes. -/
def genBody (r : GenReq) (s : State) : State × Done :=
  match r.opcode with
  | 0x0301 => genOpen r.cmd s
  | 0x0302 => genCommit r s
  | 0x0303 => genCancel r.cmd s
  | 0x0304 => genAbandon r s
  | 0x0305 => genQuery r.cmd s
  | 0x0306 => genSetMargin r.cmd s
  | 0x0320 => parLoadCmd r.cmd r.data s
  | _ => parReadCmd r.cmd s

/-- LEN of the unit's commands. -/
def genLen (opcode : Nat) : Nat := if 0x0320 ≤ opcode then 2 else 1

/-- Runs a command of the unit whose turn has come. -/
def State.genRun (s : State) (r : GenReq) : State := cmdRun r.opcode (genLen r.opcode) (genLen r.opcode) r.cmd s (genBody r)

/-- Runs the commands that wait for the unit, up to the first that waits itself. -/
def genDrain : List GenReq → State → State
  | [], s => s
  | r :: rs, s => if s.genClosing then { s with gen := { s.gen with queue := s.gen.queue ++ (r :: rs) } } else genDrain rs (s.genRun r)

/-- The unit is free: what waits goes on. -/
def State.genNext (s : State) : State := genDrain s.gen.queue { s with gen := { s.gen with queue := [] } }

/-- A command of the unit: it begins once the one before it has completed. -/
def genCmd (r : GenReq) (s : State) : Host.Outcome State Fault Refusal :=
  if s.genClosing then .next { s with gen := { s.gen with queue := s.gen.queue ++ [r] } } else .next (s.genRun r)

def execGenOpen (c : Cmd) (s : State) : Host.Outcome State Fault Refusal := genCmd ⟨0x0301, c, .bytes [], []⟩ s

/-- GEN_COMMIT; `late` lists the stamp points that a step of device time carries past T before they are armed (R114). -/
def execGenCommit (c : Cmd) (late : List Nat) (s : State) : Host.Outcome State Fault Refusal := genCmd ⟨0x0302, c, .bytes [], late⟩ s

def execGenCancel (c : Cmd) (s : State) : Host.Outcome State Fault Refusal := genCmd ⟨0x0303, c, .bytes [], []⟩ s

def execGenAbandon (c : Cmd) (s : State) : Host.Outcome State Fault Refusal := genCmd ⟨0x0304, c, .bytes [], []⟩ s

def execGenQuery (c : Cmd) (s : State) : Host.Outcome State Fault Refusal := genCmd ⟨0x0305, c, .bytes [], []⟩ s

def execGenSetMargin (c : Cmd) (s : State) : Host.Outcome State Fault Refusal := genCmd ⟨0x0306, c, .bytes [], []⟩ s

def execParLoad (c : Cmd) (d : HostData) (s : State) : Host.Outcome State Fault Refusal := genCmd ⟨0x0320, c, d, []⟩ s

def execParRead (c : Cmd) (s : State) : Host.Outcome State Fault Refusal := genCmd ⟨0x0321, c, .bytes [], []⟩ s

/-- A command of the unit that waited ends with an outcome; the unit is free unless it waits again. -/
def genFinish (r : GenReq) (x : State × Done) : State :=
  match x with
  | (t, .done st r0 r1) => ((t.setWait none).complete r.cmd r.opcode st r0 r1).genNext
  | (t, .later) => t

/-- The table-changing commands that a commit or an abandon waited for have completed (R107, R112). -/
def State.genResume (s : State) : State :=
  match s.gen.wait with
  | some (.tables r) =>
    if s.tablesBusy then s
    else genFinish r (if r.opcode = 0x0302 then genCommitNow r false s else genAbandonNow r (s.setWait none))
  | _ => s

/-- A retirement ends a waiting commit, which repeats its checks (R109). -/
def execGenCommitRetry (s : State) : Host.Outcome State Fault Refusal :=
  match s.gen.wait with
  | some (.retirement r true) => .next (genFinish r (genCommitNow r true s))
  | _ => .next s

/-- WAIT_US passes with no retirement. -/
def execGenCommitWaitExpiry (s : State) : Host.Outcome State Fault Refusal :=
  match s.gen.wait with
  | some (.retirement r false) => .next (genFinish r (fail stGenLimit s))
  | _ => .next s

/-! ### Activation, retirement, walks (R95, R117-R119) -/

/-- Device time reaches the commit instant. -/
def execGenActivation (s : State) : Host.Outcome State Fault Refusal :=
  match s.gen.arm with
  | none => .next s
  | some a =>
    if s.off = true ∨ s.commitPending = false ∨ s.genStateOf a.build ≠ genPending then .next s
    else
      let s1 := s.waitFor (a.instant / 4)
      let old := s1.activeGen
      let s2 := ((s1.fset (fldGenState old) genDraining).fset (fldGenState a.build) genActive).fset Fld.GEN_STATE_ACTIVE a.build
      let s3 := (s2.fset Fld.GEN_STATE_PENDING 0).fset Fld.GEN_STATE_HOLDER 0
      .next ({ s3 with gen := { s3.gen with superseded := Assoc.put s3.gen.superseded 0 old (a.instant / 4) } }.setEvent
        Fld.GEN_EVENT_ACTIVATED)

/-- The generation that superseded another: the one whose sequence number follows. -/
def supersededBy (g : Nat) : Nat := (g + 1) % 4

/-- The oldest DRAINING generation retires once no packet carries it and 1 µs has passed since it was superseded. -/
def execGenRetirement (s : State) : Host.Outcome State Fault Refusal :=
  match s.oldestDraining with
  | none => .next s
  | some g =>
    if s.off = true ∨ s.fget (Fld.GEN_DRAIN_COUNT g) ≠ 0 then .next s
    else
      let s0 := s.waitFor (Assoc.get s.gen.superseded 0 g + 1000)
      let own := s0.gen.walks.any fun w => w.gen == g
      let s1 := s0.fset (fldGenState g) (if own then genReclaim else genFree)
      let wait := match s1.gen.wait with | some (.retirement r _) => some (GenWait.retirement r true) | w => w
      let s2 := { s1 with gen := { s1.gen with
        wait := wait, walks := s1.gen.walks ++ [Walk.mk (supersededBy g) none]
        superseded := Assoc.erase s1.gen.superseded g, slowReported := s1.gen.slowReported.filter (· != g) } }
      .next ((s2.shadowLost g).setEvent Fld.GEN_EVENT_RETIRED)

/-- What a walk does to the versions of a table: after a retirement those with ADD of the walked generation lose it and those with DEL
are freed (R118); an abandoned build's own versions are freed and its DEL tags cleared (R112). -/
def walkVersions {α : Type} (h : Nat) (abandon : Bool) (l : List (Ver α)) : List (Ver α) :=
  if abandon then
    (l.filter fun v => !(v.tag.addV && v.tag.addGen == h)).map fun v =>
      if v.tag.delV && v.tag.delGen == h then { v with tag := { v.tag with delV := false, delGen := 0 } } else v
  else
    (l.filter fun v => !(v.tag.delV && v.tag.delGen == h)).map fun v =>
      if v.tag.addV && v.tag.addGen == h then { v with tag := { v.tag with addV := false } } else v

/-- Versions held by all tables. -/
def TabState.versions (t : TabState) : Nat :=
  t.lpm.length + t.nh.length + t.ecmp.length + t.exm.length + t.cam.length + t.act.length + t.polb.length + t.repl.length
    + t.edit.length + t.mirror.length + t.encap.length + t.tmpl.length

/-- A walk's effect on every table. -/
def State.walkTables (s : State) (h : Nat) (abandon : Bool) : State :=
  let t := s.tab
  let w := fun (l : List (Ver IdxVal)) => walkVersions h abandon l
  let s1 := { s with tab := { t with
    lpm := walkVersions h abandon t.lpm, nh := w t.nh, ecmp := w t.ecmp, exm := walkVersions h abandon t.exm, cam := w t.cam
    act := w t.act, polb := w t.polb, repl := w t.repl, edit := w t.edit, mirror := w t.mirror, encap := w t.encap, tmpl := w t.tmpl } }
  ((s1.tidyGroups ecmpGroups).tidyGroups replGroups).filtTidy

/-- The walk that runs finishes; it does not while a CAM move runs (09 R273). -/
def execJournalWalkEnd (s : State) : Host.Outcome State Fault Refusal :=
  match s.gen.walks with
  | [] => .next s
  | w :: ws =>
    if s.tab.camMove.isSome then .next s
    else
      let s1 := (s.bgSpend 6).walkTables w.gen w.abandon.isSome
      let freed := s.tab.versions - s1.tab.versions
      let s2 := { s1 with gen := { s1.gen with walks := ws } }
      let s3 := if s2.genStateOf w.gen = genReclaim then s2.fset (fldGenState w.gen) genFree else s2
      let s4 := (s3.setEvent Fld.GEN_EVENT_RECLAIM_DONE).camResume
      match w.abandon, s4.gen.wait with
      | some _, some (.walk r) => .next (genFinish r (ok s4 w.gen freed))
      | _, _ => .next s4

/-! ### DRAIN_SLOW (R120) -/

/-- Reports a DRAINING generation once the time since its superseding instant exceeds GEN_DRAIN_LIMIT. -/
def State.drainSlow (s : State) (g : Nat) : State :=
  let limit := s.fget Fld.GEN_DRAIN_LIMIT_MS
  if s.genStateOf g = genDraining ∧ limit ≠ 0 ∧ s.gen.slowReported.contains g = false
      ∧ Assoc.get s.gen.superseded 0 g + limit * 1000000 < s.nowNs then
    ({ s with gen := { s.gen with slowReported := s.gen.slowReported ++ [g] } }).setEvent Fld.GEN_EVENT_DRAIN_SLOW
  else s

/-- Device time passes the limit of a DRAINING generation. -/
def execDrainSlowExpiry (g : Nat) (s : State) : Host.Outcome State Fault Refusal :=
  if 4 ≤ g ∨ s.genStateOf g ≠ genDraining ∨ s.fget Fld.GEN_DRAIN_LIMIT_MS = 0 ∨ s.off = true then .next s
  else .next ((s.waitFor (Assoc.get s.gen.superseded 0 g + s.fget Fld.GEN_DRAIN_LIMIT_MS * 1000000 + 1)).drainSlow g)

/-- GEN_DRAIN_LIMIT, once written, applies at once. -/
def hookDrainLimit (s : State) : State := (List.range 4).foldl State.drainSlow s

/-! ### The end of a CAM move (09 R272, R273) -/

/-- The last slot of a move has moved: entries with their tags and parity in their new slots, the command completed, what waited
for it goes on (R272, R273). -/
def execCamMoveDone (s : State) : Host.Outcome State Fault Refusal :=
  match s.tab.camMove with
  | none => .next s
  | some m =>
    let upd := fun (v : Ver IdxVal) => { v with val := { v.val with idx := m.shift v.val.idx } }
    let held := s.tab.camHeld
    let bad := s.tab.camBad.map fun b => 16 * m.shift (b / 16) + b % 16
    let s1 := { s with tab := { s.tab with cam := s.tab.cam.map upd, camBad := bad, camMove := none, camHeld := [] } }
    let s2 := ((s1.fset Fld.CAM_STATUS_MOVING 0).setEvent Fld.CAM_EVENT_MOVE_DONE).complete m.cmd 0x0605 stOK (m.last - m.first + 1) 0
    let done := (camHeldRun held (s2.setWait none)).setWait s2.gen.wait
    .next done.camResume.genResume

end Sys2Proof.Machine
end

