-- ==== Sys2Proof/Machine/Views.lean ====
section
/-! DEFINITION. Registers as they are read: those whose value follows from the rest of the state, and the rules for blocks not served
and domains not ON (22 R603-R605). -/

namespace Sys2Proof.Machine

open Sys2Proof

/-- A register whose value is one field at bit 0. -/
def low (w x : Nat) : Nat := x % 2 ^ w

/-- The low or high word of a 64-bit value, by the distance from the LO register. -/
def wordOf (x d : Nat) : Nat := if d = 0 then x % 2 ^ 32 else x / 2 ^ 32 % 2 ^ 32

/-- PORT_UP and LANE_LOCK of a group (04). -/
def State.grpStatus (s : State) (g : Nat) : Nat :=
  (List.range 8).foldl (fun n i =>
    let up := b2n (s.portState (8 * g + i) == 5) * 2 ^ i
    let lock := b2n (s.fbit (Fld.PRT_PORT_STATUS_PCS_LOCK g i))
    let lanes := if s.portEn (8 * g + i) then (2 ^ (2 ^ s.fget (Fld.PRT_PORT_CFG_LANES g i)) - 1) * 2 ^ (8 + i) else 0
    Nat.lor n (up + lock * lanes)) 0

/-- The counter PRT_MIB_SEL names (04 R147). -/
def State.mibSelected (s : State) (g : Nat) : Nat :=
  let k := s.fget (Fld.PRT_MIB_SEL_COUNTER g)
  if 18 < k then 0
  else Assoc.get (if s.fbit (Fld.PRT_MIB_SEL_LATCHED g) then s.ports.mibLatch else s.ports.mib) 0
    (256 * (8 * g + s.fget (Fld.PRT_MIB_SEL_PORT_IDX g)) + k)

/-- The counter FXE_PM_SEL names (05 R178). -/
def State.pmSelected (s : State) : Nat :=
  let k := s.fget Fld.FXE_PM_SEL_COUNTER
  let o := s.fget Fld.FXE_PM_SEL_OBJ
  let m := if s.fbit Fld.FXE_PM_SEL_LATCHED then s.ports.fxeLatch else s.ports.fxeCnt
  if s.fbit Fld.FXE_PM_SEL_KIND then (if 13 < k then 0 else Assoc.get m 0 (256 * o + k))
  else if 3 < k ∨ 127 < o then 0
  else Assoc.get m 0 (2 ^ 17 + 256 * o + k)

/-- The counter DLN_CNT_SEL names (13). -/
def State.dlnSelected (s : State) : Nat :=
  let k := s.fget Fld.DLN_CNT_SEL_COUNTER
  let port := s.fbit Fld.DLN_CNT_SEL_KIND
  let o := s.fget Fld.DLN_CNT_SEL_OBJ + (if port then 4096 else 0)
  if (if port then 10 else 6) < k then 0
  else Assoc.get (if s.fbit Fld.DLN_CNT_SEL_LATCHED then s.tm.dlnLatch else s.tm.dlnCnt) 0 (32 * o + k)

/-- The value BUF_SEL names (11 R346). -/
def State.bufSelected (s : State) : Nat :=
  let p := s.fget Fld.BUF_SEL_PORT
  let k := s.fget Fld.BUF_SEL_CLASS
  if s.fbit Fld.BUF_SEL_CLASS_TOTAL then s.cb k
  else
    match s.fget Fld.BUF_SEL_KIND with
    | 0 => s.pcb p k
    | 1 => s.pb p
    | 2 => s.account p k
    | _ => if 9 < s.fget Fld.BUF_SEL_REASON then 0 else Assoc.get s.tm.portDrops 0 (16 * p + s.fget Fld.BUF_SEL_REASON + 1)

/-- Populated lengths `32 j + 1` to `32 j + 32` of a family (07 R215). -/
def State.lenBits (s : State) (family j : Nat) : Nat :=
  (List.range 32).foldl (fun n i => n + b2n (s.lenCount family (32 * j + i + 1) != 0) * 2 ^ i) 0

/-- The length LPM_LEN_SEL names, when its family has it. -/
def State.lenSel (s : State) : Option (Nat × Nat) :=
  let f := s.fget Fld.LPM_LEN_SEL_FAMILY
  let n := s.fget Fld.LPM_LEN_SEL_LENGTH
  if n ≤ (if f = 0 then 32 else 128) then some (f, n) else none

/-- LPM_LEN_STATUS. -/
def State.lenStatus (s : State) (f n : Nat) : Nat :=
  let t := Assoc.find s.tab.lens (lenKey f n)
  let r := Assoc.find s.tab.filt (lenKey f n)
  let log2 := match t with | some t => t.log2 | none => 0
  let mig := match t with | some t => t.split.isSome | none => false
  let reb := match r with | some r => r.rebuild.isSome | none => false
  let ovl := match r with | some r => r.overload | none => false
  low 24 (s.lenCount f n) + log2 * 2 ^ 24 + b2n mig * 2 ^ 29 + b2n reb * 2 ^ 30 + b2n ovl * 2 ^ 31

def State.lenFilter (s : State) (f n : Nat) : Nat × Nat :=
  match Assoc.find s.tab.filt (lenKey f n) with
  | some r => (r.units, r.inserts)
  | none => (0, 0)

/-- BUF_REGION_STATE of a stack (11 R340). -/
def State.regionStates (s : State) (k : Nat) : Nat :=
  (List.range 8).foldl (fun n r =>
    let x := s.region (8 * k + r)
    n + x.state * 2 ^ (3 * r) + b2n x.held * 2 ^ (24 + r)) 0

/-- Free pages of a stack's ACTIVE regions (11 R321). -/
def State.stackFree (s : State) (k : Nat) : Nat :=
  (List.range 8).foldl (fun n r => if (s.region (8 * k + r)).state = regActive then n + (s.region (8 * k + r)).pages else n) 0

/-- The ELIGIBLE, YIELD_CLOSED and NO_ROOM bits of a port node (12 R358). -/
def State.portStatusBits (s : State) (n : Nat) : Nat :=
  let room := s.bindKind n != 1 || s.fifoRoom (s.bindPort n)
  b2n (s.eligible 4 n) + b2n (!s.conforms (sref 5 n)) * 2 ^ 10 + b2n (!room) * 2 ^ 11

/-- Device selected by FAB_REACH_SEL (14 R422): REACHABLE, LINKS and PIN. -/
def State.reachStatus (s : State) (d : Nat) : Nat :=
  b2n (s.tm.reachable.contains d) + (s.usableLinks d).length * 2 ^ 8 + (s.pinnedLink d).getD 0 * 2 ^ 16

/-- Links 32 w to 32 w + 31 that reach a device. -/
def State.reachLinks (s : State) (d w : Nat) : Nat :=
  (List.range 32).foldl (fun n j => n + b2n ((s.fabLink (32 * w + j)).reach.contains d) * 2 ^ j) 0

/-- Outputs toward which an input of the local switch holds a packet (14). -/
def State.switchWaiting (s : State) (i : Nat) : Nat :=
  (List.range 16).foldl (fun n o => n + b2n ([1, 2, 3].any fun lv => !(s.voqOf i o lv).isEmpty) * 2 ^ o) 0

/-- Bytes of the head entry of the error log (18 R523); 0 while it is empty. -/
def State.logHead (s : State) (w : Nat) : Nat :=
  match s.err.log with
  | e :: _ => leAt (s.entryBytes e) (4 * w) 4
  | [] => 0

/-- ERR_SRC_MAP as it is read (18 R526): a source below 137 shows the mapping of its own register. -/
def State.srcMapView (s : State) (n stored : Nat) : Nat :=
  let own :=
    if n ≤ 136 then (match s.sourceMap n with | (v, en, pf) => v + b2n en * 2 ^ 9 + pf * 2 ^ 10)
    else stored % 2 ^ 31
  own + b2n (s.levelPending n) * 2 ^ 31

/-- FWU_STATUS as it is read (20): MODE and PHASE as stored, the rest from the image store. -/
def State.fwuStatus (s : State) (stored : Nat) : Nat :=
  let ses := match s.fwu.session with
    | none => 0
    | some x => 2 ^ 5 + x.holder * 2 ^ 8 + x.holderChain * 2 ^ 12
  let fall := match s.fwu.handover with
    | some h => h.oldFollows && s.fwPhase == 3
    | none => false
  bitsAt stored 0 1 + s.fwu.running * 2 + bitsAt stored 2 3 * 4 + ses + b2n fall * 2 ^ 7

/-- The requesters that wait for a pool, a bit each (02 R80). -/
def State.poolWaiters (s : State) (p : Nat) : Nat :=
  match Assoc.find s.host.pools p with
  | some x => x.waiting.foldl (fun n w => Nat.lor n (2 ^ w.1)) 0
  | none => 0

/-- What a register holds as it is read: `base` is the offset of its row's first register, `i` and `j` its indices, `stored` its
stored value. -/
def State.regView (s : State) (base i j stored : Nat) : Nat :=
  if base < 0x1000000 then
    if base = Reg.HIF_POOL_STAT 0 then putBits stored 16 8 (s.poolWaiters i)
    else if base = Reg.CE_STATUS then putBits stored 1 1 (b2n s.ce.stalled.isSome)
    else if base = Reg.ERR_STATUS then putBits stored 0 7 s.err.log.length
    else if base = Reg.ERR_LOG_HEAD 0 then s.logHead i
    else if base = Reg.ERR_SRC_MAP 0 then s.srcMapView i stored
    else if base = Reg.ERR_VEC 0 then putBits stored 1 1 (b2n (s.vectorActive i))
    else if base = Reg.PMC_CNT_LO 0 0 ∨ base = Reg.PMC_CNT_HI 0 0 then wordOf (s.pmcShow s.pmcs.cnt i j) (base - Reg.PMC_CNT_LO 0 0)
    else if base = Reg.PMC_LAT_LO 0 0 ∨ base = Reg.PMC_LAT_HI 0 0 then wordOf (s.pmcShow s.pmcs.lat i j) (base - Reg.PMC_LAT_LO 0 0)
    else if Reg.TIM_DOM_STATE 0 ≤ base ∧ base ≤ Reg.TIM_DOM_SLEW_HI 0 then s.domView i (base - Reg.TIM_DOM_STATE 0)
    else if base = Reg.FWU_VERSION then s.runningBank.version
    else if base = Reg.FWU_BUILD then s.runningBank.le 12 4
    else if base = Reg.FWU_STATUS then s.fwuStatus stored
    else if base = Reg.FWU_BANK 0 then (s.fwBank i).state + (s.fwBank i).reason * 16
    else if base = Reg.FWU_BANK_VER 0 then (s.fwBank i).version
    else if base = Reg.FWU_SESSION_ID then (match s.fwu.session with | some x => x.id | none => 0)
    else if base = Reg.FWU_SESSION_CNT then
      (match s.fwu.session with | some x => x.chunks.length + x.params.count * 2 ^ 16 | none => 0)
    else if base = Reg.FWU_TRIAL_LEFT then s.trialLeft
    else stored
  else if base < 0x1600000 then
    if base = Reg.PRT_GRP_STATUS 0 then s.grpStatus i
    else if base = Reg.PRT_MIB_DATA_LO 0 ∨ base = Reg.PRT_MIB_DATA_HI 0 then wordOf (s.mibSelected i) (base - Reg.PRT_MIB_DATA_LO 0)
    else if base = Reg.FXE_PM_DATA_LO ∨ base = Reg.FXE_PM_DATA_HI then wordOf s.pmSelected (base - Reg.FXE_PM_DATA_LO)
    else if base = Reg.FXE_GRP_MGMT 0 then
      putBits (putBits stored 0 7 ((s.group i).mgmt.filter (·.channel == 0)).length) 8 7
        ((s.group i).mgmt.filter (·.channel == 1)).length
    else if Reg.FXE_PHY_DEF 0 ≤ base ∧ base ≤ Reg.FXE_PHY_RX_ID 0 then (if s.isFlexePhy i then stored else 0)
    else stored
  else if base < 0x1E00000 then
    if base = Reg.LPM_SLOTS then verStored lpmSlots s.tab.lpm
    else if base = Reg.LPM_OVF then s.ovfUsed
    else if base = Reg.LPM_NH_USED then s.tab.nh.length
    else if base = Reg.LPM_ECMP_USED then s.tab.ecmp.length
    else if base = Reg.LPM_MEMBER_FREE then 1048576 - blocksSize (s.tidyGroups ecmpGroups).tab.ecmpBlocks
    else if base = Reg.LPM_MEMBER_RUN then largestRun 1048576 (s.tidyGroups ecmpGroups).tab.ecmpBlocks
    else if base = Reg.LPM_POP_V4 then s.lenBits 0 0
    else if base = Reg.LPM_POP_V6 0 then s.lenBits 1 i
    else if base = Reg.LPM_LEN_STATUS then (match s.lenSel with | some (f, n) => s.lenStatus f n | none => 0)
    else if base = Reg.LPM_LEN_FLT then (match s.lenSel with | some (f, n) => (s.lenFilter f n).1 | none => 0)
    else if base = Reg.LPM_LEN_FLT_INS then (match s.lenSel with | some (f, n) => (s.lenFilter f n).2 | none => 0)
    else if base = Reg.LPM_HOLD_LEVEL 0 then (s.slice i).hold.length + ceilDiv (s.slice i).holdBytes 64 * 2 ^ 13
    else if base = Reg.EXM_USED_ONDIE then s.exmUsed 0
    else if base = Reg.EXM_USED_HBM then s.exmUsed 1
    else if base = Reg.EXM_OVF_ONDIE then s.exmOvfUsed 1
    else if base = Reg.EXM_OVF_HBM then s.exmOvfUsed 3
    else if base = Reg.EXM_LEARN_STATUS then s.tab.learnQ.length + s.tab.moveCands.length * 2 ^ 16
    else if base = Reg.EXM_TBL_CNT 0 then
      s.tab.exm.foldl (fun n v => if v.val.tbl = i then n + v.val.size else n) 0
    else if base = Reg.CAM_STATUS then putBits stored 0 16 s.tab.cam.length
    else if base = Reg.ACT_USED then s.tab.act.length
    else if base = Reg.ACT_POLB_USED then s.tab.polb.length
    else if base = Reg.ACT_REPL_USED then s.tab.repl.length
    else if base = Reg.ACT_REPL_MEMBER_FREE then 262144 - blocksSize (s.tidyGroups replGroups).tab.replBlocks
    else if base = Reg.ACT_REPL_MEMBER_RUN then largestRun 262144 (s.tidyGroups replGroups).tab.replBlocks
    else if base = Reg.FST_CACHE_USED then s.tab.fstCache.length
    else if base = Reg.FST_WB_LEVEL then s.tab.fstQueue.length
    else if base = Reg.RCL_FIFO 0 then
      (s.slice i).recirc.length + ceilDiv ((s.slice i).recirc.foldl (fun n p => n + p.bytes.length) 0) 1024 * 2 ^ 16
    else if base = Reg.RCL_REPL_LEVEL 0 then (s.slice i).repl.length
    else if base = Reg.EDT_ENCAP_USED then s.tab.encap.length
    else if base = Reg.EDT_TMPL_USED then s.tab.tmpl.length
    else stored
  else if base < 0x4000000 then
    if base = Reg.GEN_VISIBLE 0 then s.genVisible i s.activeGen
    else if base = Reg.GEN_STORED 0 then s.genStored i
    else if base = Reg.GEN_JOURNAL 0 then s.genJournal i
    else if base = Reg.HBT_SR_CFG - 0x3400000 ∨ base = Reg.HBT_RMW_CNT - 0x3400000 then 0
    else stored
  else
    if base = Reg.HBF_LATE_CNT + 0x3400000 then 0
    else if base = Reg.BUF_SUMP_STATUS then s.sharedFree
    else if base = Reg.BUF_SUMP_EXP then s.cellsUsed .expressReserve
    else if base = Reg.BUF_SUMP_REFILL then s.cellsUsed .refill
    else if base = Reg.BUF_CIST_FREE 0 then s.stackFree i
    else if base = Reg.BUF_CIST_QUEUES then (s.tm.queues.filter fun kv => kv.2.spilled).length
    else if base = Reg.BUF_REGION_STATE 0 then s.regionStates i
    else if base = Reg.BUF_SEL_DATA_LO ∨ base = Reg.BUF_SEL_DATA_HI then wordOf s.bufSelected (base - Reg.BUF_SEL_DATA_LO)
    else if base = Reg.SCH_PREC_FREE then 4096 - s.precUsed
    else if base = Reg.SCH_PORT_STATUS 0 then bitsAt stored 1 9 * 2 + s.portStatusBits i
    else if base = Reg.SHP_TOKENS_LO ∨ base = Reg.SHP_TOKENS_HI then
      wordOf (unsignedOf (((s.shaper s.shpSel).refill s.shapeTime).t) 64) (base - Reg.SHP_TOKENS_LO)
    else if base = Reg.DLN_CNT_DATA_LO ∨ base = Reg.DLN_CNT_DATA_HI then wordOf s.dlnSelected (base - Reg.DLN_CNT_DATA_LO)
    else if Reg.DLN_PORT_CFG 0 ≤ base ∧ base ≤ Reg.DLN_PORT_CCT_SEC_HI 0 ∧ s.isFlexePhy i then 0
    else if base = Reg.DLN_PORT_STATUS 0 then putBits stored 16 16 (ceilDiv (s.expressBytes i) 64)
    else if base = Reg.FAB_STATUS then ((List.range 160).filter fun l => s.fabState l == 3).length + s.tm.cflows.length * 2 ^ 8
    else if base = Reg.FAB_REACH_STATUS then s.reachStatus (s.fget Fld.FAB_REACH_SEL_DEV)
    else if base = Reg.FAB_REACH_DATA 0 then s.reachLinks (s.fget Fld.FAB_REACH_SEL_DEV) i
    else if base = Reg.FAB_LINK_REPLAY 0 then putBits stored 0 15 (s.fabLink i).replay.length
    else if base = Reg.FAB_PORT_STATUS 0 then b2n (s.creditStop i) + ceilDiv (s.fabricHeld i) 1024 * 2 ^ 8
    else if base = Reg.LSW_IN_STATUS 0 then s.switchWaiting i
    else stored

/-- The blocks served at the present point of Priming (21 R592, R593) and in recovery mode (20 R579). -/
def State.blockServed (s : State) (b : Nat) : Bool :=
  let phase := s.fget Fld.RST_STATUS_PHASE
  if phase = 10 then b == 0 || b == 9 || b == 10
  else if phase = 7 ∨ phase = 8 then true
  else b == 0 || b == 1 || b == 5 || b == 9 || b == 10

/-- A register as it is read (22 R603, R605), the counter window apart. -/
def State.regRead (s : State) (off : Nat) : Nat :=
  match regAt off with
  | none => 0
  | some (r, ix) =>
    let stored := (s.reg off).toNat
    if !s.blockServed ((blockOf off).getD 0) then 0
    else if !s.domOn (regDomain off) then keepFields Acc.kept r.fields stored 0
    else s.regView r.off (ix.headD 0) (ix.getD 1 0) stored

/-- A read by a function: the counter window answers only a function of PF_MASK (19 R557); `none` is no function. -/
def State.readBy (s : State) (f : Option Nat) (off : Nat) : Nat :=
  let off := off / 4 * 4
  if inPmcWindow off then
    let may := match f with | some f => bitAt (s.fget Fld.PMC_WIN_CFG_PF_MASK) f | none => true
    if may && s.blockServed 6 && s.domOn 1 then s.pmcWindow off else 0
  else s.regRead off

end Sys2Proof.Machine
end

