-- ==== Sys2Proof/Machine/Rings.lean ====
section
/-! DEFINITION. The rings of the host interface: doorbells and index writes (02 R58-R61), ring and queue configuration (02 R74, R75, 18
R526), the command engine (02 R63-R73) and the packet rings (02 R74-R77). -/

namespace Sys2Proof.Machine

open Sys2Proof

/-- The outcome of a register write (22 R603): applied in full; refused, in whole or in part, without a report; refused, in whole or in
part, and reported. -/
inductive Wr where
  | ok | rejected | reported
  deriving DecidableEq, Repr

/-! ### Index writes (R58, R59, R61) -/

/-- A doorbell value is accepted (R59). -/
def doorbellOk (p ci last k : Nat) : Bool :=
  decide (p < 2 ^ (k + 1)) && decide (occ p ci k ≤ 2 ^ k) && decide (occ last ci k ≤ occ p ci k)

/-- A consumer index written by software is applied (R61). -/
def consumerOk (c ci pi k : Nat) : Bool := decide (c < 2 ^ (k + 1)) && decide (occ c ci k ≤ occ pi ci k)

/-- A doorbell of a command ring. -/
def cmdDoorbell (n p : Nat) (s : State) : State × Wr :=
  if s.fbit Fld.CE_STATUS_HALTED ∨ s.ce.resetPending = true then (s, .rejected)
  else if doorbellOk p (s.fget (Fld.CE_CMD_CI_CI n)) (s.fget (Fld.CE_CMD_PI_PI n)) (s.fget (Fld.CE_CMD_SIZE_SIZE_LOG2 n)) then
    (s.fset (Fld.CE_CMD_PI_PI n) p, .ok)
  else (s.ceHalt n 8 p, .rejected)

/-- CE_CQ_CI. -/
def cqConsumer (m c : Nat) (s : State) : State × Wr :=
  if consumerOk c (s.fget (Fld.CE_CQ_CI_CI m)) (s.fget (Fld.CE_CQ_PI_PI m)) (s.fget (Fld.CE_CQ_SIZE_SIZE_LOG2 m)) then
    (s.fset (Fld.CE_CQ_CI_CI m) c, .ok)
  else (s, .reported)

/-- DMA_RQ_CI. -/
def rqConsumer (c : Nat) (s : State) : State × Wr :=
  if consumerOk c (s.fget Fld.DMA_RQ_CI_CI) (s.fget Fld.DMA_RQ_PI_PI) (s.fget Fld.DMA_RQ_SIZE_SIZE_LOG2) then
    (s.fset Fld.DMA_RQ_CI_CI c, .ok)
  else (s, .reported)

/-! ### Packet rings: receive ring n, transmit ring 64 + n (R74) -/

/-- The field of a receive ring, or of the transmit ring with the same layout. -/
def pktFld (r : Nat) (f : Nat → Fld) : Fld := if r < 64 then f r else { f (r - 64) with reg := (f (r - 64)).reg + 0x1000 }

def State.pktStopped (s : State) (r : Nat) : Bool := s.fbit (pktFld r Fld.HIF_RXR_CFG_STOPPED)
def State.pktEn (s : State) (r : Nat) : Bool := s.fbit (pktFld r Fld.HIF_RXR_CFG_EN)
def State.pktK (s : State) (r : Nat) : Nat := s.fget (pktFld r Fld.HIF_RXR_CFG_SIZE_LOG2)
def State.pktPi (s : State) (r : Nat) : Nat := s.fget (pktFld r Fld.HIF_RXR_PI_PI)
def State.pktCi (s : State) (r : Nat) : Nat := s.fget (pktFld r Fld.HIF_RXR_CI_CI)

/-- Posted descriptors that the ring may fetch: none while it is disabled, waits to be, or is stopped (R75). -/
def State.pktAvail (s : State) (r : Nat) : Nat :=
  if s.pktEn r && !s.pktStopped r && !s.host.ringDisabling.contains r then occ (s.pktPi r) (s.pktCi r) (s.pktK r) else 0

/-- Source 9 + n of a receive ring, 73 + n of a transmit ring, while its EN is set (18 R525). -/
def State.pktPulse (s : State) (r : Nat) : State := if s.pktEn r then s.pulse (9 + r) else s

/-- The index write-back of a packet ring. -/
def State.pktWriteBack (s : State) (r idx : Nat) : State :=
  s.writeIndex (pktFld r Fld.HIF_RXR_WB_LO_ADDR).reg (pktFld r Fld.HIF_RXR_WB_HI_ADDR).reg idx

/-- A fault of R74 stops the ring. -/
def State.pktStop (s : State) (r reason : Nat) : State :=
  ((s.fset (pktFld r Fld.HIF_RXR_CFG_STOPPED) 1).fset (pktFld r Fld.HIF_RXR_CFG_REASON) reason).pktPulse r

/-- The consumer index moves on by `n` descriptors, is shown and written back, and the ring's source pulses. -/
def State.pktAdvance (s : State) (r n : Nat) : State :=
  let ci := (s.pktCi r + n) % 2 ^ (s.pktK r + 1)
  ((s.fset (pktFld r Fld.HIF_RXR_CI_CI) ci).pktWriteBack r ci).pktPulse r

/-- A doorbell of a packet ring: ignored while it is stopped (R59). -/
def pktDoorbell (r p : Nat) (s : State) : State × Wr :=
  if s.pktStopped r then (s, .rejected)
  else if doorbellOk p (s.pktCi r) (s.pktPi r) (s.pktK r) then (s.fset (pktFld r Fld.HIF_RXR_PI_PI) p, .ok)
  else (s.pktStop r 1, .rejected)

/-- BASE_LO of a packet ring; it restarts a stopped ring (R74, R75). -/
def pktBase (r v : Nat) (s : State) : State × Wr :=
  if s.pktStopped r then
    let s1 := s.fset (pktFld r Fld.HIF_RXR_BASE_LO_ADDR) (bitsAt v 12 20)
    let s2 := ((s1.fset (pktFld r Fld.HIF_RXR_CFG_STOPPED) 0).fset (pktFld r Fld.HIF_RXR_CFG_REASON) 0).fset
      (pktFld r Fld.HIF_RXR_PI_PI) 0
    (((s2.fset (pktFld r Fld.HIF_RXR_CI_CI) 0).pktWriteBack r 0).pktPulse r, .ok)
  else if s.pktEn r then (s, .reported)
  else (s.fset (pktFld r Fld.HIF_RXR_BASE_LO_ADDR) (bitsAt v 12 20), .ok)

/-- BASE_HI, WB_LO and WB_HI of a packet ring, whose register has the one field `f`. -/
def pktPlain (r : Nat) (f : Fld) (v : Nat) (s : State) : State × Wr :=
  if s.pktEn r && !s.pktStopped r then (s, .reported) else (s.fset f (bitsAt v f.lo f.w), .ok)

/-- CFG of a packet ring (R75, 18 R526). BUFSZ_64 is reserved in the transmit set. -/
def pktCfg (r v : Nat) (s : State) : State × Wr :=
  let bufsz := pktFld r Fld.HIF_RXR_CFG_BUFSZ_64
  let changes := bitsAt v 0 5 != s.pktK r || (decide (r < 64) && bitsAt v 8 6 != s.fget bufsz)
  if bitsAt v 0 5 < 6 ∨ 16 < bitsAt v 0 5 then (s, .reported)
  else if changes && s.pktEn r && !s.pktStopped r then (s, .reported)
  else if !s.vectorInRange (s.ringPf r) (bitsAt v 16 9) then (s, .reported)
  else
    let s1 := s.fset (pktFld r Fld.HIF_RXR_CFG_SIZE_LOG2) (bitsAt v 0 5)
    let s2 := if r < 64 then s1.fset bufsz (bitsAt v 8 6) else s1
    let s3 := s2.fset (pktFld r Fld.HIF_RXR_CFG_VECTOR) (bitsAt v 16 9)
    let others := s.host.ringDisabling.filter (· != r)
    if bitAt v 28 then
      (({ s3 with host := { s3.host with ringDisabling := others } }).fset (pktFld r Fld.HIF_RXR_CFG_EN) 1, .ok)
    else if s.pktEn r then ({ s3 with host := { s3.host with ringDisabling := others ++ [r] } }, .ok)
    else (s3, .ok)

/-! ### Configuration of the command engine and the record queue (R75, 18 R526) -/

/-- CE_CTRL: a cleared bit waits until RING_DISABLE_DONE; a bit set again takes its clear back. -/
def ceCtrl (v : Nat) (s : State) : State × Wr :=
  let ring := fun (t : State) r =>
    let x := Assoc.get t.ce.rings ⟨[], [], false⟩ r
    let old := bitAt (t.fget Fld.CE_CTRL_RING_EN) r
    if bitAt v r then
      let t1 := t.fset Fld.CE_CTRL_RING_EN (Nat.lor (t.fget Fld.CE_CTRL_RING_EN) (2 ^ r))
      if x.disabling then { t1 with ce := { t1.ce with rings := Assoc.put t1.ce.rings ⟨[], [], false⟩ r { x with disabling := false } } } else t1
    else if old then
      { t with ce := { t.ce with rings := Assoc.put t.ce.rings ⟨[], [], false⟩ r { x with disabling := true } } }
    else t
  ((List.range 8).foldl ring s, .ok)

/-- A base, size or write-back field of command ring `n`. -/
def cmdPlain (n : Nat) (f : Fld) (v : Nat) (s : State) : State × Wr :=
  if bitAt (s.fget Fld.CE_CTRL_RING_EN) n then (s, .reported)
  else if f = Fld.CE_CMD_SIZE_SIZE_LOG2 n ∧ (bitsAt v 0 5 < 6 ∨ 16 < bitsAt v 0 5) then (s, .reported)
  else (s.fset f (bitsAt v f.lo f.w), .ok)

/-- A base or write-back field of completion queue `m`. -/
def cqPlain (m : Nat) (f : Fld) (v : Nat) (s : State) : State × Wr :=
  if s.fbit (Fld.CE_CQ_SIZE_EN m) then (s, .reported) else (s.fset f (bitsAt v f.lo f.w), .ok)

/-- CE_CQ_SIZE. -/
def cqSize (m v : Nat) (s : State) : State × Wr :=
  let k := bitsAt v 0 5
  let en := s.fbit (Fld.CE_CQ_SIZE_EN m)
  let others := s.ce.cqDisabling.filter (· != m)
  if k < 6 ∨ 16 < k then (s, .reported)
  else if en && k != s.fget (Fld.CE_CQ_SIZE_SIZE_LOG2 m) then (s, .reported)
  else
    let s1 := s.fset (Fld.CE_CQ_SIZE_SIZE_LOG2 m) k
    if bitAt v 31 then (({ s1 with ce := { s1.ce with cqDisabling := others } }).fset (Fld.CE_CQ_SIZE_EN m) 1, .ok)
    else if en then ({ s1 with ce := { s1.ce with cqDisabling := others ++ [m] } }, .ok)
    else (s1, .ok)

/-- CE_CQ_VEC. -/
def cqVec (m v : Nat) (s : State) : State × Wr :=
  if !s.vectorInRange (s.cqPf m) (bitsAt v 0 9) then (s, .reported)
  else
    ((((s.fset (Fld.CE_CQ_VEC_VECTOR m) (bitsAt v 0 9)).fset (Fld.CE_CQ_VEC_EN m) (bitsAt v 9 1)).fset
      (Fld.CE_CQ_VEC_COAL_CNT m) (bitsAt v 16 8)).fset (Fld.CE_CQ_VEC_COAL_TIME m) (bitsAt v 24 8), .ok)

/-- DMA_RQ_BASE_LO and DMA_RQ_BASE_HI. -/
def rqPlain (f : Fld) (v : Nat) (s : State) : State × Wr :=
  if s.fbit Fld.DMA_RQ_SIZE_EN then (s, .reported) else (s.fset f (bitsAt v f.lo f.w), .ok)

/-- DMA_RQ_SIZE. -/
def rqSize (v : Nat) (s : State) : State × Wr :=
  let k := bitsAt v 0 5
  let en := s.fbit Fld.DMA_RQ_SIZE_EN
  if k < 6 ∨ 16 < k then (s, .reported)
  else if en && k != s.fget Fld.DMA_RQ_SIZE_SIZE_LOG2 then (s, .reported)
  else
    let s1 := s.fset Fld.DMA_RQ_SIZE_SIZE_LOG2 k
    if bitAt v 31 then (({ s1 with dma := { s1.dma with rqDisabling := false } }).fset Fld.DMA_RQ_SIZE_EN 1, .ok)
    else if en then ({ s1 with dma := { s1.dma with rqDisabling := true } }, .ok)
    else (s1, .ok)

/-- DMA_RQ_VEC; source 8 belongs to PF0. -/
def rqVec (v : Nat) (s : State) : State × Wr :=
  if !s.vectorInRange 0 (bitsAt v 0 9) then (s, .reported)
  else ((s.fset Fld.DMA_RQ_VEC_VECTOR (bitsAt v 0 9)).fset Fld.DMA_RQ_VEC_EN (bitsAt v 9 1), .ok)

/-- CE_RESET.GO (R70). -/
def ceResetGo (v : Nat) (s : State) : State :=
  if !bitAt v 0 then s
  else if s.ce.executing.isEmpty then s.ceResetNow
  else { s with ce := { s.ce with resetPending := true } }

/-- An assignment register of eight resources: a function not enabled, or one that the current vector of a resource in use would lie
outside of (R45, 18 R526). `use i` gives the vector of resource `i` while it is in use. -/
def assignOk (s : State) (v : Nat) (use : Nat → Option Nat) : Bool :=
  (List.range 8).all fun i =>
    s.pfEnabled (bitsAt v (4 * i) 4) && (match use i with | some x => s.vectorInRange (bitsAt v (4 * i) 4) x | none => true)

/-- The vector of completion queue `m` while it is in use. -/
def State.cqUse (s : State) (m : Nat) : Option Nat := if s.fbit (Fld.CE_CQ_VEC_EN m) then some (s.fget (Fld.CE_CQ_VEC_VECTOR m)) else none

/-- The vector of packet ring `r` while it is in use. -/
def State.pktUse (s : State) (r : Nat) : Option Nat := if s.pktEn r then some (s.fget (pktFld r Fld.HIF_RXR_CFG_VECTOR)) else none

/-! ### Fetched command units (R63-R68) -/

/-- Opcode high byte, low bytes defined (R65). -/
def opcodesOf (subject : Nat) : List Nat :=
  match subject with
  | 1 => [0, 1, 2, 3]
  | 2 => [1, 2, 3, 4]
  | 3 => [1, 2, 3, 4, 5, 6, 0x20, 0x21]
  | 4 => [1, 2, 3, 4, 5, 6, 0x10, 0x11, 0x12, 0x13]
  | 5 => [1, 2, 3, 4, 5, 6, 7, 8]
  | 6 => [1, 2, 3, 4, 5, 6, 7]
  | 7 => [1, 2, 3, 4, 5, 6, 7, 8, 9, 10, 0x11, 0x12, 0x13, 0x14, 0x15, 0x16, 0x17, 0x18]
  | 8 => [1, 2, 3, 4, 5, 6, 0x10, 0x11, 0x12, 0x13]
  | 9 => [1, 2, 3, 4, 5, 6, 0x20, 0x21, 0x22, 0x23, 0x24, 0x25, 0x30, 0x31]
  | 10 => [1, 2, 3, 4, 5, 6, 7]
  | 11 => [1, 2, 3, 4, 5, 6, 7, 8]
  | 12 => [1, 2, 3, 4, 5, 6, 7]
  | 13 => [1, 2, 3, 4, 5, 6, 7, 8, 9]
  | 14 => [1]
  | 15 => [1, 2, 3]
  | _ => []

/-- LEN of the entry that begins at the first byte of `u`. -/
def entryLen (u : List Byte) : Nat := byteOr0 u 2 % 32

/-- The first condition of R67 that holds for the entry at `pos`, in the order of the table. -/
def State.entryFault (s : State) (ring pos : Nat) (u : List Byte) : Option Nat :=
  let k := s.fget (Fld.CE_CMD_SIZE_SIZE_LOG2 ring)
  let len := entryLen u
  let cq := byteOr0 u 8 % 8
  let resv := byteOr0 u 2 / 32 != 0 || byteOr0 u 3 / 8 != 0 || byteOr0 u 8 / 8 != 0 || leAt u 9 3 != 0 || leAt u 12 4 / 2 ^ 17 != 0
  if byteOr0 u 1 = 0 ∨ 15 < byteOr0 u 1 then some 1
  else if len = 0 ∨ 16 < len then some 2
  else if 2 ^ k < pos % 2 ^ k + len then some 3
  else if occ (s.fget (Fld.CE_CMD_PI_PI ring)) pos k < len then some 4
  else if leAt u 12 4 % 2 ^ 17 ≠ pos then some 5
  else if resv then some 6
  else if !s.fbit (Fld.CE_CQ_SIZE_EN cq) || s.cqPf cq != s.cmdPf ring then some 7
  else none

/-- The command that the units of a whole entry hold. -/
def entryOf (ring : Nat) (u : List Byte) : Entry :=
  { opcode := leAt u 0 2
    cmd := { ring := ring, len := entryLen u, fence := bitAt (byteOr0 u 3) 0, noCmpl := bitAt (byteOr0 u 3) 1, intr := bitAt (byteOr0 u 3) 2
             tag := leAt u 4 4, cq := byteOr0 u 8 % 8, pos := leAt u 12 4 % 2 ^ 17, arg0 := leAt u 16 8, arg1 := leAt u 24 8
             payload := (u.drop 32).take (32 * (entryLen u - 1)) } }

/-- Takes the whole entries of the units `u`, of which the first lies at `pos`. -/
def takeEntries : Nat → Nat → Nat → List Byte → State → State
  | 0, _, _, _, s => s
  | fuel + 1, ring, pos, u, s =>
    let x := Assoc.get s.ce.rings ⟨[], [], false⟩ ring
    let keep := fun (y : CeRing) => { s with ce := { s.ce with rings := Assoc.put s.ce.rings ⟨[], [], false⟩ ring y } }
    if u.length < 32 then keep { x with part := [] }
    else
      match s.entryFault ring pos u with
      | some reason => s.ceHalt ring reason pos
      | none =>
        let n := entryLen u
        if u.length < 32 * n then keep { x with part := u }
        else
          takeEntries fuel ring ((pos + n) % 2 ^ (s.fget (Fld.CE_CMD_SIZE_SIZE_LOG2 ring) + 1)) (u.drop (32 * n))
            (keep { x with part := [], fetched := x.fetched ++ [entryOf ring u] })

/-- The engine takes and starts nothing: it is halted or waits for a reset, or its domain is off. -/
def State.ceIdle (s : State) : Bool := s.fbit Fld.CE_STATUS_HALTED || s.ce.resetPending || s.off || s.err.fatal == .frozen

/-- Units of a fetch return: at most 16, below the doorbell, up to the end of the ring (R59, R60, R64, R72). -/
def execCommandFetchReturn (ring : Nat) (bytes : List Byte) (s : State) : Host.Outcome State Fault Refusal :=
  let k := s.fget (Fld.CE_CMD_SIZE_SIZE_LOG2 ring)
  let ci := s.fget (Fld.CE_CMD_CI_CI ring)
  let n := min (min 16 (bytes.length / 32)) (min (occ (s.fget (Fld.CE_CMD_PI_PI ring)) ci k) (2 ^ k - ci % 2 ^ k))
  if 8 ≤ ring ∨ s.ceIdle = true ∨ bitAt (s.fget Fld.CE_CTRL_RING_EN) ring = false ∨ n = 0 then .next s
  else
    let part := (Assoc.get s.ce.rings ⟨[], [], false⟩ ring).part
    let pos := (ci + 2 ^ (k + 1) - part.length / 32) % 2 ^ (k + 1)
    let ci' := (ci + n) % 2 ^ (k + 1)
    let s1 := (s.fset (Fld.CE_CMD_CI_CI ring) ci').writeIndex (Reg.CE_CMD_WB_LO ring) (Reg.CE_CMD_WB_HI ring) ci'
    .next (takeEntries 32 ring pos (part ++ bytes.take (32 * n)) s1)

/-! ### Starting commands (R71, R72) -/

/-- The head of a ring, when it may start: FENCE waits for every earlier command of the ring. -/
def State.startable (s : State) (ring : Nat) : Option Entry :=
  if bitAt (s.fget Fld.CE_CTRL_RING_EN) ring then
    match (Assoc.get s.ce.rings ⟨[], [], false⟩ ring).fetched with
    | e :: _ => if e.cmd.fence && s.ce.executing.any (fun x => x.cmd.ring == ring) then none else some e
    | [] => none
  else none

/-- Slots of a completion queue that are free and not reserved. -/
def State.cqSlots (s : State) (m : Nat) : Nat :=
  2 ^ s.fget (Fld.CE_CQ_SIZE_SIZE_LOG2 m)
    - occ (s.fget (Fld.CE_CQ_PI_PI m)) (s.fget (Fld.CE_CQ_CI_CI m)) (s.fget (Fld.CE_CQ_SIZE_SIZE_LOG2 m))
    - (s.ce.executing.filter fun e => e.cmd.cq == m).length

/-- A completion queue in which slots are reserved for a ring's commands. -/
def State.cqUsable (s : State) (m ring : Nat) : Bool :=
  s.fbit (Fld.CE_CQ_SIZE_EN m) && !s.ce.cqDisabling.contains m && s.cqPf m == s.cmdPf ring

/-- The command at the head of its ring starts. -/
def State.startEntry (s : State) (e : Entry) : State :=
  let x := Assoc.get s.ce.rings ⟨[], [], false⟩ e.cmd.ring
  let rings := Assoc.put s.ce.rings ⟨[], [], false⟩ e.cmd.ring { x with fetched := x.fetched.tail }
  let s1 := { s with ce := { s.ce with rings := rings, stalled := none, executing := s.ce.executing ++ [e] } }
  let s2 := s1.pmc 0x060 e.cmd.ring 0 1
  if (opcodesOf (e.opcode / 256)).contains (e.opcode % 256) then s2 else s2.complete e.cmd e.opcode stUnsupported 0 0

/-- The engine starts the next command: of the lowest-numbered ring that has a startable one. -/
def execCommandStart (s : State) : Host.Outcome State Fault Refusal :=
  if s.ceIdle ∨ 256 ≤ s.ce.executing.length then .next s
  else
    match (List.range 8).filterMap s.startable with
    | [] => .next s
    | e :: _ =>
      if !s.cqUsable e.cmd.cq e.cmd.ring then .next (s.ceHalt e.cmd.ring 7 e.cmd.pos)
      else if s.cqSlots e.cmd.cq = 0 then .next { s with ce := { s.ce with stalled := some e.cmd.cq } }
      else .next (s.startEntry e)

/-- COAL_TIME of a completion queue has passed since its first record not yet signalled (R73). -/
def execCoalesceTimer (m : Nat) (s : State) : Host.Outcome State Fault Refusal :=
  if s.ce.coalescing.contains m && !s.off then .next (s.fireCq m) else .next s

/-! ### A disabled ring or queue falls silent (R75) -/

/-- Resources of a disable: command ring n, completion queue 8 + m, receive ring 16 + n, transmit ring 80 + n, record queue 144. -/
def State.disableDone (s : State) (r : Nat) : State :=
  if r < 8 then
    let x := Assoc.get s.ce.rings ⟨[], [], false⟩ r
    if x.disabling && x.fetched.isEmpty then
      let rings := Assoc.put s.ce.rings ⟨[], [], false⟩ r { x with disabling := false }
      ({ s with ce := { s.ce with rings := rings } }).fset Fld.CE_CTRL_RING_EN (putBits (s.fget Fld.CE_CTRL_RING_EN) r 1 0)
    else s
  else if r < 16 then
    if s.ce.cqDisabling.contains (r - 8) && !s.ce.executing.any (fun e => e.cmd.cq == r - 8) then
      ({ s with ce := { s.ce with cqDisabling := s.ce.cqDisabling.filter (· != r - 8) } }).fset (Fld.CE_CQ_SIZE_EN (r - 8)) 0
    else s
  else if r < 144 then
    if s.host.ringDisabling.contains (r - 16) then
      ({ s with host := { s.host with ringDisabling := s.host.ringDisabling.filter (· != r - 16) } }).fset
        (pktFld (r - 16) Fld.HIF_RXR_CFG_EN) 0
    else s
  else if r = 144 ∧ s.dma.rqDisabling = true ∧ s.dma.due.isEmpty = true then
    ({ s with dma := { s.dma with rqDisabling := false } }).fset Fld.DMA_RQ_SIZE_EN 0
  else s

/-- Every fetch outstanding has returned and every write in flight has completed: the enable reads 0. -/
def execRingDisableDone (r : Nat) (s : State) : Host.Outcome State Fault Refusal :=
  if s.off then .next s else .next (s.disableDone r)

/-! ### Receive rings (R76, R81) -/

/-- Reserved bits of a receive descriptor are 0. -/
def rxDescOk (d : List Byte) : Bool :=
  bitsAt (byteOr0 d 13) 4 3 == 0 && leAt d 14 2 / 4 == 0 && leAt d 22 2 == 0 && leAt d 28 4 == 0

/-- Bytes 8–31 of a descriptor as the device writes it back: buffer `i` of `n`, with `len` bytes placed. -/
def RxPacket.desc (p : RxPacket) (i n len : Nat) : List Byte :=
  leBytes 2 len ++ leBytes 2 p.inPort ++ leBytes 1 p.reason
    ++ leBytes 1 (b2n (i == 0) + 2 * b2n (i + 1 == n) + 4 * b2n p.truncated + 8 * b2n p.lenConflict + 128)
    ++ leBytes 2 p.gen ++ leBytes 4 p.stampNs ++ leBytes 2 p.stampSec ++ leBytes 2 0 ++ leBytes 4 p.cookie ++ leBytes 4 0

/-- Data and write-back of buffer `i` of `n`: the data first (R62). -/
def State.rxBuffer (s : State) (p : RxPacket) (bufsz i n : Nat) (d : List Byte) : State :=
  let data := (p.bytes.drop (i * bufsz)).take bufsz
  let slot := (s.pktCi p.ring + i) % 2 ^ s.pktK p.ring
  let base := s.pair (Reg.HIF_RXR_BASE_LO p.ring) (Reg.HIF_RXR_BASE_HI p.ring)
  (s.emit (.hostWrite (leAt d 0 8) data)).emit (.hostWrite (base + 32 * slot + 8) (p.desc i n data.length))

/-- The receive engine delivers the oldest whole packet of a ring; `descs` are the descriptors it reads from the consumer index on. -/
def execRxDelivery (ring : Nat) (descs : List (List Byte)) (s : State) : Host.Outcome State Fault Refusal :=
  let waits := s.host.pools.any fun (kv : Nat × PoolState) => kv.2.waiting.any fun w => w.1 == 0
  if s.off ∨ s.err.fatal = .frozen ∨ waits = true then .next s
  else
    match s.host.rx.find? (fun p => p.ring == ring && p.complete) with
    | none => .next s
    | some p =>
      let s1 := { s with host := { s.host with rx := removeFirst (fun q => q.ring == ring && q.complete) s.host.rx } }
      let bufsz := 64 * s.fget (Fld.HIF_RXR_CFG_BUFSZ_64 ring)
      let n := ceilDiv p.bytes.length bufsz
      let ds := (List.range n).map fun i => descs.getD i []
      if bufsz = 0 ∨ s.pktAvail ring < n then .next (s1.satAdd Fld.HIF_RX_NOBUF_DROP_COUNT 1)
      else if ds.all rxDescOk = false then .next ((s1.satAdd Fld.HIF_RX_NOBUF_DROP_COUNT 1).pktStop ring 2)
      else .next ((ds.zipIdx.foldl (fun (t : State) x => t.rxBuffer p bufsz x.2 n x.1) s1).pktAdvance ring n)

/-! ### Transmit rings (R77) -/

/-- Reserved bits of a transmit descriptor are 0. -/
def txDescOk (d : List Byte) : Bool :=
  leAt d 8 2 / 2 ^ 14 == 0 && byteOr0 d 10 / 16 == 0 && byteOr0 d 11 / 16 == 0 && leAt d 14 2 == 0 && leAt d 16 4 / 2 ^ 20 == 0
    && leAt d 29 2 == 0 && byteOr0 d 31 % 128 == 0

/-- The descriptors of one packet, up to EOP, among those that are posted. -/
def packetDescs : Nat → List (List Byte) → Option (List (List Byte))
  | _, [] => none
  | 0, _ => none
  | n + 1, d :: ds => if bitAt (byteOr0 d 10) 0 then some [d] else (packetDescs n ds).map (d :: ·)

/-- REASON of the first descriptor at fault. -/
def descFault : List (List Byte) → Option Nat
  | [] => none
  | d :: ds =>
    if !txDescOk d then some 2
    else if leAt d 8 2 % 2 ^ 14 = 0 ∨ 9600 < leAt d 8 2 % 2 ^ 14 then some 3
    else descFault ds

/-- Slots of the packet's descriptors that are written back. -/
def State.wbSlots (s : State) (ring : Nat) (ds : List (List Byte)) : List Nat :=
  ds.zipIdx.filterMap fun x =>
    if bitAt (byteOr0 x.1 10) 3 || (bitAt (byteOr0 x.1 10) 0 && bitAt (byteOr0 x.1 10) 1 && bitAt (byteOr0 x.1 10) 2) then
      some ((s.pktCi (64 + ring) + x.2) % 2 ^ s.pktK (64 + ring))
    else none

/-- A host packet on its way. -/
def hostPkt (id : Nat) (md : Meta) (bytes : List Byte) (direct : Option (Nat × List Nat)) : Pkt :=
  { id := id, md := md, bytes := bytes, complete := true, errored := false, late := false, poison := false, maxFrame := 9600, inRate := 0
    fromFabric := false, ldtV := false, direct := direct, link := 0 }

/-- Direct injection into a queue (01 R20, 03 R113, 10 R299, 15 R457). -/
def State.injectDirect (s : State) (ring : Nat) (d : List Byte) (bytes : List Byte) (slots : List Nat) (eop : Nat) : State :=
  match s.stampGen 144 s.nowQns with
  | (gen, s1) =>
    match (s1.drainInc gen).newId with
    | (id, s2) =>
      let ts := bitAt (byteOr0 d 10) 2
      let m := freshMeta s.nowQns gen 0xFFFF 0
      let md := { m with flags := withBit (withBit 0 flagHost true) flagTsReq ts, pktLen := bytes.length, ptpOp := b2n ts
                         encap := if ts then ring + 64 * eop else 0 }
      s2.toInput 17 (s2.intoQueue (leAt d 16 4 % 2 ^ 20) (hostPkt id md bytes (some (ring, slots))))

/-- Pipeline injection into a slice; stamp and generation come at the grant of its slot. -/
def State.injectSlice (s : State) (slice : Nat) (d : List Byte) (bytes : List Byte) : State :=
  match s.newId with
  | (id, s1) =>
    let md := { freshMeta 0 0 (leAt d 12 2) 0 with flags := withBit 0 flagHost true, pktLen := bytes.length }
    let x := s1.slice slice
    s1.setSlice slice { x with inject := x.inject ++ [hostPkt id md bytes none] }

/-- Descriptors of a packet that leaves the ring at once are written back with a status; TX_STAMP_NS is a free value (point 4). -/
def State.txEnd (s : State) (ring : Nat) (slots : List Nat) (status : Nat) : State :=
  s.directDone (hostPkt 0 (freshMeta 0 0 0 0) [] (some (ring, slots))) none status

/-- A transmit ring reads the next packet: `descs` from the consumer index on, `bufs` the bytes of their buffers. -/
def execTxDescriptorFetch (ring : Nat) (descs bufs : List (List Byte)) (s : State) : Host.Outcome State Fault Refusal :=
  if 64 ≤ ring ∨ s.off = true ∨ s.err.fatal = .frozen then .next s
  else
    match packetDescs (s.pktAvail (64 + ring)) descs with
    | none => .next s
    | some ds =>
      match descFault ds with
      | some reason => .next (s.pktStop (64 + ring) reason)
      | none =>
        let bytes := ds.zipIdx.flatMap fun x => (bufs.getD x.2 []).take (leAt x.1 8 2 % 2 ^ 14)
        let total := ds.foldl (fun n d => n + leAt d 8 2 % 2 ^ 14) 0
        let slots := s.wbSlots ring ds
        let d := ds.headD []
        let slice := byteOr0 d 11 % 16
        let eop := (s.pktCi (64 + ring) + ds.length - 1) % 2 ^ s.pktK (64 + ring)
        if 9600 < total then .next ((s.txEnd ring slots 3).pktAdvance (64 + ring) ds.length)
        else if bitAt (byteOr0 d 10) 1 then
          .next ((s.injectDirect ring d bytes slots eop).pktAdvance (64 + ring) ds.length)
        else if s.domOn (3 + slice) = false then .next ((s.txEnd ring slots 2).pktAdvance (64 + ring) ds.length)
        else if 256 ≤ (s.slice slice).inject.length then .next s
        else .next (((s.injectSlice slice d bytes).txEnd ring slots 0).pktAdvance (64 + ring) ds.length)

end Sys2Proof.Machine
end

