-- ==== Sys2Proof/Machine/Pools.lean ====
section
/-! DEFINITION. The 8 MiB of host-path memory and the buffer pool manager (02 R78-R80). -/

namespace Sys2Proof.Machine

open Sys2Proof

/-! ### Host-path memory -/

/-- The canonical form: addresses strictly rising, no entry equal to what an unlisted address reads as. -/
def Memory.wf (m : List Host.Cell) : Bool := Assoc.wf (fun _ => (0 : Byte)) m

/-- A byte; an unlisted address reads 0. -/
def Memory.read (m : List Host.Cell) (a : Nat) : Byte := Assoc.get m 0 a

/-- A byte is written. -/
def Memory.write (m : List Host.Cell) (a : Nat) (b : Byte) : List Host.Cell := Assoc.put m 0 a b

/-- `n` bytes from an address. -/
def Memory.readBytes (m : List Host.Cell) (a n : Nat) : List Byte := (List.range n).map fun i => Memory.read m (a + i)

/-- Bytes are written, lowest address first. -/
def Memory.writeBytes (m : List Host.Cell) (a : Nat) : List Byte → List Host.Cell
  | [] => m
  | b :: bs => Memory.writeBytes (Memory.write m a b) (a + 1) bs

def State.hostMem (s : State) (a n : Nat) : List Byte := Memory.readBytes s.host.mem a n

def State.setHostMem (s : State) (a : Nat) (bs : List Byte) : State :=
  { s with host := { s.host with mem := Memory.writeBytes s.host.mem a bs } }

/-! ### Pools -/

/-- The mark that ends a free list (R79). -/
def noBucket : Nat := 2 ^ 64 - 1

def pool0 : PoolState := ⟨noBucket, []⟩

def State.pool (s : State) (p : Nat) : PoolState := Assoc.get s.host.pools pool0 p

def State.setPool (s : State) (p : Nat) (x : PoolState) : State :=
  { s with host := { s.host with pools := Assoc.put s.host.pools pool0 p x } }

def State.poolEn (s : State) (p : Nat) : Bool := s.fbit (Fld.HIF_POOL_CFG_EN p)

/-- Base offset, bucket size and bucket count of a pool. -/
def State.poolBase (s : State) (p : Nat) : Nat := 256 * s.fget (Fld.HIF_POOL_BASE_OFFSET p)
def State.poolSize (s : State) (p : Nat) : Nat := 2 ^ s.fget (Fld.HIF_POOL_CFG_BSIZE_LOG2 p)
def State.poolCount (s : State) (p : Nat) : Nat := s.fget (Fld.HIF_POOL_CFG_COUNT p)

/-- Whether a pointer names a bucket of a pool. -/
def State.inPool (s : State) (p a : Nat) : Bool :=
  decide (s.poolBase p ≤ a) && decide (a < s.poolBase p + s.poolCount p * s.poolSize p) && (a - s.poolBase p) % s.poolSize p == 0

/-- A pool's layout keeps the rules of R78. -/
def State.poolOk (s : State) (p : Nat) : Bool :=
  let k := s.fget (Fld.HIF_POOL_CFG_BSIZE_LOG2 p)
  let e := s.poolBase p + s.poolCount p * s.poolSize p
  decide (8 ≤ k) && decide (k ≤ 14) && decide (e ≤ 2 ^ 23) &&
    (List.range 8).all fun q =>
      q == p || !s.poolEn q || decide (e ≤ s.poolBase q) || decide (s.poolBase q + s.poolCount q * s.poolSize q ≤ s.poolBase p)

/-- Threads the free list through `n` buckets from `a` on, in rising order. -/
def threadList : Nat → Nat → Nat → List Host.Cell → List Host.Cell
  | 0, _, _, m => m
  | n + 1, a, size, m => threadList n (a + size) size (Memory.writeBytes m a (leBytes 8 (if n = 0 then noBucket else a + size)))

/-- A pointer of a free list is bad: the pool freezes (R79). -/
def State.freezePool (s : State) (p : Nat) : State := (s.fset (Fld.HIF_POOL_STAT_FROZEN p) 1).raiseError 0x0102 p

/-- Takes the head of a pool's free list for a requester, when it has one. -/
def State.takeBucket (s : State) (p requester : Nat) : State :=
  let x := s.pool p
  if !s.inPool p x.head then s.freezePool p
  else
    let s1 := (s.setPool p { x with head := leNat (s.hostMem x.head 8) }).fset (Fld.HIF_POOL_STAT_FREE p) (s.fget (Fld.HIF_POOL_STAT_FREE p) - 1)
    { s1 with host := { s1.host with buckets := s1.host.buckets ++ [(p, x.head, requester)] } }

/-- A pool gives nothing: its list has ended, or it is frozen. -/
def State.poolEmpty (s : State) (p : Nat) : Bool := (s.pool p).head == noBucket || s.fbit (Fld.HIF_POOL_STAT_FROZEN p)

/-- The waiting requester with the lowest number. -/
def lowestWaiter (ws : List (Nat × Nat)) : Option (Nat × Nat) :=
  ws.foldl (fun m w => match m with | some x => if w.1 < x.1 then some w else m | none => some w) none

/-- Requesters that wait for a pool take its buckets, the lowest number first. -/
def serveWaiters : Nat → Nat → State → State
  | 0, _, s => s
  | fuel + 1, p, s =>
    if s.poolEmpty p then s
    else
      match lowestWaiter (s.pool p).waiting with
      | none => s
      | some w =>
        let s1 := s.takeBucket p w.1
        if s1.fbit (Fld.HIF_POOL_STAT_FROZEN p) then s1
        else serveWaiters fuel p (s1.setPool p { s1.pool p with waiting := removeFirst (· == w) (s1.pool p).waiting })

/-- HIF_POOL_BASE: written while the pool is disabled. -/
def poolBase (p v : Nat) (s : State) : State × Wr :=
  if s.poolEn p then (s, .rejected) else (s.fset (Fld.HIF_POOL_BASE_OFFSET p) (bitsAt v 8 15), .ok)

/-- A pool is enabled: its free list is built, and those that wait for it are served. -/
def State.poolStart (s : State) (p : Nat) : State :=
  let n := s.poolCount p
  let m := threadList n (s.poolBase p) (s.poolSize p) s.host.mem
  let s1 := { s with host := { s.host with mem := m, buckets := s.host.buckets.filter fun b => b.1 != p } }
  let s2 := s1.setPool p { s1.pool p with head := if n = 0 then noBucket else s.poolBase p }
  serveWaiters 8 p ((((s2.fset (Fld.HIF_POOL_STAT_FREE p) n).fset (Fld.HIF_POOL_STAT_FROZEN p) 0).fset (Fld.HIF_POOL_CFG_CFG_ERR p) 0).fset
    (Fld.HIF_POOL_CFG_EN p) 1)

/-- HIF_POOL_CFG: the layout changes only while EN is 0; an enable that breaks the rules of R78 leaves EN 0 and sets CFG_ERR. -/
def poolCfg (p v : Nat) (s : State) : State × Wr :=
  let store := fun (t : State) => (t.fset (Fld.HIF_POOL_CFG_BSIZE_LOG2 p) (bitsAt v 0 4)).fset (Fld.HIF_POOL_CFG_COUNT p) (bitsAt v 4 16)
  if s.poolEn p then
    if bitsAt v 0 20 ≠ bitsAt (s.reg (Reg.HIF_POOL_CFG p)).toNat 0 20 then (s, .rejected)
    else if bitAt v 31 then (s, .ok)
    else
      ((((s.setPool p { s.pool p with head := noBucket }).fset (Fld.HIF_POOL_CFG_EN p) 0).fset (Fld.HIF_POOL_STAT_FREE p) 0).fset
        (Fld.HIF_POOL_STAT_FROZEN p) 0, .ok)
  else
    let s1 := store s
    if !bitAt v 31 then (s1, .ok)
    else if s1.poolOk p then (s1.poolStart p, .ok)
    else (s1.fset (Fld.HIF_POOL_CFG_CFG_ERR p) 1, .rejected)

/-- The enabled pool with the smallest buckets of at least `size` bytes; of two, the lower numbered. -/
def State.poolFor (s : State) (size : Nat) : Option Nat :=
  ((List.range 8).filter fun p => s.poolEn p && decide (size ≤ s.poolSize p)).foldl
    (fun m p => match m with | some q => if s.poolSize p < s.poolSize q then some p else m | none => some p) none

/-- A requester asks for a bucket of `size` bytes: it takes the head of the pool's list, or waits. -/
def execBucketAlloc (requester size : Nat) (s : State) : Host.Outcome State Fault Refusal :=
  match (if s.off ∨ 7 < requester then none else s.poolFor size) with
  | none => .next s
  | some p =>
    let wait := fun (t : State) => t.setPool p { t.pool p with waiting := (t.pool p).waiting ++ [(requester, size)] }
    if s.poolEmpty p then .next (wait s)
    else
      let s1 := s.takeBucket p requester
      .next (if s1.fbit (Fld.HIF_POOL_STAT_FROZEN p) then wait s1 else s1)

/-- A bucket is freed: it goes to the lowest waiting requester, or becomes the head of the list. -/
def execBucketFree (p a : Nat) (s : State) : Host.Outcome State Fault Refusal :=
  if s.off ∨ (s.host.buckets.any fun b => b.1 == p && b.2.1 == a) = false then .next s
  else
    let s1 := { s with host := { s.host with buckets := removeFirst (fun b => b.1 == p && b.2.1 == a) s.host.buckets } }
    match lowestWaiter (s1.pool p).waiting with
    | some w =>
      let s2 := { s1 with host := { s1.host with buckets := s1.host.buckets ++ [(p, a, w.1)] } }
      .next (s2.setPool p { s2.pool p with waiting := removeFirst (· == w) (s2.pool p).waiting })
    | none =>
      let s2 := s1.setHostMem a (leBytes 8 (s1.pool p).head)
      .next ((s2.setPool p { s2.pool p with head := a }).fset (Fld.HIF_POOL_STAT_FREE p) (s2.fget (Fld.HIF_POOL_STAT_FREE p) + 1))

end Sys2Proof.Machine
end

