-- ==== Sys2Proof/Machine/Rst.lean ====
section
/-! DEFINITION. Reset levels, Priming and READY (21 R585-R596), and the endpoint's reset and link (02 R42, 21 R589). -/

namespace Sys2Proof.Machine

open Sys2Proof

/-! ### Power-on reset -/

/-- POR_N is held low for `held` ns; less than 1 µs is ignored. -/
def execPorNAssert (held : Nat) (s : State) : Host.Outcome State Fault Refusal :=
  if held < 1000 then .next s else .next s.powerOnReset

/-! ### Choice of the boot bank (20 R578, 21 R593) -/

/-- The banks to try, in order. -/
def State.bootOrder (s : State) : List Nat :=
  let st := fun k => (s.fwBank k).state
  let first := fun x => (List.range 2).find? fun k => st k == x
  let chosen := ((first bankActive).orElse fun _ => first bankPrevious).orElse fun _ => first bankReady
  match chosen with
  | none => []
  | some k => k :: (if [bankActive, bankPrevious, bankReady].contains (st (1 - k)) then [1 - k] else [])

/-- Tries banks: one that does not verify, or whose firmware does not report its services, is FAILED with REASON 1. -/
def State.bootFrom (s : State) (noServices : List Nat) : List Nat → State × Option Nat
  | [] => (s, none)
  | k :: ks =>
    if s.bankVerifies k && !noServices.contains k then
      let s1 := { s with fwu := { s.fwu with running := k } }
      (if (s.fwBank k).state = bankPrevious then s1.markBank k bankActive 0 else s1, some k)
    else (s.markBank k bankFailed 1).bootFrom noServices ks

/-- Recovery mode (20 R579, R580): the target is bank 0, unless bank 0 alone could run. -/
def State.enterRecovery (s : State) : State :=
  let good := fun k => [bankReady, bankPrevious, bankActive].contains (s.fwBank k).state
  let target := if good 0 && !good 1 then 1 else 0
  let s1 := { s with fwu := { s.fwu with running := 1 - target } }
  let s2 := match s1.fwu.session with
    | some x => if x.params.full then s1 else s1.abortSession x
    | none => s1
  ((s2.fset Fld.FWU_RECOVERY_ARM 0).fset Fld.FWU_STATUS_MODE 1).fset Fld.RST_STATUS_PHASE 10

/-- Priming stops at a step (21 R593). -/
def State.primingFails (s : State) (step : Nat) : State :=
  (s.fset Fld.RST_STATUS_FAIL_STEP step).fset Fld.RST_STATUS_PHASE 9

/-! ### Priming (21 R592) -/

/-- The configuration record is loaded: functions and vectors (02 R42); none means that it does not pass its CRC. -/
def State.loadConfig (s : State) (pfs : List (Nat × Nat)) : State :=
  let s1 := { s with host := { s.host with configLoaded := true } }
  if pfs.isEmpty then s1
  else
    (List.range 8).foldl (fun (t : State) f =>
      let x := pfs.getD f (0, 0)
      ((t.fset (Fld.HIF_PF_CFG_EN f) (b2n (f == 0 || x.2 != 0))).fset (Fld.HIF_PF_CFG_VEC_BASE f) x.1).fset
        (Fld.HIF_PF_CFG_VEC_COUNT f) x.2) s1

/-- Step 4: every stack is trained; a TM stack that fails is FAILED and its regions OUT (17 R516). -/
def State.trainStacks (s : State) (tmBad : List Nat) : State :=
  let s1 := (List.range 4).foldl (fun (t : State) k => t.fset (Fld.HBF_STACK_STATUS_STATE k) 2) s
  let out := fun (t : State) r => t.setRegion r { t.region r with state := regOut }
  (List.range 6).foldl (fun (t : State) k =>
    if tmBad.contains k then
      ((stackRegions k).foldl out (t.fset (Fld.HBT_STACK_STATUS_STATE k) 4)).fset Fld.RST_STATUS_DEGRADED 1
    else t.fset (Fld.HBT_STACK_STATUS_STATE k) 2) s1

/-- Base microcode in bank 0: the running image's section when it has one (06 R204). -/
def State.installBase (s : State) : State :=
  match s.runningBank.ucode with
  | some bytes => s.installBank 0 (bank0.write 0 bytes)
  | none => s

/-- The reference of CLK_TIME as step 1 finds it (15 R441). -/
def State.lockPll (s : State) (noRef : Bool) : State :=
  let s1 := (s.fset Fld.TIM_STATUS_REF_PRESENT (b2n (!noRef))).fset Fld.TIM_STATUS_PLL_LOCK (b2n (!noRef))
  if noRef then s1.setEvent Fld.TIM_EVENT_REF_LOSS else s1

/-- Step durations. -/
def State.stepTimes (s : State) (ms : List Nat) : State :=
  (List.range 6).foldl (fun (t : State) k => t.fset (Fld.RST_STEP_MS_MS (k + 1)) (ms.getD k 0)) s

/-- Steps 4 to 6, after firmware has started. -/
def State.primeDevice (s : State) (r : PrimeRun) : State :=
  let s1 := { s with rst := { s.rst with firmwareUp := true } }
  if !r.feBad.isEmpty then s1.primingFails 4
  else
    let s2 := s1.trainStacks r.tmBad
    if 2 ≤ r.modulesBad.length then s2.primingFails 5
    else
      let s3 := (if r.modulesBad.isEmpty then s2 else s2.fset Fld.RST_STATUS_DEGRADED 1).installBase
      if s3.fbit Fld.RST_CFG_HOLD then s3.fset Fld.RST_STATUS_PHASE 7
      else { s3.fset Fld.RST_STATUS_PHASE 6 with rst := { s3.rst with released := true } }

/-- Reset release: the straps are sampled when POR_N rises, and Priming runs up to the hold point. It does not begin while an instruction of
the test access port holds the balls (23 R620). -/
def execPrimingStart (r : PrimeRun) (s : State) : Host.Outcome State Fault Refusal :=
  if s.fget Fld.RST_STATUS_PHASE ≠ 1 ∨ s.pwr.collapsed = true ∨ s.pwr.tripped = true ∨ s.rst.jtagHolds = true then .next s
  else
    let s0 := if s.rst.porLow then
        ({ s with rst := { s.rst with porLow := false, strapChain := r.chain % 64, strapHold := r.hold } }).strapRegs
      else s
    let s1 := ((s0.stepTimes r.ms).lockPll r.noRef).loadConfig r.pfs
    if r.noDirectory ∨ s1.fbit Fld.FWU_RECOVERY_ARM = true then .next s1.enterRecovery
    else
      match s1.bootFrom r.noServices s1.bootOrder with
      | (s2, none) => .next s2.enterRecovery
      | (s2, some _) => .next (s2.primeDevice r)

/-! ### The hold point and READY (21 R594-R596) -/

/-- RELEASE, or HOLD cleared, at the hold point. -/
def State.release (s : State) : State × Wr :=
  if s.fget Fld.RST_STATUS_PHASE ≠ 7 then (s, .rejected)
  else if bitAt (s.runningBank.le 24 2) (s.fget Fld.GLB_COMPAT_PROFILE_PROFILE) then
    ({ s.fset Fld.RST_STATUS_REL_ERR 0 with rst := { s.rst with released := true } }, .ok)
  else (s.fset Fld.RST_STATUS_REL_ERR 1, .ok)

/-- TIM_CFG.REF_FREQ changes at the hold point: the PLL relocks, and the device-time counters are loaded with 0 s. -/
def State.relock (s : State) : State :=
  if s.fget Fld.RST_STATUS_PHASE = 7 then
    { s.fset Fld.TIM_STATUS_PLL_LOCK 0 with tim := { s.tim with dom0 := timeZero, dom1 := timeZero } }
  else s

/-- A boot from a READY bank starts its trial at the end of Priming (20 R578). -/
def State.bootTrial (s : State) : State :=
  let k := s.fwu.running
  if s.runningBank.state ≠ bankReady then s
  else
    let h : Handover := ⟨k, (bankReady, 0), false, s.fget Fld.FWU_CFG_WINDOW_S, none, s.nowNs, false, false, false⟩
    ({ s.markBank k bankTrial 0 with fwu := { (s.markBank k bankTrial 0).fwu with handover := some h } }).setFwPhase 3

/-- READY: device time stands as 15 R445 gives it, the wellhead sends discovery, THERM_TRIP_N is released. -/
def execReady (s : State) : Host.Outcome State Fault Refusal :=
  let phase := s.fget Fld.RST_STATUS_PHASE
  if s.off ∨ s.rst.released = false ∨ (phase ≠ 6 ∧ phase ≠ 7) then .next s
  else
    let s1 := (((s.fset Fld.RST_STATUS_PHASE 8).fset Fld.RST_STATUS_READY 1).fset Fld.TIM_STATUS_PLL_LOCK
      (s.fget Fld.TIM_STATUS_REF_PRESENT)).fset Fld.TIM_STATUS_STAMP_DOM 0
    let s2 := { s1 with rst := { s1.rst with released := false }, tim := { s1.tim with dom0 := timeZero, dom1 := timeZero } }
    let s3 := if s2.pwr.thermTrip then ({ s2 with pwr := { s2.pwr with thermTrip := false } }).emit (.pin 2 true) else s2
    let s4 := if s3.fget Fld.IGL_CTRL_ROLE = 1 then
        ((({ s3 with chain := { s3.chain with active := true } }).fset Fld.IGL_STATUS_WELLHEAD_ID (s3.fget Fld.IGL_ID_CHAIN_ID)).emit
          (.discovery true)).emit (.discovery false)
      else s3
    let down := fun (t : State) (en up : Fld) => if t.fbit en then t else t.fset up 0
    .next (down (down s4 Fld.IGL_CTRL_EAST_EN Fld.IGL_STATUS_EAST_UP) Fld.IGL_CTRL_WEST_EN Fld.IGL_STATUS_WEST_UP).bootTrial

/-! ### Die reset (21 R588) -/

/-- Whether an opcode's subject targets a die (0 FE, 1 TM). -/
def dieOpcode (die opcode : Nat) : Bool :=
  let sub := opcode / 256
  if die = 0 then decide (3 ≤ sub ∧ sub ≤ 7) || sub == 10 else sub == 8 || sub == 9

/-- Commands in execution that target a die complete with STATE. -/
def State.dieCommands (s : State) (die : Nat) : State :=
  (s.ce.executing.filter fun e => dieOpcode die e.opcode).foldl (fun (t : State) e => t.complete e.cmd e.opcode stState 0 0) s

/-- Every packet inside the device is dropped, and every drain counter is 0. -/
def State.losePackets (s : State) : State :=
  let empty := fun (kv : Nat × Queue) => (kv.1, { kv.2 with pkts := [], pages := [], headRead := 0, tailClosed := false, spilled := false })
  let region := fun (t : State) r => t.setRegion r { t.region r with bump := 0, free := [], used := 0 }
  let s1 := { s with path := pathReset
                     host := { s.host with rx := [] }
                     ports := { s.ports with rx := [] }
                     tm := { s.tm with inputs := [], queues := s.tm.queues.map empty, leaving := [], cutQ := [], ptx := [], voq := []
                                       egressIn := [], cellWait := [], reorder := [], refilling := [], scavenge := [] } }
  let s2 := (List.range 48).foldl region s1
  let s3 := (s2.tm.queues.map (·.1)).foldl (fun (t : State) q => rebacklog 4 0 q t) s2
  (List.range 4).foldl (fun (t : State) g => t.fset (Fld.GEN_DRAIN_COUNT g) 0) s3

/-- What an FE die reset takes: registers of the die, tables, generations, ports, microcode (20 R586, 03 R93, 06 R204). -/
def State.loseFe (s : State) : State :=
  let s1 := s.resetRegs (fun off => decide (3 ≤ regDomain off) && decide (regDomain off ≤ 28)) Acc.kept
  let fe := fun (kv : Nat × Nat) => decide (8 ≤ kv.1)
  { s1 with
    gen := genReset, par := parReset, tab := tabReset, ports := portsReset, path := pathReset
    hbm := { s1.hbm with act := s1.hbm.act.filter fun kv => decide (8 * 1024 ≤ kv.1)
                         retries := s1.hbm.retries.filter fun kv => decide (8 * 32 ≤ kv.1)
                         retrains := s1.hbm.retrains.filter fun kv => decide (8 * 32 ≤ kv.1)
                         ueSec := s1.hbm.ueSec.filter fe
                         poison := s1.hbm.poison.filter fun u => decide (2 ^ 30 ≤ u) } }.installBase

/-- What a TM die reset takes: registers of the die, queues, buffers, shapers, fabric set-up, the counters of PMC bank 1. -/
def State.loseTm (s : State) : State :=
  let s1 := s.resetRegs (fun off => decide (29 ≤ regDomain off)) Acc.kept
  { s1 with
    tm := { tmReset with nextId := s1.tm.nextId }
    pmcs := { s1.pmcs with cnt := s1.pmcs.cnt.filter fun kv => decide (kv.1 < 2048)
                           lat := s1.pmcs.lat.filter fun kv => decide (kv.1 < 2048) }
    hbm := { s1.hbm with act := s1.hbm.act.filter fun kv => decide (kv.1 < 8 * 1024)
                         retries := s1.hbm.retries.filter fun kv => decide (kv.1 < 8 * 32)
                         retrains := s1.hbm.retrains.filter fun kv => decide (kv.1 < 8 * 32)
                         ueSec := s1.hbm.ueSec.filter fun kv => decide (kv.1 < 8)
                         poison := s1.hbm.poison.filter fun u => decide (u < 2 ^ 30) } }

/-- A die reset starts. -/
def State.dieReset (s : State) (die : Nat) : State :=
  let s1 := (s.fset (if die = 0 then Fld.RST_STATUS_DIE_FE_BUSY else Fld.RST_STATUS_DIE_TM_BUSY) 1).dieCommands die
  if die = 0 then s1.losePackets.loseFe else s1.losePackets.loseTm

/-- A die restart completes; `bad` are the stacks that failed training. -/
def execDieResetDone (die : Nat) (bad : List Nat) (s : State) : Host.Outcome State Fault Refusal :=
  let f := if die = 0 then Fld.RST_STATUS_DIE_FE_BUSY else Fld.RST_STATUS_DIE_TM_BUSY
  if 1 < die ∨ s.fbit f = false then .next s
  else
    let s1 := s.fset f 0
    if die = 0 then
      let s2 := (List.range 4).foldl (fun (t : State) k => t.fset (Fld.HBF_STACK_STATUS_STATE k) 2) s1
      .next ((bad.filter (· < 4)).foldl State.hbfFail s2)
    else
      let out := fun (t : State) r => t.setRegion r { t.region r with state := regOut }
      .next ((List.range 6).foldl (fun (t : State) k =>
        if bad.contains k then (stackRegions k).foldl out (t.fset (Fld.HBT_STACK_STATUS_STATE k) 4)
        else t.fset (Fld.HBT_STACK_STATUS_STATE k) 2) s1)

/-! ### Block resets (21 R590) -/

/-- DMA: transfers in progress withdraw, and every DMA register takes its Reset value. -/
def State.resetDma (s : State) : State :=
  let s1 := s.dmaWithdrawAll
  let s2 := s1.dmaWithdrawCh 15
  ({ s2 with dma := { s2.dma with rqDisabling := false } }).resetRegs (fun off => off / 0x100000 == 3) Acc.kept

/-- FXE: every group, client and protection set-up is disabled and every page zeroed; switches that wait complete with STATE. -/
def State.resetFxe (s : State) : State :=
  let s1 := (s.ce.executing.filter fun e => e.opcode / 256 == 10).foldl (fun (t : State) e => t.complete e.cmd e.opcode stState 0 0) s
  let s2 := (List.range 256).foldl (fun (t : State) c => if t.clientEn c then t.disableLink (128 + c) else t) s1
  let s3 := s2.resetRegs (fun off => blockOf off == some 12) Acc.kept
  { s3 with ports := { s3.ports with groups := [], oh := [], protReq := [], selForSf := [], wtr := [], fxeCnt := [], fxeLatch := []
                                     sfHeld := [] } }

/-- RST_BLOCK: bits of other blocks, and of a block whose die is in die reset, are discarded and reported. -/
def blockReset (v : Nat) (s : State) : State × Wr :=
  let fe := s.fbit Fld.RST_STATUS_DIE_FE_BUSY
  let s1 := if bitAt v 3 then s.resetDma else s
  let s2 := if bitAt v 6 then s1.pmcReset else s1
  let s3 := if bitAt v 12 && !fe then s2.resetFxe else s2
  let others := putBits (putBits (putBits (bitsAt v 0 28) 3 1 0) 6 1 0) 12 1 0
  (s3, if others ≠ 0 ∨ (bitAt v 12 && fe) = true then .reported else .ok)

/-! ### RST_CTRL and RST_CFG (21 R587, R594) -/

/-- RST_CTRL, written by a master. -/
def rstCtrl (m v : Nat) (s : State) : State × Wr :=
  let ready := s.fbit Fld.RST_STATUS_READY
  let die := fun (x : State × Wr) (d bit : Nat) (busy : Fld) =>
    if !bitAt v bit then x
    else if !ready || s.fbit busy then (x.1, Wr.reported)
    else (x.1.dieReset d, x.2)
  if bitAt v 0 then (s.askDeviceReset 2 m, .ok)
  else
    let x := die (die (s, .ok) 0 1 Fld.RST_STATUS_DIE_FE_BUSY) 1 2 Fld.RST_STATUS_DIE_TM_BUSY
    if bitAt v 3 then
      match x.1.release with
      | (t, w) => (t, if x.2 = .reported then .reported else w)
    else x

/-- RST_CFG: HOLD cleared at the hold point acts as RELEASE. -/
def rstCfg (v : Nat) (s : State) : State × Wr :=
  let s1 := (s.fset Fld.RST_CFG_HOLD (bitsAt v 0 1)).fset Fld.RST_CFG_PERST_ACTION (bitsAt v 1 1)
  if s.fbit Fld.RST_CFG_HOLD && !bitAt v 0 && s.fget Fld.RST_STATUS_PHASE == 7 then s1.release else (s1, .ok)

/-! ### The endpoint (02 R42, 21 R589) -/

/-- A host-path reset: the command engine halts, enables are cleared, channels 0 to 7 withdraw, records that are due are discarded. -/
def State.hostPathReset (s : State) : State :=
  let s1 := s.ceHalt 0 12 0
  let s2 := (List.range 128).foldl (fun (t : State) r => t.fset (pktFld r Fld.HIF_RXR_CFG_EN) 0) s1
  let s3 := (List.range 8).foldl (fun (t : State) m => t.fset (Fld.CE_CQ_SIZE_EN m) 0) s2
  let s4 := s3.fset Fld.DMA_RQ_SIZE_EN 0
  let s5 := { s4 with host := { s4.host with ringDisabling := [] }
                      ce := { s4.ce with cqDisabling := [], unsignalled := [], coalescing := [] } }
  let s6 := (List.range 8).foldl State.dmaWithdrawCh s5
  { s6 with dma := { s6.dma with due := [], rqDisabling := false } }

/-- The endpoint alone is reset: its link is down, and its MSI-X structures are as at reset. -/
def State.endpointReset (s : State) : State :=
  (({ s with host := { s.host with linkDown := true }
             err := { s.err with msix := [], msixEnabled := [], functionMasked := [], pba := [] } }).setReg Reg.HIF_LINK_STATUS 0)

/-- PERST# is deasserted or the link returns: it runs at a rate and width. -/
def execPerstDeassertion (speed width : Nat) (flit : Bool) (s : State) : Host.Outcome State Fault Refusal :=
  if s.off then .next s
  else
    let s1 := { s with host := { s.host with linkDown := false } }
    .next ((((s1.fset Fld.HIF_LINK_STATUS_SPEED speed).fset Fld.HIF_LINK_STATUS_WIDTH width).fset Fld.HIF_LINK_STATUS_FLIT (b2n flit)).fset
      Fld.HIF_LINK_STATUS_DL_UP 1)

/-- A configuration request: Configuration Request Retry Status until the configuration record is loaded (02 R42). -/
def execPcieConfigRequest (s : State) : Host.Outcome State Fault Refusal :=
  if s.off ∨ s.host.linkDown = true then .next s else .next (s.emit (.configAnswer (!s.host.configLoaded)))

end Sys2Proof.Machine
end

