-- ==== Sys2Proof/Machine/Igl.lean ====
section
/-! DEFINITION. Sending on the Iglan chain, the release of the wellhead role and its takeover (02 R48-R57). -/

namespace Sys2Proof.Machine

open Sys2Proof

/-! ### Sending (R51, R53, R55) -/

/-- The device's chain ID. -/
def State.ownId (s : State) : Nat := s.fget Fld.IGL_ID_CHAIN_ID

/-- Whether a chain ID is in IGL_PRESENT. -/
def State.present (s : State) (n : Nat) : Bool :=
  if n < 32 then bitAt (s.fget Fld.IGL_PRESENT_LO_PRESENT) n else bitAt (s.fget Fld.IGL_PRESENT_HI_PRESENT) (n - 32)

/-- The direction with fewer hops, EAST when both have the same number; 0 hops is no way (R51). -/
def State.shorter (s : State) (n : Nat) : Bool :=
  let e := s.fget (Fld.IGL_HOPS_EAST n)
  let w := s.fget (Fld.IGL_HOPS_WEST n)
  e != 0 && (w == 0 || decide (e ≤ w))

/-- The direction toward a device: that of the frames outstanding between the pair, else the shorter one (R55). -/
def State.chainDir (s : State) (src dst : Nat) : Bool :=
  match s.chain.unacked.find? fun x => x.2.src == src && x.2.dst == dst with
  | some x => x.1
  | none => s.shorter dst

/-- Puts a frame on a link, where it waits for its acknowledgement. -/
def State.chainPut (s : State) (east : Bool) (f : ChainFrame) : State :=
  ({ s with chain := { s.chain with unacked := s.chain.unacked ++ [(east, f)] } }).emit (.chainFrame east f)

/-- Sends a message to a device, under the next number of the pair. -/
def State.chainSend (s : State) (dst : Nat) (msg : ChainMsg) : State :=
  let n := Assoc.get s.chain.txSeq 0 dst
  let east := s.chainDir s.ownId dst
  ({ s with chain := { s.chain with txSeq := Assoc.put s.chain.txSeq 0 dst (n + 1) } }).chainPut east
    { src := s.ownId, dst := dst, seq := n, msg := msg }

/-- Sends a message to every other device that is reachable. -/
def State.chainAll (s : State) (msg : ChainMsg) : State :=
  ((List.range 64).filter fun n => n != s.ownId && s.present n).foldl (fun (t : State) n => t.chainSend n msg) s

/-! ### Release and takeover (R57, R88, 20 R568) -/

/-- Blocks and a session of primary-host masters pass to the standby host; the command engine halts with HOST_CHANGE. -/
def State.passHost (s : State) : State :=
  let own := fun (t : State) b =>
    let o := t.fget (Fld.GLB_OWN_OWNER b)
    if 1 ≤ o ∧ o ≤ 8 then t.fset (Fld.GLB_OWN_OWNER b) 9 else t
  let s1 := (List.range 28).foldl own s
  let ses := s1.fwu.session.map fun x => if 1 ≤ x.holder ∧ x.holder ≤ 8 then { x with holder := 9 } else x
  ({ s1 with fwu := { s1.fwu with session := ses }, chain := { s1.chain with hostIsStandby := true, cutOff := false } }).ceHalt 0 10 0

/-- A standby wellhead: ROLE 2, or a device with ROLE 1 that is not the active wellhead (R50). -/
def State.isStandby (s : State) : Bool := !s.chain.active && (s.fget Fld.IGL_CTRL_ROLE == 2 || s.fget Fld.IGL_CTRL_ROLE == 1)

/-- The active wellhead has not been reachable for 1 ms, or its host has released it. -/
def State.takeoverDue (s : State) : Bool :=
  s.chain.released || (match s.chain.lostSince with | some t => decide (t + 1000000 ≤ s.nowNs) | none => false)

/-- IGL_TAKEOVER.GO. A write that is not permitted is discarded and counted in REJECT_CNT of the IGL block. -/
def iglTakeover (v : Nat) (s : State) : State × Wr :=
  if !bitAt v 0 then (s, .ok)
  else if s.isStandby && s.takeoverDue then
    let s1 := s.passHost
    let s2 := { s1 with chain := { s1.chain with active := true, released := false, lostSince := none } }
    ((s2.fset Fld.IGL_STATUS_WELLHEAD_ID s2.ownId).chainAll .takeover, .ok)
  else (s.satAdd (Fld.GLB_OWN_REJECT_CNT 4) 1, .rejected)

/-- IGL_RELEASE.GO: the active wellhead tells the other devices. -/
def iglRelease (v : Nat) (s : State) : State :=
  if bitAt v 0 && s.chain.active then
    ({ s with chain := { s.chain with released := true } }).chainAll .released
  else s

/-- IGL_DEV: PF enabled, WEIGHT 1 to 16, VEC_COUNT 1 to 64. -/
def iglDevOk (s : State) (v : Nat) : Bool :=
  s.pfEnabled (bitsAt v 0 4) && decide (1 ≤ bitsAt v 4 5) && decide (bitsAt v 4 5 ≤ 16) && decide (1 ≤ bitsAt v 21 7) && decide (bitsAt v 21 7 ≤ 64)

end Sys2Proof.Machine
end

