-- ==== Sys2Proof/Machine/RegWrite.lean ====
section
/-! DEFINITION. A register write: the order of its checks (22 R603-R606), the rules of the blocks' chapters, and what the access types
let it change (00 R10-R14). -/

namespace Sys2Proof.Machine

open Sys2Proof

/-! ### Access types (00 R10, R12, R13) -/

/-- The bits of the fields whose access type satisfies `p`. -/
def fieldBits (p : Acc → Bool) (fs : List RegField) (v : Nat) : Nat :=
  fs.foldl (fun x f => if p f.acc then putBits x f.lo f.w (bitsAt v f.lo f.w) else x) 0

/-- Fields that a write can act on. -/
def Acc.writable : Acc → Bool
  | .ro => false
  | _ => true

/-- Fields that lock at READY. -/
def Acc.locks : Acc → Bool
  | .rwl => true
  | _ => false

/-- What a write of `v` leaves in a register that held `old`, by the access types alone. -/
def plainValue (fs : List RegField) (old v : Nat) : Nat :=
  fs.foldl (fun x f =>
    match f.acc with
    | .ro => x
    | .wo => x
    | .w1c => putBits x f.lo f.w (bitsAt old f.lo f.w - Nat.land (bitsAt old f.lo f.w) (bitsAt v f.lo f.w))
    | _ => putBits x f.lo f.w (bitsAt v f.lo f.w)) old

/-- Runs `f` and sends the message of each vector whose OR of level sources rises, among the vectors of the sources `ns` (18 R527). -/
def State.watch (s : State) (ns : List Nat) (f : State → State) : State :=
  let t := f s
  ((ns.map fun n => (s.sourceMap n).1).eraseDups.filter fun v => !s.vectorActive v && t.vectorActive v).foldl State.sendMessage t

/-- Stores a register's value; an event or enable register may raise its sources. -/
def State.putPlain (s : State) (off new : Nat) : State :=
  let f := fun (t : State) => t.setReg off (BitVec.ofNat 32 new)
  match sourceOfReg off with
  | some n => s.watch (if n = 689 then (List.range 9).map (· + 681) else [n]) f
  | none => f s

/-! ### Rules of the chapters

Each rule gets the writing master `m`, the bits `v` of the writable fields, the offset, the offset `base` of its row's first register and
its indices `i` and `j`, the state `s`, and `p`, the state with the plain value stored. `none` is no rule: `p` stands. -/

/-- The result of a hook that leaves the register as it was where it refuses: it is refused when the bits `mask` are not those written. -/
def checkedWrite (t : State) (off mask v : Nat) : State × Wr :=
  (t, if Nat.land (t.reg off).toNat mask = Nat.land v mask then .ok else .rejected)

/-- A result that may be refused with a report. -/
def orReport (s : State) : Option State → State × Wr
  | some t => (t, .ok)
  | none => (s, .reported)

/-- A resource's registers accept its function and firmware (02 R45). -/
def State.pfMay (s : State) (m pf : Nat) : Bool := m == 0 || m == s.pfMaster pf

/-- Registers of packet ring `r`, by their offset in the ring's set. -/
def pktRule (r d v : Nat) (s : State) : State × Wr :=
  if d = 0x00 then pktBase r v s
  else if d = 0x04 then pktPlain r (pktFld r Fld.HIF_RXR_BASE_HI_ADDR) v s
  else if d = 0x08 then pktCfg r v s
  else if d = 0x0C then pktDoorbell r v s
  else if d = 0x14 then pktPlain r (pktFld r Fld.HIF_RXR_WB_LO_ADDR) v s
  else if d = 0x18 then pktPlain r (pktFld r Fld.HIF_RXR_WB_HI_ADDR) v s
  else (s, .rejected)

/-- Registers of command ring `n`. -/
def cmdRule (n base v : Nat) (s : State) : State × Wr :=
  if base = Reg.CE_CMD_BASE_LO 0 then cmdPlain n (Fld.CE_CMD_BASE_LO_ADDR n) v s
  else if base = Reg.CE_CMD_BASE_HI 0 then cmdPlain n (Fld.CE_CMD_BASE_HI_ADDR n) v s
  else if base = Reg.CE_CMD_SIZE 0 then cmdPlain n (Fld.CE_CMD_SIZE_SIZE_LOG2 n) v s
  else if base = Reg.CE_CMD_PI 0 then cmdDoorbell n v s
  else if base = Reg.CE_CMD_WB_LO 0 then cmdPlain n (Fld.CE_CMD_WB_LO_ADDR n) v s
  else if base = Reg.CE_CMD_WB_HI 0 then cmdPlain n (Fld.CE_CMD_WB_HI_ADDR n) v s
  else (s, .rejected)

/-- Registers of completion queue `n`. -/
def cqRule (n base v : Nat) (s : State) : State × Wr :=
  if base = Reg.CE_CQ_BASE_LO 0 then cqPlain n (Fld.CE_CQ_BASE_LO_ADDR n) v s
  else if base = Reg.CE_CQ_BASE_HI 0 then cqPlain n (Fld.CE_CQ_BASE_HI_ADDR n) v s
  else if base = Reg.CE_CQ_SIZE 0 then cqSize n v s
  else if base = Reg.CE_CQ_CI 0 then cqConsumer n v s
  else if base = Reg.CE_CQ_WB_LO 0 then cqPlain n (Fld.CE_CQ_WB_LO_ADDR n) v s
  else if base = Reg.CE_CQ_WB_HI 0 then cqPlain n (Fld.CE_CQ_WB_HI_ADDR n) v s
  else if base = Reg.CE_CQ_VEC 0 then cqVec n v s
  else (s, .rejected)

/-- GLB and HIF (21 R598, 02 R45, R74-R79). -/
def ruleHif (m v base i : Nat) (s p : State) : Option (State × Wr) :=
  let assign := fun use => some (if assignOk s v use then (p, Wr.ok) else (s, Wr.reported))
  let ring := fun r d => some (if s.pfMay m (s.ringPf r) then pktRule r d v s else (s, Wr.rejected))
  if base = Reg.GLB_COMPAT_PROFILE then (if bitAt (s.fget Fld.GLB_PROFILES_AVAIL) v then none else some (s, .reported))
  else if base = Reg.HIF_CMD_PF then assign fun _ => none
  else if base = Reg.HIF_CQ_PF then assign s.cqUse
  else if base = Reg.HIF_RXR_PF 0 then assign fun k => s.pktUse (8 * i + k)
  else if base = Reg.HIF_TXR_PF 0 then assign fun k => s.pktUse (64 + 8 * i + k)
  else if base = Reg.HIF_POOL_BASE 0 then some (poolBase i v s)
  else if base = Reg.HIF_POOL_CFG 0 then some (poolCfg i v s)
  else if Reg.HIF_RXR_BASE_LO 0 ≤ base ∧ base < Reg.HIF_TXR_BASE_LO 0 then ring i (base - Reg.HIF_RXR_BASE_LO 0)
  else if Reg.HIF_TXR_BASE_LO 0 ≤ base then ring (64 + i) (base - Reg.HIF_TXR_BASE_LO 0)
  else none

/-- CE and DMA (02 R59-R61, R70, R75), IGL (02 R50, R57). -/
def ruleCe (m v base i : Nat) (s : State) : Option (State × Wr) :=
  if base = Reg.CE_RESET then some (ceResetGo v s, .ok)
  else if base = Reg.CE_CTRL then some (ceCtrl v s)
  else if Reg.CE_CMD_BASE_LO 0 ≤ base ∧ base < Reg.CE_CQ_BASE_LO 0 then
    some (if s.pfMay m (s.cmdPf i) then cmdRule i base v s else (s, .rejected))
  else if Reg.CE_CQ_BASE_LO 0 ≤ base ∧ base < Reg.DMA_RQ_BASE_LO then
    some (if s.pfMay m (s.cqPf i) then cqRule i base v s else (s, .rejected))
  else if base = Reg.DMA_RQ_BASE_LO then some (rqPlain Fld.DMA_RQ_BASE_LO_ADDR v s)
  else if base = Reg.DMA_RQ_BASE_HI then some (rqPlain Fld.DMA_RQ_BASE_HI_ADDR v s)
  else if base = Reg.DMA_RQ_SIZE then some (rqSize v s)
  else if base = Reg.DMA_RQ_CI then some (rqConsumer v s)
  else if base = Reg.DMA_RQ_VEC then some (rqVec v s)
  else if base = Reg.IGL_CTRL then (if bitsAt v 0 2 = 3 then some (s, .reported) else none)
  else if base = Reg.IGL_TAKEOVER then some (iglTakeover v s)
  else if base = Reg.IGL_RELEASE then some (iglRelease v s, .ok)
  else if base = Reg.IGL_DEV 0 then (if iglDevOk s v then none else some (s, .reported))
  else none

/-- ERR (18 R523-R531) and PMC (19 R545-R550). -/
def ruleErr (m v base i j : Nat) (s p : State) : Option (State × Wr) :=
  if base = Reg.ERR_LOG_POP then some (hookErrPop v s, .ok)
  else if base = Reg.ERR_FATAL_FORCE then some (hookFatalForce m v s, .ok)
  else if base = Reg.ERR_WL_SIZE then some (hookWlSize p, .ok)
  else if base = Reg.ERR_FAULT_CFG 0 then some (hookFaultCfg i p, .ok)
  else if base = Reg.ERR_SRC_MAP 0 then some (if i ≤ 136 then (s, .rejected) else orReport s (hookSrcMap i v s))
  else if base = Reg.ERR_VEC 0 then some (hookRearm i v s, .ok)
  else if base = Reg.ERR_SW_RAISE then some (orReport s (hookSwRaise v s))
  else if base = Reg.PMC_RUN then some (s.hookPmcRun v, if bitsAt v 0 2 = 0 ∨ bitsAt v 0 2 = 3 then .rejected else .ok)
  else if base = Reg.PMC_CLR then some (s.hookPmcClr v, .ok)
  else if base = Reg.PMC_CFG 0 0 then
    some (match s.pmcCfgWrite i j v with | some t => (t, .ok) | none => (s.setEvent Fld.PMC_EVENT_CFG_ERR, .rejected))
  else if base = Reg.PMC_QUAL 0 0 then
    some (match s.pmcQualWrite i j v with | some t => (t, .ok) | none => (s.setEvent Fld.PMC_EVENT_CFG_ERR, .rejected))
  else none

/-- PWR, TIM, FWU and RST (16 R478, R481, R489, 15 R441-R469, 20 R569-R582, 21 R587-R594). Every FWU field beyond the mailbox, the staging
buffer and RECOVERY is read-only to masters other than firmware (20 R581). -/
def ruleAon (m v : Nat) (bad : Bool) (off base i : Nat) (s p : State) : Option (State × Wr) :=
  let mbox := Reg.FWU_MBOX_CTRL ≤ base && base ≤ Reg.FWU_MBOX_RES 3 || base == Reg.FWU_MBOX_ARG 0
  if base = Reg.PWR_GOV_CFG ∨ base = Reg.PWR_GOV_LIMIT ∨ base = Reg.PWR_GOV_EMAX ∨ base = Reg.PWR_GOV_YTHERM then
    some (s.hookGov off v, .ok)
  else if base = Reg.PWR_THERM_CFG then some (s.hookTherm v, .ok)
  else if base = Reg.PWR_FEED_CFG then some (s.hookFeed v, .ok)
  else if base = Reg.TIM_CFG then some (p.relock, .ok)
  else if base = Reg.TIM_SNAP then some (s.hookSnap v, .ok)
  else if base = Reg.TIM_PPSIN_CFG 0 then some (s.hookPpsInCfg i v, .ok)
  else if base = Reg.TIM_PPSIN_WIN 0 then some (s.hookPpsInWin i v, .ok)
  else if base = Reg.TIM_PPSOUT_CFG 0 then some (s.hookPpsOut i v, .ok)
  else if base = Reg.TIM_PPSOUT_OFS 0 then some (s.hookPpsOfs i v, .ok)
  else if base = Reg.TIM_SYNCE_CFG 0 then some (s.hookSynce i v, .ok)
  else if base = Reg.TIM_TRIG_CFG 0 then some (s.hookTrig i v, .ok)
  else if mbox && s.fbit Fld.FWU_MBOX_CTRL_BUSY then some (s, .reported)
  else if base = Reg.FWU_MBOX_CTRL then some (hookMboxGo m v bad p, .ok)
  else if base = Reg.FWU_CFG then some (if m = 0 then (hookFwuCfg p, .ok) else (s, .rejected))
  else if (base = Reg.FWU_EVENT ∨ base = Reg.FWU_EVENT_EN) ∧ m ≠ 0 then some (s, .rejected)
  else if base = Reg.RST_CTRL then some (rstCtrl m v s)
  else if base = Reg.RST_CFG then some (rstCfg v s)
  else if base = Reg.RST_BLOCK then some (blockReset v s)
  else none

/-- PRT and FXE (04 R126-R146, 05 R150-R175); a group does not start while its line SerDes domain is parked (16 R471). -/
def ruleLine (v off base i j : Nat) (s : State) : Option (State × Wr) :=
  if base = Reg.PRT_GRP_CTRL 0 then
    some (if bitAt v 0 && !s.domOn (19 + i / 4) then (s, .rejected) else (s.hookGrpCtrl i v, .ok))
  else if base = Reg.PRT_LANE_MAP_RX 0 ∨ base = Reg.PRT_LANE_MAP_TX 0 ∨ base = Reg.PRT_LANE_POL 0 then
    some (checkedWrite (s.hookLaneMap i off v) off 0xFFFFFFFF v)
  else if base = Reg.PRT_PORT_CFG 0 0 then some (checkedWrite (s.hookPortCfg (8 * i + j) v) off (portCfgMask + 1) v)
  else if base = Reg.PRT_PORT_MAC 0 0 then some (s.hookPortMac (8 * i + j) v, .ok)
  else if base = Reg.PRT_PORT_CAL 0 0 then some (s.hookPortCal (8 * i + j) v, .ok)
  else if base = Reg.FXE_GRP_CFG 0 then some (checkedWrite (s.hookFxeGrp i v) off 0x0FFFFF03 v)
  else if base = Reg.FXE_GRP_PHY 0 ∨ base = Reg.FXE_GRP_PHYNUM_LO 0 ∨ base = Reg.FXE_GRP_PHYNUM_HI 0 then
    some (checkedWrite (s.hookFxePhy i off v) off 0xFFFFFFFF v)
  else if Reg.FXE_PHY_DEF 0 ≤ base ∧ base ≤ Reg.FXE_PHY_RX_ID 0 ∧ s.isFlexePhy i = false then some (s, .ok)
  else if base = Reg.FXE_INTEG 0 then some (s.hookFxeInteg i v, .ok)
  else if base = Reg.FXE_CLIENT_CFG 0 then some (checkedWrite (s.hookFxeClient i v) off 0xFFFF0003 v)
  else if base = Reg.FXE_CLIENT_MAC 0 then some (s.hookFxeMac i v, .ok)
  else if base = Reg.FXE_CLIENT_PROT 0 then some (checkedWrite (s.hookFxeProt i v) off 0xFFFF07F3 v)
  else if base = Reg.PAR_TRACE_CTRL then some (s.hookTrace v, .ok)
  else none

/-- A write of a shadow control register (07 R238): a GO write during a walk is discarded, one with REPAIR outside profile 1 discarded and
reported. -/
def shadowRule (u : ShadowUnit) (m v : Nat) (s p : State) : State × Wr :=
  if bitAt v 0 then
    if s.fbit (u.fld 3 1) then (s, .rejected)
    else if bitAt v 2 && s.fget Fld.GLB_COMPAT_PROFILE_PROFILE != 1 then (s, .reported)
    else (p.shadowGo u m, .ok)
  else if bitAt v 1 then (p.shadowStop u, .ok)
  else (p, .ok)

/-- EXM_TBL_CFG (08 R240): SIZE and TIER change only while the table stores nothing, code 3 is rejected, LEARN needs TIER 0. -/
def exmTblRule (n v : Nat) (s p : State) : State × Wr :=
  let changed := bitsAt v 1 4 != bitsAt (s.reg (Reg.EXM_TBL_CFG n)).toNat 1 4
  let used := s.tab.exm.any fun x => x.val.tbl == n
  if bitsAt v 1 2 = 3 ∨ bitsAt v 3 2 = 3 ∨ (bitAt v 5 ∧ bitsAt v 3 2 ≠ 0) ∨ (changed ∧ used) then
    (s.setEvent Fld.EXM_EVENT_CFG_ERR, .rejected)
  else (p, .ok)

/-- Registers that read back inside limits. -/
def State.clampReg (p : State) (f : Fld) (lo hi : Nat) : State × Wr := (p.fset f (clampTo lo hi (p.fget f)), .ok)

/-- LPM, EXM, CAM, RCL, GEN, HBF and HBT (07 R238, 08 R251-R265, 10 R303, 03 R114, 17 R506-R515). -/
def ruleTable (m v base i : Nat) (s p : State) : Option (State × Wr) :=
  if base = Reg.LPM_SHADOW_CTRL then some (shadowRule lpmShadow m v s p)
  else if base = Reg.EXM_SHADOW_CTRL then some (shadowRule exmShadow m v s p)
  else if base = Reg.CAM_SHADOW_CTRL then some (shadowRule camShadow m v s p)
  else if base = Reg.EXM_LEARN_CFG then some (p.clampReg Fld.EXM_LEARN_CFG_MOVE_DAMP 1 255)
  else if base = Reg.EXM_AGE_CFG then some (p.clampReg Fld.EXM_AGE_CFG_AGE_MAX 1 7)
  else if base = Reg.EXM_TBL_CFG 0 then some (exmTblRule i v s p)
  else if Reg.EXM_WIN_CTRL ≤ base ∧ base ≤ Reg.EXM_WIN_TAG ∧ s.fbit Fld.EXM_WIN_CTRL_BUSY = true then some (s, .reported)
  else if base = Reg.EXM_WIN_CTRL then some (if bitAt v 0 then p.winRun m else p, .ok)
  else if base = Reg.RCL_CFG then some (p.clampReg Fld.RCL_CFG_MAX_PASSES 2 8)
  else if base = Reg.GEN_DRAIN_LIMIT then some (hookDrainLimit p, .ok)
  else if base = Reg.HBF_CFG then some (hookHbmCfg 0 p, .ok)
  else if base = Reg.HBF_STACK_CTRL 0 then some (s, .reported)
  else if base = Reg.HBT_CFG then some (hookHbmCfg 1 p, .ok)
  else if base = Reg.HBT_SR_CFG then some (hookHbtSr p, .ok)
  else if base = Reg.HBT_STACK_CTRL 0 then (if bitAt v 0 then some (orReport s (hookHbtTrain i s)) else none)
  else none

/-- BUF, SCH, SHP, DLN and FAB (11 R318-R333, 12 R351-R371, 13 R404, 14 R417-R430). -/
def ruleTm (v off base i : Nat) (s p : State) : Option (State × Wr) :=
  if base = Reg.BUF_SUMP_CFG then some (p.clampReg Fld.BUF_SUMP_CFG_EXP_RESERVE 0 131072)
  else if base = Reg.BUF_REFILL_CFG then
    some ((p.clampReg Fld.BUF_REFILL_CFG_POOL_CELLS 16384 262144).1.clampReg Fld.BUF_REFILL_CFG_REFILL_KB 1 255)
  else if base = Reg.BUF_PEAK_CLR then some (if bitAt v 0 then s.fset Fld.BUF_SUMP_PEAK_SHARED_USED 0 else s, .ok)
  else if base = Reg.BUF_PFC_CFG then some (p.clampReg Fld.BUF_PFC_CFG_REFRESH_US 1 65535)
  else if base = Reg.SCH_YIELD_FACTOR 0 then some (s.hookYieldFactor i v, if i = 0 then .rejected else .ok)
  else if base = Reg.SCH_PORT_BIND 0 then some (checkedWrite (s.hookPortBind i v) off 0x1FFFF v)
  else if base = Reg.SCH_PORT_YBASE 0 then some (s.hookYbase i v, .ok)
  else if base = Reg.SHP_SEL then some (orReport s (s.hookShpSel v))
  else if base = Reg.SHP_CFG then some (orReport s (s.hookShpCfg v))
  else if base = Reg.DLN_PORT_CFG 0 then
    some (if s.isFlexePhy i && !bitAt v 1 then (s, .ok) else checkedWrite (s.hookDlnPort i v) off 0x1F v)
  else if base = Reg.FAB_CFG then some (p.clampReg Fld.FAB_CFG_CREDIT_SIZE 0 2)
  else if base = Reg.FAB_TMR then
    some ((p.clampReg Fld.FAB_TMR_REORDER_US 1 1023).1.clampReg Fld.FAB_TMR_ACK_TIMEOUT_US 1 1023)
  else if base = Reg.FAB_TMR2 then some (p.clampReg Fld.FAB_TMR2_STATUS_US 1 255)
  else if base = Reg.FAB_LINK_CTRL 0 then some (s.hookFabLink i v, .ok)
  else if base = Reg.FAB_PORT_CRED 0 then some (p.clampReg (Fld.FAB_PORT_CRED_FACTOR i) 1000 2047)
  else if base = Reg.FAB_PORT_STOP 0 then
    some (p.clampReg (Fld.FAB_PORT_STOP_GO_KB i) 0 (p.fget (Fld.FAB_PORT_STOP_STOP_KB i) - 1))
  else none

/-- The rule of the block's own chapter. -/
def blockRule (m v : Nat) (bad : Bool) (off base i j : Nat) (s p : State) : Option (State × Wr) :=
  if base < 0x200000 then ruleHif m v base i s p
  else if base < 0x500000 then ruleCe m v base i s
  else if base < 0x700000 then ruleErr m v base i j s p
  else if base < 0x1000000 then ruleAon m v bad off base i s p
  else if base < 0x1600000 then ruleLine v off base i j s
  else if base < 0x4000000 ∨ (0x5400000 ≤ base ∧ base < 0x5800000) then ruleTable m v base i s p
  else ruleTm v off base i s p

/-! ### The checks of a write (22 R603) -/

/-- How a write ends: applied in full, or by which row of R603 it is not. -/
inductive WriteResult where
  | applied | frozen | window | noRegister | notServed | notOwner | notOn | refused
  deriving DecidableEq, Repr

/-- Row 6: the owner of the block, with the rules of GLB_OWN (02 R89) and of the mailbox, staging and RECOVERY registers of FWU
(20 R581). -/
def State.mayWriteReg (s : State) (m block off : Nat) : Bool :=
  if Reg.GLB_OWN 0 ≤ off ∧ off ≤ Reg.GLB_OWN 27 then m == 0 || s.owns m ((off - Reg.GLB_OWN 0) / 4)
  else if block = 9 then
    if off = Reg.FWU_MBOX_CTRL ∨ off = Reg.FWU_RECOVERY ∨ Reg.FWU_MBOX_ARG 0 ≤ off then s.fwuOwned m else m == 0 || s.owns m 9
  else s.owns m block

/-- The block whose REJECT_CNT counts a rejected write. -/
def rejectBlock (block off : Nat) : Nat :=
  if Reg.GLB_OWN 0 ≤ off ∧ off ≤ Reg.GLB_OWN 27 then (off - Reg.GLB_OWN 0) / 4 else block

/-- Rows 8 and 9: a write that no earlier row stops. RWL fields keep their values after READY (00 R12). -/
def State.applyWrite (s : State) (m off v : Nat) (bad : Bool) (r : RegRow) (i j : Nat) : State × WriteResult :=
  let old := (s.reg off).toNat
  let locked := s.fbit Fld.RST_STATUS_READY
  let v0 := fieldBits Acc.writable r.fields v
  let v1 := if locked then keepFields Acc.locks r.fields old v0 else v0
  let p := s.putPlain off (plainValue r.fields old v1)
  let none_ := !(r.fields.any fun f => f.acc.writable)
  let res : State × Wr :=
    if none_ then (s, if r.off = Reg.FWU_MBOX_RES 0 ∧ s.fbit Fld.FWU_MBOX_CTRL_BUSY = true then .reported else .rejected)
    else
      match blockRule m v1 bad off r.off i j s p with
      | some x => x
      | none => (p, .ok)
  match res with
  | (t, .reported) => (t.regError off m, .refused)
  | (t, .rejected) => (if v1 ≠ v0 then t.regError off m else t, .refused)
  | (t, .ok) => if v1 ≠ v0 then (t.regError off m, .refused) else (t, .applied)

/-- A write of 32 bits at a 4-byte aligned offset by a master; `bad` is the MRAM's failure of the FWU_APPLY that a mailbox write starts. -/
def State.writeReg (s : State) (m off v : Nat) (bad : Bool) : State × WriteResult :=
  if s.err.fatal = .frozen then
    if off = Reg.RST_CTRL ∧ bitAt v 0 = true then (s.askDeviceReset 2 m, .applied) else (s, .frozen)
  else if inPmcWindow off then (s.pmcWindowWrite, .window)
  else
    match regAt off with
    | none => (s.regError off m, .noRegister)
    | some (r, ix) =>
      let b := (blockOf off).getD 0
      if !s.blockServed b then (s.regError off m, .notServed)
      else if !s.mayWriteReg m b off then (s.satAdd (Fld.GLB_OWN_REJECT_CNT (rejectBlock b off)) 1, .notOwner)
      else if !s.domOn (regDomain off) then (s.regError off m, .notOn)
      else s.applyWrite m off v bad r (ix.headD 0) (ix.getD 1 0)

/-- A write of a master, of `len` bytes: 4 aligned to 4, or 8 aligned to 8 as two writes, the lower address first (02 R44). -/
def State.regWrite (s : State) (m off len v : Nat) (bad : Bool) : State :=
  if s.off then s
  else if len = 4 ∧ off % 4 = 0 then (s.writeReg m off (v % 2 ^ 32) bad).1
  else if len = 8 ∧ off % 8 = 0 then
    ((s.writeReg m off (v % 2 ^ 32) bad).1.writeReg m (off + 4) (v / 2 ^ 32 % 2 ^ 32) bad).1
  else if s.err.fatal = .frozen then s
  else s.regError off m

/-- A write of one register by a master. -/
def State.hostWrite (s : State) (m off v : Nat) : State := s.regWrite m off 4 v false

end Sys2Proof.Machine
end

