-- ==== Sys2Proof/Machine/Dma.lean ====
section
/-! DEFINITION. The DMA engine: its commands, the device address space, transfers and records (02 R82-R86, 22 R609). -/

namespace Sys2Proof.Machine

open Sys2Proof

/-! ### The device address space (22 R609) -/

def devReg : Nat := 0x1000000000
def devRegEnd : Nat := 0x1008000000
def devMem : Nat := 0x1100000000
def devMemEnd : Nat := 0x1100800000
def devCistern : Nat := 0x2000000000
def devCisternEnd : Nat := 0x4400000000

/-- Every byte of `n` from `a` lies in `lo` to `hi - 1`. -/
def within (a n lo hi : Nat) : Bool := decide (lo ≤ a) && decide (a + n ≤ hi)

/-- Some byte of `n` from `a` lies in `lo` to `hi - 1`. -/
def meets (a n lo hi : Nat) : Bool := decide (a < hi) && decide (lo < a + n)

/-- Channels 0 to 7 may read these bytes; a transfer that meets the register range has address and length multiples of 4. FE HBM and the
register space adjoin. -/
def devReadOk (a n : Nat) : Bool :=
  (within a n 0 devRegEnd || within a n devMem devMemEnd || within a n devCistern devCisternEnd)
    && (!meets a n devReg devRegEnd || (a % 4 == 0 && n % 4 == 0))

/-- Channels 0 to 7 may write these bytes. -/
def devWriteOk (a n : Nat) : Bool :=
  (within a n devReg devRegEnd && a % 4 == 0 && n % 4 == 0) || within a n devMem devMemEnd

/-- Pages of the Cistern that `n` bytes from `a` touch. -/
def pagesOf (a n : Nat) : List Nat :=
  if n = 0 ∨ a < devCistern then []
  else (List.range ((a + n - 1) / 4096 - a / 4096 + 1)).map fun i => (a - devCistern) / 4096 + i

/-- The pages a read touches lie in regions that are ACTIVE or FENCING. -/
def State.pagesReadable (s : State) (a n : Nat) : Bool :=
  (pagesOf a n).all fun g => (s.region (g / 786432)).state == regActive || (s.region (g / 786432)).state == regFencing

/-- An access of the DMA engine to the HBM unit at a device address: whether it meets poison, or an uncorrectable error (`fresh`). -/
def State.dmaUnit (s : State) (a : Nat) (fresh : Bool) : State × Bool :=
  if a < devReg then
    let u := a / 64
    let s1 := s.hbfUnit 19 u
    if fresh || s1.hbm.poison.contains u then (s1.hbfUeAt u 19 false, true) else (s1, false)
  else if devCistern ≤ a then
    let g := (a - devCistern) / 4096
    let k := a % 4096 / 64
    let s1 := s.hbtUnitAccess 5 g k
    let known := s1.hbm.poison.contains (hbtUnit g k)
    if fresh || known then
      let s2 := s1.hbmUe (hbtLoc g k) (hbtUnit g k) 5 known false
      (if s2.ueFails 1 (hbtLoc g k).stack then s2.stackFail 1 (hbtLoc g k).stack else s2, true)
    else (s1, false)
  else (s, false)

/-- Accesses to the units at the device addresses listed; the first that meets an error ends them, and its address is given. -/
def State.dmaUnits (fresh : Option Nat) : List Nat → State → State × Option Nat
  | [], s => (s, none)
  | a :: as, s =>
    match s.dmaUnit a (fresh == some (a / 64)) with
    | (t, true) => (t, some a)
    | (t, false) => State.dmaUnits fresh as t

/-- Byte `i` of a list, 0 beyond its end. -/
def theByte (bs : List Byte) (i : Nat) : Byte := (bs[i]?).getD 0

/-- A byte of the device address space. `given i` is byte `i` of the transfer where the state does not hold it: HBM outside the flow
statistics, whose pair `i` lies at 16 i (09 R290). -/
def State.devByte (s : State) (f : Option Nat) (given : Nat → Byte) (a0 i : Nat) : Byte :=
  let a := a0 + i
  if devReg ≤ a ∧ a < devRegEnd then BitVec.ofNat 8 (s.readBy f (a - devReg) / 2 ^ (8 * (a % 4)))
  else if devMem ≤ a ∧ a < devMemEnd then Memory.read s.host.mem (a - devMem)
  else if 64 * flowUnits.1 ≤ a ∧ a < 64 * (flowUnits.1 + flowUnits.2) then
    let k := a - 64 * flowUnits.1
    let p := Assoc.get s.tab.fst flow0 (k / 16)
    theByte (leBytes 8 p.packets ++ leBytes 8 p.bytes) (k % 16)
  else given i

/-- What a transfer has read: the state, its first bytes, and the status when it could not read them all. -/
structure DmaRead where
  st : State
  bytes : List Byte
  status : Option Nat

/-- Reads `n` bytes of one side of a transfer. `given` are the bytes of host memory, or of HBM; `fresh` is the byte at which HBM meets an
uncorrectable error. -/
def State.dmaRead (s : State) (f : Option Nat) (dev : Bool) (a n : Nat) (given : List Byte) (fresh : Option Nat) : DmaRead :=
  if !dev then ⟨s, (List.range n).map (theByte given), none⟩
  else if !s.pagesReadable a n then ⟨s, [], some stState⟩
  else
    let units := (List.range (if n = 0 then 0 else (a + n - 1) / 64 - a / 64 + 1)).map fun i => 64 * (a / 64 + i)
    match State.dmaUnits (fresh.map fun i => (a + i) / 64) units s with
    | (t, none) => ⟨t, (List.range n).map (s.devByte f (theByte given) a), none⟩
    | (t, some u) => ⟨t, (List.range (u - a)).map (s.devByte f (theByte given) a), some stDataError⟩

/-- Register writes of a transfer, four bytes each, under a master; the first that R603 does not apply ends it. -/
def dmaRegs (m : Nat) : Nat → List Nat → Nat → State → State × Nat × Option Nat
  | _, [], done, s => (s, done, none)
  | off, v :: vs, done, s =>
    match s.writeReg m off v false with
    | (t, .applied) => dmaRegs m (off + 4) vs (done + 4) t
    | (t, .notServed) => (t, done, some stState)
    | (t, .notOn) => (t, done, some stState)
    | (t, _) => (t, done, some stNotOwner)

/-- Writes bytes to one side of a transfer: the state, the bytes written, and a status other than OK. -/
def State.dmaWrite (s : State) (m : Nat) (dev : Bool) (a : Nat) (bytes : List Byte) : State × Nat × Option Nat :=
  if bytes.isEmpty then (s, 0, none)
  else if !dev then (s.emit (.hostWrite a bytes), bytes.length, none)
  else if devMem ≤ a then (s.setHostMem (a - devMem) bytes, bytes.length, none)
  else dmaRegs m (a - devReg) ((List.range (bytes.length / 4)).map fun i => leAt bytes (4 * i) 4) 0 s

/-! ### Transfers (R82-R85) -/

/-- What a transfer does with its first `n` bytes: the state, the status, BYTES_DONE and MISMATCH_OFFSET. `a` and `b` are the contents of
SRC or A, and of B, as far as the state does not hold them. -/
def State.dmaRun (s : State) (x : Xfer) (a b : List Byte) (n : Nat) (fresh : Option Nat) : State × Nat × Nat × Nat :=
  let f := x.cmd.map fun c => s.cmdPf c.ring
  let m := match x.cmd with | some c => s.cmdMaster c | none => 0
  match x.op with
  | .copy src dst srcDev dstDev =>
    let r := s.dmaRead f srcDev src n a fresh
    match r.st.dmaWrite m dstDev dst r.bytes with
    | (t, k, some st) => (t, st, k, 0)
    | (t, k, none) => (t, r.status.getD stOK, k, 0)
  | .fill dst pattern dstDev =>
    let bytes := (List.range n).map fun i => theByte (leBytes 8 pattern) ((dst + i) % 8)
    match s.dmaWrite m dstDev dst bytes with
    | (t, k, st) => (t, st.getD stOK, k, 0)
  | .compare pa pb aDev bDev =>
    let ra := s.dmaRead f aDev pa n a fresh
    let rb := ra.st.dmaRead f bDev pb n b fresh
    let len := min ra.bytes.length rb.bytes.length
    match (List.range len).find? fun i => theByte ra.bytes i != theByte rb.bytes i with
    | some i => (rb.st, stMismatch, i, i)
    | none => (rb.st, (ra.status.or rb.status).getD stOK, len, 0)

/-- The transfer at the head of a channel ends, unless what it wrote has ended it. -/
def State.dmaEndRun (t : State) (ch : Nat) (x : Xfer) (status bytes mismatch : Nat) : State :=
  if (Assoc.get t.dma.chans [] ch).head? = some x then (t.pmc 0x062 ch 0 bytes).dmaFinish ch x status bytes mismatch else t

/-- A channel finishes nothing while a record of its own waits (R82). -/
def State.dmaHeld (s : State) (ch : Nat) : Bool := s.dma.due.any fun r => r.channel == ch

/-- The transfer at the head of a channel ends: by itself, or where `stop` says so, with HOST_ERROR, CHAIN_LOST or an uncorrectable error
of HBM after a number of bytes. -/
def execDmaTransferDone (ch : Nat) (a b : List Byte) (stop : Option (Nat × Nat)) (s : State) : Host.Outcome State Fault Refusal :=
  match Assoc.get s.dma.chans [] ch with
  | [] => .next s
  | x :: _ =>
    if s.off ∨ s.err.fatal = .frozen ∨ s.dmaHeld ch = true then .next s
    else
      match stop with
      | some (st, n) =>
        if st = stHostError ∨ st = stChainLost then
          match s.dmaRun x a b (min n x.length) none with
          | (t, st', k, d) => .next (t.dmaEndRun ch x (if st' = stOK then st else st') k d)
        else
          match s.dmaRun x a b x.length (if st = stDataError then some n else none) with
          | (t, st', k, d) => .next (t.dmaEndRun ch x st' k d)
      | none =>
        match s.dmaRun x a b x.length none with
        | (t, st', k, d) => .next (t.dmaEndRun ch x st' k d)

/-- The transfer at the head of a channel is withdrawn after `bytes` bytes. -/
def State.dmaWithdraw (s : State) (ch : Nat) (a b : List Byte) (bytes : Nat) : State :=
  match Assoc.get s.dma.chans [] ch with
  | [] => s
  | x :: _ =>
    match s.dmaRun x a b (min bytes x.length) none with
    | (t, st, k, d) => t.dmaEndRun ch x (if st = stOK then stWithdrawn else st) k d

/-- An internal requester withdraws its transfer (R85). -/
def execDmaWithdraw (ch : Nat) (a b : List Byte) (bytes : Nat) (s : State) : Host.Outcome State Fault Refusal :=
  if s.off ∨ s.err.fatal = .frozen ∨ ch < 8 then .next s else .next (s.dmaWithdraw ch a b bytes)

/-! ### Records (R82, R86) -/

/-- The 32 bytes of a record whose slot has producer index `pi` in a queue of 2^k records. -/
def DmaRecord.bytes (r : DmaRecord) (pi k : Nat) : List Byte :=
  leBytes 1 r.channel ++ leBytes 1 r.requester ++ leBytes 2 r.status ++ leBytes 4 r.tag ++ leBytes 8 r.bytesDone ++ leBytes 8 r.mismatch
    ++ leBytes 4 0 ++ leBytes 4 (1 - pi / 2 ^ k % 2)

/-- The oldest record that is due is written while the queue has room. -/
def execDmaRecordWrite (s : State) : Host.Outcome State Fault Refusal :=
  let k := s.fget Fld.DMA_RQ_SIZE_SIZE_LOG2
  let pi := s.fget Fld.DMA_RQ_PI_PI
  match s.dma.due with
  | [] => .next s
  | r :: rs =>
    if s.off ∨ s.err.fatal = .frozen ∨ s.fbit Fld.DMA_RQ_SIZE_EN = false ∨ s.rqWaits = true then .next s
    else
      let s1 := { s with dma := { s.dma with due := rs } }
      let s2 := s1.emit (.hostWrite (s1.pair Reg.DMA_RQ_BASE_LO Reg.DMA_RQ_BASE_HI + 32 * (pi % 2 ^ k)) (r.bytes pi k))
      .next ((s2.fset Fld.DMA_RQ_PI_PI ((pi + 1) % 2 ^ (k + 1))).pulse 8)

/-! ### Commands (R83, R627) -/

/-- The device addresses of a side lie where it may read, or write. -/
def sideOk (dev write : Bool) (a n : Nat) : Bool := !dev || n == 0 || (if write then devWriteOk a n else devReadOk a n)

/-- A transfer joins its channel; the command completes when it ends. -/
def State.startXfer (s : State) (c : Cmd) (op : DmaOp) (n : Nat) : State × Done :=
  let ch := bitsAt c.arg1 0 4
  let x : Xfer := { op := op, length := n, requester := 8, tag := c.tag, cmd := some c }
  let s1 := { s with dma := { s.dma with chans := Assoc.put s.dma.chans [] ch (Assoc.get s.dma.chans [] ch ++ [x]) } }
  ((s1.fset (Fld.DMA_CH_STATUS_BUSY ch) 1).fset (Fld.DMA_CH_STATUS_REQUESTER ch) 8, .later)

def execCopy (c : Cmd) (s : State) : Host.Outcome State Fault Refusal :=
  runCmd 0x0201 2 2 c s fun s =>
    let src := c.fld 32 0 64
    let dst := c.fld 40 0 64
    let n := c.fld 48 0 32
    let sd := c.fld 52 0 1 == 1
    let dd := c.fld 52 1 1 == 1
    if c.resv [] [(0, 4)] [(32, 0, 64), (40, 0, 64), (48, 0, 32), (52, 0, 2)] then fail stBadPayload s
    else if 8 ≤ bitsAt c.arg1 0 4 then fail stOutOfRange s
    else if !sideOk sd false src n ∨ !sideOk dd true dst n then fail stOutOfRange s
    else if sd && !s.pagesReadable src n then fail stState s
    else s.startXfer c (.copy src dst sd dd) n

def execFill (c : Cmd) (s : State) : Host.Outcome State Fault Refusal :=
  runCmd 0x0202 2 2 c s fun s =>
    let dst := c.fld 32 0 64
    let n := c.fld 48 0 32
    let dd := c.fld 52 0 1 == 1
    if c.resv [] [(0, 4)] [(32, 0, 64), (40, 0, 64), (48, 0, 32), (52, 0, 1)] then fail stBadPayload s
    else if 8 ≤ bitsAt c.arg1 0 4 then fail stOutOfRange s
    else if !sideOk dd true dst n then fail stOutOfRange s
    else s.startXfer c (.fill dst (c.fld 40 0 64) dd) n

def execCompare (c : Cmd) (s : State) : Host.Outcome State Fault Refusal :=
  runCmd 0x0203 2 2 c s fun s =>
    let pa := c.fld 32 0 64
    let pb := c.fld 40 0 64
    let n := c.fld 48 0 32
    let ad := c.fld 52 0 1 == 1
    let bd := c.fld 52 1 1 == 1
    if c.resv [] [(0, 4)] [(32, 0, 64), (40, 0, 64), (48, 0, 32), (52, 0, 2)] then fail stBadPayload s
    else if 8 ≤ bitsAt c.arg1 0 4 then fail stOutOfRange s
    else if !sideOk ad false pa n ∨ !sideOk bd false pb n then fail stOutOfRange s
    else if (ad && !s.pagesReadable pa n) ∨ (bd && !s.pagesReadable pb n) then fail stState s
    else s.startXfer c (.compare pa pb ad bd) n

/-- ABORT withdraws the transfer in progress on the channel; `a`, `b` and `bytes` are what it has moved. -/
def execAbort (c : Cmd) (a b : List Byte) (bytes : Nat) (s : State) : Host.Outcome State Fault Refusal :=
  runCmd 0x0204 1 1 c s fun s =>
    if c.resv [] [(0, 4)] [] then fail stBadPayload s
    else if 8 ≤ bitsAt c.arg1 0 4 then fail stOutOfRange s
    else ok (s.dmaWithdraw (bitsAt c.arg1 0 4) a b bytes) 0 0

/-! ### Engine opcodes (R66) -/

/-- NOP skips its units: it has no operand, and what they hold is not looked at. -/
def execNop (c : Cmd) (s : State) : Host.Outcome State Fault Refusal := runCmd 0x0100 1 16 c s fun s => ok s 0 0

def execEcho (c : Cmd) (s : State) : Host.Outcome State Fault Refusal :=
  runCmd 0x0101 1 1 c s fun s => if c.resv [(0, 64)] [] [] then fail stBadPayload s else ok s (c.arg0 % 2 ^ 64) 0

def execRegRead (c : Cmd) (s : State) : Host.Outcome State Fault Refusal :=
  runCmd 0x0102 1 1 c s fun s =>
    let off := bitsAt c.arg0 0 32
    if c.resv [(0, 32)] [] [] then fail stBadPayload s
    else if 0x8000000 ≤ off ∨ off % 4 ≠ 0 then fail stOutOfRange s
    else ok s (s.readBy (some (s.cmdPf c.ring)) off) 0

/-- The status of a pair that is not applied in full. -/
def WriteResult.status : WriteResult → Nat
  | .applied => stOK
  | .noRegister => stOutOfRange
  | .notOwner => stNotOwner
  | _ => stState

/-- Applies pairs in order up to the first that is not applied in full: the state, the status, and the pairs written. -/
def writePairs (m : Nat) : List (Nat × Nat) → Nat → State → State × Nat × Nat
  | [], n, s => (s, stOK, n)
  | p :: ps, n, s =>
    if 0x8000000 ≤ p.1 ∨ p.1 % 4 ≠ 0 then (s.regError p.1 m, stOutOfRange, n)
    else
      match s.writeReg m p.1 p.2 false with
      | (t, .applied) => writePairs m ps (n + 1) t
      | (t, w) => (t, w.status, n)

def execRegWrite (c : Cmd) (s : State) : Host.Outcome State Fault Refusal :=
  runCmd 0x0103 2 16 c s fun s =>
    let n := bitsAt c.arg0 0 8
    if c.resv [(0, 8)] [] [(32, 0, 64 * n)] then fail stBadPayload s
    else if n < 1 ∨ 4 * (c.len - 1) < n then fail stBadPayload s
    else
      let pairs := (List.range n).map fun i => (c.fld (32 + 8 * i) 0 32, c.fld (36 + 8 * i) 0 32)
      match writePairs (s.cmdMaster c) pairs 0 s with
      | (t, st, k) => (t, .done st k 0)

end Sys2Proof.Machine
end

