-- ==== Sys2Proof/Machine/Chain.lean ====
section
/-! DEFINITION. The Iglan chain: frames, links, discovery, loss of the host path, and writes through the chain window (02 R43-R57). -/

namespace Sys2Proof.Machine

open Sys2Proof

/-! ### Frames (R51-R53, R55) -/

def upFld (east : Bool) : Fld := if east then Fld.IGL_STATUS_EAST_UP else Fld.IGL_STATUS_WEST_UP

/-- The chain ports run: from step 5 of Priming on, not in recovery mode, while their domain is ON (R595, 20 R579). -/
def State.chainRuns (s : State) : Bool :=
  let phase := s.fget Fld.RST_STATUS_PHASE
  decide (5 ≤ phase) && phase != 10 && s.domOn 2 && !s.off

/-- The function a chained device's traffic uses on PCIe (R51). -/
def State.devPf (s : State) (n : Nat) : Nat := s.fget (Fld.IGL_DEV_PF n)

/-- A host-path reset of the chain (21 R589), or another message, takes effect on the device it is sent to. -/
def State.chainDeliver (s : State) (f : ChainFrame) : State :=
  match f.msg with
  | .write m off len v => s.regWrite m off len v false
  | .read pf off n =>
    s.chainSend f.src (.answer ((List.range n).flatMap fun i => leBytes 4 (s.readBy (some pf) (off + 4 * i))))
  | .answer bytes => s.emit (.readData bytes)
  | .hostWrite addr bytes => if s.chain.active then s.emit (.chainWrite (s.devPf f.src) addr bytes) else s
  | .hostRead addr n => if s.chain.active then s.emit (.chainRead (s.devPf f.src) addr n) else s
  | .message v =>
    if s.chain.active then
      s.sendMessage (s.fget (Fld.IGL_DEV_VEC_BASE f.src) + v % s.fget (Fld.IGL_DEV_VEC_COUNT f.src))
    else s
  | .ack .. => s
  | .released => { s with chain := { s.chain with released := true } }
  | .takeover =>
    let s1 := s.passHost
    ({ s1 with chain := { s1.chain with active := false, released := false, lostSince := none } }).fset Fld.IGL_STATUS_WELLHEAD_ID f.src
  | .hostReset => s.hostPathReset

/-- A frame that is the next of its pair is delivered. -/
def State.chainAccept (s : State) (f : ChainFrame) : State :=
  ({ s with chain := { s.chain with rxSeq := Assoc.put s.chain.rxSeq 0 f.src (f.seq + 1) } }).chainDeliver f

/-- Frames that came early follow as soon as they are the next of their pair. -/
def chainDrain : Nat → Nat → State → State
  | 0, _, s => s
  | fuel + 1, src, s =>
    match s.chain.early.find? fun f => f.src == src && f.seq == Assoc.get s.chain.rxSeq 0 src with
    | none => s
    | some f =>
      chainDrain fuel src (({ s with chain := { s.chain with early := s.chain.early.filter (· != f) } }).chainAccept f)

/-- A frame for this device: accepted in sequence, held while early, discarded when its number has been accepted (R53). -/
def State.chainTake (s : State) (f : ChainFrame) : State :=
  let n := Assoc.get s.chain.rxSeq 0 f.src
  if f.seq < n ∨ s.chain.early.contains f = true then s
  else if f.seq = n then chainDrain (s.chain.early.length + 1) f.src (s.chainAccept f)
  else { s with chain := { s.chain with early := s.chain.early ++ [f] } }

/-- An acknowledgement frame on the link a frame came from. -/
def State.chainAck (s : State) (east : Bool) (f : ChainFrame) : State :=
  s.emit (.chainFrame east { src := s.ownId, dst := f.src, seq := 0, msg := .ack f.src f.dst f.seq })

/-- A frame arrives on the EAST or WEST link: it is acknowledged, and taken or passed on. A device with a duplicate ID takes none (R48);
a frozen device serves register reads only (18 R535). -/
def execChainFrameReceive (east : Bool) (f : ChainFrame) (s : State) : Host.Outcome State Fault Refusal :=
  let isRead := match f.msg with | .read .. => true | _ => false
  if s.chainRuns = false ∨ s.fbit (upFld east) = false then .next s
  else
    match f.msg with
    | .ack src dst seq =>
      .next { s with chain := { s.chain with unacked := s.chain.unacked.filter fun x =>
        !(x.2.src == src && x.2.dst == dst && x.2.seq == seq) } }
    | _ =>
      if s.err.fatal = .frozen ∧ (isRead = false ∨ f.dst ≠ s.ownId) then .next s
      else if f.dst = s.ownId ∧ s.fbit Fld.IGL_STATUS_DUP_ID = false then .next ((s.chainAck east f).chainTake f)
      else .next ((s.chainAck east f).chainPut (if s.fbit (upFld !east) then !east else east) f)

/-! ### Discovery (R48-R50, R55-R57) -/

/-- Chain IDs that two devices hold. -/
def dupIds (own : Nat) (found : List ChainDev) : List Nat :=
  let ids := own :: found.map (·.id)
  (ids.filter fun n => decide (2 ≤ (ids.filter (· == n)).length)).eraseDups

/-- IGL_PRESENT and IGL_HOPS after a discovery. -/
def State.mapChain (s : State) (found : List ChainDev) (dups : List Nat) : State :=
  let good := found.filter fun d => !dups.contains d.id
  let ids := (s.ownId :: good.map (·.id)).filter fun n => !dups.contains n
  let mask := fun lo => (List.range 32).foldl (fun x i => x + b2n (ids.contains (lo + i)) * 2 ^ i) 0
  let s1 := (s.fset Fld.IGL_PRESENT_LO_PRESENT (mask 0)).fset Fld.IGL_PRESENT_HI_PRESENT (mask 32)
  let hops := fun (t : State) n =>
    match good.find? fun d => d.id == n with
    | some d => ((t.fset (Fld.IGL_HOPS_EAST n) d.east).fset (Fld.IGL_HOPS_WEST n) d.west).fset (Fld.IGL_HOPS_REACHABLE n) 1
    | none => t.setReg (Reg.IGL_HOPS n) (BitVec.ofNat 32 (b2n (ids.contains n) * 2 ^ 31))
  (List.range 64).foldl hops s1

/-- A second device with ROLE 1: the one with the lower chain ID stays the active wellhead (R50). -/
def State.dupWellhead (s : State) (found : List ChainDev) : State :=
  let others := if s.fget Fld.IGL_CTRL_ROLE = 1 then found.filter fun d => d.role == 1 else []
  match others with
  | [] => s.fset Fld.IGL_STATUS_DUP_WELLHEAD 0
  | d :: _ =>
    let s1 := if s.fbit Fld.IGL_STATUS_DUP_WELLHEAD then s else (s.fset Fld.IGL_STATUS_DUP_WELLHEAD 1).raiseError 0x0403 d.id
    if others.any fun x => decide (x.id < s.ownId) then { s1 with chain := { s1.chain with active := false } } else s1

/-- The active wellhead as a device knows it: the takeover's, else the lowest chain ID with ROLE 1. -/
def State.knownWellhead (s : State) (found : List ChainDev) : Nat :=
  if s.chain.active then s.ownId
  else if s.chain.hostIsStandby then s.fget Fld.IGL_STATUS_WELLHEAD_ID
  else
    (found.filter fun d => d.role == 1).foldl (fun n d => if n = 64 then d.id else min n d.id) 64
      |> fun n => if n = 64 then s.fget Fld.IGL_STATUS_WELLHEAD_ID else n

/-- The active wellhead sends a discovery token in both directions. -/
def State.discover (s : State) : State := if s.chain.active then (s.emit (.discovery true)).emit (.discovery false) else s

/-- What a discovery finds takes effect. -/
def State.discovered (s : State) (closed : Bool) (found : List ChainDev) : State :=
  let dups := dupIds s.ownId found
  let s1 := ((s.mapChain found dups).fset Fld.IGL_STATUS_RING_CLOSED (b2n closed)).fset Fld.IGL_STATUS_DUP_ID (b2n (dups.contains s.ownId))
  let s2 := s1.dupWellhead found
  let s3 := if s2.chain.active then dups.foldl (fun (t : State) n => t.raiseError 0x0401 n) s2 else s2
  let head := s3.knownWellhead found
  let reach := s3.chain.active || found.any fun d => d.id == head && !dups.contains d.id
  let path := s3.chain.active || found.any fun d => (d.role == 1 || d.role == 2) && !dups.contains d.id
  let lost := if reach then none else s3.chain.lostSince.or (some s3.nowNs)
  ({ s3 with chain := { s3.chain with found := found, lostSince := lost, cutOff := !path } }).fset Fld.IGL_STATUS_WELLHEAD_ID head

/-- Frames that wait on a link that is down go in the other direction; where that link is down too they are lost. -/
def State.reroute (s : State) (east : Bool) : State :=
  let mine := s.chain.unacked.filter fun x => x.1 == east
  let s1 := { s with chain := { s.chain with unacked := s.chain.unacked.filter fun x => x.1 != east } }
  if s.fbit (upFld !east) then mine.foldl (fun (t : State) x => t.chainPut (!east) x.2) s1 else s1

/-- A link is declared down (R55). -/
def execChainLinkDown (east closed : Bool) (found : List ChainDev) (s : State) : Host.Outcome State Fault Refusal :=
  if s.chainRuns = false ∨ s.fbit (upFld east) = false ∨ s.err.fatal = .frozen then .next s
  else
    let s1 := ((s.fset (upFld east) 0).satAdd Fld.IGL_BREAK_CNT_COUNT 1).raiseError 0x0402 (b2n (!east))
    .next ((s1.discover.discovered closed found).reroute east)

/-- A link returns, or comes up first: discovery runs (R49, R55). From READY on a port runs while its enable is set (R595). -/
def execChainLinkUp (east closed : Bool) (found : List ChainDev) (s : State) : Host.Outcome State Fault Refusal :=
  let en := s.fbit (if east then Fld.IGL_CTRL_EAST_EN else Fld.IGL_CTRL_WEST_EN) || !s.fbit Fld.RST_STATUS_READY
  if s.chainRuns = false ∨ en = false ∨ s.fbit (upFld east) = true ∨ s.err.fatal = .frozen then .next s
  else .next ((s.fset (upFld east) 1).discover.discovered closed found)

/-! ### Loss of the host path (R56) -/

/-- A read of a device that is cut off completes on the wellhead. -/
def execChainReadTimeout (dev : Nat) (s : State) : Host.Outcome State Fault Refusal :=
  if s.off ∨ s.chain.active = false ∨ s.present dev = true then .next s
  else .next ((s.satAdd Fld.IGL_LOST_CNT_COUNT 1).emit (.readData (leBytes 4 0xFFFFFFFF)))

/-- Whether a transfer reads host memory. -/
def Xfer.readsHost (x : Xfer) : Bool :=
  match x.op with
  | .copy _ _ srcDev _ => !srcDev
  | .fill .. => false
  | .compare _ _ aDev bDev => !aDev || !bDev

/-- On a cut-off device, host reads end with CHAIN_LOST and the command engine halts. -/
def execChainLost (s : State) : Host.Outcome State Fault Refusal :=
  if s.off ∨ s.chain.cutOff = false ∨ s.err.fatal = .frozen then .next s
  else
    let lose := fun (t : State) ch =>
      match Assoc.get t.dma.chans [] ch with
      | x :: _ => if x.readsHost && x.length != 0 then t.dmaFinish ch x stChainLost 0 0 else t
      | [] => t
    .next (((List.range 8).foldl lose s).ceHalt 0 9 0)

/-! ### Register writes from outside (R43, R44, R56, R57) -/

/-- A write of the host or another master: to this device's registers, or through the chain window to those of device `n`. A standby
wellhead serves no write in its window. -/
def execRegisterWrite (m : Nat) (window : Option Nat) (off len v : Nat) (s : State) : Host.Outcome State Fault Refusal :=
  match window with
  | none => .next (s.regWrite m off len v false)
  | some n =>
    if s.off ∨ s.err.fatal = .frozen then .next s
    else if s.isStandby then .next s
    else if n = s.ownId then .next (s.regWrite m off len v false)
    else if s.chain.active = false then .next s
    else if s.present n then .next (s.chainSend n (.write m off len v))
    else .next (s.satAdd Fld.IGL_LOST_CNT_COUNT 1)

/-! ### Conventional reset of the endpoint (21 R589) -/

/-- PERST#, a Hot Reset, or the link going down. -/
def execConventionalPcieReset (s : State) : Host.Outcome State Fault Refusal :=
  if s.off then .next s
  else if s.isStandby ∨ s.err.fatal = .frozen then .next s.endpointReset
  else if s.fbit Fld.RST_CFG_PERST_ACTION then .next (s.endpointReset.askDeviceReset 3 0)
  else
    let s1 := s.endpointReset.hostPathReset
    .next (if s1.chain.active then s1.chainAll .hostReset else s1)

end Sys2Proof.Machine
end

