-- ==== Sys2Proof/Machine/RegRows.lean ====
section
/-! DEFINITION. The rows of the command table that are a write of one register: each is that write by the master `m`, under the checks of
22 R603, with the bit that the row is about set (or cleared) in the value `v`. A unit whose number the device does not have has no such
register. -/

namespace Sys2Proof.Machine

open Sys2Proof

/-- A value with the bits of one field replaced. -/
def withBits (v lo w x : Nat) : Nat := putBits v lo w x

/-- A write of the register at `off` by a master, when the unit exists. -/
def rowWrite (unit : Bool) (m off v : Nat) (s : State) : Host.Outcome State Fault Refusal :=
  .next (if unit then s.hostWrite m off v else s)

/-- The register and the value that clear an enable: command ring n, completion queue 8 + m, receive ring 16 + n, transmit ring 80 + n,
record queue 144. -/
def disableWrite (r v : Nat) : Nat × Nat :=
  if r < 8 then (Reg.CE_CTRL, withBits v r 1 0)
  else if r < 16 then (Reg.CE_CQ_SIZE (r - 8), withBits v 31 1 0)
  else if r < 80 then (Reg.HIF_RXR_CFG (r - 16), withBits v 28 1 0)
  else if r < 144 then (Reg.HIF_TXR_CFG (r - 80), withBits v 28 1 0)
  else (Reg.DMA_RQ_SIZE, withBits v 31 1 0)

def execRingDisable (m r v : Nat) (s : State) : Host.Outcome State Fault Refusal :=
  rowWrite (decide (r ≤ 144)) m (disableWrite r v).1 (disableWrite r v).2 s

def execPmcCfgWrite (m bank n : Nat) (qual : Bool) (v : Nat) (s : State) : Host.Outcome State Fault Refusal :=
  rowWrite (decide (bank < 2 ∧ n < 2048)) m (if qual then Reg.PMC_QUAL bank n else Reg.PMC_CFG bank n) v s

def execPmcWindowWrite (m off v : Nat) (s : State) : Host.Outcome State Fault Refusal := rowWrite (inPmcWindow off) m off v s

/-- `bad` is the MRAM's failure of an FWU_APPLY. -/
def execFwuMboxGo (m v : Nat) (bad : Bool) (s : State) : Host.Outcome State Fault Refusal :=
  .next (s.regWrite m Reg.FWU_MBOX_CTRL 4 (withBits v 0 1 1) bad)

def execCmdDoorbell (m ring v : Nat) (s : State) : Host.Outcome State Fault Refusal :=
  rowWrite (decide (ring < 8)) m (Reg.CE_CMD_PI ring) v s

/-- Receive ring n, transmit ring 64 + n. -/
def execPktRingDoorbell (m ring v : Nat) (s : State) : Host.Outcome State Fault Refusal :=
  rowWrite (decide (ring < 128)) m (if ring < 64 then Reg.HIF_RXR_PI ring else Reg.HIF_TXR_PI (ring - 64)) v s

def execCqCiWrite (m q v : Nat) (s : State) : Host.Outcome State Fault Refusal := rowWrite (decide (q < 8)) m (Reg.CE_CQ_CI q) v s

def execDmaRqCiWrite (m v : Nat) (s : State) : Host.Outcome State Fault Refusal := rowWrite true m Reg.DMA_RQ_CI v s

def execCeReset (m v : Nat) (s : State) : Host.Outcome State Fault Refusal := rowWrite true m Reg.CE_RESET (withBits v 0 1 1) s

def execRingRestart (m ring v : Nat) (s : State) : Host.Outcome State Fault Refusal :=
  rowWrite (decide (ring < 128)) m (if ring < 64 then Reg.HIF_RXR_BASE_LO ring else Reg.HIF_TXR_BASE_LO (ring - 64)) v s

def execPoolEnable (m p v : Nat) (s : State) : Host.Outcome State Fault Refusal :=
  rowWrite (decide (p < 8)) m (Reg.HIF_POOL_CFG p) (withBits v 31 1 1) s

def execGlbOwnWrite (m b v : Nat) (s : State) : Host.Outcome State Fault Refusal := rowWrite (decide (b < 28)) m (Reg.GLB_OWN b) v s

def execDrainLimitWrite (m v : Nat) (s : State) : Host.Outcome State Fault Refusal := rowWrite true m Reg.GEN_DRAIN_LIMIT v s

def execPortEnable (m port v : Nat) (s : State) : Host.Outcome State Fault Refusal :=
  rowWrite (decide (port < 128)) m (Reg.PRT_PORT_CFG (port / 8) (port % 8)) (withBits v 0 1 1) s

def execPortDisable (m port v : Nat) (s : State) : Host.Outcome State Fault Refusal :=
  rowWrite (decide (port < 128)) m (Reg.PRT_PORT_CFG (port / 8) (port % 8)) (withBits v 0 1 0) s

def execGroupEnable (m group v : Nat) (s : State) : Host.Outcome State Fault Refusal :=
  rowWrite (decide (group < 16)) m (Reg.PRT_GRP_CTRL group) (withBits v 0 1 1) s

def execGroupDisable (m group v : Nat) (s : State) : Host.Outcome State Fault Refusal :=
  rowWrite (decide (group < 16)) m (Reg.PRT_GRP_CTRL group) (withBits v 0 1 0) s

def execPortRecalibrate (m port v : Nat) (s : State) : Host.Outcome State Fault Refusal :=
  rowWrite (decide (port < 128)) m (Reg.PRT_PORT_CAL (port / 8) (port % 8)) (withBits v 0 1 1) s

def execFxeGroupEnable (m f v : Nat) (s : State) : Host.Outcome State Fault Refusal :=
  rowWrite (decide (f < 32)) m (Reg.FXE_GRP_CFG f) (withBits v 0 1 1) s

def execFxeClientEnable (m c v : Nat) (s : State) : Host.Outcome State Fault Refusal :=
  rowWrite (decide (c < 256)) m (Reg.FXE_CLIENT_CFG c) (withBits v 0 1 1) s

def execFxeProtEnable (m c v : Nat) (s : State) : Host.Outcome State Fault Refusal :=
  rowWrite (decide (c < 256)) m (Reg.FXE_CLIENT_PROT c) (withBits v 0 1 1) s

def execTraceArm (m v : Nat) (s : State) : Host.Outcome State Fault Refusal := rowWrite true m Reg.PAR_TRACE_CTRL (withBits v 0 1 1) s

def execLpmShadowGo (m v : Nat) (s : State) : Host.Outcome State Fault Refusal :=
  rowWrite true m Reg.LPM_SHADOW_CTRL (withBits v 0 1 1) s

def execLpmShadowStop (m v : Nat) (s : State) : Host.Outcome State Fault Refusal :=
  rowWrite true m Reg.LPM_SHADOW_CTRL (withBits v 0 2 2) s

def execExmShadowGo (m v : Nat) (s : State) : Host.Outcome State Fault Refusal :=
  rowWrite true m Reg.EXM_SHADOW_CTRL (withBits v 0 1 1) s

def execExmShadowStop (m v : Nat) (s : State) : Host.Outcome State Fault Refusal :=
  rowWrite true m Reg.EXM_SHADOW_CTRL (withBits v 0 2 2) s

def execCamShadowGo (m v : Nat) (s : State) : Host.Outcome State Fault Refusal :=
  rowWrite true m Reg.CAM_SHADOW_CTRL (withBits v 0 1 1) s

def execCamShadowStop (m v : Nat) (s : State) : Host.Outcome State Fault Refusal :=
  rowWrite true m Reg.CAM_SHADOW_CTRL (withBits v 0 2 2) s

def execExmWinRead (m v : Nat) (s : State) : Host.Outcome State Fault Refusal :=
  rowWrite true m Reg.EXM_WIN_CTRL (withBits (withBits v 0 1 1) 2 3 0) s

def execExmWinInsert (m v : Nat) (s : State) : Host.Outcome State Fault Refusal :=
  rowWrite true m Reg.EXM_WIN_CTRL (withBits (withBits v 0 1 1) 2 3 1) s

def execExmWinReplace (m v : Nat) (s : State) : Host.Outcome State Fault Refusal :=
  rowWrite true m Reg.EXM_WIN_CTRL (withBits (withBits v 0 1 1) 2 3 2) s

def execExmWinDelete (m v : Nat) (s : State) : Host.Outcome State Fault Refusal :=
  rowWrite true m Reg.EXM_WIN_CTRL (withBits (withBits v 0 1 1) 2 3 3) s

def execExmWinNext (m v : Nat) (s : State) : Host.Outcome State Fault Refusal :=
  rowWrite true m Reg.EXM_WIN_CTRL (withBits (withBits v 0 1 1) 2 3 4) s

def execExmWinUnlearn (m v : Nat) (s : State) : Host.Outcome State Fault Refusal :=
  rowWrite true m Reg.EXM_WIN_CTRL (withBits (withBits v 0 1 1) 2 3 5) s

def execExmWinFlushPort (m v : Nat) (s : State) : Host.Outcome State Fault Refusal :=
  rowWrite true m Reg.EXM_WIN_CTRL (withBits (withBits v 0 1 1) 2 3 6) s

def execBufPeakClr (m v : Nat) (s : State) : Host.Outcome State Fault Refusal := rowWrite true m Reg.BUF_PEAK_CLR (withBits v 0 1 1) s

def execShpSelWrite (m v : Nat) (s : State) : Host.Outcome State Fault Refusal := rowWrite true m Reg.SHP_SEL v s

def execShpCfgWrite (m v : Nat) (s : State) : Host.Outcome State Fault Refusal := rowWrite true m Reg.SHP_CFG v s

def execFabLinkEnable (m l v : Nat) (s : State) : Host.Outcome State Fault Refusal :=
  rowWrite (decide (l < 160)) m (Reg.FAB_LINK_CTRL l) v s

def execSynceCfgWrite (m n v : Nat) (s : State) : Host.Outcome State Fault Refusal :=
  rowWrite (decide (n < 2)) m (Reg.TIM_SYNCE_CFG n) v s

def execTriggerEnable (m n v : Nat) (s : State) : Host.Outcome State Fault Refusal :=
  rowWrite (decide (n < 8)) m (Reg.TIM_TRIG_CFG n) (withBits v 0 1 1) s

def execTimSnap (m v : Nat) (s : State) : Host.Outcome State Fault Refusal := rowWrite true m Reg.TIM_SNAP (withBits v 0 1 1) s

def execHbtTrain (m k v : Nat) (s : State) : Host.Outcome State Fault Refusal :=
  rowWrite (decide (k < 6)) m (Reg.HBT_STACK_CTRL k) (withBits v 0 1 1) s

def execErrLogPopReg (m v : Nat) (s : State) : Host.Outcome State Fault Refusal := rowWrite true m Reg.ERR_LOG_POP (withBits v 0 1 1) s

def execErrSwRaise (m v : Nat) (s : State) : Host.Outcome State Fault Refusal := rowWrite true m Reg.ERR_SW_RAISE v s

def execErrVecRearm (m n v : Nat) (s : State) : Host.Outcome State Fault Refusal :=
  rowWrite (decide (n < 512)) m (Reg.ERR_VEC n) (withBits v 0 1 1) s

def execErrFatalForce (m v : Nat) (s : State) : Host.Outcome State Fault Refusal :=
  rowWrite true m Reg.ERR_FATAL_FORCE (withBits v 0 1 1) s

def execPmcRunStart (m v : Nat) (s : State) : Host.Outcome State Fault Refusal := rowWrite true m Reg.PMC_RUN (withBits v 0 2 1) s

def execPmcRunStop (m v : Nat) (s : State) : Host.Outcome State Fault Refusal := rowWrite true m Reg.PMC_RUN (withBits v 0 2 2) s

def execPmcClr (m v : Nat) (s : State) : Host.Outcome State Fault Refusal := rowWrite true m Reg.PMC_CLR v s

def execDeviceReset (m v : Nat) (s : State) : Host.Outcome State Fault Refusal := rowWrite true m Reg.RST_CTRL (withBits v 0 1 1) s

def execDieResetFe (m v : Nat) (s : State) : Host.Outcome State Fault Refusal := rowWrite true m Reg.RST_CTRL (withBits v 1 1 1) s

def execDieResetTm (m v : Nat) (s : State) : Host.Outcome State Fault Refusal := rowWrite true m Reg.RST_CTRL (withBits v 2 1 1) s

def execBlockResetDma (m v : Nat) (s : State) : Host.Outcome State Fault Refusal := rowWrite true m Reg.RST_BLOCK (withBits v 3 1 1) s

def execBlockResetPmc (m v : Nat) (s : State) : Host.Outcome State Fault Refusal := rowWrite true m Reg.RST_BLOCK (withBits v 6 1 1) s

def execBlockResetFxe (m v : Nat) (s : State) : Host.Outcome State Fault Refusal := rowWrite true m Reg.RST_BLOCK (withBits v 12 1 1) s

def execPrimingRelease (m v : Nat) (s : State) : Host.Outcome State Fault Refusal := rowWrite true m Reg.RST_CTRL (withBits v 3 1 1) s

def execRefFreqRelock (m v : Nat) (s : State) : Host.Outcome State Fault Refusal := rowWrite true m Reg.TIM_CFG v s

def execIglTakeover (m v : Nat) (s : State) : Host.Outcome State Fault Refusal := rowWrite true m Reg.IGL_TAKEOVER (withBits v 0 1 1) s

def execIglRelease (m v : Nat) (s : State) : Host.Outcome State Fault Refusal := rowWrite true m Reg.IGL_RELEASE (withBits v 0 1 1) s

end Sys2Proof.Machine
end

