-- ==== Sys2Proof/Machine/WellLog.lean ====
section
/-! DEFINITION. The Well log dump and the freeze that ends a fatal error (18 R533-R540). -/

namespace Sys2Proof.Machine

open Sys2Proof

/-- The device freezes (R535). -/
def State.freeze (s : State) : State := ({ s with err := { s.err with fatal := .frozen } }).fset Fld.ERR_STATUS_FROZEN 1

/-! ### Contents (R536, R540) -/

/-- Offsets of the registers of a row. -/
def rowOffsets (r : RegRow) : List Nat :=
  r.dims.foldl (fun os d => os.flatMap fun o => (List.range d.1).map fun i => o + d.2 * i) [r.off]

/-- Readable registers of the blocks that satisfy `p`, in ascending offset. -/
def readable (p : Nat → Bool) : List Nat :=
  (((List.range 28).filter p).flatMap fun b =>
    ((regRows b).filter fun r => r.fields.any fun f => f.acc != .wo).flatMap rowOffsets).mergeSort

/-- Registers as pairs of offset and value. -/
def State.regPairs (s : State) (p : Nat → Bool) : List Byte :=
  (readable p).flatMap fun o => leBytes 4 o ++ leBytes 4 (s.readBy none o)

/-- The history ring lies on the FE stacks, of which one has failed. -/
def State.historyLost (s : State) : Bool := (List.range 4).any fun k => s.stackState 0 k == 4

/-- Contents of a section and its FLAGS: 0 complete, 2 unreadable, 3 partial. Sections 1 and 2 follow from the state; `given` is what
firmware finds for another. -/
def State.wellBody (s : State) (type : Nat) (given : Nat × List Byte) : Nat × List Byte :=
  let log := s.err.log.flatMap s.entryBytes
  let ring := s.err.history.flatMap s.entryBytes
  if type = 1 then
    if s.err.romDump then (3, log)
    else
      let regs := s.regPairs fun b => b == 5
      if s.historyLost then (3, log ++ List.replicate ring.length 0xFF ++ regs) else (0, log ++ ring ++ regs)
  else if type = 2 then (0, s.regPairs fun b => b != 5)
  else if given.1 = 2 ∨ (type = 7 ∧ s.err.romDump = true) then (2, [])
  else (if given.1 = 3 then 3 else 0, given.2)

/-- Section types of the dump, in order. -/
def State.wellTypes (s : State) : List Nat := [1, 2, 3, 4, 5, 6, 7] ++ (if s.fbit Fld.ERR_WL_SIZE_SUMP then [8] else [])

/-! ### The header (R537) -/

/-- Bytes written, the header included. -/
def wellTotal (secs : List (Nat × Nat × Nat × Nat × Nat)) : Nat :=
  secs.foldl (fun n x => match x with | (_, _, _, len, _) => n + len) 4096

/-- The first free 4 KiB boundary. -/
def wellNext (secs : List (Nat × Nat × Nat × Nat × Nat)) : Nat :=
  secs.foldl (fun n x => match x with | (_, _, off, len, _) => max n (4096 * ceilDiv (off + len) 4096)) 4096

/-- Descriptor of a section. -/
def wellDesc (x : Nat × Nat × Nat × Nat × Nat) : List Byte :=
  match x with
  | (type, flags, off, len, crc) =>
    leBytes 1 type ++ leBytes 1 flags ++ leBytes 6 0 ++ leBytes 8 off ++ leBytes 8 len ++ leBytes 4 crc ++ leBytes 4 0

/-- The header with a STATUS and a value of CRC. -/
def State.wellHeaderWith (s : State) (status crc : Nat) : List Byte :=
  let secs := s.err.wellSections
  let part := leBytes 4 0x4C575A46 ++ leBytes 2 1 ++ leBytes 1 s.ownId ++ leBytes 1 status ++ leBytes 4 ((s.reg Reg.GLB_ID).toNat)
    ++ leBytes 2 (s.fget Fld.GLB_COMPAT_PROFILE_PROFILE) ++ leBytes 2 (s.fget Fld.ERR_FATAL_CODE_CODE)
    ++ leBytes 4 (s.fget Fld.ERR_FATAL_NS_NS)
    ++ leBytes 6 (s.fget Fld.ERR_FATAL_SEC_LO_SEC + 2 ^ 32 * s.fget Fld.ERR_FATAL_SEC_HI_SEC)
    ++ leBytes 1 secs.length ++ leBytes 5 0 ++ leBytes 8 (wellTotal secs) ++ leBytes 4 crc ++ leBytes 20 0 ++ secs.flatMap wellDesc
  part ++ List.replicate (4096 - part.length) 0

/-- The header with its CRC. -/
def State.wellHeader (s : State) (status : Nat) : List Byte :=
  s.wellHeaderWith status (crc32cStd ((s.wellHeaderWith status 0).map (·.toNat)))

/-- The buffer's base. -/
def State.wellBase (s : State) : Nat := s.pair Reg.ERR_WL_BASE_LO Reg.ERR_WL_BASE_HI

/-! ### The dump (R536, R538, R539) -/

/-- A section is dealt with: written with its DMA record, or omitted for room. -/
def State.wellSection (s : State) (type : Nat) (given : Nat × List Byte) : State :=
  let secs := s.err.wellSections
  let off := wellNext secs
  let note := fun (t : State) x =>
    let t1 := { t with err := { t.err with wellSections := secs ++ [x] } }
    (t1.fset Fld.ERR_WL_STATUS_SECTIONS (secs.length + 1)).fset Fld.ERR_WL_BYTES_BYTES (wellTotal (secs ++ [x]))
  match s.wellBody type given with
  | (flags, bytes) =>
    if 2 ^ 20 * s.fget Fld.ERR_WL_SIZE_SIZE_MIB < off + bytes.length then note s (type, 1, 0, 0, 0)
    else if bytes.isEmpty then note s (type, flags, off, 0, 0)
    else
      let s1 := s.emit (.hostWrite (s.wellBase + off) bytes)
      let rec' : DmaRecord :=
        { channel := 15, requester := 7, status := stOK, tag := type, bytesDone := bytes.length, mismatch := 0 }
      let s2 := { s1 with dma := { s1.dma with due := s1.dma.due ++ [rec'] } }
      note (s2.pmc 0x062 15 0 bytes.length) (type, flags, off, bytes.length, crc32cStd (bytes.map (·.toNat)))

/-- Whether a section's contents come from firmware. -/
def State.wellGiven (s : State) (type : Nat) : Bool := decide (3 ≤ type) && !(type == 7 && s.err.romDump)

/-- The next `n` sections; a full record queue makes the dump wait. -/
def wellRun : Nat → List (Nat × List Byte) → State → State
  | 0, _, s => s
  | n + 1, bodies, s =>
    match s.wellTypes.drop s.err.wellSections.length with
    | [] => s
    | type :: _ =>
      if s.rqWaits then s.fset Fld.ERR_WL_STATUS_WAIT_RQ 1
      else
        let s1 := s.fset Fld.ERR_WL_STATUS_WAIT_RQ 0
        if s1.wellGiven type then wellRun n bodies.tail (s1.wellSection type (bodies.headD (2, [])))
        else wellRun n bodies (s1.wellSection type (0, []))

/-- The dump ends: source 729 pulses, and the device freezes. -/
def State.wellEnd (s : State) (state : Nat) : State := ((s.fset Fld.ERR_WL_STATUS_STATE state).pulse 729).freeze

/-- The header is rewritten, its byte 7 last. -/
def State.wellFinish (s : State) : State :=
  let omitted := s.err.wellSections.any fun x => x.2.1 == 1
  let h := s.wellHeader (if omitted then 3 else 2)
  let s1 := (s.emit (.hostWrite s.wellBase (h.take 7))).emit (.hostWrite (s.wellBase + 8) (h.drop 8))
  (s1.emit (.hostWrite (s.wellBase + 7) ((h.drop 7).take 1))).wellEnd (if omitted then 3 else 2)

/-- The dump begins: the header with STATUS 1. -/
def State.wellBegin (s : State) : State :=
  let s1 := { s with err := { s.err with fatal := .dumping, wellSections := [] } }
  let s2 := ((s1.fset Fld.ERR_WL_STATUS_STATE 1).fset Fld.ERR_WL_STATUS_SECTIONS 0).fset Fld.ERR_WL_BYTES_BYTES 4096
  s2.emit (.hostWrite s2.wellBase (s2.wellHeader 1))

/-- Firmware, or the ROM, writes the Well log, `n` sections in this step; where none can be written the device freezes (R534). `failed`: a
write of the step completes with HOST_ERROR or CHAIN_LOST (R539). -/
def execWellLogDump (n : Nat) (bodies : List (Nat × List Byte)) (failed : Bool) (s : State) : Host.Outcome State Fault Refusal :=
  let go := fun (t : State) =>
    let t1 := wellRun n bodies t
    if failed then t1.wellEnd 4
    else if t1.wellTypes.length ≤ t1.err.wellSections.length then t1.wellFinish
    else t1
  if s.off then .next s
  else
    match s.err.fatal with
    | .stopped =>
      if s.fget Fld.ERR_WL_SIZE_SIZE_MIB = 0 then .next (s.fset Fld.ERR_WL_STATUS_STATE 6).freeze
      else if s.rst.firmwareUp = false then .next (s.fset Fld.ERR_WL_STATUS_STATE 7).freeze
      else .next (go s.wellBegin)
    | .dumping => .next (go s)
    | _ => .next s

/-- ERR_WL_BYTES has not advanced for 1 s. -/
def execWellLogStall (s : State) : Host.Outcome State Fault Refusal :=
  if s.err.fatal = .dumping ∧ s.off = false then .next (s.wellEnd 4) else .next s

end Sys2Proof.Machine
end

