-- ==== Sys2Proof/Machine/Pins.lean ====
section
/-! DEFINITION. Reference clocks, the test access port and the I3C sideband (23 R616-R621). -/

namespace Sys2Proof.Machine

open Sys2Proof

/-! ### Reference clocks (R617) -/

/-- The state after an outcome that is a next state. -/
def nextOf (s : State) (o : Host.Outcome State Fault Refusal) : State :=
  match o with
  | .next t => t
  | _ => s

/-- The lanes of a port lose lock; its other conditions stay as they are. -/
def State.loseLock (s : State) (p : Nat) : State :=
  let g := p / 8
  let i := p % 8
  nextOf s (execLinkConditionChange p false false (s.fbit (Fld.PRT_PORT_STATUS_LF g i)) (s.fbit (Fld.PRT_PORT_STATUS_RF g i))
    (s.fbit (Fld.PRT_PORT_STATUS_HI_SER g i)) 0 0 0 s)

/-- A reference clock is lost: 0 PCIE_REFCLK, 1 to 4 LINE_REFCLK 0 to 3, 5 and 6 FABRIC_REFCLK 0 and 1, 7 IGL_REFCLK, 8 TIME_REFCLK. -/
def execRefClockLoss (clock : Nat) (s : State) : Host.Outcome State Fault Refusal :=
  if s.off then .next s
  else if clock = 0 then execConventionalPcieReset s
  else if clock ≤ 4 then
    let s1 := ((List.range 32).map fun i => 32 * (clock - 1) + i).foldl State.loseLock s
    let squelch := fun (t : State) n =>
      if t.fget (Fld.TIM_SYNCE_CFG_LANE n) / 32 = clock - 1 then nextOf t (execSynceSquelch n t) else t
    .next ([0, 1].foldl squelch s1)
  else if clock ≤ 6 then
    .next (((List.range 80).map fun i => 80 * (clock - 5) + i).foldl
      (fun (t : State) l => if 2 ≤ t.fabState l then t.fabMove l 1 else t) s)
  else if clock = 7 then
    let s1 := nextOf s (execChainLinkDown true false [] s)
    execChainLinkDown false false [] s1
  else if clock = 8 then execTimeRefLoss s
  else .next s

/-! ### The test access port (R620) -/

/-- An instruction is loaded; a boundary instruction takes the balls only while POR_N is low. -/
def State.jtagLoad (s : State) (i : JtagInstr) (boundary : Bool) : State :=
  { s with rst := { s.rst with jtag := i, jtagHolds := boundary && s.rst.porLow } }

/-- BYPASS: TDO follows TDI one clock later. `tdi` holds `n` bits, the first in bit 0. -/
def State.jtagShift (s : State) (n tdi : Nat) : State := s.emit (.tdo n (2 * tdi % 2 ^ n))

/-- A boundary instruction acts as BYPASS while POR_N is high. -/
def jtagBoundary (i : JtagInstr) (n tdi : Nat) (s : State) : Host.Outcome State Fault Refusal :=
  if s.pwr.collapsed then .next s
  else
    let s1 := s.jtagLoad i true
    .next (if s.rst.porLow then s1 else s1.jtagShift n tdi)

def execJtagIdcode (s : State) : Host.Outcome State Fault Refusal :=
  if s.pwr.collapsed then .next s else .next ((s.jtagLoad .idcode false).emit (.tdo 32 0x19640B55))

def execJtagBypass (n tdi : Nat) (s : State) : Host.Outcome State Fault Refusal :=
  if s.pwr.collapsed then .next s else .next ((s.jtagLoad .bypass false).jtagShift n tdi)

/-- SAMPLE/PRELOAD does not disturb the balls. -/
def execJtagSamplePreload (s : State) : Host.Outcome State Fault Refusal :=
  if s.pwr.collapsed then .next s else .next (s.jtagLoad .samplePreload false)

def execJtagExtest (n tdi : Nat) (s : State) : Host.Outcome State Fault Refusal := jtagBoundary .extest n tdi s

def execJtagExtestPulse (n tdi : Nat) (s : State) : Host.Outcome State Fault Refusal := jtagBoundary .extestPulse n tdi s

def execJtagExtestTrain (n tdi : Nat) (s : State) : Host.Outcome State Fault Refusal := jtagBoundary .extestTrain n tdi s

def execJtagClamp (n tdi : Nat) (s : State) : Host.Outcome State Fault Refusal := jtagBoundary .clamp n tdi s

def execJtagHighz (n tdi : Nat) (s : State) : Host.Outcome State Fault Refusal := jtagBoundary .highz n tdi s

/-- TRST_N, or the TAP reset state. -/
def execJtagTapReset (s : State) : Host.Outcome State Fault Refusal :=
  if s.pwr.collapsed then .next s else .next (s.jtagLoad .idcode false)

/-! ### Register accesses beside the host path -/

/-- The registers answer: POR_N is high and a feed is present. After a trip AON still does (16 R478). -/
def State.sideServed (s : State) : Bool := !s.pwr.collapsed && !s.rst.porLow

/-- A register write of the JTAG or I3C master, under R603. -/
def State.sideWrite (s : State) (m off v : Nat) : State :=
  if off % 4 = 0 then (s.writeReg m off (v % 2 ^ 32) false).1
  else if s.err.fatal = .frozen then s
  else s.regError off m

def execJtagRegAccess (write : Bool) (off v : Nat) (s : State) : Host.Outcome State Fault Refusal :=
  if s.pwr.collapsed then .next s
  else
    let s1 := s.jtagLoad .regAccess false
    if !s.sideServed then .next s1
    else if write then .next (s1.sideWrite 0xB off v)
    else .next (s1.emit (.readData (leBytes 4 (s1.readBy none off))))

/-! ### The I3C target (R621) -/

/-- The target answers its address. -/
def State.i3cServed (s : State) : Bool := s.sideServed && s.rst.i3cAddr.isSome

def State.i3cNack (s : State) : State := s.emit .i3cNack

/-- The provisional ID: bit 32 set, GLB_SERIAL_LO[25:0], the chain ID. -/
def State.i3cPid (s : State) : Nat := 2 ^ 32 + 64 * ((s.reg Reg.GLB_SERIAL_LO).toNat % 2 ^ 26) + s.ownId

/-- ENTDAA: the target sends its provisional ID and takes the dynamic address, unless it has one. -/
def execI3cEntdaa (addr : Nat) (s : State) : Host.Outcome State Fault Refusal :=
  if s.sideServed = false ∨ s.rst.i3cAddr.isSome = true then .next s
  else .next ({ s with rst := { s.rst with i3cAddr := some addr } }.emit (.i3cId s.i3cPid))

/-- A private write: 4 bytes set the pointer, 8 bytes are a register write; any other length is not acknowledged. -/
def i3cWrite (bytes : List Byte) (s : State) : Host.Outcome State Fault Refusal :=
  let point := fun (t : State) p => { t with rst := { t.rst with i3cPtr := p % 2 ^ 32 } }
  if s.i3cServed = false then .next s.i3cNack
  else if bytes.length = 4 then .next (point s (leAt bytes 0 4))
  else if bytes.length = 8 then .next (point (s.sideWrite 0xA (leAt bytes 0 4) (leAt bytes 4 4)) (leAt bytes 0 4 + 4))
  else .next s.i3cNack

def execI3cPointerWrite (bytes : List Byte) (s : State) : Host.Outcome State Fault Refusal := i3cWrite bytes s

def execI3cRegisterWrite (bytes : List Byte) (s : State) : Host.Outcome State Fault Refusal := i3cWrite bytes s

/-- A private read of `n` bytes: registers from the pointer, which advances. -/
def execI3cRead (n : Nat) (s : State) : Host.Outcome State Fault Refusal :=
  if s.i3cServed = false ∨ n % 4 ≠ 0 then .next s.i3cNack
  else
    let p := s.rst.i3cPtr
    let bytes := (List.range (n / 4)).flatMap fun i => leBytes 4 (s.readBy none ((p + 4 * i) % 2 ^ 32))
    .next ({ s with rst := { s.rst with i3cPtr := (p + n) % 2 ^ 32 } }.emit (.readData bytes))

end Sys2Proof.Machine
end

