-- ==== Sys2Proof/Machine/Dispatch.lean ====
section
/-! DEFINITION. One arm per command of the block. -/

namespace Sys2Proof.Machine

open Sys2Proof

def exec (i : Instr) (s : State) : Host.Outcome State Fault Refusal :=
  match i with
  | .frameReceive link bytes => Sys2Proof.Machine.execFrameReceive link bytes s
  | .frameEnd link ending evict => Sys2Proof.Machine.execFrameEnd link ending evict s
  | .slotGrant slice idle => Sys2Proof.Machine.execSlotGrant slice idle s
  | .freezeEnd slice cycles => Sys2Proof.Machine.execFreezeEnd slice cycles s
  | .ingressPassEnd slice upsets evict => Sys2Proof.Machine.execIngressPassEnd slice upsets evict s
  | .recircEnqueue slice => Sys2Proof.Machine.execRecircEnqueue slice s
  | .probeTimeout u => Sys2Proof.Machine.execProbeTimeout u s
  | .replication slice => Sys2Proof.Machine.execReplication slice s
  | .d2dFlitError module failed => Sys2Proof.Machine.execD2dFlitError module failed s
  | .admission input ecc => Sys2Proof.Machine.execAdmission input ecc s
  | .pfcRefresh port => Sys2Proof.Machine.execPfcRefresh port s
  | .refillStart q => Sys2Proof.Machine.execRefillStart q s
  | .refillReadDone q bad => Sys2Proof.Machine.execRefillReadDone q bad s
  | .schedulerDecision node ue cell => Sys2Proof.Machine.execSchedulerDecision node ue cell s
  | .expressRelease node ue cell => Sys2Proof.Machine.execExpressRelease node ue cell s
  | .packetDeparture id => Sys2Proof.Machine.execPacketDeparture id s
  | .switchMatching => Sys2Proof.Machine.execSwitchMatching s
  | .egressPass slice upsets => Sys2Proof.Machine.execEgressPass slice upsets s
  | .portFrameGrant link cut => Sys2Proof.Machine.execPortFrameGrant link cut s
  | .gateTransition port => Sys2Proof.Machine.execGateTransition port s
  | .pauseFrameReceived port pfc prios quanta => Sys2Proof.Machine.execPauseFrameReceived port pfc prios quanta s
  | .pauseTimerExpiry port cls => Sys2Proof.Machine.execPauseTimerExpiry port cls s
  | .pcieConfigRequest => Sys2Proof.Machine.execPcieConfigRequest s
  | .chainFrameReceive east f => Sys2Proof.Machine.execChainFrameReceive east f s
  | .chainLinkDown east closed found => Sys2Proof.Machine.execChainLinkDown east closed found s
  | .chainLinkUp east closed found => Sys2Proof.Machine.execChainLinkUp east closed found s
  | .chainReadTimeout dev => Sys2Proof.Machine.execChainReadTimeout dev s
  | .chainLost => Sys2Proof.Machine.execChainLost s
  | .iglTakeover m v => Sys2Proof.Machine.execIglTakeover m v s
  | .iglRelease m v => Sys2Proof.Machine.execIglRelease m v s
  | .cmdDoorbell m ring v => Sys2Proof.Machine.execCmdDoorbell m ring v s
  | .pktRingDoorbell m ring v => Sys2Proof.Machine.execPktRingDoorbell m ring v s
  | .commandFetchReturn ring bytes => Sys2Proof.Machine.execCommandFetchReturn ring bytes s
  | .commandStart => Sys2Proof.Machine.execCommandStart s
  | .cqCiWrite m q v => Sys2Proof.Machine.execCqCiWrite m q v s
  | .dmaRqCiWrite m v => Sys2Proof.Machine.execDmaRqCiWrite m v s
  | .ceReset m v => Sys2Proof.Machine.execCeReset m v s
  | .coalesceTimer q => Sys2Proof.Machine.execCoalesceTimer q s
  | .ringDisable m r v => Sys2Proof.Machine.execRingDisable m r v s
  | .ringDisableDone r => Sys2Proof.Machine.execRingDisableDone r s
  | .ringRestart m ring v => Sys2Proof.Machine.execRingRestart m ring v s
  | .rxDelivery ring descs => Sys2Proof.Machine.execRxDelivery ring descs s
  | .txDescriptorFetch ring descs bufs => Sys2Proof.Machine.execTxDescriptorFetch ring descs bufs s
  | .poolEnable m p v => Sys2Proof.Machine.execPoolEnable m p v s
  | .bucketAlloc requester size => Sys2Proof.Machine.execBucketAlloc requester size s
  | .bucketFree p a => Sys2Proof.Machine.execBucketFree p a s
  | .dmaTransferDone ch a b stop => Sys2Proof.Machine.execDmaTransferDone ch a b stop s
  | .dmaRecordWrite => Sys2Proof.Machine.execDmaRecordWrite s
  | .dmaWithdraw ch a b bytes => Sys2Proof.Machine.execDmaWithdraw ch a b bytes s
  | .nop c => Sys2Proof.Machine.execNop c s
  | .echo c => Sys2Proof.Machine.execEcho c s
  | .regRead c => Sys2Proof.Machine.execRegRead c s
  | .regWrite c => Sys2Proof.Machine.execRegWrite c s
  | .copy c => Sys2Proof.Machine.execCopy c s
  | .fill c => Sys2Proof.Machine.execFill c s
  | .compare c => Sys2Proof.Machine.execCompare c s
  | .abort c a b bytes => Sys2Proof.Machine.execAbort c a b bytes s
  | .glbOwnWrite m b v => Sys2Proof.Machine.execGlbOwnWrite m b v s
  | .registerWrite m window off len v => Sys2Proof.Machine.execRegisterWrite m window off len v s
  | .genOpen c => Sys2Proof.Machine.execGenOpen c s
  | .genCommit c late => Sys2Proof.Machine.execGenCommit c late s
  | .genCommitRetry => Sys2Proof.Machine.execGenCommitRetry s
  | .genCommitWaitExpiry => Sys2Proof.Machine.execGenCommitWaitExpiry s
  | .genCancel c => Sys2Proof.Machine.execGenCancel c s
  | .genAbandon c => Sys2Proof.Machine.execGenAbandon c s
  | .genQuery c => Sys2Proof.Machine.execGenQuery c s
  | .genSetMargin c => Sys2Proof.Machine.execGenSetMargin c s
  | .genActivation => Sys2Proof.Machine.execGenActivation s
  | .genRetirement => Sys2Proof.Machine.execGenRetirement s
  | .journalWalkEnd => Sys2Proof.Machine.execJournalWalkEnd s
  | .drainSlowExpiry g => Sys2Proof.Machine.execDrainSlowExpiry g s
  | .drainLimitWrite m v => Sys2Proof.Machine.execDrainLimitWrite m v s
  | .portEnable m port v => Sys2Proof.Machine.execPortEnable m port v s
  | .portDisable m port v => Sys2Proof.Machine.execPortDisable m port v s
  | .groupEnable m group v => Sys2Proof.Machine.execGroupEnable m group v s
  | .groupCalDone group => Sys2Proof.Machine.execGroupCalDone group s
  | .groupDisable m group v => Sys2Proof.Machine.execGroupDisable m group v s
  | .linkConditionChange port lock fec lf rf hiSer cwCorrected cwUncorrectable symCorrected => Sys2Proof.Machine.execLinkConditionChange port lock fec lf rf hiSer cwCorrected cwUncorrectable symCorrected s
  | .linkDownDeclared port => Sys2Proof.Machine.execLinkDownDeclared port s
  | .linkUpDeclared port => Sys2Proof.Machine.execLinkUpDeclared port s
  | .holdoffExpiry link => Sys2Proof.Machine.execHoldoffExpiry link s
  | .portFlushDone link => Sys2Proof.Machine.execPortFlushDone link s
  | .readmitDone link => Sys2Proof.Machine.execReadmitDone link s
  | .portRecalibrate m port v => Sys2Proof.Machine.execPortRecalibrate m port v s
  | .portCalDone port converged rxInt txInt => Sys2Proof.Machine.execPortCalDone port converged rxInt txInt s
  | .fxeGroupEnable m f v => Sys2Proof.Machine.execFxeGroupEnable m f v s
  | .fxeClientEnable m c v => Sys2Proof.Machine.execFxeClientEnable m c v s
  | .fxeProtEnable m c v => Sys2Proof.Machine.execFxeProtEnable m c v s
  | .overheadFrameReceive port inst o => Sys2Proof.Machine.execOverheadFrameReceive port inst o s
  | .defectIntegrationExpiry port d => Sys2Proof.Machine.execDefectIntegrationExpiry port d s
  | .mgmtPacketReceive f channel bytes => Sys2Proof.Machine.execMgmtPacketReceive f channel bytes s
  | .fxeCalWrite c => Sys2Proof.Machine.execFxeCalWrite c s
  | .fxeCalRead c => Sys2Proof.Machine.execFxeCalRead c s
  | .fxeCalSwitch c => Sys2Proof.Machine.execFxeCalSwitch c s
  | .calSwitchExecute f => Sys2Proof.Machine.execCalSwitchExecute f s
  | .calSwitchTimeout f => Sys2Proof.Machine.execCalSwitchTimeout f s
  | .fxeCalCopy c => Sys2Proof.Machine.execFxeCalCopy c s
  | .fxeProtOp c => Sys2Proof.Machine.execFxeProtOp c s
  | .fxeMgmtSend c d => Sys2Proof.Machine.execFxeMgmtSend c d s
  | .fxeMgmtRecv c => Sys2Proof.Machine.execFxeMgmtRecv c s
  | .clientDownDeclared c => Sys2Proof.Machine.execClientDownDeclared c s
  | .clientUpDeclared c => Sys2Proof.Machine.execClientUpDeclared c s
  | .sfHoldoffExpiry c path => Sys2Proof.Machine.execSfHoldoffExpiry c path s
  | .waitToRestoreExpiry c => Sys2Proof.Machine.execWaitToRestoreExpiry c s
  | .parLoad c d => Sys2Proof.Machine.execParLoad c d s
  | .parRead c => Sys2Proof.Machine.execParRead c s
  | .traceArm m v => Sys2Proof.Machine.execTraceArm m v s
  | .lpmInsert c => Sys2Proof.Machine.execLpmInsert c s
  | .lpmReplace c => Sys2Proof.Machine.execLpmReplace c s
  | .lpmDelete c => Sys2Proof.Machine.execLpmDelete c s
  | .lpmRead c upsets => Sys2Proof.Machine.execLpmRead c upsets s
  | .lpmLookup c upsets => Sys2Proof.Machine.execLpmLookup c upsets s
  | .lpmBulk c d got => Sys2Proof.Machine.execLpmBulk c d got s
  | .nhSet c => Sys2Proof.Machine.execNhSet c s
  | .nhRead c => Sys2Proof.Machine.execNhRead c s
  | .ecmpSet c d => Sys2Proof.Machine.execEcmpSet c d s
  | .ecmpRead c => Sys2Proof.Machine.execEcmpRead c s
  | .tableDoubling family len => Sys2Proof.Machine.execTableDoubling family len s
  | .overflowReturn n => Sys2Proof.Machine.execOverflowReturn n s
  | .filterRebuild family len => Sys2Proof.Machine.execFilterRebuild family len s
  | .parityRepair upsets => Sys2Proof.Machine.execParityRepair upsets s
  | .lpmShadowGo m v => Sys2Proof.Machine.execLpmShadowGo m v s
  | .lpmShadowStop m v => Sys2Proof.Machine.execLpmShadowStop m v s
  | .lpmShadowDone d => Sys2Proof.Machine.execLpmShadowDone d s
  | .exmInsert c upsets => Sys2Proof.Machine.execExmInsert c upsets s
  | .exmReplace c upsets => Sys2Proof.Machine.execExmReplace c upsets s
  | .exmDelete c upsets => Sys2Proof.Machine.execExmDelete c upsets s
  | .exmRead c upsets => Sys2Proof.Machine.execExmRead c upsets s
  | .exmUnlearn c upsets => Sys2Proof.Machine.execExmUnlearn c upsets s
  | .exmNext c upsets => Sys2Proof.Machine.execExmNext c upsets s
  | .exmSearch c upsets => Sys2Proof.Machine.execExmSearch c upsets s
  | .exmFlushPort c => Sys2Proof.Machine.execExmFlushPort c s
  | .learnProcess => Sys2Proof.Machine.execLearnProcess s
  | .moveProcess => Sys2Proof.Machine.execMoveProcess s
  | .moveWindowExpiry key => Sys2Proof.Machine.execMoveWindowExpiry key s
  | .agingSweep late => Sys2Proof.Machine.execAgingSweep late s
  | .ageRemovalCheck cursor => Sys2Proof.Machine.execAgeRemovalCheck cursor s
  | .exmWinRead m v => Sys2Proof.Machine.execExmWinRead m v s
  | .exmWinInsert m v => Sys2Proof.Machine.execExmWinInsert m v s
  | .exmWinReplace m v => Sys2Proof.Machine.execExmWinReplace m v s
  | .exmWinDelete m v => Sys2Proof.Machine.execExmWinDelete m v s
  | .exmWinNext m v => Sys2Proof.Machine.execExmWinNext m v s
  | .exmWinUnlearn m v => Sys2Proof.Machine.execExmWinUnlearn m v s
  | .exmWinFlushPort m v => Sys2Proof.Machine.execExmWinFlushPort m v s
  | .exmShadowGo m v => Sys2Proof.Machine.execExmShadowGo m v s
  | .exmShadowStop m v => Sys2Proof.Machine.execExmShadowStop m v s
  | .exmShadowDone d => Sys2Proof.Machine.execExmShadowDone d s
  | .camInsert c => Sys2Proof.Machine.execCamInsert c s
  | .camReplace c => Sys2Proof.Machine.execCamReplace c s
  | .camDelete c => Sys2Proof.Machine.execCamDelete c s
  | .camRead c => Sys2Proof.Machine.execCamRead c s
  | .camMove c => Sys2Proof.Machine.execCamMove c s
  | .camMoveDone => Sys2Proof.Machine.execCamMoveDone s
  | .camOcc c => Sys2Proof.Machine.execCamOcc c s
  | .camSearch c => Sys2Proof.Machine.execCamSearch c s
  | .camParityRepair upsets => Sys2Proof.Machine.execCamParityRepair upsets s
  | .camShadowGo m v => Sys2Proof.Machine.execCamShadowGo m v s
  | .camShadowStop m v => Sys2Proof.Machine.execCamShadowStop m v s
  | .camShadowDone d => Sys2Proof.Machine.execCamShadowDone d s
  | .actWrite c => Sys2Proof.Machine.execActWrite c s
  | .actRead c => Sys2Proof.Machine.execActRead c s
  | .polbWrite c => Sys2Proof.Machine.execPolbWrite c s
  | .polbRead c => Sys2Proof.Machine.execPolbRead c s
  | .polSet c => Sys2Proof.Machine.execPolSet c s
  | .polRead c => Sys2Proof.Machine.execPolRead c s
  | .replWrite c d => Sys2Proof.Machine.execReplWrite c d s
  | .replRead c => Sys2Proof.Machine.execReplRead c s
  | .fstRead c => Sys2Proof.Machine.execFstRead c s
  | .fstBulk c => Sys2Proof.Machine.execFstBulk c s
  | .fstFlushSweep upsets => Sys2Proof.Machine.execFstFlushSweep upsets s
  | .editWrite c => Sys2Proof.Machine.execEditWrite c s
  | .editRead c => Sys2Proof.Machine.execEditRead c s
  | .mirrorWrite c => Sys2Proof.Machine.execMirrorWrite c s
  | .mirrorRead c => Sys2Proof.Machine.execMirrorRead c s
  | .encapWrite c => Sys2Proof.Machine.execEncapWrite c s
  | .encapRead c => Sys2Proof.Machine.execEncapRead c s
  | .tmplWrite c => Sys2Proof.Machine.execTmplWrite c s
  | .tmplRead c => Sys2Proof.Machine.execTmplRead c s
  | .bufQadmSet c => Sys2Proof.Machine.execBufQadmSet c s
  | .bufQRead c => Sys2Proof.Machine.execBufQRead c s
  | .bufProfSet c => Sys2Proof.Machine.execBufProfSet c s
  | .bufProfRead c => Sys2Proof.Machine.execBufProfRead c s
  | .bufLimitSet c => Sys2Proof.Machine.execBufLimitSet c s
  | .bufLimitRead c => Sys2Proof.Machine.execBufLimitRead c s
  | .bufFlush c => Sys2Proof.Machine.execBufFlush c s
  | .flushComplete => Sys2Proof.Machine.execFlushComplete s
  | .bufFenceRelease c => Sys2Proof.Machine.execBufFenceRelease c s
  | .bufFenceHold c => Sys2Proof.Machine.execBufFenceHold c s
  | .bufUnfenceHold c => Sys2Proof.Machine.execBufUnfenceHold c s
  | .bufStackOut c => Sys2Proof.Machine.execBufStackOut c s
  | .regionParked region => Sys2Proof.Machine.execRegionParked region s
  | .fenceTimeout region => Sys2Proof.Machine.execFenceTimeout region s
  | .regionWakeDone region => Sys2Proof.Machine.execRegionWakeDone region s
  | .autoUnfence => Sys2Proof.Machine.execAutoUnfence s
  | .headerSweep lost => Sys2Proof.Machine.execHeaderSweep lost s
  | .bufPeakClr m v => Sys2Proof.Machine.execBufPeakClr m v s
  | .qAttach c => Sys2Proof.Machine.execQAttach c s
  | .qDetach c => Sys2Proof.Machine.execQDetach c s
  | .qDetachFlush c => Sys2Proof.Machine.execQDetachFlush c s
  | .qRead c => Sys2Proof.Machine.execQRead c s
  | .qMapSet c => Sys2Proof.Machine.execQMapSet c s
  | .qMapRead c => Sys2Proof.Machine.execQMapRead c s
  | .nodeSet c => Sys2Proof.Machine.execNodeSet c s
  | .nodeDetach c => Sys2Proof.Machine.execNodeDetach c s
  | .nodeRead c => Sys2Proof.Machine.execNodeRead c s
  | .schShaperSet c => Sys2Proof.Machine.execSchShaperSet c s
  | .schShaperRead c => Sys2Proof.Machine.execSchShaperRead c s
  | .tmpolSet c => Sys2Proof.Machine.execTmpolSet c s
  | .tmpolRead c => Sys2Proof.Machine.execTmpolRead c s
  | .shpSelWrite m v => Sys2Proof.Machine.execShpSelWrite m v s
  | .shpCfgWrite m v => Sys2Proof.Machine.execShpCfgWrite m v s
  | .dlnProfSet c => Sys2Proof.Machine.execDlnProfSet c s
  | .dlnProfRead c => Sys2Proof.Machine.execDlnProfRead c s
  | .dlnQmapSet c => Sys2Proof.Machine.execDlnQmapSet c s
  | .dlnQmapRead c => Sys2Proof.Machine.execDlnQmapRead c s
  | .gclWrite c => Sys2Proof.Machine.execGclWrite c s
  | .gclSet c => Sys2Proof.Machine.execGclSet c s
  | .gclCancel c => Sys2Proof.Machine.execGclCancel c s
  | .gclRead c => Sys2Proof.Machine.execGclRead c s
  | .gclSwitch port => Sys2Proof.Machine.execGclSwitch port s
  | .verifyAttempt port => Sys2Proof.Machine.execVerifyAttempt port s
  | .verifyResponse port => Sys2Proof.Machine.execVerifyResponse port s
  | .fabLinkEnable m l v => Sys2Proof.Machine.execFabLinkEnable m l v s
  | .fabLinkTrained l => Sys2Proof.Machine.execFabLinkTrained l s
  | .fabLinkActive l => Sys2Proof.Machine.execFabLinkActive l s
  | .fabLockLoss l => Sys2Proof.Machine.execFabLockLoss l s
  | .fabLinkRetry l => Sys2Proof.Machine.execFabLinkRetry l s
  | .fabCellReceive l cell => Sys2Proof.Machine.execFabCellReceive l cell s
  | .fabAckReceive l linkSeq => Sys2Proof.Machine.execFabAckReceive l linkSeq s
  | .fabNakReceive l linkSeq => Sys2Proof.Machine.execFabNakReceive l linkSeq s
  | .fabAckTimeout l => Sys2Proof.Machine.execFabAckTimeout l s
  | .reachCellReceive l devs => Sys2Proof.Machine.execReachCellReceive l devs s
  | .reachTimeout l => Sys2Proof.Machine.execReachTimeout l s
  | .reorderTimeout src express => Sys2Proof.Machine.execReorderTimeout src express s
  | .statusRefresh q => Sys2Proof.Machine.execStatusRefresh q s
  | .creditStatusReceive l linkSeq src port q tc weight on => Sys2Proof.Machine.execCreditStatusReceive l linkSeq src port q tc weight on s
  | .cflowRejectRetry q => Sys2Proof.Machine.execCflowRejectRetry q s
  | .cflowIdleExpiry src q => Sys2Proof.Machine.execCflowIdleExpiry src q s
  | .creditGenerate port => Sys2Proof.Machine.execCreditGenerate port s
  | .grantReceive l linkSeq q epoch granted reject => Sys2Proof.Machine.execGrantReceive l linkSeq q epoch granted reject s
  | .fabExpSet c => Sys2Proof.Machine.execFabExpSet c s
  | .fabExpRead c => Sys2Proof.Machine.execFabExpRead c s
  | .fabCflowRead c => Sys2Proof.Machine.execFabCflowRead c s
  | .timeRead c => Sys2Proof.Machine.execTimeRead c s
  | .timeSet c => Sys2Proof.Machine.execTimeSet c s
  | .timeStep c => Sys2Proof.Machine.execTimeStep c s
  | .timeRate c => Sys2Proof.Machine.execTimeRate c s
  | .timeSlew c => Sys2Proof.Machine.execTimeSlew c s
  | .timeUnlock c => Sys2Proof.Machine.execTimeUnlock c s
  | .timeSwitch c => Sys2Proof.Machine.execTimeSwitch c s
  | .timeTxtsRead c => Sys2Proof.Machine.execTimeTxtsRead c s
  | .slewEnd d => Sys2Proof.Machine.execSlewEnd d s
  | .oneSecondTick => Sys2Proof.Machine.execOneSecondTick s
  | .timeRefLoss => Sys2Proof.Machine.execTimeRefLoss s
  | .timeRefReturn => Sys2Proof.Machine.execTimeRefReturn s
  | .timeLaneLoss lane => Sys2Proof.Machine.execTimeLaneLoss lane s
  | .timeLaneReturn lane => Sys2Proof.Machine.execTimeLaneReturn lane s
  | .ppsInEdge n held gap => Sys2Proof.Machine.execPpsInEdge n held gap s
  | .ppsInLoss n => Sys2Proof.Machine.execPpsInLoss n s
  | .ppsOutPulse n => Sys2Proof.Machine.execPpsOutPulse n s
  | .synceSquelch n => Sys2Proof.Machine.execSynceSquelch n s
  | .synceResume n => Sys2Proof.Machine.execSynceResume n s
  | .synceCfgWrite m n v => Sys2Proof.Machine.execSynceCfgWrite m n v s
  | .triggerFire n => Sys2Proof.Machine.execTriggerFire n s
  | .triggerEnable m n v => Sys2Proof.Machine.execTriggerEnable m n v s
  | .timSnap m v => Sys2Proof.Machine.execTimSnap m v s
  | .pwrDomainPark c => Sys2Proof.Machine.execPwrDomainPark c s
  | .domainDrained d => Sys2Proof.Machine.execDomainDrained d s
  | .domainParkTimeout d => Sys2Proof.Machine.execDomainParkTimeout d s
  | .pwrDomainUnpark c => Sys2Proof.Machine.execPwrDomainUnpark c s
  | .domainUnparkDone d trained lanes => Sys2Proof.Machine.execDomainUnparkDone d trained lanes s
  | .telemetrySample mvA curA mvB curB power => Sys2Proof.Machine.execTelemetrySample mvA curA mvB curB power s
  | .tempSample temps => Sys2Proof.Machine.execTempSample temps s
  | .energyEvaluation => Sys2Proof.Machine.execEnergyEvaluation s
  | .backgroundCreditEarn => Sys2Proof.Machine.execBackgroundCreditEarn s
  | .fencePolicyEval => Sys2Proof.Machine.execFencePolicyEval s
  | .feedStateChange feed st => Sys2Proof.Machine.execFeedStateChange feed st s
  | .feedSag ticks sagged fell oldOk => Sys2Proof.Machine.execFeedSag ticks sagged fell oldOk s
  | .inputCollapse => Sys2Proof.Machine.execInputCollapse s
  | .revertHoldExpiry fell oldOk => Sys2Proof.Machine.execRevertHoldExpiry fell oldOk s
  | .feedSelfTest result => Sys2Proof.Machine.execFeedSelfTest result s
  | .pwrGovSet c => Sys2Proof.Machine.execPwrGovSet c s
  | .pwrGovRead c => Sys2Proof.Machine.execPwrGovRead c s
  | .pwrFenceSet c => Sys2Proof.Machine.execPwrFenceSet c s
  | .pwrFenceRead c => Sys2Proof.Machine.execPwrFenceRead c s
  | .pwrFeedSet c => Sys2Proof.Machine.execPwrFeedSet c s
  | .pwrFeedRead c => Sys2Proof.Machine.execPwrFeedRead c s
  | .pwrFeedTest c result mv => Sys2Proof.Machine.execPwrFeedTest c result mv s
  | .pwrFeedSwitch c fell oldOk => Sys2Proof.Machine.execPwrFeedSwitch c fell oldOk s
  | .pwrSnapshot c => Sys2Proof.Machine.execPwrSnapshot c s
  | .hbmLinkError die stack ch again => Sys2Proof.Machine.execHbmLinkError die stack ch again s
  | .refreshWindow die stack pc bank => Sys2Proof.Machine.execRefreshWindow die stack pc bank s
  | .stackTempRead die stack temp => Sys2Proof.Machine.execStackTempRead die stack temp s
  | .scrubRead die stack found upsets => Sys2Proof.Machine.execScrubRead die stack found upsets s
  | .stackNoResponse die stack => Sys2Proof.Machine.execStackNoResponse die stack s
  | .selfRefreshEntry stack => Sys2Proof.Machine.execSelfRefreshEntry stack s
  | .hbtTrain m k v => Sys2Proof.Machine.execHbtTrain m k v s
  | .hbtTrainDone k trained lanes => Sys2Proof.Machine.execHbtTrainDone k trained lanes s
  | .errLogPopReg m v => Sys2Proof.Machine.execErrLogPopReg m v s
  | .errLogPop c failed => Sys2Proof.Machine.execErrLogPop c failed s
  | .errInject c => Sys2Proof.Machine.execErrInject c s
  | .errMsgRaise c => Sys2Proof.Machine.execErrMsgRaise c s
  | .errSwRaise m v => Sys2Proof.Machine.execErrSwRaise m v s
  | .errVecRearm m n v => Sys2Proof.Machine.execErrVecRearm m n v s
  | .msixUnmask f entry addr data masked enable functionMask => Sys2Proof.Machine.execMsixUnmask f entry addr data masked enable functionMask s
  | .faultInputAssert n held => Sys2Proof.Machine.execFaultInputAssert n held s
  | .faultInputStuck n => Sys2Proof.Machine.execFaultInputStuck n s
  | .errFatalForce m v => Sys2Proof.Machine.execErrFatalForce m v s
  | .wellLogDump n bodies failed => Sys2Proof.Machine.execWellLogDump n bodies failed s
  | .wellLogStall => Sys2Proof.Machine.execWellLogStall s
  | .watchdogExpiry core => Sys2Proof.Machine.execWatchdogExpiry core s
  | .pmcRunStart m v => Sys2Proof.Machine.execPmcRunStart m v s
  | .pmcRunStop m v => Sys2Proof.Machine.execPmcRunStop m v s
  | .pmcRunApply => Sys2Proof.Machine.execPmcRunApply s
  | .pmcClr m v => Sys2Proof.Machine.execPmcClr m v s
  | .pmcCfgWrite m bank n qual v => Sys2Proof.Machine.execPmcCfgWrite m bank n qual v s
  | .pmcRead c => Sys2Proof.Machine.execPmcRead c s
  | .pmcWindowWrite m off v => Sys2Proof.Machine.execPmcWindowWrite m off v s
  | .fwuInfo c => Sys2Proof.Machine.execFwuInfo c s
  | .fwuSessionStart c => Sys2Proof.Machine.execFwuSessionStart c s
  | .fwuChunk c d => Sys2Proof.Machine.execFwuChunk c d s
  | .fwuBitmap c => Sys2Proof.Machine.execFwuBitmap c s
  | .fwuApply c bad => Sys2Proof.Machine.execFwuApply c bad s
  | .fwuSessionAbort c => Sys2Proof.Machine.execFwuSessionAbort c s
  | .fwuActivate c => Sys2Proof.Machine.execFwuActivate c s
  | .fwuConfirm c => Sys2Proof.Machine.execFwuConfirm c s
  | .fwuUcodeStage c => Sys2Proof.Machine.execFwuUcodeStage c s
  | .fwuMboxGo m v bad => Sys2Proof.Machine.execFwuMboxGo m v bad s
  | .sessionIdleExpiry => Sys2Proof.Machine.execSessionIdleExpiry s
  | .handoverCommit => Sys2Proof.Machine.execHandoverCommit s
  | .handoverFail => Sys2Proof.Machine.execHandoverFail s
  | .trialSelfConfirm => Sys2Proof.Machine.execTrialSelfConfirm s
  | .trialWindowExpiry => Sys2Proof.Machine.execTrialWindowExpiry s
  | .trialWatchdogExpiry => Sys2Proof.Machine.execTrialWatchdogExpiry s
  | .porNAssert held => Sys2Proof.Machine.execPorNAssert held s
  | .primingStart r => Sys2Proof.Machine.execPrimingStart r s
  | .deviceReset m v => Sys2Proof.Machine.execDeviceReset m v s
  | .dieResetFe m v => Sys2Proof.Machine.execDieResetFe m v s
  | .dieResetTm m v => Sys2Proof.Machine.execDieResetTm m v s
  | .dieResetDone die bad => Sys2Proof.Machine.execDieResetDone die bad s
  | .blockResetDma m v => Sys2Proof.Machine.execBlockResetDma m v s
  | .blockResetPmc m v => Sys2Proof.Machine.execBlockResetPmc m v s
  | .blockResetFxe m v => Sys2Proof.Machine.execBlockResetFxe m v s
  | .primingRelease m v => Sys2Proof.Machine.execPrimingRelease m v s
  | .refFreqRelock m v => Sys2Proof.Machine.execRefFreqRelock m v s
  | .ready => Sys2Proof.Machine.execReady s
  | .conventionalPcieReset => Sys2Proof.Machine.execConventionalPcieReset s
  | .refClockLoss clock => Sys2Proof.Machine.execRefClockLoss clock s
  | .jtagIdcode => Sys2Proof.Machine.execJtagIdcode s
  | .jtagBypass n tdi => Sys2Proof.Machine.execJtagBypass n tdi s
  | .jtagSamplePreload => Sys2Proof.Machine.execJtagSamplePreload s
  | .jtagExtest n tdi => Sys2Proof.Machine.execJtagExtest n tdi s
  | .jtagExtestPulse n tdi => Sys2Proof.Machine.execJtagExtestPulse n tdi s
  | .jtagExtestTrain n tdi => Sys2Proof.Machine.execJtagExtestTrain n tdi s
  | .jtagClamp n tdi => Sys2Proof.Machine.execJtagClamp n tdi s
  | .jtagHighz n tdi => Sys2Proof.Machine.execJtagHighz n tdi s
  | .jtagRegAccess write off v => Sys2Proof.Machine.execJtagRegAccess write off v s
  | .jtagTapReset => Sys2Proof.Machine.execJtagTapReset s
  | .i3cEntdaa addr => Sys2Proof.Machine.execI3cEntdaa addr s
  | .i3cPointerWrite bytes => Sys2Proof.Machine.execI3cPointerWrite bytes s
  | .i3cRegisterWrite bytes => Sys2Proof.Machine.execI3cRegisterWrite bytes s
  | .i3cRead n => Sys2Proof.Machine.execI3cRead n s
  | .overheadFrameTransmit f index => Sys2Proof.Machine.execOverheadFrameTransmit f index s
  | .perstDeassertion speed width flit => Sys2Proof.Machine.execPerstDeassertion speed width flit s
  | .faultInputDeassert n held => Sys2Proof.Machine.execFaultInputDeassert n held s
  | .ppsOutPulseEnd n => Sys2Proof.Machine.execPpsOutPulseEnd n s
  | .fabAckInterval l => Sys2Proof.Machine.execFabAckInterval l s
  | .fwFatal reason => Sys2Proof.Machine.execFwFatal reason s
  | .trialImageFault => Sys2Proof.Machine.execTrialImageFault s
  | .oldImageStop => Sys2Proof.Machine.execOldImageStop s

end Sys2Proof.Machine
end

