-- ==== Sys2Proof/Safety.lean ====
section
/-! DEFINITION. The conditions statements are made under: when a ring command's body runs, when a register write reaches the register's
own rule, and the canonical form of the state's two sparse memories. -/

namespace Sys2Proof.Machine

open Sys2Proof

/-- The body of a ring command runs: power is on, LEN lies in its range (02 R65), and no die reset holds its subject (21 R588). -/
def State.takes (s : State) (opcode lo hi : Nat) (c : Cmd) : Bool :=
  !s.off && decide (lo ≤ c.len) && decide (c.len ≤ hi) && !s.dieResetHolds opcode

/-- The body of a ring command runs and finds no reserved bit set (02 R627 check 1). -/
def State.runs (s : State) (opcode lo hi : Nat) (c : Cmd) (a0 a1 : List (Nat × Nat)) (pl : List (Nat × Nat × Nat)) : Bool :=
  s.takes opcode lo hi c && !c.resv a0 a1 pl

/-- A register write of master `m` at `off` passes rows 1 to 7 of 22 R603. -/
def State.writeReaches (s : State) (m off : Nat) : Bool :=
  !s.off && s.err.fatal != .frozen && !inPmcWindow off && off % 4 == 0 && (regAt off).isSome && s.blockServed ((blockOf off).getD 0)
    && s.mayWriteReg m ((blockOf off).getD 0) off && s.domOn (regDomain off)

/-- The fields of the register at an offset. -/
def fieldsAt (off : Nat) : List RegField := match regAt off with | some (r, _) => r.fields | none => []

/-- The bits of a written value that lie in fields a write can act on (00 R10). -/
def wv (off v : Nat) : Nat := fieldBits Acc.writable (fieldsAt off) (v % 2 ^ 32)

/-- What the access types alone leave in the register (00 R10). -/
def State.plainNext (s : State) (off v : Nat) : Nat := plainValue (fieldsAt off) (s.reg off).toNat (wv off v)

/-- A register write reaches its rule whole: rows 1 to 7 pass, some field can be written, and no field locked at READY changes
(00 R12). -/
def State.writeTakes (s : State) (m off v : Nat) : Bool :=
  s.writeReaches m off && (fieldsAt off).any (fun f => f.acc.writable)
    && (!s.fbit Fld.RST_STATUS_READY || keepFields Acc.locks (fieldsAt off) (s.reg off).toNat (wv off v) == wv off v)

/-- Registers and host-path memory are in their canonical form: keys strictly rising, no entry equal to what an unlisted key reads as. -/
def State.Canonical (s : State) : Prop := Assoc.wf regReset s.regs = true ∧ Memory.wf s.host.mem = true

end Sys2Proof.Machine
end

