-- ==== Sys2Proof/Certificates/Slice0/Obligations.lean ====
section
/-! DEFINITION. The statements about the block. -/

open Sys2Proof Sys2Proof.Machine

/-! ### The block as a whole -/

/-- A step runs the command at the front of the queue on the state with the queue's rest; an empty queue idles (the model's choice, log entry
4). -/
def Obligations.StepRunsFront : Prop :=
  ∀ s : State,
    (∀ c rest, step { s with pending := c :: rest } = exec c { s with pending := rest }) ∧ (s.pending = [] → step s = .next s)

/-- Every command answers a next state in every state, whatever its operands: none ends in a fault or a refusal. -/
def Obligations.EveryCommandAnswersNext : Prop :=
  ∀ (c : Instr) (s : State), ∃ t : State, exec c s = .next t

/-- A command's effect leaves the queue of waiting commands as it is. -/
def Obligations.QueueKept : Prop :=
  ∀ (c : Instr) (s t : State), exec c s = .next t → t.pending = s.pending

/-- Every step keeps the canonical form of registers and host-path memory, and so equal contents are equal data. -/
def Obligations.StepKeepsCanonical : Prop :=
  ∀ s t : State, s.Canonical → step s = .next t → t.Canonical

/-- The block at reset: the canonical form holds, no command waits, nothing is emitted, every register reads its Reset value (00 R11), Priming has
not begun, no domain is off and no error is held. Where the spec leaves a choice it states the model's own: log entries 2, 5 and 7. -/
def Obligations.ResetState : Prop :=
  State.reset.Canonical ∧ State.reset.pending = [] ∧ State.reset.outs = [] ∧
    (∀ off, State.reset.reg off = regReset off) ∧ State.reset.fget Fld.RST_STATUS_PHASE = 1 ∧
    State.reset.fbit Fld.RST_STATUS_READY = false ∧ State.reset.off = false ∧ State.reset.err.log = [] ∧ State.reset.fget Fld.GEN_STATE_ACTIVE = 0

/-- A completion (02 R71, R73): the record's bytes and place, the producer index and its write-back, and what a completion leaves alone. A command
with NO_CMPL that ends OK leaves no record. Where the spec leaves a choice it states the model's own: log entry 15. -/
def Obligations.CompletionWritten : Prop :=
  ∀ (s : State) (c : Cmd) (opcode st r0 r1 : Nat), s.ce.resetPending = false →
    let t := s.complete c opcode st r0 r1
    let k := s.fget (Fld.CE_CQ_SIZE_SIZE_LOG2 c.cq)
    let pi := s.fget (Fld.CE_CQ_PI_PI c.cq)
    let record := leBytes 2 opcode ++ leBytes 2 st ++ leBytes 4 c.tag ++ leBytes 1 c.ring
      ++ leBytes 1 (s.fget Fld.IGL_ID_CHAIN_ID) ++ leBytes 2 (1 - pi / 2 ^ k % 2) ++ leBytes 4 c.pos ++ leBytes 8 r0 ++ leBytes 8 r1
    (t.tab = s.tab ∧ t.tm = s.tm ∧ t.gen = s.gen ∧ t.par = s.par ∧ t.tim = s.tim ∧ t.pwr = s.pwr ∧ t.hbm = s.hbm ∧ t.fwu = s.fwu ∧
      t.ports = s.ports ∧ t.path = s.path ∧ t.dma = s.dma ∧ t.host = s.host ∧ t.chain = s.chain ∧ t.rst = s.rst ∧ t.pmcs = s.pmcs ∧
      t.freeSeq = s.freeSeq ∧ t.pending = s.pending ∧ t.ce.rings = s.ce.rings) ∧
    (st = stOK → c.noCmpl = true → t.regs = s.regs ∧ t.outs = s.outs ∧ t.err = s.err) ∧
    (st ≠ stOK ∨ c.noCmpl = false → c.cq < 8 → s.fbit (Fld.CE_CQ_SIZE_EN c.cq) = true → 6 ≤ k → k ≤ 16 →
      record.length = 32 ∧ t.fget (Fld.CE_CQ_PI_PI c.cq) = (pi + 1) % 2 ^ (k + 1) ∧
      ∃ more, t.outs = s.outs ++ [.hostWrite (s.pair (Reg.CE_CQ_BASE_LO c.cq) (Reg.CE_CQ_BASE_HI c.cq) + 32 * (pi % 2 ^ k)) record,
        .hostWrite (s.pair (Reg.CE_CQ_WB_LO c.cq) (Reg.CE_CQ_WB_HI c.cq)) (leBytes 8 ((pi + 1) % 2 ^ (k + 1)))] ++ more)

/-- The checks of a register write in the order of 22 R603: the first row that applies decides. Where the spec leaves a choice it states the model's
own: log entries 11 and 16. -/
def Obligations.RegisterWriteOrder : Prop :=
  ∀ (s : State) (m off v : Nat), s.off = false →
    let b := (blockOf off).getD 0
    let w := exec (.registerWrite m none off 4 v) s
    (s.err.fatal = .frozen → off ≠ Reg.RST_CTRL ∨ bitAt v 0 = false → w = .next s) ∧
    (s.err.fatal = .frozen → off = Reg.RST_CTRL → bitAt v 0 = true → w = .next (s.askDeviceReset 2 m)) ∧
    (s.err.fatal ≠ .frozen →
      (∀ len, ¬ (len = 4 ∧ off % 4 = 0) → ¬ (len = 8 ∧ off % 8 = 0) →
        exec (.registerWrite m none off len v) s = .next (s.regError off m)) ∧
      (off % 4 = 0 →
        (inPmcWindow off = true → w = .next (s.satAdd Fld.PMC_WIN_WR_CNT_COUNT 1)) ∧
        (inPmcWindow off = false →
          (regAt off = none → w = .next (s.regError off m)) ∧
          (∀ r ix, regAt off = some (r, ix) →
            (s.blockServed b = false → w = .next (s.regError off m)) ∧
            (s.blockServed b = true →
              (s.mayWriteReg m b off = false → w = .next (s.satAdd (Fld.GLB_OWN_REJECT_CNT (rejectBlock b off)) 1)) ∧
              (s.mayWriteReg m b off = true →
                (s.domOn (regDomain off) = false → w = .next (s.regError off m)) ∧
                (s.domOn (regDomain off) = true →
                  (r.fields.any (fun f => f.acc.writable) = false → r.off ≠ Reg.FWU_MBOX_RES 0 → w = .next s) ∧
                  (s.writeTakes m off v = true →
                    blockRule m (wv off v) false off r.off (ix.headD 0) (ix.getD 1 0) s (s.putPlain off (s.plainNext off v)) = none →
                    w = .next (s.putPlain off (s.plainNext off v))))))))))

/-- What the access type of a field makes of a write, for every register of the map (00 R10): RW, RWS and RWL store, RO and WO keep, a 1 clears
a W1C bit; the value stays within 32 bits. -/
def Obligations.FieldAccessTypes : Prop :=
  ∀ (off : Nat) (r : RegRow) (ix : List Nat), regAt off = some (r, ix) → ∀ f ∈ r.fields, ∀ old v : Nat, old < 2 ^ 32 → v < 2 ^ 32 →
    plainValue r.fields old v < 2 ^ 32 ∧
      bitsAt (plainValue r.fields old v) f.lo f.w = match f.acc with
        | .ro => bitsAt old f.lo f.w
        | .wo => bitsAt old f.lo f.w
        | .w1c => bitsAt old f.lo f.w - Nat.land (bitsAt old f.lo f.w) (bitsAt v f.lo f.w)
        | .rw => bitsAt v f.lo f.w
        | .rws => bitsAt v f.lo f.w
        | .rwl => bitsAt v f.lo f.w

/-- A command that its first checks turn away changes nothing but its completion (02 R65, R627 check 1, 21 R588): a LEN outside the opcode's range
and a reserved bit that is set give BAD_PAYLOAD, a subject of a die in die reset gives STATE; a block that the master may not write gives NOT_OWNER
(02 R89). One command stands for each chapter. Where the spec leaves a choice it states the model's own: log entries 12 and 13. -/
def Obligations.RefusedCommandsChangeNothing : Prop :=
  ∀ (s : State) (c : Cmd), s.off = false →
    let rejects := fun (i : Instr) (op lo hi : Nat) a0 a1 pl =>
      ((c.len < lo ∨ hi < c.len) → exec i s = .next (s.complete c op stBadPayload 0 0)) ∧
      (lo ≤ c.len → c.len ≤ hi → s.dieResetHolds op = true → exec i s = .next (s.complete c op stState 0 0)) ∧
      (s.takes op lo hi c = true → c.resv a0 a1 pl = true → exec i s = .next (s.complete c op stBadPayload 0 0))
    rejects (.nhRead c) 0x0411 1 1 [(0, 19)] [(0, 2)] [] ∧
    rejects (.camRead c) 0x0604 2 2 [(0, 15)] [(0, 2)] [(32, 0, 64)] ∧
    rejects (.bufQRead c) 0x0802 1 1 [(0, 20)] [] [] ∧
    rejects (.qRead c) 0x0812 1 1 [(0, 20)] [] [] ∧
    rejects (.fabCflowRead c) 0x0931 1 1 [(0, 20)] [] [] ∧
    rejects (.fxeCalRead c) 0x0A02 1 1 [(0, 5), (8, 2), (16, 9)] [] [] ∧
    rejects (.timeRead c) 0x0B01 1 1 [(0, 1)] [] [] ∧
    rejects (.pwrGovSet c) 0x0C02 1 1 [(0, 64)] [(0, 22)] [] ∧
    rejects (.pmcRead c) 0x0E01 2 2 [(0, 11), (16, 1), (17, 1)] [(0, 12)] [(32, 0, 64)] ∧
    rejects (.errMsgRaise c) 0x0F03 1 1 [(0, 9)] [] [] ∧
    (s.timOwned c = false → s.runs 0x0B06 1 1 c [(0, 1)] [] [] = true →
      exec (.timeUnlock c) s = .next (s.complete c 0x0B06 stNotOwner 0 0)) ∧
    (s.timOwned c = false → s.runs 0x0B02 1 1 c [(0, 64)] [(0, 17)] [] = true → bitsAt c.arg0 0 32 < 1000000000 →
      exec (.timeSet c) s = .next (s.complete c 0x0B02 stNotOwner 0 0)) ∧
    (s.pwrOwned c = false → s.runs 0x0C01 1 1 c [(0, 6), (8, 1)] [] [] = true → bitsAt c.arg0 0 6 ≤ 39 →
      exec (.pwrDomainPark c) s = .next (s.complete c 0x0C01 stNotOwner 0 0)) ∧
    (s.errOwned c = false → s.runs 0x0F03 1 1 c [(0, 9)] [] [] = true → bitsAt c.arg0 0 9 ≤ 485 →
      exec (.errMsgRaise c) s = .next (s.complete c 0x0F03 stNotOwner 0 0)) ∧
    (s.fwuOwned (s.cmdMaster c) = false → s.runs 0x0D01 1 1 c [] [] [] = true →
      exec (.fwuInfo c) s = .next (s.fwuComplete c 0x0D01 stNotOwner 0 0)) ∧
    (s.owns (s.cmdMaster c) 16 = false → s.runs 0x0605 1 1 c [(0, 15), (16, 16)] [] [] = true →
      bitsAt c.arg0 0 15 ≤ bitsAt c.arg0 16 15 →
      (CamMove.mk (bitsAt c.arg0 0 15) (bitsAt c.arg0 16 15) (bitAt c.arg0 31) c).dest.isSome = true →
      exec (.camMove c) s = .next (s.complete c 0x0605 stNotOwner 0 0))

/-- After a fatal error forwarding stands still (18 R533 step 2): no slot is granted, no pass ends, schedulers, the switch and ports grant nothing;
admission drops what reaches it and counts nothing. Where the spec leaves a choice it states the model's own: log entry 105. -/
def Obligations.ForwardingStopsWhenFatal : Prop :=
  ∀ s : State, s.err.fatal = .stopped → s.off = false →
    (∀ slice idle, exec (.slotGrant slice idle) s = .next s) ∧
    (∀ slice upsets evict, exec (.ingressPassEnd slice upsets evict) s = .next s) ∧
    (∀ slice, exec (.recircEnqueue slice) s = .next s ∧ exec (.replication slice) s = .next s) ∧
    (∀ node ue cell, exec (.schedulerDecision node ue cell) s = .next s) ∧
    exec .switchMatching s = .next s ∧
    (∀ slice upsets, exec (.egressPass slice upsets) s = .next s) ∧
    (∀ link cut, (s.ptx link).sending = none → exec (.portFrameGrant link cut) s = .next s) ∧
    (∀ input ecc p rest, Assoc.get s.tm.inputs [] input = p :: rest →
      ∃ t : State, exec (.admission input ecc) s = .next t ∧ Assoc.get t.tm.inputs [] input = rest ∧ t.regs = s.regs ∧
        t.tm.queues = s.tm.queues ∧ t.outs = s.outs ∧ ∀ i, i ≠ input → Assoc.get t.tm.inputs [] i = Assoc.get s.tm.inputs [] i)

/-- The order of the slot arbiter (01 R24): the oldest first pass, else the oldest recirculated pass, else the oldest injected packet takes the
slot, and the classes above and below keep what they hold. -/
def Obligations.SlotOrder : Prop :=
  ∀ (s : State) (slice idle : Nat), s.stoppedForwarding = false → slice < 16 → (s.slice slice).frozen = false →
    s.fget (Fld.PWR_DOM_STATE_STATE (3 + slice)) ≤ 1 → s.dieResetRuns = false →
    let x := (s.slice slice).tick idle
    x.grants < 2 → x.grants < x.slots (s.fget Fld.CAM_STATUS_STEP) →
    (∀ p ps, x.hold = p :: ps → ∃ t : State, exec (.slotGrant slice idle) s = .next t ∧ (t.slice slice).hold = ps ∧
      (t.slice slice).recirc = x.recirc ∧ (t.slice slice).inject = x.inject) ∧
    (∀ p ps, x.hold = [] → x.recirc = p :: ps → ∃ t : State, exec (.slotGrant slice idle) s = .next t ∧ (t.slice slice).hold = [] ∧
      (t.slice slice).recirc = ps ∧ (t.slice slice).inject = x.inject) ∧
    (∀ p ps, x.hold = [] → x.recirc = [] → x.inject = p :: ps → ∃ t : State, exec (.slotGrant slice idle) s = .next t ∧
      (t.slice slice).hold = [] ∧ (t.slice slice).recirc = [] ∧ (t.slice slice).inject = ps)

/-- READY (15 R445): both domains of device time hold 0 s and 0 ns with rho, DRIFT and sigma at 0, are UNSET with PERMIT set, and the stamping domain
is 0. -/
def Obligations.TimeAtReady : Prop :=
  ∀ s : State, s.off = false → s.rst.released = true → s.fget Fld.RST_STATUS_PHASE = 6 ∨ s.fget Fld.RST_STATUS_PHASE = 7 →
    ∃ t : State, exec .ready s = .next t ∧ t.fget Fld.TIM_STATUS_STAMP_DOM = 0 ∧
      ∀ d < 2, let x := t.timeDomain d
        x.sec = 0 ∧ x.ns = 0 ∧ x.rho = 0 ∧ x.drift = 0 ∧ x.slew = none ∧ x.set = false ∧ x.permit = true

/-- When a Well log is written (18 R534): only with a buffer and with firmware that has started; otherwise STATE becomes NO_BUFFER (6) or NO_FIRMWARE
(7), nothing is written, and the device freezes. -/
def Obligations.WellLogOnlyWhenPossible : Prop :=
  ∀ (s : State) (n : Nat) (bodies : List (Nat × List Byte)) (failed : Bool), s.off = false → s.err.fatal = .stopped →
    (s.fget Fld.ERR_WL_SIZE_SIZE_MIB = 0 ∨ s.rst.firmwareUp = false →
      ∃ t : State, exec (.wellLogDump n bodies failed) s = .next t ∧ t.err.fatal = .frozen ∧ t.fget Fld.ERR_STATUS_FROZEN = 1 ∧ t.outs = s.outs ∧
        t.fget Fld.ERR_WL_STATUS_STATE = (if s.fget Fld.ERR_WL_SIZE_SIZE_MIB = 0 then 6 else 7)) ∧
    (s.fget Fld.ERR_WL_SIZE_SIZE_MIB ≠ 0 → s.rst.firmwareUp = true →
      ∃ t : State, ∃ more, exec (.wellLogDump n bodies failed) s = .next t ∧
        t.outs = s.outs ++ [.hostWrite s.wellBegin.wellBase (s.wellBegin.wellHeader 1)] ++ more)

/-- A calendar switch that its timeout abandons (05 R165): CR returns to 0 in the next overhead frame, the page in use and the standby page stay as they
are, the command completes with TIMEOUT, and SWITCH_TIMEOUT is set. -/
def Obligations.CalendarSwitchTimeout : Prop :=
  ∀ (s : State) (f : Nat) (w : CalSwitch), f < 32 → (s.group f).switch = some w → s.groupEn f = true →
    ∃ u : State, exec (.calSwitchTimeout f) s = .next (u.complete w.cmd 0x0A03 stTimeout 0 0) ∧ u.txPage f = s.txPage f ∧
      (u.group f).txCal = (s.group f).txCal ∧ u.fbit (Fld.FXE_GRP_EVENT_SWITCH_TIMEOUT f) = true ∧
      ∀ index < 32, ∃ v : State, exec (.overheadFrameTransmit f index) u = .next v ∧ v.fget (Fld.FXE_GRP_STATUS_CR_TX f) = 0 ∧
        v.txPage f = s.txPage f

/-- A write of the open build changes nothing that an older generation sees (03 R98, R99): on the next-hop, action-set and edit tables every version
that such a generation sees before the command it sees after it, with the same value, and all it sees after was there before, visible to it or
marked DEL. Where the spec leaves a choice it states the model's own: log entry 42. -/
def Obligations.BuildInvisibleToOlder : Prop :=
  ∀ (s t : State) (c : Cmd) (p : Nat), c.cq < 8 → s.buildOpen = true → s.genOlder p s.buildGen = true →
    let kept := fun (a b : List (Ver IdxVal)) =>
      (∀ v ∈ a, s.visible v.tag p = true → ∃ w ∈ b, w.val = v.val ∧ t.visible w.tag p = true) ∧
      (∀ w ∈ b, t.visible w.tag p = true → ∃ v ∈ a, v.val = w.val ∧ (s.visible v.tag p = true ∨ v.tag.delV = true))
    (exec (.nhSet c) s = .next t → kept s.tab.nh t.tab.nh) ∧
    (exec (.actWrite c) s = .next t → kept s.tab.act t.tab.act) ∧
    (exec (.editWrite c) s = .next t → kept s.tab.edit t.tab.edit)


/-! ### Rows that are a write of one register (22 R602-R606) -/

/-- The host-side register rows, each with its own effect: doorbells and consumer indices are taken (02 R58-R61), CE_RESET runs or waits (R70), a
disable waits (R75), a stopped ring restarts (R74, R75), a pool builds its free list (R79), an owner is stored (R89), a write to the counter window
is discarded and counted (19 R557). Where the spec leaves a choice it states the model's own: log entries 32 and 36. -/
def Obligations.HostRegisterRowsTakeEffect : Prop :=
  ∀ (s : State) (m v : Nat),
    (∀ ring < 8, s.writeTakes m (Reg.CE_CMD_PI ring) v = true → s.pfMay m (s.cmdPf ring) = true →
      s.fbit Fld.CE_STATUS_HALTED = false → s.ce.resetPending = false →
      doorbellOk (wv (Reg.CE_CMD_PI ring) v) (s.fget (Fld.CE_CMD_CI_CI ring)) (s.fget (Fld.CE_CMD_PI_PI ring))
        (s.fget (Fld.CE_CMD_SIZE_SIZE_LOG2 ring)) = true →
      exec (.cmdDoorbell m ring v) s = .next (s.fset (Fld.CE_CMD_PI_PI ring) (wv (Reg.CE_CMD_PI ring) v))) ∧
    (∀ ring < 128, s.writeTakes m (pktFld ring Fld.HIF_RXR_PI_PI).reg v = true → s.pfMay m (s.ringPf ring) = true →
      s.pktStopped ring = false →
      doorbellOk (wv (pktFld ring Fld.HIF_RXR_PI_PI).reg v) (s.pktCi ring) (s.pktPi ring) (s.pktK ring) = true →
      exec (.pktRingDoorbell m ring v) s
        = .next (s.fset (pktFld ring Fld.HIF_RXR_PI_PI) (wv (pktFld ring Fld.HIF_RXR_PI_PI).reg v))) ∧
    (∀ q < 8, s.writeTakes m (Reg.CE_CQ_CI q) v = true → s.pfMay m (s.cqPf q) = true →
      consumerOk (wv (Reg.CE_CQ_CI q) v) (s.fget (Fld.CE_CQ_CI_CI q)) (s.fget (Fld.CE_CQ_PI_PI q))
        (s.fget (Fld.CE_CQ_SIZE_SIZE_LOG2 q)) = true →
      exec (.cqCiWrite m q v) s = .next (s.fset (Fld.CE_CQ_CI_CI q) (wv (Reg.CE_CQ_CI q) v))) ∧
    (s.writeTakes m Reg.DMA_RQ_CI v = true →
      consumerOk (wv Reg.DMA_RQ_CI v) (s.fget Fld.DMA_RQ_CI_CI) (s.fget Fld.DMA_RQ_PI_PI) (s.fget Fld.DMA_RQ_SIZE_SIZE_LOG2) = true →
      exec (.dmaRqCiWrite m v) s = .next (s.fset Fld.DMA_RQ_CI_CI (wv Reg.DMA_RQ_CI v))) ∧
    (s.writeTakes m Reg.CE_RESET (withBits v 0 1 1) = true →
      exec (.ceReset m v) s
        = .next (if s.ce.executing.isEmpty then s.ceResetNow else { s with ce := { s.ce with resetPending := true } })) ∧
    (∀ ring < 128, s.writeTakes m (pktFld ring Fld.HIF_RXR_BASE_LO_ADDR).reg v = true → s.pfMay m (s.ringPf ring) = true →
      s.pktStopped ring = true →
      ∃ t : State, exec (.ringRestart m ring v) s = .next t ∧ t.pktStopped ring = false ∧ t.pktPi ring = 0 ∧ t.pktCi ring = 0) ∧
    (∀ p < 8, s.writeTakes m (Reg.HIF_POOL_CFG p) (withBits v 31 1 1) = true → s.poolEn p = false →
      let t := (s.fset (Fld.HIF_POOL_CFG_BSIZE_LOG2 p) (bitsAt v 0 4)).fset (Fld.HIF_POOL_CFG_COUNT p) (bitsAt v 4 16)
      t.poolOk p = true → exec (.poolEnable m p v) s = .next (t.poolStart p)) ∧
    (∀ b < 28, s.writeTakes m (Reg.GLB_OWN b) v = true →
      ∃ t : State, exec (.glbOwnWrite m b v) s = .next t ∧ t.fget (Fld.GLB_OWN_OWNER b) = bitsAt v 0 4) ∧
    (∀ off < 2 ^ 32, s.off = false → s.err.fatal ≠ .frozen → inPmcWindow off = true → off % 4 = 0 →
      exec (.pmcWindowWrite m off v) s = .next (s.satAdd Fld.PMC_WIN_WR_CNT_COUNT 1))

/-- RING_DISABLE on each kind of ring and queue: the enable stays set and the disable waits for what is outstanding (02 R75). Where the spec leaves
a choice it states the model's own: log entry 32. -/
def Obligations.DisableWaits : Prop :=
  ∀ (s : State) (m r v : Nat),
    (r < 8 → s.writeTakes m Reg.CE_CTRL (withBits v r 1 0) = true → bitAt (s.fget Fld.CE_CTRL_RING_EN) r = true →
      ∃ t : State, exec (.ringDisable m r v) s = .next t ∧ (Assoc.get t.ce.rings ⟨[], [], false⟩ r).disabling = true ∧
        bitAt (t.fget Fld.CE_CTRL_RING_EN) r = true) ∧
    (r < 8 → s.writeTakes m (Reg.CE_CQ_SIZE r) (withBits v 31 1 0) = true → s.pfMay m (s.cqPf r) = true →
      s.fbit (Fld.CE_CQ_SIZE_EN r) = true → bitsAt v 0 5 = s.fget (Fld.CE_CQ_SIZE_SIZE_LOG2 r) → 6 ≤ bitsAt v 0 5 → bitsAt v 0 5 ≤ 16 →
      ∃ t : State, exec (.ringDisable m (8 + r) v) s = .next t ∧ r ∈ t.ce.cqDisabling ∧ t.fbit (Fld.CE_CQ_SIZE_EN r) = true) ∧
    (r < 128 → s.writeTakes m (pktFld r Fld.HIF_RXR_CFG_SIZE_LOG2).reg (withBits v 28 1 0) = true →
      s.pfMay m (s.ringPf r) = true → s.pktEn r = true → 6 ≤ bitsAt v 0 5 → bitsAt v 0 5 ≤ 16 → bitsAt v 0 5 = s.pktK r →
      (r < 64 → bitsAt v 8 6 = s.fget (Fld.HIF_RXR_CFG_BUFSZ_64 r)) → s.vectorInRange (s.ringPf r) (bitsAt v 16 9) = true →
      ∃ t : State, exec (.ringDisable m (16 + r) v) s = .next t ∧ r ∈ t.host.ringDisabling ∧ t.pktEn r = true) ∧
    (s.writeTakes m Reg.DMA_RQ_SIZE (withBits v 31 1 0) = true → s.fbit Fld.DMA_RQ_SIZE_EN = true → 6 ≤ bitsAt v 0 5 → bitsAt v 0 5 ≤ 16 →
      bitsAt v 0 5 = s.fget Fld.DMA_RQ_SIZE_SIZE_LOG2 →
      ∃ t : State, exec (.ringDisable m 144 v) s = .next t ∧ t.dma.rqDisabling = true ∧ t.fbit Fld.DMA_RQ_SIZE_EN = true)

/-- Ports, groups, FlexE and trace rows: the chapter's hook runs on the bits written (04 R126-R146, 05 R151-R175, 06 R209). Where the spec leaves a
choice it states the model's own: log entries 18 and 68. -/
def Obligations.LineRegisterRowsTakeEffect : Prop :=
  ∀ (s : State) (m v : Nat),
    (∀ p < 128, s.writeTakes m (Reg.PRT_PORT_CFG (p / 8) (p % 8)) (withBits v 0 1 1) = true → s.portEn p = false →
      s.layoutOk (p / 8) (p % 8) (wv (Reg.PRT_PORT_CFG (p / 8) (p % 8)) (withBits v 0 1 1)) = true →
      exec (.portEnable m p v) s
        = .next ((((s.setReg (Reg.PRT_PORT_CFG (p / 8) (p % 8)) (BitVec.ofNat 32 (Nat.land v portCfgMask + 1))).startPort p).goodChange
            p).refreshPort p)) ∧
    (∀ p < 128, s.writeTakes m (Reg.PRT_PORT_CFG (p / 8) (p % 8)) (withBits v 0 1 0) = true → s.portEn p = true →
      exec (.portDisable m p v) s = .next (s.hookPortCfg p (wv (Reg.PRT_PORT_CFG (p / 8) (p % 8)) (withBits v 0 1 0)))) ∧
    (∀ g < 16, s.writeTakes m (Reg.PRT_GRP_CTRL g) (withBits v 0 1 1) = true → s.domOn (19 + g / 4) = true →
      s.fbit (Fld.PRT_GRP_CTRL_EN g) = false →
      exec (.groupEnable m g v) s = .next ((s.fset (Fld.PRT_GRP_CTRL_EN g) 1).fset (Fld.PRT_GRP_CTRL_CAL_BUSY g) 1)) ∧
    (∀ g < 16, s.writeTakes m (Reg.PRT_GRP_CTRL g) (withBits v 0 1 0) = true → s.fbit (Fld.PRT_GRP_CTRL_EN g) = true →
      exec (.groupDisable m g v) s
        = .next (((List.range 8).map fun i => 8 * g + i).foldl (fun (t : State) p => (t.stopPort p).refreshPort p)
            ((s.fset (Fld.PRT_GRP_CTRL_EN g) 0).fset (Fld.PRT_GRP_CTRL_CAL_BUSY g) 0))) ∧
    (∀ p < 128, s.writeTakes m (Reg.PRT_PORT_CAL (p / 8) (p % 8)) (withBits v 0 1 1) = true → s.portEn p = true →
      ∃ t : State, exec (.portRecalibrate m p v) s = .next t ∧ p ∈ t.ports.portCal ∧ t.regs = s.regs) ∧
    (∀ f < 32, s.writeTakes m (Reg.FXE_GRP_CFG f) (withBits v 0 1 1) = true →
      exec (.fxeGroupEnable m f v) s = .next (s.hookFxeGrp f (wv (Reg.FXE_GRP_CFG f) (withBits v 0 1 1)))) ∧
    (∀ c < 256, s.writeTakes m (Reg.FXE_CLIENT_CFG c) (withBits v 0 1 1) = true →
      exec (.fxeClientEnable m c v) s = .next (s.hookFxeClient c (wv (Reg.FXE_CLIENT_CFG c) (withBits v 0 1 1)))) ∧
    (∀ c < 256, s.writeTakes m (Reg.FXE_CLIENT_PROT c) (withBits v 0 1 1) = true →
      exec (.fxeProtEnable m c v) s = .next (s.hookFxeProt c (wv (Reg.FXE_CLIENT_PROT c) (withBits v 0 1 1)))) ∧
    (s.writeTakes m Reg.PAR_TRACE_CTRL (withBits v 0 1 1) = true →
      ∃ t : State, exec (.traceArm m v) s = .next t ∧ t.fbit Fld.PAR_TRACE_CTRL_BUSY = true)

/-- The shadow walks start and stop (07 R238), the exact-match window runs its operation (08 R259), and the rows of BUF, SHP and FAB (11 R319, 12
R368, 14 R412). Where the spec leaves a choice it states the model's own: log entry 112. -/
def Obligations.TableRegisterRowsTakeEffect : Prop :=
  ∀ (s : State) (m v : Nat),
    (∀ x ∈ [(lpmShadow, Instr.lpmShadowGo m v), (exmShadow, Instr.exmShadowGo m v), (camShadow, Instr.camShadowGo m v)],
      s.writeTakes m x.1.ctrl (withBits v 0 1 1) = true → s.fbit (x.1.fld 3 1) = false → bitAt v 2 = false →
      exec x.2 s = .next ((s.putPlain x.1.ctrl (s.plainNext x.1.ctrl (withBits v 0 1 1))).shadowGo x.1 m)) ∧
    (∀ x ∈ [(lpmShadow, Instr.lpmShadowStop m v), (exmShadow, Instr.exmShadowStop m v), (camShadow, Instr.camShadowStop m v)],
      s.writeTakes m x.1.ctrl (withBits v 0 2 2) = true → s.fbit (x.1.fld 3 1) = true →
      ∃ t : State, exec x.2 s = .next t ∧ t.fbit (x.1.fld 3 1) = false) ∧
    (∀ x ∈ [(0, Instr.exmWinRead m v), (1, Instr.exmWinInsert m v), (2, Instr.exmWinReplace m v), (3, Instr.exmWinDelete m v),
        (4, Instr.exmWinNext m v), (5, Instr.exmWinUnlearn m v), (6, Instr.exmWinFlushPort m v)],
      let w := withBits (withBits v 0 1 1) 2 3 x.1
      s.writeTakes m Reg.EXM_WIN_CTRL w = true → s.fbit Fld.EXM_WIN_CTRL_BUSY = false →
      exec x.2 s = .next ((s.putPlain Reg.EXM_WIN_CTRL (s.plainNext Reg.EXM_WIN_CTRL w)).winRun m)) ∧
    (s.writeTakes m Reg.BUF_PEAK_CLR (withBits v 0 1 1) = true →
      exec (.bufPeakClr m v) s = .next (s.fset Fld.BUF_SUMP_PEAK_SHARED_USED 0)) ∧
    (s.writeTakes m Reg.SHP_SEL v = true → srefOk (bitsAt v 0 21) = true →
      ∃ t : State, exec (.shpSelWrite m v) s = .next t ∧ t.shpSel = bitsAt v 0 21 ∧
        t.fget Fld.SHP_RATE_KBPS = (s.shaper (bitsAt v 0 21)).rate % 2 ^ 32) ∧
    (s.writeTakes m Reg.SHP_CFG v = true → s.fget Fld.SHP_SEL_KIND ≠ 5 →
      ∃ t : State, exec (.shpCfgWrite m v) s = .next t ∧ t.shaper s.shpSel
        = Shaper.configure s.shapeTime (bitAt v 0) (bitAt v 1) (s.fget Fld.SHP_RATE_KBPS) (s.fget Fld.SHP_BURST_BYTES)) ∧
    (∀ l < 160, s.writeTakes m (Reg.FAB_LINK_CTRL l) v = true →
      exec (.fabLinkEnable m l v) s = .next (s.hookFabLink l (wv (Reg.FAB_LINK_CTRL l) v))) ∧
    (s.writeTakes m Reg.GEN_DRAIN_LIMIT v = true →
      exec (.drainLimitWrite m v) s = .next (hookDrainLimit (s.putPlain Reg.GEN_DRAIN_LIMIT (s.plainNext Reg.GEN_DRAIN_LIMIT v))))

/-- The rows of TIM, HBT, ERR, PMC, FWU and RST (15 R444-R467, 17 R508, 18 R523-R531, 19 R545-R550, 20 R569, 21 R587-R590). Where the spec leaves a
choice it states the model's own: log entries 87 and 88. -/
def Obligations.SystemRegisterRowsTakeEffect : Prop :=
  ∀ (s : State) (m v : Nat),
    (∀ n < 2, s.writeTakes m (Reg.TIM_SYNCE_CFG n) v = true →
      exec (.synceCfgWrite m n v) s = .next (s.hookSynce n (wv (Reg.TIM_SYNCE_CFG n) v))) ∧
    (∀ n < 8, s.writeTakes m (Reg.TIM_TRIG_CFG n) (withBits v 0 1 1) = true →
      exec (.triggerEnable m n v) s = .next (s.hookTrig n (wv (Reg.TIM_TRIG_CFG n) (withBits v 0 1 1)))) ∧
    (s.writeTakes m Reg.TIM_SNAP (withBits v 0 1 1) = true →
      ∃ t : State, exec (.timSnap m v) s = .next t ∧ ∀ d < 2, t.getInstant (Fld.TIM_SNAP_NS_NS d) (Fld.TIM_SNAP_SEC_LO_SEC d)
        (Fld.TIM_SNAP_SEC_HI_SEC d) = (s.timeDomain d).count % (2 ^ 48 * 1000000000)) ∧
    (∀ k < 6, s.writeTakes m (Reg.HBT_STACK_CTRL k) (withBits v 0 1 1) = true → s.domOn (31 + k) = true →
      s.stackState 1 k = 3 ∨ s.stackState 1 k = 4 →
      exec (.hbtTrain m k v) s = .next ((s.fset (Fld.HBT_STACK_STATUS_STATE k) 1).fset (Fld.HBT_STACK_STATUS_TRAINED k) 0)) ∧
    (s.writeTakes m Reg.ERR_LOG_POP (withBits v 0 1 1) = true →
      exec (.errLogPopReg m v) s = .next { s with err := { s.err with log := s.err.log.tail } }) ∧
    (s.writeTakes m Reg.ERR_SW_RAISE v = true → bitsAt v 0 9 ≤ 485 →
      exec (.errSwRaise m v) s = .next (s.pulse (730 + bitsAt v 0 9))) ∧
    (∀ n < 512, s.writeTakes m (Reg.ERR_VEC n) (withBits v 0 1 1) = true →
      exec (.errVecRearm m n v) s = .next (if s.vectorActive n then s.sendMessage n else s)) ∧
    (s.writeTakes m Reg.ERR_FATAL_FORCE (withBits v 0 1 1) = true →
      exec (.errFatalForce m v) s = .next (s.raiseError 0x0503 m)) ∧
    (s.writeTakes m Reg.PMC_RUN (withBits v 0 2 1) = true →
      ∃ t : State, exec (.pmcRunStart m v) s = .next t ∧ t.pmcs.run = some ⟨1, bitsAt v 2 2, ceilDiv (s.nowNs + 1000) 1000 * 1000⟩) ∧
    (s.writeTakes m Reg.PMC_RUN (withBits v 0 2 2) = true →
      ∃ t : State, exec (.pmcRunStop m v) s = .next t ∧ t.pmcs.run = some ⟨2, bitsAt v 2 2, ceilDiv (s.nowNs + 1000) 1000 * 1000⟩) ∧
    (s.writeTakes m Reg.PMC_CLR v = true →
      exec (.pmcClr m v) s = .next (if bitAt v 12 then s.pmcClearBank (bitsAt v 11 1) else s.pmcClear (bitsAt v 11 1) (bitsAt v 0 11))) ∧
    (∀ b < 2, ∀ n < 2048, s.writeTakes m (Reg.PMC_CFG b n) v = true →
      pmcCfgOk b (bitsAt v 0 12) (bitsAt v 12 10) (bitAt v 22) (s.fget (Fld.PMC_QUAL_QUAL b n)) = true →
      ∃ t : State, exec (.pmcCfgWrite m b n false v) s = .next t ∧ bitsAt (t.reg (Reg.PMC_CFG b n)).toNat 0 23 = bitsAt v 0 23) ∧
    (∀ b < 2, ∀ n < 2048, s.writeTakes m (Reg.PMC_QUAL b n) v = true →
      pmcCfgOk b (bitsAt (s.reg (Reg.PMC_CFG b n)).toNat 0 12) (bitsAt (s.reg (Reg.PMC_CFG b n)).toNat 12 10)
        (bitAt (s.reg (Reg.PMC_CFG b n)).toNat 22) (bitsAt v 0 8) = true →
      ∃ t : State, exec (.pmcCfgWrite m b n true v) s = .next t ∧ t.fget (Fld.PMC_QUAL_QUAL b n) = bitsAt v 0 8)

/-- The reset rows and the mailbox (20 R569, 21 R587-R594). Where the spec leaves a choice it states the model's own: log entries 16 and 40. -/
def Obligations.ResetRowsTakeEffect : Prop :=
  ∀ (s : State) (m v : Nat),
    (s.writeTakes m Reg.RST_CTRL (withBits v 0 1 1) = true → exec (.deviceReset m v) s = .next (s.askDeviceReset 2 m)) ∧
    (s.writeTakes m Reg.RST_CTRL (withBits v 1 1 1) = true → s.fbit Fld.RST_STATUS_READY = true →
      s.fbit Fld.RST_STATUS_DIE_FE_BUSY = false → bitAt v 0 = false → bitsAt v 2 2 = 0 →
      exec (.dieResetFe m v) s = .next (s.dieReset 0)) ∧
    (s.writeTakes m Reg.RST_CTRL (withBits v 2 1 1) = true → s.fbit Fld.RST_STATUS_READY = true →
      s.fbit Fld.RST_STATUS_DIE_TM_BUSY = false → bitsAt v 0 2 = 0 → bitAt v 3 = false →
      exec (.dieResetTm m v) s = .next (s.dieReset 1)) ∧
    (s.writeTakes m Reg.RST_BLOCK (withBits v 3 1 1) = true → bitsAt (withBits v 3 1 0) 0 28 = 0 →
      exec (.blockResetDma m v) s = .next s.resetDma) ∧
    (s.writeTakes m Reg.RST_BLOCK (withBits v 6 1 1) = true → bitsAt (withBits v 6 1 0) 0 28 = 0 →
      exec (.blockResetPmc m v) s = .next s.pmcReset) ∧
    (s.writeTakes m Reg.RST_BLOCK (withBits v 12 1 1) = true → bitsAt (withBits v 12 1 0) 0 28 = 0 →
      s.fbit Fld.RST_STATUS_DIE_FE_BUSY = false → exec (.blockResetFxe m v) s = .next s.resetFxe) ∧
    (s.writeTakes m Reg.RST_CTRL (withBits v 3 1 1) = true → bitsAt v 0 3 = 0 → s.release.2 = .ok →
      exec (.primingRelease m v) s = .next s.release.1) ∧
    (s.writeTakes m Reg.TIM_CFG v = true →
      exec (.refFreqRelock m v) s = .next (s.putPlain Reg.TIM_CFG (s.plainNext Reg.TIM_CFG v)).relock) ∧
    (∀ bad, s.writeTakes m Reg.FWU_MBOX_CTRL (withBits v 0 1 1) = true → s.fbit Fld.FWU_MBOX_CTRL_BUSY = false →
      exec (.fwuMboxGo m v bad) s = .next (hookMboxGo m (wv Reg.FWU_MBOX_CTRL (withBits v 0 1 1)) bad
        (s.putPlain Reg.FWU_MBOX_CTRL (s.plainNext Reg.FWU_MBOX_CTRL (withBits v 0 1 1)))))

/-! ### Ring commands: engine and DMA (02 R66, R83-R86) -/

/-- NOP, ECHO and REG_READ answer and change nothing but their completion (R66, R44); REG_WRITE applies its pairs in order; COPY, FILL and COMPARE
join their channel, with BUSY set, and complete later (R82, R83); ABORT withdraws the transfer in progress (R85). Where the spec leaves a choice it
states the model's own: log entries 21, 22, 23 and 25. -/
def Obligations.EngineAndDmaCommandsComplete : Prop :=
  ∀ (s : State) (c : Cmd),
    (s.takes 0x0100 1 16 c = true → exec (.nop c) s = .next (s.complete c 0x0100 stOK 0 0)) ∧
    (s.runs 0x0101 1 1 c [(0, 64)] [] [] = true → exec (.echo c) s = .next (s.complete c 0x0101 stOK (c.arg0 % 2 ^ 64) 0)) ∧
    (s.runs 0x0102 1 1 c [(0, 32)] [] [] = true → bitsAt c.arg0 0 32 < 0x8000000 → bitsAt c.arg0 0 32 % 4 = 0 →
      exec (.regRead c) s = .next (s.complete c 0x0102 stOK (s.readBy (some (s.cmdPf c.ring)) (bitsAt c.arg0 0 32)) 0)) ∧
    (let n := bitsAt c.arg0 0 8
      let r := writePairs (s.cmdMaster c) ((List.range n).map fun i => (c.fld (32 + 8 * i) 0 32, c.fld (36 + 8 * i) 0 32)) 0 s
      s.runs 0x0103 2 16 c [(0, 8)] [] [(32, 0, 64 * n)] = true → 1 ≤ n → n ≤ 4 * (c.len - 1) → r.2.1 = stOK →
      exec (.regWrite c) s = .next (r.1.complete c 0x0103 stOK n 0)) ∧
    (let ch := bitsAt c.arg1 0 4
      let x : Xfer := ⟨.copy (c.fld 32 0 64) (c.fld 40 0 64) (c.fld 52 0 1 == 1) (c.fld 52 1 1 == 1), c.fld 48 0 32, 8, c.tag, some c⟩
      s.runs 0x0201 2 2 c [] [(0, 4)] [(32, 0, 64), (40, 0, 64), (48, 0, 32), (52, 0, 2)] = true → ch < 8 →
      sideOk (c.fld 52 0 1 == 1) false (c.fld 32 0 64) (c.fld 48 0 32) = true →
      sideOk (c.fld 52 1 1 == 1) true (c.fld 40 0 64) (c.fld 48 0 32) = true →
      ((c.fld 52 0 1 == 1) && !s.pagesReadable (c.fld 32 0 64) (c.fld 48 0 32)) = false →
      ∃ t : State, exec (.copy c) s = .next t ∧ Assoc.get t.dma.chans [] ch = Assoc.get s.dma.chans [] ch ++ [x] ∧
        t.fbit (Fld.DMA_CH_STATUS_BUSY ch) = true ∧ t.host = s.host ∧ t.outs = s.outs ∧ t.ce = s.ce) ∧
    (let ch := bitsAt c.arg1 0 4
      let x : Xfer := ⟨.fill (c.fld 32 0 64) (c.fld 40 0 64) (c.fld 52 0 1 == 1), c.fld 48 0 32, 8, c.tag, some c⟩
      s.runs 0x0202 2 2 c [] [(0, 4)] [(32, 0, 64), (40, 0, 64), (48, 0, 32), (52, 0, 1)] = true → ch < 8 →
      sideOk (c.fld 52 0 1 == 1) true (c.fld 32 0 64) (c.fld 48 0 32) = true →
      ∃ t : State, exec (.fill c) s = .next t ∧ Assoc.get t.dma.chans [] ch = Assoc.get s.dma.chans [] ch ++ [x] ∧
        t.fbit (Fld.DMA_CH_STATUS_BUSY ch) = true ∧ t.host = s.host ∧ t.outs = s.outs ∧ t.ce = s.ce) ∧
    (let ch := bitsAt c.arg1 0 4
      let x : Xfer := ⟨.compare (c.fld 32 0 64) (c.fld 40 0 64) (c.fld 52 0 1 == 1) (c.fld 52 1 1 == 1), c.fld 48 0 32, 8, c.tag, some c⟩
      s.runs 0x0203 2 2 c [] [(0, 4)] [(32, 0, 64), (40, 0, 64), (48, 0, 32), (52, 0, 2)] = true → ch < 8 →
      sideOk (c.fld 52 0 1 == 1) false (c.fld 32 0 64) (c.fld 48 0 32) = true →
      sideOk (c.fld 52 1 1 == 1) false (c.fld 40 0 64) (c.fld 48 0 32) = true →
      ((c.fld 52 0 1 == 1) && !s.pagesReadable (c.fld 32 0 64) (c.fld 48 0 32)) = false →
      ((c.fld 52 1 1 == 1) && !s.pagesReadable (c.fld 40 0 64) (c.fld 48 0 32)) = false →
      ∃ t : State, exec (.compare c) s = .next t ∧ Assoc.get t.dma.chans [] ch = Assoc.get s.dma.chans [] ch ++ [x] ∧
        t.fbit (Fld.DMA_CH_STATUS_BUSY ch) = true ∧ t.host = s.host ∧ t.outs = s.outs ∧ t.ce = s.ce) ∧
    (∀ (a b : List Byte) (n : Nat), s.runs 0x0204 1 1 c [] [(0, 4)] [] = true → bitsAt c.arg1 0 4 < 8 →
      exec (.abort c a b n) s = .next ((s.dmaWithdraw (bitsAt c.arg1 0 4) a b n).complete c 0x0204 stOK 0 0))

/-- The events of the command engine (02 R59-R75): fetched units are taken up to the doorbell and the consumer index moves and is written back; the
lowest ring's head starts; a coalescing timer fires the queue's vector; a disable that waits ends. Where the spec leaves a choice it states the
model's own: log entries 32 and 33. -/
def Obligations.EngineEventsTakeEffect : Prop :=
  ∀ s : State,
    (∀ (ring : Nat) (bytes : List Byte),
      let k := s.fget (Fld.CE_CMD_SIZE_SIZE_LOG2 ring)
      let ci := s.fget (Fld.CE_CMD_CI_CI ring)
      let n := min (min 16 (bytes.length / 32)) (min (occ (s.fget (Fld.CE_CMD_PI_PI ring)) ci k) (2 ^ k - ci % 2 ^ k))
      let ci' := (ci + n) % 2 ^ (k + 1)
      let part := (Assoc.get s.ce.rings ⟨[], [], false⟩ ring).part
      ring < 8 → s.ceIdle = false → bitAt (s.fget Fld.CE_CTRL_RING_EN) ring = true → n ≠ 0 →
      exec (.commandFetchReturn ring bytes) s
        = .next (takeEntries 32 ring ((ci + 2 ^ (k + 1) - part.length / 32) % 2 ^ (k + 1)) (part ++ bytes.take (32 * n))
            ((s.fset (Fld.CE_CMD_CI_CI ring) ci').writeIndex (Reg.CE_CMD_WB_LO ring) (Reg.CE_CMD_WB_HI ring) ci'))) ∧
    (∀ (e : Entry) (rest : List Entry), s.ceIdle = false → s.ce.executing.length < 256 →
      (List.range 8).filterMap s.startable = e :: rest → s.cqUsable e.cmd.cq e.cmd.ring = true → s.cqSlots e.cmd.cq ≠ 0 →
      exec .commandStart s = .next (s.startEntry e)) ∧
    (∀ m, s.off = false → m ∈ s.ce.coalescing → exec (.coalesceTimer m) s = .next (s.fireCq m)) ∧
    (∀ r < 8, s.off = false → (Assoc.get s.ce.rings ⟨[], [], false⟩ r).disabling = true →
      (Assoc.get s.ce.rings ⟨[], [], false⟩ r).fetched = [] →
      ∃ t : State, exec (.ringDisableDone r) s = .next t ∧ bitAt (t.fget Fld.CE_CTRL_RING_EN) r = false) ∧
    (∀ m < 8, s.off = false → m ∈ s.ce.cqDisabling → (∀ e ∈ s.ce.executing, e.cmd.cq ≠ m) →
      ∃ t : State, exec (.ringDisableDone (8 + m)) s = .next t ∧ t.fbit (Fld.CE_CQ_SIZE_EN m) = false ∧ m ∉ t.ce.cqDisabling) ∧
    (∀ r < 128, s.off = false → r ∈ s.host.ringDisabling →
      ∃ t : State, exec (.ringDisableDone (16 + r)) s = .next t ∧ t.pktEn r = false ∧ r ∉ t.host.ringDisabling) ∧
    (s.off = false → s.dma.rqDisabling = true → s.dma.due = [] →
      ∃ t : State, exec (.ringDisableDone 144) s = .next t ∧ t.fbit Fld.DMA_RQ_SIZE_EN = false ∧ t.dma.rqDisabling = false)

/-- Packet rings, pools and transfers (02 R76-R86): a whole packet is placed in its ring's buffers, a posted transmit packet leaves its ring by its
mode, a bucket is taken and given back, a transfer ends or is withdrawn, and a record that is due is written while the queue has room. Where the
spec leaves a choice it states the model's own: log entries 26, 34, 35 and 36. -/
def Obligations.PacketRingAndDmaEventsTakeEffect : Prop :=
  ∀ s : State, s.off = false → s.err.fatal ≠ .frozen →
    (∀ (ring : Nat) (descs : List (List Byte)) (p : RxPacket),
      let n := ceilDiv p.bytes.length (64 * s.fget (Fld.HIF_RXR_CFG_BUFSZ_64 ring))
      let ds := (List.range n).map fun i => descs.getD i []
      let s1 := { s with host := { s.host with rx := removeFirst (fun q => q.ring == ring && q.complete) s.host.rx } }
      (s.host.pools.any fun (kv : Nat × PoolState) => kv.2.waiting.any fun w => w.1 == 0) = false →
      s.host.rx.find? (fun q => q.ring == ring && q.complete) = some p → s.fget (Fld.HIF_RXR_CFG_BUFSZ_64 ring) ≠ 0 →
      n ≤ s.pktAvail ring → ds.all rxDescOk = true →
      exec (.rxDelivery ring descs) s
        = .next ((ds.zipIdx.foldl (fun (t : State) x => t.rxBuffer p (64 * s.fget (Fld.HIF_RXR_CFG_BUFSZ_64 ring)) x.2 n x.1) s1).pktAdvance
            ring n)) ∧
    (∀ (ring : Nat) (descs bufs ds : List (List Byte)),
      let d := ds.headD []
      let bytes := ds.zipIdx.flatMap fun x => (bufs.getD x.2 []).take (leAt x.1 8 2 % 2 ^ 14)
      ring < 64 → packetDescs (s.pktAvail (64 + ring)) descs = some ds → descFault ds = none →
      ds.foldl (fun n d => n + leAt d 8 2 % 2 ^ 14) 0 ≤ 9600 →
      (bitAt (byteOr0 d 10) 1 = true →
        exec (.txDescriptorFetch ring descs bufs) s
          = .next ((s.injectDirect ring d bytes (s.wbSlots ring ds)
              ((s.pktCi (64 + ring) + ds.length - 1) % 2 ^ s.pktK (64 + ring))).pktAdvance (64 + ring) ds.length)) ∧
      (bitAt (byteOr0 d 10) 1 = false → s.domOn (3 + byteOr0 d 11 % 16) = true → (s.slice (byteOr0 d 11 % 16)).inject.length < 256 →
        exec (.txDescriptorFetch ring descs bufs) s
          = .next (((s.injectSlice (byteOr0 d 11 % 16) d bytes).txEnd ring (s.wbSlots ring ds) 0).pktAdvance (64 + ring) ds.length))) ∧
    (∀ requester size p, requester < 8 → s.poolFor size = some p → s.poolEmpty p = false → s.inPool p (s.pool p).head = true →
      s.fbit (Fld.HIF_POOL_STAT_FROZEN p) = false → p < 8 →
      ∃ t : State, exec (.bucketAlloc requester size) s = .next t ∧ t.host.buckets = s.host.buckets ++ [(p, (s.pool p).head, requester)] ∧
        (t.pool p).head = leNat (s.hostMem (s.pool p).head 8) ∧ t.host.mem = s.host.mem) ∧
    (∀ p a, (s.host.buckets.any fun b => b.1 == p && b.2.1 == a) = true → (s.pool p).waiting = [] →
      ∃ t : State, exec (.bucketFree p a) s = .next t ∧ (t.pool p).head = a ∧ t.hostMem a 8 = leBytes 8 (s.pool p).head) ∧
    (∀ ch a b x xs, Assoc.get s.dma.chans [] ch = x :: xs → s.dmaHeld ch = false →
      let r := s.dmaRun x a b x.length none
      exec (.dmaTransferDone ch a b none) s = .next (r.1.dmaEndRun ch x r.2.1 r.2.2.1 r.2.2.2)) ∧
    (∀ ch a b n x xs, 8 ≤ ch → Assoc.get s.dma.chans [] ch = x :: xs →
      let r := s.dmaRun x a b (min n x.length) none
      exec (.dmaWithdraw ch a b n) s
        = .next (r.1.dmaEndRun ch x (if r.2.1 = stOK then stWithdrawn else r.2.1) r.2.2.1 r.2.2.2)) ∧
    (∀ r rs,
      let k := s.fget Fld.DMA_RQ_SIZE_SIZE_LOG2
      let pi := s.fget Fld.DMA_RQ_PI_PI
      s.dma.due = r :: rs → s.fbit Fld.DMA_RQ_SIZE_EN = true → s.rqWaits = false →
      ∃ t : State, exec .dmaRecordWrite s = .next t ∧ t.dma.due = rs ∧ t.fget Fld.DMA_RQ_PI_PI = (pi + 1) % 2 ^ (k + 1) % 2 ^ 17 ∧
        Out.hostWrite (s.pair Reg.DMA_RQ_BASE_LO Reg.DMA_RQ_BASE_HI + 32 * (pi % 2 ^ k)) (r.bytes pi k) ∈ t.outs)

/-! ### Generations (03 R91-R122) -/

/-- The commands of the generation unit while no other of them is under way (R122): an open build takes the index after ACTIVE and the next sequence
number, a commit arms its instant, a cancel takes it back, an abandon starts its walk, a query and a new margin answer. Where the spec leaves a
choice it states the model's own: log entries 43 and 44. -/
def Obligations.GenerationCommandsComplete : Prop :=
  ∀ (s : State) (c : Cmd), s.genClosing = false →
    (let g := s.buildGen
      let seq := (s.genSeq s.activeGen + 1) % 2 ^ 32
      s.runs 0x0301 1 1 c [] [] [] = true → s.buildOpen = false → s.commitPending = false → s.genStateOf g = genFree →
      ∃ t : State, exec (.genOpen c) s = .next (t.complete c 0x0301 stOK (g + 2 ^ 32 * seq) 0) ∧ t.buildOpen = true ∧ t.genStateOf g = genBuilding ∧
        t.genSeq g = seq ∧ t.fget Fld.GEN_STATE_HOLDER = s.cmdMaster c % 16 ∧ t.tab = s.tab) ∧
    (∀ late t, s.runs 0x0302 1 1 c [(0, 64)] [(0, 17), (32, 16)] [] = true → s.tablesBusy = false → s.buildOpen = true →
      s.fget Fld.GEN_STATE_HOLDER = s.cmdMaster c → s.commitInstant c = .ok t → s.liveCount < 3 →
      exec (.genCommit c late) s = .next (((s.setWait none).armCommit t late).complete c 0x0302 stOK
        (t % 1000000000 + 2 ^ 32 * (t / 1000000000 % 2 ^ 32))
        (t / 1000000000 / 2 ^ 32 % 2 ^ 16 + 2 ^ 16 * s.buildGen + 2 ^ 32 * s.genSeq s.buildGen))) ∧
    (s.runs 0x0303 1 1 c [] [] [] = true → s.commitPending = true → s.fget Fld.GEN_STATE_HOLDER = s.cmdMaster c →
      s.nowCeil + 2000 ≤ s.getInstant Fld.GEN_COMMIT_NS_NS Fld.GEN_COMMIT_SEC_LO_SEC Fld.GEN_COMMIT_SEC_HI_SEC →
      ∃ t : State, exec (.genCancel c) s = .next (t.complete c 0x0303 stOK s.buildGen 0) ∧ t.gen.arm = none ∧ t.commitPending = false ∧
        t.buildOpen = true ∧ t.tab = s.tab) ∧
    (s.runs 0x0304 1 1 c [] [] [] = true → s.tablesBusy = false → s.buildOpen = true → s.fget Fld.GEN_STATE_HOLDER = s.cmdMaster c →
      ∃ t : State, exec (.genAbandon c) s = .next t ∧ t.gen.walks = s.gen.walks ++ [Walk.mk s.buildGen (some c)] ∧ t.buildOpen = false ∧
        t.genStateOf s.buildGen = genReclaim ∧ t.tab = s.tab) ∧
    (s.runs 0x0305 1 1 c [] [] [] = true →
      exec (.genQuery c) s = .next (s.complete c 0x0305 stOK ((s.reg Reg.GEN_STATE).toNat % 2 ^ 16 + 2 ^ 32 * s.genSeq s.activeGen)
        (match s.oldestDraining with | some g => s.fget (Fld.GEN_DRAIN_COUNT g) | none => 0))) ∧
    (let t := bitsAt c.arg0 0 3
      let m := bitsAt c.arg0 8 5
      s.runs 0x0306 1 1 c [(0, 3), (8, 5)] [] [] = true → t ≤ 6 → 3 ≤ m → m ≤ 25 → s.buildOpen = false → s.commitPending = false →
      s.genVisible t s.activeGen ≤ tableCapacity t * (100 - m) / 100 →
      exec (.genSetMargin c) s
        = .next ((s.fset (Fld.GEN_MARGIN_PERCENT t) m).complete c 0x0306 stOK (s.fget (Fld.GEN_MARGIN_PERCENT t)) 0))

/-- The events of the generation unit (R95, R109, R117-R120) and the end of a CAM move (09 R272): the build becomes ACTIVE and the old generation
DRAINING; a drained generation retires; a waiting commit repeats its checks, or ends with GEN_LIMIT; a walk rewrites every table; a slow drain is
reported. Where the spec leaves a choice it states the model's own: log entries 42, 44, 45 and 48. -/
def Obligations.GenerationEventsTakeEffect : Prop :=
  ∀ s : State,
    (∀ a, s.gen.arm = some a → s.off = false → s.commitPending = true → s.genStateOf a.build = genPending → a.build < 4 → s.activeGen < 4 →
      s.activeGen ≠ a.build → (s.waitFor (a.instant / 4)).activeGen = s.activeGen →
      ∃ t : State, exec .genActivation s = .next t ∧ t.activeGen = a.build ∧ t.genStateOf a.build = genActive ∧
        t.genStateOf s.activeGen = genDraining ∧ t.commitPending = false ∧ t.fget Fld.GEN_STATE_HOLDER = 0) ∧
    (∀ g, s.oldestDraining = some g → s.off = false → s.fget (Fld.GEN_DRAIN_COUNT g) = 0 →
      ∃ t : State, exec .genRetirement s = .next t ∧ Walk.mk (supersededBy g) none ∈ t.gen.walks ∧
        t.gen.superseded = Assoc.erase (s.waitFor (Assoc.get s.gen.superseded 0 g + 1000)).gen.superseded g) ∧
    (∀ r, s.gen.wait = some (.retirement r true) → exec .genCommitRetry s = .next (genFinish r (genCommitNow r true s))) ∧
    (∀ r, s.gen.wait = some (.retirement r false) → s.gen.queue = [] →
      exec .genCommitWaitExpiry s = .next ((s.setWait none).complete r.cmd r.opcode stGenLimit 0 0)) ∧
    (∀ w ws, s.gen.walks = w :: ws → s.tab.camMove = none → w.abandon = none →
      let s1 := (s.bgSpend 6).walkTables w.gen false
      let s2 := { s1 with gen := { s1.gen with walks := ws } }
      exec .journalWalkEnd s
        = .next (((if s2.genStateOf w.gen = genReclaim then s2.fset (fldGenState w.gen) genFree else s2).setEvent
            Fld.GEN_EVENT_RECLAIM_DONE).camResume)) ∧
    (∀ g < 4, s.genStateOf g = genDraining → s.fget Fld.GEN_DRAIN_LIMIT_MS ≠ 0 → s.off = false →
      exec (.drainSlowExpiry g) s
        = .next ((s.waitFor (Assoc.get s.gen.superseded 0 g + s.fget Fld.GEN_DRAIN_LIMIT_MS * 1000000 + 1)).drainSlow g)) ∧
    (∀ m, s.tab.camMove = some m → s.gen.wait = none → s.tab.camHeld = [] →
      ∃ t : State, exec .camMoveDone s = .next t ∧
        t.tab.cam = s.tab.cam.map (fun v => { v with val := { v.val with idx := m.shift v.val.idx } }) ∧ t.tab.camHeld = [])

/-! ### Prefix and exact-match tables (07, 08) -/

/-- A write context that the checks of 03 R100, R101 and R107 accept, and the route, entry or group operation under it, which answers what it stores
(03 R99, R102): the route commands, next hops and ECMP groups complete with it (07 R232, R233). Where the spec leaves a choice it states the model's
own: log entries 45 and 46. -/
def Obligations.PrefixWritesComplete : Prop :=
  ∀ (s t : State) (c : Cmd) (ctx : WriteCtx) (r0 : Nat), s.writeCtx (s.cmdMaster c) = .ok ctx →
    (∀ x ∈ [(0x0401, VerOp.insert, Instr.lpmInsert c), (0x0402, VerOp.replace, Instr.lpmReplace c), (0x0403, VerOp.delete, Instr.lpmDelete c)],
      s.runs x.1 2 2 c [(0, 64)] [(0, 64)] routeFields = true → (cmdRoute c).check x.2.1 = none →
      s.routeApply ctx x.2.1 (cmdRoute c) = .ok (t, r0) → exec x.2.2 s = .next (t.complete c x.1 stOK r0 0)) ∧
    (∀ (b got : List Byte), s.runs 0x0406 2 2 c [] [] [(32, 0, 64), (40, 0, 20)] = true → c.fld 40 0 20 ≠ 0 →
      let r := bulkRun ctx (chunks 32 (min (c.fld 40 0 20) (b.length / 32)) b) 0 s
      r.2.2 = stOK → exec (.lpmBulk c (.bytes b) got) s = .next (r.1.complete c 0x0406 stOK r.2.1 0)) ∧
    (let x := c.fld 32 0 128
      let op := bitsAt c.arg0 24 2
      let i := bitsAt c.arg0 0 19
      s.runs 0x0410 2 2 c [(0, 19), (24, 2)] [] [(33, 0, 60)] = true → op ≠ 3 → (op ≠ 2 → nhActSet x ≤ 262143 ∧ nhEncap x ≤ 262143) →
      s.idxApply nhTable ctx (verOpOf op) i x (s.idxHas s.tab.act ctx.gen (nhActSet x) && s.refOk s.tab.encap ctx.gen (nhEncap x))
        (s.nhRefs ctx.gen i) = .ok t →
      exec (.nhSet c) s = .next (t.complete c 0x0410 stOK 0 0)) ∧
    (
      let i := bitsAt c.arg0 0 16
      s.runs 0x0412 1 1 c [(0, 16), (24, 2), (32, 8)] [(0, 64)] [] = true → bitsAt c.arg0 24 2 < 3 →
      ∀ d u a b, s.groupCmd c ecmpGroups (bitsAt c.arg0 24 2) i (bitsAt c.arg0 32 8 + 1) 4 d
          (fun m => if m < 524288 then none else some stOutOfRange) (fun ms g => ms.all fun m => s.idxHas s.tab.nh g m)
          (fun g => s.ecmpRefs g i) = (u, .done stOK a b) →
        exec (.ecmpSet c d) s = .next (u.complete c 0x0412 stOK a b))

/-- The reads of the prefix tables answer the version visible in the generation read, and change nothing but their completion and what the
read meets (07 R232, R233, 03 R98). -/
def Obligations.PrefixReadsComplete : Prop :=
  ∀ (s : State) (c : Cmd),
    (∀ upsets v, let g := c.fld 41 0 2
      let r := cmdRoute c
      let s1 := upsets.foldl State.lpmUpset (s.hbfUes 17 upsets)
      upsets.any (·.data) = false → s.runs 0x0404 2 2 c [(0, 64)] [(0, 64)] (routeFields ++ [(41, 0, 2)]) = true → r.check .delete = none → s.genReadable g = true →
      s1.tab.lpm.find? (fun e : Ver LpmEntry => e.val.family == r.family && e.val.vrf == r.vrf && e.val.len == r.len && e.val.pfx == r.pfx
        && s1.visible e.tag g) = some v → v.val.bad = false →
      exec (.lpmRead c upsets) s = .next (s1.complete c 0x0404 stOK (v.val.result + 2 ^ 19 * v.val.rtype + 2 ^ 20 * v.val.cls
        + 2 ^ 28 * (match v.val.place with | .overflow _ => 1 | _ => 0)) v.tag.bits)) ∧
    (∀ upsets, let g := c.fld 41 0 2
      let r := cmdRoute c
      let s0 := upsets.foldl State.lpmUpset (s.hbfUes 17 upsets)
      upsets.any (·.data) = false → s.runs 0x0405 2 2 c [(0, 64)] [(0, 64)] (routeFields ++ [(41, 0, 2), (44, 0, 32)]) = true →
      r.len ≤ (if r.family = 1 then 128 else 32) → s.genReadable g = true →
      let s1 := (s0.free 1).2
      let x := s1.lpmLookup (r.pfx + 2 ^ 128 * r.vrf + 2 ^ 159 * r.family) g (c.fld 44 0 32) (s0.free 1).1
      exec (.lpmLookup c upsets) s = .next (s1.complete c 0x0405 stOK x.bits (x.cands + 256 * x.falseCands))) ∧
    (∀ v, s.runs 0x0411 1 1 c [(0, 19)] [(0, 2)] [] = true → s.genReadable (bitsAt c.arg1 0 2) = true →
      s.idxVer s.tab.nh (bitsAt c.arg1 0 2) (bitsAt c.arg0 0 19) = some v → v.val.bad = false →
      exec (.nhRead c) s = .next (s.complete c 0x0411 stOK (bitsAt (verBits 128 v) 0 64) (bitsAt (verBits 128 v) 64 64))) ∧
    (∀ x b, s.runs 0x0413 2 2 c [(0, 16)] [(0, 2)] [(32, 0, 64)] = true → s.genReadable (bitsAt c.arg1 0 2) = true →
      s.idxGet s.tab.ecmp (bitsAt c.arg1 0 2) (bitsAt c.arg0 0 16) = some x → blockAt s.tab.ecmpBlocks (ecmpBase x) = some b →
      exec (.ecmpRead c) s = .next ((s.emit (.hostWrite (c.fld 32 0 64)
        (b.members.flatMap fun m => leBytes 4 (m + parityOf 31 m * 2 ^ 31)))).complete c 0x0413 stOK
          (ecmpBase x + 2 ^ 20 * (ecmpSize x - 1)) 0))

/-- The exact-match commands (08 R263-R265): writes and reads by key, removal of a learned entry, the cursor reads, the flush. -/
def Obligations.ExactMatchCommandsComplete : Prop :=
  ∀ (s : State) (c : Cmd),
    (∀ upsets, ∀ x ∈ [(0x0501, VerOp.insert, Instr.exmInsert c upsets), (0x0502, VerOp.replace, Instr.exmReplace c upsets),
        (0x0503, VerOp.delete, Instr.exmDelete c upsets)],
      let s1 := upsets.foldl State.exmUpset (s.hbfUes 17 upsets)
      ∀ ctx t r0, s.runs x.1 3 3 c [] [] (if x.2.1 = .delete then exmKeyFields else exmDataFields) = true →
      s1.exmCheck (cmdKey c) (if x.2.1 = .delete then none else some (c.fld 80 0 24, c.fld 83 0 2)) = none →
      s1.writeCtx (s.cmdMaster c) = .ok ctx → s1.exmApply ctx x.2.1 (cmdKey c) (c.fld 80 0 24) (c.fld 83 0 2) = .ok (t, r0) →
      exec x.2.2 s = .next (t.complete c x.1 stOK r0 0)) ∧
    (∀ upsets v, let s1 := upsets.foldl State.exmUpset (s.hbfUes 17 upsets)
      s.runs 0x0504 3 3 c [] [(0, 2)] exmKeyFields = true → s1.exmCheck (cmdKey c) none = none →
      s1.genReadable (bitsAt c.arg1 0 2) = true → s1.exmBad (tblOf (cmdKey c)) (keyOf (cmdKey c)) = false →
      s1.tab.exm.find? (fun v => v.val.isKey (tblOf (cmdKey c)) (keyOf (cmdKey c)) && s1.visible v.tag (bitsAt c.arg1 0 2)) = some v →
      exec (.exmRead c upsets) s = .next (s1.complete c 0x0504 stOK (exmReadBits v.val + 2 ^ 32 * v.val.cursor) v.tag.bits)) ∧
    (∀ upsets v, let hit := fun (w : Ver ExmEntry) => verLearned w && w.val.isKey (tblOf (cmdKey c)) (keyOf (cmdKey c))
      let s1 := upsets.foldl State.exmUpset (s.hbfUes 17 upsets)
      s.runs 0x0505 3 3 c [] [] exmKeyFields = true → s1.exmCheck (cmdKey c) none = none →
      s1.exmBad (tblOf (cmdKey c)) (keyOf (cmdKey c)) = false → s1.tab.exm.find? hit = some v →
      exec (.exmUnlearn c upsets) s = .next (({ s1 with tab := { s1.tab with exm := s1.tab.exm.filter fun w => !hit w } }).complete c 0x0505 stOK
        (v.val.result % 128) 0)) ∧
    (∀ upsets v, let s1 := upsets.foldl State.exmUpset (s.hbfUes 17 upsets)
      s.runs 0x0506 2 2 c [(0, 32)] [(0, 2)] [(32, 0, 64)] = true → cursorOk c.arg0 = true → s.genReadable (bitsAt c.arg1 0 2) = true →
      s1.exmNextFrom c.arg0 (bitsAt c.arg1 0 2) (fun _ => true) = some v → v.val.bad = false →
      exec (.exmNext c upsets) s = .next ((s1.emit (.hostWrite (c.fld 32 0 64) (exmRecord v))).complete c 0x0506 stOK v.val.cursor 0)) ∧
    (∀ upsets, let g := bitsAt c.arg1 0 2
      let start := bitsAt c.arg0 0 32
      let s1 := upsets.foldl State.exmUpset (s.hbfUes 17 upsets)
      let vs := s1.exmCollect g (fun (v : Ver ExmEntry) =>
        (bitAt c.arg1 14 || v.val.tbl == bitsAt c.arg1 8 6) && (!bitAt c.arg1 15 || v.val.learned)
          && (!bitAt c.arg1 16 || (v.val.rkind == 3 && v.val.result % 128 == c.fld 40 0 7))
          && decide (cursorRank v.val.cursor < cursorRank start + 1048576)) (bitsAt c.arg1 32 16) start
      s.runs 0x0507 2 2 c [(0, 32)] [(0, 2), (8, 9), (32, 16)] [(32, 0, 64), (40, 0, 7)] = true → cursorOk start = true →
      bitsAt c.arg1 32 16 ≠ 0 → s.genReadable g = true → vs.any (·.val.bad) = false →
      ∃ (t : State) (r0 : Nat), exec (.exmSearch c upsets) s = .next (t.complete c 0x0507 stOK r0 vs.length) ∧
        t.outs = s1.outs ++ [.hostWrite (c.fld 32 0 64) (vs.flatMap exmRecord)] ∧ t.tab = s1.tab ∧ t.regs = s1.regs) ∧
    (s.runs 0x0508 1 1 c [(0, 18), (24, 7)] [] [] = true → bitAt c.arg0 30 = true ∨ s.tblEn (bitsAt c.arg0 24 6) = true →
      let r := s.exmFlush (bitsAt c.arg0 0 7) (bitsAt c.arg0 7 11) fun t => bitAt c.arg0 30 || t == bitsAt c.arg0 24 6
      exec (.exmFlushPort c) s = .next (r.1.complete c 0x0508 stOK r.2 0))

/-- The tables' own events (07 R228-R238, 08 R246-R261): a sub-table starts doubling or moves a step, an overflow entry returns to its place, a
filter is rebuilt, parity repair drops the entries found bad, the shadow walks take their records, a learn request is placed, a move is observed, a
window ends, the sweep ages, an aged entry leaves. Where the spec leaves a choice it states the model's own: log entries 46 and 47. -/
def Obligations.TableEventsTakeEffect : Prop :=
  ∀ s : State,
    (∀ family len t done, Assoc.find s.tab.lens (lenKey family len) = some t → t.split = some done →
      let u : LenTable := if done + 1 = 2 ^ t.log2 then ⟨t.log2 + 1, none⟩ else { t with split := some (done + 1) }
      exec (.tableDoubling family len) s
        = .next { s with tab := { s.tab with lens := Assoc.insert s.tab.lens (lenKey family len) u } }) ∧
    (∀ n v k p, s.tab.lpm[n]? = some v → v.val.place = .overflow k →
      s.lpmPlace v.val.family v.val.vrf v.val.len v.val.pfx = some p → (∀ j, p ≠ .overflow j) →
      exec (.overflowReturn n) s = .next { s with tab := { s.tab with
        lpm := modifyAt (fun (w : Ver LpmEntry) => { w with val := { w.val with place := p } }) n s.tab.lpm } }) ∧
    (∀ family len r units, Assoc.find s.tab.filt (lenKey family len) = some r → r.rebuild = some units →
      let keys := ((s.tab.lpm.filter fun v => v.val.family == family && v.val.len == len).map fun v => v.val.keyNum).eraseDups
      exec (.filterRebuild family len) s
        = .next { s with tab := { s.tab with filt := Assoc.insert s.tab.filt (lenKey family len) ⟨units, keys, 0, none, false⟩ } }) ∧
    (∀ upsets, let s1 := upsets.foldl State.lpmUpset (s.hbfUes 17 upsets)
      exec (.parityRepair upsets) s = .next ({ s1 with tab := { s1.tab with lpm := s1.tab.lpm.filter fun v => !v.val.bad } }).filtTidy) ∧
    (∀ x ∈ [(lpmShadow, fun d => Instr.lpmShadowDone d), (exmShadow, fun d => Instr.exmShadowDone d), (camShadow, fun d => Instr.camShadowDone d)],
      ∀ b, let from_ := s.fget x.1.done
      let s1 := shadowRun x.1 (chunks x.1.recBytes (min (s.fget x.1.count - from_) (b.length / x.1.recBytes)) b) from_ s
      s.fbit (x.1.fld 3 1) = true →
      exec (x.2 (.bytes b)) s = .next (if s1.fget x.1.count ≤ s1.fget x.1.done then s1.shadowEnd x.1 else s1)) ∧
    (∀ r rest, s.tab.learnQ = r :: rest → r.move = false →
      let s1 := { s with tab := { s.tab with learnQ := rest } }
      s1.exmStored (tblOf r.key) (keyOf r.key) = none → exec .learnProcess s = .next (s1.learnPlace r.key r.port)) ∧
    (∀ r rest v, s.tab.learnQ = r :: rest → r.move = true →
      let s1 := { s with tab := { s.tab with learnQ := s.tab.learnQ.erase r } }
      s1.tab.exm.find? (fun v => v.val.isKey (tblOf r.key) (keyOf r.key) && verLearned v) = some v →
      v.val.result ≠ s1.learnResult r.port → exec .moveProcess s = .next (s1.moveObserve r.key r.port)) ∧
    (∀ key, ∃ t : State, exec (.moveWindowExpiry key) s = .next t ∧ (∀ m ∈ t.tab.moveCands, m.key ≠ key) ∧ t.tab.exm = s.tab.exm) ∧
    (s.fget Fld.EXM_AGE_CFG_PERIOD_100MS ≠ 0 →
      ∀ late, let s1 := if late then s.setEvent Fld.EXM_EVENT_AGE_LATE else s
      let upd := fun (v : Ver ExmEntry) => if s1.agingVisits v then { v with val := ageVisit s1.ageMax v.val } else v
      exec (.agingSweep late) s = .next { s1 with tab := { s1.tab with exm := s1.tab.exm.map upd } }) ∧
    (∀ cursor v, s.tab.exm.find? (fun v => v.val.cursor == cursor && v.val.aging && verLearned v) = some v →
      (v.val.hit = false → exec (.ageRemovalCheck cursor) s
        = .next (({ s with tab := { s.tab with exm := s.tab.exm.filter (·.val.cursor != cursor) } }).satAdd Fld.EXM_AGED_CNT_COUNT 1)) ∧
      (v.val.hit = true → ∃ t : State, exec (.ageRemovalCheck cursor) s = .next t ∧ t.tab.exm.length = s.tab.exm.length ∧
        t.fget Fld.EXM_AGE_KEPT_CNT_COUNT = min (s.fget Fld.EXM_AGE_KEPT_CNT_COUNT + 1) (2 ^ 32 - 1)))

/-! ### Ternary classifier, actions, editing tables (09, 10) -/

/-- The CAM commands (09 R272-R274, R296): a write applies under its context, a search and the reads answer, a move starts; parity repair restores
the slots found bad. Where the spec leaves a choice it states the model's own: log entry 48. -/
def Obligations.CamCommandsComplete : Prop :=
  ∀ (s : State) (c : Cmd),
    (∀ x ∈ [(0x0601, 5, [(0, 15)], Instr.camInsert c), (0x0602, 5, [(0, 15), (16, 15)], Instr.camReplace c), (0x0603, 1, [(0, 15)], Instr.camDelete c)],
      let op : VerOp := if x.1 = 0x0601 then .insert else if x.1 = 0x0602 then .replace else .delete
      ∀ ctx t freed slot, s.runs x.1 x.2.1 x.2.1 c x.2.2.1 [] (if x.1 = 0x0603 then [] else camFields) = true →
      (x.1 ≠ 0x0603 → Nat.land (c.fld 32 0 480) (c.fld 92 0 480) = c.fld 32 0 480) → s.camHolds x.1 c = false →
      s.writeCtx (s.cmdMaster c) = .ok ctx →
      s.camApply ctx op (bitsAt c.arg0 0 15) (bitsAt c.arg0 16 15) (if op = .delete then 0 else camEntry c) = .ok (t, freed, slot) →
      exec x.2.2.2 s = .next (t.complete c x.1 stOK (if op = .delete then b2n freed else if op = .insert then camWeight (camEntry c)
        else slot + 2 ^ 16 * camWeight (camEntry c)) 0)) ∧
    (s.runs 0x0604 2 2 c [(0, 15)] [(0, 2)] [(32, 0, 64)] = true → s.genReadable (bitsAt c.arg1 0 2) = true →
      exec (.camRead c) s = .next ((s.emit (.hostWrite (c.fld 32 0 64) (s.camRecord (bitsAt c.arg0 0 15) (bitsAt c.arg1 0 2)))).complete c
        0x0604 stOK 0 0)) ∧
    (∀ d, let m : CamMove := ⟨bitsAt c.arg0 0 15, bitsAt c.arg0 16 15, bitAt c.arg0 31, c⟩
      s.runs 0x0605 1 1 c [(0, 15), (16, 16)] [] [] = true → m.first ≤ m.last → m.dest = some d → s.owns (s.cmdMaster c) 16 = true →
      s.tab.camMove = none → s.gen.walks = [] → s.camSlot d = none →
      ∃ t : State, exec (.camMove c) s = .next t ∧ t.tab = { s.tab with camMove := some m } ∧ t.fbit Fld.CAM_STATUS_MOVING = true) ∧
    (s.runs 0x0606 2 2 c [] [] [(32, 0, 64)] = true →
      exec (.camOcc c) s = .next ((s.emit (.hostWrite (c.fld 32 0 64) (leBytes 4096 s.camOcc))).complete c 0x0606 stOK 0 0)) ∧
    (∀ slice, s.runs 0x0607 3 3 c [] [(0, 2)] [(32, 0, 480)] = true → s.genReadable (bitsAt c.arg1 0 2) = true →
      (List.range 16).find? s.sliceOn = some slice →
      exec (.camSearch c) s
        = .next (s.complete c 0x0607 stOK (s.camSearch slice (some (c.fld 32 0 480)) (bitsAt c.arg1 0 2)).bits 0)) ∧
    (∀ upsets, let s1 := upsets.foldl State.camUpset s
      exec (.camParityRepair upsets) s = .next ((s1.tab.camBad.map (· / 16)).eraseDups.foldl State.camRepairSlot s1))

/-- Writes of action sets, bindings, edit programs, mirror sessions, encapsulation entries, templates (09 R278, R284, 10 R305-R314) and of
replication groups (09 R283) complete with what the version rules store (03 R99). -/
def Obligations.IndexedWritesComplete : Prop :=
  ∀ (s t : State) (c : Cmd) (ctx : WriteCtx), s.writeCtx (s.cmdMaster c) = .ok ctx →
    let op := bitsAt c.arg0 24 2
    op < 3 →
    (let x := c.fld 32 0 256
      let i := bitsAt c.arg0 0 18
      s.runs 0x0701 2 2 c [(0, 18), (24, 2)] [] actFields = true → bitsAt x 60 4 = 0 → (op ≠ 2 → actBad x = false) →
      s.idxApply actTable ctx (verOpOf op) i x (s.actRefsOk ctx.gen x) (s.actRefs ctx.gen i) = .ok t →
      exec (.actWrite c) s = .next (t.complete c 0x0701 stOK 0 0)) ∧
    (
      let i := bitsAt c.arg0 0 18
      s.runs 0x0703 1 1 c [(0, 18), (24, 2)] [(8, 36)] [] = true → i ≠ 0 → (op ≠ 2 → polbYelAct c.arg1 ≠ 3 ∧ polbRedAct c.arg1 ≠ 3) →
      s.idxApply polbTable ctx (verOpOf op) i c.arg1 true (s.polbRefs ctx.gen i) = .ok t →
      exec (.polbWrite c) s = .next (t.complete c 0x0703 stOK 0 0)) ∧
    (
      let i := bitsAt c.arg0 0 12
      s.runs 0x0711 1 1 c [(0, 12), (24, 2)] [(8, 26)] [] = true → i ≠ 0 →
      s.idxApply editTable ctx (verOpOf op) i c.arg1 true (s.editRefs ctx.gen i) = .ok t →
      exec (.editWrite c) s = .next (t.complete c 0x0711 stOK 0 0)) ∧
    (let x := c.fld 32 0 128
      let i := bitsAt c.arg0 0 4
      s.runs 0x0713 2 2 c [(0, 4), (24, 2)] [] [(33, 0, 78)] = true → i ≠ 0 →
      (op ≠ 2 → mirEncap x ≤ 262143 ∧ (mirTrunc x = 0 ∨ (64 ≤ mirTrunc x ∧ mirTrunc x ≤ 9216))) →
      s.idxApply mirrorTable ctx (verOpOf op) i x (s.refOk s.tab.encap ctx.gen (mirEncap x)) (s.mirrorRefs ctx.gen i) = .ok t →
      exec (.mirrorWrite c) s = .next (t.complete c 0x0713 stOK 0 0)) ∧
    (let x := c.fld 32 0 256
      let i := bitsAt c.arg0 0 18
      s.runs 0x0715 2 2 c [(0, 18), (24, 2)] [] [(33, 0, 224)] = true → i ≠ 0 →
      (op ≠ 2 → encL2Op x ≠ 3 ∧ (encTagOp x ≠ 3 ∨ encL2Op x ≠ 2)) →
      s.idxApply encapTable ctx (verOpOf op) i x (s.refOk s.tab.tmpl ctx.gen (encTemplate x)) (s.encapRefs ctx.gen i) = .ok t →
      exec (.encapWrite c) s = .next (t.complete c 0x0715 stOK 0 0)) ∧
    (let x := c.fld 32 0 1024
      let i := bitsAt c.arg0 0 12
      s.runs 0x0717 5 5 c [(0, 12), (24, 2)] [] [(33, 0, 25), (40, 0, 960)] = true → i ≠ 0 → (op ≠ 2 → tmplBad x = false) →
      s.idxApply tmplTable ctx (verOpOf op) i x true (s.tmplRefs ctx.gen i) = .ok t →
      exec (.tmplWrite c) s = .next (t.complete c 0x0717 stOK 0 0)) ∧
    (let i := bitsAt c.arg0 0 16
      let n := bitsAt c.arg0 32 10 + 1
      s.runs 0x0707 1 1 c [(0, 16), (24, 2), (32, 10)] [(0, 64)] [] = true →
      ∀ d u r0 r1, s.groupCmd c replGroups op i n 8 d replMemberCheck (fun ms g => ms.all fun m => s.refOk s.tab.encap g (rmEncap m))
          (fun g => s.replRefs g i) = (u, .done stOK r0 r1) →
        exec (.replWrite c d) s = .next (u.complete c 0x0707 stOK r0 r1))

/-- Reads of the action and editing tables (09 R278-R292, 10 R305-R316), the policers (09 R287-R289) and the flow statistics (R290-R292). A flow-
statistics read answers HBM plus what the cache and the queue hold, and clears where it is asked to. Where the spec leaves a choice it states the
model's own: log entry 50. -/
def Obligations.ActionReadsAndCountersComplete : Prop :=
  ∀ (s : State) (c : Cmd),
    (∀ x, s.runs 0x0702 2 2 c [(0, 18)] [(0, 2)] [(32, 0, 64)] = true →
      s.idxRead actTable (bitsAt c.arg1 0 2) (bitsAt c.arg0 0 18) 256 stDataError = .ok x →
      exec (.actRead c) s = .next ((s.emit (.hostWrite (c.fld 32 0 64) (leBytes 32 x))).complete c 0x0702 stOK 0 0)) ∧
    (∀ x, s.runs 0x0704 1 1 c [(0, 18)] [(0, 2)] [] = true → bitsAt c.arg0 0 18 ≠ 0 →
      s.idxRead polbTable (bitsAt c.arg1 0 2) (bitsAt c.arg0 0 18) 64 stDataError = .ok x →
      exec (.polbRead c) s = .next (s.complete c 0x0704 stOK x 0)) ∧
    (s.runs 0x0705 2 2 c [(0, 19), (24, 2)] [] polFields = true → bitsAt c.arg0 24 2 < 3 → (polPayload c).badConfig = false →
      exec (.polSet c) s = .next ((s.polPut (bitsAt c.arg0 0 19) ((s.polGet (bitsAt c.arg0 0 19)).configure (s.nowNs % 2 ^ 64)
        (bitsAt c.arg0 24 2) (polPayload c))).complete c 0x0705 stOK 0 0)) ∧
    (s.runs 0x0706 2 2 c [(0, 19)] [] [(32, 0, 64)] = true →
      exec (.polRead c) s
        = .next ((s.emit (.hostWrite (c.fld 32 0 64) (polRecord (s.polGet (bitsAt c.arg0 0 19))))).complete c 0x0706 stOK 0 0)) ∧
    (∀ x b, s.runs 0x0708 2 2 c [(0, 16)] [(0, 2)] [(32, 0, 64)] = true →
      s.idxRead replTable (bitsAt c.arg1 0 2) (bitsAt c.arg0 0 16) 64 stDataError = .ok x → blockAt s.tab.replBlocks (replBase x) = some b →
      b.bad = [] →
      exec (.replRead c) s = .next ((s.emit (.hostWrite (c.fld 32 0 64) (b.members.flatMap fun m => leBytes 8 (replMemberBits m)))).complete c
        0x0708 stOK (replBase x + 2 ^ 18 * (replSize x - 1)) 0)) ∧
    (
      let i := bitsAt c.arg0 0 25
      s.runs 0x0709 1 1 c [(0, 25), (32, 1)] [] [] = true →
      exec (.fstRead c) s = .next ((if bitAt c.arg0 32 then s.flowClear i else s).complete c 0x0709 stOK (s.flowValue i).packets
        (s.flowValue i).bytes)) ∧
    (let ix := (List.range (bitsAt c.arg1 0 21)).map (bitsAt c.arg0 0 25 + ·)
      let s1 := s.emit (.hostWrite (c.fld 32 0 64) (ix.flatMap fun i => leBytes 8 (s.flowValue i).packets ++ leBytes 8 (s.flowValue i).bytes))
      s.runs 0x070A 2 2 c [(0, 25)] [(0, 21), (32, 1)] [(32, 0, 64)] = true → bitsAt c.arg1 0 21 ≠ 0 → bitsAt c.arg1 0 21 ≤ 1048576 →
      bitsAt c.arg0 0 25 + bitsAt c.arg1 0 21 ≤ 33554432 →
      exec (.fstBulk c) s = .next ((if bitAt c.arg1 32 then ix.foldl State.flowClear s1 else s1).complete c 0x070A stOK 0 0)) ∧
    (∀ x, s.runs 0x0712 1 1 c [(0, 12)] [(0, 2)] [] = true → bitsAt c.arg0 0 12 ≠ 0 →
      s.idxRead editTable (bitsAt c.arg1 0 2) (bitsAt c.arg0 0 12) 64 stNotFound = .ok x →
      exec (.editRead c) s = .next (s.complete c 0x0712 stOK x 0)) ∧
    (∀ x, s.runs 0x0714 1 1 c [(0, 4)] [(0, 2)] [] = true → bitsAt c.arg0 0 4 ≠ 0 →
      s.idxRead mirrorTable (bitsAt c.arg1 0 2) (bitsAt c.arg0 0 4) 128 stNotFound = .ok x →
      exec (.mirrorRead c) s = .next (s.complete c 0x0714 stOK (bitsAt x 0 64) (bitsAt x 64 64))) ∧
    (∀ x, s.runs 0x0716 2 2 c [(0, 18)] [(0, 2)] [(32, 0, 64)] = true → bitsAt c.arg0 0 18 ≠ 0 →
      s.idxRead encapTable (bitsAt c.arg1 0 2) (bitsAt c.arg0 0 18) 256 stNotFound = .ok x →
      exec (.encapRead c) s = .next ((s.emit (.hostWrite (c.fld 32 0 64) (leBytes 32 x))).complete c 0x0716 stOK 0 0)) ∧
    (∀ v, s.runs 0x0718 2 2 c [(0, 12)] [(0, 2)] [(32, 0, 64)] = true → bitsAt c.arg0 0 12 ≠ 0 → s.genReadable (bitsAt c.arg1 0 2) = true →
      s.idxVer s.tab.tmpl (bitsAt c.arg1 0 2) (bitsAt c.arg0 0 12) = some v → v.val.bad = false →
      exec (.tmplRead c) s = .next ((s.emit (.hostWrite (c.fld 32 0 64) (leBytes 128 (tmplBits v)))).complete c 0x0718 stOK 0 0)) ∧
    (s.fget Fld.FST_CFG_FLUSH_US ≠ 0 → ∀ upsets : List Upset,
      exec (.fstFlushSweep upsets) s = .next (flowDrain ((upsets.filter fun u => u.table == .flow).map (·.index)) (s.tab.fstQueue ++ s.tab.fstCache) { s with tab := { s.tab with fstQueue := [], fstCache := [] } }))

/-! ### Buffers, queues, scheduler, deadline unit (11, 12, 13) -/

/-- The BUF commands (11 R318-R333): admission profiles and limits are set and answered, queues read, a flush starts, regions are released, fenced,
unfenced and taken out. Where the spec leaves a choice it states the model's own: log entry 49. -/
def Obligations.BufferCommandsComplete : Prop :=
  ∀ (s : State) (c : Cmd),
    let region := bitsAt c.arg0 0 6
    let op := bitsAt c.arg0 9 3
    let rs := fenceTargets region (bitAt c.arg0 8 || op == 3)
    let hold := fun (t : State) r => t.setRegion r { t.region r with held := op != 0 }
    (s.runs 0x0801 1 1 c queueFields [(0, 9)] [] = true → rangeOk (bitsAt c.arg0 0 20) (bitsAt c.arg0 32 21) = true →
      let set := fun (t : State) i => t.setQueue (bitsAt c.arg0 0 20 + i)
        { t.queue (bitsAt c.arg0 0 20 + i) with admEn := bitAt c.arg1 8, profile := bitsAt c.arg1 0 8 }
      exec (.bufQadmSet c) s
        = .next (((List.range (bitsAt c.arg0 32 21)).foldl set s).complete c 0x0801 stOK (bitsAt c.arg0 32 21) 0)) ∧
    (let q := bitsAt c.arg0 0 20
      let qu := s.queue q
      s.runs 0x0802 1 1 c [(0, 20)] [] [] = true →
      exec (.bufQRead c) s = .next (s.complete c 0x0802 stOK
        (s.qb q + 2 ^ 38 * b2n qu.spilled + 2 ^ 39 * b2n qu.admEn + 2 ^ 40 * qu.profile + 2 ^ 48 * qu.epoch)
        (qu.pkts.length + 2 ^ 32 * ceilDiv ((segPart qu.pkts).foldl (fun n x => n + x.charge) 0) 1024))) ∧
    (let p : AdmProfile := ⟨c.fld 32 0 28, c.fld 36 0 28, c.fld 40 0 28, c.fld 44 0 28, c.fld 48 0 28, c.fld 52 0 28⟩
      let tm := { s.tm with profiles := Assoc.put s.tm.profiles profile0 (bitsAt c.arg0 0 8) p }
      s.runs 0x0803 2 2 c [(0, 8)] [] profFields = true → p.limitY ≤ p.limitG → p.limitR ≤ p.limitY → p.min ≤ p.limitG →
      exec (.bufProfSet c) s = .next (({ s with tm := tm }).complete c 0x0803 stOK 0 0)) ∧
    (let p := Assoc.get s.tm.profiles profile0 (bitsAt c.arg0 0 8)
      let b := [p.limitG, p.limitY, p.limitR, p.min, p.spill, p.spillMin].flatMap (leBytes 4)
      s.runs 0x0804 2 2 c [(0, 8)] [] [(32, 0, 64)] = true →
      exec (.bufProfRead c) s = .next ((s.emit (.hostWrite (c.fld 32 0 64) b)).complete c 0x0804 stOK 0 0)) ∧
    (let kind := bitsAt c.arg0 0 2
      let port := bitsAt c.arg0 8 7
      let cls := bitsAt c.arg0 16 3
      s.runs 0x0805 1 1 c [(0, 2), (8, 7), (16, 3), (24, 1)] (if kind = 3 then [(0, 28), (32, 28)] else [(0, 28)]) [] = true →
      (bitAt c.arg0 24 = true → exec (.bufLimitRead c) s = .next (s.complete c 0x0805 stOK (s.limitValue kind port cls) 0)) ∧
      (bitAt c.arg0 24 = false → (kind = 3 → bitsAt c.arg1 32 28 < bitsAt c.arg1 0 28) →
        ∃ t : State, exec (.bufLimitSet c) s = .next (t.complete c 0x0805 stOK (t.limitValue kind port cls) 0) ∧
          t.limitValue kind port cls = bitsAt c.arg1 0 28 + (if kind = 3 then 2 ^ 32 * bitsAt c.arg1 32 28 else 0))) ∧
    (let first := bitsAt c.arg0 0 20
      let count := bitsAt c.arg0 32 21
      s.runs 0x0806 1 1 c queueFields [(0, 8)] [] = true → bitAt c.arg1 7 = true ∨ rangeOk first count = true →
      exec (.bufFlush c) s = .next (s.startFlush (.flush c) (if bitAt c.arg1 7
        then (s.tm.queues.map (·.1)).filter fun q => s.queuePort q == some (bitsAt c.arg1 0 7)
        else (s.tm.queues.map (·.1)).filter fun q => decide (first ≤ q) && decide (q < first + count)))) ∧
    (
      let t := rs.foldl hold s
      s.runs 0x0807 1 1 c [(0, 6), (8, 4)] [] [] = true → region ≤ 47 → op = 0 →
      exec (.bufFenceRelease c) s = .next (t.complete c 0x0807 stOK (t.fenceResult region).1 (t.fenceResult region).2)) ∧
    (let walk := rs.foldl (fun (a : State × Bool) r => (a.1.fence r, a.2 || a.1.fenceRefused r)) (s, false)
      let t := rs.foldl hold walk.1
      s.runs 0x0807 1 1 c [(0, 6), (8, 4)] [] [] = true → region ≤ 47 → op = 1 → walk.2 = false →
      exec (.bufFenceHold c) s = .next (if rs.all fun r => (t.region r).state == regParked
        then t.complete c 0x0807 stOK (t.fenceResult region).1 (t.fenceResult region).2
        else { t with tm := { t.tm with fenceWaits := t.tm.fenceWaits ++ [⟨c, rs, regParked⟩] } })) ∧
    (let out := rs.any fun r => (s.region r).state == regOut
      let t0 := rs.foldl (fun (u : State) r =>
        if (u.region r).state = regOut then u.setRegion r { region0 with state := regWaking } else u.unfence r) s
      let t := rs.foldl hold (if out then t0.fset (Fld.HBT_STACK_STATUS_STATE (region / 8)) 2 else t0)
      s.runs 0x0807 1 1 c [(0, 6), (8, 4)] [] [] = true → region ≤ 47 → op = 2 → (out = true → s.hbtTrained (bitsAt c.arg0 3 3) = true) →
      exec (.bufUnfenceHold c) s = .next (if rs.all fun r => (t.region r).state == regActive
        then t.complete c 0x0807 stOK (t.fenceResult region).1 (t.fenceResult region).2
        else { t with tm := { t.tm with fenceWaits := t.tm.fenceWaits ++ [⟨c, rs, regActive⟩] } })) ∧
    (s.runs 0x0807 1 1 c [(0, 6), (8, 4)] [] [] = true → region ≤ 47 → op = 3 → (∃ r ∈ rs, (s.region r).state ≠ regOut) →
      ∃ t : State, exec (.bufStackOut c) s = .next t ∧
        (t.tm.fenceWaits = (rs.foldl (fun (u : State) r =>
            let u1 := u.setRegion r { u.region r with leaving := true }
            (if (u1.region r).state = regActive ∨ (u1.region r).state = regWaking then
              u1.setRegion r { u1.region r with state := regFencing } else u1).tryPark r) (rs.foldl hold s)).tm.fenceWaits ++ [⟨c, rs, regOut⟩]
          ∨ ∀ r ∈ rs, (t.region r).state = regOut))

/-- The buffer's own events (11 R320-R335): refills start and end, the header sweep frees what it scavenged, flushes complete, regions park, wake,
time out and are unfenced, XOFF is repeated, a flit error retrains its module after 16 failed replays. Where the spec leaves a choice it states the
model's own: log entries 49 and 51. -/
def Obligations.BufferEventsTakeEffect : Prop :=
  ∀ s : State,
    (∀ port, (∃ k < 8, bitAt (s.fget (fldXoff port)) k = true ∧
        (Assoc.get s.tm.pfcLimit (limitReset, limitReset - 1) (8 * port + k)).2 * 1024 ≤ s.account port k) →
      ∃ mask, exec (.pfcRefresh port) s = .next (s.sendControl port (pfcFrame mask 0xFFFF)) ∧ mask ≠ 0) ∧
    (∀ q h rest, segPart (s.queue q).pkts = h :: rest → (s.queue q).spilled = true → q ∉ s.tm.refilling →
      sumpBytes (s.queue q).pkts < s.refillKb * 512 → cellsOf h.charge ≤ s.refillFree →
      ∃ t : State, exec (.refillStart q) s = .next t ∧ t.tm.refilling = s.tm.refilling ++ [q] ∧ t.tm.queues = s.tm.queues) ∧
    (∀ q bad, q ∈ s.tm.refilling →
      let s1 := { s with tm := { s.tm with refilling := s.tm.refilling.filter (· != q) } }
      exec (.refillReadDone q bad) s
        = .next (((refillRun (segPart (s1.queue q).pkts).length q bad s1).tryOnchip q).settleQueue q).settleStacks) ∧
    (∀ lost : List (Nat × Nat),
      let lose := fun (t : State) (qi : Nat × Nat) =>
        match (t.queue qi.1).pages[qi.2]? with
        | some p => (t.hbmUe (hbtLoc p.index 0) (hbtUnit p.index 0) 2 (t.hbm.poison.contains (hbtUnit p.index 0)) false).segmentLost qi.1 qi.2
        | none => t
      let s1 := lost.foldl lose s
      let s2 := s1.tm.scavenge.foldl State.freePage s1
      exec (.headerSweep lost) s
        = .next ((({ s2 with tm := { s2.tm with scavenge := [] } }).fset Fld.BUF_SCAVENGE_PAGES 0).settleStacks)) ∧
    (∀ f fs, s.tm.flushes = f :: fs → exec .flushComplete s = .next (s.completeFlush f fs)) ∧
    (∀ region, exec (.regionParked region) s = .next (s.tryPark region).fenceSettle) ∧
    (∀ region, (s.region region).state = regFencing → s.fget Fld.BUF_FENCE_CFG_WAIT_MS ≠ 0 →
      let s1 := (s.setRegion region { s.region region with state := regActive, leaving := false }).setEvent Fld.BUF_EVENT_FENCE_TIMEOUT
      let hit := fun (w : FenceWait) => w.regions.contains region && w.target != regActive
      let s2 := { s1 with tm := { s1.tm with fenceWaits := s1.tm.fenceWaits.filter fun w => !hit w } }
      exec (.fenceTimeout region) s = .next ((s1.tm.fenceWaits.filter hit).foldl (fun (t : State) w =>
        t.complete w.cmd 0x0807 stTimeout (t.fenceResult (bitsAt w.cmd.arg0 0 6)).1 (t.fenceResult (bitsAt w.cmd.arg0 0 6)).2) s2)) ∧
    (∀ region, (s.region region).state = regWaking →
      exec (.regionWakeDone region) s
        = .next (s.setRegion region { s.region region with state := regActive, bump := 0, free := [], used := 0 }).fenceSettle) ∧
    (∀ r, s.activePages < s.fget Fld.BUF_UNFENCE_FREE_PAGES → (List.range 48).find? (fun r => (s.region r).state == regFencing) = some r →
      let s1 := s.unfence r
      let s2 := (s1.setRegion r { s1.region r with held := false }).setEvent Fld.BUF_EVENT_AUTO_UNFENCE
      exec .autoUnfence s = .next ({ s2 with pwr := { s2.pwr with fenceHoldoff := 10 } }).fenceSettle) ∧
    (∀ module failed, exec (.d2dFlitError module failed) s = .next (if failed < 16 then s.pmc 0x041 module 0 1
      else ((s.pmc 0x041 module 0 1).setEvent Fld.BUF_EVENT_D2D_RETRAIN).raiseError 0x1506 module))

/-- The commands of queues, nodes, shapers and TM-side policers (12 R346-R378): an attach stores the queue's descriptor and answers its parent and
port node; a detach empties or starts a flush; reads answer and change nothing but their completion. Where the spec leaves a choice it states the
model's own: log entries 76 and 78. -/
def Obligations.QueueAndSchedulerCommandsComplete : Prop :=
  ∀ (s : State) (c : Cmd),
    (let q := bitsAt c.arg0 0 20
      let d := c.fld 32 0 88
      let qu := s.queue q
      let same := qu.attached && qdParent qu.desc == qdParent d && qdPrio qu.desc == qdPrio d
      let q0 := { qu with attached := true, desc := d }
      let q1 := if same then q0 else { q0 with deficit := 0, sTag := 0, fTag := 0, backlogged := false }
      ∀ n, s.runs 0x0810 2 2 c [(0, 20)] [] [(32, 0, 88)] = true → qdPrio d ≤ 4 → (qdClass d = 3 → qdShaperEn d = false) →
      s.liveParent 3 (qdParent d) = some n → qu.detaching = false → (qu.attached = true → qdClass qu.desc = qdClass d) →
      (qu.attached = true → s.nodePort 3 (qdParent qu.desc) ≠ some n → qu.pkts = []) →
      (qdPrio d < 4 → s.siblings 0 (qdParent d) q (qdPrio d) = []) →
      (qdPrio d = 4 → s.isPrecision 1 (qdParent d) = true → (s.siblings 0 (qdParent d) q 4).length < 64) →
      let s1 := (s.setQueue q q1).settleQueue q
      let s2 := if s.bindKind n == 2 && qdDestDev d == s.devId && !s.tm.selfDestSeen then
        ({ s1 with tm := { s1.tm with selfDestSeen := true } }).setEvent Fld.FAB_EVENT_SELF_DEST else s1
      exec (.qAttach c) s = .next (s2.complete c 0x0810 stOK (qdParent d + 2 ^ 17 * n) 0)) ∧
    (
      let q := bitsAt c.arg0 0 20
      s.runs 0x0811 1 1 c [(0, 20)] [(0, 1)] [] = true → (s.queue q).detaching = false → (s.queue q).attached = true →
      (bitAt c.arg1 0 = false → (s.queue q).pkts = [] →
        ∃ t : State, exec (.qDetach c) s = .next (t.complete c 0x0811 stOK 0 0) ∧ (t.queue q).attached = false ∧ t.regs = s.regs) ∧
      (bitAt c.arg1 0 = true → exec (.qDetachFlush c) s
        = .next ((s.setQueue q { s.queue q with detaching := true }).startFlush (.detach c q) [q]))) ∧
    (let q := bitsAt c.arg0 0 20
      let v := (s.queue q).desc + 2 ^ 126 * b2n (s.queueEligible q) + 2 ^ 127 * b2n ((s.queuePort q).isSome && !(s.queue q).detaching)
      s.runs 0x0812 1 1 c [(0, 20)] [] [] = true → exec (.qRead c) s = .next (s.complete c 0x0812 stOK (v % 2 ^ 64) (v / 2 ^ 64))) ∧
    (let dev := bitsAt c.arg0 0 11
      let new := bitsAt c.arg1 0 20 + 2 ^ 20 * b2n (bitAt c.arg0 12) + 2 ^ 21 * b2n (bitAt c.arg0 13)
      let e := Assoc.get s.tm.qmap 0 dev
      s.runs 0x0813 1 1 c [(0, 11), (12, 2), (16, 1)] [(0, 64)] [] = true → c.arg1 ≤ 1048575 →
      (bitAt c.arg0 16 = false → exec (.qMapSet c) s = .next (({ s with tm := { s.tm with qmap := Assoc.put s.tm.qmap 0 dev new } }).complete c
        0x0813 stOK (dev + 2 ^ 12 * bitsAt new 20 1 + 2 ^ 13 * bitsAt new 21 1) (bitsAt new 0 20))) ∧
      (bitAt c.arg0 16 = true → exec (.qMapRead c) s
        = .next (s.complete c 0x0813 stOK (dev + 2 ^ 12 * bitsAt e 20 1 + 2 ^ 13 * bitsAt e 21 1) (bitsAt e 0 20)))) ∧
    (let i := bitsAt c.arg0 0 18
      let level := bitsAt c.arg0 18 2
      let d := bitsAt c.arg1 0 46
      let nd := s.node level i
      let par := ndParent d
      let newPrec := ndPrecision d && !(nd.attached && ndPrecision nd.desc)
      let same := nd.attached && ndParent nd.desc == par && ndPrio nd.desc == ndPrio d
      let n0 := { nd with attached := true, desc := d }
      let n1 := if same then n0 else { n0 with deficit := 0, sTag := 0, fTag := 0, backlogged := false }
      let n2 := if newPrec = true ∨ nd.attached = false then { n1 with vtime := 0, ptr := 0, inTurn := false } else n1
      ∀ n, s.runs 0x0901 1 1 c [(0, 20), (24, 1)] [(0, 46)] [] = true → bitAt c.arg0 24 = false → level ≠ 0 → i < levelCount level →
      ndPrio d ≤ 4 → par < levelCount (level - 1) → (level ≠ 1 → bitsAt d 37 9 = 0) →
      (ndClientV d = true → s.bindKind par = 1 ∧ s.bindPort par = s.anchorPort (ndClient d)) →
      s.liveParent (level - 1) par = some n → (nd.attached = true → s.nodePort level i = some n) →
      (nd.attached = true → ndPrecision nd.desc ≠ ndPrecision d → s.children (4 - level) i = []) →
      (ndPrio d < 4 → s.siblings (4 - level) par i (ndPrio d) = []) → (newPrec = true → s.precUsed < 4096) →
      (ndPrio d = 4 → s.isPrecision (4 - level + 1) par = true → (s.siblings (4 - level) par i 4).length < 64) →
      let t := rebacklog 4 (4 - level) i (s.setNode level i n2)
      exec (.nodeSet c) s = .next (t.complete c 0x0901 stOK (4096 - t.precUsed) 0)) ∧
    (let i := bitsAt c.arg0 0 18
      let level := bitsAt c.arg0 18 2
      let t := s.setNode level i { s.node level i with attached := false }
      s.runs 0x0901 1 1 c [(0, 20), (24, 1)] [(0, 64)] [] = true → bitAt c.arg0 24 = true → level ≠ 0 → i < levelCount level →
      (s.node level i).attached = true → s.children (4 - level) i = [] →
      exec (.nodeDetach c) s = .next (t.complete c 0x0901 stOK (4096 - t.precUsed) 0)) ∧
    (let i := bitsAt c.arg0 0 18
      let level := bitsAt c.arg0 18 2
      s.runs 0x0902 1 1 c [(0, 20)] [] [] = true → level ≠ 0 → i < levelCount level →
      exec (.nodeRead c) s = .next (s.complete c 0x0902 stOK (s.node level i).desc (b2n (s.node level i).attached
        + 2 * b2n (s.eligible (4 - level) i) + 4 * min (s.children (4 - level) i).length 65535))) ∧
    (
      let r := bitsAt c.arg0 0 21
      s.runs 0x0903 1 1 c [(0, 21), (32, 2)] [(0, 64)] [] = true → srefOk r = true → r / 2 ^ 18 ≠ 5 →
      exec (.schShaperSet c) s = .next ((s.setShaper r (Shaper.configure s.shapeTime (bitAt c.arg0 32) (bitAt c.arg0 33) (bitsAt c.arg1 0 32)
        (bitsAt c.arg1 32 32))).complete c 0x0903 stOK 0 0)) ∧
    (let r := bitsAt c.arg0 0 21
      let h := s.shaper r
      s.runs 0x0904 1 1 c [(0, 21)] [] [] = true → srefOk r = true →
      exec (.schShaperRead c) s = .next (s.complete c 0x0904 stOK (h.rate + 2 ^ 32 * b2n h.en + 2 ^ 33 * b2n h.zero)
        (unsignedOf (h.refill s.shapeTime).t 64))) ∧
    (let i := bitsAt c.arg0 0 13
      let p := (Assoc.get s.tm.tmpol policer0 i).configure s.shapeTime (bitsAt c.arg0 24 2) (polPayload c)
      s.runs 0x0905 2 2 c [(0, 13), (24, 2)] [] [(32, 0, 128), (48, 0, 3), (49, 0, 8)] = true → i ≠ 0 → bitsAt c.arg0 24 2 < 3 →
      (polPayload c).badConfig = false →
      ∃ t : State, exec (.tmpolSet c) s = .next (t.complete c 0x0905 stOK 0 0) ∧ Assoc.get t.tm.tmpol policer0 i = p ∧
        t.tm.tmpolAware.contains i = bitAt (c.fld 48 0 3) 2 ∧ t.regs = s.regs) ∧
    (let i := bitsAt c.arg0 0 13
      let r := polRecord (Assoc.get s.tm.tmpol policer0 i)
      s.runs 0x0906 2 2 c [(0, 13)] [] [(32, 0, 64)] = true → i ≠ 0 →
      exec (.tmpolRead c) s = .next ((s.emit (.hostWrite (c.fld 32 0 64) (setAt r 16 (BitVec.ofNat 8 (byteOr0 r 16 + 4 * b2n
        (s.tm.tmpolAware.contains i)))))).complete c 0x0906 stOK 0 0))

/-- The deadline unit's commands (13 R386, R398-R403) and events (R389, R399, R405): profiles, the queue map, gate lists, the switch to a new list,
hold and release by gate operations, verification. Where the spec leaves a choice it states the model's own: log entries 78 and 80. -/
def Obligations.DeadlineUnitTakesEffect : Prop :=
  ∀ (s : State) (c : Cmd),
    (let i := bitsAt c.arg0 0 8
      let new : DlnProfile := ⟨bitsAt c.arg1 0 30, bitsAt c.arg0 8 2, bitsAt c.arg0 10 1, bitsAt c.arg0 16 6⟩
      let p := Assoc.get s.tm.dlnProf dlnProf0 i
      s.runs 0x0920 1 1 c [(0, 11), (16, 6), (24, 1)] [(0, 30)] [] = true →
      (bitAt c.arg0 24 = false → new.budget ≤ 1000000000 → new.lateAct ≠ 3 →
        exec (.dlnProfSet c) s = .next (({ s with tm := { s.tm with dlnProf := Assoc.put s.tm.dlnProf dlnProf0 i new } }).complete c 0x0920 stOK
          (i + 2 ^ 8 * new.lateAct + 2 ^ 10 * new.markKind + 2 ^ 16 * new.lateDscp) new.budget)) ∧
      (bitAt c.arg0 24 = true → exec (.dlnProfRead c) s = .next (s.complete c 0x0920 stOK
        (i + 2 ^ 8 * p.lateAct + 2 ^ 10 * p.markKind + 2 ^ 16 * p.lateDscp) p.budget))) ∧
    (let first := bitsAt c.arg0 0 20
      let count := bitsAt c.arg0 32 21
      s.runs 0x0921 1 1 c queueFields [(0, 9)] [] = true → rangeOk first count = true →
      (bitAt c.arg1 8 = false → ∃ t : State, exec (.dlnQmapSet c) s = .next (t.complete c 0x0921 stOK (Assoc.get t.tm.dlnMap 0 first) 0) ∧
        (∀ q, Assoc.get t.tm.dlnMap 0 q = if first ≤ q ∧ q < first + count then bitsAt c.arg1 0 8 else Assoc.get s.tm.dlnMap 0 q)) ∧
      (bitAt c.arg1 8 = true → count = 1 →
        exec (.dlnQmapRead c) s = .next (s.complete c 0x0921 stOK (Assoc.get s.tm.dlnMap 0 first) 0))) ∧
    (let p := bitsAt c.arg0 0 7
      let first := bitsAt c.arg0 16 10
      let count := bitsAt c.arg0 32 10
      let entry := fun i => c.fld (32 + 8 * i) 0 64
      let b := s.otherBank p
      let new := (List.range count).foldl (fun (m : Assoc Nat) i => Assoc.put m 0 (first + i) (entry i)) b.entries
      s.runs 0x0922 2 16 c [(0, 7), (16, 10), (32, 10)] [] ((List.range (min count (4 * (c.len - 1)))).map fun i => (32 + 8 * i, 0, 64)) = true →
      count ≠ 0 → first + count ≤ 1024 → count ≤ 4 * (c.len - 1) →
      (∀ i < count, 16 ≤ bitsAt (entry i) 0 30 ∧ bitsAt (entry i) 0 30 ≤ 999999999 ∧ bitsAt (entry i) 38 2 ≠ 3 ∧ bitsAt (entry i) 40 24 = 0) →
      s.gclClosed p = false → s.gclPending p = false →
      exec (.gclWrite c) s = .next ((s.setOther p { b with entries := new }).complete c 0x0922 stOK count 0)) ∧
    (let p := bitsAt c.arg1 16 7
      let base := (bitsAt c.arg0 32 32 + 2 ^ 32 * bitsAt c.arg1 0 16) * 1000000000 + bitsAt c.arg0 0 32
      let cycle := c.fld 32 0 32
      let cct := cctOf base cycle s.nowNs
      let t := (((s.setOther p { s.otherBank p with cycle := cycle, ext := c.fld 36 0 32, length := c.fld 40 0 11, base := base }).setGate p
        { (s.setOther p { s.otherBank p with cycle := cycle, ext := c.fld 36 0 32, length := c.fld 40 0 11, base := base }).gate p with
          cct := cct }).fset (Fld.DLN_PORT_STATUS_PENDING p) 1).setInstant (Fld.DLN_PORT_CCT_NS_NS p) (Fld.DLN_PORT_CCT_SEC_LO_SEC p)
            (Fld.DLN_PORT_CCT_SEC_HI_SEC p) cct
      s.runs 0x0923 2 2 c [(0, 64)] [(0, 23)] [(32, 0, 64), (40, 0, 11)] = true → bitsAt c.arg0 0 32 < 1000000000 →
      base ≤ s.nowNs + 60000000000 → 1000 ≤ cycle → cycle ≤ 1000000000 → c.fld 36 0 32 ≤ cycle → c.fld 40 0 11 ≠ 0 → c.fld 40 0 11 ≤ 1024 →
      s.gclClosed p = false → s.gclPending p = false →
      exec (.gclSet c) s = .next (t.complete c 0x0923 stOK (cct % 1000000000 + 2 ^ 32 * (cct / 1000000000 % 2 ^ 32))
        (cct / 1000000000 / 2 ^ 32 % 2 ^ 16 + 2 ^ 16 * b2n (!s.fbit (Fld.DLN_PORT_STATUS_OPER_BANK p))))) ∧
    (
      let p := bitsAt c.arg0 0 7
      s.runs 0x0924 1 1 c [(0, 7)] [] [] = true → s.gclClosed p = false → s.gclPending p = true → s.nowNs + 2000 ≤ (s.gate p).cct →
      exec (.gclCancel c) s = .next ((s.fset (Fld.DLN_PORT_STATUS_PENDING p) 0).complete c 0x0924 stOK 0 0)) ∧
    (let p := bitsAt c.arg0 0 7
      let first := bitsAt c.arg0 16 10
      let count := bitsAt c.arg0 32 10
      let b := if bitAt c.arg0 8 then (s.gate p).bankB else (s.gate p).bankA
      s.runs 0x0925 2 2 c [(0, 7), (8, 1), (16, 10), (32, 10)] [] [(32, 0, 64)] = true → count ≠ 0 → first + count ≤ 1024 →
      s.gclClosed p = false →
      exec (.gclRead c) s = .next ((s.emit (.hostWrite (c.fld 32 0 64) ((List.range count).flatMap fun i =>
        leBytes 8 (Assoc.get b.entries 0 (first + i))))).complete c 0x0925 stOK (b.cycle + 2 ^ 32 * b.length) b.ext)) ∧
    (∀ port, s.gclPending port = true → (s.gate port).cct ≤ s.nowNs → port < 128 →
      ∃ t : State, exec (.gclSwitch port) s = .next t ∧
        t.fget (Fld.DLN_PORT_STATUS_OPER_BANK port) = 1 - s.fget (Fld.DLN_PORT_STATUS_OPER_BANK port) ∧
        t.gclPending port = false ∧ (t.gate port).running = true) ∧
    (∀ port e i, s.gateAt port s.nowNs = some (e, i) →
      let s1 := s.fset (Fld.DLN_PORT_STATUS_GATES port) (s.gatesAt port s.nowNs)
      let active := s.fbit (Fld.DLN_PORT_STATUS_PREEMPT_ACTIVE port)
      exec (.gateTransition port) s
        = .next (if active ∧ bitsAt e 38 2 = 1 ∧ s.fbit (Fld.DLN_PORT_STATUS_HOLD port) = false then
            (s1.fset (Fld.DLN_PORT_STATUS_HOLD port) 1).dlnAdd (4096 + port) 9
          else if active ∧ bitsAt e 38 2 = 2 then s1.fset (Fld.DLN_PORT_STATUS_HOLD port) 0 else s1)) ∧
    (∀ port, s.fget (Fld.DLN_PORT_STATUS_VERIFY port) = 1 →
      ((s.ptx port).attempts < 3 → exec (.verifyAttempt port) s
        = .next (((s.setPtx port { s.ptx port with attempts := (s.ptx port).attempts + 1 }).dlnAdd (4096 + port) 10).emit
            (.verifyPacket port false))) ∧
      (3 ≤ (s.ptx port).attempts → exec (.verifyAttempt port) s
        = .next ((s.fset (Fld.DLN_PORT_STATUS_VERIFY port) 3).setEvent Fld.DLN_EVENT_VERIFY_FAIL)) ∧
      exec (.verifyResponse port) s
        = .next ((s.fset (Fld.DLN_PORT_STATUS_VERIFY port) 2).fset (Fld.DLN_PORT_STATUS_PREEMPT_ACTIVE port) 1)) ∧
    (∀ node ue cell q h rest, s.fbit Fld.SCH_CFG_EN = true → s.stoppedForwarding = false → s.fbit (Fld.SCH_PORT_BIND_EN node) = true →
      earliestLdt s (((s.tm.queues.map (·.1)).filter fun q => s.candidate node q).filter fun q =>
        s.bindKind node != 1 || (s.expressRoom (s.queueLink q node)
          && (match (s.queue q).pkts with | h :: _ => s.voqRoom q (s.queueLink q node) h.pkt | [] => false))) = some q →
      (s.queue q).pkts = h :: rest → exec (.expressRelease node ue cell) s = .next (s.releaseCheck q node h ue cell))

/-! ### Fabric interface, local switch, packet path (14, 10, 07) -/

/-- The events of a fabric link (14 R410-R418, R422): training, the hold time, lock loss, retry, reachability, acknowledgements, NAKs and their
timers. The sixteenth NAK in a row for one LINK_SEQ and an acknowledgement timeout fail the link. Where the spec leaves a choice it states the
model's own: log entry 81. -/
def Obligations.FabricLinkEventsTakeEffect : Prop :=
  ∀ (s : State) (l : Nat),
    (s.fabState l = 1 → ∃ t : State, exec (.fabLinkTrained l) s = .next (t.fabMove l 2) ∧ (t.fabLink l).txSeq = 0 ∧ (t.fabLink l).rxSeq = 0 ∧
      (t.fabLink l).replay = (s.fabLink l).replay ∧ (∀ k, k ≠ l → t.fabLink k = s.fabLink k) ∧ t.regs = s.regs) ∧
    (s.fabState l = 2 → (s.fabLink l).reachSeen = true →
      exec (.fabLinkActive l) s = .next ((s.setFabLink l { s.fabLink l with holdDone := true }).fabMove l 3)) ∧
    (s.fabState l = 2 → (s.fabLink l).reachSeen = false →
      exec (.fabLinkActive l) s = .next (s.setFabLink l { s.fabLink l with holdDone := true })) ∧
    (2 ≤ s.fabState l → exec (.fabLockLoss l) s = .next (s.fabMove l 1)) ∧
    (s.fabState l = 4 → exec (.fabLinkRetry l) s = .next (s.fabMove l 1)) ∧
    (∀ devs : List Nat, s.fabState l = 2 ∨ s.fabState l = 3 →
      let k := (s.fabLink l).reachCell (devs.filter (· < 2048))
      let s1 := s.setFabLink l k
      exec (.reachCellReceive l devs) s = .next (if s.fabState l = 2 ∧ k.holdDone = true then s1.fabMove l 3 else s1.reachUpdate)) ∧
    (
      let s1 := s.setFabLink l { s.fabLink l with reach := [], named := [], omitted := [] }
      exec (.reachTimeout l) s = .next s1.reachUpdate ∧ (s1.fabLink l).reach = []) ∧
    (∀ ack, ∃ t : State, exec (.fabAckReceive l ack) s = .next t.updateKept.drainCells ∧ (t.fabLink l).nakRun = 0 ∧
      (∀ e ∈ (s.fabLink l).replay, e ∈ (t.fabLink l).replay ↔ 32768 ≤ (ack + 65536 - e.1) % 65536)) ∧
    (∀ nak, let k := s.fabLink l
      let run := if k.nakSeq = nak ∧ k.nakRun ≠ 0 then k.nakRun + 1 else 1
      let s1 := s.setFabLink l { k with nakSeq := nak, nakRun := run }
      let again := k.replay.filter fun e => decide ((e.1 + 65536 - nak) % 65536 < 32768)
      (16 ≤ run → exec (.fabNakReceive l nak) s = .next (s1.fabMove l 4)) ∧
      (run < 16 → ∃ t : State, exec (.fabNakReceive l nak) s = .next (t.pmc 0x831 l 0 again.length) ∧ t.tm = s1.tm ∧
        t.regs = (s1.satAdd (Fld.FAB_LINK_RETX_COUNT l) again.length).regs ∧ t.outs.length = s.outs.length + again.length)) ∧
    ((s.fabLink l).replay ≠ [] → exec (.fabAckTimeout l) s = .next (s.fabMove l 4)) ∧
    (s.fabState l = 3 → (s.fabLink l).unacked ≠ 0 →
      let k := s.fabLink l
      exec (.fabAckInterval l) s
        = .next ((s.setFabLink l { k with unacked := 0 }).emit (.fabControl l 0 ((k.rxSeq + 65535) % 65536))))

/-- A data cell (14 R415, R417, R423): a cell with a bad CRC-32 or out of LINK_SEQ order is answered by a NAK and not taken; a cell taken in order
advances the link's expectation; a second copy of a cell is counted and dropped. Where the spec leaves a choice it states the model's own: log entry
63. -/
def Obligations.FabricCellReceived : Prop :=
  ∀ (s : State) (l : Nat) (cell : List Byte),
    let h := leNat (cell.take 12)
    let good := decide (16 ≤ cell.length) && leNat (cell.drop (cell.length - 4)) == crc32 (cell.take (cell.length - 4))
    let key := 2 * bitsAt h 15 11 + b2n (bitsAt h 4 2 == 1)
    let r := Assoc.get s.tm.reorder reorder0 key
    let ahead := (bitsAt h 37 16 + 65536 - r.next) % 65536
    s.fabState l = 3 → s.fbit Fld.FAB_CFG_EN = true →
    (good = false →
      exec (.fabCellReceive l cell) s = .next ((s.satAdd (Fld.FAB_LINK_CRC_COUNT l) 1).emit (.fabControl l 1 (s.fabLink l).rxSeq))) ∧
    (good = true → bitsAt h 0 2 = 0 → (s.fabLink l).rxSeq ≠ bitsAt h 53 16 →
      exec (.fabCellReceive l cell) s = .next (s.emit (.fabControl l 1 (s.fabLink l).rxSeq))) ∧
    (good = true → bitsAt h 0 2 = 0 → (s.fabLink l).rxSeq = bitsAt h 53 16 → 32768 ≤ ahead →
      ∃ t : State, exec (.fabCellReceive l cell) s = .next (t.satAdd Fld.FAB_DUP_CNT_COUNT 1) ∧
        (t.fabLink l).rxSeq = ((s.fabLink l).rxSeq + 1) % 65536 ∧ t.tm.reorder = s.tm.reorder ∧ t.regs = s.regs) ∧
    (∀ s1, good = true → bitsAt h 0 2 = 0 → s.acceptLink l (bitsAt h 53 16) = some s1 → ahead = 0 →
      Assoc.find r.waiting (bitsAt h 37 16) = none →
      exec (.fabCellReceive l cell) s = .next (deliverWaiting r.waiting.length key (s1.deliverCell key
        ⟨bitsAt h 4 2, bitsAt h 15 11, bitsAt h 26 11, bitsAt h 37 16, bitsAt h 4 2 == 1, bitAt h 2, bitAt h 3, bitAt h 69,
          (cell.drop 12).take (bitsAt h 6 9), 0, none⟩))) ∧
    (good = true → bitsAt h 0 2 = 0 → (s.fabLink l).rxSeq = bitsAt h 53 16 → 0 < ahead → ahead < 32768 →
      Assoc.find r.waiting (bitsAt h 37 16) = none → s.storeBytes + (((cell.drop 12).take (bitsAt h 6 9)).length) ≤ 8388608 →
      ∃ t : State, exec (.fabCellReceive l cell) s = .next t ∧ (t.fabLink l).rxSeq = ((s.fabLink l).rxSeq + 1) % 65536 ∧
        (Assoc.get t.tm.reorder reorder0 key).next = r.next ∧
        (Assoc.find (Assoc.get t.tm.reorder reorder0 key).waiting (bitsAt h 37 16)).isSome = true)

/-- The credit loop (14 R424-R431): status messages list, change and reject flows, credits are generated and granted, grants and rejections reach
the source queue, silence and gaps end. Where the spec leaves a choice it states the model's own: log entry 83. -/
def Obligations.FabricFlowEventsTakeEffect : Prop :=
  ∀ s : State,
    (∀ (src : Nat) (express : Bool) (n : Nat),
      let key := 2 * src + b2n express
      let r := Assoc.get s.tm.reorder reorder0 key
      firstAfter r.next (r.waiting.map (·.1)) = some n → r.current = none → (∀ c, Assoc.find r.waiting n = some c → c.first = true) →
      let r' := { r with next := n, current := none, err := false, skipping := false }
      exec (.reorderTimeout src express) s = .next (deliverWaiting r.waiting.length key
        { s with tm := { s.tm with reorder := Assoc.put s.tm.reorder reorder0 key r' } })) ∧
    (∀ l seq src port q tc weight, s.fabState l = 3 → s.fbit Fld.FAB_CFG_EN = true →
      ((s.fabLink l).rxSeq ≠ seq →
        exec (.creditStatusReceive l seq src port q tc weight true) s = .next (s.emit (.fabControl l 1 (s.fabLink l).rxSeq))) ∧
      ((s.fabLink l).rxSeq = seq → s.lineNode port = none → (s.tm.cflows.find? fun f => f.src == src && f.queue == q) = none →
        (s.tm.cflows.length < 131072 → ∃ t : State, exec (.creditStatusReceive l seq src port q tc weight true) s = .next t ∧
          ∃ e < 256, (⟨src, q, port, tc, weight, true, e, 0, 0⟩ : CFlow) ∈ t.tm.cflows) ∧
        (131072 ≤ s.tm.cflows.length → ∃ t : State, exec (.creditStatusReceive l seq src port q tc weight true) s
            = .next (((t.satAdd Fld.FAB_CFLOW_REJ_CNT_COUNT 1).setEvent Fld.FAB_EVENT_CFLOW_FULL).grantMsg src q 0 0 true) ∧
          t.tm.cflows = s.tm.cflows))) ∧
    (∀ src q, ∃ t : State, exec (.cflowIdleExpiry src q) s = .next t ∧ t.regs = s.regs ∧
      ∀ f : CFlow, f ∈ t.tm.cflows ↔ f ∈ s.tm.cflows ∧ ¬ (f.src = src ∧ f.queue = q ∧ f.on = false)) ∧
    (∀ port n f c changed, s.lineNode port = some n →
      let s1 := s.creditRefill n
      let s2 := s1.setCredit n { s1.credit n with stopped := s1.creditStop n }
      s1.creditStop n = false → s2.flowsOn port ≠ [] → 0 ≤ (s2.credit n).tokens → s2.fbit Fld.FAB_CFG_EN = true →
      s2.chooseFlow n (s2.flowsOn port) (s2.credit n) = some (f, c, changed) →
      ∃ t : State, exec (.creditGenerate port) s = .next ((t.grantMsg f.src f.queue ((f.granted + 1) % 2 ^ 32) f.epoch false).pmc 0x832 n 0 1) ∧
        (t.credit n).tokens = c.tokens - (s2.creditBytes * 1000000000 : Nat) ∧ t.regs = s2.regs) ∧
    (∀ l seq q epoch granted, s.fabState l = 3 → s.fbit Fld.FAB_CFG_EN = true → (s.fabLink l).rxSeq = seq →
      (s.queue q).attached = true →
      (∃ t : State, exec (.grantReceive l seq q epoch granted true) s = .next t ∧ (t.queue q).rejected = true ∧
        (t.queue q).balance = (s.queue q).balance) ∧
      ((s.queue q).epochSeen ≠ epoch + 1 →
        ∃ t : State, exec (.grantReceive l seq q epoch granted false) s = .next t ∧ (t.queue q).rejected = false ∧
          (t.queue q).balance = min ((s.queue q).balance + granted * s.creditBytes) (4 * s.creditBytes) ∧
          (t.queue q).granted = granted ∧ (t.queue q).epochSeen = epoch + 1 ∧ (t.queue q).pkts = (s.queue q).pkts)) ∧
    (∀ q, (s.queue q).onSent = true → s.tm.reachable.contains (qdDestDev (s.queue q).desc) = true →
      exec (.statusRefresh q) s = .next (s.statusMsg q true)) ∧
    (∀ q, (s.queue q).rejected = true → (s.queue q).pkts ≠ [] →
      exec (.cflowRejectRetry q) s = .next ((s.setQueue q { s.queue q with rejected := false, onSent := true }).statusMsg q true))

/-- FAB_EXP_SET and FAB_CFLOW_READ (14 R432, R433): the express bucket of a destination is set or answered, and a queue's credit state. -/
def Obligations.FabricCommandsComplete : Prop :=
  ∀ (s : State) (c : Cmd),
    (let d := bitsAt c.arg0 0 11
      let h := Shaper.configure s.shapeTime (bitAt c.arg0 16) false (bitsAt c.arg1 0 32) (bitsAt c.arg1 32 32)
      let e := Assoc.get s.tm.expBuckets shaper0 d
      s.runs 0x0930 1 1 c [(0, 11), (16, 1), (24, 1)] [(0, 64)] [] = true →
      (bitAt c.arg0 24 = false → (bitAt c.arg0 16 = true → 64 ≤ bitsAt c.arg1 32 32) →
        exec (.fabExpSet c) s = .next (({ s with tm := { s.tm with expBuckets := Assoc.put s.tm.expBuckets shaper0 d h } }).complete c
          0x0930 stOK (d + 2 ^ 16 * b2n h.en) (h.rate + 2 ^ 32 * h.burst))) ∧
      (bitAt c.arg0 24 = true → exec (.fabExpRead c) s
        = .next (s.complete c 0x0930 stOK (d + 2 ^ 16 * b2n e.en) (e.rate + 2 ^ 32 * e.burst)))) ∧
    (let q := bitsAt c.arg0 0 20
      let qu := s.queue q
      ∀ n, s.runs 0x0931 1 1 c [(0, 20)] [] [] = true → s.queuePort q = some n → s.bindKind n = 2 →
      exec (.fabCflowRead c) s = .next (s.complete c 0x0931 stOK
        (qu.balance + 2 ^ 32 * b2n qu.onSent + 2 ^ 33 * b2n qu.rejected + 2 ^ 40 * (qu.epochSeen - 1)) qu.granted))

/-- The local switch, departure, admission and the scheduler (14 R434-R440, 11 R327-R329, 12 R358-R361): the packet at the head of an input leaves
it for the admission decision; a port node with an eligible queue releases its head. Where the spec leaves a choice it states the model's own: log
entries 73, 80 and 84. -/
def Obligations.ForwardingEventsTakeEffect : Prop :=
  ∀ s : State,
    (s.fbit Fld.LSW_CFG_EN = true → s.stoppedForwarding = false →
      let r := s.matchRound true []
      exec .switchMatching s
        = .next (((List.range 3).foldl (fun m _ => (r.1.matchRound false m).2) r.2).foldl State.switchCell r.1)) ∧
    (∀ id x, s.tm.leaving.find? (·.pkt.id == id) = some x → (s.tm.voq.any fun kv => kv.2.any fun v => v.qp.pkt.id == id) = false →
      (s.tm.cutQ.any (·.pkt.id == id)) = false →
      ∃ t : State, exec (.packetDeparture id) s = .next (t.acctChanged x) ∧ (∀ y ∈ t.tm.leaving, y.pkt.id ≠ id) ∧ t.regs = s.regs ∧
        t.tm.kept = (if s.cellsOut id = 0 then s.tm.kept else s.tm.kept ++ [(id, x.place, s.cellsOut id)])) ∧
    (∀ input ecc p rest, Assoc.get s.tm.inputs [] input = p :: rest → s.stoppedForwarding = false →
      exec (.admission input ecc) s
        = .next (({ s with tm := { s.tm with inputs := Assoc.put s.tm.inputs [] input rest } }).admitPkt ecc p)) ∧
    (∀ node ue cell s1 q h rest, s.fbit Fld.SCH_CFG_EN = true → s.stoppedForwarding = false → s.eligible 4 node = true →
      State.pickQueue 4 node s = (s1, some q) → (s1.queue q).pkts = h :: rest →
      (s1.bindKind node = 1 → s1.voqRoom q (s1.queueLink q node) h.pkt = true) →
      exec (.schedulerDecision node ue cell) s = .next (((s1.pmc 0x820 node 0 1).sumpError q ue cell).releaseHead q node false))

/-- The ingress slice (10 R291-R301, 07 R222-R224): a slot is granted and its probes issued or the slice freezes; a freeze ends when the credit
covers what waits; a pass ends; a record enters the recirculation FIFO of 512 passes and 1 MiB or is dropped and counted. Where the spec leaves a
choice it states the model's own: log entries 59 and 60. -/
def Obligations.IngressEventsTakeEffect : Prop :=
  ∀ s : State, s.stoppedForwarding = false →
    (∀ slice idle, slice < 16 → (s.slice slice).frozen = false → s.fget (Fld.PWR_DOM_STATE_STATE (3 + slice)) ≤ 1 →
      let s1 := (s.earnCredit slice idle).pmc 0x013 slice 0 (2 * idle - (s.slice slice).grants)
      let x := (s1.slice slice).tick idle
      let s2 := s1.setSlice slice x
      (x.nextPass (!s.dieResetRuns) = none → exec (.slotGrant slice idle) s = .next s2) ∧
      (∀ waiting y, x.nextPass (!s.dieResetRuns) = some (waiting, y) → x.grants < 2 →
        (x.slots (s.fget Fld.CAM_STATUS_STEP) ≤ x.grants → exec (.slotGrant slice idle) s
          = .next (((s2.setSlice slice { x with grants := 2 }).satAdd (Fld.CAM_WITHHELD_COUNT slice) 1).pmc 0x015 slice 0 1)) ∧
        (x.grants < x.slots (s.fget Fld.CAM_STATUS_STEP) →
          ∃ t : State, ∃ r : Pass, exec (.slotGrant slice idle) s = .next t ∧ (t.slice slice).passes = y.passes ++ [r] ∧
            (t.slice slice).grants = y.grants + 1 ∧ (t.slice slice).frozen = (!r.issued || y.frozen)))) ∧
    (∀ slice cycles, slice < 16 → (s.slice slice).frozen = true →
      let s1 := ((s.earnCredit slice cycles).satAdd (Fld.LPM_FREEZE_CNT_COUNT slice) cycles).pmc 0x014 slice 0 cycles
      let need := (s.slice slice).passes.foldl (fun n q => if q.issued then n else n + q.probes) 0
      let em := (s.slice slice).passes.foldl (fun n q => if q.issued then n else n + q.em) 0
      let y := (s.slice slice).tick cycles
      exec (.freezeEnd slice cycles) s = .next (if s1.fget (Fld.LPM_CREDIT_CREDIT slice) < need then s1.setSlice slice y
        else (s1.issueProbes slice need em).setSlice slice
          { y with frozen := false, passes := y.passes.map fun q => { q with issued := true } })) ∧
    (∀ slice upsets evict q rest, (s.slice slice).passes = q :: rest → q.issued = true →
      exec (.ingressPassEnd slice upsets evict) s
        = .next ((s.setSlice slice { s.slice slice with passes := rest }).passEnd slice upsets evict q.pkt)) ∧
    (∀ slice p rest, takeComplete (s.slice slice).recircWait = some (p, rest) →
      let x := s.slice slice
      let full := decide (512 ≤ x.recirc.length) || decide (1048576 < x.recirc.foldl (fun n q => n + q.bytes.length) p.bytes.length)
      (full = false → exec (.recircEnqueue slice) s
        = .next (s.setSlice slice { x with recircWait := rest, recirc := x.recirc ++ [p] })) ∧
      (full = true → ∃ t : State, exec (.recircEnqueue slice) s = .next (t.endPkt p) ∧ (t.slice slice).recirc = x.recirc ∧
        (t.slice slice).recircWait = rest)) ∧
    (∀ slice r rest, (s.slice slice).repl = r :: rest →
      let s1 := s.setSlice slice { s.slice slice with repl := rest }
      (s1.floodMembers r.group r.pkt = [] →
        exec (.replication slice) s = .next ((s1.satAdd Fld.ACT_FLOOD_EMPTY_CNT_COUNT 1).endPkt r.pkt)) ∧
      (∀ m ms, s1.floodMembers r.group r.pkt = m :: ms → exec (.replication slice) s
        = .next (ms.foldl (fun t k => t.floodCopy slice r.queue r.pkt k) (s1.floodOne slice r.queue r.pkt m)))) ∧
    (∀ u : Upset, exec (.probeTimeout u) s = .next ((s.upset { u with data := true }).satAdd Fld.HBF_LATE_CNT_COUNT 1))

/-- The egress half, the port's grant and the MAC's receive side (10 R306-R312, 13 R395, 04 R129, R130). Where the spec leaves a choice it states
the model's own: log entries 61, 62 and 64. -/
def Obligations.EgressAndMacEventsTakeEffect : Prop :=
  ∀ s : State, s.stoppedForwarding = false →
    (∀ slice upsets p rest, Assoc.get s.tm.egressIn [] slice = p :: rest →
      let s1 := { s with tm := { s.tm with egressIn := Assoc.put s.tm.egressIn [] slice rest } }
      exec (.egressPass slice upsets) s
        = .next (if p.poison then (s1.endPkt p).directDone p none 2 else (upsets.foldl State.egressUpset s1).egress slice p)) ∧
    (∀ link cut f, (s.ptx link).sending = some f → f.pkt.complete = true →
      exec (.portFrameGrant link cut) s = .next ((s.setPtx link { s.ptx link with sending := none }).txDone link f.pkt)) ∧
    (∀ link cut k f, (s.ptx link).sending = none →
      let s0 := s.countDeferred link
      s0.grantFrom link = some k → k < 8 → (s0.ptx link).head k = some f →
      let r := (s0.setPtx link ((s0.ptx link).pop k)).ptpStage link f.pkt
      exec (.portFrameGrant link cut) s = .next (r.1.sendFrame link k cut f r.2)) ∧
    (∀ link bytes, link < 384 → s.linkState link ≠ 0 →
      (s.linkServed link = false → exec (.frameReceive link bytes) s = .next (s.setRx link ⟨none, bytes.length + 4, none, true⟩)) ∧
      (∀ op, s.linkServed link = true → controlOpcode bytes = some op →
        exec (.frameReceive link bytes) s = .next (s.setRx link ⟨none, bytes.length + 4, some op, false⟩)) ∧
      (s.linkServed link = true → controlOpcode bytes = none → exec (.frameReceive link bytes) s = .next (s.frameIn link bytes))) ∧
    (∀ link evict f, Assoc.find s.ports.rx link = some f → f.off = false → rxCause f.len (s.linkMaxFrame link) 0 = none → f.control = none →
      f.id = none →
      exec (.frameEnd link 0 evict) s = .next ((({ s with ports := { s.ports with rx := Assoc.erase s.ports.rx link } }).mibAdd link 0 1).mibAdd
        link 1 f.len))


/-! ### Line ports, FlexE, parser (04, 05, 06) -/

/-- The events of a line port (04 R134-R149): calibration of its group and of itself, its link's conditions, the declarations, the hold-off, its
flush, re-admission, and the PAUSE and PFC frames it receives with the expiry of their timers. Where the spec leaves a choice it states the model's
own: log entry 67. -/
def Obligations.PortEventsTakeEffect : Prop :=
  ∀ s : State,
    (∀ group, s.fbit (Fld.PRT_GRP_CTRL_CAL_BUSY group) = true →
      let start := fun (t : State) p =>
        if t.portEn p then ((if t.portState p = 0 then t.startPort p else t).goodChange p).refreshPort p else t
      exec (.groupCalDone group) s
        = .next (((List.range 8).map fun i => 8 * group + i).foldl start (s.fset (Fld.PRT_GRP_CTRL_CAL_BUSY group) 0))) ∧
    (∀ port lock fec lf rf hiSer cc cu sc, port < 128 →
      ∃ t : State, exec (.linkConditionChange port lock fec lf rf hiSer cc cu sc) s = .next ((t.goodChange port).refreshPort port) ∧
        (lock = true → t.fget (Fld.PRT_PORT_STATUS_PCS_LOCK (port / 8) (port % 8)) = 1 ∧
          t.fget (Fld.PRT_PORT_STATUS_LF (port / 8) (port % 8)) = b2n lf ∧ t.fget (Fld.PRT_PORT_STATUS_RF (port / 8) (port % 8)) = b2n rf)) ∧
    (∀ port, s.linkServed port = true → s.linkGood port = false →
      let s1 := (s.leaveUp port).linkEvent port 1
      let s2 := if port < 128 then s1.mibAdd port 16 1 else s1
      exec (.linkDownDeclared port) s = .next (if s2.holdoffMs port = 0 then (s2.setLinkState port 2).downAction port
        else ({ s2 with ports := { s2.ports with holdoff := s2.ports.holdoff.filter (· != port) ++ [port] } }).setLinkState port 1)) ∧
    (∀ port < 128, s.linkState port = 3 → s.linkGood port = true → s.calHolds port = false →
      exec (.linkUpDeclared port) s = .next (s.declareUp port) ∧ (s.declareUp port).linkState port = 4) ∧
    (∀ link, s.ports.holdoff.contains link = true → s.linkState link ≠ 3 →
      exec (.holdoffExpiry link) s = .next ((s.setLinkState link 2).downAction link)) ∧
    (∀ link f, (s.tm.flushes.find? fun (f : Flush) => match f.owner with | .port k => k == link | _ => false) = some f →
      exec (.portFlushDone link) s
        = .next (s.completeFlush f (s.tm.flushes.eraseP fun f => match f.owner with | .port k => k == link | _ => false))) ∧
    (∀ link, s.linkState link = 4 → exec (.readmitDone link) s = .next ((s.setLinkState link 5).linkEvent link 3)) ∧
    (∀ port converged rx tx, s.ports.portCal.contains port = true →
      ∃ t : State, exec (.portCalDone port converged rx tx) s = .next (t.linkEvent port 6) ∧ port ∉ t.ports.portCal ∧ port ∉ t.ports.uncal ∧
        (converged = true → t.fget (Fld.PRT_PORT_CAL_STATUS_RX_INT (port / 8) (port % 8)) = rx % 2 ^ 14 ∧
          t.fget (Fld.PRT_PORT_CAL_STATUS_FAIL (port / 8) (port % 8)) = 0) ∧
        (converged = false → t.fget (Fld.PRT_PORT_CAL_STATUS_RX_INT (port / 8) (port % 8))
            = s.fget (Fld.PRT_PORT_CAL_STATUS_RX_INT (port / 8) (port % 8)) ∧
          t.fget (Fld.PRT_PORT_CAL_STATUS_FAIL (port / 8) (port % 8)) = 1)) ∧
    (∀ port prios quanta, port < 128 → s.linkServed port = true → s.isFlexePhy port = false →
      let s1 := s.mibAdd port 7 1
      let en := Nat.land prios (s.fget (Fld.PRT_PORT_MAC_PFC_RX_EN (port / 8) (port % 8)))
      exec (.pauseFrameReceived port true prios quanta) s
        = .next ((List.range 8).foldl (fun t k => if bitAt en k then t.setHold port k (quanta.getD k 0 != 0) else t) s1) ∧
      exec (.pauseFrameReceived port false prios quanta) s
        = .next (if s.fbit (Fld.PRT_PORT_MAC_PAUSE_RX_EN (port / 8) (port % 8)) then s1.setHold port 8 (quanta.getD 0 0 != 0) else s1)) ∧
    (∀ port n, s.lineNode port = some n →
      exec (.pauseTimerExpiry port 8) s = .next (s.fset (Fld.SCH_PORT_STATUS_PAUSED n) 0) ∧
      ∀ cls < 8, exec (.pauseTimerExpiry port cls) s
        = .next (s.fset (Fld.SCH_PORT_STATUS_PFC_HELD n) (putBits (s.fget (Fld.SCH_PORT_STATUS_PFC_HELD n)) cls 1 0)))

/-- The FXE commands (05 R162-R165, R176, R181): calendar pages written, read, copied and switched, a protection request placed, a management packet
sent and received. Where the spec leaves a choice it states the model's own: log entries 70 and 72. -/
def Obligations.FlexeCommandsComplete : Prop :=
  ∀ (s : State) (c : Cmd),
    (let f := bitsAt c.arg0 0 5
      let dir := bitAt c.arg0 8
      let first := bitsAt c.arg0 16 9
      let count := bitsAt c.arg0 32 9
      let page := 1 - if dir then s.rxPage f else s.txPage f
      s.runs 0x0A01 2 16 c [(0, 5), (8, 1), (16, 9), (32, 9)] [] [(32, 0, 16 * count)] = true → 0 < count → count ≤ 16 * (c.len - 1) →
      s.groupEn f = true → first + count ≤ s.groupSlots f → s.switching f = false →
      (dir = true → s.fbit (Fld.FXE_GRP_CFG_RX_CAL_AUTO f) = false) →
      ∃ t : State, exec (.fxeCalWrite c) s = .next (t.complete c 0x0A01 stOK count 0) ∧ t.regs = s.regs ∧
        (∀ g, g ≠ f → t.group g = s.group g) ∧
        (if dir then (t.group f).txCal else (t.group f).rxCal) = (if dir then (s.group f).txCal else (s.group f).rxCal) ∧
        (∀ k < count, Assoc.get (if dir then (t.group f).rxCal else (t.group f).txCal) 0 (2 * (first + k) + page) = c.fld (32 + 2 * k) 0 16) ∧
        ∀ key, (∀ k < count, key ≠ 2 * (first + k) + page) → Assoc.get (if dir then (t.group f).rxCal else (t.group f).txCal) 0 key
          = Assoc.get (if dir then (s.group f).rxCal else (s.group f).txCal) 0 key) ∧
    (let f := bitsAt c.arg0 0 5
      let first := bitsAt c.arg0 16 9
      let cal := if bitAt c.arg0 8 then (s.group f).rxCal else (s.group f).txCal
      let entry := fun k => if first + k < s.groupSlots f then Assoc.get cal 0 (2 * (first + k) + bitsAt c.arg0 9 1) else 0
      let word := fun b => entry b + 2 ^ 16 * entry (b + 1) + 2 ^ 32 * entry (b + 2) + 2 ^ 48 * entry (b + 3)
      s.runs 0x0A02 1 1 c [(0, 5), (8, 2), (16, 9)] [] [] = true → s.groupEn f = true →
      exec (.fxeCalRead c) s = .next (s.complete c 0x0A02 stOK (word 0) (word 4))) ∧
    (let t := (bitsAt c.arg0 32 32 + 2 ^ 32 * bitsAt c.arg1 0 16) * 1000000000 + bitsAt c.arg0 0 32
      let asap := bitAt c.arg1 16
      let f := bitsAt c.arg1 17 5
      let fs := if bitAt c.arg1 22 then [f, pairOf f] else [f]
      s.runs 0x0A03 1 1 c [(0, 64)] [(0, 23), (32, 16)] [] = true → bitsAt c.arg1 32 16 ≠ 0 → bitsAt c.arg0 0 32 < 1000000000 →
      (asap = false → t ≤ s.nowNs + 60000000000) → (∀ g ∈ fs, s.groupEn g = true ∧ s.switching g = false) →
      (∀ g ∈ fs, pageOk (s.group g).txCal (s.groupSlots g) (1 - s.txPage g) = true ∧
        ∀ id ∈ pageIds (s.group g).txCal (s.groupSlots g) (1 - s.txPage g), (s.groupIds g).contains id = true) →
      s.sizesAgree fs (f / 2) = true →
      exec (.fxeCalSwitch c) s = .next (fs.foldl (fun u g => u.fset (Fld.FXE_GRP_STATUS_SWITCHING g) 1) (s.setGroup f
        { s.group f with switch := some ⟨c, if asap then none else some t, bitAt c.arg1 22, false, none⟩ }))) ∧
    (
      let f := bitsAt c.arg0 0 5
      s.runs 0x0A04 1 1 c [(0, 5), (8, 1)] [] [] = true → s.groupEn f = true → s.switching f = false →
      exec (.fxeCalCopy c) s = .next ((s.setGroup f (if bitAt c.arg0 8
        then { s.group f with rxCal := copyPage (s.group f).rxCal (s.groupSlots f) (s.rxPage f) (1 - s.rxPage f) }
        else { s.group f with txCal := copyPage (s.group f).txCal (s.groupSlots f) (s.txPage f) (1 - s.txPage f) })).complete c
          0x0A04 stOK 0 0)) ∧
    (let cl := bitsAt c.arg0 0 8
      let op := bitsAt c.arg0 8 3
      let keep := op != 0 && decide (requestRank (s.protRequest cl) < requestRank op)
      let s1 := if keep then s else { s with ports := { s.ports with protReq := Assoc.put s.ports.protReq 0 cl op } }
      let s2 := (s1.selector cl).goodChange (128 + cl)
      s.runs 0x0A05 1 1 c [(0, 11)] [] [] = true → op ≤ 5 → s.clientEn cl = true → s.clientProt cl = true →
      exec (.fxeProtOp c) s = .next (s2.complete c 0x0A05 stOK (s2.fget (Fld.FXE_CLIENT_STATUS_SEL cl)) 0)) ∧
    (∀ bytes, s.runs 0x0A06 2 2 c [] [] mgmtFields = true → 64 ≤ c.fld 40 0 16 → c.fld 40 0 16 ≤ 1518 →
      s.groupEn (c.fld 42 0 5) = true → exec (.fxeMgmtSend c (.bytes bytes)) s
        = .next ((s.emit (.flexeMgmt (c.fld 42 0 5) (c.fld 43 0 1) (bytes.take (c.fld 40 0 16)))).complete c 0x0A06 stOK 0 0)) ∧
    (let f := c.fld 42 0 5
      let mine := fun (m : MgmtPkt) => m.channel == c.fld 43 0 1
      ∀ m, s.runs 0x0A07 2 2 c [] [] mgmtFields = true → s.groupEn f = true → (s.group f).mgmt.find? mine = some m →
      m.bytes.length ≤ c.fld 40 0 16 →
      let s1 := s.setGroup f { s.group f with mgmt := (s.group f).mgmt.eraseP mine }
      exec (.fxeMgmtRecv c) s
        = .next ((s1.emit (.hostWrite (c.fld 32 0 64) m.bytes)).complete c 0x0A07 stOK m.bytes.length 0))

/-- The events of FlexE (05 R164-R177, R181): overhead frames received and sent, integrated defects, management packets, a switch executed or timed
out, clients declared, the protection timers. Where the spec leaves a choice it states the model's own: log entries 69 and 71. -/
def Obligations.FlexeEventsTakeEffect : Prop :=
  ∀ s : State,
    (∀ port inst o f, port < 128 → s.isFlexePhy port = true → s.groupOfPort port = some f → inst < s.phyInstances port →
      let s1 := (s.phyAdd port 0 1).phyAdd port 1 (b2n (!o.crcOk))
      let x := (s1.oh port inst).frame o (s1.fget (Fld.FXE_GRP_CFG_GROUP_NUM f)) (s1.phyNum f (port % 8)) (s1.group f).rxCal
        (s1.instBase f port inst) (s1.rxPage f)
      let s2 := (s1.setOh port inst x).settleDefects port
      let s3 := (s2.fset (Fld.FXE_GRP_STATUS_SKEW_NS f) (min o.skewNs 65535)).fset (Fld.FXE_GRP_STATUS_SKEW_EXCEED f)
        (b2n (decide (10000 < o.skewNs)))
      (bitAt (s3.fget (Fld.FXE_PHY_DEF_RAW port)) 0 = true → exec (.overheadFrameReceive port inst o) s = .next (s3.refreshGroup f)) ∧
      (bitAt (s3.fget (Fld.FXE_PHY_DEF_RAW port)) 0 = false →
        ∃ t : State, exec (.overheadFrameReceive port inst o) s = .next (((t.rxAuto f).updateCaTx f).refreshGroup f) ∧
          t.rxPage f = majorityC o.c)) ∧
    (∀ f index, s.groupEn f = true → 0 < index → index < 32 → (s.group f).crClear = false →
      ∃ t : State, exec (.overheadFrameTransmit f index) s = .next t ∧ t.regs = s.regs ∧ t.ports = s.ports ∧
        t.outs.length = s.outs.length + (s.physByNum f).length) ∧
    (∀ f, s.groupEn f = true → (s.group f).switch = none → (s.group f).crClear = false → ∃ t : State, exec (.overheadFrameTransmit f 0) s = .next t ∧
      (t.group f).txSnap = (s.group f).txCal ∧ t.outs.length = s.outs.length + (s.physByNum f).length) ∧
    (∀ port d, port < 128 → d < 7 → s.isFlexePhy port = true →
      let raw := bitAt (s.fget (Fld.FXE_PHY_DEF_RAW port)) d
      raw ≠ bitAt (s.fget (Fld.FXE_PHY_DEF_FAIL port)) d →
      exec (.defectIntegrationExpiry port d) s = .next ((s.fset (Fld.FXE_PHY_DEF_FAIL port)
          (putBits (s.fget (Fld.FXE_PHY_DEF_FAIL port)) d 1 (b2n raw))).setEventBits
        (if raw then Fld.FXE_PHY_DEF_EVENT_FAIL_SET port else Fld.FXE_PHY_DEF_EVENT_FAIL_CLR port) (2 ^ d))) ∧
    (∀ f channel bytes, s.groupEn f = true →
      ((s.group f).mgmt.filter (·.channel == channel)).length < 64 →
      exec (.mgmtPacketReceive f channel bytes) s
        = .next (s.setGroup f { s.group f with mgmt := (s.group f).mgmt ++ [⟨channel, bytes⟩] })) ∧
    (∀ f channel bytes, s.groupEn f = true → 64 ≤ ((s.group f).mgmt.filter (·.channel == channel)).length →
      exec (.mgmtPacketReceive f channel bytes) s
        = .next ((s.satAdd (Fld.FXE_GRP_MGMT_DROP_CNT f) 1).setEvent (Fld.FXE_GRP_EVENT_MGMT_DROP f))) ∧
    (∀ f w t, f < 32 → (s.group f).switch = some w → w.caAt = some t → w.atM1 = true → t + 104770 ≤ s.nowNs → (∀ i, w.instant = some i → i ≤ s.nowNs) →
      ∃ u : State, exec (.calSwitchExecute f) s = .next (u.complete w.cmd 0x0A03 stOK
        (s.nowNs % 1000000000 + 2 ^ 32 * (s.nowNs / 1000000000 % 2 ^ 32))
        (s.nowNs / 1000000000 / 2 ^ 32 % 2 ^ 16 + 2 ^ 16 * u.txPage f)) ∧ (u.group f).switch = none ∧
        (u.group f).txCal = (s.group f).txCal ∧ (w.pair = false → u.txPage f = 1 - s.txPage f)) ∧
    (∀ f w, f < 32 → (s.group f).switch = some w →
      ∃ u : State, exec (.calSwitchTimeout f) s = .next (u.complete w.cmd 0x0A03 stTimeout 0 0) ∧ (u.group f).switch = none ∧
        (u.group f).txCal = (s.group f).txCal ∧ u.txPage f = s.txPage f) ∧
    (∀ c, s.linkServed (128 + c) = true → s.linkGood (128 + c) = false →
      let s1 := (s.leaveUp (128 + c)).linkEvent (128 + c) 1
      s1.holdoffMs (128 + c) = 0 →
      exec (.clientDownDeclared c) s = .next ((s1.setLinkState (128 + c) 2).downAction (128 + c))) ∧
    (∀ c < 256, s.linkState (128 + c) = 3 → s.linkGood (128 + c) = true → s.calHolds (128 + c) = false →
      exec (.clientUpDeclared c) s = .next (s.declareUp (128 + c)) ∧ (s.declareUp (128 + c)).linkState (128 + c) = 4) ∧
    (∀ c path, c < 256 → path < 2 → s.clientProt c = true →
      (if path = 0 then s.fbit (Fld.FXE_CLIENT_STATUS_SF_WORK c) else s.fbit (Fld.FXE_CLIENT_STATUS_SF_PROT c)) = true →
      let key := 2 * c + path
      let ports := { s.ports with sfHeld := s.ports.sfHeld.filter (· != key) ++ [key], wtr := if path = 0 then s.ports.wtr.filter (· != c) else s.ports.wtr }
      exec (.sfHoldoffExpiry c path) s = .next ((({ s with ports := ports }).selector c).goodChange (128 + c))) ∧
    (∀ c, s.ports.wtr.contains c = true →
      let s1 := { s with ports := { s.ports with wtr := s.ports.wtr.filter (· != c) } }
      exec (.waitToRestoreExpiry c) s = .next (((s1.selectPath c 0 false).selector c).goodChange (128 + c)))

/-- PAR_LOAD and PAR_READ (06 R205, R206): bytes are loaded into the build's bank and validated, the first failing rule is reported and the bank
left as it was; the bytes of a generation's bank are read. Where the spec leaves a choice it states the model's own: log entry 52. -/
def Obligations.ParserCommandsComplete : Prop :=
  ∀ (s : State) (c : Cmd), s.genClosing = false →
    let off := c.fld 40 0 20
    let len := c.fld 44 0 20
    (∀ bytes, s.runs 0x0320 2 2 c [] [] parFields = true → parRange off len = true → s.buildOpen = true →
      s.fget Fld.GEN_STATE_HOLDER = s.cmdMaster c →
      let g := s.buildGen
      let b := (s.bank (s.fget (fldGenBank g))).write off (bytes.take len ++ List.replicate (len - bytes.length) 0)
      (b.validate = none → exec (.parLoad c (.bytes bytes)) s = .next ((((s.installBank s.loadBank b).fset (fldGenBank g) s.loadBank)).complete c
        0x0320 stOK (b.crc + 2 ^ 32 * s.loadBank) 0)) ∧
      (∀ rule at', b.validate = some (rule, at') →
        exec (.parLoad c (.bytes bytes)) s = .next (s.complete c 0x0320 stBadPayload 0 (rule + 2 ^ 32 * at')))) ∧
    (let g := bitsAt c.arg0 0 2
      let n := s.fget (fldGenBank g)
      s.runs 0x0321 2 2 c [(0, 2)] [] parFields = true → parRange off len = true → s.genReadable g = true →
      exec (.parRead c) s = .next ((s.emit (.hostWrite (c.fld 32 0 64) ((List.range len).map fun k => (s.bank n).byte (off + k)))).complete c
        0x0321 stOK ((s.bank n).crc + 2 ^ 32 * n) 0))


/-! ### Device time, power, HBM (15, 16, 17) -/

/-- The TIME commands (15 R449-R456): a domain is read, set, stepped, given a rate or a slew, unlocked, or made the stamping domain, and transmit
stamps are read out oldest first. Where the spec leaves a choice it states the model's own: log entries 12 and 85. -/
def Obligations.TimeCommandsComplete : Prop :=
  ∀ (s : State) (c : Cmd),
    (
      let d := bitsAt c.arg0 0 1
      s.runs 0x0B01 1 1 c [(0, 1)] [] [] = true → exec (.timeRead c) s = .next (s.complete c 0x0B01 stOK (timeLo (s.timeDomain d).count)
        (timeHi (s.timeDomain d).count + 2 ^ 16 * s.fget Fld.TIM_STATUS_STAMP_DOM + 2 ^ 32 * fastPath (s.timeDomain (1 - d)).count))) ∧
    (let d := bitsAt c.arg1 16 1
      let old := (s.timeDomain d).count
      let new := (bitsAt c.arg0 32 32 + 2 ^ 32 * bitsAt c.arg1 0 16) * 1000000000 + bitsAt c.arg0 0 32
      s.runs 0x0B02 1 1 c [(0, 64)] [(0, 17)] [] = true → bitsAt c.arg0 0 32 < 1000000000 → s.timOwned c = true →
      (s.timeDomain d).permit = true →
      exec (.timeSet c) s = .next ((s.stepDomain d new).complete c 0x0B02 stOK (timeLo old) (timeHi old))) ∧
    (let d := bitsAt c.arg1 0 1
      let off := signed c.arg0 64
      let new := ((s.timeDomain d).count : Int) + off
      s.runs 0x0B03 1 1 c [(0, 64)] [(0, 1)] [] = true → off.natAbs < 2 ^ 62 → s.timOwned c = true → (s.timeDomain d).permit = true →
      0 ≤ new → new < 2 ^ 48 * 1000000000 →
      exec (.timeStep c) s = .next ((s.stepDomain d new.toNat).complete c 0x0B03 stOK (timeLo new.toNat) (timeHi new.toNat))) ∧
    (let d := bitsAt c.arg1 32 1
      let rho := signed c.arg0 48
      let x := s.timeDomain d
      let y := { x with rho := rho, drift := if bitAt c.arg1 33 then signed c.arg1 32 else x.drift }
      s.runs 0x0B04 1 1 c [(0, 48)] [(0, 34)] [] = true → -rhoLimit ≤ rho → rho ≤ rhoLimit → s.timOwned c = true →
      exec (.timeRate c) s = .next ((s.setDomain d y).complete c 0x0B04 stOK (unsignedOf x.rho 48) 0)) ∧
    (let d := bitsAt c.arg1 48 1
      let delta := signed c.arg0 64
      let n := bitsAt c.arg1 0 40
      let x := s.timeDomain d
      s.runs 0x0B05 1 1 c [(0, 64)] [(0, 40), (48, 1)] [] = true → 1000 ≤ n → 2000 * delta.natAbs ≤ n → s.timOwned c = true →
      ∃ w : Slew, exec (.timeSlew c) s = .next ((s.setDomain d { x with slew := some w }).complete c 0x0B05 stOK (unsignedOf x.unapplied 64) 0) ∧
        w.delta = delta ∧ w.total = n ∧ w.left = n ∧ w.sigma * n + w.rest = delta * unitsPerNs ∧ 0 ≤ w.rest ∧ w.rest < n) ∧
    (
      let d := bitsAt c.arg0 0 1
      s.runs 0x0B06 1 1 c [(0, 1)] [] [] = true → s.timOwned c = true →
      exec (.timeUnlock c) s = .next ((s.setDomain d { s.timeDomain d with permit := true }).complete c 0x0B06 stOK 0 0)) ∧
    (
      let d := bitsAt c.arg0 0 1
      s.runs 0x0B07 1 1 c [(0, 1)] [] [] = true → s.timOwned c = true →
      (s.fget Fld.TIM_STATUS_STAMP_DOM = d →
        exec (.timeSwitch c) s = .next (s.complete c 0x0B07 stOK (timeLo s.nowNs) (timeHi s.nowNs))) ∧
      (s.fget Fld.TIM_STATUS_STAMP_DOM ≠ d →
        let s1 := (s.fset Fld.TIM_STATUS_STAMP_DOM d).setEvent Fld.TIM_EVENT_SWITCHED
        exec (.timeSwitch c) s = .next ((s1.afterJump s.view.sec).complete c 0x0B07 stOK (timeLo s1.nowNs)
          (timeHi s1.nowNs + 2 ^ 32 * sat32 ((s1.nowNs : Int) - (s.nowNs : Int)))))) ∧
    (let p := bitsAt c.arg0 0 7
      let n := bitsAt c.arg0 8 7
      let f := Assoc.get s.tim.txts [] p
      s.runs 0x0B08 2 2 c [(0, 15)] [] [(32, 0, 64)] = true → 0 < n → n ≤ 64 → s.timOwned c = true →
      s.fbit (Fld.PRT_PORT_CFG_EN (p / 8) (p % 8)) = true → f ≠ [] →
      let s1 := s.emit (.hostWrite (c.fld 32 0 64) ((f.take n).flatMap fun e => e.bytes p))
      let s2 := { s1 with tim := { s1.tim with txts := Assoc.put s1.tim.txts [] p (f.drop n) } }
      exec (.timeTxtsRead c) s = .next ((s2.fset (Fld.TIM_PORT_PTP_TXTS_LEVEL p) (f.drop n).length).complete c 0x0B08 stOK (f.take n).length 0))

/-- The events of device time (15 R443-R468): a slew ends, a second ticks, the reference and the lanes are lost and return, PPS inputs and outputs,
SyncE outputs and triggers. Where the spec leaves a choice it states the model's own: log entries 87, 88 and 89. -/
def Obligations.TimeEventsTakeEffect : Prop :=
  ∀ s : State,
    (∀ d w, (s.timeDomain (d % 2)).slew = some w → exec (.slewEnd d) s = .next (State.advance (spanFuel w.left) w.left s)) ∧
    (exec .oneSecondTick s = .next (s.waitFor ((s.view.sec + 1) * 1000000000))) ∧
    (s.fbit Fld.TIM_STATUS_REF_PRESENT = true → exec .timeRefLoss s
      = .next (((s.fset Fld.TIM_STATUS_REF_PRESENT 0).fset Fld.TIM_STATUS_PLL_LOCK 0).setEvent Fld.TIM_EVENT_REF_LOSS)) ∧
    (s.fbit Fld.TIM_STATUS_REF_PRESENT = false → exec .timeRefReturn s
      = .next (((s.fset Fld.TIM_STATUS_REF_PRESENT 1).fset Fld.TIM_STATUS_PLL_LOCK 1).setEvent Fld.TIM_EVENT_REF_BACK)) ∧
    (∀ lane, ∃ t : State, exec (.timeLaneLoss lane) s = .next t ∧ (if lane = 0 then t.tim.laneUp0 else t.tim.laneUp12) = false ∧
      (if lane = 0 then t.tim.laneUp12 = s.tim.laneUp12 else t.tim.laneUp0 = s.tim.laneUp0) ∧
      (t.tim.laneUp0 = false ∧ t.tim.laneUp12 = false → t.tim.tmClock = .holding)) ∧
    (∀ lane, ∃ t : State, exec (.timeLaneReturn lane) s = .next t ∧ (if lane = 0 then t.tim.laneUp0 else t.tim.laneUp12) = true ∧
      t.tim.tmClock ≠ .holding ∧ t.regs = s.regs) ∧
    (∀ n held gap, n < 2 → s.fbit (Fld.TIM_PPSIN_CFG_EN n) = true →
      (held < max 1 (s.fget (Fld.TIM_PPSIN_CFG_MIN_PULSE n)) →
        exec (.ppsInEdge n held gap) s = .next (s.satAdd (Fld.TIM_PPSIN_CNT_GLITCH n) 1)) ∧
      (max 1 (s.fget (Fld.TIM_PPSIN_CFG_MIN_PULSE n)) ≤ held → gap < s.fget (Fld.TIM_PPSIN_WIN_MIN_GAP_MS n) →
        exec (.ppsInEdge n held gap) s = .next (s.satAdd (Fld.TIM_PPSIN_CNT_EARLY n) 1)) ∧
      (max 1 (s.fget (Fld.TIM_PPSIN_CFG_MIN_PULSE n)) ≤ held → s.fget (Fld.TIM_PPSIN_WIN_MIN_GAP_MS n) ≤ gap →
        ∃ t : State, exec (.ppsInEdge n held gap) s = .next (t.setEventBits Fld.TIM_EVENT_PPSIN_EDGE (2 ^ n)) ∧
          t.fget (Fld.TIM_PPSIN_SEQ_LOST n) = 0 ∧
          t.fget (Fld.TIM_PPSIN_SEQ_SEQ n) = (s.fget (Fld.TIM_PPSIN_SEQ_SEQ n) + 1) % 2 ^ (Fld.TIM_PPSIN_SEQ_SEQ n).w ∧ t.tim = s.tim)) ∧
    (∀ n < 2, s.fbit (Fld.TIM_PPSIN_CFG_EN n) = true → s.fbit (Fld.TIM_PPSIN_SEQ_LOST n) = false →
      exec (.ppsInLoss n) s = .next ((s.fset (Fld.TIM_PPSIN_SEQ_LOST n) 1).setEventBits Fld.TIM_EVENT_PPSIN_LOSS (2 ^ n))) ∧
    (∀ n, s.fbit (Fld.TIM_PPSOUT_CFG_EN (n % 2)) = true →
      let d := s.fget (Fld.TIM_PPSOUT_CFG_DOM (n % 2))
      let target := ((s.ppsSecond (n % 2) + 1) * 1000000000 + s.ppsOffset (n % 2)).toNat
      exec (.ppsOutPulse n) s = .next (State.advanceTo d target (spanFuel (target - (s.timeDomain d).count)) s)) ∧
    (∀ n, s.tim.ppsActive.contains n = true → ∃ t : State, exec (.ppsOutPulseEnd n) s = .next t ∧ n ∉ t.tim.ppsActive ∧
      t.outs = s.outs ++ [.pin n (s.fbit (Fld.TIM_PPSOUT_CFG_POL n))] ∧ t.regs = s.regs) ∧
    (∀ n < 2, s.fbit (Fld.TIM_SYNCE_CFG_EN n) = true →
      (s.fbit (Fld.TIM_SYNCE_CFG_SQUELCH_EN n) = true → s.fbit (Fld.TIM_SYNCE_STATUS_SQUELCHED n) = false → exec (.synceSquelch n) s
        = .next ((s.fset (Fld.TIM_SYNCE_STATUS_SQUELCHED n) 1).setEventBits Fld.TIM_EVENT_SYNCE_SQUELCH (2 ^ n))) ∧
      (s.laneGood (s.fget (Fld.TIM_SYNCE_CFG_LANE n)) = true →
        exec (.synceResume n) s = .next (s.fset (Fld.TIM_SYNCE_STATUS_SQUELCHED n) 0))) ∧
    (∀ n < 8, s.fbit (Fld.TIM_TRIG_CFG_EN n) = true → exec (.triggerFire n) s = .next ((s.waitFor (s.trigInstant n)).trigAll false))

/-- The PWR commands (16 R472-R496): a domain starts to park or to wake, the governor, the fence policy and the feeds are set and answered, the
standby feed is tested and switched to, and a snapshot is written. Where the spec leaves a choice it states the model's own: log entries 90, 92 and
95. -/
def Obligations.PowerCommandsComplete : Prop :=
  ∀ (s : State) (c : Cmd), s.pwrOwned c = true →
    (let d := bitsAt c.arg0 0 6
      let start := fun x =>
        let t := s.setDomState d x
        { t with pwr := { t.pwr with domWaiting := Assoc.insert t.pwr.domWaiting d c } }
      s.runs 0x0C01 1 1 c [(0, 6), (8, 1)] [] [] = true → d ≤ 39 →
      (bitAt c.arg0 8 = false → s.domState d = 0 → s.parkable d = true → exec (.pwrDomainPark c) s = .next (start 1)) ∧
      (bitAt c.arg0 8 = true → s.domState d = 2 → exec (.pwrDomainUnpark c) s = .next (start 3)) ∧
      (bitAt c.arg0 8 = true → s.domState d = 0 → exec (.pwrDomainUnpark c) s = .next (s.complete c 0x0C01 stOK 0 0))) ∧
    (let limit := bitsAt c.arg0 0 16
      let step := bitsAt c.arg0 16 16
      let bg := bitsAt c.arg1 16 4
      s.runs 0x0C02 1 1 c [(0, 64)] [(0, 22)] [] = true →
      (bitAt c.arg1 21 = true → exec (.pwrGovRead c) s = .next (s.complete c 0x0C02 stOK s.govArg0 s.govArg1)) ∧
      (bitAt c.arg1 21 = false → 300 ≤ limit → limit ≤ 1350 → 10 ≤ step → step ≤ 10000 → bitsAt c.arg0 32 16 ≠ 0 →
        bitsAt c.arg0 48 8 < bitsAt c.arg0 56 8 → 1 ≤ bg → bg ≤ 7 →
        let s1 := ((s.setReg Reg.PWR_GOV_LIMIT (BitVec.ofNat 32 (limit + 2 ^ 16 * step))).fset Fld.PWR_GOV_EMAX_E_MAX_MJ
          (bitsAt c.arg0 32 16)).setReg Reg.PWR_GOV_YTHERM (BitVec.ofNat 32 (bitsAt c.arg1 4 12))
        let s2 := s1.setReg Reg.PWR_GOV_CFG (BitVec.ofNat 32 (bitsAt c.arg1 3 1 + 2 * bitsAt c.arg1 0 3 + 16 * bg
          + 2 ^ 8 * bitsAt c.arg0 48 8 + 2 ^ 16 * bitsAt c.arg0 56 8))
        let s3 := (s2.setEnergy (if bitAt c.arg1 20 then s2.eMax else min s2.pwr.energy s2.eMax)).govern
        exec (.pwrGovSet c) s = .next (s3.complete c 0x0C02 stOK s3.govArg0 s3.govArg1))) ∧
    (let fill := bitsAt c.arg0 8 8
      let n := bitsAt c.arg0 20 6
      s.runs 0x0C03 1 1 c [(0, 1), (8, 18), (32, 17)] [] [] = true →
      (bitAt c.arg0 48 = true → exec (.pwrFenceRead c) s = .next (s.complete c 0x0C03 stOK s.fenceArg 0)) ∧
      (bitAt c.arg0 48 = false → 10 ≤ fill → fill ≤ 100 → 1 ≤ n → n ≤ 48 → bitsAt c.arg0 32 16 ≠ 0 →
        let s1 := (s.setReg Reg.PWR_FENCE_CFG (BitVec.ofNat 32 (bitsAt c.arg0 0 26))).fset Fld.PWR_FENCE_EVAL_EVAL_MS (bitsAt c.arg0 32 16)
        exec (.pwrFenceSet c) s = .next (s1.complete c 0x0C03 stOK s1.fenceArg 0))) ∧
    (let sag := bitsAt c.arg0 8 8
      let hold := bitsAt c.arg0 16 16
      let test := bitsAt c.arg0 32 16
      s.runs 0x0C04 1 1 c [(0, 3), (8, 24), (32, 17)] [] [] = true →
      (bitAt c.arg0 48 = true → exec (.pwrFeedRead c) s = .next (s.complete c 0x0C04 stOK s.feedArg 0)) ∧
      (bitAt c.arg0 48 = false → 5 ≤ sag → sag ≤ 50 → 1 ≤ hold → hold ≤ 3600 → 1 ≤ test → test ≤ 10080 →
        let s1 := ((s.setReg Reg.PWR_FEED_CFG (BitVec.ofNat 32 (bitsAt c.arg0 0 32))).fset Fld.PWR_FEED_TEST_TEST_MIN test).feedHold
        exec (.pwrFeedSet c) s = .next (s1.complete c 0x0C04 stOK s1.feedArg 0))) ∧
    (∀ result mv, s.runs 0x0C05 1 1 c [] [] [] = true → s.fbit Fld.PWR_FEED_CFG_HEALTH_MODE = false → s.justTransferred = false →
      let s1 := s.health (if s.feedState (1 - s.activeFeed) = feedAbsent then 5 else result)
      exec (.pwrFeedTest c result mv) s
        = .next (s1.complete c 0x0C05 stOK (s1.fget Fld.PWR_FEED_STATUS_HEALTH + 2 ^ 16 * (mv % 2 ^ 16)) 0)) ∧
    (∀ fell oldOk, s.runs 0x0C06 1 1 c [] [] [] = true → s.feedState (1 - s.activeFeed) = feedGood →
      let s1 := s.plannedTransfer fell oldOk
      exec (.pwrFeedSwitch c fell oldOk) s = .next (s1.complete c 0x0C06 stOK s1.activeFeed 0)) ∧
    (s.runs 0x0C07 2 2 c [] [] [(32, 0, 64)] = true →
      ∃ b : List Byte, exec (.pwrSnapshot c) s = .next ((s.emit (.hostWrite (c.fld 32 0 64) b)).complete c 0x0C07 stOK 0 0) ∧ b.length = 320 ∧
        ∀ d < 40, leNat ((b.drop (4 * d)).take 4) = (s.domState d + 16 * s.fget (Fld.PWR_DOM_STATE_POWER d)) % 2 ^ 32)

/-- The events of power, temperature and feeds (16 R472-R493). Where the spec leaves a choice it states the model's own: log entries 91, 93 and 94.
-/
def Obligations.PowerEventsTakeEffect : Prop :=
  ∀ s : State,
    (∀ d < 40, s.domState d = 1 → s.domEmpty d = true → exec (.domainDrained d) s
      = .next (((((s.loseDomain d).setDomState d 2).satAdd (Fld.PWR_DOM_STATE_PARK_CNT d) 1).setEvent Fld.PWR_EVENT_PARKED).domComplete d stOK)) ∧
    (∀ d < 40, s.domState d = 1 → exec (.domainParkTimeout d) s = .next ((s.setDomState d 0).domComplete d stTimeout)) ∧
    (∀ d trained lanes, d < 40 → s.domState d = 3 →
      ∃ t : State, exec (.domainUnparkDone d trained lanes) s = .next (t.domComplete d stOK) ∧ t.domState d = 0 ∧
        (31 ≤ d → d ≤ 36 → t.fget (Fld.HBT_STACK_STATUS_STATE (d - 31)) = if trained then 3 else 4)) ∧
    (∀ mvA curA mvB curB (power : List Nat),
      let p := (mvA * curA + mvB * curB) / 12500
      let e := min s.eMax (s.pwr.energy + s.fget Fld.PWR_GOV_LIMIT_LIMIT_W * 8 - p)
      let low := fun (e : Nat) => decide (e * 100 < s.fget Fld.PWR_GOV_CFG_LOW_PCT * s.eMax)
      ∃ t : State, exec (.telemetrySample mvA curA mvB curB power) s
          = .next (if low e && !low s.pwr.energy then t.setEvent Fld.PWR_EVENT_ENERGY_LOW else t) ∧
        t.pwr = { s.pwr with sumP := s.pwr.sumP + p, countP := s.pwr.countP + 1, energy := e } ∧
        (∀ d < 40, t.fget (Fld.PWR_DOM_STATE_STATE d) = s.fget (Fld.PWR_DOM_STATE_STATE d))) ∧
    (∀ temps : List (Option Int), s.pwr.collapsed = false → s.rst.porLow = false → s.pwr.tripped = false →
      let s1 := ((List.range 64).zip temps).foldl State.sensor s
      (∀ x j, s1.hottest s1.validSensors = some (x, j) → x < tripTemp) →
      ∃ t : State, exec (.tempSample temps) s = .next (t.heldReset s1.tmax.1) ∧ t.pwr.tripped = false ∧ t.pwr.tripRun = 0 ∧
        t.fget Fld.PWR_THERM_MAX_VALID = b2n (!s1.validSensors.isEmpty)) ∧
    (∃ t : State, exec .energyEvaluation s = .next t.govern ∧ t.pwr = { s.pwr with sumP := 0, countP := 0 } ∧
      t.regs = (s.fset Fld.PWR_GOV_STATUS_Y_ENERGY s.evalEnergy).regs) ∧
    (
      let level := s.fget Fld.PWR_GOV_STATUS_BG_LEVEL
      ∃ t : State, exec .backgroundCreditEarn s = .next t ∧ t.regs = s.regs ∧ ∀ i < 14,
        Assoc.get t.pwr.credit 0 i = min (4 * (bgRates.getD i (0, 0, 0)).2.2) (Assoc.get s.pwr.credit 0 i
          + if level = 0 then (bgRates.getD i (0, 0, 0)).1 else if level = 1 then (bgRates.getD i (0, 0, 0)).2.1
            else (bgRates.getD i (0, 0, 0)).2.2)) ∧
    (let a := ((List.range 48).filter fun r => (s.region r).state == regActive || (s.region r).state == regWaking).length
      let s1 := { s with pwr := { s.pwr with fenceHoldoff := s.pwr.fenceHoldoff - 1 } }
      s.fbit Fld.PWR_FENCE_CFG_EN = true →
      (s.fenceTarget = a → exec .fencePolicyEval s = .next s1) ∧
      (∀ r, s.fenceTarget < a → s.pwr.fenceHoldoff = 0 → s.fenceChoice = some r →
        exec .fencePolicyEval s = .next (s1.fence r).fenceSettle)) ∧
    (∀ feed st, feed < 2 → st < 3 →
      let s1 := s.fset (if feed = 0 then Fld.PWR_FEED_STATUS_STATE_A else Fld.PWR_FEED_STATUS_STATE_B) st
      exec (.feedStateChange feed st) s
        = .next ({ s1 with pwr := { s1.pwr with noStandbySeen := s1.pwr.noStandbySeen && st != feedGood } }).feedHold) ∧
    (∀ ticks sagged fell oldOk,
      (ticks < s.fget Fld.PWR_FEED_CFG_SAG_FILTER →
        exec (.feedSag ticks sagged fell oldOk) s = .next (s.satAdd Fld.PWR_FEED_CNT2_SAG_GLITCH 1)) ∧
      (s.fget Fld.PWR_FEED_CFG_SAG_FILTER ≤ ticks → s.feedState (1 - s.activeFeed) ≠ feedGood →
        exec (.feedSag ticks sagged fell oldOk) s = .next s.noStandby) ∧
      (s.fget Fld.PWR_FEED_CFG_SAG_FILTER ≤ ticks → s.feedState (1 - s.activeFeed) = feedGood → sagged = false →
        exec (.feedSag ticks sagged fell oldOk) s
          = .next (((s.transfer.satAdd Fld.PWR_FEED_CNT_FAILOVERS 1).setEvent Fld.PWR_EVENT_FAILOVER).afterTransfer fell oldOk))) ∧
    (∃ t : State, exec .inputCollapse s = .next t ∧ t.off = true ∧ t.regs = s.regs) ∧
    (∀ fell oldOk, s.fbit Fld.PWR_FEED_STATUS_HOLDING = true → exec (.revertHoldExpiry fell oldOk) s
      = .next (if s.feedState s.activeFeed = feedGood then s.plannedTransfer fell oldOk else s.fset Fld.PWR_FEED_STATUS_HOLDING 0)) ∧
    (∀ result, s.fbit Fld.PWR_FEED_CFG_HEALTH_MODE = false → s.justTransferred = false →
      s.feedState (1 - s.activeFeed) ≠ feedAbsent → exec (.feedSelfTest result) s = .next (s.health result))

/-- The events of the HBM controllers (17 R505-R517): link errors retry up to RETRY_MAX times and then retrain, windows restart, the scrubber reads
the next unit, stacks fail, sleep and finish training. Where the spec leaves a choice it states the model's own: log entries 97, 98, 99 and 100. -/
def Obligations.HbmEventsTakeEffect : Prop :=
  ∀ (s : State) (die stack : Nat),
    (∀ ch again, s.stackOn die stack = true → ch < 32 →
      let key := (8 * die + stack) * 32 + ch
      let run := if again then Assoc.get s.hbm.retries 0 key else 0
      let trains := if again then Assoc.get s.hbm.retrains 0 key else 0
      (run < s.fget (dieFld die Fld.HBF_CFG_RETRY_MAX) → ∃ t : State, exec (.hbmLinkError die stack ch again) s = .next t ∧
        Assoc.get t.hbm.retries 0 key = run + 1 ∧ t.regs = (s.satAdd (dieFld die (Fld.HBF_RETRY_CNT_COUNT stack)) 1).regs) ∧
      (s.fget (dieFld die Fld.HBF_CFG_RETRY_MAX) ≤ run → ∃ t : State,
        exec (.hbmLinkError die stack ch again) s = .next (if trains + 1 < 3 then t else t.stackFail die stack) ∧
        Assoc.get t.hbm.retries 0 key = 0 ∧ Assoc.get t.hbm.retrains 0 key = trains + 1 ∧
        t.regs = ((s.satAdd (dieFld die (Fld.HBF_RETRAIN_CNT_COUNT stack)) 1).setEvent (dieFld die Fld.HBF_EVENT_RETRAIN)).regs)) ∧
    (∀ pc bank, die < 2 → stack < hbmStacks die → pc < 64 → bank < 16 →
      exec (.refreshWindow die stack pc bank) s
        = .next { s with hbm := { s.hbm with act := Assoc.erase s.hbm.act (HbmLoc.key ⟨die, stack, pc, bank, 0, 0⟩) } }) ∧
    (∀ temp, die < 2 → stack < hbmStacks die → s.off = false → exec (.stackTempRead die stack temp) s
      = .next ((s.fset (dieFld die (Fld.HBF_STACK_STATUS_TEMP stack)) temp).fset (dieFld die (Fld.HBF_STACK_STATUS_REFRESH_2X stack))
        (b2n (decide (85 ≤ temp % 256))))) ∧
    (∀ found upsets unit, s.stackOn die stack = true → s.off = false →
      s.scrubNext die stack (s.fget (dieFld die (Fld.HBF_SCRUB_POS_UNIT stack))) = some unit → found ≠ 2 →
      let s2 := (s.bgSpend (if die = 0 then 0 else 1)).scrubUnit die stack unit found
      let s3 := match s2.scrubNext die stack (unit + 1) with
        | some n => s2.fset (dieFld die (Fld.HBF_SCRUB_POS_UNIT stack)) n
        | none => (s2.wrapAdd (dieFld die (Fld.HBF_SCRUB_PASS_PASSES stack)) 1).fset (dieFld die (Fld.HBF_SCRUB_POS_UNIT stack))
            ((s2.scrubNext die stack 0).getD 0)
      exec (.scrubRead die stack found upsets) s = .next (if s3.ueFails die stack then s3.stackFail die stack else s3)) ∧
    (s.stackOn die stack = true → exec (.stackNoResponse die stack) s = .next (s.stackFail die stack)) ∧
    (s.stackOn 1 stack = true → s.fbit Fld.HBT_SR_CFG_SR_EN = true → (stackRegions stack).all (fun r => (s.region r).used == 0) = true →
      exec (.selfRefreshEntry stack) s = .next (s.fset (Fld.HBT_STACK_STATUS_SELF_REFRESH stack) 1)) ∧
    (∀ trained lanes, stack < 6 → s.stackState 1 stack = 1 →
      exec (.hbtTrainDone stack trained lanes) s = .next (if trained
        then (((s.fset (Fld.HBT_STACK_STATUS_STATE stack) 3).fset (Fld.HBT_STACK_STATUS_TRAINED stack) 1).fset
          (Fld.HBT_STACK_STATUS_LANES_REPAIRED stack) lanes).setEvent Fld.HBT_EVENT_TRAIN_DONE
        else (s.fset (Fld.HBT_STACK_STATUS_STATE stack) 4).setEvent Fld.HBT_EVENT_TRAIN_FAIL))


/-! ### Errors, Well log, counters, update, start-up, chain, pins (18, 19, 20, 21, 02, 23) -/

/-- The ERR commands and PMC_READ (18 R522, R537, R538, 19 R554): the oldest entries of the log go to host memory and leave it, an injected error is
entered as one, a message source pulses; counters are written to host memory. Where the spec leaves a choice it states the model's own: log entries
103 and 106. -/
def Obligations.ErrorAndCounterCommandsComplete : Prop :=
  ∀ (s : State) (c : Cmd),
    (let max := bitsAt c.arg0 0 7
      let n := min max s.err.log.length
      s.runs 0x0F01 2 2 c [(0, 7)] [] [(32, 0, 64)] = true → 0 < max → max ≤ 64 → s.errOwned c = true →
      exec (.errLogPop c none) s
        = .next (((s.writeEntries (c.fld 32 0 64) (s.err.log.take n)).popLog n).complete c 0x0F01 stOK n 0) ∧
      ∀ f < n, exec (.errLogPop c (some f)) s
        = .next (((s.writeEntries (c.fld 32 0 64) (s.err.log.take f)).popLog f).complete c 0x0F01 stHostError 0 0)) ∧
    (∀ sev, s.runs 0x0F02 1 1 c [(0, 16)] [(0, 64)] [] = true → s.severity (bitsAt c.arg0 0 16) c.arg1 = some sev → sev ≠ 3 →
      s.errOwned c = true →
      exec (.errInject c) s = .next ((s.logEntry (bitsAt c.arg0 0 16) c.arg1 false true).complete c 0x0F02 stOK 0 0)) ∧
    (s.runs 0x0F03 1 1 c [(0, 9)] [] [] = true → bitsAt c.arg0 0 9 ≤ 485 → s.errOwned c = true →
      exec (.errMsgRaise c) s = .next ((s.pulse (730 + bitsAt c.arg0 0 9)).complete c 0x0F03 stOK 0 0)) ∧
    (let first := bitsAt c.arg0 0 11
      let count := bitsAt c.arg1 0 12
      let m := if bitAt c.arg0 17 then s.pmcs.lat else s.pmcs.cnt
      let bytes := (List.range count).flatMap fun i => leBytes 8 (s.pmcShow m (bitsAt c.arg0 16 1) (first + i))
      let q := s.fget Fld.PMC_LATCH_SEQ_SEQ
      s.runs 0x0E01 2 2 c [(0, 11), (16, 1), (17, 1)] [(0, 12)] [(32, 0, 64)] = true → 0 < count → first + count ≤ 2048 →
      exec (.pmcRead c) s = .next ((s.emit (.hostWrite (c.fld 32 0 64) bytes)).complete c 0x0E01 stOK q q))

/-- The events of errors and counters (18 R527-R541, 19 R550): MSI-X entries are set and held messages leave, fault inputs rise, fall and stick,
watchdogs and firmware raise their errors, the Well log is written, the device freezes, banks start and stop. Where the spec leaves a choice it
states the model's own: log entries 101, 102 and 104. -/
def Obligations.ErrorEventsTakeEffect : Prop :=
  ∀ s : State, s.off = false →
    (∀ f entry addr data masked enable functionMask, s.pfEnabled f = true → s.vectorInRange f (s.fget (Fld.HIF_PF_CFG_VEC_BASE f) + entry) = true →
      ∃ t : State, exec (.msixUnmask f entry addr data masked enable functionMask) s = .next (t.sendHeld f) ∧ t.regs = s.regs ∧
        Assoc.get t.err.msix ⟨0, 0, true⟩ (s.fget (Fld.HIF_PF_CFG_VEC_BASE f) + entry) = ⟨addr, data, masked⟩ ∧
        t.err.msixEnabled.contains f = enable ∧ t.err.functionMasked.contains f = functionMask) ∧
    (∀ i held, i < 16 → s.fbit (Fld.ERR_FAULT_STATUS_LEVEL i) = false →
      (held < s.fget (Fld.ERR_FAULT_CFG_MIN_PULSE i) →
        exec (.faultInputAssert i held) s = .next (s.satAdd (Fld.ERR_FAULT_STATUS_GLITCH i) 1)) ∧
      (s.fget (Fld.ERR_FAULT_CFG_MIN_PULSE i) ≤ held → s.fbit (Fld.ERR_FAULT_CFG_EN i) = false →
        exec (.faultInputAssert i held) s = .next (s.fset (Fld.ERR_FAULT_STATUS_LEVEL i) 1)) ∧
      (s.fget (Fld.ERR_FAULT_CFG_MIN_PULSE i) ≤ held → s.fbit (Fld.ERR_FAULT_CFG_EN i) = true →
        s.fbit (Fld.ERR_FAULT_STATUS_LATCHED i) = false →
        exec (.faultInputAssert i held) s = .next (((s.fset (Fld.ERR_FAULT_STATUS_LEVEL i) 1).withSource (710 + i)
          fun t => t.fset (Fld.ERR_FAULT_STATUS_LATCHED i) 1).raiseError 0x0501 i))) ∧
    (∀ i held, i < 16 → s.fget (Fld.ERR_FAULT_CFG_MIN_PULSE i) ≤ held →
      ∃ t : State, exec (.faultInputDeassert i held) s = .next t ∧ t.regs = (s.fset (Fld.ERR_FAULT_STATUS_LEVEL i) 0).regs ∧
        i ∉ t.err.stuckReported) ∧
    (∀ i < 16, s.fbit (Fld.ERR_FAULT_STATUS_LEVEL i) = true → s.fbit (Fld.ERR_FAULT_CFG_EN i) = true →
      s.fbit (Fld.ERR_FAULT_STUCK_STUCK_MS i) = true → s.err.stuckReported.contains i = false →
      let s1 := { s with err := { s.err with stuckReported := s.err.stuckReported ++ [i] } }
      exec (.faultInputStuck i) s
        = .next ((s1.withSource (710 + i) fun t => t.fset (Fld.ERR_FAULT_STATUS_STUCK i) 1).raiseError 0x0502 i)) ∧
    (∀ core, s.err.fatal ≠ .frozen → ∃ t : State, exec (.watchdogExpiry core) s = .next t ∧ t.err.romDump = true ∧
      t.regs = (s.raiseError 0x0902 (core % 4)).regs ∧ t.outs = (s.raiseError 0x0902 (core % 4)).outs) ∧
    (∀ reason, exec (.fwFatal reason) s = .next (s.raiseErrorFw 0x0901 reason)) ∧
    (∀ n bodies failed, s.err.fatal = .stopped →
      (s.fget Fld.ERR_WL_SIZE_SIZE_MIB = 0 → exec (.wellLogDump n bodies failed) s = .next (s.fset Fld.ERR_WL_STATUS_STATE 6).freeze) ∧
      (s.fget Fld.ERR_WL_SIZE_SIZE_MIB ≠ 0 → s.rst.firmwareUp = false →
        exec (.wellLogDump n bodies failed) s = .next (s.fset Fld.ERR_WL_STATUS_STATE 7).freeze) ∧
      (s.fget Fld.ERR_WL_SIZE_SIZE_MIB ≠ 0 → s.rst.firmwareUp = true → failed = true →
        exec (.wellLogDump n bodies failed) s = .next ((wellRun n bodies s.wellBegin).wellEnd 4))) ∧
    (∀ n bodies, s.err.fatal = .dumping →
      let t := wellRun n bodies s
      exec (.wellLogDump n bodies false) s = .next (if t.wellTypes.length ≤ t.err.wellSections.length then t.wellFinish else t)) ∧
    (s.err.fatal = .dumping → exec .wellLogStall s = .next (s.wellEnd 4)) ∧
    (∀ r, s.pmcs.run = some r → exec .pmcRunApply s = .next (s.waitFor r.instant).pmcRunNow)

/-- The FWU commands (20 R566-R578): information, a session and its chunks, the bitmap, an apply, an abort, an activation, a confirmation and a
microcode stage. Where the spec leaves a choice it states the model's own: log entries 8 and 107. -/
def Obligations.UpdateCommandsComplete : Prop :=
  ∀ (s : State) (c : Cmd), s.fwuOwned (s.cmdMaster c) = true →
    let m := s.cmdMaster c
    (s.runs 0x0D01 1 1 c [] [] [] = true → ∃ r0 r1, exec (.fwuInfo c) s = .next (s.fwuComplete c 0x0D01 stOK r0 r1) ∧
      bitsAt r0 0 32 = s.runningBank.version % 2 ^ 32 ∧
      (s.fwu.bank0.state < 8 → bitsAt r0 32 3 = s.fwu.bank0.state)) ∧
    (
      let p := cmdParams c
      s.runs 0x0D02 2 2 c [] []
        [(32, 0, 32), (36, 0, 32), (40, 0, 32), (44, 0, 32), (48, 0, 32), (52, 0, 32), (56, 0, 32), (60, 0, 13), (62, 0, 1)] = true →
      0 < p.count → p.count = chunksOf p.length → p.length ≤ p.limit → (p.full = true → p.deltaLength = 0 ∧ p.deltaCrc = 0) →
      s.fwPhase = 0 → (s.inRecovery = true → p.full = true) → s.fwu.session = none →
      (p.full = false → p.sourceVersion = s.runningBank.version ∧ p.sourceCrc = s.runningBank.crc) →
      ∃ t : State, exec (.fwuSessionStart c) s = .next (t.fwuComplete c 0x0D02 stOK (s.fwu.nextId % 2 ^ 32) 0) ∧
        t.fwu.session = some ⟨s.fwu.nextId, p, m, s.fget Fld.IGL_ID_CHAIN_ID, [], s.view.sec⟩ ∧ t.fwu.nextId = s.fwu.nextId + 1 ∧
        t.regs = s.regs) ∧
    (let seq := bitsAt c.arg0 0 13
      let crc := bitsAt c.arg1 0 32
      ∀ x got, s.runs 0x0D03 2 2 c [(0, 13), (32, 32)] [(0, 32)] [(32, 0, 64)] = true → s.sessionFor m (bitsAt c.arg0 32 32) = .ok x →
      seq < x.params.count → (x.params.full = true → s.fwPhase = 0) →
      let bytes := got.take 4096 ++ List.replicate (4096 - got.length) 0
      crc32cStd (bytes.map (·.toNat)) = crc → Assoc.find x.chunks seq = none →
      ∃ t : State, exec (.fwuChunk c (.bytes got)) s
          = .next (t.fwuComplete c 0x0D03 stOK (Assoc.insert x.chunks seq (crc, bytes)).length 0) ∧
        ∃ y, t.fwu.session = some y ∧ y.chunks = Assoc.insert x.chunks seq (crc, bytes) ∧ y.params = x.params) ∧
    (∀ x, s.runs 0x0D04 2 2 c [(32, 32)] [] [(32, 0, 64)] = true → s.sessionFor m (bitsAt c.arg0 32 32) = .ok x →
      exec (.fwuBitmap c) s = .next (((s.setSession (some { x with last := s.view.sec })).emit (.hostWrite (c.fld 32 0 64) (bitmapBytes x))).fwuComplete
        c 0x0D04 stOK x.chunks.length 0)) ∧
    (
      let k := s.inactiveBank
      ∀ x, s.runs 0x0D05 1 1 c [(32, 32)] [] [] = true → s.sessionFor m (bitsAt c.arg0 32 32) = .ok x →
      x.params.count ≤ x.chunks.length → s.fwPhase = 0 →
      (∀ bs, s.applied x = .ok bs → exec (.fwuApply c false) s
        = .next ((((s.setFwBank k (imageOf bs)).endSession).setEvent Fld.FWU_EVENT_APPLY_DONE).fwuComplete c 0x0D05 stOK k 0)) ∧
      exec (.fwuApply c true) s = .next ((((s.markBank k bankFailed 10).endSession).setEvent Fld.FWU_EVENT_APPLY_FAIL).fwuComplete c
        0x0D05 stDataError (k + 256 * 10) 0)) ∧
    (∀ x, s.runs 0x0D06 1 1 c [(32, 32)] [] [] = true → s.sessionFor m (bitsAt c.arg0 32 32) = .ok x →
      exec (.fwuSessionAbort c) s = .next ((s.abortSession x).fwuComplete c 0x0D06 stOK 0 0)) ∧
    (let k := bitsAt c.arg0 0 1
      let w := bitsAt c.arg0 16 12
      s.runs 0x0D07 1 1 c [(0, 2), (16, 12)] [] [] = true → (w = 0 ∨ 10 ≤ w ∧ w ≤ 3600) →
      (s.fwBank k).state = bankReady ∨ (s.fwBank k).state = bankPrevious → s.fwPhase = 0 →
      ∃ t : State, ∃ h : Handover, exec (.fwuActivate c) s = .next t ∧ t.fwu.handover = some h ∧ h.target = k ∧ h.hostConfirm = bitAt c.arg0 1 ∧
        h.window = (if w = 0 then s.fget Fld.FWU_CFG_WINDOW_S else w) ∧ h.caller = some (.ring c) ∧ t.fget Fld.FWU_STATUS_PHASE = 1) ∧
    (∀ h, s.runs 0x0D08 1 1 c [] [] [] = true → s.fwu.handover = some h → s.fwPhase = 3 → h.hostConfirm = true →
      exec (.fwuConfirm c) s = .next ((s.tryConfirm { h with hostOk := true }).fwuComplete c 0x0D08 stOK s.trialLeft 0)) ∧
    (∀ bytes, s.runs 0x0D09 1 1 c [] [] [] = true → s.parState m = none → s.runningBank.ucode = some bytes →
      exec (.fwuUcodeStage c) s = .next ((s.parLoad 0 bytes).1.fwuComplete c 0x0D09 (s.parLoad 0 bytes).2.1 (s.parLoad 0 bytes).2.2.1
        (s.parLoad 0 bytes).2.2.2))

/-- The events of an update (20 R570-R577): an idle session ends, a handover commits or fails, the old image stops, the trial confirms itself or
falls back with REASON 7 (window) or 8 (watchdog, fault of the image). Where the spec leaves a choice it states the model's own: log entry 108. -/
def Obligations.UpdateEventsTakeEffect : Prop :=
  ∀ s : State,
    (∀ x, s.fwu.session = some x → exec .sessionIdleExpiry s = .next (s.abortSession x)) ∧
    (∀ h, s.fwu.handover = some h → s.fwPhase = 1 →
      (let s1 := ((s.setFwPhase 2).markBank h.target bankTrial 0).markBank (1 - h.target) bankPrevious 0
        let s2 := { s1 with fwu := { s1.fwu with running := h.target } }
        exec .handoverCommit s = .next ((s2.setFwPhase 3).activateDone { h with switched := s2.nowNs } stOK
          (s2.nowNs % 1000000000 + 2 ^ 32 * (s2.nowNs / 1000000000 % 2 ^ 32)) (s2.nowNs / 1000000000 / 2 ^ 32 % 2 ^ 16))) ∧
      (
        let s1 := (s.markBank h.target bankFailed 6).activateDone h stState 0 0
        exec .handoverFail s
          = .next ((({ s1 with fwu := { s1.fwu with handover := none } }).setEvent Fld.FWU_EVENT_HANDOVER_FAIL).setFwPhase 0))) ∧
    (∀ h, s.fwu.handover = some h → s.fwPhase = 3 →
      (h.oldFollows = true → exec .oldImageStop s = .next (({ s with fwu := { s.fwu with handover := some { h with oldFollows := false } } }).setEvent
        Fld.FWU_EVENT_FALLBACK_LOST)) ∧
      exec .trialSelfConfirm s = .next (s.tryConfirm { h with selfOk := true }) ∧
      (h.oldFollows = true →
        let back := fun reason =>
          let s1 := (s.markBank h.target bankFailed reason).markBank (1 - h.target) bankActive 0
          let s2 := { s1 with fwu := { s1.fwu with handover := none, running := 1 - h.target } }
          (s2.setEvent Fld.FWU_EVENT_FALLBACK).setFwPhase 0
        exec .trialWindowExpiry s = .next (back 7) ∧ exec .trialWatchdogExpiry s = .next (back 8) ∧
          exec .trialImageFault s = .next (back 8)))

/-- Resets, Priming and the start of the endpoint (21 R584-R600, 02 R41, R42). Where the spec leaves a choice it states the model's own: log entries
8, 37, 38, 39 and 40. -/
def Obligations.StartUpEventsTakeEffect : Prop :=
  ∀ s : State,
    (∀ held, 1000 ≤ held → ∃ t : State, exec (.porNAssert held) s = .next t ∧ t.rst.porLow = true ∧ t.off = true ∧ t.outs = s.outs ∧
      t.tab = State.reset.tab ∧ t.tm = State.reset.tm) ∧
    (∀ r : PrimeRun, s.fget Fld.RST_STATUS_PHASE = 1 → s.pwr.collapsed = false → s.pwr.tripped = false → s.rst.jtagHolds = false →
      let s0 := if s.rst.porLow then
          ({ s with rst := { s.rst with porLow := false, strapChain := r.chain % 64, strapHold := r.hold } }).strapRegs else s
      let s1 := ((s0.stepTimes r.ms).lockPll r.noRef).loadConfig r.pfs
      (r.noDirectory = true → exec (.primingStart r) s = .next s1.enterRecovery) ∧
      (∀ s2 k, r.noDirectory = false → s1.fbit Fld.FWU_RECOVERY_ARM = false → s1.bootFrom r.noServices s1.bootOrder = (s2, some k) →
        exec (.primingStart r) s = .next (s2.primeDevice r))) ∧
    (∀ die bad, die ≤ 1 → s.fbit (if die = 0 then Fld.RST_STATUS_DIE_FE_BUSY else Fld.RST_STATUS_DIE_TM_BUSY) = true →
      ∃ t : State, exec (.dieResetDone die bad) s = .next t ∧
        (bad = [] → t.fbit (if die = 0 then Fld.RST_STATUS_DIE_FE_BUSY else Fld.RST_STATUS_DIE_TM_BUSY) = false ∧
          (die = 0 → ∀ k < 4, t.fget (Fld.HBF_STACK_STATUS_STATE k) = 2) ∧ (die = 1 → ∀ k < 6, t.fget (Fld.HBT_STACK_STATUS_STATE k) = 2))) ∧
    (s.off = false → s.rst.released = true → s.fget Fld.RST_STATUS_PHASE = 6 ∨ s.fget Fld.RST_STATUS_PHASE = 7 →
      ∃ t : State, exec .ready s = .next t.bootTrial ∧ t.fget Fld.RST_STATUS_PHASE = 8 ∧ t.fbit Fld.RST_STATUS_READY = true ∧
        t.tim.dom0 = timeZero ∧ t.tim.dom1 = timeZero ∧ t.tab = s.tab) ∧
    (s.off = false →
      (s.isStandby = true ∨ s.err.fatal = .frozen → exec .conventionalPcieReset s = .next s.endpointReset) ∧
      (s.isStandby = false → s.err.fatal ≠ .frozen → s.fbit Fld.RST_CFG_PERST_ACTION = true →
        exec .conventionalPcieReset s = .next (s.endpointReset.askDeviceReset 3 0)) ∧
      (s.isStandby = false → s.err.fatal ≠ .frozen → s.fbit Fld.RST_CFG_PERST_ACTION = false →
        let s1 := s.endpointReset.hostPathReset
        exec .conventionalPcieReset s = .next (if s1.chain.active then s1.chainAll .hostReset else s1))) ∧
    (∀ speed width flit, s.off = false → ∃ t : State, exec (.perstDeassertion speed width flit) s = .next t ∧ t.host.linkDown = false ∧
      t.fget Fld.HIF_LINK_STATUS_DL_UP = 1 ∧ t.fget Fld.HIF_LINK_STATUS_SPEED = speed % 2 ^ Fld.HIF_LINK_STATUS_SPEED.w ∧ t.err = s.err) ∧
    (s.off = false → s.host.linkDown = false → exec .pcieConfigRequest s = .next (s.emit (.configAnswer (!s.host.configLoaded)))) ∧
    (s.off = false →
      (exec (.refClockLoss 0) s = exec .conventionalPcieReset s) ∧
      (∀ clock, 1 ≤ clock → clock ≤ 4 →
        let squelch := fun (t : State) n =>
          if t.fget (Fld.TIM_SYNCE_CFG_LANE n) / 32 = clock - 1 then nextOf t (exec (.synceSquelch n) t) else t
        exec (.refClockLoss clock) s
          = .next ([0, 1].foldl squelch (((List.range 32).map fun i => 32 * (clock - 1) + i).foldl State.loseLock s))) ∧
      (exec (.refClockLoss 7) s
        = exec (.chainLinkDown false false []) (nextOf s (exec (.chainLinkDown true false []) s))) ∧
      (∀ clock, clock = 5 ∨ clock = 6 → exec (.refClockLoss clock) s
        = .next (((List.range 80).map fun i => 80 * (clock - 5) + i).foldl (fun (t : State) l => if 2 ≤ t.fabState l then t.fabMove l 1 else t) s)) ∧
      (s.fbit Fld.TIM_STATUS_REF_PRESENT = true → exec (.refClockLoss 8) s
        = .next (((s.fset Fld.TIM_STATUS_REF_PRESENT 0).fset Fld.TIM_STATUS_PLL_LOCK 0).setEvent Fld.TIM_EVENT_REF_LOSS)))

/-- The chain (02 R44, R47-R57, R87, R88): frames are acknowledged and taken or passed on, links fall and rise, reads of absent devices complete
with all ones, takeover and release, and a register write through the window. Where the spec leaves a choice it states the model's own: log entries
27, 28, 29 and 31. -/
def Obligations.ChainEventsTakeEffect : Prop :=
  ∀ s : State, s.off = false → s.err.fatal ≠ .frozen →
    (∀ east f src dst seq, s.chainRuns = true → s.fbit (upFld east) = true → f.msg = .ack src dst seq →
      ∃ t : State, exec (.chainFrameReceive east f) s = .next t ∧ t.regs = s.regs ∧ t.outs = s.outs ∧
        ∀ x, x ∈ t.chain.unacked ↔ x ∈ s.chain.unacked ∧ ¬ (x.2.src = src ∧ x.2.dst = dst ∧ x.2.seq = seq)) ∧
    (∀ east f, s.chainRuns = true → s.fbit (upFld east) = true → (∀ src dst seq, f.msg ≠ .ack src dst seq) →
      let s1 := s.emit (.chainFrame east { src := s.ownId, dst := f.src, seq := 0, msg := .ack f.src f.dst f.seq })
      (f.dst = s.ownId → s.fbit Fld.IGL_STATUS_DUP_ID = false → exec (.chainFrameReceive east f) s = .next (s1.chainTake f)) ∧
      (f.dst ≠ s.ownId → exec (.chainFrameReceive east f) s = .next (s1.chainPut (if s.fbit (upFld !east) then !east else east) f))) ∧
    (∀ east closed found, s.chainRuns = true → s.fbit (upFld east) = true →
      let s1 := ((s.fset (upFld east) 0).satAdd Fld.IGL_BREAK_CNT_COUNT 1).raiseError 0x0402 (b2n (!east))
      exec (.chainLinkDown east closed found) s = .next ((s1.discover.discovered closed found).reroute east)) ∧
    (∀ east closed found, s.chainRuns = true → s.fbit (upFld east) = false →
      s.fbit (if east then Fld.IGL_CTRL_EAST_EN else Fld.IGL_CTRL_WEST_EN) = true →
      exec (.chainLinkUp east closed found) s = .next ((s.fset (upFld east) 1).discover.discovered closed found)) ∧
    (∀ dev, s.chain.active = true → s.present dev = false → exec (.chainReadTimeout dev) s
      = .next ((s.satAdd Fld.IGL_LOST_CNT_COUNT 1).emit (.readData [0xFF, 0xFF, 0xFF, 0xFF]))) ∧
    (s.chain.cutOff = true → (∀ ch < 8, Assoc.get s.dma.chans [] ch = []) → exec .chainLost s = .next (s.ceHalt 0 9 0)) ∧
    (∀ m v, s.writeTakes m Reg.IGL_TAKEOVER (withBits v 0 1 1) = true →
      (s.isStandby = true → s.takeoverDue = true → ∃ t : State, exec (.iglTakeover m v) s = .next (t.chainAll .takeover) ∧ t.chain.active = true ∧
        t.fget Fld.IGL_STATUS_WELLHEAD_ID = s.ownId ∧ t.chain.hostIsStandby = true) ∧
      (s.isStandby = false ∨ s.takeoverDue = false →
        exec (.iglTakeover m v) s = .next (s.satAdd (Fld.GLB_OWN_REJECT_CNT 4) 1))) ∧
    (∀ m v, s.writeTakes m Reg.IGL_RELEASE (withBits v 0 1 1) = true → s.chain.active = true →
      exec (.iglRelease m v) s = .next (({ s with chain := { s.chain with released := true } }).chainAll .released)) ∧
    (∀ m off len v, exec (.registerWrite m none off len v) s = .next (s.regWrite m off len v false)) ∧
    (∀ m n off len v, s.isStandby = false → n ≠ s.ownId → s.chain.active = true → exec (.registerWrite m (some n) off len v) s
      = .next (if s.present n then s.chainSend n (.write m off len v) else s.satAdd Fld.IGL_LOST_CNT_COUNT 1))

/-- The test access port and I3C (23 R617-R624): instructions load and shift, the boundary takes the balls only while POR_N is low, registers are
reached, and the I3C target takes its address and answers. Where the spec leaves a choice it states the model's own: log entries 109 and 110. -/
def Obligations.SidebandTakesEffect : Prop :=
  ∀ s : State, s.pwr.collapsed = false →
    (exec .jtagIdcode s = .next ((s.jtagLoad .idcode false).emit (.tdo 32 0x19640B55))) ∧
    (∀ n tdi, exec (.jtagBypass n tdi) s = .next ((s.jtagLoad .bypass false).emit (.tdo n (2 * tdi % 2 ^ n)))) ∧
    (exec .jtagSamplePreload s = .next (s.jtagLoad .samplePreload false)) ∧
    (∀ n tdi, s.rst.porLow = true → exec (.jtagExtest n tdi) s = .next (s.jtagLoad .extest true) ∧
      exec (.jtagExtestPulse n tdi) s = .next (s.jtagLoad .extestPulse true) ∧ exec (.jtagExtestTrain n tdi) s = .next (s.jtagLoad .extestTrain true) ∧
      exec (.jtagClamp n tdi) s = .next (s.jtagLoad .clamp true) ∧ exec (.jtagHighz n tdi) s = .next (s.jtagLoad .highz true)) ∧
    (∀ n tdi, s.rst.porLow = false → ∃ t : State, exec (.jtagExtest n tdi) s = .next t ∧ t.rst.jtagHolds = false ∧
      t.outs = s.outs ++ [.tdo n (2 * tdi % 2 ^ n)]) ∧
    (∀ off v, s.rst.porLow = false → off % 4 = 0 →
      exec (.jtagRegAccess true off v) s = .next (((s.jtagLoad .regAccess false).writeReg 0xB off (v % 2 ^ 32) false).1) ∧
      exec (.jtagRegAccess false off v) s
        = .next ((s.jtagLoad .regAccess false).emit (.readData (leBytes 4 ((s.jtagLoad .regAccess false).readBy none off))))) ∧
    (exec .jtagTapReset s = .next (s.jtagLoad .idcode false)) ∧
    (∀ addr, s.rst.porLow = false → s.rst.i3cAddr = none → ∃ t : State, exec (.i3cEntdaa addr) s = .next t ∧ t.rst.i3cAddr = some addr ∧
      t.outs = s.outs ++ [.i3cId s.i3cPid] ∧ t.regs = s.regs) ∧
    (∀ bytes : List Byte, s.rst.porLow = false → s.rst.i3cAddr.isSome = true → bytes.length = 4 →
      ∃ t : State, exec (.i3cPointerWrite bytes) s = .next t ∧ t.rst.i3cPtr = leAt bytes 0 4 % 2 ^ 32 ∧ t.regs = s.regs ∧ t.outs = s.outs) ∧
    (∀ bytes : List Byte, s.rst.porLow = false → s.rst.i3cAddr.isSome = true → bytes.length = 8 → leAt bytes 0 4 % 4 = 0 →
      ∃ t : State, exec (.i3cRegisterWrite bytes) s = .next t ∧ t.regs = (s.writeReg 0xA (leAt bytes 0 4) (leAt bytes 4 4 % 2 ^ 32) false).1.regs ∧
        t.rst.i3cPtr = (leAt bytes 0 4 + 4) % 2 ^ 32) ∧
    (∀ n, s.rst.porLow = false → s.rst.i3cAddr.isSome = true → n % 4 = 0 →
      ∃ t : State, exec (.i3cRead n) s = .next t ∧ t.rst.i3cPtr = (s.rst.i3cPtr + n) % 2 ^ 32 ∧ t.regs = s.regs ∧ t.outs = s.outs ++
        [.readData ((List.range (n / 4)).flatMap fun i => leBytes 4 (s.readBy none ((s.rst.i3cPtr + 4 * i) % 2 ^ 32)))])
end

