-- ==== Sys2Proof/Laws/Assoc.lean ====
section
/-! SUPPORT. Laws of the sparse tables and of host-path memory: what a write leaves to be read, and that every operation keeps the
canonical form. -/

namespace Sys2Proof.Machine

open Sys2Proof

variable {α : Type}

theorem Assoc.find_append (a b : Assoc α) (j : Nat) : Assoc.find (a ++ b) j = (Assoc.find a j).or (Assoc.find b j) := by
  induction a with
  | nil => simp [Assoc.find]
  | cons x xs ih => obtain ⟨k, v⟩ := x; simp only [List.cons_append, Assoc.find]; split <;> simp_all

theorem Assoc.find_filter (m : Assoc α) (p : Nat → Bool) (j : Nat) :
    Assoc.find (m.filter fun kv => p kv.1) j = if p j then Assoc.find m j else none := by
  induction m with
  | nil => simp [Assoc.find]
  | cons x xs ih =>
    obtain ⟨k, v⟩ := x
    by_cases hk : k = j
    · subst hk; by_cases hp : p k <;> simp [hp, Assoc.find, ih]
    · by_cases hp : p k <;> simp [hp, Assoc.find, hk, ih]

@[simp] theorem Assoc.find_erase (m : Assoc α) (i j : Nat) : Assoc.find (Assoc.erase m i) j = if j = i then none else Assoc.find m j := by
  have h := Assoc.find_filter m (fun k => k != i) j
  unfold Assoc.erase; rw [h]; by_cases hj : j = i <;> simp [hj]

@[simp] theorem Assoc.find_insert (m : Assoc α) (i j : Nat) (v : α) :
    Assoc.find (Assoc.insert m i v) j = if j = i then some v else Assoc.find m j := by
  have h1 := Assoc.find_filter m (fun k => decide (k < i)) j
  have h2 := Assoc.find_filter m (fun k => decide (i < k)) j
  unfold Assoc.insert
  rw [Assoc.find_append, h1]
  simp only [Assoc.find, h2]
  by_cases hj : j = i
  · subst hj; simp
  · rcases Nat.lt_or_gt_of_ne hj with h | h <;> simp [h, hj, Ne.symm hj, Nat.lt_asymm h]

/-- What a table reads after a write. -/
theorem Assoc.get_put [DecidableEq α] (m : Assoc α) (d : α) (i j : Nat) (v : α) :
    Assoc.get (Assoc.put m d i v) d j = if j = i then v else Assoc.get m d j := by
  unfold Assoc.get Assoc.put
  by_cases hv : v = d <;> by_cases hj : j = i <;> simp [hv, hj]

@[simp] theorem Assoc.get_put_same [DecidableEq α] (m : Assoc α) (d : α) (i : Nat) (v : α) :
    Assoc.get (Assoc.put m d i v) d i = v := by simp [Assoc.get_put]

theorem Assoc.get_put_other [DecidableEq α] (m : Assoc α) (d : α) {i j : Nat} (h : j ≠ i) (v : α) :
    Assoc.get (Assoc.put m d i v) d j = Assoc.get m d j := by simp [Assoc.get_put, h]

/-! ### The canonical form -/

section Canonical

variable [DecidableEq α] {d : Nat → α}

theorem Assoc.wf_cons {k : Nat} {v : α} {m : Assoc α} :
    Assoc.wf d ((k, v) :: m) = true ↔ v ≠ d k ∧ (∀ x ∈ m, k < x.1) ∧ Assoc.wf d m = true := by
  simp [Assoc.wf, and_assoc]

theorem Assoc.wf_mem {m : Assoc α} (h : Assoc.wf d m = true) {x : Nat × α} (hx : x ∈ m) : x.2 ≠ d x.1 := by
  induction m with
  | nil => exact absurd hx List.not_mem_nil
  | cons y ys ih =>
    obtain ⟨k, v⟩ := y
    obtain ⟨h1, -, h3⟩ := Assoc.wf_cons.1 h
    rcases List.mem_cons.1 hx with rfl | hx
    · exact h1
    · exact ih h3 hx

theorem Assoc.wf_filter {m : Assoc α} (p : Nat × α → Bool) (h : Assoc.wf d m = true) : Assoc.wf d (m.filter p) = true := by
  induction m with
  | nil => simpa using h
  | cons x xs ih =>
    obtain ⟨k, v⟩ := x
    obtain ⟨h1, h2, h3⟩ := Assoc.wf_cons.1 h
    by_cases hp : p (k, v)
    · rw [List.filter_cons_of_pos hp]
      exact Assoc.wf_cons.2 ⟨h1, fun x hx => h2 x (List.mem_filter.1 hx).1, ih h3⟩
    · rw [List.filter_cons_of_neg hp]; exact ih h3

theorem Assoc.wf_append {a b : Assoc α} (ha : Assoc.wf d a = true) (hb : Assoc.wf d b = true)
    (hab : ∀ x ∈ a, ∀ y ∈ b, x.1 < y.1) : Assoc.wf d (a ++ b) = true := by
  induction a with
  | nil => simpa using hb
  | cons x xs ih =>
    obtain ⟨k, v⟩ := x
    obtain ⟨h1, h2, h3⟩ := Assoc.wf_cons.1 ha
    refine Assoc.wf_cons.2 ⟨h1, ?_, ih h3 fun x hx y hy => hab x (List.mem_cons_of_mem _ hx) y hy⟩
    intro x hx
    rcases List.mem_append.1 hx with hx | hx
    · exact h2 x hx
    · exact hab (k, v) List.mem_cons_self x hx

theorem Assoc.wf_insert {m : Assoc α} {i : Nat} {v : α} (h : Assoc.wf d m = true) (hv : v ≠ d i) :
    Assoc.wf d (Assoc.insert m i v) = true := by
  unfold Assoc.insert
  refine Assoc.wf_append (Assoc.wf_filter _ h) (Assoc.wf_cons.2 ⟨hv, ?_, Assoc.wf_filter _ h⟩) ?_
  · intro x hx; simpa using (List.mem_filter.1 hx).2
  · intro x hx y hy
    have hx' := of_decide_eq_true (List.mem_filter.1 hx).2
    rcases List.mem_cons.1 hy with rfl | hy
    · exact hx'
    · exact Nat.lt_trans hx' (of_decide_eq_true (List.mem_filter.1 hy).2)

theorem Assoc.wf_put {m : Assoc α} {i : Nat} (v : α) (h : Assoc.wf d m = true) : Assoc.wf d (Assoc.put m (d i) i v) = true := by
  unfold Assoc.put
  split
  · exact Assoc.wf_filter _ h
  · exact Assoc.wf_insert h ‹_›

/-- Keeping some entries, each with its key, keeps the form when no kept value is its key's default. -/
theorem Assoc.wf_filterMap {m : Assoc α} {f : Nat × α → Option (Nat × α)} (hk : ∀ x y, f x = some y → y.1 = x.1)
    (hd : ∀ x ∈ m, ∀ y, f x = some y → y.2 ≠ d y.1) (h : Assoc.wf d m = true) : Assoc.wf d (m.filterMap f) = true := by
  induction m with
  | nil => simpa using h
  | cons x xs ih =>
    obtain ⟨k, v⟩ := x
    obtain ⟨-, h2, h3⟩ := Assoc.wf_cons.1 h
    have ih' := ih (fun x hx => hd x (List.mem_cons_of_mem _ hx)) h3
    cases hf : f (k, v) with
    | none => simpa [List.filterMap_cons, hf] using ih'
    | some y =>
      obtain ⟨k', v'⟩ := y
      have hk' : k' = k := hk _ _ hf
      rw [List.filterMap_cons_some hf]
      refine Assoc.wf_cons.2 ⟨hd _ List.mem_cons_self _ hf, ?_, ih'⟩
      intro z hz
      obtain ⟨w, hw, hwz⟩ := List.mem_filterMap.1 hz
      rw [hk _ _ hwz, hk']
      exact h2 w hw

end Canonical

/-! ### Host-path memory -/

/-- A byte read after a write of one byte. -/
@[simp] theorem Memory.read_write (m : List Host.Cell) (a b : Nat) (v : Byte) :
    Memory.read (Memory.write m a v) b = if b = a then v else Memory.read m b := Assoc.get_put m 0 a b v

/-- A byte read after a write of several: inside it the byte written, outside it what it was. -/
theorem Memory.read_writeBytes (bs : List Byte) (m : List Host.Cell) (a b : Nat) :
    Memory.read (Memory.writeBytes m a bs) b = if a ≤ b ∧ b < a + bs.length then bs.getD (b - a) 0 else Memory.read m b := by
  induction bs generalizing m a with
  | nil => rw [if_neg (by simp)]; rfl
  | cons x xs ih =>
    rw [Memory.writeBytes, ih]
    by_cases h : b = a
    · subst h
      rw [if_neg (by omega), if_pos (by simp)]; simp
    · rw [Memory.read_write, if_neg h]
      by_cases h1 : a + 1 ≤ b ∧ b < a + 1 + xs.length
      · rw [if_pos h1, if_pos (by simp; omega)]
        obtain ⟨n, rfl⟩ : ∃ n, b = a + 1 + n := ⟨b - (a + 1), by omega⟩
        rw [show a + 1 + n - (a + 1) = n by omega, show a + 1 + n - a = n + 1 by omega]
        rfl
      · rw [if_neg h1, if_neg (by simp; omega)]

theorem Memory.wf_nil : Memory.wf [] = true := rfl

theorem Memory.wf_write {m : List Host.Cell} (a : Nat) (v : Byte) (h : Memory.wf m = true) : Memory.wf (Memory.write m a v) = true :=
  Assoc.wf_put (d := fun _ => (0 : Byte)) v h

theorem Memory.wf_writeBytes (bs : List Byte) (m : List Host.Cell) (a : Nat) (h : Memory.wf m = true) :
    Memory.wf (Memory.writeBytes m a bs) = true := by
  induction bs generalizing m a with
  | nil => exact h
  | cons x xs ih => exact ih _ _ (Memory.wf_write a x h)

/-- The free list of a pool is written in the canonical form. -/
theorem Memory.wf_threadList (n a size : Nat) (m : List Host.Cell) (h : Memory.wf m = true) :
    Memory.wf (threadList n a size m) = true := by
  induction n generalizing a m with
  | zero => exact h
  | succ n ih => exact ih _ _ (Memory.wf_writeBytes _ _ _ h)

end Sys2Proof.Machine
end

