-- ==== Sys2Proof/Laws/State.lean ====
section
/-! SUPPORT. Laws of the state's plain updates: what each leaves in every field, and what registers and fields read after a write. -/

namespace Sys2Proof.Machine

open Sys2Proof

variable (s : State)

/-! ### setReg -/

@[simp] theorem State.setReg_outs (off : Nat) (v : Word) : (s.setReg off v).outs = s.outs := rfl
@[simp] theorem State.setReg_ce (off : Nat) (v : Word) : (s.setReg off v).ce = s.ce := rfl
@[simp] theorem State.setReg_host (off : Nat) (v : Word) : (s.setReg off v).host = s.host := rfl
@[simp] theorem State.setReg_dma (off : Nat) (v : Word) : (s.setReg off v).dma = s.dma := rfl
@[simp] theorem State.setReg_chain (off : Nat) (v : Word) : (s.setReg off v).chain = s.chain := rfl
@[simp] theorem State.setReg_err (off : Nat) (v : Word) : (s.setReg off v).err = s.err := rfl
@[simp] theorem State.setReg_tim (off : Nat) (v : Word) : (s.setReg off v).tim = s.tim := rfl
@[simp] theorem State.setReg_pwr (off : Nat) (v : Word) : (s.setReg off v).pwr = s.pwr := rfl
@[simp] theorem State.setReg_rst (off : Nat) (v : Word) : (s.setReg off v).rst = s.rst := rfl
@[simp] theorem State.setReg_pmcs (off : Nat) (v : Word) : (s.setReg off v).pmcs = s.pmcs := rfl
@[simp] theorem State.setReg_hbm (off : Nat) (v : Word) : (s.setReg off v).hbm = s.hbm := rfl
@[simp] theorem State.setReg_fwu (off : Nat) (v : Word) : (s.setReg off v).fwu = s.fwu := rfl
@[simp] theorem State.setReg_gen (off : Nat) (v : Word) : (s.setReg off v).gen = s.gen := rfl
@[simp] theorem State.setReg_par (off : Nat) (v : Word) : (s.setReg off v).par = s.par := rfl
@[simp] theorem State.setReg_tab (off : Nat) (v : Word) : (s.setReg off v).tab = s.tab := rfl
@[simp] theorem State.setReg_tm (off : Nat) (v : Word) : (s.setReg off v).tm = s.tm := rfl
@[simp] theorem State.setReg_ports (off : Nat) (v : Word) : (s.setReg off v).ports = s.ports := rfl
@[simp] theorem State.setReg_path (off : Nat) (v : Word) : (s.setReg off v).path = s.path := rfl
@[simp] theorem State.setReg_freeSeq (off : Nat) (v : Word) : (s.setReg off v).freeSeq = s.freeSeq := rfl
@[simp] theorem State.setReg_pending (off : Nat) (v : Word) : (s.setReg off v).pending = s.pending := rfl

/-! ### fset -/

@[simp] theorem State.fset_outs (f : Fld) (v : Nat) : (s.fset f v).outs = s.outs := by simp [State.fset]
@[simp] theorem State.fset_ce (f : Fld) (v : Nat) : (s.fset f v).ce = s.ce := by simp [State.fset]
@[simp] theorem State.fset_host (f : Fld) (v : Nat) : (s.fset f v).host = s.host := by simp [State.fset]
@[simp] theorem State.fset_dma (f : Fld) (v : Nat) : (s.fset f v).dma = s.dma := by simp [State.fset]
@[simp] theorem State.fset_chain (f : Fld) (v : Nat) : (s.fset f v).chain = s.chain := by simp [State.fset]
@[simp] theorem State.fset_err (f : Fld) (v : Nat) : (s.fset f v).err = s.err := by simp [State.fset]
@[simp] theorem State.fset_tim (f : Fld) (v : Nat) : (s.fset f v).tim = s.tim := by simp [State.fset]
@[simp] theorem State.fset_pwr (f : Fld) (v : Nat) : (s.fset f v).pwr = s.pwr := by simp [State.fset]
@[simp] theorem State.fset_rst (f : Fld) (v : Nat) : (s.fset f v).rst = s.rst := by simp [State.fset]
@[simp] theorem State.fset_pmcs (f : Fld) (v : Nat) : (s.fset f v).pmcs = s.pmcs := by simp [State.fset]
@[simp] theorem State.fset_hbm (f : Fld) (v : Nat) : (s.fset f v).hbm = s.hbm := by simp [State.fset]
@[simp] theorem State.fset_fwu (f : Fld) (v : Nat) : (s.fset f v).fwu = s.fwu := by simp [State.fset]
@[simp] theorem State.fset_gen (f : Fld) (v : Nat) : (s.fset f v).gen = s.gen := by simp [State.fset]
@[simp] theorem State.fset_par (f : Fld) (v : Nat) : (s.fset f v).par = s.par := by simp [State.fset]
@[simp] theorem State.fset_tab (f : Fld) (v : Nat) : (s.fset f v).tab = s.tab := by simp [State.fset]
@[simp] theorem State.fset_tm (f : Fld) (v : Nat) : (s.fset f v).tm = s.tm := by simp [State.fset]
@[simp] theorem State.fset_ports (f : Fld) (v : Nat) : (s.fset f v).ports = s.ports := by simp [State.fset]
@[simp] theorem State.fset_path (f : Fld) (v : Nat) : (s.fset f v).path = s.path := by simp [State.fset]
@[simp] theorem State.fset_freeSeq (f : Fld) (v : Nat) : (s.fset f v).freeSeq = s.freeSeq := by simp [State.fset]
@[simp] theorem State.fset_pending (f : Fld) (v : Nat) : (s.fset f v).pending = s.pending := by simp [State.fset]

/-! ### satAdd -/

@[simp] theorem State.satAdd_outs (f : Fld) (n : Nat) : (s.satAdd f n).outs = s.outs := by simp [State.satAdd]
@[simp] theorem State.satAdd_ce (f : Fld) (n : Nat) : (s.satAdd f n).ce = s.ce := by simp [State.satAdd]
@[simp] theorem State.satAdd_host (f : Fld) (n : Nat) : (s.satAdd f n).host = s.host := by simp [State.satAdd]
@[simp] theorem State.satAdd_dma (f : Fld) (n : Nat) : (s.satAdd f n).dma = s.dma := by simp [State.satAdd]
@[simp] theorem State.satAdd_chain (f : Fld) (n : Nat) : (s.satAdd f n).chain = s.chain := by simp [State.satAdd]
@[simp] theorem State.satAdd_err (f : Fld) (n : Nat) : (s.satAdd f n).err = s.err := by simp [State.satAdd]
@[simp] theorem State.satAdd_tim (f : Fld) (n : Nat) : (s.satAdd f n).tim = s.tim := by simp [State.satAdd]
@[simp] theorem State.satAdd_pwr (f : Fld) (n : Nat) : (s.satAdd f n).pwr = s.pwr := by simp [State.satAdd]
@[simp] theorem State.satAdd_rst (f : Fld) (n : Nat) : (s.satAdd f n).rst = s.rst := by simp [State.satAdd]
@[simp] theorem State.satAdd_pmcs (f : Fld) (n : Nat) : (s.satAdd f n).pmcs = s.pmcs := by simp [State.satAdd]
@[simp] theorem State.satAdd_hbm (f : Fld) (n : Nat) : (s.satAdd f n).hbm = s.hbm := by simp [State.satAdd]
@[simp] theorem State.satAdd_fwu (f : Fld) (n : Nat) : (s.satAdd f n).fwu = s.fwu := by simp [State.satAdd]
@[simp] theorem State.satAdd_gen (f : Fld) (n : Nat) : (s.satAdd f n).gen = s.gen := by simp [State.satAdd]
@[simp] theorem State.satAdd_par (f : Fld) (n : Nat) : (s.satAdd f n).par = s.par := by simp [State.satAdd]
@[simp] theorem State.satAdd_tab (f : Fld) (n : Nat) : (s.satAdd f n).tab = s.tab := by simp [State.satAdd]
@[simp] theorem State.satAdd_tm (f : Fld) (n : Nat) : (s.satAdd f n).tm = s.tm := by simp [State.satAdd]
@[simp] theorem State.satAdd_ports (f : Fld) (n : Nat) : (s.satAdd f n).ports = s.ports := by simp [State.satAdd]
@[simp] theorem State.satAdd_path (f : Fld) (n : Nat) : (s.satAdd f n).path = s.path := by simp [State.satAdd]
@[simp] theorem State.satAdd_freeSeq (f : Fld) (n : Nat) : (s.satAdd f n).freeSeq = s.freeSeq := by simp [State.satAdd]
@[simp] theorem State.satAdd_pending (f : Fld) (n : Nat) : (s.satAdd f n).pending = s.pending := by simp [State.satAdd]

/-! ### wrapAdd -/

@[simp] theorem State.wrapAdd_outs (f : Fld) (n : Nat) : (s.wrapAdd f n).outs = s.outs := by simp [State.wrapAdd]
@[simp] theorem State.wrapAdd_ce (f : Fld) (n : Nat) : (s.wrapAdd f n).ce = s.ce := by simp [State.wrapAdd]
@[simp] theorem State.wrapAdd_host (f : Fld) (n : Nat) : (s.wrapAdd f n).host = s.host := by simp [State.wrapAdd]
@[simp] theorem State.wrapAdd_dma (f : Fld) (n : Nat) : (s.wrapAdd f n).dma = s.dma := by simp [State.wrapAdd]
@[simp] theorem State.wrapAdd_chain (f : Fld) (n : Nat) : (s.wrapAdd f n).chain = s.chain := by simp [State.wrapAdd]
@[simp] theorem State.wrapAdd_err (f : Fld) (n : Nat) : (s.wrapAdd f n).err = s.err := by simp [State.wrapAdd]
@[simp] theorem State.wrapAdd_tim (f : Fld) (n : Nat) : (s.wrapAdd f n).tim = s.tim := by simp [State.wrapAdd]
@[simp] theorem State.wrapAdd_pwr (f : Fld) (n : Nat) : (s.wrapAdd f n).pwr = s.pwr := by simp [State.wrapAdd]
@[simp] theorem State.wrapAdd_rst (f : Fld) (n : Nat) : (s.wrapAdd f n).rst = s.rst := by simp [State.wrapAdd]
@[simp] theorem State.wrapAdd_pmcs (f : Fld) (n : Nat) : (s.wrapAdd f n).pmcs = s.pmcs := by simp [State.wrapAdd]
@[simp] theorem State.wrapAdd_hbm (f : Fld) (n : Nat) : (s.wrapAdd f n).hbm = s.hbm := by simp [State.wrapAdd]
@[simp] theorem State.wrapAdd_fwu (f : Fld) (n : Nat) : (s.wrapAdd f n).fwu = s.fwu := by simp [State.wrapAdd]
@[simp] theorem State.wrapAdd_gen (f : Fld) (n : Nat) : (s.wrapAdd f n).gen = s.gen := by simp [State.wrapAdd]
@[simp] theorem State.wrapAdd_par (f : Fld) (n : Nat) : (s.wrapAdd f n).par = s.par := by simp [State.wrapAdd]
@[simp] theorem State.wrapAdd_tab (f : Fld) (n : Nat) : (s.wrapAdd f n).tab = s.tab := by simp [State.wrapAdd]
@[simp] theorem State.wrapAdd_tm (f : Fld) (n : Nat) : (s.wrapAdd f n).tm = s.tm := by simp [State.wrapAdd]
@[simp] theorem State.wrapAdd_ports (f : Fld) (n : Nat) : (s.wrapAdd f n).ports = s.ports := by simp [State.wrapAdd]
@[simp] theorem State.wrapAdd_path (f : Fld) (n : Nat) : (s.wrapAdd f n).path = s.path := by simp [State.wrapAdd]
@[simp] theorem State.wrapAdd_freeSeq (f : Fld) (n : Nat) : (s.wrapAdd f n).freeSeq = s.freeSeq := by simp [State.wrapAdd]
@[simp] theorem State.wrapAdd_pending (f : Fld) (n : Nat) : (s.wrapAdd f n).pending = s.pending := by simp [State.wrapAdd]

/-! ### setInstant -/

@[simp] theorem State.setInstant_outs (ns lo hi : Fld) (n : Nat) : (s.setInstant ns lo hi n).outs = s.outs := by simp [State.setInstant]
@[simp] theorem State.setInstant_ce (ns lo hi : Fld) (n : Nat) : (s.setInstant ns lo hi n).ce = s.ce := by simp [State.setInstant]
@[simp] theorem State.setInstant_host (ns lo hi : Fld) (n : Nat) : (s.setInstant ns lo hi n).host = s.host := by simp [State.setInstant]
@[simp] theorem State.setInstant_dma (ns lo hi : Fld) (n : Nat) : (s.setInstant ns lo hi n).dma = s.dma := by simp [State.setInstant]
@[simp] theorem State.setInstant_chain (ns lo hi : Fld) (n : Nat) : (s.setInstant ns lo hi n).chain = s.chain := by simp [State.setInstant]
@[simp] theorem State.setInstant_err (ns lo hi : Fld) (n : Nat) : (s.setInstant ns lo hi n).err = s.err := by simp [State.setInstant]
@[simp] theorem State.setInstant_tim (ns lo hi : Fld) (n : Nat) : (s.setInstant ns lo hi n).tim = s.tim := by simp [State.setInstant]
@[simp] theorem State.setInstant_pwr (ns lo hi : Fld) (n : Nat) : (s.setInstant ns lo hi n).pwr = s.pwr := by simp [State.setInstant]
@[simp] theorem State.setInstant_rst (ns lo hi : Fld) (n : Nat) : (s.setInstant ns lo hi n).rst = s.rst := by simp [State.setInstant]
@[simp] theorem State.setInstant_pmcs (ns lo hi : Fld) (n : Nat) : (s.setInstant ns lo hi n).pmcs = s.pmcs := by simp [State.setInstant]
@[simp] theorem State.setInstant_hbm (ns lo hi : Fld) (n : Nat) : (s.setInstant ns lo hi n).hbm = s.hbm := by simp [State.setInstant]
@[simp] theorem State.setInstant_fwu (ns lo hi : Fld) (n : Nat) : (s.setInstant ns lo hi n).fwu = s.fwu := by simp [State.setInstant]
@[simp] theorem State.setInstant_gen (ns lo hi : Fld) (n : Nat) : (s.setInstant ns lo hi n).gen = s.gen := by simp [State.setInstant]
@[simp] theorem State.setInstant_par (ns lo hi : Fld) (n : Nat) : (s.setInstant ns lo hi n).par = s.par := by simp [State.setInstant]
@[simp] theorem State.setInstant_tab (ns lo hi : Fld) (n : Nat) : (s.setInstant ns lo hi n).tab = s.tab := by simp [State.setInstant]
@[simp] theorem State.setInstant_tm (ns lo hi : Fld) (n : Nat) : (s.setInstant ns lo hi n).tm = s.tm := by simp [State.setInstant]
@[simp] theorem State.setInstant_ports (ns lo hi : Fld) (n : Nat) : (s.setInstant ns lo hi n).ports = s.ports := by simp [State.setInstant]
@[simp] theorem State.setInstant_path (ns lo hi : Fld) (n : Nat) : (s.setInstant ns lo hi n).path = s.path := by simp [State.setInstant]
@[simp] theorem State.setInstant_freeSeq (ns lo hi : Fld) (n : Nat) : (s.setInstant ns lo hi n).freeSeq = s.freeSeq := by simp [State.setInstant]
@[simp] theorem State.setInstant_pending (ns lo hi : Fld) (n : Nat) : (s.setInstant ns lo hi n).pending = s.pending := by simp [State.setInstant]

/-! ### resetRegs -/

@[simp] theorem State.resetRegs_outs (which : Nat → Bool) (keep : Acc → Bool) : (s.resetRegs which keep).outs = s.outs := rfl
@[simp] theorem State.resetRegs_ce (which : Nat → Bool) (keep : Acc → Bool) : (s.resetRegs which keep).ce = s.ce := rfl
@[simp] theorem State.resetRegs_host (which : Nat → Bool) (keep : Acc → Bool) : (s.resetRegs which keep).host = s.host := rfl
@[simp] theorem State.resetRegs_dma (which : Nat → Bool) (keep : Acc → Bool) : (s.resetRegs which keep).dma = s.dma := rfl
@[simp] theorem State.resetRegs_chain (which : Nat → Bool) (keep : Acc → Bool) : (s.resetRegs which keep).chain = s.chain := rfl
@[simp] theorem State.resetRegs_err (which : Nat → Bool) (keep : Acc → Bool) : (s.resetRegs which keep).err = s.err := rfl
@[simp] theorem State.resetRegs_tim (which : Nat → Bool) (keep : Acc → Bool) : (s.resetRegs which keep).tim = s.tim := rfl
@[simp] theorem State.resetRegs_pwr (which : Nat → Bool) (keep : Acc → Bool) : (s.resetRegs which keep).pwr = s.pwr := rfl
@[simp] theorem State.resetRegs_rst (which : Nat → Bool) (keep : Acc → Bool) : (s.resetRegs which keep).rst = s.rst := rfl
@[simp] theorem State.resetRegs_pmcs (which : Nat → Bool) (keep : Acc → Bool) : (s.resetRegs which keep).pmcs = s.pmcs := rfl
@[simp] theorem State.resetRegs_hbm (which : Nat → Bool) (keep : Acc → Bool) : (s.resetRegs which keep).hbm = s.hbm := rfl
@[simp] theorem State.resetRegs_fwu (which : Nat → Bool) (keep : Acc → Bool) : (s.resetRegs which keep).fwu = s.fwu := rfl
@[simp] theorem State.resetRegs_gen (which : Nat → Bool) (keep : Acc → Bool) : (s.resetRegs which keep).gen = s.gen := rfl
@[simp] theorem State.resetRegs_par (which : Nat → Bool) (keep : Acc → Bool) : (s.resetRegs which keep).par = s.par := rfl
@[simp] theorem State.resetRegs_tab (which : Nat → Bool) (keep : Acc → Bool) : (s.resetRegs which keep).tab = s.tab := rfl
@[simp] theorem State.resetRegs_tm (which : Nat → Bool) (keep : Acc → Bool) : (s.resetRegs which keep).tm = s.tm := rfl
@[simp] theorem State.resetRegs_ports (which : Nat → Bool) (keep : Acc → Bool) : (s.resetRegs which keep).ports = s.ports := rfl
@[simp] theorem State.resetRegs_path (which : Nat → Bool) (keep : Acc → Bool) : (s.resetRegs which keep).path = s.path := rfl
@[simp] theorem State.resetRegs_freeSeq (which : Nat → Bool) (keep : Acc → Bool) : (s.resetRegs which keep).freeSeq = s.freeSeq := rfl
@[simp] theorem State.resetRegs_pending (which : Nat → Bool) (keep : Acc → Bool) : (s.resetRegs which keep).pending = s.pending := rfl

/-! ### emit -/

@[simp] theorem State.emit_regs (o : Out) : (s.emit o).regs = s.regs := rfl
@[simp] theorem State.emit_ce (o : Out) : (s.emit o).ce = s.ce := rfl
@[simp] theorem State.emit_host (o : Out) : (s.emit o).host = s.host := rfl
@[simp] theorem State.emit_dma (o : Out) : (s.emit o).dma = s.dma := rfl
@[simp] theorem State.emit_chain (o : Out) : (s.emit o).chain = s.chain := rfl
@[simp] theorem State.emit_err (o : Out) : (s.emit o).err = s.err := rfl
@[simp] theorem State.emit_tim (o : Out) : (s.emit o).tim = s.tim := rfl
@[simp] theorem State.emit_pwr (o : Out) : (s.emit o).pwr = s.pwr := rfl
@[simp] theorem State.emit_rst (o : Out) : (s.emit o).rst = s.rst := rfl
@[simp] theorem State.emit_pmcs (o : Out) : (s.emit o).pmcs = s.pmcs := rfl
@[simp] theorem State.emit_hbm (o : Out) : (s.emit o).hbm = s.hbm := rfl
@[simp] theorem State.emit_fwu (o : Out) : (s.emit o).fwu = s.fwu := rfl
@[simp] theorem State.emit_gen (o : Out) : (s.emit o).gen = s.gen := rfl
@[simp] theorem State.emit_par (o : Out) : (s.emit o).par = s.par := rfl
@[simp] theorem State.emit_tab (o : Out) : (s.emit o).tab = s.tab := rfl
@[simp] theorem State.emit_tm (o : Out) : (s.emit o).tm = s.tm := rfl
@[simp] theorem State.emit_ports (o : Out) : (s.emit o).ports = s.ports := rfl
@[simp] theorem State.emit_path (o : Out) : (s.emit o).path = s.path := rfl
@[simp] theorem State.emit_freeSeq (o : Out) : (s.emit o).freeSeq = s.freeSeq := rfl
@[simp] theorem State.emit_pending (o : Out) : (s.emit o).pending = s.pending := rfl

/-! ### writeIndex -/

@[simp] theorem State.writeIndex_regs (lo hi n : Nat) : (s.writeIndex lo hi n).regs = s.regs := by simp [State.writeIndex]
@[simp] theorem State.writeIndex_ce (lo hi n : Nat) : (s.writeIndex lo hi n).ce = s.ce := by simp [State.writeIndex]
@[simp] theorem State.writeIndex_host (lo hi n : Nat) : (s.writeIndex lo hi n).host = s.host := by simp [State.writeIndex]
@[simp] theorem State.writeIndex_dma (lo hi n : Nat) : (s.writeIndex lo hi n).dma = s.dma := by simp [State.writeIndex]
@[simp] theorem State.writeIndex_chain (lo hi n : Nat) : (s.writeIndex lo hi n).chain = s.chain := by simp [State.writeIndex]
@[simp] theorem State.writeIndex_err (lo hi n : Nat) : (s.writeIndex lo hi n).err = s.err := by simp [State.writeIndex]
@[simp] theorem State.writeIndex_tim (lo hi n : Nat) : (s.writeIndex lo hi n).tim = s.tim := by simp [State.writeIndex]
@[simp] theorem State.writeIndex_pwr (lo hi n : Nat) : (s.writeIndex lo hi n).pwr = s.pwr := by simp [State.writeIndex]
@[simp] theorem State.writeIndex_rst (lo hi n : Nat) : (s.writeIndex lo hi n).rst = s.rst := by simp [State.writeIndex]
@[simp] theorem State.writeIndex_pmcs (lo hi n : Nat) : (s.writeIndex lo hi n).pmcs = s.pmcs := by simp [State.writeIndex]
@[simp] theorem State.writeIndex_hbm (lo hi n : Nat) : (s.writeIndex lo hi n).hbm = s.hbm := by simp [State.writeIndex]
@[simp] theorem State.writeIndex_fwu (lo hi n : Nat) : (s.writeIndex lo hi n).fwu = s.fwu := by simp [State.writeIndex]
@[simp] theorem State.writeIndex_gen (lo hi n : Nat) : (s.writeIndex lo hi n).gen = s.gen := by simp [State.writeIndex]
@[simp] theorem State.writeIndex_par (lo hi n : Nat) : (s.writeIndex lo hi n).par = s.par := by simp [State.writeIndex]
@[simp] theorem State.writeIndex_tab (lo hi n : Nat) : (s.writeIndex lo hi n).tab = s.tab := by simp [State.writeIndex]
@[simp] theorem State.writeIndex_tm (lo hi n : Nat) : (s.writeIndex lo hi n).tm = s.tm := by simp [State.writeIndex]
@[simp] theorem State.writeIndex_ports (lo hi n : Nat) : (s.writeIndex lo hi n).ports = s.ports := by simp [State.writeIndex]
@[simp] theorem State.writeIndex_path (lo hi n : Nat) : (s.writeIndex lo hi n).path = s.path := by simp [State.writeIndex]
@[simp] theorem State.writeIndex_freeSeq (lo hi n : Nat) : (s.writeIndex lo hi n).freeSeq = s.freeSeq := by simp [State.writeIndex]
@[simp] theorem State.writeIndex_pending (lo hi n : Nat) : (s.writeIndex lo hi n).pending = s.pending := by simp [State.writeIndex]

/-! ### setHostMem -/

@[simp] theorem State.setHostMem_regs (a : Nat) (bs : List Byte) : (s.setHostMem a bs).regs = s.regs := rfl
@[simp] theorem State.setHostMem_outs (a : Nat) (bs : List Byte) : (s.setHostMem a bs).outs = s.outs := rfl
@[simp] theorem State.setHostMem_ce (a : Nat) (bs : List Byte) : (s.setHostMem a bs).ce = s.ce := rfl
@[simp] theorem State.setHostMem_dma (a : Nat) (bs : List Byte) : (s.setHostMem a bs).dma = s.dma := rfl
@[simp] theorem State.setHostMem_chain (a : Nat) (bs : List Byte) : (s.setHostMem a bs).chain = s.chain := rfl
@[simp] theorem State.setHostMem_err (a : Nat) (bs : List Byte) : (s.setHostMem a bs).err = s.err := rfl
@[simp] theorem State.setHostMem_tim (a : Nat) (bs : List Byte) : (s.setHostMem a bs).tim = s.tim := rfl
@[simp] theorem State.setHostMem_pwr (a : Nat) (bs : List Byte) : (s.setHostMem a bs).pwr = s.pwr := rfl
@[simp] theorem State.setHostMem_rst (a : Nat) (bs : List Byte) : (s.setHostMem a bs).rst = s.rst := rfl
@[simp] theorem State.setHostMem_pmcs (a : Nat) (bs : List Byte) : (s.setHostMem a bs).pmcs = s.pmcs := rfl
@[simp] theorem State.setHostMem_hbm (a : Nat) (bs : List Byte) : (s.setHostMem a bs).hbm = s.hbm := rfl
@[simp] theorem State.setHostMem_fwu (a : Nat) (bs : List Byte) : (s.setHostMem a bs).fwu = s.fwu := rfl
@[simp] theorem State.setHostMem_gen (a : Nat) (bs : List Byte) : (s.setHostMem a bs).gen = s.gen := rfl
@[simp] theorem State.setHostMem_par (a : Nat) (bs : List Byte) : (s.setHostMem a bs).par = s.par := rfl
@[simp] theorem State.setHostMem_tab (a : Nat) (bs : List Byte) : (s.setHostMem a bs).tab = s.tab := rfl
@[simp] theorem State.setHostMem_tm (a : Nat) (bs : List Byte) : (s.setHostMem a bs).tm = s.tm := rfl
@[simp] theorem State.setHostMem_ports (a : Nat) (bs : List Byte) : (s.setHostMem a bs).ports = s.ports := rfl
@[simp] theorem State.setHostMem_path (a : Nat) (bs : List Byte) : (s.setHostMem a bs).path = s.path := rfl
@[simp] theorem State.setHostMem_freeSeq (a : Nat) (bs : List Byte) : (s.setHostMem a bs).freeSeq = s.freeSeq := rfl
@[simp] theorem State.setHostMem_pending (a : Nat) (bs : List Byte) : (s.setHostMem a bs).pending = s.pending := rfl

/-! ### setPool -/

@[simp] theorem State.setPool_regs (p : Nat) (x : PoolState) : (s.setPool p x).regs = s.regs := rfl
@[simp] theorem State.setPool_outs (p : Nat) (x : PoolState) : (s.setPool p x).outs = s.outs := rfl
@[simp] theorem State.setPool_ce (p : Nat) (x : PoolState) : (s.setPool p x).ce = s.ce := rfl
@[simp] theorem State.setPool_dma (p : Nat) (x : PoolState) : (s.setPool p x).dma = s.dma := rfl
@[simp] theorem State.setPool_chain (p : Nat) (x : PoolState) : (s.setPool p x).chain = s.chain := rfl
@[simp] theorem State.setPool_err (p : Nat) (x : PoolState) : (s.setPool p x).err = s.err := rfl
@[simp] theorem State.setPool_tim (p : Nat) (x : PoolState) : (s.setPool p x).tim = s.tim := rfl
@[simp] theorem State.setPool_pwr (p : Nat) (x : PoolState) : (s.setPool p x).pwr = s.pwr := rfl
@[simp] theorem State.setPool_rst (p : Nat) (x : PoolState) : (s.setPool p x).rst = s.rst := rfl
@[simp] theorem State.setPool_pmcs (p : Nat) (x : PoolState) : (s.setPool p x).pmcs = s.pmcs := rfl
@[simp] theorem State.setPool_hbm (p : Nat) (x : PoolState) : (s.setPool p x).hbm = s.hbm := rfl
@[simp] theorem State.setPool_fwu (p : Nat) (x : PoolState) : (s.setPool p x).fwu = s.fwu := rfl
@[simp] theorem State.setPool_gen (p : Nat) (x : PoolState) : (s.setPool p x).gen = s.gen := rfl
@[simp] theorem State.setPool_par (p : Nat) (x : PoolState) : (s.setPool p x).par = s.par := rfl
@[simp] theorem State.setPool_tab (p : Nat) (x : PoolState) : (s.setPool p x).tab = s.tab := rfl
@[simp] theorem State.setPool_tm (p : Nat) (x : PoolState) : (s.setPool p x).tm = s.tm := rfl
@[simp] theorem State.setPool_ports (p : Nat) (x : PoolState) : (s.setPool p x).ports = s.ports := rfl
@[simp] theorem State.setPool_path (p : Nat) (x : PoolState) : (s.setPool p x).path = s.path := rfl
@[simp] theorem State.setPool_freeSeq (p : Nat) (x : PoolState) : (s.setPool p x).freeSeq = s.freeSeq := rfl
@[simp] theorem State.setPool_pending (p : Nat) (x : PoolState) : (s.setPool p x).pending = s.pending := rfl

/-! ### setSlice -/

@[simp] theorem State.setSlice_regs (i : Nat) (x : SliceState) : (s.setSlice i x).regs = s.regs := rfl
@[simp] theorem State.setSlice_outs (i : Nat) (x : SliceState) : (s.setSlice i x).outs = s.outs := rfl
@[simp] theorem State.setSlice_ce (i : Nat) (x : SliceState) : (s.setSlice i x).ce = s.ce := rfl
@[simp] theorem State.setSlice_host (i : Nat) (x : SliceState) : (s.setSlice i x).host = s.host := rfl
@[simp] theorem State.setSlice_dma (i : Nat) (x : SliceState) : (s.setSlice i x).dma = s.dma := rfl
@[simp] theorem State.setSlice_chain (i : Nat) (x : SliceState) : (s.setSlice i x).chain = s.chain := rfl
@[simp] theorem State.setSlice_err (i : Nat) (x : SliceState) : (s.setSlice i x).err = s.err := rfl
@[simp] theorem State.setSlice_tim (i : Nat) (x : SliceState) : (s.setSlice i x).tim = s.tim := rfl
@[simp] theorem State.setSlice_pwr (i : Nat) (x : SliceState) : (s.setSlice i x).pwr = s.pwr := rfl
@[simp] theorem State.setSlice_rst (i : Nat) (x : SliceState) : (s.setSlice i x).rst = s.rst := rfl
@[simp] theorem State.setSlice_pmcs (i : Nat) (x : SliceState) : (s.setSlice i x).pmcs = s.pmcs := rfl
@[simp] theorem State.setSlice_hbm (i : Nat) (x : SliceState) : (s.setSlice i x).hbm = s.hbm := rfl
@[simp] theorem State.setSlice_fwu (i : Nat) (x : SliceState) : (s.setSlice i x).fwu = s.fwu := rfl
@[simp] theorem State.setSlice_gen (i : Nat) (x : SliceState) : (s.setSlice i x).gen = s.gen := rfl
@[simp] theorem State.setSlice_par (i : Nat) (x : SliceState) : (s.setSlice i x).par = s.par := rfl
@[simp] theorem State.setSlice_tab (i : Nat) (x : SliceState) : (s.setSlice i x).tab = s.tab := rfl
@[simp] theorem State.setSlice_tm (i : Nat) (x : SliceState) : (s.setSlice i x).tm = s.tm := rfl
@[simp] theorem State.setSlice_ports (i : Nat) (x : SliceState) : (s.setSlice i x).ports = s.ports := rfl
@[simp] theorem State.setSlice_freeSeq (i : Nat) (x : SliceState) : (s.setSlice i x).freeSeq = s.freeSeq := rfl
@[simp] theorem State.setSlice_pending (i : Nat) (x : SliceState) : (s.setSlice i x).pending = s.pending := rfl

/-! ### setRx -/

@[simp] theorem State.setRx_regs (k : Nat) (x : RxFrame) : (s.setRx k x).regs = s.regs := rfl
@[simp] theorem State.setRx_outs (k : Nat) (x : RxFrame) : (s.setRx k x).outs = s.outs := rfl
@[simp] theorem State.setRx_ce (k : Nat) (x : RxFrame) : (s.setRx k x).ce = s.ce := rfl
@[simp] theorem State.setRx_host (k : Nat) (x : RxFrame) : (s.setRx k x).host = s.host := rfl
@[simp] theorem State.setRx_dma (k : Nat) (x : RxFrame) : (s.setRx k x).dma = s.dma := rfl
@[simp] theorem State.setRx_chain (k : Nat) (x : RxFrame) : (s.setRx k x).chain = s.chain := rfl
@[simp] theorem State.setRx_err (k : Nat) (x : RxFrame) : (s.setRx k x).err = s.err := rfl
@[simp] theorem State.setRx_tim (k : Nat) (x : RxFrame) : (s.setRx k x).tim = s.tim := rfl
@[simp] theorem State.setRx_pwr (k : Nat) (x : RxFrame) : (s.setRx k x).pwr = s.pwr := rfl
@[simp] theorem State.setRx_rst (k : Nat) (x : RxFrame) : (s.setRx k x).rst = s.rst := rfl
@[simp] theorem State.setRx_pmcs (k : Nat) (x : RxFrame) : (s.setRx k x).pmcs = s.pmcs := rfl
@[simp] theorem State.setRx_hbm (k : Nat) (x : RxFrame) : (s.setRx k x).hbm = s.hbm := rfl
@[simp] theorem State.setRx_fwu (k : Nat) (x : RxFrame) : (s.setRx k x).fwu = s.fwu := rfl
@[simp] theorem State.setRx_gen (k : Nat) (x : RxFrame) : (s.setRx k x).gen = s.gen := rfl
@[simp] theorem State.setRx_par (k : Nat) (x : RxFrame) : (s.setRx k x).par = s.par := rfl
@[simp] theorem State.setRx_tab (k : Nat) (x : RxFrame) : (s.setRx k x).tab = s.tab := rfl
@[simp] theorem State.setRx_tm (k : Nat) (x : RxFrame) : (s.setRx k x).tm = s.tm := rfl
@[simp] theorem State.setRx_path (k : Nat) (x : RxFrame) : (s.setRx k x).path = s.path := rfl
@[simp] theorem State.setRx_freeSeq (k : Nat) (x : RxFrame) : (s.setRx k x).freeSeq = s.freeSeq := rfl
@[simp] theorem State.setRx_pending (k : Nat) (x : RxFrame) : (s.setRx k x).pending = s.pending := rfl

/-! ### The field that an update changes -/

@[simp] theorem State.emit_outs (o : Out) : (s.emit o).outs = s.outs ++ [o] := rfl
@[simp] theorem State.setHostMem_mem (a : Nat) (bs : List Byte) : (s.setHostMem a bs).host.mem = Memory.writeBytes s.host.mem a bs := rfl
@[simp] theorem State.setPool_mem (p : Nat) (x : PoolState) : (s.setPool p x).host.mem = s.host.mem := rfl
@[simp] theorem State.setPool_pool (p : Nat) (x : PoolState) : (s.setPool p x).pool p = x := by
  simp [State.pool, State.setPool]
@[simp] theorem State.setSlice_slice (i : Nat) (x : SliceState) : (s.setSlice i x).slice i = x := by
  simp [State.slice, State.setSlice]

/-! ### Registers (00 R10, R11) -/

/-- A register read after a write of a register. -/
theorem State.reg_setReg (off off' : Nat) (v : Word) : (s.setReg off v).reg off' = if off' = off then v else s.reg off' := by
  unfold State.reg State.setReg
  by_cases h : off' = off
  · subst h; simp
  · simp [h, Assoc.get, Assoc.put]; split <;> simp [h]

@[simp] theorem State.reg_setReg_same (off : Nat) (v : Word) : (s.setReg off v).reg off = v := by simp [State.reg_setReg]

theorem State.reg_setReg_other {off off' : Nat} (h : off' ≠ off) (v : Word) : (s.setReg off v).reg off' = s.reg off' := by
  simp [State.reg_setReg, h]

theorem State.reg_fset_other (f : Fld) {off : Nat} (h : off ≠ f.reg) (v : Nat) : (s.fset f v).reg off = s.reg off :=
  s.reg_setReg_other h _

/-- Registers are read from `regs` alone. -/
theorem State.reg_congr {s t : State} (h : s.regs = t.regs) (off : Nat) : s.reg off = t.reg off := by simp [State.reg, h]
theorem State.fget_congr {s t : State} (h : s.regs = t.regs) (f : Fld) : s.fget f = t.fget f := by simp [State.fget, State.reg, h]
theorem State.fbit_congr {s t : State} (h : s.regs = t.regs) (f : Fld) : s.fbit f = t.fbit f := by
  simp [State.fbit, State.fget, State.reg, h]

@[simp] theorem State.emit_reg (o : Out) (off : Nat) : (s.emit o).reg off = s.reg off := State.reg_congr rfl off
@[simp] theorem State.emit_fget (o : Out) (f : Fld) : (s.emit o).fget f = s.fget f := State.fget_congr rfl f
@[simp] theorem State.emit_fbit (o : Out) (f : Fld) : (s.emit o).fbit f = s.fbit f := State.fbit_congr rfl f

/-! ### Bit fields -/

theorem bitsAt_lt (x lo w : Nat) : bitsAt x lo w < 2 ^ w := Nat.mod_lt _ (Nat.two_pow_pos w)

theorem putBits_lt {x lo w v n : Nat} (hx : x < 2 ^ n) (h : lo + w ≤ n) : putBits x lo w v < 2 ^ n := by
  unfold putBits
  obtain ⟨k, rfl⟩ := Nat.exists_eq_add_of_le h
  have h1 : x / 2 ^ (lo + w) < 2 ^ k := by rw [Nat.div_lt_iff_lt_mul (Nat.two_pow_pos _), ← Nat.pow_add, Nat.add_comm k]; exact hx
  have h2 : v % 2 ^ w < 2 ^ w := Nat.mod_lt _ (Nat.two_pow_pos w)
  have h3 : x % 2 ^ lo < 2 ^ lo := Nat.mod_lt _ (Nat.two_pow_pos lo)
  have h4 : v % 2 ^ w * 2 ^ lo + x % 2 ^ lo < 2 ^ (lo + w) := by
    have := Nat.mul_le_mul_right (2 ^ lo) (Nat.succ_le_of_lt h2)
    rw [Nat.pow_add]; nlinarith
  have h5 : (x / 2 ^ (lo + w) + 1) * 2 ^ (lo + w) ≤ 2 ^ k * 2 ^ (lo + w) := Nat.mul_le_mul_right _ h1
  rw [show lo + w + k = k + (lo + w) by omega, Nat.pow_add 2 k]
  nlinarith

theorem bitsAt_putBits_same (x lo w v : Nat) : bitsAt (putBits x lo w v) lo w = v % 2 ^ w := by
  unfold bitsAt putBits
  have h3 : x % 2 ^ lo < 2 ^ lo := Nat.mod_lt _ (Nat.two_pow_pos lo)
  have e : x / 2 ^ (lo + w) * 2 ^ (lo + w) + v % 2 ^ w * 2 ^ lo + x % 2 ^ lo
      = x % 2 ^ lo + 2 ^ lo * (v % 2 ^ w + 2 ^ w * (x / 2 ^ (lo + w))) := by rw [Nat.pow_add]; ring
  rw [e, Nat.add_mul_div_left _ _ (Nat.two_pow_pos lo), Nat.div_eq_of_lt h3, Nat.zero_add, Nat.add_mul_mod_self_left, Nat.mod_mod]

/-- Bits below the field stay. -/
theorem bitsAt_putBits_below {x lo w v lo' w' : Nat} (h : lo' + w' ≤ lo) : bitsAt (putBits x lo w v) lo' w' = bitsAt x lo' w' := by
  unfold bitsAt
  have key : ∀ y, y / 2 ^ lo' % 2 ^ w' = y % 2 ^ (lo' + w') / 2 ^ lo' := fun y => by
    rw [Nat.pow_add, Nat.mod_mul_right_div_self]
  rw [key, key]
  obtain ⟨k, rfl⟩ := Nat.exists_eq_add_of_le h
  have e : putBits x (lo' + w' + k) w v % 2 ^ (lo' + w') = x % 2 ^ (lo' + w') := by
    unfold putBits
    have e1 : x / 2 ^ (lo' + w' + k + w) * 2 ^ (lo' + w' + k + w) + v % 2 ^ w * 2 ^ (lo' + w' + k) + x % 2 ^ (lo' + w' + k)
        = x % 2 ^ (lo' + w' + k) + 2 ^ (lo' + w') * (2 ^ k * (v % 2 ^ w) + x / 2 ^ (lo' + w' + k + w) * 2 ^ (k + w)) := by
      rw [Nat.pow_add 2 (lo' + w' + k), Nat.pow_add 2 (lo' + w'), Nat.pow_add 2 k]; ring
    rw [e1, Nat.add_mul_mod_self_left, Nat.pow_add 2 (lo' + w') k, Nat.mod_mul_right_mod]
  rw [e]

/-- Bits above the field stay. -/
theorem bitsAt_putBits_above {x lo w v lo' w' : Nat} (h : lo + w ≤ lo') : bitsAt (putBits x lo w v) lo' w' = bitsAt x lo' w' := by
  unfold bitsAt
  obtain ⟨k, rfl⟩ := Nat.exists_eq_add_of_le h
  have e : putBits x lo w v / 2 ^ (lo + w) = x / 2 ^ (lo + w) := by
    unfold putBits
    have h2 : v % 2 ^ w < 2 ^ w := Nat.mod_lt _ (Nat.two_pow_pos w)
    have h3 : x % 2 ^ lo < 2 ^ lo := Nat.mod_lt _ (Nat.two_pow_pos lo)
    have h4 : v % 2 ^ w * 2 ^ lo + x % 2 ^ lo < 2 ^ (lo + w) := by
      have := Nat.mul_le_mul_right (2 ^ lo) (Nat.succ_le_of_lt h2)
      rw [Nat.pow_add]; nlinarith
    rw [Nat.add_assoc, Nat.mul_comm, Nat.mul_add_div (Nat.two_pow_pos _), Nat.div_eq_of_lt h4, Nat.add_zero]
  rw [Nat.pow_add, ← Nat.div_div_eq_div_mul, ← Nat.div_div_eq_div_mul, e]

/-- A field read after it is written. -/
@[simp] theorem State.fget_fset_same (f : Fld) (v : Nat) (h : f.lo + f.w ≤ 32) : (s.fset f v).fget f = v % 2 ^ f.w := by
  unfold State.fget State.fset
  rw [State.reg_setReg_same, BitVec.toNat_ofNat, Nat.mod_eq_of_lt (putBits_lt (s.reg f.reg).isLt h), bitsAt_putBits_same]

/-- A field of another register is as it was. -/
theorem State.fget_fset_other (f g : Fld) (v : Nat) (h : g.reg ≠ f.reg) : (s.fset f v).fget g = s.fget g := by
  unfold State.fget; rw [s.reg_fset_other f h]

/-- Another field of the register is as it was. -/
theorem State.fget_fset_apart (f g : Fld) (v : Nat) (hf : f.lo + f.w ≤ 32) (h : g.lo + g.w ≤ f.lo ∨ f.lo + f.w ≤ g.lo) :
    (s.fset f v).fget g = s.fget g := by
  by_cases hr : g.reg = f.reg
  · unfold State.fget State.fset
    rw [hr, State.reg_setReg_same, BitVec.toNat_ofNat, Nat.mod_eq_of_lt (putBits_lt (s.reg f.reg).isLt hf)]
    rcases h with h | h
    · exact bitsAt_putBits_below h
    · exact bitsAt_putBits_above h
  · exact s.fget_fset_other f g v hr

end Sys2Proof.Machine
end

