-- ==== Sys2Proof/Laws/Commands.lean ====
section
/-! SUPPORT. Laws of the shared run of a ring command (02 R63-R71): what `runCmd` answers once its first checks pass, and where they stop it. -/

namespace Sys2Proof.Machine

open Sys2Proof

theorem takes_iff {s : State} {op lo hi : Nat} {c : Cmd} :
    s.takes op lo hi c = true ↔ s.off = false ∧ lo ≤ c.len ∧ c.len ≤ hi ∧ s.dieResetHolds op = false := by
  simp [State.takes, and_assoc]

theorem runs_iff {s : State} {op lo hi : Nat} {c : Cmd} {a0 a1 : List (Nat × Nat)} {pl : List (Nat × Nat × Nat)} :
    s.runs op lo hi c a0 a1 pl = true ↔ s.takes op lo hi c = true ∧ c.resv a0 a1 pl = false := by
  simp [State.runs]

/-- Once the first checks pass, a command is its body and the completion the body asks for. -/
theorem cmdRun_takes {s : State} {op lo hi : Nat} {c : Cmd} (h : s.takes op lo hi c = true) (body : State → State × Done) :
    cmdRun op lo hi c s body =
      match body s with
      | (t, .done st r0 r1) => t.complete c op st r0 r1
      | (t, .later) => t := by
  obtain ⟨h1, h2, h3, h4⟩ := takes_iff.1 h
  have h5 : ¬ (c.len < lo ∨ hi < c.len) := by omega
  simp only [cmdRun, h1, h4, h5, if_false, Bool.false_eq_true]
  all_goals
    generalize body s = x
    obtain ⟨t, d⟩ := x
    cases d <;> rfl

theorem runCmd_takes {s : State} {op lo hi : Nat} {c : Cmd} (h : s.takes op lo hi c = true) (body : State → State × Done) :
    runCmd op lo hi c s body =
      .next (match body s with
        | (t, .done st r0 r1) => t.complete c op st r0 r1
        | (t, .later) => t) := by
  rw [runCmd, cmdRun_takes h]

/-- A body that ends at once: the command completes with its status and results. -/
theorem runCmd_done {s t : State} {op lo hi st r0 r1 : Nat} {c : Cmd} {body : State → State × Done}
    (h : s.takes op lo hi c = true) (hb : body s = (t, .done st r0 r1)) : runCmd op lo hi c s body = .next (t.complete c op st r0 r1) := by
  rw [runCmd_takes h, hb]

/-- A body that goes on: the command completes later. -/
theorem runCmd_later {s t : State} {op lo hi : Nat} {c : Cmd} {body : State → State × Done}
    (h : s.takes op lo hi c = true) (hb : body s = (t, .later)) : runCmd op lo hi c s body = .next t := by
  rw [runCmd_takes h, hb]

/-- Where a command takes no body: power off, a LEN outside the range, a die in die reset. -/
theorem runCmd_off {s : State} {op lo hi : Nat} {c : Cmd} (h : s.off = true) (body : State → State × Done) :
    runCmd op lo hi c s body = .next s := by simp [runCmd, cmdRun, h]

theorem runCmd_badLen {s : State} {op lo hi : Nat} {c : Cmd} (h : s.off = false) (hl : c.len < lo ∨ hi < c.len) (body : State → State × Done) :
    runCmd op lo hi c s body = .next (s.complete c op stBadPayload 0 0) := by simp [runCmd, cmdRun, h, hl]

theorem runCmd_dieReset {s : State} {op lo hi : Nat} {c : Cmd} (h : s.off = false) (hlo : lo ≤ c.len) (hhi : c.len ≤ hi)
    (hd : s.dieResetHolds op = true) (body : State → State × Done) :
    runCmd op lo hi c s body = .next (s.complete c op stState 0 0) := by
  have h5 : ¬ (c.len < lo ∨ hi < c.len) := by omega
  simp only [runCmd, cmdRun, h, hd, h5, if_false, if_true, Bool.false_eq_true]

/-- The update service: once the first checks pass, a command is its body and the completion the body asks for (20 R566). -/
theorem fwuCmd_takes {s : State} {op lo hi : Nat} {c : Cmd} (h : s.takes op lo hi c = true) (body : State → State × Done) :
    fwuCmd op lo hi c s body =
      .next (match body s with
        | (t, .done st r0 r1) => t.fwuComplete c op st r0 r1
        | (t, .later) => t) := by
  obtain ⟨h1, h2, h3, -⟩ := takes_iff.1 h
  have h5 : ¬ (c.len < lo ∨ hi < c.len) := by omega
  simp only [fwuCmd, h1, h5, if_false, Bool.false_eq_true]
  generalize body s = x
  obtain ⟨t, d⟩ := x
  cases d <;> rfl

end Sys2Proof.Machine
end

