-- ==== Sys2Proof/Laws/Hash.lean ====
section
/-! SUPPORT. Bounds of the checksums: every CRC is a 32-bit number. Reserved bits of an operand that is one field. -/

namespace Sys2Proof.Machine

open Sys2Proof

theorem crcBit_lt {r : Nat} (h : r < 2 ^ 32) : crcBit r < 2 ^ 32 := by
  unfold crcBit
  split
  · exact Nat.xor_lt_two_pow (by omega) (by decide)
  · omega

theorem crcByte_lt {r b : Nat} (h : r < 2 ^ 32) (hb : b < 256) : crcByte r b < 2 ^ 32 := by
  have h0 : Nat.xor r b < 2 ^ 32 := Nat.xor_lt_two_pow h (by omega)
  exact crcBit_lt (crcBit_lt (crcBit_lt (crcBit_lt (crcBit_lt (crcBit_lt (crcBit_lt (crcBit_lt h0)))))))

theorem crc32c_lt {bs : List Nat} (hb : ∀ b ∈ bs, b < 256) : ∀ {r : Nat}, r < 2 ^ 32 → crc32c r bs < 2 ^ 32 := by
  induction bs with
  | nil => intro r h; exact h
  | cons b bs ih =>
    intro r h
    exact ih (fun x hx => hb x (List.mem_cons_of_mem _ hx)) (crcByte_lt h (hb b (List.mem_cons_self ..)))

/-- The CRC-32C of any bytes is a 32-bit number (07 R626). -/
theorem crc32cStd_lt (bs : List Byte) : crc32cStd (bs.map (·.toNat)) < 2 ^ 32 :=
  Nat.xor_lt_two_pow (crc32c_lt (by simp only [List.mem_map]; rintro b ⟨x, -, rfl⟩; exact x.isLt) (by decide)) (by decide)

theorem crc32c_append (r : Nat) (a b : List Nat) : crc32c r (a ++ b) = crc32c (crc32c r a) b := by simp [crc32c]

/-- An operand within its one field has no reserved bit set. -/
theorem onlyBits_low {x w : Nat} (h : x < 2 ^ w) : onlyBits x [(0, w)] = true := by
  simp [onlyBits, putBits, Nat.div_eq_of_lt h, Nat.mod_one]

theorem bitsAt_self {x w : Nat} (h : x < 2 ^ w) : bitsAt x 0 w = x := by simp [bitsAt, Nat.mod_eq_of_lt h]

end Sys2Proof.Machine
end

