-- ==== Sys2Proof/Laws/Keeps.lean ====
section
/-! SUPPORT. What every operation of the machine keeps: the queue of waiting commands, and the canonical form of registers and host-path
memory. This file has the relation, its rules for the shapes of the machine's functions, and the operations that write registers and memory. -/

namespace Sys2Proof.Machine

open Sys2Proof

/-- From `s` to `t` the queue stays, and the canonical form with it. -/
def State.Keeps (s t : State) : Prop := t.pending = s.pending ∧ (s.Canonical → t.Canonical)

theorem Keeps.refl (s : State) : s.Keeps s := ⟨rfl, id⟩

theorem Keeps.trans {s t u : State} (h : s.Keeps t) (g : t.Keeps u) : s.Keeps u := ⟨g.1.trans h.1, g.2 ∘ h.2⟩

/-- A change of anything but registers, host-path memory and queue. -/
theorem keeps_upd {s t : State} {outs : List Out} {ce : CeState} {dma : DmaState} {chain : ChainState} {err : ErrState}
    {tim : TimState} {pwr : PwrState} {rst : RstState} {pmcs : PmcState} {hbm : HbmState} {fwu : FwuState} {gen : GenState} {par : ParState}
    {tab : TabState} {tm : TmState} {ports : PortsState} {path : PathState} {freeSeq : Nat} :
    s.Keeps ⟨t.regs, outs, ce, t.host, dma, chain, err, tim, pwr, rst, pmcs, hbm, fwu, gen, par, tab, tm, ports, path, freeSeq, t.pending⟩
      ↔ s.Keeps t := Iff.rfl

/-- The same where the host side changes but for its memory. -/
theorem keeps_updHost {s t : State} {outs : List Out} {ce : CeState} {dma : DmaState} {chain : ChainState} {err : ErrState}
    {tim : TimState} {pwr : PwrState} {rst : RstState} {pmcs : PmcState} {hbm : HbmState} {fwu : FwuState} {gen : GenState} {par : ParState}
    {tab : TabState} {tm : TmState} {ports : PortsState} {path : PathState} {freeSeq : Nat} {rx : List RxPacket} {rd : List Nat}
    {bk : List (Nat × Nat × Nat)} {pl : Assoc PoolState} {cl ld : Bool} :
    s.Keeps ⟨t.regs, outs, ce, ⟨rx, rd, bk, pl, t.host.mem, cl, ld⟩, dma, chain, err, tim, pwr, rst, pmcs, hbm, fwu, gen, par, tab, tm, ports,
      path, freeSeq, t.pending⟩ ↔ s.Keeps t := Iff.rfl

/-- An answer that comes with a state: the state is the pair's first part, or its last. -/
def KeepsP {α : Type} (s : State) (x : State × α) : Prop := s.Keeps x.1
def KeepsQ {α : Type} (s : State) (x : α × State) : Prop := s.Keeps x.2

theorem keepsP_mk {α : Type} {s u : State} {y : α} : KeepsP s (u, y) ↔ s.Keeps u := Iff.rfl
theorem keepsQ_mk {α : Type} {s u : State} {y : α} : KeepsQ s (y, u) ↔ s.Keeps u := Iff.rfl
theorem KeepsP.fst {α : Type} {s : State} {x : State × α} (h : KeepsP s x) : s.Keeps x.1 := h
theorem KeepsQ.snd {α : Type} {s : State} {x : α × State} (h : KeepsQ s x) : s.Keeps x.2 := h
theorem KeepsP.get {α : Type} {s u : State} {y : α} {x : State × α} (e : x = (u, y)) (h : KeepsP s x) : s.Keeps u := by subst e; exact h
theorem KeepsQ.get {α : Type} {s u : State} {y : α} {x : α × State} (e : x = (y, u)) (h : KeepsQ s x) : s.Keeps u := by subst e; exact h

theorem KeepsP.ite {α : Type} {s : State} {x y : State × α} {p : Prop} [Decidable p] (h : KeepsP s x) (g : KeepsP s y) :
    KeepsP s (if p then x else y) := by split <;> assumption

theorem KeepsP.fail {s t : State} {st : Nat} (h : s.Keeps t) : KeepsP s (fail st t) := h
theorem KeepsP.ok {s t : State} {a b : Nat} (h : s.Keeps t) : KeepsP s (ok t a b) := h

theorem Keeps.ite {s t u : State} {p : Prop} [Decidable p] (h : s.Keeps t) (g : s.Keeps u) : s.Keeps (if p then t else u) := by
  split <;> assumption

/-- An answer that may be none. -/
def KeepsO (s : State) : Option State → Prop
  | none => True
  | some t => s.Keeps t

def KeepsOP {α : Type} (s : State) : Option (State × α) → Prop
  | none => True
  | some x => KeepsP s x

def KeepsOQ {α : Type} (s : State) : Option (α × State) → Prop
  | none => True
  | some x => KeepsQ s x

def KeepsE {ε α : Type} (s : State) : Except ε (State × α) → Prop
  | .error _ => True
  | .ok x => KeepsP s x

def KeepsES {ε : Type} (s : State) : Except ε State → Prop
  | .error _ => True
  | .ok t => s.Keeps t

def KeepsX (s : State) : Host.Outcome State Fault Refusal → Prop
  | .next t => s.Keeps t
  | _ => True

theorem KeepsO.of_none (s : State) : KeepsO s none := trivial
theorem KeepsO.of_some {s t : State} (h : s.Keeps t) : KeepsO s (some t) := h
theorem KeepsOP.of_none (α : Type) (s : State) : KeepsOP s (none : Option (State × α)) := trivial
theorem KeepsOP.of_some {α : Type} {s : State} {x : State × α} (h : KeepsP s x) : KeepsOP s (some x) := h
theorem KeepsOQ.of_none (α : Type) (s : State) : KeepsOQ s (none : Option (α × State)) := trivial
theorem KeepsOQ.of_some {α : Type} {s : State} {x : α × State} (h : KeepsQ s x) : KeepsOQ s (some x) := h
theorem KeepsE.of_error {ε α : Type} (s : State) (e : ε) : KeepsE s (.error e : Except ε (State × α)) := trivial
theorem KeepsE.of_ok {ε α : Type} {s : State} {x : State × α} (h : KeepsP s x) : KeepsE (ε := ε) s (.ok x) := h
theorem KeepsES.of_error {ε : Type} (s : State) (e : ε) : KeepsES s (.error e : Except ε State) := trivial
theorem KeepsES.of_ok {ε : Type} {s t : State} (h : s.Keeps t) : KeepsES (ε := ε) s (.ok t) := h
theorem KeepsES.get {ε : Type} {s u : State} {x : Except ε State} (e : x = .ok u) (h : KeepsES s x) : s.Keeps u := by subst e; exact h
theorem KeepsX.of_next {s t : State} (h : s.Keeps t) : KeepsX s (.next t) := h

theorem KeepsOP.ite {α : Type} {s : State} {x y : Option (State × α)} {p : Prop} [Decidable p] (h : KeepsOP s x) (g : KeepsOP s y) :
    KeepsOP s (if p then x else y) := by split <;> assumption

theorem KeepsX.ite {s : State} {x y : Host.Outcome State Fault Refusal} {p : Prop} [Decidable p] (h : KeepsX s x) (g : KeepsX s y) :
    KeepsX s (if p then x else y) := by split <;> assumption

theorem KeepsO.get {s u : State} {x : Option State} (e : x = some u) (h : KeepsO s x) : s.Keeps u := by subst e; exact h
theorem KeepsOP.get {α : Type} {s : State} {x : Option (State × α)} {y : State × α} (e : x = some y) (h : KeepsOP s x) : KeepsP s y := by
  subst e; exact h
theorem KeepsOP.get' {α : Type} {s u : State} {a : α} {x : Option (State × α)} (e : x = some (u, a)) (h : KeepsOP s x) : s.Keeps u := by
  subst e; exact h
theorem KeepsOQ.get' {α : Type} {s u : State} {a : α} {x : Option (α × State)} (e : x = some (a, u)) (h : KeepsOQ s x) : s.Keeps u := by
  subst e; exact h
theorem KeepsE.get {ε α : Type} {s : State} {x : Except ε (State × α)} {y : State × α} (e : x = .ok y) (h : KeepsE s x) : KeepsP s y := by
  subst e; exact h
theorem KeepsE.get' {ε α : Type} {s u : State} {a : α} {x : Except ε (State × α)} (e : x = .ok (u, a)) (h : KeepsE s x) : s.Keeps u := by
  subst e; exact h
theorem KeepsX.get {s u : State} {x : Host.Outcome State Fault Refusal} (e : x = .next u) (h : KeepsX s x) : s.Keeps u := by subst e; exact h

theorem Keeps.foldl {α : Type} {s : State} {f : State → α → State} (hf : ∀ t x, s.Keeps t → s.Keeps (f t x)) {l : List α} {t : State}
    (h : s.Keeps t) : s.Keeps (l.foldl f t) := by
  induction l generalizing t with
  | nil => exact h
  | cons x l ih => exact ih (hf t x h)

theorem KeepsP.foldl {α β : Type} {s : State} {f : State × β → α → State × β} (hf : ∀ t x, KeepsP s t → KeepsP s (f t x)) {l : List α}
    {t : State × β} (h : KeepsP s t) : KeepsP s (l.foldl f t) := by
  induction l generalizing t with
  | nil => exact h
  | cons x l ih => exact ih (hf t x h)

theorem KeepsQ.foldl {α β : Type} {s : State} {f : β × State → α → β × State} (hf : ∀ t x, KeepsQ s t → KeepsQ s (f t x)) {l : List α}
    {t : β × State} (h : KeepsQ s t) : KeepsQ s (l.foldl f t) := by
  induction l generalizing t with
  | nil => exact h
  | cons x l ih => exact ih (hf t x h)

/-! ### The operations that write registers or host-path memory -/

theorem State.setReg_keeps {s t : State} {off : Nat} {v : Word} (h : s.Keeps t) : s.Keeps (t.setReg off v) :=
  ⟨h.1, fun c => ⟨Assoc.wf_put (d := regReset) v (h.2 c).1, (h.2 c).2⟩⟩

theorem State.resetRegs_keeps {s t : State} {w : Nat → Bool} {k : Acc → Bool} (h : s.Keeps t) : s.Keeps (t.resetRegs w k) := by
  refine ⟨h.1, fun c => ⟨Assoc.wf_filterMap (d := regReset) ?_ ?_ (h.2 c).1, (h.2 c).2⟩⟩
  · intro x y e
    dsimp only at e
    repeat' split at e
    all_goals first | (cases e; done) | (cases e; rfl)
  · intro x hx y e
    dsimp only at e
    repeat' split at e
    all_goals first | (cases e; done) | (cases e; assumption) | (cases e; exact Assoc.wf_mem (h.2 c).1 hx)

theorem State.pmcReset_keeps {s t : State} (h : s.Keeps t) : s.Keeps t.pmcReset :=
  ⟨h.1, fun c => ⟨Assoc.wf_filter (d := regReset) _ (h.2 c).1, (h.2 c).2⟩⟩

end Sys2Proof.Machine
end

