-- ==== Sys2Proof/Laws/KeepsRegs.lean ====
section
/-! SUPPORT. What the operations and commands of these parts keep, the queue of waiting commands and the canonical form: registers, free values, counters, interrupts, and generations. -/

namespace Sys2Proof.Machine

open Sys2Proof

-- Not every alternative of a `first` is used on every path.
set_option linter.all false

/-! ### Ops -/

theorem State.fset_keeps {s t : State} {f : Fld} {v : Nat} (h : s.Keeps t) : s.Keeps (State.fset t f v) := by
  unfold State.fset
  repeat' (first | with_reducible assumption | with_reducible refine State.setReg_keeps ?_)

theorem State.satAdd_keeps {s t : State} {f : Fld} {x2 : Nat} (h : s.Keeps t) : s.Keeps (State.satAdd t f x2) := by
  unfold State.satAdd
  repeat' (first | with_reducible assumption | with_reducible refine State.fset_keeps ?_)

theorem State.wrapAdd_keeps {s t : State} {f : Fld} {x2 : Nat} (h : s.Keeps t) : s.Keeps (State.wrapAdd t f x2) := by
  unfold State.wrapAdd
  repeat' (first | with_reducible assumption | with_reducible refine State.fset_keeps ?_)

theorem State.emit_keeps {s t : State} {o : Out} (h : s.Keeps t) : s.Keeps (State.emit t o) := by
  unfold State.emit
  repeat' (first | with_reducible assumption | simp only [keeps_upd])

theorem State.free_keeps {s t : State} {point : Nat} (h : s.Keeps t) : KeepsQ s (State.free t point) := by
  unfold State.free
  repeat' (first | with_reducible assumption | simp only [keepsQ_mk] | simp only [keeps_upd])

theorem State.setInstant_keeps {s t : State} {ns : Fld} {lo : Fld} {hi : Fld} {count : Nat} (h : s.Keeps t) : s.Keeps (State.setInstant t ns lo hi
    count) := by
  unfold State.setInstant
  repeat' (first | with_reducible assumption | with_reducible refine State.fset_keeps ?_)

theorem State.sendMessage_keeps {s t : State} {v : Nat} (h : s.Keeps t) : s.Keeps (State.sendMessage t v) := by
  unfold State.sendMessage
  repeat' (first | with_reducible assumption | with_reducible refine State.emit_keeps ?_ | with_reducible refine State.satAdd_keeps ?_
                 | with_reducible refine Keeps.ite ?_ ?_ | dsimp only | simp only [keeps_upd] | split)

theorem State.pulse_keeps {s t : State} {x1 : Nat} (h : s.Keeps t) : s.Keeps (State.pulse t x1) := by
  unfold State.pulse
  repeat' (first | with_reducible assumption | with_reducible refine State.sendMessage_keeps ?_ | with_reducible refine Keeps.ite ?_ ?_)

theorem State.withSource_keeps {s t : State} {n : Nat} {f : State → State} (hf : ∀ t, s.Keeps t → s.Keeps (f t)) (h : s.Keeps t) :
    s.Keeps (t.withSource n f) := by
  unfold State.withSource
  dsimp only
  exact Keeps.ite (State.sendMessage_keeps (hf _ h)) (hf _ h)

theorem State.setEventBits_keeps {s t : State} {f : Fld} {v : Nat} (h : s.Keeps t) : s.Keeps (State.setEventBits t f v) := by
  unfold State.setEventBits
  repeat' (first | with_reducible assumption | with_reducible refine State.fset_keeps ?_ | with_reducible refine State.withSource_keeps ?_ ?_
                 | with_reducible refine Keeps.ite ?_ ?_ | dsimp only | split | intro _ _ _ | intro _ _
                 | with_reducible refine Keeps.foldl ?_ ?_)

theorem State.setEvent_keeps {s t : State} {f : Fld} (h : s.Keeps t) : s.Keeps (State.setEvent t f) := by
  unfold State.setEvent
  repeat' (first | with_reducible assumption | with_reducible refine State.setEventBits_keeps ?_)

theorem State.addHistory_keeps {s t : State} {e : ErrEntry} (h : s.Keeps t) : s.Keeps (t.addHistory e) :=
  Keeps.ite (keeps_upd.2 h) (State.pulse_keeps (keeps_upd.2 (keeps_upd.2 h)))

theorem State.logEntry_keeps {s t : State} {code : Nat} {info : Nat} {firmware : Bool} {injected : Bool} (h : s.Keeps t) : s.Keeps (State.logEntry t
    code info firmware injected) := by
  unfold State.logEntry
  repeat' (first | with_reducible assumption | with_reducible refine State.withSource_keeps ?_ ?_ | with_reducible refine State.satAdd_keeps ?_
                 | with_reducible refine State.fset_keeps ?_ | with_reducible refine State.addHistory_keeps ?_
                 | with_reducible refine State.pulse_keeps ?_ | with_reducible refine Keeps.ite ?_ ?_ | dsimp only
                 | simp only [keeps_upd] | intro _ _)

theorem State.ceHalt_keeps {s t : State} {ring : Nat} {reason : Nat} {pos : Nat} (h : s.Keeps t) : s.Keeps (State.ceHalt t ring reason pos) := by
  unfold State.ceHalt
  repeat' (first | with_reducible assumption | with_reducible refine State.setReg_keeps ?_ | with_reducible refine State.withSource_keeps ?_ ?_
                 | with_reducible refine State.fset_keeps ?_ | with_reducible refine State.logEntry_keeps ?_ | with_reducible refine Keeps.ite ?_ ?_
                 | dsimp only | simp only [keeps_upd] | intro _ _)

theorem State.dmaEnd_keeps {s t : State} {ch : Nat} {status : Nat} {bytes : Nat} {mismatch : Nat} (h : s.Keeps t) : s.Keeps (State.dmaEnd t ch status
    bytes mismatch) := by
  unfold State.dmaEnd
  repeat' (first | with_reducible assumption | with_reducible refine State.fset_keeps ?_ | with_reducible refine State.logEntry_keeps ?_
                 | with_reducible refine Keeps.ite ?_ ?_ | dsimp only | simp only [keeps_upd] | split)

theorem State.writeIndex_keeps {s t : State} {lo : Nat} {hi : Nat} {idx : Nat} (h : s.Keeps t) : s.Keeps (State.writeIndex t lo hi idx) := by
  unfold State.writeIndex
  repeat' (first | with_reducible assumption | with_reducible refine State.emit_keeps ?_)

theorem State.fireCq_keeps {s t : State} {m : Nat} (h : s.Keeps t) : s.Keeps (State.fireCq t m) := by
  unfold State.fireCq
  repeat' (first | with_reducible assumption | with_reducible refine State.pulse_keeps ?_ | dsimp only | simp only [keeps_upd])

theorem State.writeRecord_keeps {s t : State} {c : Cmd} {opcode : Nat} {status : Nat} {r0 : Nat} {r1 : Nat} (h : s.Keeps t) : s.Keeps
    (State.writeRecord t c opcode status r0 r1) := by
  unfold State.writeRecord
  repeat' (first | with_reducible assumption | with_reducible refine State.emit_keeps ?_ | with_reducible refine State.fset_keeps ?_
                 | with_reducible refine State.writeIndex_keeps ?_ | with_reducible refine State.fireCq_keeps ?_
                 | with_reducible refine Keeps.ite ?_ ?_ | dsimp only | simp only [keeps_upd])

theorem State.ceResetNow_keeps {s t : State} (h : s.Keeps t) : s.Keeps (State.ceResetNow t) := by
  unfold State.ceResetNow
  repeat' (first | with_reducible assumption | with_reducible refine State.fset_keeps ?_ | dsimp only | simp only [keeps_upd]
                 | intro _ _ _ | with_reducible refine Keeps.foldl ?_ ?_)

theorem State.complete_keeps {s t : State} {c : Cmd} {opcode : Nat} {status : Nat} {r0 : Nat} {r1 : Nat} (h : s.Keeps t) : s.Keeps (State.complete t c
    opcode status r0 r1) := by
  unfold State.complete
  repeat' (first | with_reducible assumption | with_reducible refine State.writeRecord_keeps ?_ | with_reducible refine State.ceResetNow_keeps ?_
                 | with_reducible refine Keeps.ite ?_ ?_ | dsimp only | simp only [keeps_upd])

theorem State.dmaFinish_keeps {s t : State} {ch : Nat} {x : Xfer} {status : Nat} {bytes : Nat} {mismatch : Nat} (h : s.Keeps t) : s.Keeps
    (State.dmaFinish t ch x status bytes mismatch) := by
  unfold State.dmaFinish
  repeat' (first | with_reducible assumption | with_reducible refine State.dmaEnd_keeps ?_ | with_reducible refine State.complete_keeps ?_
                 | dsimp only | split)

theorem State.dmaWithdrawCh_keeps {s t : State} {ch : Nat} (h : s.Keeps t) : s.Keeps (State.dmaWithdrawCh t ch) := by
  unfold State.dmaWithdrawCh
  repeat' (first | with_reducible assumption | with_reducible refine State.dmaFinish_keeps ?_ | intro _ _ _ | with_reducible refine Keeps.foldl ?_ ?_)

theorem State.dmaWithdrawAll_keeps {s t : State} (h : s.Keeps t) : s.Keeps (State.dmaWithdrawAll t) := by
  unfold State.dmaWithdrawAll
  repeat' (first | with_reducible assumption | with_reducible refine State.dmaWithdrawCh_keeps ?_ | intro _ _ _
                 | with_reducible refine Keeps.foldl ?_ ?_)

theorem State.raiseFatal_keeps {s t : State} {code : Nat} (h : s.Keeps t) : s.Keeps (State.raiseFatal t code) := by
  unfold State.raiseFatal
  repeat' (first | with_reducible assumption | with_reducible refine State.satAdd_keeps ?_ | with_reducible refine State.fset_keeps ?_
                 | with_reducible refine State.setInstant_keeps ?_ | with_reducible refine State.pulse_keeps ?_
                 | with_reducible refine State.dmaWithdrawAll_keeps ?_ | with_reducible refine State.ceHalt_keeps ?_
                 | with_reducible refine Keeps.ite ?_ ?_ | dsimp only | simp only [keeps_upd] | split)

theorem State.raiseError_keeps {s t : State} {code : Nat} {info : Nat} (h : s.Keeps t) : s.Keeps (State.raiseError t code info) := by
  unfold State.raiseError
  repeat' (first | with_reducible assumption | with_reducible refine State.logEntry_keeps ?_ | with_reducible refine State.raiseFatal_keeps ?_
                 | with_reducible refine Keeps.ite ?_ ?_)

theorem State.raiseErrorFw_keeps {s t : State} {code : Nat} {info : Nat} (h : s.Keeps t) : s.Keeps (State.raiseErrorFw t code info) := by
  unfold State.raiseErrorFw
  repeat' (first | with_reducible assumption | with_reducible refine State.logEntry_keeps ?_ | with_reducible refine State.raiseFatal_keeps ?_
                 | with_reducible refine Keeps.ite ?_ ?_)

theorem State.regError_keeps {s t : State} {off : Nat} {master : Nat} (h : s.Keeps t) : s.Keeps (State.regError t off master) := by
  unfold State.regError
  repeat' (first | with_reducible assumption | with_reducible refine State.satAdd_keeps ?_ | with_reducible refine State.fset_keeps ?_
                 | with_reducible refine State.raiseError_keeps ?_)

theorem cmdRun_keeps {s t : State} {op lo hi : Nat} {c : Cmd} {body : State → State × Done} (hb : ∀ t, s.Keeps t → KeepsP s (body t))
    (h : s.Keeps t) : s.Keeps (cmdRun op lo hi c t body) := by
  unfold cmdRun
  refine Keeps.ite h (Keeps.ite (State.complete_keeps h) (Keeps.ite (State.complete_keeps h) ?_))
  split
  · exact State.complete_keeps (KeepsP.get (by assumption) (hb _ h))
  · exact KeepsP.get (by assumption) (hb _ h)

theorem runCmd_keeps {s t : State} {op lo hi : Nat} {c : Cmd} {body : State → State × Done} (hb : ∀ t, s.Keeps t → KeepsP s (body t))
    (h : s.Keeps t) : KeepsX s (runCmd op lo hi c t body) := cmdRun_keeps hb h

theorem fail_keeps {s t : State} {st : Nat} (h : s.Keeps t) : KeepsP s (fail st t) := by
  unfold fail
  repeat' (first | with_reducible assumption | simp only [keepsP_mk])

theorem ok_keeps {s t : State} {r0 : Nat} {r1 : Nat} (h : s.Keeps t) : KeepsP s (ok t r0 r1) := by
  unfold ok
  repeat' (first | with_reducible assumption | simp only [keepsP_mk])

/-! ### Count -/

theorem State.pmcWrapped_keeps {s t : State} {b : Nat} {x2 : Nat} (h : s.Keeps t) : s.Keeps (State.pmcWrapped t b x2) := by
  unfold State.pmcWrapped
  repeat' (first | with_reducible assumption | with_reducible refine State.fset_keeps ?_ | with_reducible refine State.setEvent_keeps ?_
                 | with_reducible refine Keeps.ite ?_ ?_)

theorem State.pmcAdd_keeps {s t : State} {b : Nat} {x2 : Nat} {k : Nat} (h : s.Keeps t) : s.Keeps (State.pmcAdd t b x2 k) := by
  unfold State.pmcAdd
  repeat' (first | with_reducible assumption | with_reducible refine State.pmcWrapped_keeps ?_ | with_reducible refine Keeps.ite ?_ ?_
                 | dsimp only | simp only [keeps_upd])

theorem State.pmc_keeps {s t : State} {ev : Nat} {inst : Nat} {qual : Nat} {k : Nat} (h : s.Keeps t) : s.Keeps (State.pmc t ev inst qual k) := by
  unfold State.pmc
  repeat' (first | with_reducible assumption | with_reducible refine State.pmcAdd_keeps ?_ | with_reducible refine Keeps.ite ?_ ?_ | intro _ _ _
                 | with_reducible refine Keeps.foldl ?_ ?_)

theorem activateRows_keeps {s t : State} {x1 : Nat} {x2 : HbmLoc} {x3 : List Nat} (h : s.Keeps t) : s.Keeps (activateRows x1 x2 x3 t) := by
  induction x1 generalizing t x2 x3 with
  | zero =>
    unfold activateRows
    repeat' (first | cases ‹_ + 1 = Nat.succ _› | with_reducible apply ih | with_reducible assumption | with_reducible refine State.satAdd_keeps ?_
                   | with_reducible refine State.pmc_keeps ?_ | with_reducible refine Keeps.ite ?_ ?_ | simp only [keepsP_mk]
                   | simp only [keeps_upd] | split)
  | succ n ih =>
    unfold activateRows
    repeat' (first | cases ‹_ + 1 = Nat.succ _› | with_reducible apply ih | with_reducible assumption | with_reducible refine State.satAdd_keeps ?_
                   | with_reducible refine State.pmc_keeps ?_ | with_reducible refine Keeps.ite ?_ ?_ | dsimp only
                   | simp only [keeps_upd] | split)

theorem State.activate_keeps {s t : State} {l : HbmLoc} (h : s.Keeps t) : s.Keeps (State.activate t l) := by
  unfold State.activate
  repeat' (first | with_reducible assumption | with_reducible refine activateRows_keeps ?_)

theorem State.hbfUnit_keeps {s t : State} {src : Nat} {x2 : Nat} (h : s.Keeps t) : s.Keeps (State.hbfUnit t src x2) := by
  unfold State.hbfUnit
  repeat' (first | with_reducible assumption | with_reducible refine State.activate_keeps ?_ | with_reducible refine State.pmc_keeps ?_)

theorem State.hbfAccess_keeps {s t : State} {src : Nat} {base : Nat} {size : Nat} {x4 : Nat} (h : s.Keeps t) : s.Keeps (State.hbfAccess t src base
    size x4) := by
  induction x4 generalizing t src base size with
  | zero =>
    unfold State.hbfAccess
    repeat' (first | with_reducible assumption | with_reducible apply ih | with_reducible refine State.free_keeps ?_
                   | with_reducible refine State.hbfUnit_keeps ?_ | with_reducible refine KeepsQ.snd ?_)
  | succ n ih =>
    unfold State.hbfAccess
    repeat' (first | with_reducible assumption | with_reducible apply ih | with_reducible refine State.free_keeps ?_
                   | with_reducible refine State.hbfUnit_keeps ?_ | with_reducible refine KeepsQ.snd ?_)

theorem State.hbtUnitAccess_keeps {s t : State} {src : Nat} {g : Nat} {k : Nat} (h : s.Keeps t) : s.Keeps (State.hbtUnitAccess t src g k) := by
  unfold State.hbtUnitAccess
  repeat' (first | with_reducible assumption | with_reducible refine State.activate_keeps ?_ | with_reducible refine State.pmc_keeps ?_
                 | with_reducible refine State.fset_keeps ?_ | with_reducible refine Keeps.ite ?_ ?_)

theorem State.hbtUnits_keeps {s t : State} {src : Nat} {g : Nat} {lo : Nat} {hi : Nat} (h : s.Keeps t) : s.Keeps (State.hbtUnits t src g lo hi) := by
  unfold State.hbtUnits
  repeat' (first | with_reducible assumption | with_reducible refine State.hbtUnitAccess_keeps ?_ | intro _ _ _
                 | with_reducible refine Keeps.foldl ?_ ?_)

theorem State.unpoison_keeps {s t : State} {g : Nat} {lo : Nat} {hi : Nat} {inside : Bool} (h : s.Keeps t) : s.Keeps (State.unpoison t g lo hi inside)
    := by
  unfold State.unpoison
  repeat' (first | with_reducible assumption | dsimp only | simp only [keeps_upd])

theorem State.hbtWrite_keeps {s t : State} {g : Nat} {f : Nat} {f' : Nat} (h : s.Keeps t) : s.Keeps (State.hbtWrite t g f f') := by
  unfold State.hbtWrite
  repeat' (first | with_reducible assumption | with_reducible refine State.unpoison_keeps ?_ | with_reducible refine State.hbtUnits_keeps ?_
                 | with_reducible refine State.satAdd_keeps ?_ | with_reducible refine Keeps.ite ?_ ?_)

theorem State.hbtInit_keeps {s t : State} {g : Nat} (h : s.Keeps t) : s.Keeps (State.hbtInit t g) := by
  unfold State.hbtInit
  repeat' (first | with_reducible assumption | with_reducible refine State.unpoison_keeps ?_ | with_reducible refine State.hbtUnits_keeps ?_)

theorem State.hbmUe_keeps {s t : State} {l : HbmLoc} {unit : Nat} {src : Nat} {known : Bool} {scrub : Bool} (h : s.Keeps t) : s.Keeps (State.hbmUe t l
    unit src known scrub) := by
  unfold State.hbmUe
  repeat' (first | with_reducible assumption | with_reducible refine State.fset_keeps ?_ | with_reducible refine State.setEvent_keeps ?_
                 | with_reducible refine State.satAdd_keeps ?_ | with_reducible refine State.raiseError_keeps ?_
                 | with_reducible refine Keeps.ite ?_ ?_ | dsimp only | simp only [keeps_upd])

theorem State.hbfFail_keeps {s t : State} {k : Nat} (h : s.Keeps t) : s.Keeps (State.hbfFail t k) := by
  unfold State.hbfFail
  repeat' (first | with_reducible assumption | with_reducible refine State.raiseError_keeps ?_ | with_reducible refine State.setEvent_keeps ?_
                 | with_reducible refine State.fset_keeps ?_)

theorem State.hbfUeAt_keeps {s t : State} {x1 : Nat} {src : Nat} {scrub : Bool} (h : s.Keeps t) : s.Keeps (State.hbfUeAt t x1 src scrub) := by
  unfold State.hbfUeAt
  repeat' (first | with_reducible assumption | with_reducible refine State.hbmUe_keeps ?_ | with_reducible refine State.hbfFail_keeps ?_
                 | with_reducible refine Keeps.ite ?_ ?_)

theorem State.hbfUe_keeps {s t : State} {src : Nat} {region : Nat × Nat} (h : s.Keeps t) : s.Keeps (State.hbfUe t src region) := by
  unfold State.hbfUe
  repeat' (first | with_reducible assumption | with_reducible refine State.free_keeps ?_ | with_reducible refine State.hbfUeAt_keeps ?_
                 | with_reducible refine KeepsQ.snd ?_)

theorem State.hbfUes_keeps {s t : State} {src : Nat} {upsets : List Upset} (h : s.Keeps t) : s.Keeps (State.hbfUes t src upsets) := by
  unfold State.hbfUes
  repeat' (first | with_reducible assumption | with_reducible refine State.hbfUe_keeps ?_ | with_reducible refine Keeps.ite ?_ ?_ | split
                 | intro _ _ _ | with_reducible refine Keeps.foldl ?_ ?_)

theorem State.flits_keeps {s t : State} (h : s.Keeps t) : s.Keeps (State.flits t) := by
  unfold State.flits
  repeat' (first | with_reducible assumption | with_reducible refine State.free_keeps ?_ | with_reducible refine State.pmc_keeps ?_
                 | with_reducible refine Keeps.ite ?_ ?_ | with_reducible refine KeepsQ.snd ?_)

/-! ### Gen -/

theorem State.addJournal_keeps {s t : State} {ctx : WriteCtx} {x2 : Nat} {x3 : Nat} (h : s.Keeps t) : s.Keeps (State.addJournal t ctx x2 x3) := by
  unfold State.addJournal
  repeat' (first | with_reducible assumption | with_reducible refine Keeps.ite ?_ ?_ | dsimp only | simp only [keeps_upd])

theorem State.countDirect_keeps {s t : State} {ctx : WriteCtx} (h : s.Keeps t) : s.Keeps (State.countDirect t ctx) := by
  unfold State.countDirect
  repeat' (first | with_reducible assumption | with_reducible refine State.satAdd_keeps ?_ | with_reducible refine Keeps.ite ?_ ?_)

theorem State.stampGen_keeps {s t : State} {point : Nat} {stamp : Nat} (h : s.Keeps t) : KeepsQ s (State.stampGen t point stamp) := by
  unfold State.stampGen
  repeat' (first | with_reducible assumption | dsimp only | simp only [keepsQ_mk] | simp only [keeps_upd] | split)

theorem State.drainInc_keeps {s t : State} {g : Nat} (h : s.Keeps t) : s.Keeps (State.drainInc t g) := by
  unfold State.drainInc
  repeat' (first | with_reducible assumption | with_reducible refine State.fset_keeps ?_)

theorem State.drainDec_keeps {s t : State} {g : Nat} (h : s.Keeps t) : s.Keeps (State.drainDec t g) := by
  unfold State.drainDec
  repeat' (first | with_reducible assumption | with_reducible refine State.raiseError_keeps ?_ | with_reducible refine State.setEvent_keeps ?_
                 | with_reducible refine State.fset_keeps ?_ | with_reducible refine Keeps.ite ?_ ?_)

end Sys2Proof.Machine
end

