-- ==== Sys2Proof/Laws/KeepsTables.lean ====
section
/-! SUPPORT. What the operations and commands of these parts keep, the queue of waiting commands and the canonical form: the lookup tables, action sets and flow statistics. -/

namespace Sys2Proof.Machine

open Sys2Proof

-- Not every alternative of a `first` is used on every path.
set_option linter.all false

/-! ### Tables -/

theorem State.idxApply_keeps {s t : State} {x1 : IdxTable} {ctx : WriteCtx} {op : VerOp} {idx : Nat} {bits : Nat} {refsOk : Bool} {refs : Nat} (h :
    s.Keeps t) : KeepsES s (State.idxApply t x1 ctx op idx bits refsOk refs) := by
  unfold State.idxApply
  repeat' (first | with_reducible assumption | with_reducible refine State.countDirect_keeps ?_ | with_reducible refine State.addJournal_keeps ?_
                 | dsimp only | simp only [keeps_upd] | with_reducible exact KeepsES.of_error _ _
                 | with_reducible refine KeepsES.of_ok ?_ | split)

theorem State.idxWrite_keeps {s t : State} {c : Cmd} {x2 : IdxTable} {op : Nat} {idx : Nat} {bits : Nat} {refsOk : Nat → Bool} {refs : Nat → Nat} (h :
    s.Keeps t) : KeepsP s (State.idxWrite t c x2 op idx bits refsOk refs) := by
  unfold State.idxWrite
  repeat' (first | with_reducible assumption | with_reducible refine State.idxApply_keeps ?_ | simp only [keepsP_mk] | split
                 | with_reducible refine KeepsES.get (by assumption) ?_)

theorem State.tidyGroups_keeps {s t : State} {x1 : GroupTable} (h : s.Keeps t) : s.Keeps (State.tidyGroups t x1) := by
  unfold State.tidyGroups
  repeat' (first | with_reducible assumption | simp only [keeps_upd])

theorem State.groupApply_keeps {s t : State} {x1 : GroupTable} {ctx : WriteCtx} {op : VerOp} {idx : Nat} {members : List Nat} {refsOk : Bool} {refs :
    Nat} (h : s.Keeps t) : KeepsE s (State.groupApply t x1 ctx op idx members refsOk refs) := by
  unfold State.groupApply
  repeat' (first | with_reducible assumption | with_reducible refine State.tidyGroups_keeps ?_ | with_reducible refine State.idxApply_keeps ?_
                 | simp only [keepsP_mk] | simp only [keeps_upd] | with_reducible exact KeepsE.of_error _ _ | with_reducible refine KeepsE.of_ok ?_
                 | split | with_reducible refine KeepsES.get (by assumption) ?_)

theorem State.groupWrite_keeps {s t : State} {c : Cmd} {x2 : GroupTable} {op : Nat} {idx : Nat} {members : List Nat} {refsOk : Nat → Bool} {refs : Nat
    → Nat} (h : s.Keeps t) : KeepsP s (State.groupWrite t c x2 op idx members refsOk refs) := by
  unfold State.groupWrite
  repeat' (first | with_reducible assumption | with_reducible refine State.groupApply_keeps ?_ | simp only [keepsP_mk] | split
                 | with_reducible refine KeepsE.get' (by assumption) ?_)

theorem State.groupCmd_keeps {s t : State} {c : Cmd} {x2 : GroupTable} {op : Nat} {idx : Nat} {size : Nat} {bytes : Nat} {d : HostData} {valid : Nat →
    Option Nat} {refsOk : List Nat → Nat → Bool} {refs : Nat → Nat} (h : s.Keeps t) : KeepsP s (State.groupCmd t c x2 op idx size bytes d valid refsOk
    refs) := by
  unfold State.groupCmd
  repeat' (first | with_reducible assumption | with_reducible refine State.groupWrite_keeps ?_ | with_reducible refine fail_keeps ?_
                 | simp only [keepsP_mk] | with_reducible refine KeepsP.ite ?_ ?_ | split)

/-! ### Prefix -/

theorem State.lenCreate_keeps {s t : State} {family : Nat} {len : Nat} (h : s.Keeps t) : s.Keeps (State.lenCreate t family len) := by
  unfold State.lenCreate
  repeat' (first | with_reducible assumption | with_reducible refine Keeps.ite ?_ ?_ | dsimp only | simp only [keeps_upd])

theorem State.filtSet_keeps {s t : State} {family : Nat} {vrf : Nat} {len : Nat} {pfx : Nat} (h : s.Keeps t) : s.Keeps (State.filtSet t family vrf len
    pfx) := by
  unfold State.filtSet
  repeat' (first | with_reducible assumption | with_reducible refine Keeps.ite ?_ ?_ | dsimp only | simp only [keeps_upd])

theorem State.filtTidy_keeps {s t : State} (h : s.Keeps t) : s.Keeps (State.filtTidy t) := by
  unfold State.filtTidy
  repeat' (first | with_reducible assumption | dsimp only | simp only [keeps_upd])

theorem State.lpmReport_keeps {s t : State} {index : Nat} {len : Nat} {family : Nat} {table : Nat} {data : Bool} (h : s.Keeps t) : s.Keeps
    (State.lpmReport t index len family table data) := by
  unfold State.lpmReport
  repeat' (first | with_reducible assumption | with_reducible refine State.satAdd_keeps ?_ | with_reducible refine State.fset_keeps ?_
                 | with_reducible refine State.setEvent_keeps ?_ | with_reducible refine State.raiseError_keeps ?_)

theorem State.lpmUpset_keeps {s t : State} {x1 : Upset} (h : s.Keeps t) : s.Keeps (State.lpmUpset t x1) := by
  unfold State.lpmUpset
  repeat' (first | with_reducible assumption | with_reducible refine State.lpmReport_keeps ?_ | dsimp only | simp only [keeps_upd] | split)

theorem State.ovfWatch_keeps {s t u : State} (h : s.Keeps t) : s.Keeps (State.ovfWatch u t) :=
  Keeps.ite (State.setEvent_keeps h) h

theorem State.routeApply_keeps {s t : State} {ctx : WriteCtx} {op : VerOp} {r : Route} (h : s.Keeps t) : KeepsE s (State.routeApply t ctx op r) := by
  unfold State.routeApply
  repeat' (first | with_reducible assumption | with_reducible refine State.lenCreate_keeps ?_ | with_reducible refine State.filtSet_keeps ?_
                 | with_reducible refine State.countDirect_keeps ?_ | with_reducible refine State.addJournal_keeps ?_
                 | with_reducible refine State.ovfWatch_keeps ?_ | with_reducible refine State.filtTidy_keeps ?_
                 | with_reducible refine Keeps.ite ?_ ?_ | simp only [keepsP_mk] | simp only [keeps_upd] | with_reducible exact KeepsE.of_error _ _
                 | with_reducible refine KeepsE.of_ok ?_ | split)

theorem routeWrite_keeps {s t : State} {opcode : Nat} {op : VerOp} {c : Cmd} (h : s.Keeps t) : KeepsX s (routeWrite opcode op c t) := by
  unfold routeWrite
  repeat' (first | with_reducible assumption | with_reducible refine runCmd_keeps ?_ ?_ | with_reducible refine fail_keeps ?_
                 | with_reducible refine State.routeApply_keeps ?_ | simp only [keepsP_mk] | split | intro _ _
                 | with_reducible refine KeepsE.get' (by assumption) ?_)

theorem execLpmInsert_keeps {s t : State} {c : Cmd} (h : s.Keeps t) : KeepsX s (execLpmInsert c t) := by
  unfold execLpmInsert
  repeat' (first | with_reducible assumption | with_reducible refine routeWrite_keeps ?_)

theorem execLpmReplace_keeps {s t : State} {c : Cmd} (h : s.Keeps t) : KeepsX s (execLpmReplace c t) := by
  unfold execLpmReplace
  repeat' (first | with_reducible assumption | with_reducible refine routeWrite_keeps ?_)

theorem execLpmDelete_keeps {s t : State} {c : Cmd} (h : s.Keeps t) : KeepsX s (execLpmDelete c t) := by
  unfold execLpmDelete
  repeat' (first | with_reducible assumption | with_reducible refine routeWrite_keeps ?_)

theorem execLpmRead_keeps {s t : State} {c : Cmd} {upsets : List Upset} (h : s.Keeps t) : KeepsX s (execLpmRead c upsets t) := by
  unfold execLpmRead
  repeat' (first | with_reducible assumption | with_reducible refine runCmd_keeps ?_ ?_ | with_reducible refine fail_keeps ?_
                 | with_reducible refine State.lpmUpset_keeps ?_ | with_reducible refine State.hbfUes_keeps ?_ | with_reducible refine ok_keeps ?_
                 | simp only [keepsP_mk] | with_reducible refine KeepsP.ite ?_ ?_ | split | intro _ _ _ | intro _ _
                 | with_reducible refine Keeps.foldl ?_ ?_)

theorem execLpmLookup_keeps {s t : State} {c : Cmd} {upsets : List Upset} (h : s.Keeps t) : KeepsX s (execLpmLookup c upsets t) := by
  unfold execLpmLookup
  repeat' (first | with_reducible assumption | with_reducible refine runCmd_keeps ?_ ?_ | with_reducible refine fail_keeps ?_
                 | with_reducible refine State.lpmUpset_keeps ?_ | with_reducible refine State.hbfUes_keeps ?_
                 | with_reducible refine State.free_keeps ?_ | with_reducible refine ok_keeps ?_ | dsimp only
                 | with_reducible refine KeepsP.ite ?_ ?_ | with_reducible refine KeepsQ.snd ?_ | split | intro _ _ _ | intro _ _
                 | with_reducible refine Keeps.foldl ?_ ?_)

theorem bulkRun_keeps {s t : State} {ctx : WriteCtx} {x2 : List Nat} {x3 : Nat} (h : s.Keeps t) : KeepsP s (bulkRun ctx x2 x3 t) := by
  induction x2 generalizing t ctx x3 with
  | nil =>
    unfold bulkRun
    repeat' (first | with_reducible assumption | with_reducible apply ih | with_reducible refine State.routeApply_keeps ?_ | simp only [keepsP_mk]
                   | with_reducible refine KeepsP.ite ?_ ?_ | split | with_reducible refine KeepsE.get' (by assumption) ?_)
  | cons a as ih =>
    unfold bulkRun
    repeat' (first | with_reducible assumption | with_reducible apply ih | with_reducible refine State.routeApply_keeps ?_ | simp only [keepsP_mk]
                   | with_reducible refine KeepsP.ite ?_ ?_ | split | with_reducible refine KeepsE.get' (by assumption) ?_)

theorem execLpmBulk_keeps {s t : State} {c : Cmd} {d : HostData} {got : List Byte} (h : s.Keeps t) : KeepsX s (execLpmBulk c d got t) := by
  unfold execLpmBulk
  repeat' (first | with_reducible assumption | with_reducible refine runCmd_keeps ?_ ?_ | with_reducible refine fail_keeps ?_
                 | with_reducible refine bulkRun_keeps ?_ | simp only [keepsP_mk] | with_reducible refine KeepsP.ite ?_ ?_
                 | with_reducible refine KeepsP.fst ?_ | split | intro _ _)

theorem execNhSet_keeps {s t : State} {c : Cmd} (h : s.Keeps t) : KeepsX s (execNhSet c t) := by
  unfold execNhSet
  repeat' (first | with_reducible assumption | with_reducible refine runCmd_keeps ?_ ?_ | with_reducible refine fail_keeps ?_
                 | with_reducible refine State.idxWrite_keeps ?_ | dsimp only | split | intro _ _)

theorem execNhRead_keeps {s t : State} {c : Cmd} (h : s.Keeps t) : KeepsX s (execNhRead c t) := by
  unfold execNhRead
  repeat' (first | with_reducible assumption | with_reducible refine runCmd_keeps ?_ ?_ | with_reducible refine fail_keeps ?_
                 | with_reducible refine ok_keeps ?_ | with_reducible refine KeepsP.ite ?_ ?_ | split | intro _ _)

theorem execEcmpSet_keeps {s t : State} {c : Cmd} {d : HostData} (h : s.Keeps t) : KeepsX s (execEcmpSet c d t) := by
  unfold execEcmpSet
  repeat' (first | with_reducible assumption | with_reducible refine runCmd_keeps ?_ ?_ | with_reducible refine fail_keeps ?_
                 | with_reducible refine State.groupCmd_keeps ?_ | dsimp only | split | intro _ _)

theorem execEcmpRead_keeps {s t : State} {c : Cmd} (h : s.Keeps t) : KeepsX s (execEcmpRead c t) := by
  unfold execEcmpRead
  repeat' (first | with_reducible assumption | with_reducible refine runCmd_keeps ?_ ?_ | with_reducible refine fail_keeps ?_
                 | with_reducible refine State.emit_keeps ?_ | with_reducible refine ok_keeps ?_ | dsimp only
                 | with_reducible refine KeepsP.ite ?_ ?_ | split | intro _ _)

theorem execTableDoubling_keeps {s t : State} {family : Nat} {len : Nat} (h : s.Keeps t) : KeepsX s (execTableDoubling family len t) := by
  unfold execTableDoubling
  repeat' (first | with_reducible assumption | dsimp only | simp only [keeps_upd] | with_reducible refine KeepsX.ite ?_ ?_
                 | with_reducible refine KeepsX.of_next ?_ | split)

theorem execOverflowReturn_keeps {s t : State} {x1 : Nat} (h : s.Keeps t) : KeepsX s (execOverflowReturn x1 t) := by
  unfold execOverflowReturn
  repeat' (first | with_reducible assumption | dsimp only | simp only [keeps_upd] | with_reducible refine KeepsX.of_next ?_ | split)

theorem execFilterRebuild_keeps {s t : State} {family : Nat} {len : Nat} (h : s.Keeps t) : KeepsX s (execFilterRebuild family len t) := by
  unfold execFilterRebuild
  repeat' (first | with_reducible assumption | with_reducible refine State.setEvent_keeps ?_ | dsimp only | simp only [keeps_upd]
                 | with_reducible refine KeepsX.ite ?_ ?_ | with_reducible refine KeepsX.of_next ?_ | split)

theorem execParityRepair_keeps {s t : State} {upsets : List Upset} (h : s.Keeps t) : KeepsX s (execParityRepair upsets t) := by
  unfold execParityRepair
  repeat' (first | with_reducible assumption | with_reducible refine State.lpmUpset_keeps ?_ | with_reducible refine State.hbfUes_keeps ?_
                 | with_reducible refine State.filtTidy_keeps ?_ | dsimp only | simp only [keeps_upd]
                 | with_reducible refine KeepsX.of_next ?_ | intro _ _ _ | with_reducible refine Keeps.foldl ?_ ?_)

theorem shadowRun_keeps {s t : State} {x1 : ShadowUnit} {x2 : List Nat} {x3 : Nat} (hu : ∀ t i x, s.Keeps t → s.Keeps (x1.repair t i x)) (h : s.Keeps
    t) : s.Keeps (shadowRun x1 x2 x3 t) := by
  induction x2 generalizing t x1 x3 with
  | nil =>
    unfold shadowRun
    repeat' (first | apply hu | with_reducible apply ih | with_reducible assumption | with_reducible refine State.satAdd_keeps ?_
                   | with_reducible refine State.fset_keeps ?_ | with_reducible refine State.emit_keeps ?_ | with_reducible refine Keeps.ite ?_ ?_)
  | cons a as ih =>
    unfold shadowRun
    repeat' (first | apply hu | with_reducible apply ih | with_reducible assumption | with_reducible refine State.satAdd_keeps ?_
                   | with_reducible refine State.fset_keeps ?_ | with_reducible refine State.emit_keeps ?_ | with_reducible refine Keeps.ite ?_ ?_)

theorem State.shadowEnd_keeps {s t : State} {x1 : ShadowUnit} (h : s.Keeps t) : s.Keeps (State.shadowEnd t x1) := by
  unfold State.shadowEnd
  repeat' (first | with_reducible assumption | with_reducible refine State.fset_keeps ?_ | with_reducible refine State.setEvent_keeps ?_
                 | with_reducible refine Keeps.ite ?_ ?_)

theorem State.shadowGo_keeps {s t : State} {x1 : ShadowUnit} {master : Nat} (h : s.Keeps t) : s.Keeps (State.shadowGo t x1 master) := by
  unfold State.shadowGo
  repeat' (first | with_reducible assumption | with_reducible refine State.regError_keeps ?_ | with_reducible refine State.fset_keeps ?_
                 | with_reducible refine Keeps.ite ?_ ?_)

theorem State.shadowStop_keeps {s t : State} {x1 : ShadowUnit} (h : s.Keeps t) : s.Keeps (State.shadowStop t x1) := by
  unfold State.shadowStop
  repeat' (first | with_reducible assumption | with_reducible refine State.fset_keeps ?_ | with_reducible refine Keeps.ite ?_ ?_)

theorem State.shadowRecords_keeps {s t : State} {x1 : ShadowUnit} {d : HostData} (hu : ∀ t i x, s.Keeps t → s.Keeps (x1.repair t i x)) (h : s.Keeps t)
    : s.Keeps (State.shadowRecords t x1 d) := by
  unfold State.shadowRecords
  repeat' (first | exact hu | with_reducible assumption | with_reducible refine shadowRun_keeps ?_ ?_
                 | with_reducible refine State.shadowEnd_keeps ?_ | with_reducible refine State.fset_keeps ?_
                 | with_reducible refine Keeps.ite ?_ ?_ | dsimp only | split)

theorem State.lpmRepair_keeps {s t : State} {x : Nat} (h : s.Keeps t) : s.Keeps (State.lpmRepair t x) := by
  unfold State.lpmRepair
  repeat' (first | with_reducible assumption | with_reducible refine State.routeApply_keeps ?_ | with_reducible refine Keeps.ite ?_ ?_
                 | dsimp only | simp only [keeps_upd] | split | with_reducible refine KeepsE.get' (by assumption) ?_)

theorem execLpmShadowDone_keeps {s t : State} {d : HostData} (h : s.Keeps t) : KeepsX s (execLpmShadowDone d t) :=
  KeepsX.of_next (State.shadowRecords_keeps (fun _ _ _ h => State.lpmRepair_keeps h) h)

/-! ### Exact -/

theorem exmOvfWatch_keeps {s t u : State} (h : s.Keeps t) : s.Keeps (exmOvfWatch u t) := by
  unfold exmOvfWatch
  exact Keeps.ite (State.setEvent_keeps h) h

theorem State.exmReport_keeps {s t : State} {e : ExmEntry} {data : Bool} (h : s.Keeps t) : s.Keeps (State.exmReport t e data) := by
  unfold State.exmReport
  repeat' (first | with_reducible assumption | with_reducible refine State.fset_keeps ?_ | with_reducible refine State.satAdd_keeps ?_
                 | with_reducible refine State.setEvent_keeps ?_ | with_reducible refine State.raiseError_keeps ?_)

theorem State.exmUpset_keeps {s t : State} {x1 : Upset} (h : s.Keeps t) : s.Keeps (State.exmUpset t x1) := by
  unfold State.exmUpset
  repeat' (first | with_reducible assumption | with_reducible refine State.exmReport_keeps ?_ | with_reducible refine Keeps.ite ?_ ?_
                 | dsimp only | simp only [keeps_upd] | split)

theorem State.exmLearnedUpdate_keeps {s t : State} {tbl : Nat} {k : Nat} {f : ExmEntry → ExmEntry} (h : s.Keeps t) : s.Keeps (State.exmLearnedUpdate t
    tbl k f) := by
  unfold State.exmLearnedUpdate
  repeat' (first | with_reducible assumption | dsimp only | simp only [keeps_upd])

theorem State.learnEnqueue_keeps {s t : State} {r : LearnReq} (h : s.Keeps t) : s.Keeps (State.learnEnqueue t r) := by
  unfold State.learnEnqueue
  repeat' (first | with_reducible assumption | with_reducible refine State.setEvent_keeps ?_ | with_reducible refine State.satAdd_keeps ?_
                 | with_reducible refine Keeps.ite ?_ ?_ | dsimp only | simp only [keeps_upd])

theorem State.learnFrom_keeps {s t : State} {slice : Nat} {key : Option Nat} {p : Nat} {port : Nat} (h : s.Keeps t) : s.Keeps (State.learnFrom t slice
    key p port) := by
  unfold State.learnFrom
  repeat' (first | with_reducible assumption | with_reducible refine State.learnEnqueue_keeps ?_ | with_reducible refine State.pmc_keeps ?_
                 | with_reducible refine State.exmLearnedUpdate_keeps ?_ | with_reducible refine Keeps.ite ?_ ?_ | dsimp only
                 | simp only [keeps_upd] | split)

theorem State.moveRewrite_keeps {s t : State} {key : Nat} {port : Nat} (h : s.Keeps t) : s.Keeps (State.moveRewrite t key port) := by
  unfold State.moveRewrite
  repeat' (first | with_reducible assumption | with_reducible refine State.exmLearnedUpdate_keeps ?_ | with_reducible refine State.satAdd_keeps ?_
                 | dsimp only | simp only [keeps_upd])

theorem State.moveObserve_keeps {s t : State} {key : Nat} {port : Nat} (h : s.Keeps t) : s.Keeps (State.moveObserve t key port) := by
  unfold State.moveObserve
  repeat' (first | with_reducible assumption | with_reducible refine State.moveRewrite_keeps ?_ | with_reducible refine State.satAdd_keeps ?_
                 | with_reducible refine Keeps.ite ?_ ?_ | dsimp only | simp only [keeps_upd] | split)

theorem State.learnPlace_keeps {s t : State} {key : Nat} {port : Nat} (h : s.Keeps t) : s.Keeps (State.learnPlace t key port) := by
  unfold State.learnPlace
  repeat' (first | with_reducible assumption | with_reducible refine State.setEvent_keeps ?_ | with_reducible refine State.satAdd_keeps ?_
                 | with_reducible refine exmOvfWatch_keeps ?_ | with_reducible refine Keeps.ite ?_ ?_ | dsimp only
                 | simp only [keeps_upd] | split)

theorem execLearnProcess_keeps {s t : State} (h : s.Keeps t) : KeepsX s (execLearnProcess t) := by
  unfold execLearnProcess
  repeat' (first | with_reducible assumption | with_reducible refine State.learnPlace_keeps ?_ | with_reducible refine State.moveObserve_keeps ?_
                 | with_reducible refine Keeps.ite ?_ ?_ | dsimp only | simp only [keeps_upd] | with_reducible refine KeepsX.of_next ?_
                 | split)

theorem execMoveProcess_keeps {s t : State} (h : s.Keeps t) : KeepsX s (execMoveProcess t) := by
  unfold execMoveProcess
  repeat' (first | with_reducible assumption | with_reducible refine State.moveObserve_keeps ?_ | with_reducible refine Keeps.ite ?_ ?_
                 | dsimp only | simp only [keeps_upd] | with_reducible refine KeepsX.ite ?_ ?_ | with_reducible refine KeepsX.of_next ?_
                 | split)

theorem execMoveWindowExpiry_keeps {s t : State} {key : Nat} (h : s.Keeps t) : KeepsX s (execMoveWindowExpiry key t) := by
  unfold execMoveWindowExpiry
  repeat' (first | with_reducible assumption | dsimp only | simp only [keeps_upd] | with_reducible refine KeepsX.of_next ?_)

theorem execAgingSweep_keeps {s t : State} {late : Bool} (h : s.Keeps t) : KeepsX s (execAgingSweep late t) := by
  unfold execAgingSweep
  repeat' (first | with_reducible assumption | with_reducible refine State.setEvent_keeps ?_ | with_reducible refine Keeps.ite ?_ ?_
                 | dsimp only | simp only [keeps_upd] | with_reducible refine KeepsX.ite ?_ ?_ | with_reducible refine KeepsX.of_next ?_)

theorem execAgeRemovalCheck_keeps {s t : State} {cursor : Nat} (h : s.Keeps t) : KeepsX s (execAgeRemovalCheck cursor t) := by
  unfold execAgeRemovalCheck
  repeat' (first | with_reducible assumption | with_reducible refine State.satAdd_keeps ?_ | dsimp only | simp only [keeps_upd]
                 | with_reducible refine KeepsX.ite ?_ ?_ | with_reducible refine KeepsX.of_next ?_ | split)

theorem State.exmFlush_keeps {s t : State} {port : Nat} {dev : Nat} {sel : Nat → Bool} (h : s.Keeps t) : KeepsP s (State.exmFlush t port dev sel) :=
    by
  unfold State.exmFlush
  repeat' (first | with_reducible assumption | with_reducible refine State.setEvent_keeps ?_ | simp only [keepsP_mk] | simp only [keeps_upd])

theorem State.exmApply_keeps {s t : State} {ctx : WriteCtx} {op : VerOp} {k384 : Nat} {result : Nat} {rkind : Nat} (h : s.Keeps t) : KeepsE s
    (State.exmApply t ctx op k384 result rkind) := by
  unfold State.exmApply
  repeat' (first | with_reducible assumption | with_reducible refine State.countDirect_keeps ?_ | with_reducible refine State.addJournal_keeps ?_
                 | with_reducible refine exmOvfWatch_keeps ?_ | simp only [keepsP_mk] | simp only [keeps_upd]
                 | with_reducible exact KeepsE.of_error _ _ | with_reducible refine KeepsE.of_ok ?_ | split)

theorem State.exmWrite_keeps {s t : State} {m : Nat} {op : VerOp} {k384 : Nat} {result : Nat} {rkind : Nat} (h : s.Keeps t) : KeepsP s (State.exmWrite
    t m op k384 result rkind) := by
  unfold State.exmWrite
  repeat' (first | with_reducible assumption | with_reducible refine State.exmApply_keeps ?_ | simp only [keepsP_mk] | split
                 | with_reducible refine KeepsE.get' (by assumption) ?_)

theorem State.exmUnlearn_keeps {s t : State} {k384 : Nat} (h : s.Keeps t) : KeepsP s (State.exmUnlearn t k384) := by
  unfold State.exmUnlearn
  repeat' (first | with_reducible assumption | simp only [keepsP_mk] | simp only [keeps_upd] | with_reducible refine KeepsP.ite ?_ ?_ | split)

theorem exmWriteCmd_keeps {s t : State} {opcode : Nat} {op : VerOp} {c : Cmd} {upsets : List Upset} (h : s.Keeps t) : KeepsX s (exmWriteCmd opcode op
    c upsets t) := by
  unfold exmWriteCmd
  repeat' (first | with_reducible assumption | with_reducible refine runCmd_keeps ?_ ?_ | with_reducible refine fail_keeps ?_
                 | with_reducible refine State.exmWrite_keeps ?_ | with_reducible refine State.exmUpset_keeps ?_
                 | with_reducible refine State.hbfUes_keeps ?_ | simp only [keepsP_mk] | with_reducible refine KeepsP.fst ?_ | split | intro _ _ _
                 | intro _ _ | with_reducible refine Keeps.foldl ?_ ?_)

theorem execExmInsert_keeps {s t : State} {c : Cmd} {upsets : List Upset} (h : s.Keeps t) : KeepsX s (execExmInsert c upsets t) := by
  unfold execExmInsert
  repeat' (first | with_reducible assumption | with_reducible refine exmWriteCmd_keeps ?_)

theorem execExmReplace_keeps {s t : State} {c : Cmd} {upsets : List Upset} (h : s.Keeps t) : KeepsX s (execExmReplace c upsets t) := by
  unfold execExmReplace
  repeat' (first | with_reducible assumption | with_reducible refine exmWriteCmd_keeps ?_)

theorem execExmDelete_keeps {s t : State} {c : Cmd} {upsets : List Upset} (h : s.Keeps t) : KeepsX s (execExmDelete c upsets t) := by
  unfold execExmDelete
  repeat' (first | with_reducible assumption | with_reducible refine exmWriteCmd_keeps ?_)

theorem execExmRead_keeps {s t : State} {c : Cmd} {upsets : List Upset} (h : s.Keeps t) : KeepsX s (execExmRead c upsets t) := by
  unfold execExmRead
  repeat' (first | with_reducible assumption | with_reducible refine runCmd_keeps ?_ ?_ | with_reducible refine fail_keeps ?_
                 | with_reducible refine State.exmUpset_keeps ?_ | with_reducible refine State.hbfUes_keeps ?_ | with_reducible refine ok_keeps ?_
                 | simp only [keepsP_mk] | split | intro _ _ _ | intro _ _ | with_reducible refine Keeps.foldl ?_ ?_)

theorem execExmUnlearn_keeps {s t : State} {c : Cmd} {upsets : List Upset} (h : s.Keeps t) : KeepsX s (execExmUnlearn c upsets t) := by
  unfold execExmUnlearn
  repeat' (first | with_reducible assumption | with_reducible refine runCmd_keeps ?_ ?_ | with_reducible refine fail_keeps ?_
                 | with_reducible refine State.exmUnlearn_keeps ?_ | with_reducible refine State.exmUpset_keeps ?_
                 | with_reducible refine State.hbfUes_keeps ?_ | simp only [keepsP_mk] | with_reducible refine KeepsP.fst ?_ | split | intro _ _ _
                 | intro _ _ | with_reducible refine Keeps.foldl ?_ ?_)

theorem execExmNext_keeps {s t : State} {c : Cmd} {upsets : List Upset} (h : s.Keeps t) : KeepsX s (execExmNext c upsets t) := by
  unfold execExmNext
  repeat' (first | with_reducible assumption | with_reducible refine runCmd_keeps ?_ ?_ | with_reducible refine fail_keeps ?_
                 | with_reducible refine State.exmUpset_keeps ?_ | with_reducible refine State.hbfUes_keeps ?_ | with_reducible refine ok_keeps ?_
                 | with_reducible refine State.emit_keeps ?_ | dsimp only | with_reducible refine KeepsP.ite ?_ ?_ | split | intro _ _ _
                 | intro _ _ | with_reducible refine Keeps.foldl ?_ ?_)

theorem execExmSearch_keeps {s t : State} {c : Cmd} {upsets : List Upset} (h : s.Keeps t) : KeepsX s (execExmSearch c upsets t) := by
  unfold execExmSearch
  repeat' (first | with_reducible assumption | with_reducible refine runCmd_keeps ?_ ?_ | with_reducible refine fail_keeps ?_
                 | with_reducible refine State.exmUpset_keeps ?_ | with_reducible refine State.hbfUes_keeps ?_
                 | with_reducible refine State.emit_keeps ?_ | with_reducible refine State.free_keeps ?_ | with_reducible refine ok_keeps ?_
                 | dsimp only | with_reducible refine KeepsP.ite ?_ ?_ | with_reducible refine KeepsQ.snd ?_ | split | intro _ _ _
                 | intro _ _ | with_reducible refine Keeps.foldl ?_ ?_)

theorem execExmFlushPort_keeps {s t : State} {c : Cmd} (h : s.Keeps t) : KeepsX s (execExmFlushPort c t) := by
  unfold execExmFlushPort
  repeat' (first | with_reducible assumption | with_reducible refine runCmd_keeps ?_ ?_ | with_reducible refine fail_keeps ?_
                 | with_reducible refine State.exmFlush_keeps ?_ | with_reducible refine ok_keeps ?_ | dsimp only
                 | with_reducible refine KeepsP.ite ?_ ?_ | with_reducible refine KeepsP.fst ?_ | split | intro _ _)

theorem State.winFill_keeps {s t : State} {v : Ver ExmEntry} (h : s.Keeps t) : s.Keeps (State.winFill t v) := by
  unfold State.winFill
  repeat' (first | with_reducible assumption | with_reducible refine State.fset_keeps ?_ | with_reducible refine State.setReg_keeps ?_ | intro _ _ _
                 | with_reducible refine Keeps.foldl ?_ ?_)

theorem State.winRun_keeps {s t : State} {m : Nat} (h : s.Keeps t) : s.Keeps (State.winRun t m) := by
  unfold State.winRun
  repeat' (first | with_reducible assumption | with_reducible refine State.winFill_keeps ?_ | with_reducible refine State.exmWrite_keeps ?_
                 | with_reducible refine State.exmUnlearn_keeps ?_ | with_reducible refine State.exmFlush_keeps ?_
                 | with_reducible refine State.setEvent_keeps ?_ | with_reducible refine State.fset_keeps ?_ | simp only [keepsP_mk]
                 | with_reducible refine KeepsP.ite ?_ ?_ | with_reducible refine KeepsP.fst ?_ | split)

theorem State.exmRepair_keeps {s t : State} {x : Nat} (h : s.Keeps t) : s.Keeps (State.exmRepair t x) := by
  unfold State.exmRepair
  repeat' (first | with_reducible assumption | with_reducible refine State.exmApply_keeps ?_ | with_reducible refine Keeps.ite ?_ ?_
                 | dsimp only | simp only [keeps_upd] | split | with_reducible refine KeepsE.get' (by assumption) ?_)

theorem execExmShadowDone_keeps {s t : State} {d : HostData} (h : s.Keeps t) : KeepsX s (execExmShadowDone d t) :=
  KeepsX.of_next (State.shadowRecords_keeps (fun _ _ _ h => State.exmRepair_keeps h) h)

/-! ### Cam -/

theorem State.camApply_keeps {s t : State} {ctx : WriteCtx} {op : VerOp} {i : Nat} {j : Nat} {bits : Nat} (h : s.Keeps t) : KeepsE s (State.camApply t
    ctx op i j bits) := by
  unfold State.camApply
  repeat' (first | with_reducible assumption | with_reducible refine State.countDirect_keeps ?_ | with_reducible refine State.addJournal_keeps ?_
                 | simp only [keepsP_mk] | simp only [keeps_upd] | with_reducible exact KeepsE.of_error _ _ | with_reducible refine KeepsE.of_ok ?_
                 | split)

theorem State.camWriteNow_keeps {s t : State} {opcode : Nat} {c : Cmd} (h : s.Keeps t) : KeepsP s (State.camWriteNow t opcode c) := by
  unfold State.camWriteNow
  repeat' (first | with_reducible assumption | with_reducible refine State.camApply_keeps ?_ | with_reducible refine ok_keeps ?_
                 | simp only [keepsP_mk] | with_reducible refine KeepsP.ite ?_ ?_ | split | with_reducible refine KeepsE.get' (by assumption) ?_)

theorem camWriteCmd_keeps {s t : State} {opcode : Nat} {lo : Nat} {a0 : List (Nat × Nat)} {c : Cmd} (h : s.Keeps t) : KeepsX s (camWriteCmd opcode lo
    a0 c t) := by
  unfold camWriteCmd
  repeat' (first | with_reducible assumption | with_reducible refine runCmd_keeps ?_ ?_ | with_reducible refine fail_keeps ?_
                 | with_reducible refine State.camWriteNow_keeps ?_ | simp only [keepsP_mk] | simp only [keeps_upd]
                 | with_reducible refine KeepsP.ite ?_ ?_ | split | intro _ _)

theorem execCamInsert_keeps {s t : State} {c : Cmd} (h : s.Keeps t) : KeepsX s (execCamInsert c t) := by
  unfold execCamInsert
  repeat' (first | with_reducible assumption | with_reducible refine camWriteCmd_keeps ?_)

theorem execCamReplace_keeps {s t : State} {c : Cmd} (h : s.Keeps t) : KeepsX s (execCamReplace c t) := by
  unfold execCamReplace
  repeat' (first | with_reducible assumption | with_reducible refine camWriteCmd_keeps ?_)

theorem execCamDelete_keeps {s t : State} {c : Cmd} (h : s.Keeps t) : KeepsX s (execCamDelete c t) := by
  unfold execCamDelete
  repeat' (first | with_reducible assumption | with_reducible refine camWriteCmd_keeps ?_)

theorem execCamRead_keeps {s t : State} {c : Cmd} (h : s.Keeps t) : KeepsX s (execCamRead c t) := by
  unfold execCamRead
  repeat' (first | with_reducible assumption | with_reducible refine runCmd_keeps ?_ ?_ | with_reducible refine fail_keeps ?_
                 | with_reducible refine ok_keeps ?_ | with_reducible refine State.emit_keeps ?_ | with_reducible refine KeepsP.ite ?_ ?_ | split
                 | intro _ _)

theorem execCamOcc_keeps {s t : State} {c : Cmd} (h : s.Keeps t) : KeepsX s (execCamOcc c t) := by
  unfold execCamOcc
  repeat' (first | with_reducible assumption | with_reducible refine runCmd_keeps ?_ ?_ | with_reducible refine fail_keeps ?_
                 | with_reducible refine ok_keeps ?_ | with_reducible refine State.emit_keeps ?_ | split | intro _ _)

theorem execCamSearch_keeps {s t : State} {c : Cmd} (h : s.Keeps t) : KeepsX s (execCamSearch c t) := by
  unfold execCamSearch
  repeat' (first | with_reducible assumption | with_reducible refine runCmd_keeps ?_ ?_ | with_reducible refine fail_keeps ?_
                 | with_reducible refine ok_keeps ?_ | with_reducible refine KeepsP.ite ?_ ?_ | split | intro _ _)

theorem State.camMoveStart_keeps {s t : State} {m : CamMove} (h : s.Keeps t) : KeepsP s (State.camMoveStart t m) := by
  unfold State.camMoveStart
  repeat' (first | with_reducible assumption | with_reducible refine fail_keeps ?_ | with_reducible refine State.fset_keeps ?_
                 | simp only [keepsP_mk] | simp only [keeps_upd] | with_reducible refine KeepsP.ite ?_ ?_ | split)

theorem execCamMove_keeps {s t : State} {c : Cmd} (h : s.Keeps t) : KeepsX s (execCamMove c t) := by
  unfold execCamMove
  repeat' (first | with_reducible assumption | with_reducible refine runCmd_keeps ?_ ?_ | with_reducible refine fail_keeps ?_
                 | with_reducible refine State.camMoveStart_keeps ?_ | simp only [keepsP_mk] | simp only [keeps_upd]
                 | with_reducible refine KeepsP.ite ?_ ?_ | split | intro _ _)

theorem camNext_keeps {s t : State} {x1 : List CamMove} (h : s.Keeps t) : s.Keeps (camNext x1 t) := by
  induction x1 generalizing t with
  | nil =>
    unfold camNext
    repeat' (first | with_reducible assumption | with_reducible apply ih | with_reducible refine State.complete_keeps ?_
                   | with_reducible refine State.camMoveStart_keeps ?_ | with_reducible refine Keeps.ite ?_ ?_ | simp only [keepsP_mk]
                   | simp only [keeps_upd] | split | with_reducible refine KeepsP.get (by assumption) ?_)
  | cons a as ih =>
    unfold camNext
    repeat' (first | with_reducible assumption | with_reducible apply ih | with_reducible refine State.complete_keeps ?_
                   | with_reducible refine State.camMoveStart_keeps ?_ | with_reducible refine Keeps.ite ?_ ?_ | dsimp only
                   | simp only [keeps_upd] | split | with_reducible refine KeepsP.get (by assumption) ?_)

theorem State.camResume_keeps {s t : State} (h : s.Keeps t) : s.Keeps (State.camResume t) := by
  unfold State.camResume
  repeat' (first | with_reducible assumption | with_reducible refine camNext_keeps ?_ | dsimp only | simp only [keeps_upd])

theorem camHeldRun_keeps {s t : State} {x1 : List (Nat × Cmd)} (h : s.Keeps t) : s.Keeps (camHeldRun x1 t) := by
  induction x1 generalizing t with
  | nil =>
    unfold camHeldRun
    repeat' (first | with_reducible assumption | with_reducible apply ih | with_reducible refine State.camWriteNow_keeps ?_
                   | with_reducible refine State.complete_keeps ?_ | with_reducible refine Keeps.ite ?_ ?_ | simp only [keepsP_mk]
                   | simp only [keeps_upd] | split | with_reducible refine KeepsP.get (by assumption) ?_)
  | cons a as ih =>
    unfold camHeldRun
    repeat' (first | with_reducible assumption | with_reducible apply ih | with_reducible refine State.camWriteNow_keeps ?_
                   | with_reducible refine State.complete_keeps ?_ | with_reducible refine Keeps.ite ?_ ?_ | dsimp only
                   | simp only [keeps_upd] | split | with_reducible refine KeepsP.get (by assumption) ?_)

theorem State.camUpset_keeps {s t : State} {x1 : Upset} (h : s.Keeps t) : s.Keeps (State.camUpset t x1) := by
  unfold State.camUpset
  repeat' (first | with_reducible assumption | with_reducible refine State.fset_keeps ?_ | with_reducible refine State.satAdd_keeps ?_
                 | with_reducible refine State.raiseError_keeps ?_ | with_reducible refine State.setEvent_keeps ?_
                 | with_reducible refine Keeps.ite ?_ ?_ | dsimp only | simp only [keeps_upd])

theorem State.camRepairSlot_keeps {s t : State} {i : Nat} (h : s.Keeps t) : s.Keeps (State.camRepairSlot t i) := by
  unfold State.camRepairSlot
  repeat' (first | with_reducible assumption | with_reducible refine State.fset_keeps ?_ | with_reducible refine State.setEvent_keeps ?_
                 | with_reducible refine State.raiseError_keeps ?_ | with_reducible refine Keeps.ite ?_ ?_ | dsimp only
                 | simp only [keeps_upd])

theorem execCamParityRepair_keeps {s t : State} {upsets : List Upset} (h : s.Keeps t) : KeepsX s (execCamParityRepair upsets t) := by
  unfold execCamParityRepair
  repeat' (first | with_reducible assumption | with_reducible refine State.camUpset_keeps ?_ | with_reducible refine State.camRepairSlot_keeps ?_
                 | dsimp only | with_reducible refine KeepsX.of_next ?_ | intro _ _ _ | with_reducible refine Keeps.foldl ?_ ?_)

theorem State.camRepair_keeps {s t : State} {slot : Nat} {rec' : Nat} (h : s.Keeps t) : s.Keeps (State.camRepair t slot rec') := by
  unfold State.camRepair
  repeat' (first | with_reducible assumption | with_reducible refine State.camApply_keeps ?_ | with_reducible refine Keeps.ite ?_ ?_
                 | dsimp only | split | with_reducible refine KeepsE.get' (by assumption) ?_)

theorem execCamShadowDone_keeps {s t : State} {d : HostData} (h : s.Keeps t) : KeepsX s (execCamShadowDone d t) :=
  KeepsX.of_next (State.shadowRecords_keeps (fun _ _ _ h => State.camRepair_keeps h) h)

/-! ### Action -/

theorem IdxTable.mark_keeps {s t : State} {x1 : IdxTable} {i : Nat} (h : s.Keeps t) : s.Keeps (IdxTable.mark x1 i t) := by
  unfold IdxTable.mark
  repeat' (first | with_reducible assumption | dsimp only | simp only [keeps_upd])

theorem State.actReport_keeps {s t : State} {index : Nat} {table : Nat} (h : s.Keeps t) : s.Keeps (State.actReport t index table) := by
  unfold State.actReport
  repeat' (first | with_reducible assumption | with_reducible refine State.fset_keeps ?_ | with_reducible refine State.satAdd_keeps ?_)

theorem State.polPut_keeps {s t : State} {i : Nat} {p : Policer} (h : s.Keeps t) : s.Keeps (State.polPut t i p) := by
  unfold State.polPut
  repeat' (first | with_reducible assumption | dsimp only | simp only [keeps_upd])

theorem State.actUpset_keeps {s t : State} {x1 : Upset} (h : s.Keeps t) : s.Keeps (State.actUpset t x1) := by
  unfold State.actUpset
  repeat' (first | with_reducible assumption | with_reducible refine State.setEvent_keeps ?_ | with_reducible refine State.actReport_keeps ?_
                 | with_reducible refine IdxTable.mark_keeps ?_ | with_reducible refine State.raiseError_keeps ?_
                 | with_reducible refine State.polPut_keeps ?_ | dsimp only | simp only [keeps_upd] | split)

theorem execActWrite_keeps {s t : State} {c : Cmd} (h : s.Keeps t) : KeepsX s (execActWrite c t) := by
  unfold execActWrite
  repeat' (first | with_reducible assumption | with_reducible refine runCmd_keeps ?_ ?_ | with_reducible refine fail_keeps ?_
                 | with_reducible refine State.idxWrite_keeps ?_ | dsimp only | split | intro _ _)

theorem execActRead_keeps {s t : State} {c : Cmd} (h : s.Keeps t) : KeepsX s (execActRead c t) := by
  unfold execActRead
  repeat' (first | with_reducible assumption | with_reducible refine runCmd_keeps ?_ ?_ | with_reducible refine fail_keeps ?_
                 | with_reducible refine ok_keeps ?_ | with_reducible refine State.emit_keeps ?_ | split | intro _ _)

theorem execPolbWrite_keeps {s t : State} {c : Cmd} (h : s.Keeps t) : KeepsX s (execPolbWrite c t) := by
  unfold execPolbWrite
  repeat' (first | with_reducible assumption | with_reducible refine runCmd_keeps ?_ ?_ | with_reducible refine fail_keeps ?_
                 | with_reducible refine State.idxWrite_keeps ?_ | dsimp only | split | intro _ _)

theorem execPolbRead_keeps {s t : State} {c : Cmd} (h : s.Keeps t) : KeepsX s (execPolbRead c t) := by
  unfold execPolbRead
  repeat' (first | with_reducible assumption | with_reducible refine runCmd_keeps ?_ ?_ | with_reducible refine fail_keeps ?_
                 | with_reducible refine ok_keeps ?_ | split | intro _ _)

theorem State.policerRun_keeps {s t : State} {i : Nat} {pktLen : Nat} {input : Colour} (h : s.Keeps t) : KeepsP s (State.policerRun t i pktLen input)
    := by
  unfold State.policerRun
  repeat' (first | with_reducible assumption | with_reducible refine State.polPut_keeps ?_ | simp only [keepsP_mk]
                 | with_reducible refine KeepsP.ite ?_ ?_)

theorem execPolSet_keeps {s t : State} {c : Cmd} (h : s.Keeps t) : KeepsX s (execPolSet c t) := by
  unfold execPolSet
  repeat' (first | with_reducible assumption | with_reducible refine runCmd_keeps ?_ ?_ | with_reducible refine fail_keeps ?_
                 | with_reducible refine ok_keeps ?_ | with_reducible refine State.polPut_keeps ?_ | dsimp only | split | intro _ _)

theorem execPolRead_keeps {s t : State} {c : Cmd} (h : s.Keeps t) : KeepsX s (execPolRead c t) := by
  unfold execPolRead
  repeat' (first | with_reducible assumption | with_reducible refine runCmd_keeps ?_ ?_ | with_reducible refine fail_keeps ?_
                 | with_reducible refine ok_keeps ?_ | with_reducible refine State.emit_keeps ?_ | split | intro _ _)

theorem execReplWrite_keeps {s t : State} {c : Cmd} {d : HostData} (h : s.Keeps t) : KeepsX s (execReplWrite c d t) := by
  unfold execReplWrite
  repeat' (first | with_reducible assumption | with_reducible refine runCmd_keeps ?_ ?_ | with_reducible refine fail_keeps ?_
                 | with_reducible refine State.groupCmd_keeps ?_ | dsimp only | split | intro _ _)

theorem execReplRead_keeps {s t : State} {c : Cmd} (h : s.Keeps t) : KeepsX s (execReplRead c t) := by
  unfold execReplRead
  repeat' (first | with_reducible assumption | with_reducible refine runCmd_keeps ?_ ?_ | with_reducible refine fail_keeps ?_
                 | with_reducible refine ok_keeps ?_ | with_reducible refine State.emit_keeps ?_ | with_reducible refine KeepsP.ite ?_ ?_ | split
                 | intro _ _)

theorem State.flowLeave_keeps {s t : State} {i : Nat} (h : s.Keeps t) : s.Keeps (State.flowLeave t i) := by
  unfold State.flowLeave
  repeat' (first | with_reducible assumption | with_reducible refine State.setEvent_keeps ?_ | with_reducible refine State.satAdd_keeps ?_
                 | with_reducible refine Keeps.ite ?_ ?_ | dsimp only | simp only [keeps_upd] | split)

theorem State.flowCount_keeps {s t : State} {i : Nat} {pktLen : Nat} {evict : Option Nat} (h : s.Keeps t) : s.Keeps (State.flowCount t i pktLen evict)
    := by
  unfold State.flowCount
  repeat' (first | with_reducible assumption | with_reducible refine State.flowLeave_keeps ?_ | with_reducible refine Keeps.ite ?_ ?_
                 | dsimp only | simp only [keeps_upd] | split)

theorem flowDrain_keeps {s t : State} {bad : List Nat} {x2 : List (Nat × FlowPair)} (h : s.Keeps t) : s.Keeps (flowDrain bad x2 t) := by
  induction x2 generalizing t bad with
  | nil =>
    unfold flowDrain
    repeat' (first | with_reducible assumption | with_reducible apply ih | with_reducible refine State.raiseError_keeps ?_
                   | with_reducible refine State.actReport_keeps ?_ | with_reducible refine State.hbfUeAt_keeps ?_
                   | with_reducible refine State.hbfUnit_keeps ?_ | with_reducible refine State.setEvent_keeps ?_
                   | with_reducible refine Keeps.ite ?_ ?_ | simp only [keepsP_mk] | simp only [keeps_upd])
  | cons a as ih =>
    unfold flowDrain
    repeat' (first | with_reducible assumption | with_reducible apply ih | with_reducible refine State.raiseError_keeps ?_
                   | with_reducible refine State.actReport_keeps ?_ | with_reducible refine State.hbfUeAt_keeps ?_
                   | with_reducible refine State.hbfUnit_keeps ?_ | with_reducible refine State.setEvent_keeps ?_
                   | with_reducible refine Keeps.ite ?_ ?_ | dsimp only | simp only [keeps_upd])

theorem execFstFlushSweep_keeps {s t : State} {upsets : List Upset} (h : s.Keeps t) : KeepsX s (execFstFlushSweep upsets t) := by
  unfold execFstFlushSweep
  repeat' (first | with_reducible assumption | with_reducible refine flowDrain_keeps ?_ | dsimp only | simp only [keeps_upd]
                 | with_reducible refine KeepsX.ite ?_ ?_ | with_reducible refine KeepsX.of_next ?_)

theorem State.flowClear_keeps {s t : State} {i : Nat} (h : s.Keeps t) : s.Keeps (State.flowClear t i) := by
  unfold State.flowClear
  repeat' (first | with_reducible assumption | dsimp only | simp only [keeps_upd])

theorem execFstRead_keeps {s t : State} {c : Cmd} (h : s.Keeps t) : KeepsX s (execFstRead c t) := by
  unfold execFstRead
  repeat' (first | with_reducible assumption | with_reducible refine runCmd_keeps ?_ ?_ | with_reducible refine fail_keeps ?_
                 | with_reducible refine ok_keeps ?_ | with_reducible refine State.flowClear_keeps ?_ | dsimp only | split | intro _ _)

theorem execFstBulk_keeps {s t : State} {c : Cmd} (h : s.Keeps t) : KeepsX s (execFstBulk c t) := by
  unfold execFstBulk
  repeat' (first | with_reducible assumption | with_reducible refine runCmd_keeps ?_ ?_ | with_reducible refine fail_keeps ?_
                 | with_reducible refine State.emit_keeps ?_ | with_reducible refine ok_keeps ?_ | with_reducible refine State.flowClear_keeps ?_
                 | dsimp only | split | intro _ _ _ | intro _ _ | with_reducible refine Keeps.foldl ?_ ?_)

theorem execEditWrite_keeps {s t : State} {c : Cmd} (h : s.Keeps t) : KeepsX s (execEditWrite c t) := by
  unfold execEditWrite
  repeat' (first | with_reducible assumption | with_reducible refine runCmd_keeps ?_ ?_ | with_reducible refine fail_keeps ?_
                 | with_reducible refine State.idxWrite_keeps ?_ | dsimp only | split | intro _ _)

theorem execEditRead_keeps {s t : State} {c : Cmd} (h : s.Keeps t) : KeepsX s (execEditRead c t) := by
  unfold execEditRead
  repeat' (first | with_reducible assumption | with_reducible refine runCmd_keeps ?_ ?_ | with_reducible refine fail_keeps ?_
                 | with_reducible refine ok_keeps ?_ | split | intro _ _)

theorem execMirrorWrite_keeps {s t : State} {c : Cmd} (h : s.Keeps t) : KeepsX s (execMirrorWrite c t) := by
  unfold execMirrorWrite
  repeat' (first | with_reducible assumption | with_reducible refine runCmd_keeps ?_ ?_ | with_reducible refine fail_keeps ?_
                 | with_reducible refine State.idxWrite_keeps ?_ | dsimp only | split | intro _ _)

theorem execMirrorRead_keeps {s t : State} {c : Cmd} (h : s.Keeps t) : KeepsX s (execMirrorRead c t) := by
  unfold execMirrorRead
  repeat' (first | with_reducible assumption | with_reducible refine runCmd_keeps ?_ ?_ | with_reducible refine fail_keeps ?_
                 | with_reducible refine ok_keeps ?_ | split | intro _ _)

theorem execEncapWrite_keeps {s t : State} {c : Cmd} (h : s.Keeps t) : KeepsX s (execEncapWrite c t) := by
  unfold execEncapWrite
  repeat' (first | with_reducible assumption | with_reducible refine runCmd_keeps ?_ ?_ | with_reducible refine fail_keeps ?_
                 | with_reducible refine State.idxWrite_keeps ?_ | dsimp only | split | intro _ _)

theorem execEncapRead_keeps {s t : State} {c : Cmd} (h : s.Keeps t) : KeepsX s (execEncapRead c t) := by
  unfold execEncapRead
  repeat' (first | with_reducible assumption | with_reducible refine runCmd_keeps ?_ ?_ | with_reducible refine fail_keeps ?_
                 | with_reducible refine ok_keeps ?_ | with_reducible refine State.emit_keeps ?_ | split | intro _ _)

theorem execTmplWrite_keeps {s t : State} {c : Cmd} (h : s.Keeps t) : KeepsX s (execTmplWrite c t) := by
  unfold execTmplWrite
  repeat' (first | with_reducible assumption | with_reducible refine runCmd_keeps ?_ ?_ | with_reducible refine fail_keeps ?_
                 | with_reducible refine State.idxWrite_keeps ?_ | dsimp only | split | intro _ _)

theorem execTmplRead_keeps {s t : State} {c : Cmd} (h : s.Keeps t) : KeepsX s (execTmplRead c t) := by
  unfold execTmplRead
  repeat' (first | with_reducible assumption | with_reducible refine runCmd_keeps ?_ ?_ | with_reducible refine fail_keeps ?_
                 | with_reducible refine ok_keeps ?_ | with_reducible refine State.emit_keeps ?_ | with_reducible refine KeepsP.ite ?_ ?_ | split
                 | intro _ _)

theorem State.edtUpset_keeps {s t : State} {x1 : Upset} (h : s.Keeps t) : s.Keeps (State.edtUpset t x1) := by
  unfold State.edtUpset
  repeat' (first | with_reducible assumption | with_reducible refine State.fset_keeps ?_ | with_reducible refine State.satAdd_keeps ?_
                 | with_reducible refine IdxTable.mark_keeps ?_ | with_reducible refine State.setEvent_keeps ?_
                 | with_reducible refine State.raiseError_keeps ?_ | dsimp only | split)

theorem State.upset_keeps {s t : State} {x1 : Upset} (h : s.Keeps t) : s.Keeps (State.upset t x1) := by
  unfold State.upset
  repeat' (first | with_reducible assumption | with_reducible refine State.lpmUpset_keeps ?_ | with_reducible refine State.exmUpset_keeps ?_
                 | with_reducible refine State.camUpset_keeps ?_ | with_reducible refine State.actUpset_keeps ?_
                 | with_reducible refine State.edtUpset_keeps ?_ | split)

end Sys2Proof.Machine
end

