-- ==== Sys2Proof/Laws/KeepsQueues.lean ====
section
/-! SUPPORT. What the operations and commands of these parts keep, the queue of waiting commands and the canonical form: queues, cells, buffers, scheduler, fabric and deadline unit. -/

namespace Sys2Proof.Machine

open Sys2Proof

-- Not every alternative of a `first` is used on every path.
set_option linter.all false

/-! ### Queue -/

theorem State.mibAdd_keeps {s t : State} {k : Nat} {counter : Nat} {x3 : Nat} (h : s.Keeps t) : s.Keeps (State.mibAdd t k counter x3) := by
  unfold State.mibAdd
  repeat' (first | with_reducible assumption | with_reducible refine State.pmc_keeps ?_ | with_reducible refine Keeps.ite ?_ ?_
                 | dsimp only | simp only [keeps_upd])

theorem State.dlnAdd_keeps {s t : State} {obj : Nat} {counter : Nat} (h : s.Keeps t) : s.Keeps (State.dlnAdd t obj counter) := by
  unfold State.dlnAdd
  repeat' (first | with_reducible assumption | dsimp only | simp only [keeps_upd])

theorem State.setQueue_keeps {s t : State} {q : Nat} {v : Queue} (h : s.Keeps t) : s.Keeps (State.setQueue t q v) := by
  unfold State.setQueue
  repeat' (first | with_reducible assumption | dsimp only | simp only [keeps_upd])

theorem State.setNode_keeps {s t : State} {level : Nat} {i : Nat} {v : Node} (h : s.Keeps t) : s.Keeps (State.setNode t level i v) := by
  unfold State.setNode
  repeat' (first | with_reducible assumption | dsimp only | simp only [keeps_upd])

theorem State.setWst_keeps {s t : State} {depth : Nat} {i : Nat} {w : Wst} (h : s.Keeps t) : s.Keeps (State.setWst t depth i w) := by
  unfold State.setWst
  repeat' (first | with_reducible assumption | with_reducible refine State.setQueue_keeps ?_ | with_reducible refine State.setNode_keeps ?_
                 | with_reducible refine Keeps.ite ?_ ?_)

theorem rebacklog_keeps {s t : State} {x1 : Nat} {x2 : Nat} {x3 : Nat} (h : s.Keeps t) : s.Keeps (rebacklog x1 x2 x3 t) := by
  induction x1 generalizing t x2 x3 with
  | zero =>
    unfold rebacklog
    repeat' (first | with_reducible assumption | with_reducible apply ih | with_reducible refine State.setWst_keeps ?_
                   | with_reducible refine Keeps.ite ?_ ?_)
  | succ n ih =>
    unfold rebacklog
    repeat' (first | with_reducible assumption | with_reducible apply ih | with_reducible refine State.setWst_keeps ?_
                   | with_reducible refine Keeps.ite ?_ ?_)

theorem State.txDescDone_keeps {s t : State} {ring : Nat} {slot : Nat} {stamp : Nat} {status : Nat} (h : s.Keeps t) : s.Keeps (State.txDescDone t ring
    slot stamp status) := by
  unfold State.txDescDone
  repeat' (first | with_reducible assumption | with_reducible refine State.emit_keeps ?_)

theorem State.directDone_keeps {s t : State} {p : Pkt} {stamp : Option Nat} {status : Nat} (h : s.Keeps t) : s.Keeps (State.directDone t p stamp
    status) := by
  unfold State.directDone
  repeat' (first | with_reducible assumption | with_reducible refine State.txDescDone_keeps ?_ | with_reducible refine State.free_keeps ?_
                 | dsimp only | with_reducible refine KeepsQ.snd ?_ | split | intro _ _ _ | with_reducible refine Keeps.foldl ?_ ?_)

theorem State.pairAdd_keeps {s t : State} {lo : Nat} {hi : Nat} {x3 : Nat} (h : s.Keeps t) : s.Keeps (State.pairAdd t lo hi x3) := by
  unfold State.pairAdd
  repeat' (first | with_reducible assumption | with_reducible refine State.setReg_keeps ?_)

theorem State.countDrop_keeps {s t : State} {reason : Nat} {node : Option Nat} (h : s.Keeps t) : s.Keeps (State.countDrop t reason node) := by
  unfold State.countDrop
  repeat' (first | with_reducible assumption | with_reducible refine State.pairAdd_keeps ?_ | with_reducible refine State.pmc_keeps ?_
                 | dsimp only | simp only [keeps_upd] | split)

/-! ### Cells -/

theorem State.setFabLink_keeps {s t : State} {l : Nat} {v : FabLink} (h : s.Keeps t) : s.Keeps (State.setFabLink t l v) := by
  unfold State.setFabLink
  repeat' (first | with_reducible assumption | dsimp only | simp only [keeps_upd])

theorem State.sendOn_keeps {s t : State} {l : Nat} {c : FabCell} (h : s.Keeps t) : s.Keeps (State.sendOn t l c) := by
  unfold State.sendOn
  repeat' (first | with_reducible assumption | with_reducible refine State.setFabLink_keeps ?_ | with_reducible refine State.emit_keeps ?_
                 | with_reducible refine State.pmc_keeps ?_ | with_reducible refine Keeps.ite ?_ ?_ | dsimp only | simp only [keeps_upd]
                 | split)

theorem sendWaiting_keeps {s t : State} {x1 : List FabCell} {x2 : List Nat} (h : s.Keeps t) : KeepsP s (sendWaiting x1 x2 t) := by
  induction x1 generalizing t x2 with
  | nil =>
    unfold sendWaiting
    repeat' (first | with_reducible assumption | with_reducible apply ih | with_reducible refine State.satAdd_keeps ?_
                   | with_reducible refine State.sendOn_keeps ?_ | simp only [keepsP_mk] | with_reducible refine KeepsP.ite ?_ ?_
                   | with_reducible refine KeepsP.fst ?_ | split)
  | cons a as ih =>
    unfold sendWaiting
    repeat' (first | with_reducible assumption | with_reducible apply ih | with_reducible refine State.satAdd_keeps ?_
                   | with_reducible refine State.sendOn_keeps ?_ | simp only [keepsP_mk] | with_reducible refine KeepsP.ite ?_ ?_
                   | with_reducible refine KeepsP.fst ?_ | split)

theorem State.drainCells_keeps {s t : State} (h : s.Keeps t) : s.Keeps (State.drainCells t) := by
  unfold State.drainCells
  repeat' (first | with_reducible assumption | with_reducible refine sendWaiting_keeps ?_ | dsimp only | simp only [keeps_upd]
                 | with_reducible refine KeepsP.fst ?_)

theorem State.queueCell_keeps {s t : State} {c : FabCell} (h : s.Keeps t) : s.Keeps (State.queueCell t c) := by
  unfold State.queueCell
  repeat' (first | with_reducible assumption | dsimp only | simp only [keeps_upd])

theorem State.cutPacket_keeps {s t : State} {x : QPkt} (h : s.Keeps t) : s.Keeps (State.cutPacket t x) := by
  unfold State.cutPacket
  repeat' (first | with_reducible assumption | with_reducible refine State.directDone_keeps ?_ | with_reducible refine State.drainDec_keeps ?_
                 | dsimp only | simp only [keeps_upd])

theorem cutReady_keeps {s t : State} {x1 : List QPkt} {x2 : List Nat} (h : s.Keeps t) : KeepsP s (cutReady x1 x2 t) := by
  induction x1 generalizing t x2 with
  | nil =>
    unfold cutReady
    repeat' (first | with_reducible assumption | with_reducible apply ih | with_reducible refine State.cutPacket_keeps ?_ | simp only [keepsP_mk]
                   | with_reducible refine KeepsP.ite ?_ ?_ | with_reducible refine KeepsP.fst ?_)
  | cons a as ih =>
    unfold cutReady
    repeat' (first | with_reducible assumption | with_reducible apply ih | with_reducible refine State.cutPacket_keeps ?_ | simp only [keepsP_mk]
                   | with_reducible refine KeepsP.ite ?_ ?_ | with_reducible refine KeepsP.fst ?_)

theorem State.pump_keeps {s t : State} (h : s.Keeps t) : s.Keeps (State.pump t) := by
  unfold State.pump
  repeat' (first | with_reducible assumption | with_reducible refine cutReady_keeps ?_ | with_reducible refine State.drainCells_keeps ?_
                 | dsimp only | simp only [keeps_upd] | with_reducible refine KeepsP.fst ?_)

theorem State.statusMsg_keeps {s t : State} {q : Nat} {on : Bool} (h : s.Keeps t) : s.Keeps (State.statusMsg t q on) := by
  unfold State.statusMsg
  repeat' (first | with_reducible assumption | with_reducible refine State.drainCells_keeps ?_ | with_reducible refine State.queueCell_keeps ?_)

theorem State.creditCheck_keeps {s t : State} {q : Nat} (h : s.Keeps t) : s.Keeps (State.creditCheck t q) := by
  unfold State.creditCheck
  repeat' (first | with_reducible assumption | with_reducible refine State.statusMsg_keeps ?_ | with_reducible refine State.setQueue_keeps ?_
                 | with_reducible refine Keeps.ite ?_ ?_ | dsimp only | split)

/-! ### Buf -/

theorem State.notePeak_keeps {s t : State} (h : s.Keeps t) : s.Keeps (State.notePeak t) := by
  unfold State.notePeak
  repeat' (first | with_reducible assumption | with_reducible refine State.fset_keeps ?_)

theorem State.setRegion_keeps {s t : State} {r : Nat} {v : Region} (h : s.Keeps t) : s.Keeps (State.setRegion t r v) := by
  unfold State.setRegion
  repeat' (first | with_reducible assumption | dsimp only | simp only [keeps_upd])

theorem State.allocPage_keeps {s t : State} (h : s.Keeps t) : KeepsOQ s (State.allocPage t) := by
  unfold State.allocPage
  repeat' (first | with_reducible assumption | with_reducible refine State.setRegion_keeps ?_ | with_reducible refine State.hbtInit_keeps ?_
                 | dsimp only | simp only [keepsQ_mk] | simp only [keeps_upd] | with_reducible exact KeepsOQ.of_none _ _
                 | with_reducible refine KeepsOQ.of_some ?_ | split)

theorem State.clearBanks_keeps {s t : State} {r : Nat} (h : s.Keeps t) : s.Keeps (State.clearBanks t r) := by
  unfold State.clearBanks
  repeat' (first | with_reducible assumption | dsimp only | simp only [keeps_upd])

theorem State.tryPark_keeps {s t : State} {r : Nat} (h : s.Keeps t) : s.Keeps (State.tryPark t r) := by
  unfold State.tryPark
  repeat' (first | with_reducible assumption | with_reducible refine State.setEvent_keeps ?_ | with_reducible refine State.clearBanks_keeps ?_
                 | with_reducible refine State.setRegion_keeps ?_ | with_reducible refine State.fset_keeps ?_
                 | with_reducible refine Keeps.ite ?_ ?_ | dsimp only | intro _ _ _ | with_reducible refine Keeps.foldl ?_ ?_)

theorem State.freePage_keeps {s t : State} {page : Nat} (h : s.Keeps t) : s.Keeps (State.freePage t page) := by
  unfold State.freePage
  repeat' (first | with_reducible assumption | with_reducible refine State.tryPark_keeps ?_ | with_reducible refine State.setRegion_keeps ?_
                 | with_reducible refine Keeps.ite ?_ ?_)

theorem appendPages_keeps {s t : State} {x1 : Nat} {x2 : Nat} {x3 : List Page} (h : s.Keeps t) : KeepsQ s (appendPages x1 x2 x3 t) := by
  induction x1 generalizing t x2 x3 with
  | zero =>
    unfold appendPages
    repeat' (first | with_reducible assumption | with_reducible apply ih | with_reducible refine State.allocPage_keeps ?_ | simp only [keepsQ_mk]
                   | split | with_reducible refine KeepsOQ.get' (by assumption) ?_)
  | succ n ih =>
    unfold appendPages
    repeat' (first | with_reducible assumption | with_reducible apply ih | with_reducible refine State.allocPage_keeps ?_ | simp only [keepsQ_mk]
                   | split | with_reducible refine KeepsOQ.get' (by assumption) ?_)

theorem State.writeSegment_keeps {s t : State} {q : Nat} {c : Nat} (h : s.Keeps t) : s.Keeps (State.writeSegment t q c) := by
  unfold State.writeSegment
  repeat' (first | with_reducible assumption | with_reducible refine State.hbtWrite_keeps ?_ | with_reducible refine appendPages_keeps ?_
                 | with_reducible refine State.setQueue_keeps ?_ | dsimp only | with_reducible refine KeepsQ.snd ?_ | split | intro _ _ _
                 | with_reducible refine Keeps.foldl ?_ ?_)

theorem State.sendControl_keeps {s t : State} {p : Nat} {frame : List Byte} (h : s.Keeps t) : s.Keeps (State.sendControl t p frame) := by
  unfold State.sendControl
  repeat' (first | with_reducible assumption | with_reducible refine State.emit_keeps ?_ | with_reducible refine State.mibAdd_keeps ?_)

theorem State.pfcUpdate_keeps {s t : State} {p : Nat} {k : Nat} (h : s.Keeps t) : s.Keeps (State.pfcUpdate t p k) := by
  unfold State.pfcUpdate
  repeat' (first | with_reducible assumption | with_reducible refine State.sendControl_keeps ?_ | with_reducible refine State.fset_keeps ?_
                 | with_reducible refine Keeps.ite ?_ ?_)

theorem State.acctChanged_keeps {s t : State} {q : QPkt} (h : s.Keeps t) : s.Keeps (State.acctChanged t q) := by
  unfold State.acctChanged
  repeat' (first | with_reducible assumption | with_reducible refine State.pfcUpdate_keeps ?_ | split)

theorem execPfcRefresh_keeps {s t : State} {port : Nat} (h : s.Keeps t) : KeepsX s (execPfcRefresh port t) := by
  unfold execPfcRefresh
  repeat' (first | with_reducible assumption | with_reducible refine State.sendControl_keeps ?_ | dsimp only
                 | with_reducible refine KeepsX.ite ?_ ?_ | with_reducible refine KeepsX.of_next ?_)

theorem State.tmpolEcc_keeps {s t : State} {i : Nat} (h : s.Keeps t) : s.Keeps (State.tmpolEcc t i) := by
  unfold State.tmpolEcc
  repeat' (first | with_reducible assumption | with_reducible refine State.raiseError_keeps ?_ | with_reducible refine State.setEvent_keeps ?_
                 | with_reducible refine State.satAdd_keeps ?_ | with_reducible refine Keeps.ite ?_ ?_ | dsimp only
                 | simp only [keeps_upd])

theorem State.tmMeter_keeps {s t : State} {p : Pkt} (h : s.Keeps t) : KeepsP s (State.tmMeter t p) := by
  unfold State.tmMeter
  repeat' (first | with_reducible assumption | simp only [keepsP_mk] | simp only [keeps_upd] | with_reducible refine KeepsP.ite ?_ ?_)

theorem State.dropped_keeps {s t : State} {qp : QPkt} (h : s.Keeps t) : s.Keeps (State.dropped t qp) := by
  unfold State.dropped
  repeat' (first | with_reducible assumption | with_reducible refine State.directDone_keeps ?_ | with_reducible refine State.acctChanged_keeps ?_
                 | with_reducible refine State.drainDec_keeps ?_)

theorem dropHeads_keeps {s t : State} {x1 : Nat} {x2 : Nat} (h : s.Keeps t) : s.Keeps (dropHeads x1 x2 t) := by
  induction x1 generalizing t x2 with
  | zero =>
    unfold dropHeads
    repeat' (first | with_reducible assumption | with_reducible apply ih | with_reducible refine State.dropped_keeps ?_
                   | with_reducible refine State.dlnAdd_keeps ?_ | with_reducible refine State.satAdd_keeps ?_
                   | with_reducible refine State.setQueue_keeps ?_ | with_reducible refine Keeps.ite ?_ ?_ | simp only [keepsP_mk] | split)
  | succ n ih =>
    unfold dropHeads
    repeat' (first | with_reducible assumption | with_reducible apply ih | with_reducible refine State.dropped_keeps ?_
                   | with_reducible refine State.dlnAdd_keeps ?_ | with_reducible refine State.satAdd_keeps ?_
                   | with_reducible refine State.setQueue_keeps ?_ | with_reducible refine Keeps.ite ?_ ?_ | dsimp only | split)

theorem State.settleQueue_keeps {s t : State} {q : Nat} (h : s.Keeps t) : s.Keeps (State.settleQueue t q) := by
  unfold State.settleQueue
  repeat' (first | with_reducible assumption | with_reducible refine dropHeads_keeps ?_ | with_reducible refine State.creditCheck_keeps ?_
                 | with_reducible refine rebacklog_keeps ?_ | with_reducible refine Keeps.ite ?_ ?_)

theorem State.admissionDrop_keeps {s t : State} {p : Pkt} {reason : Nat} {node : Option Nat} (h : s.Keeps t) : s.Keeps (State.admissionDrop t p reason
    node) := by
  unfold State.admissionDrop
  repeat' (first | with_reducible assumption | with_reducible refine State.drainDec_keeps ?_ | with_reducible refine State.countDrop_keeps ?_
                 | with_reducible refine State.mibAdd_keeps ?_ | with_reducible refine State.directDone_keeps ?_ | dsimp only | split)

theorem State.admitPkt_keeps {s t : State} {ecc : Bool} {p0 : Pkt} (h : s.Keeps t) : s.Keeps (State.admitPkt t ecc p0) := by
  unfold State.admitPkt
  repeat' (first | with_reducible assumption | with_reducible refine State.tmMeter_keeps ?_ | with_reducible refine State.tmpolEcc_keeps ?_
                 | with_reducible refine State.admissionDrop_keeps ?_ | with_reducible refine State.pmc_keeps ?_
                 | with_reducible refine State.writeSegment_keeps ?_ | with_reducible refine State.setQueue_keeps ?_
                 | with_reducible refine State.settleQueue_keeps ?_ | with_reducible refine State.acctChanged_keeps ?_
                 | with_reducible refine State.notePeak_keeps ?_ | with_reducible refine Keeps.ite ?_ ?_ | dsimp only
                 | with_reducible refine KeepsP.fst ?_ | split)

theorem execRefillStart_keeps {s t : State} {q : Nat} (h : s.Keeps t) : KeepsX s (execRefillStart q t) := by
  unfold execRefillStart
  repeat' (first | with_reducible assumption | with_reducible refine State.satAdd_keeps ?_ | with_reducible refine State.pmc_keeps ?_
                 | dsimp only | simp only [keeps_upd] | with_reducible refine KeepsX.ite ?_ ?_ | with_reducible refine KeepsX.of_next ?_
                 | split)

theorem State.refillUe_keeps {s t : State} {ranges : List (Nat × Nat × Nat)} {bad : Bool} (h : s.Keeps t) : s.Keeps (State.refillUe t ranges bad) :=
    by
  unfold State.refillUe
  repeat' (first | with_reducible assumption | with_reducible refine State.hbmUe_keeps ?_ | with_reducible refine State.free_keeps ?_
                 | with_reducible refine Keeps.ite ?_ ?_ | dsimp only | with_reducible refine KeepsQ.snd ?_ | split)

theorem State.refillOne_keeps {s t : State} {q : Nat} {bad : Bool} (h : s.Keeps t) : s.Keeps (State.refillOne t q bad) := by
  unfold State.refillOne
  repeat' (first | with_reducible assumption | with_reducible refine State.hbtUnits_keeps ?_ | with_reducible refine State.setQueue_keeps ?_
                 | with_reducible refine State.refillUe_keeps ?_ | with_reducible refine State.raiseError_keeps ?_
                 | with_reducible refine State.setEvent_keeps ?_ | with_reducible refine State.freePage_keeps ?_ | dsimp only | split
                 | intro _ _ _ | with_reducible refine Keeps.foldl ?_ ?_)

theorem refillRun_keeps {s t : State} {x1 : Nat} {x2 : Nat} {x3 : List Bool} (h : s.Keeps t) : s.Keeps (refillRun x1 x2 x3 t) := by
  induction x1 generalizing t x2 x3 with
  | zero =>
    unfold refillRun
    repeat' (first | with_reducible assumption | with_reducible apply ih | with_reducible refine State.satAdd_keeps ?_
                   | with_reducible refine State.refillOne_keeps ?_ | with_reducible refine Keeps.ite ?_ ?_ | split)
  | succ n ih =>
    unfold refillRun
    repeat' (first | with_reducible assumption | with_reducible apply ih | with_reducible refine State.satAdd_keeps ?_
                   | with_reducible refine State.refillOne_keeps ?_ | with_reducible refine Keeps.ite ?_ ?_ | split)

theorem State.tryOnchip_keeps {s t : State} {q : Nat} (h : s.Keeps t) : s.Keeps (State.tryOnchip t q) := by
  unfold State.tryOnchip
  repeat' (first | with_reducible assumption | with_reducible refine State.freePage_keeps ?_ | with_reducible refine State.setQueue_keeps ?_
                 | with_reducible refine Keeps.ite ?_ ?_ | intro _ _ _ | with_reducible refine Keeps.foldl ?_ ?_)

theorem State.takeQueued_keeps {s t : State} {q : Nat} {id : Nat} (h : s.Keeps t) : s.Keeps (State.takeQueued t q id) := by
  unfold State.takeQueued
  repeat' (first | with_reducible assumption | with_reducible refine State.setQueue_keeps ?_)

theorem State.loseSegment_keeps {s t : State} {q : Nat} (h : s.Keeps t) : KeepsP s (State.loseSegment t q) := by
  unfold State.loseSegment
  repeat' (first | with_reducible assumption | with_reducible refine State.setQueue_keeps ?_ | with_reducible refine State.settleQueue_keeps ?_
                 | with_reducible refine State.dropped_keeps ?_ | with_reducible refine State.countDrop_keeps ?_ | simp only [keepsP_mk]
                 | simp only [keeps_upd] | intro _ _ _ | with_reducible refine Keeps.foldl ?_ ?_)

theorem State.segmentLost_keeps {s t : State} {q : Nat} {i : Nat} (h : s.Keeps t) : s.Keeps (State.segmentLost t q i) := by
  unfold State.segmentLost
  repeat' (first | with_reducible assumption | with_reducible refine State.loseSegment_keeps ?_ | with_reducible refine State.freePage_keeps ?_
                 | with_reducible refine State.raiseError_keeps ?_ | with_reducible refine State.setEvent_keeps ?_
                 | with_reducible refine State.fset_keeps ?_ | dsimp only | simp only [keeps_upd] | with_reducible refine KeepsP.fst ?_
                 | intro _ _ _ | with_reducible refine Keeps.foldl ?_ ?_)

theorem State.stackLost_keeps {s t : State} {stack : Nat} (h : s.Keeps t) : s.Keeps (State.stackLost t stack) := by
  unfold State.stackLost
  repeat' (first | with_reducible assumption | with_reducible refine State.loseSegment_keeps ?_ | with_reducible refine State.setRegion_keeps ?_
                 | with_reducible refine State.raiseError_keeps ?_ | with_reducible refine State.setEvent_keeps ?_
                 | with_reducible refine State.fset_keeps ?_ | with_reducible refine State.tryPark_keeps ?_ | with_reducible refine Keeps.ite ?_ ?_
                 | dsimp only | simp only [keeps_upd] | with_reducible refine KeepsP.fst ?_ | intro _ _ _
                 | with_reducible refine Keeps.foldl ?_ ?_)

theorem State.hbtFail_keeps {s t : State} {k : Nat} (h : s.Keeps t) : s.Keeps (State.hbtFail t k) := by
  unfold State.hbtFail
  repeat' (first | with_reducible assumption | with_reducible refine State.stackLost_keeps ?_ | with_reducible refine State.raiseError_keeps ?_
                 | with_reducible refine State.setEvent_keeps ?_ | with_reducible refine State.fset_keeps ?_)

theorem State.settleStacks_keeps {s t : State} (h : s.Keeps t) : s.Keeps (State.settleStacks t) := by
  unfold State.settleStacks
  repeat' (first | with_reducible assumption | with_reducible refine State.hbtFail_keeps ?_ | with_reducible refine Keeps.ite ?_ ?_ | intro _ _ _
                 | with_reducible refine Keeps.foldl ?_ ?_)

theorem execRefillReadDone_keeps {s t : State} {q : Nat} {bad : List Bool} (h : s.Keeps t) : KeepsX s (execRefillReadDone q bad t) := by
  unfold execRefillReadDone
  repeat' (first | with_reducible assumption | with_reducible refine State.settleStacks_keeps ?_ | with_reducible refine State.settleQueue_keeps ?_
                 | with_reducible refine State.tryOnchip_keeps ?_ | with_reducible refine refillRun_keeps ?_ | dsimp only
                 | simp only [keeps_upd] | with_reducible refine KeepsX.ite ?_ ?_ | with_reducible refine KeepsX.of_next ?_)

theorem execHeaderSweep_keeps {s t : State} {lost : List (Nat × Nat)} (h : s.Keeps t) : KeepsX s (execHeaderSweep lost t) := by
  unfold execHeaderSweep
  repeat' (first | with_reducible assumption | with_reducible refine State.segmentLost_keeps ?_ | with_reducible refine State.hbmUe_keeps ?_
                 | with_reducible refine State.freePage_keeps ?_ | with_reducible refine State.settleStacks_keeps ?_
                 | with_reducible refine State.fset_keeps ?_ | dsimp only | simp only [keeps_upd]
                 | with_reducible refine KeepsX.of_next ?_ | split | intro _ _ _ | with_reducible refine Keeps.foldl ?_ ?_)

theorem State.flushQueue_keeps {s t : State} {q : Nat} (h : s.Keeps t) : KeepsP s (State.flushQueue t q) := by
  unfold State.flushQueue
  repeat' (first | with_reducible assumption | with_reducible refine State.setQueue_keeps ?_ | with_reducible refine State.mibAdd_keeps ?_
                 | with_reducible refine State.dropped_keeps ?_ | with_reducible refine State.countDrop_keeps ?_
                 | with_reducible refine State.settleQueue_keeps ?_ | with_reducible refine Keeps.ite ?_ ?_ | simp only [keepsP_mk]
                 | simp only [keeps_upd] | intro _ _ _ | with_reducible refine Keeps.foldl ?_ ?_)

theorem State.startFlush_keeps {s t : State} {owner : FlushOwner} {qs : List Nat} (h : s.Keeps t) : s.Keeps (State.startFlush t owner qs) := by
  unfold State.startFlush
  repeat' (first | with_reducible assumption | with_reducible refine State.flushQueue_keeps ?_ | simp only [keepsP_mk] | simp only [keeps_upd]
                 | with_reducible refine KeepsP.fst ?_ | intro _ _ _ | with_reducible refine KeepsP.foldl ?_ ?_)

theorem execBufFlush_keeps {s t : State} {c : Cmd} (h : s.Keeps t) : KeepsX s (execBufFlush c t) := by
  unfold execBufFlush
  repeat' (first | with_reducible assumption | with_reducible refine runCmd_keeps ?_ ?_ | with_reducible refine fail_keeps ?_
                 | with_reducible refine State.startFlush_keeps ?_ | simp only [keepsP_mk] | split | intro _ _)

theorem State.linkEvent_keeps {s t : State} {k : Nat} {bit : Nat} (h : s.Keeps t) : s.Keeps (State.linkEvent t k bit) := by
  unfold State.linkEvent
  repeat' (first | with_reducible assumption | with_reducible refine State.setEvent_keeps ?_ | with_reducible refine Keeps.ite ?_ ?_)

theorem State.completeFlush_keeps {s t : State} {f : Flush} {fs : List Flush} (h : s.Keeps t) : s.Keeps (State.completeFlush t f fs) := by
  unfold State.completeFlush
  repeat' (first | with_reducible assumption | with_reducible refine State.freePage_keeps ?_ | with_reducible refine State.setEvent_keeps ?_
                 | with_reducible refine State.complete_keeps ?_ | with_reducible refine State.setQueue_keeps ?_
                 | with_reducible refine State.fset_keeps ?_ | with_reducible refine State.linkEvent_keeps ?_
                 | with_reducible refine Keeps.ite ?_ ?_ | dsimp only | simp only [keeps_upd] | split | intro _ _ _
                 | with_reducible refine Keeps.foldl ?_ ?_)

theorem execFlushComplete_keeps {s t : State} (h : s.Keeps t) : KeepsX s (execFlushComplete t) := by
  unfold execFlushComplete
  repeat' (first | with_reducible assumption | with_reducible refine State.completeFlush_keeps ?_ | with_reducible refine KeepsX.of_next ?_ | split)

theorem State.fence_keeps {s t : State} {r : Nat} (h : s.Keeps t) : s.Keeps (State.fence t r) := by
  unfold State.fence
  repeat' (first | with_reducible assumption | with_reducible refine State.tryPark_keeps ?_ | with_reducible refine State.setRegion_keeps ?_
                 | with_reducible refine Keeps.ite ?_ ?_)

theorem State.unfence_keeps {s t : State} {r : Nat} (h : s.Keeps t) : s.Keeps (State.unfence t r) := by
  unfold State.unfence
  repeat' (first | with_reducible assumption | with_reducible refine State.setRegion_keeps ?_ | dsimp only | split)

theorem State.fenceSettle_keeps {s t : State} (h : s.Keeps t) : s.Keeps (State.fenceSettle t) := by
  unfold State.fenceSettle
  repeat' (first | with_reducible assumption | with_reducible refine State.complete_keeps ?_ | dsimp only | simp only [keeps_upd]
                 | intro _ _ _ | with_reducible refine Keeps.foldl ?_ ?_)

theorem fenceCmd_keeps {s t : State} {c : Cmd} {trained : Bool} (h : s.Keeps t) : KeepsX s (fenceCmd c trained t) := by
  unfold fenceCmd
  repeat' (first | with_reducible assumption | with_reducible refine runCmd_keeps ?_ ?_ | with_reducible refine fail_keeps ?_
                 | with_reducible refine State.setRegion_keeps ?_ | with_reducible refine ok_keeps ?_ | with_reducible refine State.fence_keeps ?_
                 | with_reducible refine State.unfence_keeps ?_ | with_reducible refine State.fset_keeps ?_
                 | with_reducible refine State.tryPark_keeps ?_ | with_reducible refine Keeps.ite ?_ ?_ | simp only [keepsP_mk]
                 | simp only [keeps_upd] | with_reducible refine KeepsP.ite ?_ ?_ | with_reducible refine KeepsP.fst ?_ | split | intro _ _ _
                 | intro _ _ | with_reducible refine Keeps.foldl ?_ ?_ | with_reducible refine KeepsP.foldl ?_ ?_)

theorem execBufFenceRelease_keeps {s t : State} {c : Cmd} (h : s.Keeps t) : KeepsX s (execBufFenceRelease c t) := by
  unfold execBufFenceRelease
  repeat' (first | with_reducible assumption | with_reducible refine fenceCmd_keeps ?_)

theorem execBufFenceHold_keeps {s t : State} {c : Cmd} (h : s.Keeps t) : KeepsX s (execBufFenceHold c t) := by
  unfold execBufFenceHold
  repeat' (first | with_reducible assumption | with_reducible refine fenceCmd_keeps ?_)

theorem execBufUnfenceHold_keeps {s t : State} {c : Cmd} (h : s.Keeps t) : KeepsX s (execBufUnfenceHold c t) := by
  unfold execBufUnfenceHold
  repeat' (first | with_reducible assumption | with_reducible refine fenceCmd_keeps ?_)

theorem execBufStackOut_keeps {s t : State} {c : Cmd} (h : s.Keeps t) : KeepsX s (execBufStackOut c t) := by
  unfold execBufStackOut
  repeat' (first | with_reducible assumption | with_reducible refine fenceCmd_keeps ?_)

theorem execRegionParked_keeps {s t : State} {region : Nat} (h : s.Keeps t) : KeepsX s (execRegionParked region t) := by
  unfold execRegionParked
  repeat' (first | with_reducible assumption | with_reducible refine State.fenceSettle_keeps ?_ | with_reducible refine State.tryPark_keeps ?_
                 | with_reducible refine KeepsX.of_next ?_)

theorem execFenceTimeout_keeps {s t : State} {region : Nat} (h : s.Keeps t) : KeepsX s (execFenceTimeout region t) := by
  unfold execFenceTimeout
  repeat' (first | with_reducible assumption | with_reducible refine State.setEvent_keeps ?_ | with_reducible refine State.setRegion_keeps ?_
                 | with_reducible refine State.complete_keeps ?_ | dsimp only | simp only [keeps_upd]
                 | with_reducible refine KeepsX.ite ?_ ?_ | with_reducible refine KeepsX.of_next ?_ | intro _ _ _
                 | with_reducible refine Keeps.foldl ?_ ?_)

theorem execRegionWakeDone_keeps {s t : State} {region : Nat} (h : s.Keeps t) : KeepsX s (execRegionWakeDone region t) := by
  unfold execRegionWakeDone
  repeat' (first | with_reducible assumption | with_reducible refine State.fenceSettle_keeps ?_ | with_reducible refine State.setRegion_keeps ?_
                 | dsimp only | with_reducible refine KeepsX.ite ?_ ?_ | with_reducible refine KeepsX.of_next ?_)

theorem execAutoUnfence_keeps {s t : State} (h : s.Keeps t) : KeepsX s (execAutoUnfence t) := by
  unfold execAutoUnfence
  repeat' (first | with_reducible assumption | with_reducible refine State.unfence_keeps ?_ | with_reducible refine State.setEvent_keeps ?_
                 | with_reducible refine State.setRegion_keeps ?_ | with_reducible refine State.fenceSettle_keeps ?_ | dsimp only
                 | simp only [keeps_upd] | with_reducible refine KeepsX.ite ?_ ?_ | with_reducible refine KeepsX.of_next ?_ | split)

theorem execBufQadmSet_keeps {s t : State} {c : Cmd} (h : s.Keeps t) : KeepsX s (execBufQadmSet c t) := by
  unfold execBufQadmSet
  repeat' (first | with_reducible assumption | with_reducible refine runCmd_keeps ?_ ?_ | with_reducible refine fail_keeps ?_
                 | with_reducible refine State.setQueue_keeps ?_ | with_reducible refine ok_keeps ?_ | dsimp only | split | intro _ _ _
                 | intro _ _ | with_reducible refine Keeps.foldl ?_ ?_)

theorem execBufQRead_keeps {s t : State} {c : Cmd} (h : s.Keeps t) : KeepsX s (execBufQRead c t) := by
  unfold execBufQRead
  repeat' (first | with_reducible assumption | with_reducible refine runCmd_keeps ?_ ?_ | with_reducible refine fail_keeps ?_
                 | with_reducible refine ok_keeps ?_ | dsimp only | split | intro _ _)

theorem execBufProfSet_keeps {s t : State} {c : Cmd} (h : s.Keeps t) : KeepsX s (execBufProfSet c t) := by
  unfold execBufProfSet
  repeat' (first | with_reducible assumption | with_reducible refine runCmd_keeps ?_ ?_ | with_reducible refine fail_keeps ?_
                 | with_reducible refine ok_keeps ?_ | dsimp only | simp only [keeps_upd] | split | intro _ _)

theorem execBufProfRead_keeps {s t : State} {c : Cmd} (h : s.Keeps t) : KeepsX s (execBufProfRead c t) := by
  unfold execBufProfRead
  repeat' (first | with_reducible assumption | with_reducible refine runCmd_keeps ?_ ?_ | with_reducible refine fail_keeps ?_
                 | with_reducible refine ok_keeps ?_ | with_reducible refine State.emit_keeps ?_ | dsimp only | split | intro _ _)

theorem bufLimit_keeps {s t : State} {c : Cmd} (h : s.Keeps t) : KeepsX s (bufLimit c t) := by
  unfold bufLimit
  repeat' (first | with_reducible assumption | with_reducible refine runCmd_keeps ?_ ?_ | with_reducible refine fail_keeps ?_
                 | with_reducible refine ok_keeps ?_ | with_reducible refine State.pfcUpdate_keeps ?_ | dsimp only
                 | simp only [keeps_upd] | split | intro _ _)

theorem execBufLimitSet_keeps {s t : State} {c : Cmd} (h : s.Keeps t) : KeepsX s (execBufLimitSet c t) := by
  unfold execBufLimitSet
  repeat' (first | with_reducible assumption | with_reducible refine bufLimit_keeps ?_)

theorem execBufLimitRead_keeps {s t : State} {c : Cmd} (h : s.Keeps t) : KeepsX s (execBufLimitRead c t) := by
  unfold execBufLimitRead
  repeat' (first | with_reducible assumption | with_reducible refine bufLimit_keeps ?_)

theorem execD2dFlitError_keeps {s t : State} {module : Nat} {failed : Nat} (h : s.Keeps t) : KeepsX s (execD2dFlitError module failed t) := by
  unfold execD2dFlitError
  repeat' (first | with_reducible assumption | with_reducible refine State.pmc_keeps ?_ | with_reducible refine State.raiseError_keeps ?_
                 | with_reducible refine State.setEvent_keeps ?_ | dsimp only | with_reducible refine KeepsX.ite ?_ ?_
                 | with_reducible refine KeepsX.of_next ?_)

/-! ### Sched -/

theorem State.setShaper_keeps {s t : State} {r : Nat} {x2 : Shaper} (h : s.Keeps t) : s.Keeps (State.setShaper t r x2) := by
  unfold State.setShaper
  repeat' (first | with_reducible assumption | dsimp only | simp only [keeps_upd])

theorem State.debit_keeps {s t : State} {r : Nat} {l : Nat} (h : s.Keeps t) : s.Keeps (State.debit t r l) := by
  unfold State.debit
  repeat' (first | with_reducible assumption | with_reducible refine State.setShaper_keeps ?_ | with_reducible refine Keeps.ite ?_ ?_)

theorem State.refillYields_keeps {s t : State} (h : s.Keeps t) : s.Keeps (State.refillYields t) := by
  unfold State.refillYields
  repeat' (first | with_reducible assumption | with_reducible refine State.setShaper_keeps ?_ | intro _ _ _ | with_reducible refine Keeps.foldl ?_ ?_)

theorem State.setYieldStep_keeps {s t : State} {y : Nat} (h : s.Keeps t) : s.Keeps (State.setYieldStep t y) := by
  unfold State.setYieldStep
  repeat' (first | with_reducible assumption | with_reducible refine State.setEvent_keeps ?_ | with_reducible refine State.fset_keeps ?_
                 | with_reducible refine State.refillYields_keeps ?_ | with_reducible refine Keeps.ite ?_ ?_)

theorem State.setPtx_keeps {s t : State} {k : Nat} {x2 : PortTx} (h : s.Keeps t) : s.Keeps (State.setPtx t k x2) := by
  unfold State.setPtx
  repeat' (first | with_reducible assumption | dsimp only | simp only [keeps_upd])

theorem State.advancePtr_keeps {s t : State} {depth : Nat} {i : Nat} {c : Nat} (h : s.Keeps t) : s.Keeps (State.advancePtr t depth i c) := by
  unfold State.advancePtr
  repeat' (first | with_reducible assumption | with_reducible refine State.setNode_keeps ?_)

theorem dwrrPick_keeps {s t : State} {x1 : Nat} {x2 : Nat} {x3 : Nat} (h : s.Keeps t) : KeepsP s (dwrrPick x1 x2 x3 t) := by
  induction x1 generalizing t x2 x3 with
  | zero =>
    unfold dwrrPick
    repeat' (first | with_reducible assumption | with_reducible apply ih | with_reducible refine State.setWst_keeps ?_
                   | with_reducible refine State.setNode_keeps ?_ | with_reducible refine State.advancePtr_keeps ?_
                   | with_reducible refine Keeps.ite ?_ ?_ | simp only [keepsP_mk] | with_reducible refine KeepsP.ite ?_ ?_)
  | succ n ih =>
    unfold dwrrPick
    repeat' (first | with_reducible assumption | with_reducible apply ih | with_reducible refine State.setWst_keeps ?_
                   | with_reducible refine State.setNode_keeps ?_ | with_reducible refine State.advancePtr_keeps ?_
                   | with_reducible refine Keeps.ite ?_ ?_ | simp only [keepsP_mk] | with_reducible refine KeepsP.ite ?_ ?_)

theorem State.pickQueue_keeps {s t : State} {x1 : Nat} {x2 : Nat} (h : s.Keeps t) : KeepsP s (State.pickQueue x1 x2 t) := by
  induction x1 generalizing t x2 with
  | zero =>
    unfold State.pickQueue
    repeat' (first | with_reducible assumption | with_reducible apply ih | with_reducible refine dwrrPick_keeps ?_ | simp only [keepsP_mk]
                   | with_reducible refine KeepsP.ite ?_ ?_ | split | with_reducible refine KeepsP.get (by assumption) ?_)
  | succ n ih =>
    unfold State.pickQueue
    repeat' (first | with_reducible assumption | with_reducible apply ih | with_reducible refine dwrrPick_keeps ?_ | simp only [keepsP_mk]
                   | with_reducible refine KeepsP.ite ?_ ?_ | split | with_reducible refine KeepsP.get (by assumption) ?_)

theorem chargePath_keeps {s t : State} {x1 : Nat} {x2 : Nat} {x3 : Nat} {x4 : Nat} (h : s.Keeps t) : s.Keeps (chargePath x1 x2 x3 x4 t) := by
  induction x1 generalizing t x2 x3 x4 with
  | zero =>
    unfold chargePath
    repeat' (first | with_reducible assumption | with_reducible apply ih | with_reducible refine State.setWst_keeps ?_
                   | with_reducible refine State.setNode_keeps ?_ | with_reducible refine Keeps.ite ?_ ?_)
  | succ n ih =>
    unfold chargePath
    repeat' (first | with_reducible assumption | with_reducible apply ih | with_reducible refine State.setWst_keeps ?_
                   | with_reducible refine State.setNode_keeps ?_ | with_reducible refine Keeps.ite ?_ ?_)

theorem State.toSwitch_keeps {s t : State} {q : Nat} {k : Nat} {qp : QPkt} (h : s.Keeps t) : s.Keeps (State.toSwitch t q k qp) := by
  unfold State.toSwitch
  repeat' (first | with_reducible assumption | dsimp only | simp only [keeps_upd])

theorem State.releaseHead_keeps {s t : State} {q : Nat} {x2 : Nat} {late : Bool} (h : s.Keeps t) : s.Keeps (State.releaseHead t q x2 late) := by
  unfold State.releaseHead
  repeat' (first | with_reducible assumption | with_reducible refine State.debit_keeps ?_ | with_reducible refine State.setQueue_keeps ?_
                 | with_reducible refine chargePath_keeps ?_ | with_reducible refine State.pump_keeps ?_
                 | with_reducible refine State.toSwitch_keeps ?_ | with_reducible refine State.settleQueue_keeps ?_
                 | with_reducible refine Keeps.ite ?_ ?_ | dsimp only | simp only [keeps_upd] | split | intro _ _ _
                 | with_reducible refine Keeps.foldl ?_ ?_)

theorem State.sumpError_keeps {s t : State} {q : Nat} {ue : Nat} {cell : Nat} (h : s.Keeps t) : s.Keeps (State.sumpError t q ue cell) := by
  unfold State.sumpError
  repeat' (first | with_reducible assumption | with_reducible refine State.satAdd_keeps ?_ | with_reducible refine State.setQueue_keeps ?_
                 | with_reducible refine State.raiseError_keeps ?_ | with_reducible refine State.setEvent_keeps ?_ | dsimp only | split)

theorem State.qselMiss_keeps {s t : State} {gen : Nat} (h : s.Keeps t) : s.Keeps (State.qselMiss t gen) := by
  unfold State.qselMiss
  repeat' (first | with_reducible assumption | with_reducible refine State.drainDec_keeps ?_ | with_reducible refine State.setEvent_keeps ?_
                 | with_reducible refine State.satAdd_keeps ?_)

theorem State.setHold_keeps {s t : State} {p : Nat} {cls : Nat} {held : Bool} (h : s.Keeps t) : s.Keeps (State.setHold t p cls held) := by
  unfold State.setHold
  repeat' (first | with_reducible assumption | with_reducible refine State.fset_keeps ?_ | with_reducible refine Keeps.ite ?_ ?_
                 | dsimp only | split)

theorem State.clearHolds_keeps {s t : State} {p : Nat} (h : s.Keeps t) : s.Keeps (State.clearHolds t p) := by
  unfold State.clearHolds
  repeat' (first | with_reducible assumption | with_reducible refine State.fset_keeps ?_ | split)

theorem execQAttach_keeps {s t : State} {c : Cmd} (h : s.Keeps t) : KeepsX s (execQAttach c t) := by
  unfold execQAttach
  repeat' (first | with_reducible assumption | with_reducible refine runCmd_keeps ?_ ?_ | with_reducible refine fail_keeps ?_
                 | with_reducible refine State.settleQueue_keeps ?_ | with_reducible refine State.setQueue_keeps ?_
                 | with_reducible refine State.setEvent_keeps ?_ | with_reducible refine ok_keeps ?_ | with_reducible refine Keeps.ite ?_ ?_
                 | dsimp only | simp only [keeps_upd] | with_reducible refine KeepsP.ite ?_ ?_ | split | intro _ _)

theorem qDetach_keeps {s t : State} {c : Cmd} (h : s.Keeps t) : KeepsX s (qDetach c t) := by
  unfold qDetach
  repeat' (first | with_reducible assumption | with_reducible refine runCmd_keeps ?_ ?_ | with_reducible refine fail_keeps ?_
                 | with_reducible refine State.startFlush_keeps ?_ | with_reducible refine State.setQueue_keeps ?_
                 | with_reducible refine ok_keeps ?_ | simp only [keepsP_mk] | with_reducible refine KeepsP.ite ?_ ?_ | split | intro _ _)

theorem execQDetach_keeps {s t : State} {c : Cmd} (h : s.Keeps t) : KeepsX s (execQDetach c t) := by
  unfold execQDetach
  repeat' (first | with_reducible assumption | with_reducible refine qDetach_keeps ?_)

theorem execQDetachFlush_keeps {s t : State} {c : Cmd} (h : s.Keeps t) : KeepsX s (execQDetachFlush c t) := by
  unfold execQDetachFlush
  repeat' (first | with_reducible assumption | with_reducible refine qDetach_keeps ?_)

theorem execQRead_keeps {s t : State} {c : Cmd} (h : s.Keeps t) : KeepsX s (execQRead c t) := by
  unfold execQRead
  repeat' (first | with_reducible assumption | with_reducible refine runCmd_keeps ?_ ?_ | with_reducible refine fail_keeps ?_
                 | with_reducible refine ok_keeps ?_ | dsimp only | split | intro _ _)

theorem qMapSet_keeps {s t : State} {c : Cmd} (h : s.Keeps t) : KeepsX s (qMapSet c t) := by
  unfold qMapSet
  repeat' (first | with_reducible assumption | with_reducible refine runCmd_keeps ?_ ?_ | with_reducible refine fail_keeps ?_
                 | with_reducible refine ok_keeps ?_ | dsimp only | simp only [keeps_upd] | split | intro _ _)

theorem execQMapSet_keeps {s t : State} {c : Cmd} (h : s.Keeps t) : KeepsX s (execQMapSet c t) := by
  unfold execQMapSet
  repeat' (first | with_reducible assumption | with_reducible refine qMapSet_keeps ?_)

theorem execQMapRead_keeps {s t : State} {c : Cmd} (h : s.Keeps t) : KeepsX s (execQMapRead c t) := by
  unfold execQMapRead
  repeat' (first | with_reducible assumption | with_reducible refine qMapSet_keeps ?_)

theorem nodeSet_keeps {s t : State} {c : Cmd} (h : s.Keeps t) : KeepsX s (nodeSet c t) := by
  unfold nodeSet
  repeat' (first | with_reducible assumption | with_reducible refine runCmd_keeps ?_ ?_ | with_reducible refine ok_keeps ?_
                 | with_reducible refine fail_keeps ?_ | with_reducible refine State.setNode_keeps ?_ | with_reducible refine rebacklog_keeps ?_
                 | dsimp only | with_reducible refine KeepsP.ite ?_ ?_ | split | intro _ _)

theorem execNodeSet_keeps {s t : State} {c : Cmd} (h : s.Keeps t) : KeepsX s (execNodeSet c t) := by
  unfold execNodeSet
  repeat' (first | with_reducible assumption | with_reducible refine nodeSet_keeps ?_)

theorem execNodeDetach_keeps {s t : State} {c : Cmd} (h : s.Keeps t) : KeepsX s (execNodeDetach c t) := by
  unfold execNodeDetach
  repeat' (first | with_reducible assumption | with_reducible refine nodeSet_keeps ?_)

theorem execNodeRead_keeps {s t : State} {c : Cmd} (h : s.Keeps t) : KeepsX s (execNodeRead c t) := by
  unfold execNodeRead
  repeat' (first | with_reducible assumption | with_reducible refine runCmd_keeps ?_ ?_ | with_reducible refine fail_keeps ?_
                 | with_reducible refine ok_keeps ?_ | dsimp only | split | intro _ _)

theorem execSchShaperSet_keeps {s t : State} {c : Cmd} (h : s.Keeps t) : KeepsX s (execSchShaperSet c t) := by
  unfold execSchShaperSet
  repeat' (first | with_reducible assumption | with_reducible refine runCmd_keeps ?_ ?_ | with_reducible refine fail_keeps ?_
                 | with_reducible refine ok_keeps ?_ | with_reducible refine State.setShaper_keeps ?_ | dsimp only | split | intro _ _)

theorem execSchShaperRead_keeps {s t : State} {c : Cmd} (h : s.Keeps t) : KeepsX s (execSchShaperRead c t) := by
  unfold execSchShaperRead
  repeat' (first | with_reducible assumption | with_reducible refine runCmd_keeps ?_ ?_ | with_reducible refine fail_keeps ?_
                 | with_reducible refine ok_keeps ?_ | dsimp only | split | intro _ _)

theorem execTmpolSet_keeps {s t : State} {c : Cmd} (h : s.Keeps t) : KeepsX s (execTmpolSet c t) := by
  unfold execTmpolSet
  repeat' (first | with_reducible assumption | with_reducible refine runCmd_keeps ?_ ?_ | with_reducible refine fail_keeps ?_
                 | with_reducible refine ok_keeps ?_ | dsimp only | simp only [keeps_upd] | split | intro _ _)

theorem execTmpolRead_keeps {s t : State} {c : Cmd} (h : s.Keeps t) : KeepsX s (execTmpolRead c t) := by
  unfold execTmpolRead
  repeat' (first | with_reducible assumption | with_reducible refine runCmd_keeps ?_ ?_ | with_reducible refine fail_keeps ?_
                 | with_reducible refine ok_keeps ?_ | with_reducible refine State.emit_keeps ?_ | dsimp only | split | intro _ _)

theorem State.hookPortBind_keeps {s t : State} {x1 : Nat} {v : Nat} (h : s.Keeps t) : s.Keeps (State.hookPortBind t x1 v) := by
  unfold State.hookPortBind
  repeat' (first | with_reducible assumption | with_reducible refine State.setEvent_keeps ?_ | with_reducible refine State.setReg_keeps ?_
                 | with_reducible refine Keeps.ite ?_ ?_)

theorem State.hookShpSel_keeps {s t : State} {v : Nat} (h : s.Keeps t) : KeepsO s (State.hookShpSel t v) := by
  unfold State.hookShpSel
  repeat' (first | with_reducible assumption | with_reducible refine State.setReg_keeps ?_ | with_reducible refine State.fset_keeps ?_
                 | dsimp only | with_reducible exact KeepsO.of_none _ | with_reducible refine KeepsO.of_some ?_ | split)

theorem State.hookShpCfg_keeps {s t : State} {v : Nat} (h : s.Keeps t) : KeepsO s (State.hookShpCfg t v) := by
  unfold State.hookShpCfg
  repeat' (first | with_reducible assumption | with_reducible refine State.setReg_keeps ?_ | with_reducible refine State.setShaper_keeps ?_
                 | dsimp only | with_reducible exact KeepsO.of_none _ | with_reducible refine KeepsO.of_some ?_ | split)

theorem State.hookYbase_keeps {s t : State} {x1 : Nat} {v : Nat} (h : s.Keeps t) : s.Keeps (State.hookYbase t x1 v) := by
  unfold State.hookYbase
  repeat' (first | with_reducible assumption | with_reducible refine State.setReg_keeps ?_ | with_reducible refine State.setShaper_keeps ?_)

theorem State.hookYieldFactor_keeps {s t : State} {y : Nat} {v : Nat} (h : s.Keeps t) : s.Keeps (State.hookYieldFactor t y v) := by
  unfold State.hookYieldFactor
  repeat' (first | with_reducible assumption | with_reducible refine State.fset_keeps ?_ | with_reducible refine State.refillYields_keeps ?_
                 | with_reducible refine Keeps.ite ?_ ?_)

/-! ### Fab -/

theorem State.reachUpdate_keeps {s t : State} (h : s.Keeps t) : s.Keeps (State.reachUpdate t) := by
  unfold State.reachUpdate
  repeat' (first | with_reducible assumption | with_reducible refine State.raiseError_keeps ?_ | with_reducible refine State.setEvent_keeps ?_
                 | with_reducible refine State.drainCells_keeps ?_ | with_reducible refine State.creditCheck_keeps ?_ | dsimp only
                 | simp only [keeps_upd] | split | intro _ _ _ | with_reducible refine Keeps.foldl ?_ ?_)

theorem State.redistribute_keeps {s t : State} {l : Nat} (h : s.Keeps t) : s.Keeps (State.redistribute t l) := by
  unfold State.redistribute
  repeat' (first | with_reducible assumption | with_reducible refine State.setFabLink_keeps ?_ | with_reducible refine State.reachUpdate_keeps ?_
                 | dsimp only | simp only [keeps_upd])

theorem State.fabMove_keeps {s t : State} {l : Nat} {st : Nat} (h : s.Keeps t) : s.Keeps (State.fabMove t l st) := by
  unfold State.fabMove
  repeat' (first | with_reducible assumption | with_reducible refine State.fset_keeps ?_ | with_reducible refine State.raiseError_keeps ?_
                 | with_reducible refine State.redistribute_keeps ?_ | with_reducible refine State.setEvent_keeps ?_
                 | with_reducible refine State.reachUpdate_keeps ?_ | with_reducible refine Keeps.ite ?_ ?_)

theorem State.hookFabLink_keeps {s t : State} {l : Nat} {v : Nat} (h : s.Keeps t) : s.Keeps (State.hookFabLink t l v) := by
  unfold State.hookFabLink
  repeat' (first | with_reducible assumption | with_reducible refine State.fset_keeps ?_ | with_reducible refine State.fabMove_keeps ?_
                 | with_reducible refine Keeps.ite ?_ ?_)

theorem execFabLinkTrained_keeps {s t : State} {l : Nat} (h : s.Keeps t) : KeepsX s (execFabLinkTrained l t) := by
  unfold execFabLinkTrained
  repeat' (first | with_reducible assumption | with_reducible refine State.fabMove_keeps ?_ | with_reducible refine State.setFabLink_keeps ?_
                 | dsimp only | with_reducible refine KeepsX.ite ?_ ?_ | with_reducible refine KeepsX.of_next ?_)

theorem execFabLinkActive_keeps {s t : State} {l : Nat} (h : s.Keeps t) : KeepsX s (execFabLinkActive l t) := by
  unfold execFabLinkActive
  repeat' (first | with_reducible assumption | with_reducible refine State.setFabLink_keeps ?_ | with_reducible refine State.fabMove_keeps ?_
                 | with_reducible refine Keeps.ite ?_ ?_ | dsimp only | with_reducible refine KeepsX.ite ?_ ?_
                 | with_reducible refine KeepsX.of_next ?_)

theorem execFabLockLoss_keeps {s t : State} {l : Nat} (h : s.Keeps t) : KeepsX s (execFabLockLoss l t) := by
  unfold execFabLockLoss
  repeat' (first | with_reducible assumption | with_reducible refine State.fabMove_keeps ?_ | with_reducible refine KeepsX.ite ?_ ?_
                 | with_reducible refine KeepsX.of_next ?_)

theorem execFabLinkRetry_keeps {s t : State} {l : Nat} (h : s.Keeps t) : KeepsX s (execFabLinkRetry l t) := by
  unfold execFabLinkRetry
  repeat' (first | with_reducible assumption | with_reducible refine State.fabMove_keeps ?_ | with_reducible refine KeepsX.ite ?_ ?_
                 | with_reducible refine KeepsX.of_next ?_)

theorem execReachCellReceive_keeps {s t : State} {l : Nat} {devs : List Nat} (h : s.Keeps t) : KeepsX s (execReachCellReceive l devs t) := by
  unfold execReachCellReceive
  repeat' (first | with_reducible assumption | with_reducible refine State.setFabLink_keeps ?_ | with_reducible refine State.fabMove_keeps ?_
                 | with_reducible refine State.reachUpdate_keeps ?_ | with_reducible refine Keeps.ite ?_ ?_ | dsimp only
                 | with_reducible refine KeepsX.ite ?_ ?_ | with_reducible refine KeepsX.of_next ?_)

theorem execReachTimeout_keeps {s t : State} {l : Nat} (h : s.Keeps t) : KeepsX s (execReachTimeout l t) := by
  unfold execReachTimeout
  repeat' (first | with_reducible assumption | with_reducible refine State.reachUpdate_keeps ?_ | with_reducible refine State.setFabLink_keeps ?_
                 | dsimp only | with_reducible refine KeepsX.of_next ?_)

theorem State.updateKept_keeps {s t : State} (h : s.Keeps t) : s.Keeps (State.updateKept t) := by
  unfold State.updateKept
  repeat' (first | with_reducible assumption | dsimp only | simp only [keeps_upd])

theorem execFabAckReceive_keeps {s t : State} {l : Nat} {linkSeq : Nat} (h : s.Keeps t) : KeepsX s (execFabAckReceive l linkSeq t) := by
  unfold execFabAckReceive
  repeat' (first | with_reducible assumption | with_reducible refine State.setFabLink_keeps ?_ | with_reducible refine State.drainCells_keeps ?_
                 | with_reducible refine State.updateKept_keeps ?_ | dsimp only | with_reducible refine KeepsX.of_next ?_)

theorem execFabNakReceive_keeps {s t : State} {l : Nat} {linkSeq : Nat} (h : s.Keeps t) : KeepsX s (execFabNakReceive l linkSeq t) := by
  unfold execFabNakReceive
  repeat' (first | with_reducible assumption | with_reducible refine State.setFabLink_keeps ?_ | with_reducible refine State.fabMove_keeps ?_
                 | with_reducible refine State.emit_keeps ?_ | with_reducible refine State.pmc_keeps ?_
                 | with_reducible refine State.satAdd_keeps ?_ | dsimp only | with_reducible refine KeepsX.ite ?_ ?_
                 | with_reducible refine KeepsX.of_next ?_ | split | intro _ _ _ | with_reducible refine Keeps.foldl ?_ ?_)

theorem execFabAckTimeout_keeps {s t : State} {l : Nat} (h : s.Keeps t) : KeepsX s (execFabAckTimeout l t) := by
  unfold execFabAckTimeout
  repeat' (first | with_reducible assumption | with_reducible refine State.fabMove_keeps ?_ | with_reducible refine KeepsX.ite ?_ ?_
                 | with_reducible refine KeepsX.of_next ?_)

theorem State.sendAck_keeps {s t : State} {l : Nat} (h : s.Keeps t) : s.Keeps (State.sendAck t l) := by
  unfold State.sendAck
  repeat' (first | with_reducible assumption | with_reducible refine State.emit_keeps ?_ | with_reducible refine State.setFabLink_keeps ?_)

theorem execFabAckInterval_keeps {s t : State} {l : Nat} (h : s.Keeps t) : KeepsX s (execFabAckInterval l t) := by
  unfold execFabAckInterval
  repeat' (first | with_reducible assumption | with_reducible refine State.sendAck_keeps ?_ | with_reducible refine KeepsX.ite ?_ ?_
                 | with_reducible refine KeepsX.of_next ?_)

theorem State.sendNak_keeps {s t : State} {l : Nat} (h : s.Keeps t) : s.Keeps (State.sendNak t l) := by
  unfold State.sendNak
  repeat' (first | with_reducible assumption | with_reducible refine State.emit_keeps ?_)

theorem State.acceptLink_keeps {s t : State} {l : Nat} {linkSeq : Nat} (h : s.Keeps t) : KeepsO s (State.acceptLink t l linkSeq) := by
  unfold State.acceptLink
  repeat' (first | with_reducible assumption | with_reducible refine State.setFabLink_keeps ?_ | with_reducible refine State.sendAck_keeps ?_
                 | with_reducible refine Keeps.ite ?_ ?_ | dsimp only | with_reducible exact KeepsO.of_none _
                 | with_reducible refine KeepsO.of_some ?_ | split)

theorem State.updPkt_keeps {s t : State} {id : Nat} {f : Pkt → Pkt} (h : s.Keeps t) : s.Keeps (State.updPkt t id f) := by
  unfold State.updPkt
  repeat' (first | with_reducible assumption | with_reducible refine State.settleQueue_keeps ?_ | with_reducible refine State.pump_keeps ?_
                 | with_reducible refine State.acctChanged_keeps ?_ | dsimp only | simp only [keeps_upd] | intro _ _ _
                 | with_reducible refine Keeps.foldl ?_ ?_)

theorem State.toInput_keeps {s t : State} {i : Nat} {p : Pkt} (h : s.Keeps t) : s.Keeps (State.toInput t i p) := by
  unfold State.toInput
  repeat' (first | with_reducible assumption | dsimp only | simp only [keeps_upd])

theorem State.enterFabric_keeps {s t : State} {p : Pkt} (h : s.Keeps t) : s.Keeps (State.enterFabric t p) := by
  unfold State.enterFabric
  repeat' (first | with_reducible assumption | with_reducible refine State.toInput_keeps ?_ | dsimp only | simp only [keeps_upd])

theorem State.fabricEnter_keeps {s t : State} {c : FabCell} {x2 : Nat} {m : Meta} {q : Nat} (h : s.Keeps t) : s.Keeps (State.fabricEnter t c x2 m q)
    := by
  unfold State.fabricEnter
  repeat' (first | with_reducible assumption | with_reducible refine State.enterFabric_keeps ?_)

theorem State.fabricSelect_keeps {s t : State} {c : FabCell} {x2 : Nat} {g : Nat} {m : Meta} (h : s.Keeps t) : KeepsP s (State.fabricSelect t c x2 g
    m) := by
  unfold State.fabricSelect
  repeat' (first | with_reducible assumption | with_reducible refine State.qselMiss_keeps ?_ | with_reducible refine State.fabricEnter_keeps ?_
                 | simp only [keepsP_mk] | split)

theorem State.fabricStamp_keeps {s t : State} {c : FabCell} {x2 : Nat} (h : s.Keeps t) : KeepsP s (State.fabricStamp t c x2) := by
  unfold State.fabricStamp
  repeat' (first | with_reducible assumption | with_reducible refine State.stampGen_keeps ?_ | with_reducible refine State.fabricSelect_keeps ?_
                 | with_reducible refine State.drainInc_keeps ?_ | with_reducible refine KeepsQ.snd ?_)

theorem State.startFabricPkt_keeps {s t : State} {c : FabCell} (h : s.Keeps t) : KeepsP s (State.startFabricPkt t c) := by
  unfold State.startFabricPkt
  repeat' (first | with_reducible assumption | with_reducible refine State.fabricStamp_keeps ?_)

theorem State.deliverCell_keeps {s t : State} {k : Nat} {c : FabCell} (h : s.Keeps t) : s.Keeps (t.deliverCell k c) := by
  unfold State.deliverCell
  extract_lets r put r1 count
  have hp : ∀ {t v}, s.Keeps t → s.Keeps (put t v) := fun h => keeps_upd.2 h
  have hc : ∀ {t e}, s.Keeps t → s.Keeps (count t e) := fun h => Keeps.ite (State.satAdd_keeps h) h
  split
  · split
    exact hp (KeepsP.get (by assumption) (State.startFabricPkt_keeps (hc h)))
  · split
    · exact hp h
    · split
      · exact hp h
      · exact hp (State.updPkt_keeps (hc h))

theorem deliverWaiting_keeps {s t : State} {x1 : Nat} {x2 : Nat} (h : s.Keeps t) : s.Keeps (deliverWaiting x1 x2 t) := by
  induction x1 generalizing t x2 with
  | zero =>
    unfold deliverWaiting
    repeat' (first | with_reducible assumption | with_reducible apply ih | with_reducible refine State.deliverCell_keeps ?_ | simp only [keepsP_mk]
                   | simp only [keeps_upd] | split)
  | succ n ih =>
    unfold deliverWaiting
    repeat' (first | with_reducible assumption | with_reducible apply ih | with_reducible refine State.deliverCell_keeps ?_ | dsimp only
                   | simp only [keeps_upd] | split)

theorem execFabCellReceive_keeps {s t : State} {l : Nat} {cell : List Byte} (h : s.Keeps t) : KeepsX s (execFabCellReceive l cell t) := by
  unfold execFabCellReceive
  repeat' (first | with_reducible assumption | with_reducible refine State.sendNak_keeps ?_ | with_reducible refine State.satAdd_keeps ?_
                 | with_reducible refine State.acceptLink_keeps ?_ | with_reducible refine deliverWaiting_keeps ?_
                 | with_reducible refine State.deliverCell_keeps ?_ | dsimp only | simp only [keeps_upd]
                 | with_reducible refine KeepsX.ite ?_ ?_ | with_reducible refine KeepsX.of_next ?_ | split
                 | with_reducible refine KeepsO.get (by assumption) ?_)

theorem execReorderTimeout_keeps {s t : State} {src : Nat} {express : Bool} (h : s.Keeps t) : KeepsX s (execReorderTimeout src express t) := by
  unfold execReorderTimeout
  repeat' (first | with_reducible assumption | with_reducible refine State.updPkt_keeps ?_ | with_reducible refine State.setEvent_keeps ?_
                 | with_reducible refine State.satAdd_keeps ?_ | with_reducible refine deliverWaiting_keeps ?_
                 | with_reducible refine Keeps.ite ?_ ?_ | dsimp only | simp only [keeps_upd] | with_reducible refine KeepsX.of_next ?_
                 | split)

theorem State.setCredit_keeps {s t : State} {p : Nat} {c : CreditState} (h : s.Keeps t) : s.Keeps (State.setCredit t p c) := by
  unfold State.setCredit
  repeat' (first | with_reducible assumption | dsimp only | simp only [keeps_upd])

theorem State.creditRefill_keeps {s t : State} {x1 : Nat} (h : s.Keeps t) : s.Keeps (State.creditRefill t x1) := by
  unfold State.creditRefill
  repeat' (first | with_reducible assumption | with_reducible refine State.setCredit_keeps ?_)

theorem State.grantMsg_keeps {s t : State} {src : Nat} {q : Nat} {granted : Nat} {epoch : Nat} {reject : Bool} (h : s.Keeps t) : s.Keeps
    (State.grantMsg t src q granted epoch reject) := by
  unfold State.grantMsg
  repeat' (first | with_reducible assumption | with_reducible refine State.drainCells_keeps ?_ | with_reducible refine State.queueCell_keeps ?_)

theorem execCreditStatusReceive_keeps {s t : State} {l : Nat} {linkSeq : Nat} {src : Nat} {port : Nat} {q : Nat} {tc : Nat} {weight : Nat} {on : Bool}
    (h : s.Keeps t) : KeepsX s (execCreditStatusReceive l linkSeq src port q tc weight on t) := by
  unfold execCreditStatusReceive
  repeat' (first | with_reducible assumption | with_reducible refine State.acceptLink_keeps ?_ | with_reducible refine State.sendNak_keeps ?_
                 | with_reducible refine State.creditRefill_keeps ?_ | with_reducible refine State.grantMsg_keeps ?_
                 | with_reducible refine State.setEvent_keeps ?_ | with_reducible refine State.satAdd_keeps ?_ | dsimp only
                 | simp only [keeps_upd] | with_reducible refine KeepsX.ite ?_ ?_ | with_reducible refine KeepsX.of_next ?_ | split
                 | with_reducible refine KeepsO.get (by assumption) ?_)

theorem execCflowIdleExpiry_keeps {s t : State} {src : Nat} {q : Nat} (h : s.Keeps t) : KeepsX s (execCflowIdleExpiry src q t) := by
  unfold execCflowIdleExpiry
  repeat' (first | with_reducible assumption | dsimp only | simp only [keeps_upd] | with_reducible refine KeepsX.of_next ?_)

theorem execCreditGenerate_keeps {s t : State} {port : Nat} (h : s.Keeps t) : KeepsX s (execCreditGenerate port t) := by
  unfold execCreditGenerate
  repeat' (first | with_reducible assumption | with_reducible refine State.creditRefill_keeps ?_ | with_reducible refine State.setCredit_keeps ?_
                 | with_reducible refine State.pmc_keeps ?_ | with_reducible refine State.grantMsg_keeps ?_ | dsimp only
                 | simp only [keeps_upd] | with_reducible refine KeepsX.ite ?_ ?_ | with_reducible refine KeepsX.of_next ?_ | split)

theorem execGrantReceive_keeps {s t : State} {l : Nat} {linkSeq : Nat} {q : Nat} {epoch : Nat} {granted : Nat} {reject : Bool} (h : s.Keeps t) :
    KeepsX s (execGrantReceive l linkSeq q epoch granted reject t) := by
  unfold execGrantReceive
  repeat' (first | with_reducible assumption | with_reducible refine State.acceptLink_keeps ?_ | with_reducible refine State.sendNak_keeps ?_
                 | with_reducible refine State.setQueue_keeps ?_ | dsimp only | with_reducible refine KeepsX.ite ?_ ?_
                 | with_reducible refine KeepsX.of_next ?_ | split | with_reducible refine KeepsO.get (by assumption) ?_)

theorem execStatusRefresh_keeps {s t : State} {q : Nat} (h : s.Keeps t) : KeepsX s (execStatusRefresh q t) := by
  unfold execStatusRefresh
  repeat' (first | with_reducible assumption | with_reducible refine State.statusMsg_keeps ?_ | with_reducible refine KeepsX.ite ?_ ?_
                 | with_reducible refine KeepsX.of_next ?_)

theorem execCflowRejectRetry_keeps {s t : State} {q : Nat} (h : s.Keeps t) : KeepsX s (execCflowRejectRetry q t) := by
  unfold execCflowRejectRetry
  repeat' (first | with_reducible assumption | with_reducible refine State.statusMsg_keeps ?_ | with_reducible refine State.setQueue_keeps ?_
                 | dsimp only | with_reducible refine KeepsX.ite ?_ ?_ | with_reducible refine KeepsX.of_next ?_)

theorem State.matchRound_keeps {s t : State} {first : Bool} {matched : List (Nat × Nat)} (h : s.Keeps t) : KeepsP s (State.matchRound t first matched)
    := by
  unfold State.matchRound
  repeat' (first | with_reducible assumption | with_reducible refine Keeps.ite ?_ ?_ | simp only [keepsP_mk] | simp only [keeps_upd] | intro _ _ _
                 | with_reducible refine Keeps.foldl ?_ ?_)

theorem State.toEgress_keeps {s t : State} {o : Nat} {p : Pkt} (h : s.Keeps t) : s.Keeps (State.toEgress t o p) := by
  unfold State.toEgress
  repeat' (first | with_reducible assumption | dsimp only | simp only [keeps_upd])

theorem State.switchCell_keeps {s t : State} {io : Nat × Nat} (h : s.Keeps t) : s.Keeps (State.switchCell t io) := by
  unfold State.switchCell
  repeat' (first | with_reducible assumption | with_reducible refine State.pmc_keeps ?_ | with_reducible refine State.satAdd_keeps ?_
                 | with_reducible refine State.toEgress_keeps ?_ | with_reducible refine Keeps.ite ?_ ?_ | dsimp only
                 | simp only [keeps_upd] | split)

theorem execSwitchMatching_keeps {s t : State} (h : s.Keeps t) : KeepsX s (execSwitchMatching t) := by
  unfold execSwitchMatching
  repeat' (first | with_reducible assumption | with_reducible refine State.matchRound_keeps ?_ | with_reducible refine State.switchCell_keeps ?_
                 | dsimp only | with_reducible refine KeepsX.ite ?_ ?_ | with_reducible refine KeepsX.of_next ?_
                 | with_reducible refine KeepsP.fst ?_ | intro _ _ _ | with_reducible refine Keeps.foldl ?_ ?_)

theorem execPacketDeparture_keeps {s t : State} {id : Nat} (h : s.Keeps t) : KeepsX s (execPacketDeparture id t) := by
  unfold execPacketDeparture
  repeat' (first | with_reducible assumption | with_reducible refine State.acctChanged_keeps ?_ | dsimp only | simp only [keeps_upd]
                 | with_reducible refine KeepsX.ite ?_ ?_ | with_reducible refine KeepsX.of_next ?_ | split)

theorem execAdmission_keeps {s t : State} {input : Nat} {ecc : Bool} (h : s.Keeps t) : KeepsX s (execAdmission input ecc t) := by
  unfold execAdmission
  repeat' (first | with_reducible assumption | with_reducible refine State.admitPkt_keeps ?_ | dsimp only | simp only [keeps_upd]
                 | with_reducible refine KeepsX.ite ?_ ?_ | with_reducible refine KeepsX.of_next ?_ | split)

theorem execSchedulerDecision_keeps {s t : State} {node : Nat} {ue : Nat} {cell : Nat} (h : s.Keeps t) : KeepsX s (execSchedulerDecision node ue cell
    t) := by
  unfold execSchedulerDecision
  repeat' (first | with_reducible assumption | with_reducible refine State.pickQueue_keeps ?_ | with_reducible refine State.releaseHead_keeps ?_
                 | with_reducible refine State.sumpError_keeps ?_ | with_reducible refine State.pmc_keeps ?_
                 | with_reducible refine KeepsX.ite ?_ ?_ | with_reducible refine KeepsX.of_next ?_ | split
                 | with_reducible refine KeepsP.get (by assumption) ?_)

theorem fabExpSet_keeps {s t : State} {c : Cmd} (h : s.Keeps t) : KeepsX s (fabExpSet c t) := by
  unfold fabExpSet
  repeat' (first | with_reducible assumption | with_reducible refine runCmd_keeps ?_ ?_ | with_reducible refine fail_keeps ?_
                 | with_reducible refine ok_keeps ?_ | dsimp only | simp only [keeps_upd] | split | intro _ _)

theorem execFabExpSet_keeps {s t : State} {c : Cmd} (h : s.Keeps t) : KeepsX s (execFabExpSet c t) := by
  unfold execFabExpSet
  repeat' (first | with_reducible assumption | with_reducible refine fabExpSet_keeps ?_)

theorem execFabExpRead_keeps {s t : State} {c : Cmd} (h : s.Keeps t) : KeepsX s (execFabExpRead c t) := by
  unfold execFabExpRead
  repeat' (first | with_reducible assumption | with_reducible refine fabExpSet_keeps ?_)

theorem execFabCflowRead_keeps {s t : State} {c : Cmd} (h : s.Keeps t) : KeepsX s (execFabCflowRead c t) := by
  unfold execFabCflowRead
  repeat' (first | with_reducible assumption | with_reducible refine runCmd_keeps ?_ ?_ | with_reducible refine fail_keeps ?_
                 | with_reducible refine ok_keeps ?_ | dsimp only | with_reducible refine KeepsP.ite ?_ ?_ | split | intro _ _)

/-! ### Dln -/

theorem State.expressGo_keeps {s t : State} {q : Nat} {x2 : Nat} {x3 : QPkt} {late : Bool} {ue : Nat} {cell : Nat} (h : s.Keeps t) : s.Keeps
    (State.expressGo t q x2 x3 late ue cell) := by
  unfold State.expressGo
  repeat' (first | with_reducible assumption | with_reducible refine State.pmc_keeps ?_ | with_reducible refine State.dlnAdd_keeps ?_
                 | with_reducible refine State.releaseHead_keeps ?_ | with_reducible refine State.sumpError_keeps ?_
                 | with_reducible refine Keeps.ite ?_ ?_ | dsimp only | simp only [keeps_upd])

theorem State.releaseCheck_keeps {s t : State} {q : Nat} {x2 : Nat} {x3 : QPkt} {ue : Nat} {cell : Nat} (h : s.Keeps t) : s.Keeps (State.releaseCheck
    t q x2 x3 ue cell) := by
  unfold State.releaseCheck
  repeat' (first | with_reducible assumption | with_reducible refine State.pmc_keeps ?_ | with_reducible refine State.setEvent_keeps ?_
                 | with_reducible refine State.settleQueue_keeps ?_ | with_reducible refine State.dropped_keeps ?_
                 | with_reducible refine State.takeQueued_keeps ?_ | with_reducible refine State.dlnAdd_keeps ?_
                 | with_reducible refine State.expressGo_keeps ?_ | with_reducible refine Keeps.ite ?_ ?_)

theorem execExpressRelease_keeps {s t : State} {node : Nat} {ue : Nat} {cell : Nat} (h : s.Keeps t) : KeepsX s (execExpressRelease node ue cell t) :=
    by
  unfold execExpressRelease
  repeat' (first | with_reducible assumption | with_reducible refine State.releaseCheck_keeps ?_ | with_reducible refine State.dlnAdd_keeps ?_
                 | with_reducible refine Keeps.ite ?_ ?_ | dsimp only | with_reducible refine KeepsX.ite ?_ ?_
                 | with_reducible refine KeepsX.of_next ?_ | split)

theorem State.setGate_keeps {s t : State} {p : Nat} {g : GateState} (h : s.Keeps t) : s.Keeps (State.setGate t p g) := by
  unfold State.setGate
  repeat' (first | with_reducible assumption | dsimp only | simp only [keeps_upd])

theorem execGateTransition_keeps {s t : State} {port : Nat} (h : s.Keeps t) : KeepsX s (execGateTransition port t) := by
  unfold execGateTransition
  repeat' (first | with_reducible assumption | with_reducible refine State.fset_keeps ?_ | with_reducible refine State.dlnAdd_keeps ?_
                 | dsimp only | with_reducible refine KeepsX.ite ?_ ?_ | with_reducible refine KeepsX.of_next ?_ | split)

theorem State.preemptUp_keeps {s t : State} {p : Nat} (h : s.Keeps t) : s.Keeps (State.preemptUp t p) := by
  unfold State.preemptUp
  repeat' (first | with_reducible assumption | with_reducible refine State.fset_keeps ?_ | with_reducible refine State.setPtx_keeps ?_
                 | with_reducible refine State.emit_keeps ?_ | with_reducible refine State.dlnAdd_keeps ?_ | with_reducible refine Keeps.ite ?_ ?_)

theorem State.preemptDown_keeps {s t : State} {p : Nat} (h : s.Keeps t) : s.Keeps (State.preemptDown t p) := by
  unfold State.preemptDown
  repeat' (first | with_reducible assumption | with_reducible refine State.fset_keeps ?_)

theorem execVerifyAttempt_keeps {s t : State} {port : Nat} (h : s.Keeps t) : KeepsX s (execVerifyAttempt port t) := by
  unfold execVerifyAttempt
  repeat' (first | with_reducible assumption | with_reducible refine State.emit_keeps ?_ | with_reducible refine State.dlnAdd_keeps ?_
                 | with_reducible refine State.setPtx_keeps ?_ | with_reducible refine State.setEvent_keeps ?_
                 | with_reducible refine State.fset_keeps ?_ | dsimp only | with_reducible refine KeepsX.ite ?_ ?_
                 | with_reducible refine KeepsX.of_next ?_)

theorem execVerifyResponse_keeps {s t : State} {port : Nat} (h : s.Keeps t) : KeepsX s (execVerifyResponse port t) := by
  unfold execVerifyResponse
  repeat' (first | with_reducible assumption | with_reducible refine State.fset_keeps ?_ | with_reducible refine KeepsX.ite ?_ ?_
                 | with_reducible refine KeepsX.of_next ?_)

theorem State.hookDlnPort_keeps {s t : State} {p : Nat} {v : Nat} (h : s.Keeps t) : s.Keeps (State.hookDlnPort t p v) := by
  unfold State.hookDlnPort
  repeat' (first | with_reducible assumption | with_reducible refine State.setEvent_keeps ?_ | with_reducible refine State.setReg_keeps ?_
                 | with_reducible refine Keeps.ite ?_ ?_)

theorem State.countDeferred_keeps {s t : State} {link : Nat} (h : s.Keeps t) : s.Keeps (State.countDeferred t link) := by
  unfold State.countDeferred
  repeat' (first | with_reducible assumption | with_reducible refine State.dlnAdd_keeps ?_ | with_reducible refine State.setPtx_keeps ?_
                 | with_reducible refine Keeps.ite ?_ ?_ | dsimp only | split | intro _ _ _ | with_reducible refine Keeps.foldl ?_ ?_)

theorem State.toFifo_keeps {s t : State} {p : Pkt} (h : s.Keeps t) : s.Keeps (State.toFifo t p) := by
  unfold State.toFifo
  repeat' (first | with_reducible assumption | with_reducible refine State.setPtx_keeps ?_)

theorem State.dropFifos_keeps {s t : State} {k : Nat} (h : s.Keeps t) : s.Keeps (State.dropFifos t k) := by
  unfold State.dropFifos
  repeat' (first | with_reducible assumption | with_reducible refine State.dlnAdd_keeps ?_ | with_reducible refine State.directDone_keeps ?_
                 | with_reducible refine State.drainDec_keeps ?_ | with_reducible refine State.setEvent_keeps ?_
                 | with_reducible refine State.emit_keeps ?_ | with_reducible refine State.setPtx_keeps ?_ | dsimp only | split
                 | intro _ _ _ | with_reducible refine Keeps.foldl ?_ ?_)

theorem dlnProfSet_keeps {s t : State} {c : Cmd} (h : s.Keeps t) : KeepsX s (dlnProfSet c t) := by
  unfold dlnProfSet
  repeat' (first | with_reducible assumption | with_reducible refine runCmd_keeps ?_ ?_ | with_reducible refine fail_keeps ?_
                 | with_reducible refine ok_keeps ?_ | dsimp only | simp only [keeps_upd] | split | intro _ _)

theorem execDlnProfSet_keeps {s t : State} {c : Cmd} (h : s.Keeps t) : KeepsX s (execDlnProfSet c t) := by
  unfold execDlnProfSet
  repeat' (first | with_reducible assumption | with_reducible refine dlnProfSet_keeps ?_)

theorem execDlnProfRead_keeps {s t : State} {c : Cmd} (h : s.Keeps t) : KeepsX s (execDlnProfRead c t) := by
  unfold execDlnProfRead
  repeat' (first | with_reducible assumption | with_reducible refine dlnProfSet_keeps ?_)

theorem dlnQmapSet_keeps {s t : State} {c : Cmd} (h : s.Keeps t) : KeepsX s (dlnQmapSet c t) := by
  unfold dlnQmapSet
  repeat' (first | with_reducible assumption | with_reducible refine runCmd_keeps ?_ ?_ | with_reducible refine fail_keeps ?_
                 | with_reducible refine ok_keeps ?_ | dsimp only | simp only [keeps_upd] | split | intro _ _)

theorem execDlnQmapSet_keeps {s t : State} {c : Cmd} (h : s.Keeps t) : KeepsX s (execDlnQmapSet c t) := by
  unfold execDlnQmapSet
  repeat' (first | with_reducible assumption | with_reducible refine dlnQmapSet_keeps ?_)

theorem execDlnQmapRead_keeps {s t : State} {c : Cmd} (h : s.Keeps t) : KeepsX s (execDlnQmapRead c t) := by
  unfold execDlnQmapRead
  repeat' (first | with_reducible assumption | with_reducible refine dlnQmapSet_keeps ?_)

theorem State.setOther_keeps {s t : State} {p : Nat} {b : GateBank} (h : s.Keeps t) : s.Keeps (State.setOther t p b) := by
  unfold State.setOther
  repeat' (first | with_reducible assumption | with_reducible refine State.setGate_keeps ?_)

theorem execGclWrite_keeps {s t : State} {c : Cmd} (h : s.Keeps t) : KeepsX s (execGclWrite c t) := by
  unfold execGclWrite
  repeat' (first | with_reducible assumption | with_reducible refine runCmd_keeps ?_ ?_ | with_reducible refine fail_keeps ?_
                 | with_reducible refine ok_keeps ?_ | with_reducible refine State.setOther_keeps ?_ | dsimp only
                 | with_reducible refine KeepsP.ite ?_ ?_ | split | intro _ _)

theorem execGclSet_keeps {s t : State} {c : Cmd} (h : s.Keeps t) : KeepsX s (execGclSet c t) := by
  unfold execGclSet
  repeat' (first | with_reducible assumption | with_reducible refine runCmd_keeps ?_ ?_ | with_reducible refine fail_keeps ?_
                 | with_reducible refine State.setOther_keeps ?_ | with_reducible refine State.fset_keeps ?_
                 | with_reducible refine State.setGate_keeps ?_ | with_reducible refine State.setInstant_keeps ?_
                 | with_reducible refine ok_keeps ?_ | dsimp only | with_reducible refine KeepsP.ite ?_ ?_ | split | intro _ _)

theorem execGclSwitch_keeps {s t : State} {port : Nat} (h : s.Keeps t) : KeepsX s (execGclSwitch port t) := by
  unfold execGclSwitch
  repeat' (first | with_reducible assumption | with_reducible refine State.fset_keeps ?_ | with_reducible refine State.setGate_keeps ?_
                 | with_reducible refine State.setEvent_keeps ?_ | dsimp only | with_reducible refine KeepsX.ite ?_ ?_
                 | with_reducible refine KeepsX.of_next ?_)

theorem execGclCancel_keeps {s t : State} {c : Cmd} (h : s.Keeps t) : KeepsX s (execGclCancel c t) := by
  unfold execGclCancel
  repeat' (first | with_reducible assumption | with_reducible refine runCmd_keeps ?_ ?_ | with_reducible refine fail_keeps ?_
                 | with_reducible refine ok_keeps ?_ | with_reducible refine State.fset_keeps ?_ | dsimp only
                 | with_reducible refine KeepsP.ite ?_ ?_ | split | intro _ _)

theorem execGclRead_keeps {s t : State} {c : Cmd} (h : s.Keeps t) : KeepsX s (execGclRead c t) := by
  unfold execGclRead
  repeat' (first | with_reducible assumption | with_reducible refine runCmd_keeps ?_ ?_ | with_reducible refine fail_keeps ?_
                 | with_reducible refine ok_keeps ?_ | with_reducible refine State.emit_keeps ?_ | dsimp only
                 | with_reducible refine KeepsP.ite ?_ ?_ | split | intro _ _)

end Sys2Proof.Machine
end

