-- ==== Sys2Proof/Laws/KeepsPorts.lean ====
section
/-! SUPPORT. What the operations and commands of these parts keep, the queue of waiting commands and the canonical form: receive packets, fabric links, line ports, FlexE, parser and packet path. -/

namespace Sys2Proof.Machine

open Sys2Proof

-- Not every alternative of a `first` is used on every path.
set_option linter.all false

/-! ### Rx -/

theorem State.setSlice_keeps {s t : State} {i : Nat} {v : SliceState} (h : s.Keeps t) : s.Keeps (State.setSlice t i v) := by
  unfold State.setSlice
  repeat' (first | with_reducible assumption | dsimp only | simp only [keeps_upd])

theorem State.newId_keeps {s t : State} (h : s.Keeps t) : KeepsQ s (State.newId t) := by
  unfold State.newId
  repeat' (first | with_reducible assumption | dsimp only | simp only [keepsQ_mk] | simp only [keeps_upd])

theorem State.policeOne_keeps {s t : State} {bind : Option Nat} {len : Nat} {last : Colour} {p : Policed} (h : s.Keeps t) : KeepsP s (State.policeOne
    t bind len last p) := by
  unfold State.policeOne
  repeat' (first | with_reducible assumption | with_reducible refine State.policerRun_keeps ?_ | with_reducible refine State.satAdd_keeps ?_
                 | with_reducible refine Keeps.ite ?_ ?_ | simp only [keepsP_mk] | with_reducible refine KeepsP.ite ?_ ?_
                 | with_reducible refine KeepsP.fst ?_ | split)

theorem State.police_keeps {s t : State} {b0 : Option Nat} {b1 : Option Nat} {precolor : Nat} {len : Nat} (h : s.Keeps t) : KeepsP s (State.police t
    b0 b1 precolor len) := by
  unfold State.police
  repeat' (first | with_reducible assumption | with_reducible refine State.policeOne_keeps ?_ | with_reducible refine KeepsP.fst ?_)

theorem State.updPacket_keeps {s t : State} {id : Nat} {f : Pkt → Pkt} (h : s.Keeps t) : s.Keeps (State.updPacket t id f) := by
  unfold State.updPacket
  repeat' (first | with_reducible assumption | with_reducible refine State.updPkt_keeps ?_ | dsimp only | simp only [keeps_upd])

theorem State.unfollow_keeps {s t : State} {id : Nat} (h : s.Keeps t) : s.Keeps (State.unfollow t id) := by
  unfold State.unfollow
  repeat' (first | with_reducible assumption | dsimp only | simp only [keeps_upd])

theorem State.failPackets_keeps {s t : State} {ids : List Nat} (h : s.Keeps t) : s.Keeps (State.failPackets t ids) := by
  unfold State.failPackets
  repeat' (first | with_reducible assumption | with_reducible refine State.updPacket_keeps ?_ | with_reducible refine State.drainDec_keeps ?_
                 | with_reducible refine State.setSlice_keeps ?_ | dsimp only | simp only [keeps_updHost] | intro _ _ _
                 | with_reducible refine Keeps.foldl ?_ ?_)

theorem State.setRx_keeps {s t : State} {k : Nat} {f : RxFrame} (h : s.Keeps t) : s.Keeps (State.setRx t k f) := by
  unfold State.setRx
  repeat' (first | with_reducible assumption | dsimp only | simp only [keeps_upd])

theorem State.frameIn_keeps {s t : State} {k : Nat} {bytes : List Byte} (h : s.Keeps t) : s.Keeps (State.frameIn t k bytes) := by
  unfold State.frameIn
  repeat' (first | with_reducible assumption | with_reducible refine State.stampGen_keeps ?_ | with_reducible refine State.newId_keeps ?_
                 | with_reducible refine State.drainInc_keeps ?_ | with_reducible refine State.setRx_keeps ?_
                 | with_reducible refine State.setSlice_keeps ?_ | with_reducible refine State.drainDec_keeps ?_
                 | with_reducible refine State.setEvent_keeps ?_ | with_reducible refine State.satAdd_keeps ?_
                 | with_reducible refine Keeps.ite ?_ ?_ | with_reducible refine KeepsQ.snd ?_)

theorem execFrameReceive_keeps {s t : State} {link : Nat} {bytes : List Byte} (h : s.Keeps t) : KeepsX s (execFrameReceive link bytes t) := by
  unfold execFrameReceive
  repeat' (first | with_reducible assumption | with_reducible refine State.setRx_keeps ?_ | with_reducible refine State.frameIn_keeps ?_
                 | with_reducible refine KeepsX.ite ?_ ?_ | with_reducible refine KeepsX.of_next ?_ | split)

theorem State.runDeferred_keeps {s t : State} {id : Nat} {len : Nat} {evict : Option Nat} (h : s.Keeps t) : s.Keeps (State.runDeferred t id len evict)
    := by
  unfold State.runDeferred
  repeat' (first | with_reducible assumption | with_reducible refine State.police_keeps ?_ | with_reducible refine State.flowCount_keeps ?_
                 | with_reducible refine State.failPackets_keeps ?_ | with_reducible refine Keeps.ite ?_ ?_ | dsimp only
                 | simp only [keeps_upd] | with_reducible refine KeepsP.fst ?_ | split)

theorem State.finishFrame_keeps {s t : State} {id : Nat} {len : Nat} {evict : Option Nat} (h : s.Keeps t) : s.Keeps (State.finishFrame t id len evict)
    := by
  unfold State.finishFrame
  repeat' (first | with_reducible assumption | with_reducible refine State.updPacket_keeps ?_ | with_reducible refine State.unfollow_keeps ?_
                 | with_reducible refine State.runDeferred_keeps ?_ | dsimp only | simp only [keeps_updHost] | intro _ _ _
                 | with_reducible refine Keeps.foldl ?_ ?_)

theorem State.failFrame_keeps {s t : State} {id : Nat} (h : s.Keeps t) : s.Keeps (State.failFrame t id) := by
  unfold State.failFrame
  repeat' (first | with_reducible assumption | with_reducible refine State.unfollow_keeps ?_ | with_reducible refine State.failPackets_keeps ?_
                 | dsimp only | simp only [keeps_upd])

theorem State.frameEnd_keeps {s t : State} {k : Nat} {ending : Nat} {evict : Option Nat} (h : s.Keeps t) : s.Keeps (State.frameEnd t k ending evict)
    := by
  unfold State.frameEnd
  repeat' (first | with_reducible assumption | with_reducible refine State.mibAdd_keeps ?_ | with_reducible refine State.failFrame_keeps ?_
                 | with_reducible refine State.finishFrame_keeps ?_ | with_reducible refine Keeps.ite ?_ ?_ | dsimp only
                 | simp only [keeps_upd] | split)

theorem execFrameEnd_keeps {s t : State} {link : Nat} {ending : Nat} {evict : Option Nat} (h : s.Keeps t) : KeepsX s (execFrameEnd link ending evict
    t) := by
  unfold execFrameEnd
  repeat' (first | with_reducible assumption | with_reducible refine State.frameEnd_keeps ?_ | with_reducible refine KeepsX.of_next ?_)

/-! ### Links -/

theorem State.setGroup_keeps {s t : State} {f : Nat} {g : FlexeGroup} (h : s.Keeps t) : s.Keeps (State.setGroup t f g) := by
  unfold State.setGroup
  repeat' (first | with_reducible assumption | dsimp only | simp only [keeps_upd])

theorem State.setLinkState_keeps {s t : State} {k : Nat} {st : Nat} (h : s.Keeps t) : s.Keeps (State.setLinkState t k st) := by
  unfold State.setLinkState
  repeat' (first | with_reducible assumption | with_reducible refine State.fset_keeps ?_ | with_reducible refine Keeps.ite ?_ ?_)

theorem State.setKeep_keeps {s t : State} {k : Nat} {keep : Bool} (h : s.Keeps t) : s.Keeps (State.setKeep t k keep) := by
  unfold State.setKeep
  repeat' (first | with_reducible assumption | dsimp only | simp only [keeps_upd])

theorem State.autoFlush_keeps {s t : State} {k : Nat} (h : s.Keeps t) : s.Keeps (State.autoFlush t k) := by
  unfold State.autoFlush
  repeat' (first | with_reducible assumption | with_reducible refine State.exmFlush_keeps ?_ | with_reducible refine Keeps.ite ?_ ?_
                 | with_reducible refine KeepsP.fst ?_)

theorem State.downAction_keeps {s t : State} {k : Nat} (h : s.Keeps t) : s.Keeps (State.downAction t k) := by
  unfold State.downAction
  repeat' (first | with_reducible assumption | with_reducible refine State.autoFlush_keeps ?_ | with_reducible refine State.setKeep_keeps ?_
                 | with_reducible refine State.fset_keeps ?_ | with_reducible refine State.startFlush_keeps ?_
                 | with_reducible refine Keeps.ite ?_ ?_ | dsimp only | simp only [keeps_upd])

theorem State.leaveUp_keeps {s t : State} {k : Nat} (h : s.Keeps t) : s.Keeps (State.leaveUp t k) := by
  unfold State.leaveUp
  repeat' (first | with_reducible assumption | with_reducible refine State.dropFifos_keeps ?_ | with_reducible refine State.preemptDown_keeps ?_
                 | with_reducible refine Keeps.ite ?_ ?_)

theorem State.goodChange_keeps {s t : State} {k : Nat} (h : s.Keeps t) : s.Keeps (State.goodChange t k) := by
  unfold State.goodChange
  repeat' (first | with_reducible assumption | with_reducible refine State.setLinkState_keeps ?_ | with_reducible refine Keeps.ite ?_ ?_
                 | dsimp only | simp only [keeps_upd])

theorem State.declareDown_keeps {s t : State} {k : Nat} (h : s.Keeps t) : s.Keeps (State.declareDown t k) := by
  unfold State.declareDown
  repeat' (first | with_reducible assumption | with_reducible refine State.linkEvent_keeps ?_ | with_reducible refine State.leaveUp_keeps ?_
                 | with_reducible refine State.mibAdd_keeps ?_ | with_reducible refine State.downAction_keeps ?_
                 | with_reducible refine State.setLinkState_keeps ?_ | with_reducible refine Keeps.ite ?_ ?_ | dsimp only
                 | simp only [keeps_upd])

theorem State.holdoffEnd_keeps {s t : State} {k : Nat} (h : s.Keeps t) : s.Keeps (State.holdoffEnd t k) := by
  unfold State.holdoffEnd
  repeat' (first | with_reducible assumption | with_reducible refine State.downAction_keeps ?_ | with_reducible refine State.setLinkState_keeps ?_
                 | with_reducible refine Keeps.ite ?_ ?_ | dsimp only | simp only [keeps_upd])

theorem State.declareUp_keeps {s t : State} {k : Nat} (h : s.Keeps t) : s.Keeps (State.declareUp t k) := by
  unfold State.declareUp
  repeat' (first | with_reducible assumption | with_reducible refine State.linkEvent_keeps ?_ | with_reducible refine State.setLinkState_keeps ?_
                 | with_reducible refine State.setKeep_keeps ?_ | with_reducible refine State.mibAdd_keeps ?_
                 | with_reducible refine State.preemptUp_keeps ?_ | with_reducible refine State.clearHolds_keeps ?_
                 | with_reducible refine Keeps.ite ?_ ?_ | dsimp only | simp only [keeps_upd] | split)

theorem State.readmitted_keeps {s t : State} {k : Nat} (h : s.Keeps t) : s.Keeps (State.readmitted t k) := by
  unfold State.readmitted
  repeat' (first | with_reducible assumption | with_reducible refine State.linkEvent_keeps ?_ | with_reducible refine State.setLinkState_keeps ?_
                 | with_reducible refine Keeps.ite ?_ ?_)

theorem State.disableLink_keeps {s t : State} {k : Nat} (h : s.Keeps t) : s.Keeps (State.disableLink t k) := by
  unfold State.disableLink
  repeat' (first | with_reducible assumption | with_reducible refine State.downAction_keeps ?_ | with_reducible refine State.setLinkState_keeps ?_
                 | with_reducible refine State.frameEnd_keeps ?_ | with_reducible refine State.leaveUp_keeps ?_
                 | with_reducible refine Keeps.ite ?_ ?_)

theorem State.enableLink_keeps {s t : State} {k : Nat} (h : s.Keeps t) : s.Keeps (State.enableLink t k) := by
  unfold State.enableLink
  repeat' (first | with_reducible assumption | with_reducible refine State.setKeep_keeps ?_ | with_reducible refine State.setLinkState_keeps ?_)

theorem State.selectPath_keeps {s t : State} {c : Nat} {path : Nat} {forSf : Bool} (h : s.Keeps t) : s.Keeps (State.selectPath t c path forSf) := by
  unfold State.selectPath
  repeat' (first | with_reducible assumption | with_reducible refine State.mibAdd_keeps ?_ | with_reducible refine State.failFrame_keeps ?_
                 | with_reducible refine State.linkEvent_keeps ?_ | with_reducible refine State.fset_keeps ?_
                 | with_reducible refine Keeps.ite ?_ ?_ | dsimp only | simp only [keeps_upd] | split)

theorem State.cancelLower_keeps {s t : State} {c : Nat} (h : s.Keeps t) : s.Keeps (State.cancelLower t c) := by
  unfold State.cancelLower
  repeat' (first | with_reducible assumption | dsimp only | simp only [keeps_upd])

theorem State.selector_keeps {s t : State} {c : Nat} (h : s.Keeps t) : s.Keeps (State.selector t c) := by
  unfold State.selector
  repeat' (first | with_reducible assumption | with_reducible refine State.fset_keeps ?_ | with_reducible refine State.selectPath_keeps ?_
                 | with_reducible refine State.cancelLower_keeps ?_ | with_reducible refine Keeps.ite ?_ ?_ | dsimp only
                 | simp only [keeps_upd])

theorem State.pathSf_keeps {s t : State} {c : Nat} {path : Nat} {sf : Bool} (h : s.Keeps t) : s.Keeps (State.pathSf t c path sf) := by
  unfold State.pathSf
  repeat' (first | with_reducible assumption | with_reducible refine State.fset_keeps ?_ | with_reducible refine Keeps.ite ?_ ?_
                 | dsimp only | simp only [keeps_upd])

theorem State.refreshClient_keeps {s t : State} {c : Nat} (h : s.Keeps t) : s.Keeps (State.refreshClient t c) := by
  unfold State.refreshClient
  repeat' (first | with_reducible assumption | with_reducible refine State.pathSf_keeps ?_ | with_reducible refine State.fset_keeps ?_
                 | with_reducible refine State.selector_keeps ?_ | with_reducible refine State.goodChange_keeps ?_
                 | with_reducible refine Keeps.ite ?_ ?_)

theorem State.refreshGroup_keeps {s t : State} {f : Nat} (h : s.Keeps t) : s.Keeps (State.refreshGroup t f) := by
  unfold State.refreshGroup
  repeat' (first | with_reducible assumption | with_reducible refine State.fset_keeps ?_ | with_reducible refine State.refreshClient_keeps ?_
                 | with_reducible refine Keeps.ite ?_ ?_ | dsimp only | intro _ _ _ | with_reducible refine Keeps.foldl ?_ ?_)

theorem State.refreshPort_keeps {s t : State} {p : Nat} (h : s.Keeps t) : s.Keeps (State.refreshPort t p) := by
  unfold State.refreshPort
  repeat' (first | with_reducible assumption | with_reducible refine State.refreshGroup_keeps ?_ | with_reducible refine Keeps.ite ?_ ?_)

/-! ### Ports -/

theorem State.startPort_keeps {s t : State} {p : Nat} (h : s.Keeps t) : s.Keeps (State.startPort t p) := by
  unfold State.startPort
  repeat' (first | with_reducible assumption | with_reducible refine State.enableLink_keeps ?_ | dsimp only | simp only [keeps_upd])

theorem State.stopPort_keeps {s t : State} {p : Nat} (h : s.Keeps t) : s.Keeps (State.stopPort t p) := by
  unfold State.stopPort
  repeat' (first | with_reducible assumption | with_reducible refine State.disableLink_keeps ?_ | dsimp only | simp only [keeps_upd])

theorem State.hookPortCfg_keeps {s t : State} {p : Nat} {v : Nat} (h : s.Keeps t) : s.Keeps (State.hookPortCfg t p v) := by
  unfold State.hookPortCfg
  repeat' (first | with_reducible assumption | with_reducible refine State.setReg_keeps ?_ | with_reducible refine State.refreshPort_keeps ?_
                 | with_reducible refine State.stopPort_keeps ?_ | with_reducible refine State.goodChange_keeps ?_
                 | with_reducible refine State.startPort_keeps ?_ | with_reducible refine State.linkEvent_keeps ?_
                 | with_reducible refine Keeps.ite ?_ ?_)

theorem State.hookLaneMap_keeps {s t : State} {g : Nat} {off : Nat} {v : Nat} (h : s.Keeps t) : s.Keeps (State.hookLaneMap t g off v) := by
  unfold State.hookLaneMap
  repeat' (first | with_reducible assumption | with_reducible refine State.setReg_keeps ?_ | with_reducible refine Keeps.ite ?_ ?_)

theorem State.hookPortMac_keeps {s t : State} {p : Nat} {v : Nat} (h : s.Keeps t) : s.Keeps (State.hookPortMac t p v) := by
  unfold State.hookPortMac
  repeat' (first | with_reducible assumption | with_reducible refine State.setReg_keeps ?_ | with_reducible refine State.refreshPort_keeps ?_
                 | with_reducible refine State.goodChange_keeps ?_)

theorem State.hookGrpCtrl_keeps {s t : State} {g : Nat} {v : Nat} (h : s.Keeps t) : s.Keeps (State.hookGrpCtrl t g v) := by
  unfold State.hookGrpCtrl
  repeat' (first | with_reducible assumption | with_reducible refine State.fset_keeps ?_ | with_reducible refine State.refreshPort_keeps ?_
                 | with_reducible refine State.stopPort_keeps ?_ | with_reducible refine Keeps.ite ?_ ?_ | intro _ _ _
                 | with_reducible refine Keeps.foldl ?_ ?_)

theorem execGroupCalDone_keeps {s t : State} {group : Nat} (h : s.Keeps t) : KeepsX s (execGroupCalDone group t) := by
  unfold execGroupCalDone
  repeat' (first | with_reducible assumption | with_reducible refine State.startPort_keeps ?_ | with_reducible refine State.refreshPort_keeps ?_
                 | with_reducible refine State.goodChange_keeps ?_ | with_reducible refine State.fset_keeps ?_
                 | with_reducible refine Keeps.ite ?_ ?_ | dsimp only | with_reducible refine KeepsX.ite ?_ ?_
                 | with_reducible refine KeepsX.of_next ?_ | intro _ _ _ | with_reducible refine Keeps.foldl ?_ ?_)

theorem execLinkConditionChange_keeps {s t : State} {port : Nat} {lock : Bool} {fec : Bool} {lf : Bool} {rf : Bool} {hiSer : Bool} {cwCorrected : Nat}
    {cwUncorrectable : Nat} {symCorrected : Nat} (h : s.Keeps t) : KeepsX s (execLinkConditionChange port lock fec lf rf hiSer cwCorrected
    cwUncorrectable symCorrected t) := by
  unfold execLinkConditionChange
  repeat' (first | with_reducible assumption | with_reducible refine State.fset_keeps ?_ | with_reducible refine State.linkEvent_keeps ?_
                 | with_reducible refine State.mibAdd_keeps ?_ | with_reducible refine State.frameEnd_keeps ?_
                 | with_reducible refine State.refreshPort_keeps ?_ | with_reducible refine State.goodChange_keeps ?_
                 | with_reducible refine Keeps.ite ?_ ?_ | dsimp only | with_reducible refine KeepsX.ite ?_ ?_
                 | with_reducible refine KeepsX.of_next ?_)

theorem execLinkDownDeclared_keeps {s t : State} {port : Nat} (h : s.Keeps t) : KeepsX s (execLinkDownDeclared port t) := by
  unfold execLinkDownDeclared
  repeat' (first | with_reducible assumption | with_reducible refine State.declareDown_keeps ?_ | with_reducible refine KeepsX.of_next ?_)

theorem execLinkUpDeclared_keeps {s t : State} {port : Nat} (h : s.Keeps t) : KeepsX s (execLinkUpDeclared port t) := by
  unfold execLinkUpDeclared
  repeat' (first | with_reducible assumption | with_reducible refine State.declareUp_keeps ?_ | with_reducible refine KeepsX.of_next ?_)

theorem execHoldoffExpiry_keeps {s t : State} {link : Nat} (h : s.Keeps t) : KeepsX s (execHoldoffExpiry link t) := by
  unfold execHoldoffExpiry
  repeat' (first | with_reducible assumption | with_reducible refine State.holdoffEnd_keeps ?_ | with_reducible refine KeepsX.of_next ?_)

theorem execPortFlushDone_keeps {s t : State} {link : Nat} (h : s.Keeps t) : KeepsX s (execPortFlushDone link t) := by
  unfold execPortFlushDone
  repeat' (first | with_reducible assumption | with_reducible refine State.completeFlush_keeps ?_ | dsimp only
                 | with_reducible refine KeepsX.of_next ?_ | split)

theorem execReadmitDone_keeps {s t : State} {link : Nat} (h : s.Keeps t) : KeepsX s (execReadmitDone link t) := by
  unfold execReadmitDone
  repeat' (first | with_reducible assumption | with_reducible refine State.readmitted_keeps ?_ | with_reducible refine KeepsX.of_next ?_)

theorem State.hookPortCal_keeps {s t : State} {p : Nat} {v : Nat} (h : s.Keeps t) : s.Keeps (State.hookPortCal t p v) := by
  unfold State.hookPortCal
  repeat' (first | with_reducible assumption | with_reducible refine Keeps.ite ?_ ?_ | dsimp only | simp only [keeps_upd])

theorem execPortCalDone_keeps {s t : State} {port : Nat} {converged : Bool} {rxInt : Nat} {txInt : Nat} (h : s.Keeps t) : KeepsX s (execPortCalDone
    port converged rxInt txInt t) := by
  unfold execPortCalDone
  repeat' (first | with_reducible assumption | with_reducible refine State.fset_keeps ?_ | with_reducible refine State.linkEvent_keeps ?_
                 | with_reducible refine Keeps.ite ?_ ?_ | dsimp only | simp only [keeps_upd] | with_reducible refine KeepsX.ite ?_ ?_
                 | with_reducible refine KeepsX.of_next ?_)

theorem execPauseFrameReceived_keeps {s t : State} {port : Nat} {pfc : Bool} {prios : Nat} {quanta : List Nat} (h : s.Keeps t) : KeepsX s
    (execPauseFrameReceived port pfc prios quanta t) := by
  unfold execPauseFrameReceived
  repeat' (first | with_reducible assumption | with_reducible refine State.mibAdd_keeps ?_ | with_reducible refine State.setHold_keeps ?_
                 | with_reducible refine Keeps.ite ?_ ?_ | dsimp only | with_reducible refine KeepsX.ite ?_ ?_
                 | with_reducible refine KeepsX.of_next ?_ | intro _ _ _ | with_reducible refine Keeps.foldl ?_ ?_)

theorem execPauseTimerExpiry_keeps {s t : State} {port : Nat} {cls : Nat} (h : s.Keeps t) : KeepsX s (execPauseTimerExpiry port cls t) := by
  unfold execPauseTimerExpiry
  repeat' (first | with_reducible assumption | with_reducible refine State.setHold_keeps ?_ | with_reducible refine KeepsX.of_next ?_)

/-! ### Flexe -/

theorem State.hookFxeGrp_keeps {s t : State} {f : Nat} {v : Nat} (h : s.Keeps t) : s.Keeps (State.hookFxeGrp t f v) := by
  unfold State.hookFxeGrp
  repeat' (first | with_reducible assumption | with_reducible refine State.setReg_keeps ?_ | with_reducible refine State.refreshClient_keeps ?_
                 | with_reducible refine State.setGroup_keeps ?_ | with_reducible refine State.refreshGroup_keeps ?_
                 | with_reducible refine State.fset_keeps ?_ | with_reducible refine State.setEvent_keeps ?_ | with_reducible refine Keeps.ite ?_ ?_
                 | dsimp only | intro _ _ _ | with_reducible refine Keeps.foldl ?_ ?_)

theorem State.hookFxePhy_keeps {s t : State} {f : Nat} {off : Nat} {v : Nat} (h : s.Keeps t) : s.Keeps (State.hookFxePhy t f off v) := by
  unfold State.hookFxePhy
  repeat' (first | with_reducible assumption | with_reducible refine State.setReg_keeps ?_ | with_reducible refine Keeps.ite ?_ ?_)

theorem State.clientErr_keeps {s t : State} {c : Nat} (h : s.Keeps t) : s.Keeps (State.clientErr t c) := by
  unfold State.clientErr
  repeat' (first | with_reducible assumption | with_reducible refine State.linkEvent_keeps ?_ | with_reducible refine State.fset_keeps ?_)

theorem State.hookFxeClient_keeps {s t : State} {c : Nat} {v : Nat} (h : s.Keeps t) : s.Keeps (State.hookFxeClient t c v) := by
  unfold State.hookFxeClient
  repeat' (first | with_reducible assumption | with_reducible refine State.setReg_keeps ?_ | with_reducible refine State.disableLink_keeps ?_
                 | with_reducible refine State.fset_keeps ?_ | with_reducible refine State.refreshClient_keeps ?_
                 | with_reducible refine State.enableLink_keeps ?_ | with_reducible refine State.clientErr_keeps ?_
                 | with_reducible refine Keeps.ite ?_ ?_)

theorem State.hookFxeProt_keeps {s t : State} {c : Nat} {v : Nat} (h : s.Keeps t) : s.Keeps (State.hookFxeProt t c v) := by
  unfold State.hookFxeProt
  repeat' (first | with_reducible assumption | with_reducible refine State.setReg_keeps ?_ | with_reducible refine State.refreshClient_keeps ?_
                 | with_reducible refine State.clientErr_keeps ?_ | with_reducible refine State.selectPath_keeps ?_
                 | with_reducible refine State.fset_keeps ?_ | with_reducible refine Keeps.ite ?_ ?_ | dsimp only
                 | simp only [keeps_upd])

theorem State.hookFxeMac_keeps {s t : State} {c : Nat} {v : Nat} (h : s.Keeps t) : s.Keeps (State.hookFxeMac t c v) := by
  unfold State.hookFxeMac
  repeat' (first | with_reducible assumption | with_reducible refine State.setReg_keeps ?_)

theorem State.hookFxeInteg_keeps {s t : State} {d : Nat} {v : Nat} (h : s.Keeps t) : s.Keeps (State.hookFxeInteg t d v) := by
  unfold State.hookFxeInteg
  repeat' (first | with_reducible assumption | with_reducible refine State.setReg_keeps ?_)

theorem State.setOh_keeps {s t : State} {p : Nat} {j : Nat} {o : OhState} (h : s.Keeps t) : s.Keeps (State.setOh t p j o) := by
  unfold State.setOh
  repeat' (first | with_reducible assumption | dsimp only | simp only [keeps_upd])

theorem State.phyAdd_keeps {s t : State} {p : Nat} {counter : Nat} {x3 : Nat} (h : s.Keeps t) : s.Keeps (State.phyAdd t p counter x3) := by
  unfold State.phyAdd
  repeat' (first | with_reducible assumption | dsimp only | simp only [keeps_upd])

theorem State.settleDefects_keeps {s t : State} {p : Nat} (h : s.Keeps t) : s.Keeps (State.settleDefects t p) := by
  unfold State.settleDefects
  repeat' (first | with_reducible assumption | with_reducible refine State.setOh_keeps ?_ | with_reducible refine State.phyAdd_keeps ?_
                 | with_reducible refine State.fset_keeps ?_ | with_reducible refine Keeps.ite ?_ ?_ | dsimp only | simp only [keeps_upd]
                 | split | intro _ _ _ | with_reducible refine Keeps.foldl ?_ ?_)

theorem execDefectIntegrationExpiry_keeps {s t : State} {port : Nat} {d : Nat} (h : s.Keeps t) : KeepsX s (execDefectIntegrationExpiry port d t) := by
  unfold execDefectIntegrationExpiry
  repeat' (first | with_reducible assumption | with_reducible refine State.fset_keeps ?_ | with_reducible refine State.setEventBits_keeps ?_
                 | dsimp only | with_reducible refine KeepsX.ite ?_ ?_ | with_reducible refine KeepsX.of_next ?_)

theorem State.noteCa_keeps {s t : State} {f : Nat} (h : s.Keeps t) : s.Keeps (State.noteCa t f) := by
  unfold State.noteCa
  repeat' (first | with_reducible assumption | with_reducible refine State.setGroup_keeps ?_ | with_reducible refine Keeps.ite ?_ ?_
                 | dsimp only | split)

theorem State.rxAuto_keeps {s t : State} {f : Nat} (h : s.Keeps t) : s.Keeps (State.rxAuto t f) := by
  unfold State.rxAuto
  repeat' (first | with_reducible assumption | with_reducible refine State.setGroup_keeps ?_ | with_reducible refine Keeps.ite ?_ ?_)

theorem State.updateCaTx_keeps {s t : State} {f : Nat} (h : s.Keeps t) : s.Keeps (State.updateCaTx t f) := by
  unfold State.updateCaTx
  repeat' (first | with_reducible assumption | with_reducible refine State.fset_keeps ?_ | with_reducible refine Keeps.ite ?_ ?_)

theorem execOverheadFrameReceive_keeps {s t : State} {port : Nat} {inst : Nat} {o : OhFrame} (h : s.Keeps t) : KeepsX s (execOverheadFrameReceive port
    inst o t) := by
  unfold execOverheadFrameReceive
  repeat' (first | with_reducible assumption | with_reducible refine State.phyAdd_keeps ?_ | with_reducible refine State.settleDefects_keeps ?_
                 | with_reducible refine State.setOh_keeps ?_ | with_reducible refine State.fset_keeps ?_
                 | with_reducible refine State.refreshGroup_keeps ?_ | with_reducible refine State.noteCa_keeps ?_
                 | with_reducible refine State.setEvent_keeps ?_ | with_reducible refine State.updateCaTx_keeps ?_
                 | with_reducible refine State.rxAuto_keeps ?_ | with_reducible refine Keeps.ite ?_ ?_ | dsimp only
                 | with_reducible refine KeepsX.ite ?_ ?_ | with_reducible refine KeepsX.of_next ?_ | split)

theorem execOverheadFrameTransmit_keeps {s t : State} {f : Nat} {index : Nat} (h : s.Keeps t) : KeepsX s (execOverheadFrameTransmit f index t) := by
  unfold execOverheadFrameTransmit
  repeat' (first | with_reducible assumption | with_reducible refine State.fset_keeps ?_ | with_reducible refine State.setGroup_keeps ?_
                 | with_reducible refine State.emit_keeps ?_ | dsimp only | with_reducible refine KeepsX.ite ?_ ?_
                 | with_reducible refine KeepsX.of_next ?_ | split | intro _ _ _ | with_reducible refine Keeps.foldl ?_ ?_)

theorem execMgmtPacketReceive_keeps {s t : State} {f : Nat} {channel : Nat} {bytes : List Byte} (h : s.Keeps t) : KeepsX s (execMgmtPacketReceive f
    channel bytes t) := by
  unfold execMgmtPacketReceive
  repeat' (first | with_reducible assumption | with_reducible refine State.setEvent_keeps ?_ | with_reducible refine State.satAdd_keeps ?_
                 | with_reducible refine State.setGroup_keeps ?_ | dsimp only | with_reducible refine KeepsX.ite ?_ ?_
                 | with_reducible refine KeepsX.of_next ?_)

theorem execFxeMgmtSend_keeps {s t : State} {c : Cmd} {d : HostData} (h : s.Keeps t) : KeepsX s (execFxeMgmtSend c d t) := by
  unfold execFxeMgmtSend
  repeat' (first | with_reducible assumption | with_reducible refine runCmd_keeps ?_ ?_ | with_reducible refine fail_keeps ?_
                 | with_reducible refine ok_keeps ?_ | with_reducible refine State.emit_keeps ?_ | dsimp only
                 | with_reducible refine KeepsP.ite ?_ ?_ | split | intro _ _)

theorem execFxeMgmtRecv_keeps {s t : State} {c : Cmd} (h : s.Keeps t) : KeepsX s (execFxeMgmtRecv c t) := by
  unfold execFxeMgmtRecv
  repeat' (first | with_reducible assumption | with_reducible refine runCmd_keeps ?_ ?_ | with_reducible refine fail_keeps ?_
                 | with_reducible refine State.setGroup_keeps ?_ | with_reducible refine ok_keeps ?_ | with_reducible refine State.emit_keeps ?_
                 | dsimp only | with_reducible refine KeepsP.ite ?_ ?_ | split | intro _ _)

theorem execFxeCalWrite_keeps {s t : State} {c : Cmd} (h : s.Keeps t) : KeepsX s (execFxeCalWrite c t) := by
  unfold execFxeCalWrite
  repeat' (first | with_reducible assumption | with_reducible refine runCmd_keeps ?_ ?_ | with_reducible refine fail_keeps ?_
                 | with_reducible refine ok_keeps ?_ | with_reducible refine State.setGroup_keeps ?_ | dsimp only
                 | with_reducible refine KeepsP.ite ?_ ?_ | split | intro _ _)

theorem execFxeCalRead_keeps {s t : State} {c : Cmd} (h : s.Keeps t) : KeepsX s (execFxeCalRead c t) := by
  unfold execFxeCalRead
  repeat' (first | with_reducible assumption | with_reducible refine runCmd_keeps ?_ ?_ | with_reducible refine fail_keeps ?_
                 | with_reducible refine ok_keeps ?_ | dsimp only | with_reducible refine KeepsP.ite ?_ ?_ | split | intro _ _)

theorem execFxeCalCopy_keeps {s t : State} {c : Cmd} (h : s.Keeps t) : KeepsX s (execFxeCalCopy c t) := by
  unfold execFxeCalCopy
  repeat' (first | with_reducible assumption | with_reducible refine runCmd_keeps ?_ ?_ | with_reducible refine fail_keeps ?_
                 | with_reducible refine ok_keeps ?_ | with_reducible refine State.setGroup_keeps ?_ | dsimp only
                 | with_reducible refine KeepsP.ite ?_ ?_ | split | intro _ _)

theorem execFxeCalSwitch_keeps {s t : State} {c : Cmd} (h : s.Keeps t) : KeepsX s (execFxeCalSwitch c t) := by
  unfold execFxeCalSwitch
  repeat' (first | with_reducible assumption | with_reducible refine runCmd_keeps ?_ ?_ | with_reducible refine fail_keeps ?_
                 | with_reducible refine State.setGroup_keeps ?_ | with_reducible refine State.fset_keeps ?_ | simp only [keepsP_mk]
                 | with_reducible refine KeepsP.ite ?_ ?_ | split | intro _ _ _ | intro _ _ | with_reducible refine Keeps.foldl ?_ ?_)

theorem execCalSwitchExecute_keeps {s t : State} {f : Nat} (h : s.Keeps t) : KeepsX s (execCalSwitchExecute f t) := by
  unfold execCalSwitchExecute
  repeat' (first | with_reducible assumption | with_reducible refine State.fset_keeps ?_ | with_reducible refine State.setInstant_keeps ?_
                 | with_reducible refine State.refreshGroup_keeps ?_ | with_reducible refine State.setEvent_keeps ?_
                 | with_reducible refine State.setGroup_keeps ?_ | with_reducible refine State.complete_keeps ?_ | dsimp only
                 | with_reducible refine KeepsX.ite ?_ ?_ | with_reducible refine KeepsX.of_next ?_ | split | intro _ _ _
                 | with_reducible refine Keeps.foldl ?_ ?_)

theorem execCalSwitchTimeout_keeps {s t : State} {f : Nat} (h : s.Keeps t) : KeepsX s (execCalSwitchTimeout f t) := by
  unfold execCalSwitchTimeout
  repeat' (first | with_reducible assumption | with_reducible refine State.setEvent_keeps ?_ | with_reducible refine State.fset_keeps ?_
                 | with_reducible refine State.setGroup_keeps ?_ | with_reducible refine State.complete_keeps ?_ | dsimp only
                 | with_reducible refine KeepsX.of_next ?_ | split | intro _ _ _ | with_reducible refine Keeps.foldl ?_ ?_)

theorem execClientDownDeclared_keeps {s t : State} {c : Nat} (h : s.Keeps t) : KeepsX s (execClientDownDeclared c t) := by
  unfold execClientDownDeclared
  repeat' (first | with_reducible assumption | with_reducible refine State.declareDown_keeps ?_ | with_reducible refine KeepsX.of_next ?_)

theorem execClientUpDeclared_keeps {s t : State} {c : Nat} (h : s.Keeps t) : KeepsX s (execClientUpDeclared c t) := by
  unfold execClientUpDeclared
  repeat' (first | with_reducible assumption | with_reducible refine State.declareUp_keeps ?_ | with_reducible refine KeepsX.of_next ?_)

theorem execSfHoldoffExpiry_keeps {s t : State} {c : Nat} {path : Nat} (h : s.Keeps t) : KeepsX s (execSfHoldoffExpiry c path t) := by
  unfold execSfHoldoffExpiry
  repeat' (first | with_reducible assumption | with_reducible refine State.goodChange_keeps ?_ | with_reducible refine State.selector_keeps ?_
                 | dsimp only | simp only [keeps_upd] | with_reducible refine KeepsX.ite ?_ ?_ | with_reducible refine KeepsX.of_next ?_)

theorem execWaitToRestoreExpiry_keeps {s t : State} {c : Nat} (h : s.Keeps t) : KeepsX s (execWaitToRestoreExpiry c t) := by
  unfold execWaitToRestoreExpiry
  repeat' (first | with_reducible assumption | with_reducible refine State.goodChange_keeps ?_ | with_reducible refine State.selector_keeps ?_
                 | with_reducible refine State.selectPath_keeps ?_ | dsimp only | simp only [keeps_upd]
                 | with_reducible refine KeepsX.ite ?_ ?_ | with_reducible refine KeepsX.of_next ?_)

theorem execFxeProtOp_keeps {s t : State} {c : Cmd} (h : s.Keeps t) : KeepsX s (execFxeProtOp c t) := by
  unfold execFxeProtOp
  repeat' (first | with_reducible assumption | with_reducible refine runCmd_keeps ?_ ?_ | with_reducible refine fail_keeps ?_
                 | with_reducible refine State.goodChange_keeps ?_ | with_reducible refine State.selector_keeps ?_
                 | with_reducible refine ok_keeps ?_ | with_reducible refine Keeps.ite ?_ ?_ | dsimp only | simp only [keeps_upd]
                 | with_reducible refine KeepsP.ite ?_ ?_ | split | intro _ _)

/-! ### Parser -/

theorem State.setBank_keeps {s t : State} {b : Nat} {v : Bank} (h : s.Keeps t) : s.Keeps (State.setBank t b v) := by
  unfold State.setBank
  repeat' (first | with_reducible assumption | dsimp only | simp only [keeps_upd])

theorem State.hookTrace_keeps {s t : State} {v : Nat} (h : s.Keeps t) : s.Keeps (State.hookTrace t v) := by
  unfold State.hookTrace
  repeat' (first | with_reducible assumption | with_reducible refine State.setReg_keeps ?_)

theorem State.traceCapture_keeps {s t : State} {slice : Nat} {p : Pkt} {record : List Byte} (h : s.Keeps t) : s.Keeps (State.traceCapture t slice p
    record) := by
  unfold State.traceCapture
  repeat' (first | with_reducible assumption | with_reducible refine State.setReg_keeps ?_ | with_reducible refine State.setEvent_keeps ?_
                 | with_reducible refine State.fset_keeps ?_ | with_reducible refine Keeps.ite ?_ ?_ | intro _ _ _
                 | with_reducible refine Keeps.foldl ?_ ?_)

theorem State.parseCount_keeps {s t : State} {slice : Nat} {r : Parse} (h : s.Keeps t) : s.Keeps (State.parseCount t slice r) := by
  unfold State.parseCount
  repeat' (first | with_reducible assumption | with_reducible refine State.setEvent_keeps ?_ | with_reducible refine State.satAdd_keeps ?_
                 | with_reducible refine Keeps.ite ?_ ?_)

theorem State.installBank_keeps {s t : State} {x1 : Nat} {b : Bank} (h : s.Keeps t) : s.Keeps (State.installBank t x1 b) := by
  unfold State.installBank
  repeat' (first | with_reducible assumption | with_reducible refine State.setReg_keeps ?_ | with_reducible refine State.setBank_keeps ?_)

theorem State.parLoad_keeps {s t : State} {off : Nat} {bytes : List Byte} (h : s.Keeps t) : KeepsP s (State.parLoad t off bytes) := by
  unfold State.parLoad
  repeat' (first | with_reducible assumption | with_reducible refine State.fset_keeps ?_ | with_reducible refine State.installBank_keeps ?_
                 | simp only [keepsP_mk] | split)

theorem parLoadCmd_keeps {s t : State} {c : Cmd} {d : HostData} (h : s.Keeps t) : KeepsP s (parLoadCmd c d t) := by
  unfold parLoadCmd
  repeat' (first | with_reducible assumption | with_reducible refine fail_keeps ?_ | with_reducible refine State.parLoad_keeps ?_
                 | simp only [keepsP_mk] | with_reducible refine KeepsP.ite ?_ ?_ | with_reducible refine KeepsP.fst ?_ | split)

theorem parReadCmd_keeps {s t : State} {c : Cmd} (h : s.Keeps t) : KeepsP s (parReadCmd c t) := by
  unfold parReadCmd
  repeat' (first | with_reducible assumption | with_reducible refine fail_keeps ?_ | with_reducible refine ok_keeps ?_
                 | with_reducible refine State.emit_keeps ?_ | dsimp only | with_reducible refine KeepsP.ite ?_ ?_)

/-! ### Ingress -/

theorem State.passProbes_keeps {s t : State} {p : Pkt} (h : s.Keeps t) : KeepsQ s (State.passProbes t p).2.2 := by
  unfold State.passProbes
  repeat' (first | with_reducible assumption | with_reducible refine State.free_keeps ?_ | dsimp only | simp only [keepsQ_mk]
                 | with_reducible refine KeepsQ.snd ?_ | split)

theorem State.issueProbes_keeps {s t : State} {i : Nat} {x2 : Nat} {em : Nat} (h : s.Keeps t) : s.Keeps (State.issueProbes t i x2 em) := by
  unfold State.issueProbes
  repeat' (first | with_reducible assumption | with_reducible refine State.pairAdd_keeps ?_ | with_reducible refine State.fset_keeps ?_
                 | with_reducible refine State.hbfAccess_keeps ?_ | with_reducible refine State.pmc_keeps ?_)

theorem State.earnCredit_keeps {s t : State} {i : Nat} {cycles : Nat} (h : s.Keeps t) : s.Keeps (State.earnCredit t i cycles) := by
  unfold State.earnCredit
  repeat' (first | with_reducible assumption | with_reducible refine State.fset_keeps ?_)

theorem State.setCamStep_keeps {s t : State} {step : Nat} (h : s.Keeps t) : s.Keeps (State.setCamStep t step) := by
  unfold State.setCamStep
  repeat' (first | with_reducible assumption | with_reducible refine State.setSlice_keeps ?_ | with_reducible refine State.setEvent_keeps ?_
                 | with_reducible refine State.fset_keeps ?_ | with_reducible refine Keeps.ite ?_ ?_ | dsimp only | intro _ _ _
                 | with_reducible refine Keeps.foldl ?_ ?_)

theorem State.injectStamp_keeps {s t : State} {slice : Nat} {p : Pkt} (h : s.Keeps t) : KeepsP s (State.injectStamp t slice p) := by
  unfold State.injectStamp
  repeat' (first | with_reducible assumption | with_reducible refine State.stampGen_keeps ?_ | with_reducible refine State.drainInc_keeps ?_
                 | simp only [keepsP_mk] | with_reducible refine KeepsP.ite ?_ ?_ | with_reducible refine KeepsQ.snd ?_)

theorem execSlotGrant_keeps {s t : State} {slice : Nat} {idle : Nat} (h : s.Keeps t) : KeepsX s (execSlotGrant slice idle t) := by
  unfold execSlotGrant
  repeat' (first | with_reducible assumption | with_reducible refine State.pmc_keeps ?_ | with_reducible refine State.earnCredit_keeps ?_
                 | with_reducible refine State.setSlice_keeps ?_ | with_reducible refine State.satAdd_keeps ?_
                 | with_reducible refine State.injectStamp_keeps ?_ | with_reducible refine State.passProbes_keeps ?_
                 | with_reducible refine State.issueProbes_keeps ?_ | with_reducible refine Keeps.ite ?_ ?_ | dsimp only
                 | with_reducible refine KeepsX.ite ?_ ?_ | with_reducible refine KeepsX.of_next ?_ | with_reducible refine KeepsP.fst ?_
                 | with_reducible refine KeepsQ.snd ?_ | split)

theorem execFreezeEnd_keeps {s t : State} {slice : Nat} {cycles : Nat} (h : s.Keeps t) : KeepsX s (execFreezeEnd slice cycles t) := by
  unfold execFreezeEnd
  repeat' (first | with_reducible assumption | with_reducible refine State.pmc_keeps ?_ | with_reducible refine State.satAdd_keeps ?_
                 | with_reducible refine State.earnCredit_keeps ?_ | with_reducible refine State.setSlice_keeps ?_
                 | with_reducible refine State.issueProbes_keeps ?_ | dsimp only | with_reducible refine KeepsX.ite ?_ ?_
                 | with_reducible refine KeepsX.of_next ?_)

theorem State.toHost_keeps {s t : State} {slice : Nat} {ring : Nat} {reason : Nat} {cookie : Nat} {conflict : Bool} {p : Pkt} (h : s.Keeps t) :
    s.Keeps (State.toHost t slice ring reason cookie conflict p) := by
  unfold State.toHost
  repeat' (first | with_reducible assumption | with_reducible refine State.satAdd_keeps ?_ | with_reducible refine Keeps.ite ?_ ?_
                 | dsimp only | simp only [keeps_updHost])

theorem State.followFrame_keeps {s t : State} {frame : Pkt} {copy : Pkt} {flood : Bool} (h : s.Keeps t) : s.Keeps (State.followFrame t frame copy
    flood) := by
  unfold State.followFrame
  repeat' (first | with_reducible assumption | with_reducible refine Keeps.ite ?_ ?_ | dsimp only | simp only [keeps_upd])

theorem State.hostCopy_keeps {s t : State} {slice : Nat} {ring : Nat} {reason : Nat} {cookie : Nat} {p : Pkt} (h : s.Keeps t) : s.Keeps
    (State.hostCopy t slice ring reason cookie p) := by
  unfold State.hostCopy
  repeat' (first | with_reducible assumption | with_reducible refine State.newId_keeps ?_ | with_reducible refine State.followFrame_keeps ?_
                 | with_reducible refine State.toHost_keeps ?_ | with_reducible refine KeepsQ.snd ?_)

theorem State.mirror_keeps {s t : State} {slice : Nat} {session : Nat} {kind : Nat} {p : Pkt} (h : s.Keeps t) : s.Keeps (State.mirror t slice session
    kind p) := by
  unfold State.mirror
  repeat' (first | with_reducible assumption | with_reducible refine State.setEvent_keeps ?_ | with_reducible refine State.satAdd_keeps ?_
                 | with_reducible refine State.newId_keeps ?_ | with_reducible refine State.drainInc_keeps ?_
                 | with_reducible refine State.followFrame_keeps ?_ | with_reducible refine State.toInput_keeps ?_
                 | with_reducible refine Keeps.ite ?_ ?_ | dsimp only | with_reducible refine KeepsQ.snd ?_ | split)

theorem State.sources_keeps {s t : State} {slice : Nat} {b : Bank} {r : Parse} {p : Pkt} (h : s.Keeps t) : KeepsP s (State.sources t slice b r p) :=
    by
  unfold State.sources
  repeat' (first | with_reducible assumption | with_reducible refine State.pmc_keeps ?_ | with_reducible refine State.satAdd_keeps ?_
                 | with_reducible refine Keeps.ite ?_ ?_ | simp only [keepsP_mk])

theorem State.endPkt_keeps {s t : State} {p : Pkt} (h : s.Keeps t) : s.Keeps (State.endPkt t p) := by
  unfold State.endPkt
  repeat' (first | with_reducible assumption | with_reducible refine State.drainDec_keeps ?_)

theorem State.cross_keeps {s t : State} {slice : Nat} {q : Nat} {dev : Nat} {port : Nat} {encap : Nat} {p : Pkt} (h : s.Keeps t) : s.Keeps
    (State.cross t slice q dev port encap p) := by
  unfold State.cross
  repeat' (first | with_reducible assumption | with_reducible refine State.toInput_keeps ?_ | with_reducible refine State.flits_keeps ?_)

theorem State.stripDrop_keeps {s t : State} {p : Pkt} (h : s.Keeps t) : s.Keeps (State.stripDrop t p) := by
  unfold State.stripDrop
  repeat' (first | with_reducible assumption | with_reducible refine State.endPkt_keeps ?_ | with_reducible refine State.satAdd_keeps ?_)

theorem State.toRepl_keeps {s t : State} {slice : Nat} {group : Nat} {queue : Option (Bool × Nat)} {p : Pkt} (h : s.Keeps t) : s.Keeps (State.toRepl t
    slice group queue p) := by
  unfold State.toRepl
  repeat' (first | with_reducible assumption | with_reducible refine State.endPkt_keeps ?_ | with_reducible refine State.setEvent_keeps ?_
                 | with_reducible refine State.satAdd_keeps ?_ | with_reducible refine State.setSlice_keeps ?_
                 | with_reducible refine Keeps.ite ?_ ?_)

theorem State.recirculate_keeps {s t : State} {slice : Nat} {x2 : PassAttrs} {r : Parse} {p : Pkt} (h : s.Keeps t) : s.Keeps (State.recirculate t
    slice x2 r p) := by
  unfold State.recirculate
  repeat' (first | with_reducible assumption | with_reducible refine State.endPkt_keeps ?_ | with_reducible refine State.setEvent_keeps ?_
                 | with_reducible refine State.satAdd_keeps ?_ | with_reducible refine State.stripDrop_keeps ?_
                 | with_reducible refine State.setSlice_keeps ?_ | with_reducible refine Keeps.ite ?_ ?_ | dsimp only | split)

theorem State.carryOut_keeps {s t : State} {slice : Nat} {v : Verdict} {q : Option Nat} {x4 : PassAttrs} {r : Parse} {p : Pkt} (h : s.Keeps t) :
    s.Keeps (State.carryOut t slice v q x4 r p) := by
  unfold State.carryOut
  repeat' (first | with_reducible assumption | with_reducible refine State.endPkt_keeps ?_ | with_reducible refine State.toHost_keeps ?_
                 | with_reducible refine State.recirculate_keeps ?_ | with_reducible refine State.stripDrop_keeps ?_
                 | with_reducible refine State.toRepl_keeps ?_ | with_reducible refine State.cross_keeps ?_ | split)

theorem State.meter_keeps {s t : State} {d : Deferred} {police : Bool} {evict : Option Nat} {p : Pkt} (h : s.Keeps t) : KeepsP s (State.meter t d
    police evict p) := by
  unfold State.meter
  repeat' (first | with_reducible assumption | with_reducible refine State.flowCount_keeps ?_ | with_reducible refine State.police_keeps ?_
                 | with_reducible refine State.free_keeps ?_ | with_reducible refine Keeps.ite ?_ ?_ | simp only [keepsP_mk] | simp only [keeps_upd]
                 | with_reducible refine KeepsP.ite ?_ ?_ | with_reducible refine KeepsP.fst ?_ | with_reducible refine KeepsQ.snd ?_ | split)

theorem State.actionStage_keeps {s t : State} {slice : Nat} {b : Bank} {r : Parse} {evict : Option Nat} {p0 : Pkt} (h : s.Keeps t) : s.Keeps
    (State.actionStage t slice b r evict p0) := by
  unfold State.actionStage
  repeat' (first | with_reducible assumption | with_reducible refine State.sources_keeps ?_ | with_reducible refine State.hostCopy_keeps ?_
                 | with_reducible refine State.mirror_keeps ?_ | with_reducible refine State.meter_keeps ?_
                 | with_reducible refine State.qselMiss_keeps ?_ | with_reducible refine State.endPkt_keeps ?_
                 | with_reducible refine State.satAdd_keeps ?_ | with_reducible refine State.carryOut_keeps ?_
                 | with_reducible refine Keeps.ite ?_ ?_ | dsimp only | with_reducible refine KeepsP.fst ?_ | split)

theorem State.skipStage_keeps {s t : State} {slice : Nat} {ring : Option (Nat × Nat)} {r : Parse} {p : Pkt} (h : s.Keeps t) : s.Keeps (State.skipStage
    t slice ring r p) := by
  unfold State.skipStage
  repeat' (first | with_reducible assumption | with_reducible refine State.mirror_keeps ?_ | with_reducible refine State.endPkt_keeps ?_
                 | with_reducible refine State.toHost_keeps ?_ | dsimp only | split)

theorem State.passEnd_keeps {s t : State} {slice : Nat} {upsets : List Upset} {evict : Option Nat} {p0 : Pkt} (h : s.Keeps t) : s.Keeps (State.passEnd
    t slice upsets evict p0) := by
  unfold State.passEnd
  repeat' (first | with_reducible assumption | with_reducible refine State.upset_keeps ?_ | with_reducible refine State.hbfUes_keeps ?_
                 | with_reducible refine State.traceCapture_keeps ?_ | with_reducible refine State.parseCount_keeps ?_
                 | with_reducible refine State.endPkt_keeps ?_ | with_reducible refine State.skipStage_keeps ?_
                 | with_reducible refine State.learnFrom_keeps ?_ | with_reducible refine State.actionStage_keeps ?_
                 | with_reducible refine Keeps.ite ?_ ?_ | dsimp only | split | intro _ _ _ | with_reducible refine Keeps.foldl ?_ ?_)

theorem execIngressPassEnd_keeps {s t : State} {slice : Nat} {upsets : List Upset} {evict : Option Nat} (h : s.Keeps t) : KeepsX s (execIngressPassEnd
    slice upsets evict t) := by
  unfold execIngressPassEnd
  repeat' (first | with_reducible assumption | with_reducible refine State.passEnd_keeps ?_ | with_reducible refine State.setSlice_keeps ?_
                 | dsimp only | with_reducible refine KeepsX.ite ?_ ?_ | with_reducible refine KeepsX.of_next ?_ | split)

theorem execRecircEnqueue_keeps {s t : State} {slice : Nat} (h : s.Keeps t) : KeepsX s (execRecircEnqueue slice t) := by
  unfold execRecircEnqueue
  repeat' (first | with_reducible assumption | with_reducible refine State.endPkt_keeps ?_ | with_reducible refine State.setEvent_keeps ?_
                 | with_reducible refine State.satAdd_keeps ?_ | with_reducible refine State.setSlice_keeps ?_ | dsimp only
                 | with_reducible refine KeepsX.ite ?_ ?_ | with_reducible refine KeepsX.of_next ?_ | split)

theorem State.floodOne_keeps {s t : State} {slice : Nat} {queue : Option (Bool × Nat)} {p : Pkt} {m : Nat} (h : s.Keeps t) : s.Keeps (State.floodOne t
    slice queue p m) := by
  unfold State.floodOne
  repeat' (first | with_reducible assumption | with_reducible refine State.cross_keeps ?_ | with_reducible refine State.qselMiss_keeps ?_ | split)

theorem State.floodCopy_keeps {s t : State} {slice : Nat} {queue : Option (Bool × Nat)} {p : Pkt} {m : Nat} (h : s.Keeps t) : s.Keeps (State.floodCopy
    t slice queue p m) := by
  unfold State.floodCopy
  repeat' (first | with_reducible assumption | with_reducible refine State.newId_keeps ?_ | with_reducible refine State.drainInc_keeps ?_
                 | with_reducible refine State.floodOne_keeps ?_ | with_reducible refine State.followFrame_keeps ?_
                 | with_reducible refine KeepsQ.snd ?_)

theorem execReplication_keeps {s t : State} {slice : Nat} (h : s.Keeps t) : KeepsX s (execReplication slice t) := by
  unfold execReplication
  repeat' (first | with_reducible assumption | with_reducible refine State.setSlice_keeps ?_ | with_reducible refine State.endPkt_keeps ?_
                 | with_reducible refine State.satAdd_keeps ?_ | with_reducible refine State.floodCopy_keeps ?_
                 | with_reducible refine State.floodOne_keeps ?_ | dsimp only | with_reducible refine KeepsX.ite ?_ ?_
                 | with_reducible refine KeepsX.of_next ?_ | split | intro _ _ _ | with_reducible refine Keeps.foldl ?_ ?_)

theorem execProbeTimeout_keeps {s t : State} {x1 : Upset} (h : s.Keeps t) : KeepsX s (execProbeTimeout x1 t) := by
  unfold execProbeTimeout
  repeat' (first | with_reducible assumption | with_reducible refine State.satAdd_keeps ?_ | with_reducible refine State.upset_keeps ?_
                 | with_reducible refine KeepsX.of_next ?_)

/-! ### Egress -/

theorem State.egressDrop_keeps {s t : State} {p : Pkt} (h : s.Keeps t) : s.Keeps (State.egressDrop t p) := by
  unfold State.egressDrop
  repeat' (first | with_reducible assumption | with_reducible refine State.directDone_keeps ?_ | with_reducible refine State.endPkt_keeps ?_)

theorem State.encapFail_keeps {s t : State} {table : Nat} {index : Nat} {p : Pkt} (h : s.Keeps t) : s.Keeps (State.encapFail t table index p) := by
  unfold State.encapFail
  repeat' (first | with_reducible assumption | with_reducible refine State.fset_keeps ?_ | with_reducible refine State.satAdd_keeps ?_
                 | with_reducible refine State.setEvent_keeps ?_ | with_reducible refine State.egressDrop_keeps ?_
                 | with_reducible refine State.raiseError_keeps ?_)

theorem State.ttlExpired_keeps {s t : State} {slice : Nat} {p : Pkt} (h : s.Keeps t) : s.Keeps (State.ttlExpired t slice p) := by
  unfold State.ttlExpired
  repeat' (first | with_reducible assumption | with_reducible refine State.setEvent_keeps ?_ | with_reducible refine State.satAdd_keeps ?_
                 | with_reducible refine State.directDone_keeps ?_ | with_reducible refine State.endPkt_keeps ?_
                 | with_reducible refine State.toHost_keeps ?_ | with_reducible refine State.egressDrop_keeps ?_
                 | with_reducible refine Keeps.ite ?_ ?_)

theorem State.egressOut_keeps {s t : State} {slice : Nat} {e : Edit} {p : Pkt} (h : s.Keeps t) : s.Keeps (State.egressOut t slice e p) := by
  unfold State.egressOut
  repeat' (first | with_reducible assumption | with_reducible refine State.satAdd_keeps ?_ | with_reducible refine State.mirror_keeps ?_
                 | with_reducible refine State.egressDrop_keeps ?_ | with_reducible refine State.mibAdd_keeps ?_
                 | with_reducible refine State.toFifo_keeps ?_ | with_reducible refine Keeps.ite ?_ ?_)

theorem State.egress_keeps {s t : State} {slice : Nat} {p : Pkt} (h : s.Keeps t) : s.Keeps (State.egress t slice p) := by
  unfold State.egress
  repeat' (first | with_reducible assumption | with_reducible refine State.encapFail_keeps ?_ | with_reducible refine State.egressOut_keeps ?_
                 | with_reducible refine State.ttlExpired_keeps ?_ | with_reducible refine Keeps.ite ?_ ?_ | dsimp only | split)

theorem State.egressUpset_keeps {s t : State} {x1 : Upset} (h : s.Keeps t) : s.Keeps (State.egressUpset t x1) := by
  unfold State.egressUpset
  repeat' (first | with_reducible assumption | with_reducible refine IdxTable.mark_keeps ?_ | with_reducible refine State.upset_keeps ?_ | split)

theorem execEgressPass_keeps {s t : State} {slice : Nat} {upsets : List Upset} (h : s.Keeps t) : KeepsX s (execEgressPass slice upsets t) := by
  unfold execEgressPass
  repeat' (first | with_reducible assumption | with_reducible refine State.egressDrop_keeps ?_ | with_reducible refine State.egress_keeps ?_
                 | with_reducible refine State.egressUpset_keeps ?_ | with_reducible refine Keeps.ite ?_ ?_ | dsimp only
                 | simp only [keeps_upd] | with_reducible refine KeepsX.ite ?_ ?_ | with_reducible refine KeepsX.of_next ?_ | split | intro _ _ _
                 | with_reducible refine Keeps.foldl ?_ ?_)

theorem State.txStamp_keeps {s t : State} {port : Nat} {e : TxStamp} (h : s.Keeps t) : s.Keeps (State.txStamp t port e) := by
  unfold State.txStamp
  repeat' (first | with_reducible assumption | with_reducible refine State.setEvent_keeps ?_ | with_reducible refine State.satAdd_keeps ?_
                 | with_reducible refine State.fset_keeps ?_ | with_reducible refine Keeps.ite ?_ ?_ | dsimp only
                 | simp only [keeps_upd])

theorem State.ptpStage_keeps {s t : State} {link : Nat} {p : Pkt} (h : s.Keeps t) : KeepsP s (State.ptpStage t link p) := by
  unfold State.ptpStage
  repeat' (first | with_reducible assumption | with_reducible refine State.txStamp_keeps ?_ | simp only [keepsP_mk]
                 | with_reducible refine KeepsP.ite ?_ ?_ | split)

theorem State.txDone_keeps {s t : State} {link : Nat} {p : Pkt} (h : s.Keeps t) : s.Keeps (State.txDone t link p) := by
  unfold State.txDone
  repeat' (first | with_reducible assumption | with_reducible refine State.dlnAdd_keeps ?_ | with_reducible refine State.directDone_keeps ?_
                 | with_reducible refine State.endPkt_keeps ?_ | with_reducible refine State.emit_keeps ?_
                 | with_reducible refine State.setEvent_keeps ?_ | with_reducible refine State.mibAdd_keeps ?_
                 | with_reducible refine Keeps.ite ?_ ?_)

theorem State.portCount_keeps {s t : State} {link : Nat} {counter : Nat} (h : s.Keeps t) : s.Keeps (State.portCount t link counter) := by
  unfold State.portCount
  repeat' (first | with_reducible assumption | with_reducible refine State.dlnAdd_keeps ?_ | with_reducible refine Keeps.ite ?_ ?_)

theorem State.sendFrame_keeps {s t : State} {link : Nat} {k : Nat} {cut : Nat} {f : TxFrame} {p : Pkt} (h : s.Keeps t) : s.Keeps (State.sendFrame t
    link k cut f p) := by
  unfold State.sendFrame
  repeat' (first | with_reducible assumption | with_reducible refine State.portCount_keeps ?_ | with_reducible refine State.setPtx_keeps ?_
                 | with_reducible refine State.txDone_keeps ?_ | with_reducible refine Keeps.ite ?_ ?_)

theorem execPortFrameGrant_keeps {s t : State} {link : Nat} {cut : Nat} (h : s.Keeps t) : KeepsX s (execPortFrameGrant link cut t) := by
  unfold execPortFrameGrant
  repeat' (first | with_reducible assumption | with_reducible refine State.txDone_keeps ?_ | with_reducible refine State.setPtx_keeps ?_
                 | with_reducible refine State.countDeferred_keeps ?_ | with_reducible refine State.egressDrop_keeps ?_
                 | with_reducible refine State.portCount_keeps ?_ | with_reducible refine State.setEvent_keeps ?_
                 | with_reducible refine State.ptpStage_keeps ?_ | with_reducible refine State.sendFrame_keeps ?_
                 | with_reducible refine Keeps.ite ?_ ?_ | simp only [keepsP_mk] | with_reducible refine KeepsX.ite ?_ ?_
                 | with_reducible refine KeepsX.of_next ?_ | with_reducible refine KeepsP.ite ?_ ?_ | with_reducible refine KeepsP.fst ?_ | split)

end Sys2Proof.Machine
end

