-- ==== Sys2Proof/Laws/KeepsClock.lean ====
section
/-! SUPPORT. What the operations and commands of these parts keep, the queue of waiting commands and the canonical form: performance counters, device time, restart, power and HBM. -/

namespace Sys2Proof.Machine

open Sys2Proof

-- Not every alternative of a `first` is used on every path.
set_option linter.all false

/-! ### Pmc -/

theorem State.pmcClear_keeps {s t : State} {b : Nat} {x2 : Nat} (h : s.Keeps t) : s.Keeps (State.pmcClear t b x2) := by
  unfold State.pmcClear
  repeat' (first | with_reducible assumption | dsimp only | simp only [keeps_upd])

theorem State.pmcClearBank_keeps {s t : State} {b : Nat} (h : s.Keeps t) : s.Keeps (State.pmcClearBank t b) := by
  unfold State.pmcClearBank
  repeat' (first | with_reducible assumption | dsimp only | simp only [keeps_upd])

theorem State.hookPmcClr_keeps {s t : State} {v : Nat} (h : s.Keeps t) : s.Keeps (State.hookPmcClr t v) := by
  unfold State.hookPmcClr
  repeat' (first | with_reducible assumption | with_reducible refine State.pmcClearBank_keeps ?_ | with_reducible refine State.pmcClear_keeps ?_
                 | with_reducible refine Keeps.ite ?_ ?_)

theorem State.hookPmcRun_keeps {s t : State} {v : Nat} (h : s.Keeps t) : s.Keeps (State.hookPmcRun t v) := by
  unfold State.hookPmcRun
  repeat' (first | with_reducible assumption | with_reducible refine State.fset_keeps ?_ | with_reducible refine Keeps.ite ?_ ?_
                 | dsimp only | simp only [keeps_upd])

theorem State.pmcRunNow_keeps {s t : State} (h : s.Keeps t) : s.Keeps (State.pmcRunNow t) := by
  unfold State.pmcRunNow
  repeat' (first | with_reducible assumption | with_reducible refine State.setEvent_keeps ?_ | with_reducible refine State.fset_keeps ?_
                 | dsimp only | simp only [keeps_upd] | split)

theorem State.pmcCfgWrite_keeps {s t : State} {b : Nat} {x2 : Nat} {v : Nat} (h : s.Keeps t) : KeepsO s (State.pmcCfgWrite t b x2 v) := by
  unfold State.pmcCfgWrite
  repeat' (first | with_reducible assumption | with_reducible refine State.setReg_keeps ?_ | dsimp only
                 | with_reducible exact KeepsO.of_none _ | with_reducible refine KeepsO.of_some ?_ | split)

theorem State.pmcQualWrite_keeps {s t : State} {b : Nat} {x2 : Nat} {v : Nat} (h : s.Keeps t) : KeepsO s (State.pmcQualWrite t b x2 v) := by
  unfold State.pmcQualWrite
  repeat' (first | with_reducible assumption | with_reducible refine State.fset_keeps ?_ | dsimp only
                 | with_reducible exact KeepsO.of_none _ | with_reducible refine KeepsO.of_some ?_ | split)

theorem State.pmcLatch_keeps {s t : State} {instant : Nat} (h : s.Keeps t) : s.Keeps (State.pmcLatch t instant) := by
  unfold State.pmcLatch
  repeat' (first | with_reducible assumption | with_reducible refine State.setInstant_keeps ?_ | with_reducible refine State.wrapAdd_keeps ?_
                 | dsimp only | simp only [keeps_upd])

theorem execPmcRead_keeps {s t : State} {c : Cmd} (h : s.Keeps t) : KeepsX s (execPmcRead c t) := by
  unfold execPmcRead
  repeat' (first | with_reducible assumption | with_reducible refine runCmd_keeps ?_ ?_ | with_reducible refine fail_keeps ?_
                 | with_reducible refine ok_keeps ?_ | with_reducible refine State.emit_keeps ?_ | dsimp only | split | intro _ _)

theorem State.pmcWindowWrite_keeps {s t : State} (h : s.Keeps t) : s.Keeps (State.pmcWindowWrite t) := by
  unfold State.pmcWindowWrite
  repeat' (first | with_reducible assumption | with_reducible refine State.satAdd_keeps ?_)

/-! ### Time -/

theorem State.setDomain_keeps {s t : State} {d : Nat} {x : TimeDomain} (h : s.Keeps t) : s.Keeps (State.setDomain t d x) := by
  unfold State.setDomain
  repeat' (first | with_reducible assumption | with_reducible refine Keeps.ite ?_ ?_ | dsimp only | simp only [keeps_upd])

theorem State.restartDefects_keeps {s t : State} (h : s.Keeps t) : s.Keeps (State.restartDefects t) := by
  unfold State.restartDefects
  repeat' (first | with_reducible assumption | dsimp only | simp only [keeps_upd] | intro _ _ _ | with_reducible refine Keeps.foldl ?_ ?_)

theorem State.secondTick_keeps {s t : State} (h : s.Keeps t) : s.Keeps (State.secondTick t) := by
  unfold State.secondTick
  repeat' (first | with_reducible assumption | with_reducible refine State.wrapAdd_keeps ?_ | with_reducible refine State.pmcLatch_keeps ?_
                 | with_reducible refine State.restartDefects_keeps ?_ | dsimp only | simp only [keeps_upd])

theorem State.trigCheck_keeps {s t : State} {jump : Bool} {x2 : Nat} (h : s.Keeps t) : s.Keeps (State.trigCheck jump t x2) := by
  unfold State.trigCheck
  repeat' (first | with_reducible assumption | with_reducible refine State.fset_keeps ?_ | with_reducible refine State.setEventBits_keeps ?_
                 | with_reducible refine State.setInstant_keeps ?_ | with_reducible refine State.satAdd_keeps ?_
                 | with_reducible refine Keeps.ite ?_ ?_)

theorem State.trigAll_keeps {s t : State} {jump : Bool} (h : s.Keeps t) : s.Keeps (State.trigAll t jump) := by
  unfold State.trigAll
  repeat' (first | with_reducible assumption | with_reducible refine State.trigCheck_keeps ?_ | intro _ _ _ | with_reducible refine Keeps.foldl ?_ ?_)

theorem State.ppsDrive_keeps {s t : State} {x1 : Nat} {active : Bool} (h : s.Keeps t) : s.Keeps (State.ppsDrive t x1 active) := by
  unfold State.ppsDrive
  repeat' (first | with_reducible assumption | with_reducible refine State.emit_keeps ?_)

theorem State.ppsPulse_keeps {s t : State} {x1 : Nat} (h : s.Keeps t) : s.Keeps (State.ppsPulse t x1) := by
  unfold State.ppsPulse
  repeat' (first | with_reducible assumption | with_reducible refine State.satAdd_keeps ?_ | with_reducible refine State.ppsDrive_keeps ?_
                 | with_reducible refine Keeps.ite ?_ ?_ | dsimp only | simp only [keeps_upd])

theorem State.mgmtCycles_keeps {s t : State} {x : Nat} (h : s.Keeps t) : s.Keeps (State.mgmtCycles t x) := by
  unfold State.mgmtCycles
  repeat' (first | with_reducible assumption | with_reducible refine State.pmc_keeps ?_ | with_reducible refine State.satAdd_keeps ?_
                 | with_reducible refine Keeps.ite ?_ ?_ | split)

theorem State.clockCycles_keeps {s t : State} (h : s.Keeps t) : s.Keeps (State.clockCycles t) := by
  unfold State.clockCycles
  repeat' (first | with_reducible assumption | with_reducible refine State.free_keeps ?_ | with_reducible refine State.pmc_keeps ?_
                 | with_reducible refine State.mgmtCycles_keeps ?_ | with_reducible refine Keeps.ite ?_ ?_ | dsimp only
                 | with_reducible refine KeepsQ.snd ?_ | split | intro _ _ _ | with_reducible refine Keeps.foldl ?_ ?_)

theorem State.runSpan_keeps {s t : State} {k : Nat} (h : s.Keeps t) : s.Keeps (State.runSpan t k) := by
  unfold State.runSpan
  repeat' (first | with_reducible assumption | with_reducible refine State.setEvent_keeps ?_ | with_reducible refine State.secondTick_keeps ?_
                 | with_reducible refine State.ppsPulse_keeps ?_ | with_reducible refine State.clockCycles_keeps ?_
                 | with_reducible refine State.trigAll_keeps ?_ | with_reducible refine Keeps.ite ?_ ?_ | dsimp only
                 | simp only [keeps_upd] | split | intro _ _ _ | with_reducible refine Keeps.foldl ?_ ?_)

theorem State.advance_keeps {s t : State} {x1 : Nat} {x2 : Nat} (h : s.Keeps t) : s.Keeps (State.advance x1 x2 t) := by
  induction x1 generalizing t x2 with
  | zero =>
    unfold State.advance
    repeat' (first | with_reducible assumption | with_reducible apply ih | with_reducible refine State.runSpan_keeps ?_
                   | with_reducible refine Keeps.ite ?_ ?_)
  | succ n ih =>
    unfold State.advance
    repeat' (first | with_reducible assumption | with_reducible apply ih | with_reducible refine State.runSpan_keeps ?_
                   | with_reducible refine Keeps.ite ?_ ?_)

theorem State.advanceTo_keeps {s t : State} {d : Nat} {target : Nat} {x3 : Nat} (h : s.Keeps t) : s.Keeps (State.advanceTo d target x3 t) := by
  induction x3 generalizing t d target with
  | zero =>
    unfold State.advanceTo
    repeat' (first | with_reducible assumption | with_reducible apply ih | with_reducible refine State.runSpan_keeps ?_
                   | with_reducible refine Keeps.ite ?_ ?_)
  | succ n ih =>
    unfold State.advanceTo
    repeat' (first | with_reducible assumption | with_reducible apply ih | with_reducible refine State.runSpan_keeps ?_
                   | with_reducible refine Keeps.ite ?_ ?_)

theorem State.waitFor_keeps {s t : State} {instant : Nat} (h : s.Keeps t) : s.Keeps (State.waitFor t instant) := by
  unfold State.waitFor
  repeat' (first | with_reducible assumption | with_reducible refine State.advanceTo_keeps ?_)

theorem State.afterJump_keeps {s t : State} {old : Nat} (h : s.Keeps t) : s.Keeps (State.afterJump t old) := by
  unfold State.afterJump
  repeat' (first | with_reducible assumption | with_reducible refine State.trigAll_keeps ?_ | with_reducible refine State.secondTick_keeps ?_
                 | with_reducible refine Keeps.ite ?_ ?_)

/-! ### Tim -/

theorem execTimeRead_keeps {s t : State} {c : Cmd} (h : s.Keeps t) : KeepsX s (execTimeRead c t) := by
  unfold execTimeRead
  repeat' (first | with_reducible assumption | with_reducible refine runCmd_keeps ?_ ?_ | with_reducible refine fail_keeps ?_
                 | with_reducible refine ok_keeps ?_ | dsimp only | split | intro _ _)

theorem State.stepDomain_keeps {s t : State} {d : Nat} {count : Nat} (h : s.Keeps t) : s.Keeps (State.stepDomain t d count) := by
  unfold State.stepDomain
  repeat' (first | with_reducible assumption | with_reducible refine State.setDomain_keeps ?_ | with_reducible refine State.afterJump_keeps ?_
                 | with_reducible refine State.setEvent_keeps ?_)

theorem execTimeSet_keeps {s t : State} {c : Cmd} (h : s.Keeps t) : KeepsX s (execTimeSet c t) := by
  unfold execTimeSet
  repeat' (first | with_reducible assumption | with_reducible refine runCmd_keeps ?_ ?_ | with_reducible refine fail_keeps ?_
                 | with_reducible refine ok_keeps ?_ | with_reducible refine State.stepDomain_keeps ?_ | dsimp only
                 | with_reducible refine KeepsP.ite ?_ ?_ | split | intro _ _)

theorem execTimeStep_keeps {s t : State} {c : Cmd} (h : s.Keeps t) : KeepsX s (execTimeStep c t) := by
  unfold execTimeStep
  repeat' (first | with_reducible assumption | with_reducible refine runCmd_keeps ?_ ?_ | with_reducible refine fail_keeps ?_
                 | with_reducible refine ok_keeps ?_ | with_reducible refine State.stepDomain_keeps ?_ | dsimp only
                 | with_reducible refine KeepsP.ite ?_ ?_ | split | intro _ _)

theorem execTimeRate_keeps {s t : State} {c : Cmd} (h : s.Keeps t) : KeepsX s (execTimeRate c t) := by
  unfold execTimeRate
  repeat' (first | with_reducible assumption | with_reducible refine runCmd_keeps ?_ ?_ | with_reducible refine fail_keeps ?_
                 | with_reducible refine ok_keeps ?_ | with_reducible refine State.setDomain_keeps ?_ | dsimp only
                 | with_reducible refine KeepsP.ite ?_ ?_ | split | intro _ _)

theorem execTimeSlew_keeps {s t : State} {c : Cmd} (h : s.Keeps t) : KeepsX s (execTimeSlew c t) := by
  unfold execTimeSlew
  repeat' (first | with_reducible assumption | with_reducible refine runCmd_keeps ?_ ?_ | with_reducible refine fail_keeps ?_
                 | with_reducible refine ok_keeps ?_ | with_reducible refine State.setDomain_keeps ?_ | dsimp only
                 | with_reducible refine KeepsP.ite ?_ ?_ | split | intro _ _)

theorem execTimeUnlock_keeps {s t : State} {c : Cmd} (h : s.Keeps t) : KeepsX s (execTimeUnlock c t) := by
  unfold execTimeUnlock
  repeat' (first | with_reducible assumption | with_reducible refine runCmd_keeps ?_ ?_ | with_reducible refine fail_keeps ?_
                 | with_reducible refine ok_keeps ?_ | with_reducible refine State.setDomain_keeps ?_ | dsimp only
                 | with_reducible refine KeepsP.ite ?_ ?_ | split | intro _ _)

theorem execTimeSwitch_keeps {s t : State} {c : Cmd} (h : s.Keeps t) : KeepsX s (execTimeSwitch c t) := by
  unfold execTimeSwitch
  repeat' (first | with_reducible assumption | with_reducible refine runCmd_keeps ?_ ?_ | with_reducible refine fail_keeps ?_
                 | with_reducible refine ok_keeps ?_ | with_reducible refine State.setEvent_keeps ?_ | with_reducible refine State.fset_keeps ?_
                 | with_reducible refine State.afterJump_keeps ?_ | dsimp only | with_reducible refine KeepsP.ite ?_ ?_ | split
                 | intro _ _)

theorem execTimeTxtsRead_keeps {s t : State} {c : Cmd} (h : s.Keeps t) : KeepsX s (execTimeTxtsRead c t) := by
  unfold execTimeTxtsRead
  repeat' (first | with_reducible assumption | with_reducible refine runCmd_keeps ?_ ?_ | with_reducible refine fail_keeps ?_
                 | with_reducible refine State.emit_keeps ?_ | with_reducible refine ok_keeps ?_ | with_reducible refine State.fset_keeps ?_
                 | with_reducible refine Keeps.ite ?_ ?_ | dsimp only | simp only [keeps_upd] | with_reducible refine KeepsP.ite ?_ ?_
                 | split | intro _ _)

theorem execSlewEnd_keeps {s t : State} {d : Nat} (h : s.Keeps t) : KeepsX s (execSlewEnd d t) := by
  unfold execSlewEnd
  repeat' (first | with_reducible assumption | with_reducible refine State.advance_keeps ?_ | with_reducible refine KeepsX.of_next ?_ | split)

theorem execOneSecondTick_keeps {s t : State} (h : s.Keeps t) : KeepsX s (execOneSecondTick t) := by
  unfold execOneSecondTick
  repeat' (first | with_reducible assumption | with_reducible refine State.waitFor_keeps ?_ | with_reducible refine KeepsX.of_next ?_)

theorem execPpsOutPulse_keeps {s t : State} {x1 : Nat} (h : s.Keeps t) : KeepsX s (execPpsOutPulse x1 t) := by
  unfold execPpsOutPulse
  repeat' (first | with_reducible assumption | with_reducible refine State.advanceTo_keeps ?_ | dsimp only
                 | with_reducible refine KeepsX.ite ?_ ?_ | with_reducible refine KeepsX.of_next ?_)

theorem execPpsOutPulseEnd_keeps {s t : State} {x1 : Nat} (h : s.Keeps t) : KeepsX s (execPpsOutPulseEnd x1 t) := by
  unfold execPpsOutPulseEnd
  repeat' (first | with_reducible assumption | with_reducible refine State.ppsDrive_keeps ?_ | dsimp only | simp only [keeps_upd]
                 | with_reducible refine KeepsX.ite ?_ ?_ | with_reducible refine KeepsX.of_next ?_)

theorem execTriggerFire_keeps {s t : State} {x1 : Nat} (h : s.Keeps t) : KeepsX s (execTriggerFire x1 t) := by
  unfold execTriggerFire
  repeat' (first | with_reducible assumption | with_reducible refine State.trigAll_keeps ?_ | with_reducible refine State.waitFor_keeps ?_
                 | with_reducible refine KeepsX.ite ?_ ?_ | with_reducible refine KeepsX.of_next ?_)

theorem execPmcRunApply_keeps {s t : State} (h : s.Keeps t) : KeepsX s (execPmcRunApply t) := by
  unfold execPmcRunApply
  repeat' (first | with_reducible assumption | with_reducible refine State.pmcRunNow_keeps ?_ | with_reducible refine State.waitFor_keeps ?_
                 | with_reducible refine KeepsX.of_next ?_ | split)

theorem execTimeRefLoss_keeps {s t : State} (h : s.Keeps t) : KeepsX s (execTimeRefLoss t) := by
  unfold execTimeRefLoss
  repeat' (first | with_reducible assumption | with_reducible refine State.setEvent_keeps ?_ | with_reducible refine State.fset_keeps ?_
                 | with_reducible refine KeepsX.ite ?_ ?_ | with_reducible refine KeepsX.of_next ?_)

theorem execTimeRefReturn_keeps {s t : State} (h : s.Keeps t) : KeepsX s (execTimeRefReturn t) := by
  unfold execTimeRefReturn
  repeat' (first | with_reducible assumption | with_reducible refine State.setEvent_keeps ?_ | with_reducible refine State.fset_keeps ?_
                 | with_reducible refine KeepsX.ite ?_ ?_ | with_reducible refine KeepsX.of_next ?_)

theorem State.setLane_keeps {s t : State} {lane : Nat} {up : Bool} (h : s.Keeps t) : s.Keeps (State.setLane t lane up) := by
  unfold State.setLane
  repeat' (first | with_reducible assumption | with_reducible refine State.setEvent_keeps ?_ | with_reducible refine Keeps.ite ?_ ?_
                 | dsimp only | simp only [keeps_upd])

theorem execTimeLaneLoss_keeps {s t : State} {lane : Nat} (h : s.Keeps t) : KeepsX s (execTimeLaneLoss lane t) := by
  unfold execTimeLaneLoss
  repeat' (first | with_reducible assumption | with_reducible refine State.setLane_keeps ?_ | with_reducible refine KeepsX.of_next ?_)

theorem execTimeLaneReturn_keeps {s t : State} {lane : Nat} (h : s.Keeps t) : KeepsX s (execTimeLaneReturn lane t) := by
  unfold execTimeLaneReturn
  repeat' (first | with_reducible assumption | with_reducible refine State.setLane_keeps ?_ | with_reducible refine KeepsX.of_next ?_)

theorem execPpsInEdge_keeps {s t : State} {x1 : Nat} {held : Nat} {gap : Nat} (h : s.Keeps t) : KeepsX s (execPpsInEdge x1 held gap t) := by
  unfold execPpsInEdge
  repeat' (first | with_reducible assumption | with_reducible refine State.satAdd_keeps ?_ | with_reducible refine State.setInstant_keeps ?_
                 | with_reducible refine State.wrapAdd_keeps ?_ | with_reducible refine State.fset_keeps ?_
                 | with_reducible refine State.setEventBits_keeps ?_ | dsimp only | with_reducible refine KeepsX.ite ?_ ?_
                 | with_reducible refine KeepsX.of_next ?_)

theorem execPpsInLoss_keeps {s t : State} {x1 : Nat} (h : s.Keeps t) : KeepsX s (execPpsInLoss x1 t) := by
  unfold execPpsInLoss
  repeat' (first | with_reducible assumption | with_reducible refine State.setEventBits_keeps ?_ | with_reducible refine State.fset_keeps ?_
                 | with_reducible refine KeepsX.ite ?_ ?_ | with_reducible refine KeepsX.of_next ?_)

theorem execSynceSquelch_keeps {s t : State} {x1 : Nat} (h : s.Keeps t) : KeepsX s (execSynceSquelch x1 t) := by
  unfold execSynceSquelch
  repeat' (first | with_reducible assumption | with_reducible refine State.setEventBits_keeps ?_ | with_reducible refine State.fset_keeps ?_
                 | with_reducible refine KeepsX.ite ?_ ?_ | with_reducible refine KeepsX.of_next ?_)

theorem execSynceResume_keeps {s t : State} {x1 : Nat} (h : s.Keeps t) : KeepsX s (execSynceResume x1 t) := by
  unfold execSynceResume
  repeat' (first | with_reducible assumption | with_reducible refine State.fset_keeps ?_ | with_reducible refine KeepsX.ite ?_ ?_
                 | with_reducible refine KeepsX.of_next ?_)

theorem State.hookSynce_keeps {s t : State} {x1 : Nat} {v : Nat} (h : s.Keeps t) : s.Keeps (State.hookSynce t x1 v) := by
  unfold State.hookSynce
  repeat' (first | with_reducible assumption | with_reducible refine State.setReg_keeps ?_ | with_reducible refine State.fset_keeps ?_)

theorem State.hookTrig_keeps {s t : State} {x1 : Nat} {v : Nat} (h : s.Keeps t) : s.Keeps (State.hookTrig t x1 v) := by
  unfold State.hookTrig
  repeat' (first | with_reducible assumption | with_reducible refine State.fset_keeps ?_ | with_reducible refine State.setReg_keeps ?_
                 | with_reducible refine State.trigCheck_keeps ?_ | with_reducible refine Keeps.ite ?_ ?_)

theorem State.hookSnap_keeps {s t : State} {v : Nat} (h : s.Keeps t) : s.Keeps (State.hookSnap t v) := by
  unfold State.hookSnap
  repeat' (first | with_reducible assumption | with_reducible refine State.setInstant_keeps ?_ | with_reducible refine Keeps.ite ?_ ?_ | intro _ _ _
                 | with_reducible refine Keeps.foldl ?_ ?_)

theorem State.hookPpsOut_keeps {s t : State} {x1 : Nat} {v : Nat} (h : s.Keeps t) : s.Keeps (State.hookPpsOut t x1 v) := by
  unfold State.hookPpsOut
  repeat' (first | with_reducible assumption | with_reducible refine State.setReg_keeps ?_ | with_reducible refine State.ppsDrive_keeps ?_
                 | with_reducible refine Keeps.ite ?_ ?_ | dsimp only | simp only [keeps_upd])

theorem State.hookPpsOfs_keeps {s t : State} {x1 : Nat} {v : Nat} (h : s.Keeps t) : s.Keeps (State.hookPpsOfs t x1 v) := by
  unfold State.hookPpsOfs
  repeat' (first | with_reducible assumption | with_reducible refine State.fset_keeps ?_)

theorem State.hookPpsInCfg_keeps {s t : State} {x1 : Nat} {v : Nat} (h : s.Keeps t) : s.Keeps (State.hookPpsInCfg t x1 v) := by
  unfold State.hookPpsInCfg
  repeat' (first | with_reducible assumption | with_reducible refine State.setReg_keeps ?_)

theorem State.hookPpsInWin_keeps {s t : State} {x1 : Nat} {v : Nat} (h : s.Keeps t) : s.Keeps (State.hookPpsInWin t x1 v) := by
  unfold State.hookPpsInWin
  repeat' (first | with_reducible assumption | with_reducible refine State.setReg_keeps ?_)

/-! ### Restart -/

theorem State.restarted_keeps {s t : State} {r : Assoc Word} (hr : t.Canonical → Assoc.wf regReset r = true) (h : s.Keeps t) :
    s.Keeps (t.restarted r) :=
  ⟨h.1, fun c => ⟨hr (h.2 c), Memory.wf_nil⟩⟩

theorem State.strapRegs_keeps {s t : State} (h : s.Keeps t) : s.Keeps (State.strapRegs t) := by
  unfold State.strapRegs
  repeat' (first | with_reducible assumption | with_reducible refine State.fset_keeps ?_)

theorem State.powerOnReset_keeps {s t : State} (h : s.Keeps t) : s.Keeps (State.powerOnReset t) := by
  unfold State.powerOnReset
  repeat' (first | exact fun _ => rfl | with_reducible assumption | with_reducible refine State.restarted_keeps ?_ ?_
                 | with_reducible refine State.strapRegs_keeps ?_ | dsimp only | simp only [keeps_upd])

theorem State.deviceReset_keeps {s t : State} {cause : Nat} {master : Nat} (h : s.Keeps t) : s.Keeps (State.deviceReset t cause master) := by
  unfold State.deviceReset
  repeat' (first | exact fun c => ((State.resetRegs_keeps (Keeps.refl _)).2 c).1 | with_reducible assumption
                 | with_reducible refine State.strapRegs_keeps ?_ | with_reducible refine State.restarted_keeps ?_ ?_
                 | with_reducible refine State.fset_keeps ?_ | with_reducible refine Keeps.ite ?_ ?_ | dsimp only
                 | simp only [keeps_upd])

theorem State.askDeviceReset_keeps {s t : State} {cause : Nat} {master : Nat} (h : s.Keeps t) : s.Keeps (State.askDeviceReset t cause master) := by
  unfold State.askDeviceReset
  repeat' (first | with_reducible assumption | with_reducible refine State.deviceReset_keeps ?_ | with_reducible refine Keeps.ite ?_ ?_
                 | dsimp only | simp only [keeps_upd])

theorem State.heldReset_keeps {s t : State} {x1 : Int} (h : s.Keeps t) : s.Keeps (State.heldReset t x1) := by
  unfold State.heldReset
  repeat' (first | with_reducible assumption | with_reducible refine State.deviceReset_keeps ?_ | with_reducible refine Keeps.ite ?_ ?_ | split)

/-! ### Power -/

theorem State.loseSlice_keeps {s t : State} {g : Nat} (h : s.Keeps t) : s.Keeps (State.loseSlice t g) := by
  unfold State.loseSlice
  repeat' (first | with_reducible assumption | dsimp only | simp only [keeps_upd])

theorem State.loseFabCore_keeps {s t : State} (h : s.Keeps t) : s.Keeps (State.loseFabCore t) := by
  unfold State.loseFabCore
  repeat' (first | with_reducible assumption | dsimp only | simp only [keeps_upd])

theorem State.loseDomain_keeps {s t : State} {d : Nat} (h : s.Keeps t) : s.Keeps (State.loseDomain t d) := by
  unfold State.loseDomain
  repeat' (first | with_reducible assumption | with_reducible refine State.resetRegs_keeps ?_ | with_reducible refine State.loseSlice_keeps ?_
                 | with_reducible refine State.loseFabCore_keeps ?_ | with_reducible refine Keeps.ite ?_ ?_ | dsimp only
                 | simp only [keeps_upd])

theorem State.setDomState_keeps {s t : State} {d : Nat} {st : Nat} (h : s.Keeps t) : s.Keeps (State.setDomState t d st) := by
  unfold State.setDomState
  repeat' (first | with_reducible assumption | with_reducible refine State.fset_keeps ?_)

theorem State.domComplete_keeps {s t : State} {d : Nat} {status : Nat} (h : s.Keeps t) : s.Keeps (State.domComplete t d status) := by
  unfold State.domComplete
  repeat' (first | with_reducible assumption | with_reducible refine State.complete_keeps ?_ | dsimp only | simp only [keeps_upd] | split)

theorem pwrDomain_keeps {s t : State} {c : Cmd} (h : s.Keeps t) : KeepsX s (pwrDomain c t) := by
  unfold pwrDomain
  repeat' (first | with_reducible assumption | with_reducible refine runCmd_keeps ?_ ?_ | with_reducible refine State.setDomState_keeps ?_
                 | with_reducible refine fail_keeps ?_ | with_reducible refine ok_keeps ?_ | simp only [keepsP_mk] | simp only [keeps_upd]
                 | with_reducible refine KeepsP.ite ?_ ?_ | split | intro _ _)

theorem execPwrDomainPark_keeps {s t : State} {c : Cmd} (h : s.Keeps t) : KeepsX s (execPwrDomainPark c t) := by
  unfold execPwrDomainPark
  repeat' (first | with_reducible assumption | with_reducible refine pwrDomain_keeps ?_)

theorem execPwrDomainUnpark_keeps {s t : State} {c : Cmd} (h : s.Keeps t) : KeepsX s (execPwrDomainUnpark c t) := by
  unfold execPwrDomainUnpark
  repeat' (first | with_reducible assumption | with_reducible refine pwrDomain_keeps ?_)

theorem execDomainDrained_keeps {s t : State} {d : Nat} (h : s.Keeps t) : KeepsX s (execDomainDrained d t) := by
  unfold execDomainDrained
  repeat' (first | with_reducible assumption | with_reducible refine State.satAdd_keeps ?_ | with_reducible refine State.setDomState_keeps ?_
                 | with_reducible refine State.loseDomain_keeps ?_ | with_reducible refine State.domComplete_keeps ?_
                 | with_reducible refine State.setEvent_keeps ?_ | dsimp only | with_reducible refine KeepsX.ite ?_ ?_
                 | with_reducible refine KeepsX.of_next ?_)

theorem execDomainParkTimeout_keeps {s t : State} {d : Nat} (h : s.Keeps t) : KeepsX s (execDomainParkTimeout d t) := by
  unfold execDomainParkTimeout
  repeat' (first | with_reducible assumption | with_reducible refine State.domComplete_keeps ?_ | with_reducible refine State.setDomState_keeps ?_
                 | with_reducible refine KeepsX.ite ?_ ?_ | with_reducible refine KeepsX.of_next ?_)

theorem execDomainUnparkDone_keeps {s t : State} {d : Nat} {trained : Bool} {lanes : Nat} (h : s.Keeps t) : KeepsX s (execDomainUnparkDone d trained
    lanes t) := by
  unfold execDomainUnparkDone
  repeat' (first | with_reducible assumption | with_reducible refine State.setDomState_keeps ?_ | with_reducible refine State.setEvent_keeps ?_
                 | with_reducible refine State.fset_keeps ?_ | with_reducible refine State.domComplete_keeps ?_
                 | with_reducible refine Keeps.ite ?_ ?_ | dsimp only | with_reducible refine KeepsX.ite ?_ ?_
                 | with_reducible refine KeepsX.of_next ?_)

theorem State.setEnergy_keeps {s t : State} {e : Nat} (h : s.Keeps t) : s.Keeps (State.setEnergy t e) := by
  unfold State.setEnergy
  repeat' (first | with_reducible assumption | with_reducible refine State.fset_keeps ?_ | dsimp only | simp only [keeps_upd])

theorem State.govern_keeps {s t : State} (h : s.Keeps t) : s.Keeps (State.govern t) := by
  unfold State.govern
  repeat' (first | with_reducible assumption | with_reducible refine State.setYieldStep_keeps ?_ | with_reducible refine State.fset_keeps ?_)

theorem execTelemetrySample_keeps {s t : State} {mvA : Nat} {curA : Nat} {mvB : Nat} {curB : Nat} {power : List Nat} (h : s.Keeps t) : KeepsX s
    (execTelemetrySample mvA curA mvB curB power t) := by
  unfold execTelemetrySample
  repeat' (first | with_reducible assumption | with_reducible refine State.fset_keeps ?_ | with_reducible refine State.setEnergy_keeps ?_
                 | with_reducible refine State.setEvent_keeps ?_ | with_reducible refine Keeps.ite ?_ ?_ | dsimp only
                 | simp only [keeps_upd] | with_reducible refine KeepsX.of_next ?_ | intro _ _ _ | with_reducible refine Keeps.foldl ?_ ?_)

theorem execEnergyEvaluation_keeps {s t : State} (h : s.Keeps t) : KeepsX s (execEnergyEvaluation t) := by
  unfold execEnergyEvaluation
  repeat' (first | with_reducible assumption | with_reducible refine State.fset_keeps ?_ | with_reducible refine State.govern_keeps ?_
                 | dsimp only | simp only [keeps_upd] | with_reducible refine KeepsX.of_next ?_)

theorem State.sensor_keeps {s t : State} {x : Nat × Option Int} (h : s.Keeps t) : s.Keeps (State.sensor t x) := by
  unfold State.sensor
  repeat' (first | with_reducible assumption | with_reducible refine State.fset_keeps ?_ | with_reducible refine State.setEvent_keeps ?_
                 | with_reducible refine State.raiseError_keeps ?_ | with_reducible refine Keeps.ite ?_ ?_ | dsimp only | split)

theorem State.tmax_keeps {s t : State} (h : s.Keeps t) : KeepsQ s (State.tmax t).2 := by
  unfold State.tmax
  repeat' (first | with_reducible assumption | with_reducible refine State.free_keeps ?_ | dsimp only | simp only [keepsQ_mk]
                 | with_reducible refine KeepsQ.snd ?_ | split)

theorem State.setThermStep_keeps {s t : State} {step : Nat} {tmax : Nat} (h : s.Keeps t) : s.Keeps (State.setThermStep t step tmax) := by
  unfold State.setThermStep
  repeat' (first | with_reducible assumption | with_reducible refine State.setEvent_keeps ?_ | with_reducible refine State.fset_keeps ?_
                 | with_reducible refine State.raiseError_keeps ?_ | with_reducible refine State.govern_keeps ?_
                 | with_reducible refine State.setCamStep_keeps ?_ | with_reducible refine Keeps.ite ?_ ?_)

theorem State.trip_keeps {s t : State} {x1 : Int} {i : Nat} (h : s.Keeps t) : s.Keeps (State.trip t x1 i) := by
  unfold State.trip
  repeat' (first | with_reducible assumption | with_reducible refine State.fset_keeps ?_ | with_reducible refine State.emit_keeps ?_
                 | dsimp only | simp only [keeps_upd])

theorem State.thermMax_keeps {s t : State} {x1 : Int} {i : Nat} (h : s.Keeps t) : s.Keeps (State.thermMax t x1 i) := by
  unfold State.thermMax
  repeat' (first | with_reducible assumption | with_reducible refine State.fset_keeps ?_)

theorem State.thermCount_keeps {s t : State} {x1 : Int} {trips : Nat} (h : s.Keeps t) : KeepsP s (State.thermCount t x1 trips) := by
  unfold State.thermCount
  repeat' (first | with_reducible assumption | simp only [keepsP_mk] | simp only [keeps_upd])

theorem State.thermJudge_keeps {s t : State} {x1 : Int} (h : s.Keeps t) : s.Keeps (State.thermJudge t x1) := by
  unfold State.thermJudge
  repeat' (first | with_reducible assumption | with_reducible refine State.thermCount_keeps ?_ | with_reducible refine State.setThermStep_keeps ?_
                 | with_reducible refine State.trip_keeps ?_ | with_reducible refine Keeps.ite ?_ ?_ | dsimp only
                 | with_reducible refine KeepsP.fst ?_ | split)

theorem execTempSample_keeps {s t : State} {temps : List (Option Int)} (h : s.Keeps t) : KeepsX s (execTempSample temps t) := by
  unfold execTempSample
  repeat' (first | with_reducible assumption | with_reducible refine State.tmax_keeps ?_ | with_reducible refine State.sensor_keeps ?_
                 | with_reducible refine State.thermMax_keeps ?_ | with_reducible refine State.heldReset_keeps ?_
                 | with_reducible refine State.thermJudge_keeps ?_ | dsimp only | with_reducible refine KeepsX.ite ?_ ?_
                 | with_reducible refine KeepsX.of_next ?_ | with_reducible refine KeepsQ.snd ?_ | intro _ _ _
                 | with_reducible refine Keeps.foldl ?_ ?_)

theorem execBackgroundCreditEarn_keeps {s t : State} (h : s.Keeps t) : KeepsX s (execBackgroundCreditEarn t) := by
  unfold execBackgroundCreditEarn
  repeat' (first | with_reducible assumption | dsimp only | simp only [keeps_upd] | with_reducible refine KeepsX.of_next ?_)

theorem State.bgSpend_keeps {s t : State} {task : Nat} (h : s.Keeps t) : s.Keeps (State.bgSpend t task) := by
  unfold State.bgSpend
  repeat' (first | with_reducible assumption | dsimp only | simp only [keeps_upd])

theorem execFencePolicyEval_keeps {s t : State} (h : s.Keeps t) : KeepsX s (execFencePolicyEval t) := by
  unfold execFencePolicyEval
  repeat' (first | with_reducible assumption | with_reducible refine State.fenceSettle_keeps ?_ | with_reducible refine State.fence_keeps ?_
                 | with_reducible refine State.unfence_keeps ?_ | dsimp only | simp only [keeps_upd]
                 | with_reducible refine KeepsX.ite ?_ ?_ | with_reducible refine KeepsX.of_next ?_ | split)

theorem State.feedHold_keeps {s t : State} (h : s.Keeps t) : s.Keeps (State.feedHold t) := by
  unfold State.feedHold
  repeat' (first | with_reducible assumption | with_reducible refine State.fset_keeps ?_)

theorem execFeedStateChange_keeps {s t : State} {feed : Nat} {st : Nat} (h : s.Keeps t) : KeepsX s (execFeedStateChange feed st t) := by
  unfold execFeedStateChange
  repeat' (first | with_reducible assumption | with_reducible refine State.fset_keeps ?_ | with_reducible refine State.feedHold_keeps ?_
                 | dsimp only | simp only [keeps_upd] | with_reducible refine KeepsX.ite ?_ ?_ | with_reducible refine KeepsX.of_next ?_)

theorem State.noStandby_keeps {s t : State} (h : s.Keeps t) : s.Keeps (State.noStandby t) := by
  unfold State.noStandby
  repeat' (first | with_reducible assumption | with_reducible refine State.satAdd_keeps ?_ | with_reducible refine State.setEvent_keeps ?_
                 | with_reducible refine Keeps.ite ?_ ?_ | dsimp only | simp only [keeps_upd])

theorem State.transfer_keeps {s t : State} (h : s.Keeps t) : s.Keeps (State.transfer t) := by
  unfold State.transfer
  repeat' (first | with_reducible assumption | with_reducible refine State.fset_keeps ?_ | with_reducible refine State.setInstant_keeps ?_
                 | with_reducible refine State.feedHold_keeps ?_ | dsimp only | simp only [keeps_upd])

theorem State.afterTransfer_keeps {s t : State} {fell : Bool} {oldOk : Bool} (h : s.Keeps t) : s.Keeps (State.afterTransfer t fell oldOk) := by
  unfold State.afterTransfer
  repeat' (first | with_reducible assumption | with_reducible refine State.raiseError_keeps ?_ | with_reducible refine State.setEvent_keeps ?_
                 | with_reducible refine State.transfer_keeps ?_ | with_reducible refine State.noStandby_keeps ?_
                 | with_reducible refine Keeps.ite ?_ ?_)

theorem execFeedSag_keeps {s t : State} {ticks : Nat} {sagged : Bool} {fell : Bool} {oldOk : Bool} (h : s.Keeps t) : KeepsX s (execFeedSag ticks
    sagged fell oldOk t) := by
  unfold execFeedSag
  repeat' (first | with_reducible assumption | with_reducible refine State.satAdd_keeps ?_ | with_reducible refine State.noStandby_keeps ?_
                 | with_reducible refine State.afterTransfer_keeps ?_ | with_reducible refine State.setEvent_keeps ?_
                 | with_reducible refine State.transfer_keeps ?_ | with_reducible refine Keeps.ite ?_ ?_ | with_reducible refine KeepsX.ite ?_ ?_
                 | with_reducible refine KeepsX.of_next ?_)

theorem execInputCollapse_keeps {s t : State} (h : s.Keeps t) : KeepsX s (execInputCollapse t) := by
  unfold execInputCollapse
  repeat' (first | with_reducible assumption | dsimp only | simp only [keeps_upd] | with_reducible refine KeepsX.of_next ?_)

theorem State.plannedTransfer_keeps {s t : State} {fell : Bool} {oldOk : Bool} (h : s.Keeps t) : s.Keeps (State.plannedTransfer t fell oldOk) := by
  unfold State.plannedTransfer
  repeat' (first | with_reducible assumption | with_reducible refine State.afterTransfer_keeps ?_ | with_reducible refine State.setEvent_keeps ?_
                 | with_reducible refine State.satAdd_keeps ?_ | with_reducible refine State.transfer_keeps ?_)

theorem execRevertHoldExpiry_keeps {s t : State} {fell : Bool} {oldOk : Bool} (h : s.Keeps t) : KeepsX s (execRevertHoldExpiry fell oldOk t) := by
  unfold execRevertHoldExpiry
  repeat' (first | with_reducible assumption | with_reducible refine State.fset_keeps ?_ | with_reducible refine State.plannedTransfer_keeps ?_
                 | with_reducible refine KeepsX.ite ?_ ?_ | with_reducible refine KeepsX.of_next ?_)

theorem State.health_keeps {s t : State} {result : Nat} (h : s.Keeps t) : s.Keeps (State.health t result) := by
  unfold State.health
  repeat' (first | with_reducible assumption | with_reducible refine State.setEvent_keeps ?_ | with_reducible refine State.fset_keeps ?_
                 | with_reducible refine Keeps.ite ?_ ?_)

theorem execFeedSelfTest_keeps {s t : State} {result : Nat} (h : s.Keeps t) : KeepsX s (execFeedSelfTest result t) := by
  unfold execFeedSelfTest
  repeat' (first | with_reducible assumption | with_reducible refine State.health_keeps ?_ | with_reducible refine KeepsX.ite ?_ ?_
                 | with_reducible refine KeepsX.of_next ?_)

theorem pwrGovSet_keeps {s t : State} {c : Cmd} (h : s.Keeps t) : KeepsX s (pwrGovSet c t) := by
  unfold pwrGovSet
  repeat' (first | with_reducible assumption | with_reducible refine runCmd_keeps ?_ ?_ | with_reducible refine fail_keeps ?_
                 | with_reducible refine ok_keeps ?_ | with_reducible refine State.setReg_keeps ?_ | with_reducible refine State.fset_keeps ?_
                 | with_reducible refine State.govern_keeps ?_ | with_reducible refine State.setEnergy_keeps ?_ | dsimp only
                 | with_reducible refine KeepsP.ite ?_ ?_ | split | intro _ _)

theorem execPwrGovSet_keeps {s t : State} {c : Cmd} (h : s.Keeps t) : KeepsX s (execPwrGovSet c t) := by
  unfold execPwrGovSet
  repeat' (first | with_reducible assumption | with_reducible refine pwrGovSet_keeps ?_)

theorem execPwrGovRead_keeps {s t : State} {c : Cmd} (h : s.Keeps t) : KeepsX s (execPwrGovRead c t) := by
  unfold execPwrGovRead
  repeat' (first | with_reducible assumption | with_reducible refine pwrGovSet_keeps ?_)

theorem pwrFenceSet_keeps {s t : State} {c : Cmd} (h : s.Keeps t) : KeepsX s (pwrFenceSet c t) := by
  unfold pwrFenceSet
  repeat' (first | with_reducible assumption | with_reducible refine runCmd_keeps ?_ ?_ | with_reducible refine fail_keeps ?_
                 | with_reducible refine State.fset_keeps ?_ | with_reducible refine State.setReg_keeps ?_ | with_reducible refine ok_keeps ?_
                 | dsimp only | with_reducible refine KeepsP.ite ?_ ?_ | split | intro _ _)

theorem execPwrFenceSet_keeps {s t : State} {c : Cmd} (h : s.Keeps t) : KeepsX s (execPwrFenceSet c t) := by
  unfold execPwrFenceSet
  repeat' (first | with_reducible assumption | with_reducible refine pwrFenceSet_keeps ?_)

theorem execPwrFenceRead_keeps {s t : State} {c : Cmd} (h : s.Keeps t) : KeepsX s (execPwrFenceRead c t) := by
  unfold execPwrFenceRead
  repeat' (first | with_reducible assumption | with_reducible refine pwrFenceSet_keeps ?_)

theorem pwrFeedSet_keeps {s t : State} {c : Cmd} (h : s.Keeps t) : KeepsX s (pwrFeedSet c t) := by
  unfold pwrFeedSet
  repeat' (first | with_reducible assumption | with_reducible refine runCmd_keeps ?_ ?_ | with_reducible refine fail_keeps ?_
                 | with_reducible refine State.feedHold_keeps ?_ | with_reducible refine State.fset_keeps ?_
                 | with_reducible refine State.setReg_keeps ?_ | with_reducible refine ok_keeps ?_ | dsimp only
                 | with_reducible refine KeepsP.ite ?_ ?_ | split | intro _ _)

theorem execPwrFeedSet_keeps {s t : State} {c : Cmd} (h : s.Keeps t) : KeepsX s (execPwrFeedSet c t) := by
  unfold execPwrFeedSet
  repeat' (first | with_reducible assumption | with_reducible refine pwrFeedSet_keeps ?_)

theorem execPwrFeedRead_keeps {s t : State} {c : Cmd} (h : s.Keeps t) : KeepsX s (execPwrFeedRead c t) := by
  unfold execPwrFeedRead
  repeat' (first | with_reducible assumption | with_reducible refine pwrFeedSet_keeps ?_)

theorem execPwrFeedTest_keeps {s t : State} {c : Cmd} {result : Nat} {mv : Nat} (h : s.Keeps t) : KeepsX s (execPwrFeedTest c result mv t) := by
  unfold execPwrFeedTest
  repeat' (first | with_reducible assumption | with_reducible refine runCmd_keeps ?_ ?_ | with_reducible refine fail_keeps ?_
                 | with_reducible refine State.health_keeps ?_ | with_reducible refine ok_keeps ?_ | dsimp only
                 | with_reducible refine KeepsP.ite ?_ ?_ | split | intro _ _)

theorem execPwrFeedSwitch_keeps {s t : State} {c : Cmd} {fell : Bool} {oldOk : Bool} (h : s.Keeps t) : KeepsX s (execPwrFeedSwitch c fell oldOk t) :=
    by
  unfold execPwrFeedSwitch
  repeat' (first | with_reducible assumption | with_reducible refine runCmd_keeps ?_ ?_ | with_reducible refine fail_keeps ?_
                 | with_reducible refine State.plannedTransfer_keeps ?_ | with_reducible refine ok_keeps ?_ | dsimp only
                 | with_reducible refine KeepsP.ite ?_ ?_ | split | intro _ _)

theorem execPwrSnapshot_keeps {s t : State} {c : Cmd} (h : s.Keeps t) : KeepsX s (execPwrSnapshot c t) := by
  unfold execPwrSnapshot
  repeat' (first | with_reducible assumption | with_reducible refine runCmd_keeps ?_ ?_ | with_reducible refine fail_keeps ?_
                 | with_reducible refine ok_keeps ?_ | with_reducible refine State.emit_keeps ?_ | dsimp only
                 | with_reducible refine KeepsP.ite ?_ ?_ | split | intro _ _)

theorem State.hookGov_keeps {s t : State} {off : Nat} {v : Nat} (h : s.Keeps t) : s.Keeps (State.hookGov t off v) := by
  unfold State.hookGov
  repeat' (first | with_reducible assumption | with_reducible refine State.setReg_keeps ?_ | with_reducible refine State.govern_keeps ?_
                 | with_reducible refine State.setEnergy_keeps ?_)

theorem State.hookTherm_keeps {s t : State} {v : Nat} (h : s.Keeps t) : s.Keeps (State.hookTherm t v) := by
  unfold State.hookTherm
  repeat' (first | with_reducible assumption | with_reducible refine State.fset_keeps ?_)

theorem State.hookFeed_keeps {s t : State} {v : Nat} (h : s.Keeps t) : s.Keeps (State.hookFeed t v) := by
  unfold State.hookFeed
  repeat' (first | with_reducible assumption | with_reducible refine State.feedHold_keeps ?_ | with_reducible refine State.setReg_keeps ?_)

/-! ### Hbm -/

theorem State.stackFail_keeps {s t : State} {die : Nat} {k : Nat} (h : s.Keeps t) : s.Keeps (State.stackFail t die k) := by
  unfold State.stackFail
  repeat' (first | with_reducible assumption | with_reducible refine State.hbfFail_keeps ?_ | with_reducible refine State.fenceSettle_keeps ?_
                 | with_reducible refine State.hbtFail_keeps ?_ | with_reducible refine Keeps.ite ?_ ?_)

theorem execHbmLinkError_keeps {s t : State} {die : Nat} {stack : Nat} {ch : Nat} {again : Bool} (h : s.Keeps t) : KeepsX s (execHbmLinkError die
    stack ch again t) := by
  unfold execHbmLinkError
  repeat' (first | with_reducible assumption | with_reducible refine State.satAdd_keeps ?_ | with_reducible refine State.setEvent_keeps ?_
                 | with_reducible refine State.stackFail_keeps ?_ | with_reducible refine Keeps.ite ?_ ?_ | dsimp only
                 | simp only [keeps_upd] | with_reducible refine KeepsX.ite ?_ ?_ | with_reducible refine KeepsX.of_next ?_)

theorem execRefreshWindow_keeps {s t : State} {die : Nat} {stack : Nat} {pc : Nat} {bank : Nat} (h : s.Keeps t) : KeepsX s (execRefreshWindow die
    stack pc bank t) := by
  unfold execRefreshWindow
  repeat' (first | with_reducible assumption | dsimp only | simp only [keeps_upd] | with_reducible refine KeepsX.ite ?_ ?_
                 | with_reducible refine KeepsX.of_next ?_)

theorem execStackTempRead_keeps {s t : State} {die : Nat} {stack : Nat} {temp : Nat} (h : s.Keeps t) : KeepsX s (execStackTempRead die stack temp t)
    := by
  unfold execStackTempRead
  repeat' (first | with_reducible assumption | with_reducible refine State.fset_keeps ?_ | with_reducible refine KeepsX.ite ?_ ?_
                 | with_reducible refine KeepsX.of_next ?_)

theorem execSelfRefreshEntry_keeps {s t : State} {stack : Nat} (h : s.Keeps t) : KeepsX s (execSelfRefreshEntry stack t) := by
  unfold execSelfRefreshEntry
  repeat' (first | with_reducible assumption | with_reducible refine State.fset_keeps ?_ | with_reducible refine KeepsX.ite ?_ ?_
                 | with_reducible refine KeepsX.of_next ?_)

theorem State.scrubUnit_keeps {s t : State} {die : Nat} {stack : Nat} {unit : Nat} {found : Nat} (h : s.Keeps t) : s.Keeps (State.scrubUnit t die
    stack unit found) := by
  unfold State.scrubUnit
  repeat' (first | with_reducible assumption | with_reducible refine State.activate_keeps ?_ | with_reducible refine State.pmc_keeps ?_
                 | with_reducible refine State.hbmUe_keeps ?_ | with_reducible refine State.setEvent_keeps ?_
                 | with_reducible refine State.satAdd_keeps ?_ | with_reducible refine Keeps.ite ?_ ?_)

theorem State.scrubRule_keeps {s t : State} {x1 : Nat} {upsets : List Upset} (h : s.Keeps t) : s.Keeps (State.scrubRule t x1 upsets) := by
  unfold State.scrubRule
  repeat' (first | with_reducible assumption | with_reducible refine State.raiseErrorFw_keeps ?_ | with_reducible refine State.upset_keeps ?_
                 | with_reducible refine Keeps.ite ?_ ?_ | intro _ _ _ | with_reducible refine Keeps.foldl ?_ ?_)

theorem execScrubRead_keeps {s t : State} {die : Nat} {stack : Nat} {found : Nat} {upsets : List Upset} (h : s.Keeps t) : KeepsX s (execScrubRead die
    stack found upsets t) := by
  unfold execScrubRead
  repeat' (first | with_reducible assumption | with_reducible refine State.scrubUnit_keeps ?_ | with_reducible refine State.bgSpend_keeps ?_
                 | with_reducible refine State.scrubRule_keeps ?_ | with_reducible refine State.fset_keeps ?_
                 | with_reducible refine State.wrapAdd_keeps ?_ | with_reducible refine State.stackFail_keeps ?_
                 | with_reducible refine Keeps.ite ?_ ?_ | dsimp only | with_reducible refine KeepsX.ite ?_ ?_
                 | with_reducible refine KeepsX.of_next ?_ | split)

theorem execStackNoResponse_keeps {s t : State} {die : Nat} {stack : Nat} (h : s.Keeps t) : KeepsX s (execStackNoResponse die stack t) := by
  unfold execStackNoResponse
  repeat' (first | with_reducible assumption | with_reducible refine State.stackFail_keeps ?_ | with_reducible refine KeepsX.ite ?_ ?_
                 | with_reducible refine KeepsX.of_next ?_)

theorem hookHbtTrain_keeps {s t : State} {k : Nat} (h : s.Keeps t) : KeepsO s (hookHbtTrain k t) := by
  unfold hookHbtTrain
  repeat' (first | with_reducible assumption | with_reducible refine State.fset_keeps ?_ | with_reducible exact KeepsO.of_none _
                 | with_reducible refine KeepsO.of_some ?_ | split)

theorem execHbtTrainDone_keeps {s t : State} {k : Nat} {trained : Bool} {lanes : Nat} (h : s.Keeps t) : KeepsX s (execHbtTrainDone k trained lanes t)
    := by
  unfold execHbtTrainDone
  repeat' (first | with_reducible assumption | with_reducible refine State.setEvent_keeps ?_ | with_reducible refine State.fset_keeps ?_
                 | with_reducible refine KeepsX.ite ?_ ?_ | with_reducible refine KeepsX.of_next ?_)

theorem hookHbmCfg_keeps {s t : State} {die : Nat} (h : s.Keeps t) : s.Keeps (hookHbmCfg die t) := by
  unfold hookHbmCfg
  repeat' (first | with_reducible assumption | with_reducible refine State.fset_keeps ?_)

theorem hookHbtSr_keeps {s t : State} (h : s.Keeps t) : s.Keeps (hookHbtSr t) := by
  unfold hookHbtSr
  repeat' (first | with_reducible assumption | with_reducible refine State.fset_keeps ?_)

end Sys2Proof.Machine
end

