-- ==== Sys2Proof/Laws/KeepsManage.lean ====
section
/-! SUPPORT. What the operations and commands of these parts keep, the queue of waiting commands and the canonical form: errors, firmware update and the generation commands. -/

namespace Sys2Proof.Machine

open Sys2Proof

-- Not every alternative of a `first` is used on every path.
set_option linter.all false

/-! ### Err -/

theorem execFaultInputAssert_keeps {s t : State} {i : Nat} {held : Nat} (h : s.Keeps t) : KeepsX s (execFaultInputAssert i held t) := by
  unfold execFaultInputAssert
  repeat' (first | with_reducible assumption | with_reducible refine State.satAdd_keeps ?_ | with_reducible refine State.fset_keeps ?_
                 | with_reducible refine State.raiseError_keeps ?_ | with_reducible refine State.withSource_keeps ?_ ?_ | dsimp only
                 | with_reducible refine KeepsX.ite ?_ ?_ | with_reducible refine KeepsX.of_next ?_ | intro _ _)

theorem execFaultInputDeassert_keeps {s t : State} {i : Nat} {held : Nat} (h : s.Keeps t) : KeepsX s (execFaultInputDeassert i held t) := by
  unfold execFaultInputDeassert
  repeat' (first | with_reducible assumption | with_reducible refine State.fset_keeps ?_ | dsimp only | simp only [keeps_upd]
                 | with_reducible refine KeepsX.ite ?_ ?_ | with_reducible refine KeepsX.of_next ?_)

theorem execFaultInputStuck_keeps {s t : State} {i : Nat} (h : s.Keeps t) : KeepsX s (execFaultInputStuck i t) := by
  unfold execFaultInputStuck
  repeat' (first | with_reducible assumption | with_reducible refine State.raiseError_keeps ?_ | with_reducible refine State.withSource_keeps ?_ ?_
                 | with_reducible refine State.fset_keeps ?_ | dsimp only | simp only [keeps_upd]
                 | with_reducible refine KeepsX.ite ?_ ?_ | with_reducible refine KeepsX.of_next ?_ | intro _ _)

theorem hookFaultCfg_keeps {s t : State} {i : Nat} (h : s.Keeps t) : s.Keeps (hookFaultCfg i t) := by
  unfold hookFaultCfg
  repeat' (first | with_reducible assumption | with_reducible refine State.fset_keeps ?_)

theorem hookWlSize_keeps {s t : State} (h : s.Keeps t) : s.Keeps (hookWlSize t) := by
  unfold hookWlSize
  repeat' (first | with_reducible assumption | with_reducible refine State.fset_keeps ?_)

theorem State.popLog_keeps {s t : State} {x1 : Nat} (h : s.Keeps t) : s.Keeps (State.popLog t x1) := by
  unfold State.popLog
  repeat' (first | with_reducible assumption | dsimp only | simp only [keeps_upd])

theorem hookErrPop_keeps {s t : State} {v : Nat} (h : s.Keeps t) : s.Keeps (hookErrPop v t) := by
  unfold hookErrPop
  repeat' (first | with_reducible assumption | with_reducible refine State.popLog_keeps ?_ | with_reducible refine Keeps.ite ?_ ?_)

theorem State.writeEntries_keeps {s t : State} {addr : Nat} {x2 : List ErrEntry} (h : s.Keeps t) : s.Keeps (State.writeEntries t addr x2) := by
  induction x2 generalizing t addr with
  | nil =>
    unfold State.writeEntries
    repeat' (first | with_reducible assumption | with_reducible apply ih | with_reducible refine State.emit_keeps ?_)
  | cons a as ih =>
    unfold State.writeEntries
    repeat' (first | with_reducible assumption | with_reducible apply ih | with_reducible refine State.emit_keeps ?_)

theorem execErrLogPop_keeps {s t : State} {c : Cmd} {failed : Option Nat} (h : s.Keeps t) : KeepsX s (execErrLogPop c failed t) := by
  unfold execErrLogPop
  repeat' (first | with_reducible assumption | with_reducible refine runCmd_keeps ?_ ?_ | with_reducible refine fail_keeps ?_
                 | with_reducible refine State.popLog_keeps ?_ | with_reducible refine State.writeEntries_keeps ?_
                 | with_reducible refine ok_keeps ?_ | simp only [keepsP_mk] | with_reducible refine KeepsP.ite ?_ ?_ | split | intro _ _)

theorem execErrInject_keeps {s t : State} {c : Cmd} (h : s.Keeps t) : KeepsX s (execErrInject c t) := by
  unfold execErrInject
  repeat' (first | with_reducible assumption | with_reducible refine runCmd_keeps ?_ ?_ | with_reducible refine fail_keeps ?_
                 | with_reducible refine ok_keeps ?_ | with_reducible refine State.logEntry_keeps ?_ | dsimp only
                 | with_reducible refine KeepsP.ite ?_ ?_ | split | intro _ _)

theorem execErrMsgRaise_keeps {s t : State} {c : Cmd} (h : s.Keeps t) : KeepsX s (execErrMsgRaise c t) := by
  unfold execErrMsgRaise
  repeat' (first | with_reducible assumption | with_reducible refine runCmd_keeps ?_ ?_ | with_reducible refine fail_keeps ?_
                 | with_reducible refine ok_keeps ?_ | with_reducible refine State.pulse_keeps ?_ | dsimp only
                 | with_reducible refine KeepsP.ite ?_ ?_ | split | intro _ _)

theorem hookSwRaise_keeps {s t : State} {v : Nat} (h : s.Keeps t) : KeepsO s (hookSwRaise v t) := by
  unfold hookSwRaise
  repeat' (first | with_reducible assumption | with_reducible refine State.pulse_keeps ?_ | with_reducible exact KeepsO.of_none _
                 | with_reducible refine KeepsO.of_some ?_ | split)

theorem hookRearm_keeps {s t : State} {x1 : Nat} {v : Nat} (h : s.Keeps t) : s.Keeps (hookRearm x1 v t) := by
  unfold hookRearm
  repeat' (first | with_reducible assumption | with_reducible refine State.sendMessage_keeps ?_ | with_reducible refine Keeps.ite ?_ ?_)

theorem hookSrcMap_keeps {s t : State} {x1 : Nat} {v : Nat} (h : s.Keeps t) : KeepsO s (hookSrcMap x1 v t) := by
  unfold hookSrcMap
  repeat' (first | with_reducible assumption | with_reducible refine State.fset_keeps ?_ | with_reducible refine State.sendMessage_keeps ?_
                 | with_reducible refine Keeps.ite ?_ ?_ | dsimp only | with_reducible exact KeepsO.of_none _
                 | with_reducible refine KeepsO.of_some ?_ | split)

theorem State.sendHeld_keeps {s t : State} {f : Nat} (h : s.Keeps t) : s.Keeps (State.sendHeld t f) := by
  unfold State.sendHeld
  repeat' (first | with_reducible assumption | with_reducible refine State.sendMessage_keeps ?_ | with_reducible refine Keeps.ite ?_ ?_
                 | dsimp only | simp only [keeps_upd] | intro _ _ _ | with_reducible refine Keeps.foldl ?_ ?_)

theorem execMsixUnmask_keeps {s t : State} {f : Nat} {entry : Nat} {addr : Nat} {data : Nat} {masked : Bool} {enable : Bool} {functionMask : Bool} (h
    : s.Keeps t) : KeepsX s (execMsixUnmask f entry addr data masked enable functionMask t) := by
  unfold execMsixUnmask
  repeat' (first | with_reducible assumption | with_reducible refine State.sendHeld_keeps ?_ | dsimp only | simp only [keeps_upd]
                 | with_reducible refine KeepsX.ite ?_ ?_ | with_reducible refine KeepsX.of_next ?_)

theorem hookFatalForce_keeps {s t : State} {m : Nat} {v : Nat} (h : s.Keeps t) : s.Keeps (hookFatalForce m v t) := by
  unfold hookFatalForce
  repeat' (first | with_reducible assumption | with_reducible refine State.raiseError_keeps ?_ | with_reducible refine Keeps.ite ?_ ?_)

theorem execFwFatal_keeps {s t : State} {reason : Nat} (h : s.Keeps t) : KeepsX s (execFwFatal reason t) := by
  unfold execFwFatal
  repeat' (first | with_reducible assumption | with_reducible refine State.raiseErrorFw_keeps ?_ | with_reducible refine KeepsX.ite ?_ ?_
                 | with_reducible refine KeepsX.of_next ?_)

theorem execWatchdogExpiry_keeps {s t : State} {core : Nat} (h : s.Keeps t) : KeepsX s (execWatchdogExpiry core t) := by
  unfold execWatchdogExpiry
  repeat' (first | with_reducible assumption | with_reducible refine State.raiseError_keeps ?_ | dsimp only | simp only [keeps_upd]
                 | with_reducible refine KeepsX.ite ?_ ?_ | with_reducible refine KeepsX.of_next ?_)

/-! ### Fwu -/

theorem State.setFwBank_keeps {s t : State} {k : Nat} {b : ImageBank} (h : s.Keeps t) : s.Keeps (State.setFwBank t k b) := by
  unfold State.setFwBank
  repeat' (first | with_reducible assumption | dsimp only | simp only [keeps_upd])

theorem State.markBank_keeps {s t : State} {k : Nat} {st : Nat} {reason : Nat} (h : s.Keeps t) : s.Keeps (State.markBank t k st reason) := by
  unfold State.markBank
  repeat' (first | with_reducible assumption | with_reducible refine State.setFwBank_keeps ?_)

theorem State.setFwPhase_keeps {s t : State} {p : Nat} (h : s.Keeps t) : s.Keeps (State.setFwPhase t p) := by
  unfold State.setFwPhase
  repeat' (first | with_reducible assumption | with_reducible refine State.pulse_keeps ?_ | with_reducible refine State.fset_keeps ?_)

theorem State.fwuComplete_keeps {s t : State} {c : Cmd} {opcode : Nat} {st : Nat} {r0 : Nat} {r1 : Nat} (h : s.Keeps t) : s.Keeps (State.fwuComplete t
    c opcode st r0 r1) := by
  unfold State.fwuComplete
  repeat' (first | with_reducible assumption | with_reducible refine State.complete_keeps ?_ | with_reducible refine Keeps.ite ?_ ?_
                 | dsimp only | simp only [keeps_upd])

theorem State.mboxComplete_keeps {s t : State} {st : Nat} {r0 : Nat} {r1 : Nat} (h : s.Keeps t) : s.Keeps (State.mboxComplete t st r0 r1) := by
  unfold State.mboxComplete
  repeat' (first | with_reducible assumption | with_reducible refine State.setReg_keeps ?_ | with_reducible refine State.fset_keeps ?_
                 | with_reducible refine State.setEvent_keeps ?_)

theorem State.activateDone_keeps {s t : State} {x1 : Handover} {st : Nat} {r0 : Nat} {r1 : Nat} (h : s.Keeps t) : s.Keeps (State.activateDone t x1 st
    r0 r1) := by
  unfold State.activateDone
  repeat' (first | with_reducible assumption | with_reducible refine State.complete_keeps ?_ | with_reducible refine State.mboxComplete_keeps ?_
                 | dsimp only | simp only [keeps_upd] | split | intro _ _ _ | with_reducible refine Keeps.foldl ?_ ?_)

theorem State.setSession_keeps {s t : State} {x : Option Session} (h : s.Keeps t) : s.Keeps (State.setSession t x) := by
  unfold State.setSession
  repeat' (first | with_reducible assumption | dsimp only | simp only [keeps_upd])

theorem State.endSession_keeps {s t : State} (h : s.Keeps t) : s.Keeps (State.endSession t) := by
  unfold State.endSession
  repeat' (first | with_reducible assumption | with_reducible refine State.setEvent_keeps ?_ | with_reducible refine State.setSession_keeps ?_)

theorem State.abortSession_keeps {s t : State} {x : Session} (h : s.Keeps t) : s.Keeps (State.abortSession t x) := by
  unfold State.abortSession
  repeat' (first | with_reducible assumption | with_reducible refine State.markBank_keeps ?_ | with_reducible refine State.endSession_keeps ?_
                 | with_reducible refine Keeps.ite ?_ ?_)

theorem opDone_keeps {s t : State} {st : Nat} (h : s.Keeps t) : KeepsP s (opDone t st) := by
  unfold opDone
  repeat' (first | with_reducible assumption | simp only [keepsP_mk])

theorem fwuSessionStart_keeps {s t : State} {m : Nat} {c : Cmd} (h : s.Keeps t) : KeepsP s (fwuSessionStart m c t) := by
  unfold fwuSessionStart
  repeat' (first | with_reducible assumption | with_reducible refine opDone_keeps ?_ | with_reducible refine State.setSession_keeps ?_
                 | simp only [keepsP_mk] | simp only [keeps_upd] | with_reducible refine KeepsP.ite ?_ ?_ | split)

theorem State.chunkMessage_keeps {s t : State} (h : s.Keeps t) : s.Keeps (State.chunkMessage t) := by
  unfold State.chunkMessage
  repeat' (first | with_reducible assumption | with_reducible refine State.pulse_keeps ?_ | with_reducible refine Keeps.ite ?_ ?_
                 | dsimp only | simp only [keeps_upd])

theorem fwuChunk_keeps {s t : State} {m : Nat} {c : Cmd} {d : HostData} (h : s.Keeps t) : KeepsP s (fwuChunk m c d t) := by
  unfold fwuChunk
  repeat' (first | with_reducible assumption | with_reducible refine opDone_keeps ?_ | with_reducible refine State.setSession_keeps ?_
                 | with_reducible refine State.markBank_keeps ?_ | with_reducible refine State.chunkMessage_keeps ?_
                 | with_reducible refine Keeps.ite ?_ ?_ | simp only [keepsP_mk] | with_reducible refine KeepsP.ite ?_ ?_ | split)

theorem State.stageBytes_keeps {s t : State} {bs : List Byte} (h : s.Keeps t) : s.Keeps (State.stageBytes t bs) := by
  unfold State.stageBytes
  repeat' (first | with_reducible assumption | with_reducible refine State.setReg_keeps ?_ | intro _ _ _ | with_reducible refine Keeps.foldl ?_ ?_)

theorem fwuBitmap_keeps {s t : State} {m : Nat} {c : Cmd} {mbox : Bool} (h : s.Keeps t) : KeepsP s (fwuBitmap m c mbox t) := by
  unfold fwuBitmap
  repeat' (first | with_reducible assumption | with_reducible refine opDone_keeps ?_ | with_reducible refine State.setSession_keeps ?_
                 | with_reducible refine State.stageBytes_keeps ?_ | with_reducible refine State.emit_keeps ?_
                 | with_reducible refine Keeps.ite ?_ ?_ | simp only [keepsP_mk] | with_reducible refine KeepsP.ite ?_ ?_ | split)

theorem fwuApply_keeps {s t : State} {m : Nat} {c : Cmd} {bad : Bool} (h : s.Keeps t) : KeepsP s (fwuApply m c bad t) := by
  unfold fwuApply
  repeat' (first | with_reducible assumption | with_reducible refine opDone_keeps ?_ | with_reducible refine State.setEvent_keeps ?_
                 | with_reducible refine State.endSession_keeps ?_ | with_reducible refine State.setFwBank_keeps ?_
                 | with_reducible refine State.markBank_keeps ?_ | simp only [keepsP_mk] | with_reducible refine KeepsP.ite ?_ ?_ | split)

theorem fwuAbort_keeps {s t : State} {m : Nat} {c : Cmd} (h : s.Keeps t) : KeepsP s (fwuAbort m c t) := by
  unfold fwuAbort
  repeat' (first | with_reducible assumption | with_reducible refine opDone_keeps ?_ | with_reducible refine State.abortSession_keeps ?_
                 | simp only [keepsP_mk] | with_reducible refine KeepsP.ite ?_ ?_ | split)

theorem fwuInfo_keeps {s t : State} {m : Nat} {c : Cmd} (h : s.Keeps t) : KeepsP s (fwuInfo m c t) := by
  unfold fwuInfo
  repeat' (first | with_reducible assumption | with_reducible refine opDone_keeps ?_ | simp only [keepsP_mk] | with_reducible refine KeepsP.ite ?_ ?_)

theorem fwuActivate_keeps {s t : State} {m : Nat} {c : Cmd} {caller : FwuCaller} (h : s.Keeps t) : KeepsP s (fwuActivate m c caller t) := by
  unfold fwuActivate
  repeat' (first | with_reducible assumption | with_reducible refine opDone_keeps ?_ | with_reducible refine State.setFwPhase_keeps ?_
                 | simp only [keepsP_mk] | simp only [keeps_upd] | with_reducible refine KeepsP.ite ?_ ?_)

theorem State.confirmTrial_keeps {s t : State} {x1 : Handover} (h : s.Keeps t) : s.Keeps (State.confirmTrial t x1) := by
  unfold State.confirmTrial
  repeat' (first | with_reducible assumption | with_reducible refine State.markBank_keeps ?_ | with_reducible refine State.setFwPhase_keeps ?_
                 | with_reducible refine State.setEvent_keeps ?_ | dsimp only | simp only [keeps_upd])

theorem State.tryConfirm_keeps {s t : State} {x1 : Handover} (h : s.Keeps t) : s.Keeps (State.tryConfirm t x1) := by
  unfold State.tryConfirm
  repeat' (first | with_reducible assumption | with_reducible refine State.confirmTrial_keeps ?_ | with_reducible refine Keeps.ite ?_ ?_
                 | dsimp only | simp only [keeps_upd])

theorem State.fallback_keeps {s t : State} {reason : Nat} (h : s.Keeps t) : s.Keeps (State.fallback t reason) := by
  unfold State.fallback
  repeat' (first | with_reducible assumption | with_reducible refine State.markBank_keeps ?_ | with_reducible refine State.setFwPhase_keeps ?_
                 | with_reducible refine State.setEvent_keeps ?_ | with_reducible refine Keeps.ite ?_ ?_ | dsimp only
                 | simp only [keeps_upd] | split)

theorem fwuConfirm_keeps {s t : State} {m : Nat} {c : Cmd} (h : s.Keeps t) : KeepsP s (fwuConfirm m c t) := by
  unfold fwuConfirm
  repeat' (first | with_reducible assumption | with_reducible refine opDone_keeps ?_ | with_reducible refine State.tryConfirm_keeps ?_
                 | simp only [keepsP_mk] | with_reducible refine KeepsP.ite ?_ ?_ | split)

theorem execHandoverCommit_keeps {s t : State} (h : s.Keeps t) : KeepsX s (execHandoverCommit t) := by
  unfold execHandoverCommit
  repeat' (first | with_reducible assumption | with_reducible refine State.markBank_keeps ?_ | with_reducible refine State.setFwPhase_keeps ?_
                 | with_reducible refine State.activateDone_keeps ?_ | dsimp only | simp only [keeps_upd]
                 | with_reducible refine KeepsX.ite ?_ ?_ | with_reducible refine KeepsX.of_next ?_ | split)

theorem execHandoverFail_keeps {s t : State} (h : s.Keeps t) : KeepsX s (execHandoverFail t) := by
  unfold execHandoverFail
  repeat' (first | with_reducible assumption | with_reducible refine State.activateDone_keeps ?_ | with_reducible refine State.markBank_keeps ?_
                 | with_reducible refine State.setFwPhase_keeps ?_ | with_reducible refine State.setEvent_keeps ?_ | dsimp only
                 | simp only [keeps_upd] | with_reducible refine KeepsX.ite ?_ ?_ | with_reducible refine KeepsX.of_next ?_ | split)

theorem execTrialSelfConfirm_keeps {s t : State} (h : s.Keeps t) : KeepsX s (execTrialSelfConfirm t) := by
  unfold execTrialSelfConfirm
  repeat' (first | with_reducible assumption | with_reducible refine State.tryConfirm_keeps ?_ | with_reducible refine Keeps.ite ?_ ?_
                 | with_reducible refine KeepsX.of_next ?_ | split)

theorem execTrialWindowExpiry_keeps {s t : State} (h : s.Keeps t) : KeepsX s (execTrialWindowExpiry t) := by
  unfold execTrialWindowExpiry
  repeat' (first | with_reducible assumption | with_reducible refine State.fallback_keeps ?_ | with_reducible refine KeepsX.of_next ?_)

theorem execTrialWatchdogExpiry_keeps {s t : State} (h : s.Keeps t) : KeepsX s (execTrialWatchdogExpiry t) := by
  unfold execTrialWatchdogExpiry
  repeat' (first | with_reducible assumption | with_reducible refine State.fallback_keeps ?_ | with_reducible refine KeepsX.of_next ?_)

theorem execTrialImageFault_keeps {s t : State} (h : s.Keeps t) : KeepsX s (execTrialImageFault t) := by
  unfold execTrialImageFault
  repeat' (first | with_reducible assumption | with_reducible refine State.fallback_keeps ?_ | with_reducible refine KeepsX.of_next ?_)

theorem execOldImageStop_keeps {s t : State} (h : s.Keeps t) : KeepsX s (execOldImageStop t) := by
  unfold execOldImageStop
  repeat' (first | with_reducible assumption | with_reducible refine State.setEvent_keeps ?_ | dsimp only | simp only [keeps_upd]
                 | with_reducible refine KeepsX.ite ?_ ?_ | with_reducible refine KeepsX.of_next ?_ | split)

theorem execSessionIdleExpiry_keeps {s t : State} (h : s.Keeps t) : KeepsX s (execSessionIdleExpiry t) := by
  unfold execSessionIdleExpiry
  repeat' (first | with_reducible assumption | with_reducible refine State.abortSession_keeps ?_ | with_reducible refine KeepsX.of_next ?_ | split)

theorem fwuUcodeStage_keeps {s t : State} {m : Nat} {c : Cmd} (h : s.Keeps t) : KeepsP s (fwuUcodeStage m c t) := by
  unfold fwuUcodeStage
  repeat' (first | with_reducible assumption | with_reducible refine opDone_keeps ?_ | with_reducible refine State.parLoad_keeps ?_
                 | simp only [keepsP_mk] | with_reducible refine KeepsP.ite ?_ ?_ | with_reducible refine KeepsP.fst ?_ | split)

theorem fwuCmd_keeps {s t : State} {op lo hi : Nat} {c : Cmd} {body : State → State × Done} (hb : ∀ t, s.Keeps t → KeepsP s (body t))
    (h : s.Keeps t) : KeepsX s (fwuCmd op lo hi c t body) := by
  unfold fwuCmd
  split
  · exact h
  split
  · exact State.fwuComplete_keeps h
  split
  · exact State.fwuComplete_keeps (KeepsP.get (by assumption) (hb _ h))
  · exact KeepsP.get (by assumption) (hb _ h)

theorem execFwuInfo_keeps {s t : State} {c : Cmd} (h : s.Keeps t) : KeepsX s (execFwuInfo c t) := by
  unfold execFwuInfo
  repeat' (first | with_reducible assumption | with_reducible refine fwuCmd_keeps ?_ ?_ | with_reducible refine fwuInfo_keeps ?_ | intro _ _)

theorem execFwuSessionStart_keeps {s t : State} {c : Cmd} (h : s.Keeps t) : KeepsX s (execFwuSessionStart c t) := by
  unfold execFwuSessionStart
  repeat' (first | with_reducible assumption | with_reducible refine fwuCmd_keeps ?_ ?_ | with_reducible refine fwuSessionStart_keeps ?_ | intro _ _)

theorem execFwuChunk_keeps {s t : State} {c : Cmd} {d : HostData} (h : s.Keeps t) : KeepsX s (execFwuChunk c d t) := by
  unfold execFwuChunk
  repeat' (first | with_reducible assumption | with_reducible refine fwuCmd_keeps ?_ ?_ | with_reducible refine fwuChunk_keeps ?_ | intro _ _)

theorem execFwuBitmap_keeps {s t : State} {c : Cmd} (h : s.Keeps t) : KeepsX s (execFwuBitmap c t) := by
  unfold execFwuBitmap
  repeat' (first | with_reducible assumption | with_reducible refine fwuCmd_keeps ?_ ?_ | with_reducible refine fwuBitmap_keeps ?_ | intro _ _)

theorem execFwuApply_keeps {s t : State} {c : Cmd} {bad : Bool} (h : s.Keeps t) : KeepsX s (execFwuApply c bad t) := by
  unfold execFwuApply
  repeat' (first | with_reducible assumption | with_reducible refine fwuCmd_keeps ?_ ?_ | with_reducible refine fwuApply_keeps ?_ | intro _ _)

theorem execFwuSessionAbort_keeps {s t : State} {c : Cmd} (h : s.Keeps t) : KeepsX s (execFwuSessionAbort c t) := by
  unfold execFwuSessionAbort
  repeat' (first | with_reducible assumption | with_reducible refine fwuCmd_keeps ?_ ?_ | with_reducible refine fwuAbort_keeps ?_ | intro _ _)

theorem execFwuActivate_keeps {s t : State} {c : Cmd} (h : s.Keeps t) : KeepsX s (execFwuActivate c t) := by
  unfold execFwuActivate
  repeat' (first | with_reducible assumption | with_reducible refine fwuCmd_keeps ?_ ?_ | with_reducible refine fwuActivate_keeps ?_ | intro _ _)

theorem execFwuConfirm_keeps {s t : State} {c : Cmd} (h : s.Keeps t) : KeepsX s (execFwuConfirm c t) := by
  unfold execFwuConfirm
  repeat' (first | with_reducible assumption | with_reducible refine fwuCmd_keeps ?_ ?_ | with_reducible refine fwuConfirm_keeps ?_ | intro _ _)

theorem execFwuUcodeStage_keeps {s t : State} {c : Cmd} (h : s.Keeps t) : KeepsX s (execFwuUcodeStage c t) := by
  unfold execFwuUcodeStage
  repeat' (first | with_reducible assumption | with_reducible refine fwuCmd_keeps ?_ ?_ | with_reducible refine fwuUcodeStage_keeps ?_ | intro _ _)

theorem State.mboxRun_keeps {s t : State} {m : Nat} {op : Nat} {bad : Bool} (h : s.Keeps t) : KeepsP s (State.mboxRun t m op bad) := by
  unfold State.mboxRun
  repeat' (first | with_reducible assumption | with_reducible refine opDone_keeps ?_ | with_reducible refine fwuInfo_keeps ?_
                 | with_reducible refine fwuSessionStart_keeps ?_ | with_reducible refine fwuChunk_keeps ?_
                 | with_reducible refine fwuBitmap_keeps ?_ | with_reducible refine fwuApply_keeps ?_ | with_reducible refine fwuAbort_keeps ?_
                 | with_reducible refine fwuActivate_keeps ?_ | with_reducible refine fwuConfirm_keeps ?_ | with_reducible refine KeepsP.ite ?_ ?_
                 | split)

theorem hookMboxGo_keeps {s t : State} {m : Nat} {v : Nat} {bad : Bool} (h : s.Keeps t) : s.Keeps (hookMboxGo m v bad t) := by
  unfold hookMboxGo
  repeat' (first | with_reducible assumption | with_reducible refine State.mboxRun_keeps ?_ | with_reducible refine State.fset_keeps ?_
                 | with_reducible refine State.mboxComplete_keeps ?_ | with_reducible refine Keeps.ite ?_ ?_ | split
                 | with_reducible refine KeepsP.get (by assumption) ?_)

theorem hookFwuCfg_keeps {s t : State} (h : s.Keeps t) : s.Keeps (hookFwuCfg t) := by
  unfold hookFwuCfg
  repeat' (first | with_reducible assumption | with_reducible refine State.fset_keeps ?_)

/-! ### GenCmds -/

theorem State.setWait_keeps {s t : State} {w : Option GenWait} (h : s.Keeps t) : s.Keeps (State.setWait t w) := by
  unfold State.setWait
  repeat' (first | with_reducible assumption | dsimp only | simp only [keeps_upd])

theorem State.setBuildState_keeps {s t : State} {g : Nat} {st : Nat} (h : s.Keeps t) : s.Keeps (State.setBuildState t g st) := by
  unfold State.setBuildState
  repeat' (first | with_reducible assumption | with_reducible refine State.fset_keeps ?_)

theorem genOpen_keeps {s t : State} {c : Cmd} (h : s.Keeps t) : KeepsP s (genOpen c t) := by
  unfold genOpen
  repeat' (first | with_reducible assumption | with_reducible refine fail_keeps ?_ | with_reducible refine State.fset_keeps ?_
                 | with_reducible refine State.setBuildState_keeps ?_ | with_reducible refine ok_keeps ?_ | dsimp only
                 | simp only [keeps_upd] | with_reducible refine KeepsP.ite ?_ ?_)

theorem State.armCommit_keeps {s t : State} {x1 : Nat} {late : List Nat} (h : s.Keeps t) : s.Keeps (State.armCommit t x1 late) := by
  unfold State.armCommit
  repeat' (first | with_reducible assumption | with_reducible refine State.setInstant_keeps ?_ | with_reducible refine State.setBuildState_keeps ?_
                 | with_reducible refine State.setEvent_keeps ?_ | with_reducible refine Keeps.ite ?_ ?_ | dsimp only
                 | simp only [keeps_upd])

theorem genCommitNow_keeps {s t : State} {r : GenReq} {again : Bool} (h : s.Keeps t) : KeepsP s (genCommitNow r again t) := by
  unfold genCommitNow
  repeat' (first | with_reducible assumption | with_reducible refine State.setWait_keeps ?_ | with_reducible refine fail_keeps ?_
                 | with_reducible refine ok_keeps ?_ | with_reducible refine State.armCommit_keeps ?_ | simp only [keepsP_mk]
                 | with_reducible refine KeepsP.ite ?_ ?_ | split)

theorem genCommit_keeps {s t : State} {r : GenReq} (h : s.Keeps t) : KeepsP s (genCommit r t) := by
  unfold genCommit
  repeat' (first | with_reducible assumption | with_reducible refine fail_keeps ?_ | with_reducible refine State.setWait_keeps ?_
                 | with_reducible refine genCommitNow_keeps ?_ | simp only [keepsP_mk] | with_reducible refine KeepsP.ite ?_ ?_)

theorem genCancel_keeps {s t : State} {c : Cmd} (h : s.Keeps t) : KeepsP s (genCancel c t) := by
  unfold genCancel
  repeat' (first | with_reducible assumption | with_reducible refine fail_keeps ?_ | with_reducible refine State.setBuildState_keeps ?_
                 | with_reducible refine ok_keeps ?_ | simp only [keepsP_mk] | simp only [keeps_upd] | with_reducible refine KeepsP.ite ?_ ?_)

theorem State.shadowLost_keeps {s t : State} {g : Nat} (h : s.Keeps t) : s.Keeps (State.shadowLost t g) := by
  unfold State.shadowLost
  repeat' (first | with_reducible assumption | with_reducible refine State.fset_keeps ?_ | with_reducible refine Keeps.ite ?_ ?_)

theorem genAbandonNow_keeps {s t : State} {r : GenReq} (h : s.Keeps t) : KeepsP s (genAbandonNow r t) := by
  unfold genAbandonNow
  repeat' (first | with_reducible assumption | with_reducible refine State.setWait_keeps ?_ | with_reducible refine State.fset_keeps ?_
                 | with_reducible refine State.setBuildState_keeps ?_ | with_reducible refine State.shadowLost_keeps ?_ | simp only [keepsP_mk]
                 | simp only [keeps_upd])

theorem genAbandon_keeps {s t : State} {r : GenReq} (h : s.Keeps t) : KeepsP s (genAbandon r t) := by
  unfold genAbandon
  repeat' (first | with_reducible assumption | with_reducible refine fail_keeps ?_ | with_reducible refine State.setWait_keeps ?_
                 | with_reducible refine genAbandonNow_keeps ?_ | simp only [keepsP_mk] | with_reducible refine KeepsP.ite ?_ ?_ | split)

theorem genQuery_keeps {s t : State} {c : Cmd} (h : s.Keeps t) : KeepsP s (genQuery c t) := by
  unfold genQuery
  repeat' (first | with_reducible assumption | with_reducible refine fail_keeps ?_ | with_reducible refine ok_keeps ?_
                 | with_reducible refine KeepsP.ite ?_ ?_)

theorem genSetMargin_keeps {s t : State} {c : Cmd} (h : s.Keeps t) : KeepsP s (genSetMargin c t) := by
  unfold genSetMargin
  repeat' (first | with_reducible assumption | with_reducible refine fail_keeps ?_ | with_reducible refine ok_keeps ?_
                 | with_reducible refine State.fset_keeps ?_ | dsimp only | with_reducible refine KeepsP.ite ?_ ?_)

theorem genBody_keeps {s t : State} {r : GenReq} (h : s.Keeps t) : KeepsP s (genBody r t) := by
  unfold genBody
  repeat' (first | with_reducible assumption | with_reducible refine genOpen_keeps ?_ | with_reducible refine genCommit_keeps ?_
                 | with_reducible refine genCancel_keeps ?_ | with_reducible refine genAbandon_keeps ?_ | with_reducible refine genQuery_keeps ?_
                 | with_reducible refine genSetMargin_keeps ?_ | with_reducible refine parLoadCmd_keeps ?_
                 | with_reducible refine parReadCmd_keeps ?_ | split)

theorem State.genRun_keeps {s t : State} {r : GenReq} (h : s.Keeps t) : s.Keeps (State.genRun t r) := by
  unfold State.genRun
  repeat' (first | with_reducible assumption | with_reducible refine cmdRun_keeps ?_ ?_ | with_reducible refine genBody_keeps ?_ | intro _ _)

theorem genDrain_keeps {s t : State} {x1 : List GenReq} (h : s.Keeps t) : s.Keeps (genDrain x1 t) := by
  induction x1 generalizing t with
  | nil =>
    unfold genDrain
    repeat' (first | with_reducible assumption | with_reducible apply ih | with_reducible refine State.genRun_keeps ?_
                   | with_reducible refine Keeps.ite ?_ ?_ | simp only [keepsP_mk] | simp only [keeps_upd])
  | cons a as ih =>
    unfold genDrain
    repeat' (first | with_reducible assumption | with_reducible apply ih | with_reducible refine State.genRun_keeps ?_
                   | with_reducible refine Keeps.ite ?_ ?_ | dsimp only | simp only [keeps_upd])

theorem State.genNext_keeps {s t : State} (h : s.Keeps t) : s.Keeps (State.genNext t) := by
  unfold State.genNext
  repeat' (first | with_reducible assumption | with_reducible refine genDrain_keeps ?_ | dsimp only | simp only [keeps_upd])

theorem genCmd_keeps {s t : State} {r : GenReq} (h : s.Keeps t) : KeepsX s (genCmd r t) := by
  unfold genCmd
  repeat' (first | with_reducible assumption | with_reducible refine State.genRun_keeps ?_ | dsimp only | simp only [keeps_upd]
                 | with_reducible refine KeepsX.ite ?_ ?_ | with_reducible refine KeepsX.of_next ?_)

theorem execGenOpen_keeps {s t : State} {c : Cmd} (h : s.Keeps t) : KeepsX s (execGenOpen c t) := by
  unfold execGenOpen
  repeat' (first | with_reducible assumption | with_reducible refine genCmd_keeps ?_)

theorem execGenCommit_keeps {s t : State} {c : Cmd} {late : List Nat} (h : s.Keeps t) : KeepsX s (execGenCommit c late t) := by
  unfold execGenCommit
  repeat' (first | with_reducible assumption | with_reducible refine genCmd_keeps ?_)

theorem execGenCancel_keeps {s t : State} {c : Cmd} (h : s.Keeps t) : KeepsX s (execGenCancel c t) := by
  unfold execGenCancel
  repeat' (first | with_reducible assumption | with_reducible refine genCmd_keeps ?_)

theorem execGenAbandon_keeps {s t : State} {c : Cmd} (h : s.Keeps t) : KeepsX s (execGenAbandon c t) := by
  unfold execGenAbandon
  repeat' (first | with_reducible assumption | with_reducible refine genCmd_keeps ?_)

theorem execGenQuery_keeps {s t : State} {c : Cmd} (h : s.Keeps t) : KeepsX s (execGenQuery c t) := by
  unfold execGenQuery
  repeat' (first | with_reducible assumption | with_reducible refine genCmd_keeps ?_)

theorem execGenSetMargin_keeps {s t : State} {c : Cmd} (h : s.Keeps t) : KeepsX s (execGenSetMargin c t) := by
  unfold execGenSetMargin
  repeat' (first | with_reducible assumption | with_reducible refine genCmd_keeps ?_)

theorem execParLoad_keeps {s t : State} {c : Cmd} {d : HostData} (h : s.Keeps t) : KeepsX s (execParLoad c d t) := by
  unfold execParLoad
  repeat' (first | with_reducible assumption | with_reducible refine genCmd_keeps ?_)

theorem execParRead_keeps {s t : State} {c : Cmd} (h : s.Keeps t) : KeepsX s (execParRead c t) := by
  unfold execParRead
  repeat' (first | with_reducible assumption | with_reducible refine genCmd_keeps ?_)

theorem genFinish_keeps {s : State} {r : GenReq} {x : State × Done} (h : KeepsP s x) : s.Keeps (genFinish r x) := by
  unfold genFinish
  split
  · exact State.genNext_keeps (State.complete_keeps (State.setWait_keeps h))
  · exact h

theorem State.genResume_keeps {s t : State} (h : s.Keeps t) : s.Keeps (State.genResume t) := by
  unfold State.genResume
  repeat' (first | split | with_reducible assumption | with_reducible refine genFinish_keeps ?_ | with_reducible refine genCommitNow_keeps ?_
                 | with_reducible refine genAbandonNow_keeps ?_ | with_reducible refine State.setWait_keeps ?_)

theorem execGenCommitRetry_keeps {s t : State} (h : s.Keeps t) : KeepsX s (execGenCommitRetry t) := by
  unfold execGenCommitRetry
  repeat' (first | with_reducible assumption | with_reducible refine genFinish_keeps ?_ | with_reducible refine genCommitNow_keeps ?_
                 | with_reducible refine KeepsX.of_next ?_ | split)

theorem execGenCommitWaitExpiry_keeps {s t : State} (h : s.Keeps t) : KeepsX s (execGenCommitWaitExpiry t) := by
  unfold execGenCommitWaitExpiry
  repeat' (first | refine KeepsP.fail ?_ | with_reducible assumption | with_reducible refine genFinish_keeps ?_
                 | with_reducible refine KeepsX.of_next ?_ | split)

theorem execGenActivation_keeps {s t : State} (h : s.Keeps t) : KeepsX s (execGenActivation t) := by
  unfold execGenActivation
  repeat' (first | with_reducible assumption | with_reducible refine State.waitFor_keeps ?_ | with_reducible refine State.fset_keeps ?_
                 | with_reducible refine State.setEvent_keeps ?_ | dsimp only | simp only [keeps_upd]
                 | with_reducible refine KeepsX.ite ?_ ?_ | with_reducible refine KeepsX.of_next ?_ | split)

theorem execGenRetirement_keeps {s t : State} (h : s.Keeps t) : KeepsX s (execGenRetirement t) := by
  unfold execGenRetirement
  repeat' (first | with_reducible assumption | with_reducible refine State.waitFor_keeps ?_ | with_reducible refine State.fset_keeps ?_
                 | with_reducible refine State.setEvent_keeps ?_ | with_reducible refine State.shadowLost_keeps ?_ | dsimp only
                 | simp only [keeps_upd] | with_reducible refine KeepsX.ite ?_ ?_ | with_reducible refine KeepsX.of_next ?_ | split)

theorem State.walkTables_keeps {s t : State} {x1 : Nat} {abandon : Bool} (h : s.Keeps t) : s.Keeps (State.walkTables t x1 abandon) := by
  unfold State.walkTables
  repeat' (first | with_reducible assumption | with_reducible refine State.filtTidy_keeps ?_ | with_reducible refine State.tidyGroups_keeps ?_
                 | dsimp only | simp only [keeps_upd])

theorem execJournalWalkEnd_keeps {s t : State} (h : s.Keeps t) : KeepsX s (execJournalWalkEnd t) := by
  unfold execJournalWalkEnd
  repeat' (first | refine KeepsP.ok ?_ | with_reducible assumption | with_reducible refine State.walkTables_keeps ?_
                 | with_reducible refine State.bgSpend_keeps ?_ | with_reducible refine State.fset_keeps ?_
                 | with_reducible refine State.camResume_keeps ?_ | with_reducible refine State.setEvent_keeps ?_
                 | with_reducible refine genFinish_keeps ?_ | with_reducible refine Keeps.ite ?_ ?_ | dsimp only | simp only [keeps_upd]
                 | with_reducible refine KeepsX.ite ?_ ?_ | with_reducible refine KeepsX.of_next ?_ | split)

theorem State.drainSlow_keeps {s t : State} {g : Nat} (h : s.Keeps t) : s.Keeps (State.drainSlow t g) := by
  unfold State.drainSlow
  repeat' (first | with_reducible assumption | with_reducible refine State.setEvent_keeps ?_ | with_reducible refine Keeps.ite ?_ ?_
                 | dsimp only | simp only [keeps_upd])

theorem execDrainSlowExpiry_keeps {s t : State} {g : Nat} (h : s.Keeps t) : KeepsX s (execDrainSlowExpiry g t) := by
  unfold execDrainSlowExpiry
  repeat' (first | with_reducible assumption | with_reducible refine State.drainSlow_keeps ?_ | with_reducible refine State.waitFor_keeps ?_
                 | with_reducible refine KeepsX.ite ?_ ?_ | with_reducible refine KeepsX.of_next ?_)

theorem hookDrainLimit_keeps {s t : State} (h : s.Keeps t) : s.Keeps (hookDrainLimit t) := by
  unfold hookDrainLimit
  repeat' (first | with_reducible assumption | with_reducible refine State.drainSlow_keeps ?_ | intro _ _ _ | with_reducible refine Keeps.foldl ?_ ?_)

theorem execCamMoveDone_keeps {s t : State} (h : s.Keeps t) : KeepsX s (execCamMoveDone t) := by
  unfold execCamMoveDone
  repeat' (first | with_reducible assumption | with_reducible refine State.complete_keeps ?_ | with_reducible refine State.setEvent_keeps ?_
                 | with_reducible refine State.fset_keeps ?_ | with_reducible refine State.setWait_keeps ?_
                 | with_reducible refine camHeldRun_keeps ?_ | with_reducible refine State.genResume_keeps ?_
                 | with_reducible refine State.camResume_keeps ?_ | dsimp only | simp only [keeps_upd]
                 | with_reducible refine KeepsX.of_next ?_ | split)

end Sys2Proof.Machine
end

