-- ==== Sys2Proof/Laws/KeepsHost.lean ====
section
/-! SUPPORT. What the operations and commands of these parts keep, the queue of waiting commands and the canonical form: rings, pools, resets, chain, register access, DMA, Well log and pins. -/

namespace Sys2Proof.Machine

open Sys2Proof

-- Not every alternative of a `first` is used on every path.
set_option linter.all false

/-! ### Rings -/

theorem cmdDoorbell_keeps {s t : State} {x1 : Nat} {p : Nat} (h : s.Keeps t) : KeepsP s (cmdDoorbell x1 p t) := by
  unfold cmdDoorbell
  repeat' (first | with_reducible assumption | with_reducible refine State.fset_keeps ?_ | with_reducible refine State.ceHalt_keeps ?_
                 | simp only [keepsP_mk] | with_reducible refine KeepsP.ite ?_ ?_)

theorem cqConsumer_keeps {s t : State} {m : Nat} {c : Nat} (h : s.Keeps t) : KeepsP s (cqConsumer m c t) := by
  unfold cqConsumer
  repeat' (first | with_reducible assumption | with_reducible refine State.fset_keeps ?_ | simp only [keepsP_mk]
                 | with_reducible refine KeepsP.ite ?_ ?_)

theorem rqConsumer_keeps {s t : State} {c : Nat} (h : s.Keeps t) : KeepsP s (rqConsumer c t) := by
  unfold rqConsumer
  repeat' (first | with_reducible assumption | with_reducible refine State.fset_keeps ?_ | simp only [keepsP_mk]
                 | with_reducible refine KeepsP.ite ?_ ?_)

theorem State.pktPulse_keeps {s t : State} {r : Nat} (h : s.Keeps t) : s.Keeps (State.pktPulse t r) := by
  unfold State.pktPulse
  repeat' (first | with_reducible assumption | with_reducible refine State.pulse_keeps ?_ | with_reducible refine Keeps.ite ?_ ?_)

theorem State.pktWriteBack_keeps {s t : State} {r : Nat} {idx : Nat} (h : s.Keeps t) : s.Keeps (State.pktWriteBack t r idx) := by
  unfold State.pktWriteBack
  repeat' (first | with_reducible assumption | with_reducible refine State.writeIndex_keeps ?_)

theorem State.pktStop_keeps {s t : State} {r : Nat} {reason : Nat} (h : s.Keeps t) : s.Keeps (State.pktStop t r reason) := by
  unfold State.pktStop
  repeat' (first | with_reducible assumption | with_reducible refine State.pktPulse_keeps ?_ | with_reducible refine State.fset_keeps ?_)

theorem State.pktAdvance_keeps {s t : State} {r : Nat} {x2 : Nat} (h : s.Keeps t) : s.Keeps (State.pktAdvance t r x2) := by
  unfold State.pktAdvance
  repeat' (first | with_reducible assumption | with_reducible refine State.pktPulse_keeps ?_ | with_reducible refine State.pktWriteBack_keeps ?_
                 | with_reducible refine State.fset_keeps ?_)

theorem pktDoorbell_keeps {s t : State} {r : Nat} {p : Nat} (h : s.Keeps t) : KeepsP s (pktDoorbell r p t) := by
  unfold pktDoorbell
  repeat' (first | with_reducible assumption | with_reducible refine State.fset_keeps ?_ | with_reducible refine State.pktStop_keeps ?_
                 | simp only [keepsP_mk] | with_reducible refine KeepsP.ite ?_ ?_)

theorem pktBase_keeps {s t : State} {r : Nat} {v : Nat} (h : s.Keeps t) : KeepsP s (pktBase r v t) := by
  unfold pktBase
  repeat' (first | with_reducible assumption | with_reducible refine State.fset_keeps ?_ | with_reducible refine State.pktPulse_keeps ?_
                 | with_reducible refine State.pktWriteBack_keeps ?_ | simp only [keepsP_mk] | with_reducible refine KeepsP.ite ?_ ?_)

theorem pktPlain_keeps {s t : State} {r : Nat} {f : Fld} {v : Nat} (h : s.Keeps t) : KeepsP s (pktPlain r f v t) := by
  unfold pktPlain
  repeat' (first | with_reducible assumption | with_reducible refine State.fset_keeps ?_ | simp only [keepsP_mk]
                 | with_reducible refine KeepsP.ite ?_ ?_)

theorem pktCfg_keeps {s t : State} {r : Nat} {v : Nat} (h : s.Keeps t) : KeepsP s (pktCfg r v t) := by
  unfold pktCfg
  repeat' (first | with_reducible assumption | with_reducible refine State.fset_keeps ?_ | with_reducible refine Keeps.ite ?_ ?_
                 | simp only [keepsP_mk] | simp only [keeps_updHost] | with_reducible refine KeepsP.ite ?_ ?_)

theorem ceCtrl_keeps {s t : State} {v : Nat} (h : s.Keeps t) : KeepsP s (ceCtrl v t) := by
  unfold ceCtrl
  repeat' (first | with_reducible assumption | with_reducible refine State.fset_keeps ?_ | with_reducible refine Keeps.ite ?_ ?_
                 | simp only [keepsP_mk] | simp only [keeps_upd] | intro _ _ _ | with_reducible refine Keeps.foldl ?_ ?_)

theorem cmdPlain_keeps {s t : State} {x1 : Nat} {f : Fld} {v : Nat} (h : s.Keeps t) : KeepsP s (cmdPlain x1 f v t) := by
  unfold cmdPlain
  repeat' (first | with_reducible assumption | with_reducible refine State.fset_keeps ?_ | simp only [keepsP_mk]
                 | with_reducible refine KeepsP.ite ?_ ?_)

theorem cqPlain_keeps {s t : State} {m : Nat} {f : Fld} {v : Nat} (h : s.Keeps t) : KeepsP s (cqPlain m f v t) := by
  unfold cqPlain
  repeat' (first | with_reducible assumption | with_reducible refine State.fset_keeps ?_ | simp only [keepsP_mk]
                 | with_reducible refine KeepsP.ite ?_ ?_)

theorem cqSize_keeps {s t : State} {m : Nat} {v : Nat} (h : s.Keeps t) : KeepsP s (cqSize m v t) := by
  unfold cqSize
  repeat' (first | with_reducible assumption | with_reducible refine State.fset_keeps ?_ | simp only [keepsP_mk] | simp only [keeps_upd]
                 | with_reducible refine KeepsP.ite ?_ ?_)

theorem cqVec_keeps {s t : State} {m : Nat} {v : Nat} (h : s.Keeps t) : KeepsP s (cqVec m v t) := by
  unfold cqVec
  repeat' (first | with_reducible assumption | with_reducible refine State.fset_keeps ?_ | simp only [keepsP_mk]
                 | with_reducible refine KeepsP.ite ?_ ?_)

theorem rqPlain_keeps {s t : State} {f : Fld} {v : Nat} (h : s.Keeps t) : KeepsP s (rqPlain f v t) := by
  unfold rqPlain
  repeat' (first | with_reducible assumption | with_reducible refine State.fset_keeps ?_ | simp only [keepsP_mk]
                 | with_reducible refine KeepsP.ite ?_ ?_)

theorem rqSize_keeps {s t : State} {v : Nat} (h : s.Keeps t) : KeepsP s (rqSize v t) := by
  unfold rqSize
  repeat' (first | with_reducible assumption | with_reducible refine State.fset_keeps ?_ | simp only [keepsP_mk] | simp only [keeps_upd]
                 | with_reducible refine KeepsP.ite ?_ ?_)

theorem rqVec_keeps {s t : State} {v : Nat} (h : s.Keeps t) : KeepsP s (rqVec v t) := by
  unfold rqVec
  repeat' (first | with_reducible assumption | with_reducible refine State.fset_keeps ?_ | simp only [keepsP_mk]
                 | with_reducible refine KeepsP.ite ?_ ?_)

theorem ceResetGo_keeps {s t : State} {v : Nat} (h : s.Keeps t) : s.Keeps (ceResetGo v t) := by
  unfold ceResetGo
  repeat' (first | with_reducible assumption | with_reducible refine State.ceResetNow_keeps ?_ | with_reducible refine Keeps.ite ?_ ?_
                 | dsimp only | simp only [keeps_upd])

theorem takeEntries_keeps {s t : State} {x1 : Nat} {x2 : Nat} {x3 : Nat} {x4 : List Byte} (h : s.Keeps t) : s.Keeps (takeEntries x1 x2 x3 x4 t) := by
  induction x1 generalizing t x2 x3 x4 with
  | zero =>
    unfold takeEntries
    repeat' (first | with_reducible assumption | with_reducible apply ih | with_reducible refine State.ceHalt_keeps ?_
                   | with_reducible refine Keeps.ite ?_ ?_ | simp only [keepsP_mk] | simp only [keeps_upd] | split)
  | succ n ih =>
    unfold takeEntries
    repeat' (first | with_reducible assumption | with_reducible apply ih | with_reducible refine State.ceHalt_keeps ?_
                   | with_reducible refine Keeps.ite ?_ ?_ | dsimp only | simp only [keeps_upd] | split)

theorem execCommandFetchReturn_keeps {s t : State} {ring : Nat} {bytes : List Byte} (h : s.Keeps t) : KeepsX s (execCommandFetchReturn ring bytes t)
    := by
  unfold execCommandFetchReturn
  repeat' (first | with_reducible assumption | with_reducible refine State.writeIndex_keeps ?_ | with_reducible refine State.fset_keeps ?_
                 | with_reducible refine takeEntries_keeps ?_ | dsimp only | with_reducible refine KeepsX.ite ?_ ?_
                 | with_reducible refine KeepsX.of_next ?_)

theorem State.startEntry_keeps {s t : State} {e : Entry} (h : s.Keeps t) : s.Keeps (State.startEntry t e) := by
  unfold State.startEntry
  repeat' (first | with_reducible assumption | with_reducible refine State.pmc_keeps ?_ | with_reducible refine State.complete_keeps ?_
                 | with_reducible refine Keeps.ite ?_ ?_ | dsimp only | simp only [keeps_upd])

theorem execCommandStart_keeps {s t : State} (h : s.Keeps t) : KeepsX s (execCommandStart t) := by
  unfold execCommandStart
  repeat' (first | with_reducible assumption | with_reducible refine State.ceHalt_keeps ?_ | with_reducible refine State.startEntry_keeps ?_
                 | dsimp only | simp only [keeps_upd] | with_reducible refine KeepsX.ite ?_ ?_ | with_reducible refine KeepsX.of_next ?_
                 | split)

theorem execCoalesceTimer_keeps {s t : State} {m : Nat} (h : s.Keeps t) : KeepsX s (execCoalesceTimer m t) := by
  unfold execCoalesceTimer
  repeat' (first | with_reducible assumption | with_reducible refine State.fireCq_keeps ?_ | with_reducible refine KeepsX.ite ?_ ?_
                 | with_reducible refine KeepsX.of_next ?_)

theorem State.disableDone_keeps {s t : State} {r : Nat} (h : s.Keeps t) : s.Keeps (State.disableDone t r) := by
  unfold State.disableDone
  repeat' (first | with_reducible assumption | with_reducible refine State.fset_keeps ?_ | with_reducible refine Keeps.ite ?_ ?_
                 | dsimp only | simp only [keeps_upd] | simp only [keeps_updHost])

theorem execRingDisableDone_keeps {s t : State} {r : Nat} (h : s.Keeps t) : KeepsX s (execRingDisableDone r t) := by
  unfold execRingDisableDone
  repeat' (first | with_reducible assumption | with_reducible refine State.disableDone_keeps ?_ | with_reducible refine KeepsX.ite ?_ ?_
                 | with_reducible refine KeepsX.of_next ?_)

theorem State.rxBuffer_keeps {s t : State} {p : RxPacket} {bufsz : Nat} {i : Nat} {x4 : Nat} {d : List Byte} (h : s.Keeps t) : s.Keeps (State.rxBuffer
    t p bufsz i x4 d) := by
  unfold State.rxBuffer
  repeat' (first | with_reducible assumption | with_reducible refine State.emit_keeps ?_)

theorem execRxDelivery_keeps {s t : State} {ring : Nat} {descs : List (List Byte)} (h : s.Keeps t) : KeepsX s (execRxDelivery ring descs t) := by
  unfold execRxDelivery
  repeat' (first | with_reducible assumption | with_reducible refine State.satAdd_keeps ?_ | with_reducible refine State.pktStop_keeps ?_
                 | with_reducible refine State.pktAdvance_keeps ?_ | with_reducible refine State.rxBuffer_keeps ?_ | dsimp only
                 | simp only [keeps_updHost] | with_reducible refine KeepsX.ite ?_ ?_ | with_reducible refine KeepsX.of_next ?_ | split
                 | intro _ _ _ | with_reducible refine Keeps.foldl ?_ ?_)

theorem State.injectDirect_keeps {s t : State} {ring : Nat} {d : List Byte} {bytes : List Byte} {slots : List Nat} {eop : Nat} (h : s.Keeps t) :
    s.Keeps (State.injectDirect t ring d bytes slots eop) := by
  unfold State.injectDirect
  repeat' (first | with_reducible assumption | with_reducible refine State.stampGen_keeps ?_ | with_reducible refine State.newId_keeps ?_
                 | with_reducible refine State.drainInc_keeps ?_ | with_reducible refine State.toInput_keeps ?_
                 | with_reducible refine KeepsQ.snd ?_)

theorem State.injectSlice_keeps {s t : State} {slice : Nat} {d : List Byte} {bytes : List Byte} (h : s.Keeps t) : s.Keeps (State.injectSlice t slice d
    bytes) := by
  unfold State.injectSlice
  repeat' (first | with_reducible assumption | with_reducible refine State.newId_keeps ?_ | with_reducible refine State.setSlice_keeps ?_
                 | with_reducible refine KeepsQ.snd ?_)

theorem State.txEnd_keeps {s t : State} {ring : Nat} {slots : List Nat} {status : Nat} (h : s.Keeps t) : s.Keeps (State.txEnd t ring slots status) :=
    by
  unfold State.txEnd
  repeat' (first | with_reducible assumption | with_reducible refine State.directDone_keeps ?_)

theorem execTxDescriptorFetch_keeps {s t : State} {ring : Nat} {descs : List (List Byte)} {bufs : List (List Byte)} (h : s.Keeps t) : KeepsX s
    (execTxDescriptorFetch ring descs bufs t) := by
  unfold execTxDescriptorFetch
  repeat' (first | with_reducible assumption | with_reducible refine State.pktStop_keeps ?_ | with_reducible refine State.pktAdvance_keeps ?_
                 | with_reducible refine State.txEnd_keeps ?_ | with_reducible refine State.injectDirect_keeps ?_
                 | with_reducible refine State.injectSlice_keeps ?_ | dsimp only | with_reducible refine KeepsX.ite ?_ ?_
                 | with_reducible refine KeepsX.of_next ?_ | split)

/-! ### Pools -/

theorem State.setHostMem_keeps {s t : State} {a : Nat} {bs : List Byte} (h : s.Keeps t) : s.Keeps (t.setHostMem a bs) :=
  ⟨h.1, fun c => ⟨(h.2 c).1, Memory.wf_writeBytes bs _ a (h.2 c).2⟩⟩

theorem State.setPool_keeps {s t : State} {p : Nat} {x : PoolState} (h : s.Keeps t) : s.Keeps (State.setPool t p x) := by
  unfold State.setPool
  repeat' (first | with_reducible assumption | dsimp only | simp only [keeps_updHost])

theorem State.freezePool_keeps {s t : State} {p : Nat} (h : s.Keeps t) : s.Keeps (State.freezePool t p) := by
  unfold State.freezePool
  repeat' (first | with_reducible assumption | with_reducible refine State.raiseError_keeps ?_ | with_reducible refine State.fset_keeps ?_)

theorem State.takeBucket_keeps {s t : State} {p : Nat} {requester : Nat} (h : s.Keeps t) : s.Keeps (State.takeBucket t p requester) := by
  unfold State.takeBucket
  repeat' (first | with_reducible assumption | with_reducible refine State.freezePool_keeps ?_ | with_reducible refine State.fset_keeps ?_
                 | with_reducible refine State.setPool_keeps ?_ | with_reducible refine Keeps.ite ?_ ?_ | dsimp only
                 | simp only [keeps_updHost])

theorem serveWaiters_keeps {s t : State} {x1 : Nat} {x2 : Nat} (h : s.Keeps t) : s.Keeps (serveWaiters x1 x2 t) := by
  induction x1 generalizing t x2 with
  | zero =>
    unfold serveWaiters
    repeat' (first | with_reducible assumption | with_reducible apply ih | with_reducible refine State.setPool_keeps ?_
                   | with_reducible refine State.takeBucket_keeps ?_ | with_reducible refine Keeps.ite ?_ ?_ | simp only [keepsP_mk] | split)
  | succ n ih =>
    unfold serveWaiters
    repeat' (first | with_reducible assumption | with_reducible apply ih | with_reducible refine State.setPool_keeps ?_
                   | with_reducible refine State.takeBucket_keeps ?_ | with_reducible refine Keeps.ite ?_ ?_ | dsimp only | split)

theorem poolBase_keeps {s t : State} {p : Nat} {v : Nat} (h : s.Keeps t) : KeepsP s (poolBase p v t) := by
  unfold poolBase
  repeat' (first | with_reducible assumption | with_reducible refine State.fset_keeps ?_ | simp only [keepsP_mk]
                 | with_reducible refine KeepsP.ite ?_ ?_)

theorem State.poolStart_keeps {s t : State} {p : Nat} (h : s.Keeps t) : s.Keeps (t.poolStart p) := by
  unfold State.poolStart
  extract_lets n m _ s1 s2
  have h1 : s.Keeps s1 := ⟨h.1, fun c => ⟨(h.2 c).1, Memory.wf_threadList _ _ _ _ (h.2 c).2⟩⟩
  exact serveWaiters_keeps (State.fset_keeps (State.fset_keeps (State.fset_keeps (State.fset_keeps (State.setPool_keeps h1)))))

theorem poolCfg_keeps {s t : State} {p : Nat} {v : Nat} (h : s.Keeps t) : KeepsP s (poolCfg p v t) := by
  unfold poolCfg
  repeat' (first | with_reducible assumption | with_reducible refine State.fset_keeps ?_ | with_reducible refine State.setPool_keeps ?_
                 | with_reducible refine State.poolStart_keeps ?_ | simp only [keepsP_mk] | with_reducible refine KeepsP.ite ?_ ?_)

theorem execBucketAlloc_keeps {s t : State} {requester : Nat} {size : Nat} (h : s.Keeps t) : KeepsX s (execBucketAlloc requester size t) := by
  unfold execBucketAlloc
  repeat' (first | with_reducible assumption | with_reducible refine State.setPool_keeps ?_ | with_reducible refine State.takeBucket_keeps ?_
                 | with_reducible refine Keeps.ite ?_ ?_ | dsimp only | with_reducible refine KeepsX.ite ?_ ?_
                 | with_reducible refine KeepsX.of_next ?_ | split)

theorem execBucketFree_keeps {s t : State} {p : Nat} {x2 : Nat} (h : s.Keeps t) : KeepsX s (execBucketFree p x2 t) := by
  unfold execBucketFree
  repeat' (first | with_reducible assumption | with_reducible refine State.setPool_keeps ?_ | with_reducible refine State.setHostMem_keeps ?_
                 | with_reducible refine State.fset_keeps ?_ | dsimp only | simp only [keeps_updHost]
                 | with_reducible refine KeepsX.ite ?_ ?_ | with_reducible refine KeepsX.of_next ?_ | split)

/-! ### Rst -/

theorem execPorNAssert_keeps {s t : State} {held : Nat} (h : s.Keeps t) : KeepsX s (execPorNAssert held t) := by
  unfold execPorNAssert
  repeat' (first | with_reducible assumption | with_reducible refine State.powerOnReset_keeps ?_ | with_reducible refine KeepsX.ite ?_ ?_
                 | with_reducible refine KeepsX.of_next ?_)

theorem State.bootFrom_keeps {s t : State} {noServices : List Nat} {x2 : List Nat} (h : s.Keeps t) : KeepsP s (State.bootFrom t noServices x2) := by
  induction x2 generalizing t noServices with
  | nil =>
    unfold State.bootFrom
    repeat' (first | with_reducible assumption | with_reducible apply ih | with_reducible refine State.markBank_keeps ?_
                   | with_reducible refine Keeps.ite ?_ ?_ | simp only [keepsP_mk] | simp only [keeps_upd] | with_reducible refine KeepsP.ite ?_ ?_)
  | cons a as ih =>
    unfold State.bootFrom
    repeat' (first | with_reducible assumption | with_reducible apply ih | with_reducible refine State.markBank_keeps ?_
                   | with_reducible refine Keeps.ite ?_ ?_ | simp only [keepsP_mk] | simp only [keeps_upd] | with_reducible refine KeepsP.ite ?_ ?_)

theorem State.enterRecovery_keeps {s t : State} (h : s.Keeps t) : s.Keeps (State.enterRecovery t) := by
  unfold State.enterRecovery
  repeat' (first | with_reducible assumption | with_reducible refine State.abortSession_keeps ?_ | with_reducible refine State.fset_keeps ?_
                 | with_reducible refine Keeps.ite ?_ ?_ | dsimp only | simp only [keeps_upd] | split)

theorem State.primingFails_keeps {s t : State} {step : Nat} (h : s.Keeps t) : s.Keeps (State.primingFails t step) := by
  unfold State.primingFails
  repeat' (first | with_reducible assumption | with_reducible refine State.fset_keeps ?_)

theorem State.loadConfig_keeps {s t : State} {pfs : List (Nat × Nat)} (h : s.Keeps t) : s.Keeps (State.loadConfig t pfs) := by
  unfold State.loadConfig
  repeat' (first | with_reducible assumption | with_reducible refine State.fset_keeps ?_ | with_reducible refine Keeps.ite ?_ ?_
                 | dsimp only | simp only [keeps_updHost] | intro _ _ _ | with_reducible refine Keeps.foldl ?_ ?_)

theorem State.trainStacks_keeps {s t : State} {tmBad : List Nat} (h : s.Keeps t) : s.Keeps (State.trainStacks t tmBad) := by
  unfold State.trainStacks
  repeat' (first | with_reducible assumption | with_reducible refine State.fset_keeps ?_ | with_reducible refine State.setRegion_keeps ?_
                 | with_reducible refine Keeps.ite ?_ ?_ | dsimp only | intro _ _ _ | with_reducible refine Keeps.foldl ?_ ?_)

theorem State.installBase_keeps {s t : State} (h : s.Keeps t) : s.Keeps (State.installBase t) := by
  unfold State.installBase
  repeat' (first | with_reducible assumption | with_reducible refine State.installBank_keeps ?_ | split)

theorem State.lockPll_keeps {s t : State} {noRef : Bool} (h : s.Keeps t) : s.Keeps (State.lockPll t noRef) := by
  unfold State.lockPll
  repeat' (first | with_reducible assumption | with_reducible refine State.fset_keeps ?_ | with_reducible refine State.setEvent_keeps ?_
                 | with_reducible refine Keeps.ite ?_ ?_)

theorem State.stepTimes_keeps {s t : State} {ms : List Nat} (h : s.Keeps t) : s.Keeps (State.stepTimes t ms) := by
  unfold State.stepTimes
  repeat' (first | with_reducible assumption | with_reducible refine State.fset_keeps ?_ | intro _ _ _ | with_reducible refine Keeps.foldl ?_ ?_)

theorem State.primeDevice_keeps {s t : State} {r : PrimeRun} (h : s.Keeps t) : s.Keeps (State.primeDevice t r) := by
  unfold State.primeDevice
  repeat' (first | with_reducible assumption | with_reducible refine State.primingFails_keeps ?_ | with_reducible refine State.trainStacks_keeps ?_
                 | with_reducible refine State.installBase_keeps ?_ | with_reducible refine State.fset_keeps ?_
                 | with_reducible refine Keeps.ite ?_ ?_ | dsimp only | simp only [keeps_upd])

theorem execPrimingStart_keeps {s t : State} {r : PrimeRun} (h : s.Keeps t) : KeepsX s (execPrimingStart r t) := by
  unfold execPrimingStart
  repeat' (first | with_reducible assumption | with_reducible refine State.strapRegs_keeps ?_ | with_reducible refine State.loadConfig_keeps ?_
                 | with_reducible refine State.lockPll_keeps ?_ | with_reducible refine State.stepTimes_keeps ?_
                 | with_reducible refine State.enterRecovery_keeps ?_ | with_reducible refine State.bootFrom_keeps ?_
                 | with_reducible refine State.primeDevice_keeps ?_ | with_reducible refine Keeps.ite ?_ ?_ | dsimp only
                 | simp only [keeps_upd] | with_reducible refine KeepsX.ite ?_ ?_ | with_reducible refine KeepsX.of_next ?_ | split
                 | with_reducible refine KeepsP.get (by assumption) ?_)

theorem State.release_keeps {s t : State} (h : s.Keeps t) : KeepsP s (State.release t) := by
  unfold State.release
  repeat' (first | with_reducible assumption | with_reducible refine State.fset_keeps ?_ | simp only [keepsP_mk] | simp only [keeps_upd]
                 | with_reducible refine KeepsP.ite ?_ ?_)

theorem State.relock_keeps {s t : State} (h : s.Keeps t) : s.Keeps (State.relock t) := by
  unfold State.relock
  repeat' (first | with_reducible assumption | with_reducible refine State.fset_keeps ?_ | with_reducible refine Keeps.ite ?_ ?_
                 | dsimp only | simp only [keeps_upd])

theorem State.bootTrial_keeps {s t : State} (h : s.Keeps t) : s.Keeps (State.bootTrial t) := by
  unfold State.bootTrial
  repeat' (first | with_reducible assumption | with_reducible refine State.setFwPhase_keeps ?_ | with_reducible refine State.markBank_keeps ?_
                 | with_reducible refine Keeps.ite ?_ ?_ | dsimp only | simp only [keeps_upd])

theorem execReady_keeps {s t : State} (h : s.Keeps t) : KeepsX s (execReady t) := by
  unfold execReady
  repeat' (first | with_reducible assumption | with_reducible refine State.fset_keeps ?_ | with_reducible refine State.emit_keeps ?_
                 | with_reducible refine State.bootTrial_keeps ?_ | with_reducible refine Keeps.ite ?_ ?_ | dsimp only
                 | simp only [keeps_upd] | with_reducible refine KeepsX.ite ?_ ?_ | with_reducible refine KeepsX.of_next ?_)

theorem State.dieCommands_keeps {s t : State} {die : Nat} (h : s.Keeps t) : s.Keeps (State.dieCommands t die) := by
  unfold State.dieCommands
  repeat' (first | with_reducible assumption | with_reducible refine State.complete_keeps ?_ | intro _ _ _ | with_reducible refine Keeps.foldl ?_ ?_)

theorem State.losePackets_keeps {s t : State} (h : s.Keeps t) : s.Keeps (State.losePackets t) := by
  unfold State.losePackets
  repeat' (first | with_reducible assumption | with_reducible refine State.setRegion_keeps ?_ | with_reducible refine rebacklog_keeps ?_
                 | with_reducible refine State.fset_keeps ?_ | dsimp only | simp only [keeps_updHost] | intro _ _ _
                 | with_reducible refine Keeps.foldl ?_ ?_)

theorem State.loseFe_keeps {s t : State} (h : s.Keeps t) : s.Keeps (State.loseFe t) := by
  unfold State.loseFe
  repeat' (first | with_reducible assumption | with_reducible refine State.resetRegs_keeps ?_ | with_reducible refine State.installBase_keeps ?_
                 | dsimp only | simp only [keeps_upd])

theorem State.loseTm_keeps {s t : State} (h : s.Keeps t) : s.Keeps (State.loseTm t) := by
  unfold State.loseTm
  repeat' (first | with_reducible assumption | with_reducible refine State.resetRegs_keeps ?_ | dsimp only | simp only [keeps_upd])

theorem State.dieReset_keeps {s t : State} {die : Nat} (h : s.Keeps t) : s.Keeps (State.dieReset t die) := by
  unfold State.dieReset
  repeat' (first | with_reducible assumption | with_reducible refine State.dieCommands_keeps ?_ | with_reducible refine State.fset_keeps ?_
                 | with_reducible refine State.loseFe_keeps ?_ | with_reducible refine State.losePackets_keeps ?_
                 | with_reducible refine State.loseTm_keeps ?_ | with_reducible refine Keeps.ite ?_ ?_)

theorem execDieResetDone_keeps {s t : State} {die : Nat} {bad : List Nat} (h : s.Keeps t) : KeepsX s (execDieResetDone die bad t) := by
  unfold execDieResetDone
  repeat' (first | with_reducible assumption | with_reducible refine State.fset_keeps ?_ | with_reducible refine State.hbfFail_keeps ?_
                 | with_reducible refine State.setRegion_keeps ?_ | with_reducible refine Keeps.ite ?_ ?_ | dsimp only
                 | with_reducible refine KeepsX.ite ?_ ?_ | with_reducible refine KeepsX.of_next ?_ | split | intro _ _ _
                 | with_reducible refine Keeps.foldl ?_ ?_)

theorem State.resetDma_keeps {s t : State} (h : s.Keeps t) : s.Keeps (State.resetDma t) := by
  unfold State.resetDma
  repeat' (first | with_reducible assumption | with_reducible refine State.dmaWithdrawAll_keeps ?_
                 | with_reducible refine State.dmaWithdrawCh_keeps ?_ | with_reducible refine State.resetRegs_keeps ?_ | dsimp only
                 | simp only [keeps_upd])

theorem State.resetFxe_keeps {s t : State} (h : s.Keeps t) : s.Keeps (State.resetFxe t) := by
  unfold State.resetFxe
  repeat' (first | with_reducible assumption | with_reducible refine State.complete_keeps ?_ | with_reducible refine State.disableLink_keeps ?_
                 | with_reducible refine State.resetRegs_keeps ?_ | with_reducible refine Keeps.ite ?_ ?_ | dsimp only
                 | simp only [keeps_upd] | intro _ _ _ | with_reducible refine Keeps.foldl ?_ ?_)

theorem blockReset_keeps {s t : State} {v : Nat} (h : s.Keeps t) : KeepsP s (blockReset v t) := by
  unfold blockReset
  repeat' (first | with_reducible assumption | with_reducible refine State.resetDma_keeps ?_ | with_reducible refine State.pmcReset_keeps ?_
                 | with_reducible refine State.resetFxe_keeps ?_ | with_reducible refine Keeps.ite ?_ ?_ | simp only [keepsP_mk])

theorem rstCtrl_keeps {s t : State} {m : Nat} {v : Nat} (h : s.Keeps t) : KeepsP s (rstCtrl m v t) := by
  unfold rstCtrl
  repeat' (first | with_reducible assumption | with_reducible refine State.dieReset_keeps ?_ | with_reducible refine State.askDeviceReset_keeps ?_
                 | with_reducible refine State.release_keeps ?_ | simp only [keepsP_mk] | with_reducible refine KeepsP.ite ?_ ?_
                 | with_reducible refine KeepsP.fst ?_)

theorem rstCfg_keeps {s t : State} {v : Nat} (h : s.Keeps t) : KeepsP s (rstCfg v t) := by
  unfold rstCfg
  repeat' (first | with_reducible assumption | with_reducible refine State.fset_keeps ?_ | with_reducible refine State.release_keeps ?_
                 | simp only [keepsP_mk] | with_reducible refine KeepsP.ite ?_ ?_)

theorem State.hostPathReset_keeps {s t : State} (h : s.Keeps t) : s.Keeps (State.hostPathReset t) := by
  unfold State.hostPathReset
  repeat' (first | with_reducible assumption | with_reducible refine State.ceHalt_keeps ?_ | with_reducible refine State.fset_keeps ?_
                 | with_reducible refine State.dmaWithdrawCh_keeps ?_ | dsimp only | simp only [keeps_upd] | simp only [keeps_updHost]
                 | intro _ _ _ | with_reducible refine Keeps.foldl ?_ ?_)

theorem State.endpointReset_keeps {s t : State} (h : s.Keeps t) : s.Keeps (State.endpointReset t) := by
  unfold State.endpointReset
  repeat' (first | with_reducible assumption | with_reducible refine State.setReg_keeps ?_ | dsimp only | simp only [keeps_updHost])

theorem execPerstDeassertion_keeps {s t : State} {speed : Nat} {width : Nat} {flit : Bool} (h : s.Keeps t) : KeepsX s (execPerstDeassertion speed
    width flit t) := by
  unfold execPerstDeassertion
  repeat' (first | with_reducible assumption | with_reducible refine State.fset_keeps ?_ | dsimp only | simp only [keeps_updHost]
                 | with_reducible refine KeepsX.ite ?_ ?_ | with_reducible refine KeepsX.of_next ?_)

theorem execPcieConfigRequest_keeps {s t : State} (h : s.Keeps t) : KeepsX s (execPcieConfigRequest t) := by
  unfold execPcieConfigRequest
  repeat' (first | with_reducible assumption | with_reducible refine State.emit_keeps ?_ | with_reducible refine KeepsX.ite ?_ ?_
                 | with_reducible refine KeepsX.of_next ?_)

/-! ### Igl -/

theorem State.chainPut_keeps {s t : State} {east : Bool} {f : ChainFrame} (h : s.Keeps t) : s.Keeps (State.chainPut t east f) := by
  unfold State.chainPut
  repeat' (first | with_reducible assumption | with_reducible refine State.emit_keeps ?_ | dsimp only | simp only [keeps_upd])

theorem State.chainSend_keeps {s t : State} {dst : Nat} {msg : ChainMsg} (h : s.Keeps t) : s.Keeps (State.chainSend t dst msg) := by
  unfold State.chainSend
  repeat' (first | with_reducible assumption | with_reducible refine State.chainPut_keeps ?_ | dsimp only | simp only [keeps_upd])

theorem State.chainAll_keeps {s t : State} {msg : ChainMsg} (h : s.Keeps t) : s.Keeps (State.chainAll t msg) := by
  unfold State.chainAll
  repeat' (first | with_reducible assumption | with_reducible refine State.chainSend_keeps ?_ | intro _ _ _ | with_reducible refine Keeps.foldl ?_ ?_)

theorem State.passHost_keeps {s t : State} (h : s.Keeps t) : s.Keeps (State.passHost t) := by
  unfold State.passHost
  repeat' (first | with_reducible assumption | with_reducible refine State.fset_keeps ?_ | with_reducible refine State.ceHalt_keeps ?_
                 | with_reducible refine Keeps.ite ?_ ?_ | dsimp only | simp only [keeps_upd] | intro _ _ _
                 | with_reducible refine Keeps.foldl ?_ ?_)

theorem iglTakeover_keeps {s t : State} {v : Nat} (h : s.Keeps t) : KeepsP s (iglTakeover v t) := by
  unfold iglTakeover
  repeat' (first | with_reducible assumption | with_reducible refine State.passHost_keeps ?_ | with_reducible refine State.chainAll_keeps ?_
                 | with_reducible refine State.fset_keeps ?_ | with_reducible refine State.satAdd_keeps ?_ | simp only [keepsP_mk]
                 | simp only [keeps_upd] | with_reducible refine KeepsP.ite ?_ ?_)

theorem iglRelease_keeps {s t : State} {v : Nat} (h : s.Keeps t) : s.Keeps (iglRelease v t) := by
  unfold iglRelease
  repeat' (first | with_reducible assumption | with_reducible refine State.chainAll_keeps ?_ | with_reducible refine Keeps.ite ?_ ?_
                 | dsimp only | simp only [keeps_upd])

/-! ### RegWrite -/

theorem State.watch_keeps {s t : State} {ns : List Nat} {f : State → State} (hf : ∀ t, s.Keeps t → s.Keeps (f t)) (h : s.Keeps t) :
    s.Keeps (t.watch ns f) := Keeps.foldl (fun _ _ h => State.sendMessage_keeps h) (hf _ h)

theorem State.putPlain_keeps {s t : State} {off : Nat} {new : Nat} (h : s.Keeps t) : s.Keeps (State.putPlain t off new) := by
  unfold State.putPlain
  repeat' (first | with_reducible assumption | with_reducible refine State.setReg_keeps ?_ | with_reducible refine State.watch_keeps ?_ ?_
                 | dsimp only | split | intro _ _)

theorem checkedWrite_keeps {s t : State} {off : Nat} {mask : Nat} {v : Nat} (h : s.Keeps t) : KeepsP s (checkedWrite t off mask v) := by
  unfold checkedWrite
  repeat' (first | with_reducible assumption | simp only [keepsP_mk])

theorem orReport_keeps {s t : State} {o : Option State} (ho : KeepsO s o) (h : s.Keeps t) : KeepsP s (orReport t o) := by
  unfold orReport
  split
  · exact ho
  · exact h

theorem pktRule_keeps {s t : State} {r : Nat} {d : Nat} {v : Nat} (h : s.Keeps t) : KeepsP s (pktRule r d v t) := by
  unfold pktRule
  repeat' (first | with_reducible assumption | with_reducible refine pktBase_keeps ?_ | with_reducible refine pktPlain_keeps ?_
                 | with_reducible refine pktCfg_keeps ?_ | with_reducible refine pktDoorbell_keeps ?_ | simp only [keepsP_mk]
                 | with_reducible refine KeepsP.ite ?_ ?_)

theorem cmdRule_keeps {s t : State} {x1 : Nat} {base : Nat} {v : Nat} (h : s.Keeps t) : KeepsP s (cmdRule x1 base v t) := by
  unfold cmdRule
  repeat' (first | with_reducible assumption | with_reducible refine cmdPlain_keeps ?_ | with_reducible refine cmdDoorbell_keeps ?_
                 | simp only [keepsP_mk] | with_reducible refine KeepsP.ite ?_ ?_)

theorem cqRule_keeps {s t : State} {x1 : Nat} {base : Nat} {v : Nat} (h : s.Keeps t) : KeepsP s (cqRule x1 base v t) := by
  unfold cqRule
  repeat' (first | with_reducible assumption | with_reducible refine cqPlain_keeps ?_ | with_reducible refine cqSize_keeps ?_
                 | with_reducible refine cqConsumer_keeps ?_ | with_reducible refine cqVec_keeps ?_ | simp only [keepsP_mk]
                 | with_reducible refine KeepsP.ite ?_ ?_)

theorem ruleHif_keeps {s t : State} {m : Nat} {v : Nat} {base : Nat} {i : Nat} {p : State} (g_x5 : s.Keeps p) (h : s.Keeps t) : KeepsOP s (ruleHif m v
    base i t p) := by
  unfold ruleHif
  repeat' (first | with_reducible assumption | with_reducible refine pktRule_keeps ?_ | with_reducible refine poolBase_keeps ?_
                 | with_reducible refine poolCfg_keeps ?_ | simp only [keepsP_mk] | with_reducible refine KeepsOP.ite ?_ ?_
                 | with_reducible exact KeepsOP.of_none _ _ | with_reducible refine KeepsOP.of_some ?_ | with_reducible refine KeepsP.ite ?_ ?_)

theorem ruleCe_keeps {s t : State} {m : Nat} {v : Nat} {base : Nat} {i : Nat} (h : s.Keeps t) : KeepsOP s (ruleCe m v base i t) := by
  unfold ruleCe
  repeat' (first | with_reducible assumption | with_reducible refine ceResetGo_keeps ?_ | with_reducible refine ceCtrl_keeps ?_
                 | with_reducible refine cmdRule_keeps ?_ | with_reducible refine cqRule_keeps ?_ | with_reducible refine rqPlain_keeps ?_
                 | with_reducible refine rqSize_keeps ?_ | with_reducible refine rqConsumer_keeps ?_ | with_reducible refine rqVec_keeps ?_
                 | with_reducible refine iglTakeover_keeps ?_ | with_reducible refine iglRelease_keeps ?_ | simp only [keepsP_mk]
                 | with_reducible refine KeepsOP.ite ?_ ?_ | with_reducible exact KeepsOP.of_none _ _ | with_reducible refine KeepsOP.of_some ?_
                 | with_reducible refine KeepsP.ite ?_ ?_)

theorem ruleErr_keeps {s t : State} {m : Nat} {v : Nat} {base : Nat} {i : Nat} {j : Nat} {p : State} (g_x6 : s.Keeps p) (h : s.Keeps t) : KeepsOP s
    (ruleErr m v base i j t p) := by
  unfold ruleErr
  repeat' (first | with_reducible assumption | with_reducible refine hookErrPop_keeps ?_ | with_reducible refine hookFatalForce_keeps ?_
                 | with_reducible refine hookWlSize_keeps ?_ | with_reducible refine hookFaultCfg_keeps ?_
                 | with_reducible refine orReport_keeps ?_ ?_ | with_reducible refine hookSrcMap_keeps ?_ | with_reducible refine hookRearm_keeps ?_
                 | with_reducible refine hookSwRaise_keeps ?_ | with_reducible refine State.hookPmcRun_keeps ?_
                 | with_reducible refine State.hookPmcClr_keeps ?_ | with_reducible refine State.pmcCfgWrite_keeps ?_
                 | with_reducible refine State.setEvent_keeps ?_ | with_reducible refine State.pmcQualWrite_keeps ?_ | simp only [keepsP_mk]
                 | with_reducible refine KeepsOP.ite ?_ ?_ | with_reducible exact KeepsOP.of_none _ _ | with_reducible refine KeepsOP.of_some ?_
                 | with_reducible refine KeepsP.ite ?_ ?_ | split | with_reducible refine KeepsO.get (by assumption) ?_)

theorem ruleAon_keeps {s t : State} {m : Nat} {v : Nat} {bad : Bool} {off : Nat} {base : Nat} {i : Nat} {p : State} (g_x7 : s.Keeps p) (h : s.Keeps t)
    : KeepsOP s (ruleAon m v bad off base i t p) := by
  unfold ruleAon
  repeat' (first | with_reducible assumption | with_reducible refine State.hookGov_keeps ?_ | with_reducible refine State.hookTherm_keeps ?_
                 | with_reducible refine State.hookFeed_keeps ?_ | with_reducible refine State.relock_keeps ?_
                 | with_reducible refine State.hookSnap_keeps ?_ | with_reducible refine State.hookPpsInCfg_keeps ?_
                 | with_reducible refine State.hookPpsInWin_keeps ?_ | with_reducible refine State.hookPpsOut_keeps ?_
                 | with_reducible refine State.hookPpsOfs_keeps ?_ | with_reducible refine State.hookSynce_keeps ?_
                 | with_reducible refine State.hookTrig_keeps ?_ | with_reducible refine hookMboxGo_keeps ?_
                 | with_reducible refine hookFwuCfg_keeps ?_ | with_reducible refine rstCtrl_keeps ?_ | with_reducible refine rstCfg_keeps ?_
                 | with_reducible refine blockReset_keeps ?_ | simp only [keepsP_mk] | with_reducible refine KeepsOP.ite ?_ ?_
                 | with_reducible exact KeepsOP.of_none _ _ | with_reducible refine KeepsOP.of_some ?_ | with_reducible refine KeepsP.ite ?_ ?_)

theorem ruleLine_keeps {s t : State} {v : Nat} {off : Nat} {base : Nat} {i : Nat} {j : Nat} (h : s.Keeps t) : KeepsOP s (ruleLine v off base i j t) :=
    by
  unfold ruleLine
  repeat' (first | with_reducible assumption | with_reducible refine State.hookGrpCtrl_keeps ?_ | with_reducible refine checkedWrite_keeps ?_
                 | with_reducible refine State.hookLaneMap_keeps ?_ | with_reducible refine State.hookPortCfg_keeps ?_
                 | with_reducible refine State.hookPortMac_keeps ?_ | with_reducible refine State.hookPortCal_keeps ?_
                 | with_reducible refine State.hookFxeGrp_keeps ?_ | with_reducible refine State.hookFxePhy_keeps ?_
                 | with_reducible refine State.hookFxeInteg_keeps ?_ | with_reducible refine State.hookFxeClient_keeps ?_
                 | with_reducible refine State.hookFxeMac_keeps ?_ | with_reducible refine State.hookFxeProt_keeps ?_
                 | with_reducible refine State.hookTrace_keeps ?_ | simp only [keepsP_mk] | with_reducible refine KeepsOP.ite ?_ ?_
                 | with_reducible exact KeepsOP.of_none _ _ | with_reducible refine KeepsOP.of_some ?_ | with_reducible refine KeepsP.ite ?_ ?_)

theorem shadowRule_keeps {s t : State} {x1 : ShadowUnit} {m : Nat} {v : Nat} {p : State} (g_x4 : s.Keeps p) (h : s.Keeps t) : KeepsP s (shadowRule x1
    m v t p) := by
  unfold shadowRule
  repeat' (first | with_reducible assumption | with_reducible refine State.shadowGo_keeps ?_ | with_reducible refine State.shadowStop_keeps ?_
                 | simp only [keepsP_mk] | with_reducible refine KeepsP.ite ?_ ?_)

theorem exmTblRule_keeps {s t : State} {x1 : Nat} {v : Nat} {p : State} (g_x3 : s.Keeps p) (h : s.Keeps t) : KeepsP s (exmTblRule x1 v t p) := by
  unfold exmTblRule
  repeat' (first | with_reducible assumption | with_reducible refine State.setEvent_keeps ?_ | simp only [keepsP_mk]
                 | with_reducible refine KeepsP.ite ?_ ?_)

theorem State.clampReg_keeps {s t : State} {f : Fld} {lo : Nat} {hi : Nat} (h : s.Keeps t) : KeepsP s (State.clampReg t f lo hi) := by
  unfold State.clampReg
  repeat' (first | with_reducible assumption | with_reducible refine State.fset_keeps ?_ | simp only [keepsP_mk])

theorem ruleTable_keeps {s t : State} {m : Nat} {v : Nat} {base : Nat} {i : Nat} {p : State} (g_x5 : s.Keeps p) (h : s.Keeps t) : KeepsOP s (ruleTable
    m v base i t p) := by
  unfold ruleTable
  repeat' (first | with_reducible assumption | with_reducible refine shadowRule_keeps ?_ ?_ | with_reducible refine State.clampReg_keeps ?_
                 | with_reducible refine exmTblRule_keeps ?_ ?_ | with_reducible refine State.winRun_keeps ?_
                 | with_reducible refine hookDrainLimit_keeps ?_ | with_reducible refine hookHbmCfg_keeps ?_
                 | with_reducible refine hookHbtSr_keeps ?_ | with_reducible refine orReport_keeps ?_ ?_
                 | with_reducible refine hookHbtTrain_keeps ?_ | with_reducible refine Keeps.ite ?_ ?_ | simp only [keepsP_mk]
                 | with_reducible refine KeepsOP.ite ?_ ?_ | with_reducible exact KeepsOP.of_none _ _ | with_reducible refine KeepsOP.of_some ?_)

theorem ruleTm_keeps {s t : State} {v : Nat} {off : Nat} {base : Nat} {i : Nat} {p : State} (g_x5 : s.Keeps p) (h : s.Keeps t) : KeepsOP s (ruleTm v
    off base i t p) := by
  unfold ruleTm
  repeat' (first | with_reducible assumption | with_reducible refine State.clampReg_keeps ?_ | with_reducible refine State.fset_keeps ?_
                 | with_reducible refine State.hookYieldFactor_keeps ?_ | with_reducible refine checkedWrite_keeps ?_
                 | with_reducible refine State.hookPortBind_keeps ?_ | with_reducible refine State.hookYbase_keeps ?_
                 | with_reducible refine orReport_keeps ?_ ?_ | with_reducible refine State.hookShpSel_keeps ?_
                 | with_reducible refine State.hookShpCfg_keeps ?_ | with_reducible refine State.hookDlnPort_keeps ?_
                 | with_reducible refine State.hookFabLink_keeps ?_ | with_reducible refine Keeps.ite ?_ ?_ | simp only [keepsP_mk]
                 | with_reducible refine KeepsOP.ite ?_ ?_ | with_reducible exact KeepsOP.of_none _ _ | with_reducible refine KeepsOP.of_some ?_
                 | with_reducible refine KeepsP.ite ?_ ?_ | with_reducible refine KeepsP.fst ?_)

theorem blockRule_keeps {s t : State} {m : Nat} {v : Nat} {bad : Bool} {off : Nat} {base : Nat} {i : Nat} {j : Nat} {p : State} (g_x8 : s.Keeps p) (h
    : s.Keeps t) : KeepsOP s (blockRule m v bad off base i j t p) := by
  unfold blockRule
  repeat' (first | with_reducible assumption | with_reducible refine ruleHif_keeps ?_ ?_ | with_reducible refine ruleCe_keeps ?_
                 | with_reducible refine ruleErr_keeps ?_ ?_ | with_reducible refine ruleAon_keeps ?_ ?_ | with_reducible refine ruleLine_keeps ?_
                 | with_reducible refine ruleTable_keeps ?_ ?_ | with_reducible refine ruleTm_keeps ?_ ?_ | with_reducible refine KeepsOP.ite ?_ ?_)

theorem State.applyWrite_keeps {s t : State} {m off v : Nat} {bad : Bool} {r : RegRow} {i j : Nat} (h : s.Keeps t) :
    KeepsP s (t.applyWrite m off v bad r i j) := by
  unfold State.applyWrite
  extract_lets old locked v0 v1 p none_ res
  have hp : s.Keeps p := State.putPlain_keeps h
  have hres : KeepsP s res := by
    refine KeepsP.ite h ?_
    split
    · exact KeepsOP.get (by assumption) (blockRule_keeps hp h)
    · exact hp
  clear_value res
  split
  · exact keepsP_mk.2 (State.regError_keeps hres)
  · exact keepsP_mk.2 (Keeps.ite (State.regError_keeps hres) hres)
  · exact KeepsP.ite (keepsP_mk.2 (State.regError_keeps hres)) hres

theorem State.writeReg_keeps {s t : State} {m : Nat} {off : Nat} {v : Nat} {bad : Bool} (h : s.Keeps t) : KeepsP s (State.writeReg t m off v bad) :=
    by
  unfold State.writeReg
  repeat' (first | with_reducible assumption | with_reducible refine State.askDeviceReset_keeps ?_
                 | with_reducible refine State.pmcWindowWrite_keeps ?_ | with_reducible refine State.regError_keeps ?_
                 | with_reducible refine State.satAdd_keeps ?_ | with_reducible refine State.applyWrite_keeps ?_ | simp only [keepsP_mk]
                 | with_reducible refine KeepsP.ite ?_ ?_ | split)

theorem State.regWrite_keeps {s t : State} {m : Nat} {off : Nat} {len : Nat} {v : Nat} {bad : Bool} (h : s.Keeps t) : s.Keeps (State.regWrite t m off
    len v bad) := by
  unfold State.regWrite
  repeat' (first | with_reducible assumption | with_reducible refine State.writeReg_keeps ?_ | with_reducible refine State.regError_keeps ?_
                 | with_reducible refine Keeps.ite ?_ ?_ | with_reducible refine KeepsP.fst ?_)

theorem State.hostWrite_keeps {s t : State} {m : Nat} {off : Nat} {v : Nat} (h : s.Keeps t) : s.Keeps (State.hostWrite t m off v) := by
  unfold State.hostWrite
  repeat' (first | with_reducible assumption | with_reducible refine State.regWrite_keeps ?_)

/-! ### Dma -/

theorem State.dmaUnit_keeps {s t : State} {x1 : Nat} {fresh : Bool} (h : s.Keeps t) : KeepsP s (State.dmaUnit t x1 fresh) := by
  unfold State.dmaUnit
  repeat' (first | with_reducible assumption | with_reducible refine State.hbfUnit_keeps ?_ | with_reducible refine State.hbfUeAt_keeps ?_
                 | with_reducible refine State.hbtUnitAccess_keeps ?_ | with_reducible refine State.hbmUe_keeps ?_
                 | with_reducible refine State.stackFail_keeps ?_ | with_reducible refine Keeps.ite ?_ ?_ | simp only [keepsP_mk]
                 | with_reducible refine KeepsP.ite ?_ ?_)

theorem State.dmaUnits_keeps {s t : State} {fresh : Option Nat} {x2 : List Nat} (h : s.Keeps t) : KeepsP s (State.dmaUnits fresh x2 t) := by
  induction x2 generalizing t fresh with
  | nil =>
    unfold State.dmaUnits
    repeat' (first | with_reducible assumption | with_reducible apply ih | with_reducible refine State.dmaUnit_keeps ?_ | simp only [keepsP_mk]
                   | split | with_reducible refine KeepsP.get (by assumption) ?_)
  | cons a as ih =>
    unfold State.dmaUnits
    repeat' (first | with_reducible assumption | with_reducible apply ih | with_reducible refine State.dmaUnit_keeps ?_ | simp only [keepsP_mk]
                   | split | with_reducible refine KeepsP.get (by assumption) ?_)

theorem dmaRegs_keeps {s t : State} {m : Nat} {x2 : Nat} {x3 : List Nat} {x4 : Nat} (h : s.Keeps t) : KeepsP s (dmaRegs m x2 x3 x4 t) := by
  induction x3 generalizing t m x2 x4 with
  | nil =>
    unfold dmaRegs
    repeat' (first | with_reducible assumption | with_reducible apply ih | with_reducible refine State.writeReg_keeps ?_ | simp only [keepsP_mk]
                   | split | with_reducible refine KeepsP.get (by assumption) ?_)
  | cons a as ih =>
    unfold dmaRegs
    repeat' (first | with_reducible assumption | with_reducible apply ih | with_reducible refine State.writeReg_keeps ?_ | simp only [keepsP_mk]
                   | split | with_reducible refine KeepsP.get (by assumption) ?_)

theorem State.dmaWrite_keeps {s t : State} {m : Nat} {dev : Bool} {x3 : Nat} {bytes : List Byte} (h : s.Keeps t) : KeepsP s (State.dmaWrite t m dev x3
    bytes) := by
  unfold State.dmaWrite
  repeat' (first | with_reducible assumption | with_reducible refine State.emit_keeps ?_ | with_reducible refine State.setHostMem_keeps ?_
                 | with_reducible refine dmaRegs_keeps ?_ | simp only [keepsP_mk] | with_reducible refine KeepsP.ite ?_ ?_)

theorem State.dmaRead_keeps {s t : State} {f : Option Nat} {dev : Bool} {a n : Nat} {given : List Byte} {fresh : Option Nat} (h : s.Keeps t) :
    s.Keeps (t.dmaRead f dev a n given fresh).st := by
  unfold State.dmaRead
  split
  · exact h
  · split
    · exact h
    · extract_lets units
      split
      · exact KeepsP.get (by assumption) (State.dmaUnits_keeps h)
      · exact KeepsP.get (by assumption) (State.dmaUnits_keeps h)

theorem State.dmaRun_keeps {s t : State} {x : Xfer} {a b : List Byte} {n : Nat} {fresh : Option Nat} (h : s.Keeps t) :
    KeepsP s (t.dmaRun x a b n fresh) := by
  unfold State.dmaRun
  extract_lets f m
  split
  · extract_lets r
    split
    · exact KeepsP.get (by assumption) (State.dmaWrite_keeps (State.dmaRead_keeps h))
    · exact KeepsP.get (by assumption) (State.dmaWrite_keeps (State.dmaRead_keeps h))
  · extract_lets bytes
    split
    exact KeepsP.get (by assumption) (State.dmaWrite_keeps h)
  · extract_lets ra rb len
    split
    · exact State.dmaRead_keeps (State.dmaRead_keeps h)
    · exact State.dmaRead_keeps (State.dmaRead_keeps h)

theorem State.dmaEndRun_keeps {s t : State} {ch : Nat} {x : Xfer} {status : Nat} {bytes : Nat} {mismatch : Nat} (h : s.Keeps t) : s.Keeps
    (State.dmaEndRun t ch x status bytes mismatch) := by
  unfold State.dmaEndRun
  repeat' (first | with_reducible assumption | with_reducible refine State.dmaFinish_keeps ?_ | with_reducible refine State.pmc_keeps ?_
                 | with_reducible refine Keeps.ite ?_ ?_)

theorem execDmaTransferDone_keeps {s t : State} {ch : Nat} {x2 : List Byte} {b : List Byte} {stop : Option (Nat × Nat)} (h : s.Keeps t) : KeepsX s
    (execDmaTransferDone ch x2 b stop t) := by
  unfold execDmaTransferDone
  repeat' (first | with_reducible assumption | with_reducible refine State.dmaRun_keeps ?_ | with_reducible refine State.dmaEndRun_keeps ?_
                 | dsimp only | with_reducible refine KeepsX.ite ?_ ?_ | with_reducible refine KeepsX.of_next ?_
                 | with_reducible refine KeepsP.fst ?_ | split)

theorem State.dmaWithdraw_keeps {s t : State} {ch : Nat} {x2 : List Byte} {b : List Byte} {bytes : Nat} (h : s.Keeps t) : s.Keeps (State.dmaWithdraw t
    ch x2 b bytes) := by
  unfold State.dmaWithdraw
  repeat' (first | with_reducible assumption | with_reducible refine State.dmaRun_keeps ?_ | with_reducible refine State.dmaEndRun_keeps ?_
                 | dsimp only | with_reducible refine KeepsP.fst ?_ | split)

theorem execDmaWithdraw_keeps {s t : State} {ch : Nat} {x2 : List Byte} {b : List Byte} {bytes : Nat} (h : s.Keeps t) : KeepsX s (execDmaWithdraw ch
    x2 b bytes t) := by
  unfold execDmaWithdraw
  repeat' (first | with_reducible assumption | with_reducible refine State.dmaWithdraw_keeps ?_ | with_reducible refine KeepsX.ite ?_ ?_
                 | with_reducible refine KeepsX.of_next ?_)

theorem execDmaRecordWrite_keeps {s t : State} (h : s.Keeps t) : KeepsX s (execDmaRecordWrite t) := by
  unfold execDmaRecordWrite
  repeat' (first | with_reducible assumption | with_reducible refine State.emit_keeps ?_ | with_reducible refine State.pulse_keeps ?_
                 | with_reducible refine State.fset_keeps ?_ | dsimp only | simp only [keeps_upd]
                 | with_reducible refine KeepsX.ite ?_ ?_ | with_reducible refine KeepsX.of_next ?_ | split)

theorem State.startXfer_keeps {s t : State} {c : Cmd} {op : DmaOp} {x3 : Nat} (h : s.Keeps t) : KeepsP s (State.startXfer t c op x3) := by
  unfold State.startXfer
  repeat' (first | with_reducible assumption | with_reducible refine State.fset_keeps ?_ | simp only [keepsP_mk] | simp only [keeps_upd])

theorem execCopy_keeps {s t : State} {c : Cmd} (h : s.Keeps t) : KeepsX s (execCopy c t) := by
  unfold execCopy
  repeat' (first | with_reducible assumption | with_reducible refine runCmd_keeps ?_ ?_ | with_reducible refine fail_keeps ?_
                 | with_reducible refine State.startXfer_keeps ?_ | dsimp only | with_reducible refine KeepsP.ite ?_ ?_ | split
                 | intro _ _)

theorem execFill_keeps {s t : State} {c : Cmd} (h : s.Keeps t) : KeepsX s (execFill c t) := by
  unfold execFill
  repeat' (first | with_reducible assumption | with_reducible refine runCmd_keeps ?_ ?_ | with_reducible refine fail_keeps ?_
                 | with_reducible refine State.startXfer_keeps ?_ | dsimp only | split | intro _ _)

theorem execCompare_keeps {s t : State} {c : Cmd} (h : s.Keeps t) : KeepsX s (execCompare c t) := by
  unfold execCompare
  repeat' (first | with_reducible assumption | with_reducible refine runCmd_keeps ?_ ?_ | with_reducible refine fail_keeps ?_
                 | with_reducible refine State.startXfer_keeps ?_ | dsimp only | with_reducible refine KeepsP.ite ?_ ?_ | split
                 | intro _ _)

theorem execAbort_keeps {s t : State} {c : Cmd} {x2 : List Byte} {b : List Byte} {bytes : Nat} (h : s.Keeps t) : KeepsX s (execAbort c x2 b bytes t)
    := by
  unfold execAbort
  repeat' (first | with_reducible assumption | with_reducible refine runCmd_keeps ?_ ?_ | with_reducible refine fail_keeps ?_
                 | with_reducible refine ok_keeps ?_ | with_reducible refine State.dmaWithdraw_keeps ?_ | split | intro _ _)

theorem execNop_keeps {s t : State} {c : Cmd} (h : s.Keeps t) : KeepsX s (execNop c t) := by
  unfold execNop
  repeat' (first | with_reducible assumption | with_reducible refine runCmd_keeps ?_ ?_ | with_reducible refine ok_keeps ?_ | intro _ _)

theorem execEcho_keeps {s t : State} {c : Cmd} (h : s.Keeps t) : KeepsX s (execEcho c t) := by
  unfold execEcho
  repeat' (first | with_reducible assumption | with_reducible refine runCmd_keeps ?_ ?_ | with_reducible refine fail_keeps ?_
                 | with_reducible refine ok_keeps ?_ | split | intro _ _)

theorem execRegRead_keeps {s t : State} {c : Cmd} (h : s.Keeps t) : KeepsX s (execRegRead c t) := by
  unfold execRegRead
  repeat' (first | with_reducible assumption | with_reducible refine runCmd_keeps ?_ ?_ | with_reducible refine fail_keeps ?_
                 | with_reducible refine ok_keeps ?_ | dsimp only | split | intro _ _)

theorem writePairs_keeps {s t : State} {m : Nat} {x2 : List (Nat × Nat)} {x3 : Nat} (h : s.Keeps t) : KeepsP s (writePairs m x2 x3 t) := by
  induction x2 generalizing t m x3 with
  | nil =>
    unfold writePairs
    repeat' (first | with_reducible assumption | with_reducible apply ih | with_reducible refine State.writeReg_keeps ?_
                   | with_reducible refine State.regError_keeps ?_ | simp only [keepsP_mk] | with_reducible refine KeepsP.ite ?_ ?_ | split
                   | with_reducible refine KeepsP.get (by assumption) ?_)
  | cons a as ih =>
    unfold writePairs
    repeat' (first | with_reducible assumption | with_reducible apply ih | with_reducible refine State.writeReg_keeps ?_
                   | with_reducible refine State.regError_keeps ?_ | simp only [keepsP_mk] | with_reducible refine KeepsP.ite ?_ ?_ | split
                   | with_reducible refine KeepsP.get (by assumption) ?_)

theorem execRegWrite_keeps {s t : State} {c : Cmd} (h : s.Keeps t) : KeepsX s (execRegWrite c t) := by
  unfold execRegWrite
  repeat' (first | with_reducible assumption | with_reducible refine runCmd_keeps ?_ ?_ | with_reducible refine fail_keeps ?_
                 | with_reducible refine writePairs_keeps ?_ | simp only [keepsP_mk] | with_reducible refine KeepsP.fst ?_ | split | intro _ _)

/-! ### Chain -/

theorem State.chainDeliver_keeps {s t : State} {f : ChainFrame} (h : s.Keeps t) : s.Keeps (State.chainDeliver t f) := by
  unfold State.chainDeliver
  repeat' (first | with_reducible assumption | with_reducible refine State.regWrite_keeps ?_ | with_reducible refine State.chainSend_keeps ?_
                 | with_reducible refine State.emit_keeps ?_ | with_reducible refine State.sendMessage_keeps ?_
                 | with_reducible refine State.passHost_keeps ?_ | with_reducible refine State.fset_keeps ?_
                 | with_reducible refine State.hostPathReset_keeps ?_ | with_reducible refine Keeps.ite ?_ ?_ | dsimp only
                 | simp only [keeps_upd] | split)

theorem State.chainAccept_keeps {s t : State} {f : ChainFrame} (h : s.Keeps t) : s.Keeps (State.chainAccept t f) := by
  unfold State.chainAccept
  repeat' (first | with_reducible assumption | with_reducible refine State.chainDeliver_keeps ?_ | dsimp only | simp only [keeps_upd])

theorem chainDrain_keeps {s t : State} {x1 : Nat} {x2 : Nat} (h : s.Keeps t) : s.Keeps (chainDrain x1 x2 t) := by
  induction x1 generalizing t x2 with
  | zero =>
    unfold chainDrain
    repeat' (first | with_reducible assumption | with_reducible apply ih | with_reducible refine State.chainAccept_keeps ?_ | simp only [keepsP_mk]
                   | simp only [keeps_upd] | split)
  | succ n ih =>
    unfold chainDrain
    repeat' (first | with_reducible assumption | with_reducible apply ih | with_reducible refine State.chainAccept_keeps ?_ | dsimp only
                   | simp only [keeps_upd] | split)

theorem State.chainTake_keeps {s t : State} {f : ChainFrame} (h : s.Keeps t) : s.Keeps (State.chainTake t f) := by
  unfold State.chainTake
  repeat' (first | with_reducible assumption | with_reducible refine chainDrain_keeps ?_ | with_reducible refine State.chainAccept_keeps ?_
                 | with_reducible refine Keeps.ite ?_ ?_ | dsimp only | simp only [keeps_upd])

theorem State.chainAck_keeps {s t : State} {east : Bool} {f : ChainFrame} (h : s.Keeps t) : s.Keeps (State.chainAck t east f) := by
  unfold State.chainAck
  repeat' (first | with_reducible assumption | with_reducible refine State.emit_keeps ?_)

theorem execChainFrameReceive_keeps {s t : State} {east : Bool} {f : ChainFrame} (h : s.Keeps t) : KeepsX s (execChainFrameReceive east f t) := by
  unfold execChainFrameReceive
  repeat' (first | with_reducible assumption | with_reducible refine State.chainTake_keeps ?_ | with_reducible refine State.chainAck_keeps ?_
                 | with_reducible refine State.chainPut_keeps ?_ | dsimp only | simp only [keeps_upd]
                 | with_reducible refine KeepsX.ite ?_ ?_ | with_reducible refine KeepsX.of_next ?_ | split)

theorem State.mapChain_keeps {s t : State} {found : List ChainDev} {dups : List Nat} (h : s.Keeps t) : s.Keeps (State.mapChain t found dups) := by
  unfold State.mapChain
  repeat' (first | with_reducible assumption | with_reducible refine State.fset_keeps ?_ | with_reducible refine State.setReg_keeps ?_
                 | dsimp only | split | intro _ _ _ | with_reducible refine Keeps.foldl ?_ ?_)

theorem State.dupWellhead_keeps {s t : State} {found : List ChainDev} (h : s.Keeps t) : s.Keeps (State.dupWellhead t found) := by
  unfold State.dupWellhead
  repeat' (first | with_reducible assumption | with_reducible refine State.fset_keeps ?_ | with_reducible refine State.raiseError_keeps ?_
                 | with_reducible refine Keeps.ite ?_ ?_ | dsimp only | simp only [keeps_upd] | split)

theorem State.discover_keeps {s t : State} (h : s.Keeps t) : s.Keeps (State.discover t) := by
  unfold State.discover
  repeat' (first | with_reducible assumption | with_reducible refine State.emit_keeps ?_ | with_reducible refine Keeps.ite ?_ ?_)

theorem State.discovered_keeps {s t : State} {closed : Bool} {found : List ChainDev} (h : s.Keeps t) : s.Keeps (State.discovered t closed found) := by
  unfold State.discovered
  repeat' (first | with_reducible assumption | with_reducible refine State.fset_keeps ?_ | with_reducible refine State.mapChain_keeps ?_
                 | with_reducible refine State.dupWellhead_keeps ?_ | with_reducible refine State.raiseError_keeps ?_
                 | with_reducible refine Keeps.ite ?_ ?_ | dsimp only | simp only [keeps_upd] | intro _ _ _
                 | with_reducible refine Keeps.foldl ?_ ?_)

theorem State.reroute_keeps {s t : State} {east : Bool} (h : s.Keeps t) : s.Keeps (State.reroute t east) := by
  unfold State.reroute
  repeat' (first | with_reducible assumption | with_reducible refine State.chainPut_keeps ?_ | with_reducible refine Keeps.ite ?_ ?_
                 | dsimp only | simp only [keeps_upd] | intro _ _ _ | with_reducible refine Keeps.foldl ?_ ?_)

theorem execChainLinkDown_keeps {s t : State} {east : Bool} {closed : Bool} {found : List ChainDev} (h : s.Keeps t) : KeepsX s (execChainLinkDown east
    closed found t) := by
  unfold execChainLinkDown
  repeat' (first | with_reducible assumption | with_reducible refine State.raiseError_keeps ?_ | with_reducible refine State.satAdd_keeps ?_
                 | with_reducible refine State.fset_keeps ?_ | with_reducible refine State.reroute_keeps ?_
                 | with_reducible refine State.discovered_keeps ?_ | with_reducible refine State.discover_keeps ?_ | dsimp only
                 | with_reducible refine KeepsX.ite ?_ ?_ | with_reducible refine KeepsX.of_next ?_)

theorem execChainLinkUp_keeps {s t : State} {east : Bool} {closed : Bool} {found : List ChainDev} (h : s.Keeps t) : KeepsX s (execChainLinkUp east
    closed found t) := by
  unfold execChainLinkUp
  repeat' (first | with_reducible assumption | with_reducible refine State.discovered_keeps ?_ | with_reducible refine State.discover_keeps ?_
                 | with_reducible refine State.fset_keeps ?_ | dsimp only | with_reducible refine KeepsX.ite ?_ ?_
                 | with_reducible refine KeepsX.of_next ?_)

theorem execChainReadTimeout_keeps {s t : State} {dev : Nat} (h : s.Keeps t) : KeepsX s (execChainReadTimeout dev t) := by
  unfold execChainReadTimeout
  repeat' (first | with_reducible assumption | with_reducible refine State.emit_keeps ?_ | with_reducible refine State.satAdd_keeps ?_
                 | with_reducible refine KeepsX.ite ?_ ?_ | with_reducible refine KeepsX.of_next ?_)

theorem execChainLost_keeps {s t : State} (h : s.Keeps t) : KeepsX s (execChainLost t) := by
  unfold execChainLost
  repeat' (first | with_reducible assumption | with_reducible refine State.dmaFinish_keeps ?_ | with_reducible refine State.ceHalt_keeps ?_
                 | with_reducible refine Keeps.ite ?_ ?_ | dsimp only | with_reducible refine KeepsX.ite ?_ ?_
                 | with_reducible refine KeepsX.of_next ?_ | split | intro _ _ _ | with_reducible refine Keeps.foldl ?_ ?_)

theorem execRegisterWrite_keeps {s t : State} {m : Nat} {window : Option Nat} {off : Nat} {len : Nat} {v : Nat} (h : s.Keeps t) : KeepsX s
    (execRegisterWrite m window off len v t) := by
  unfold execRegisterWrite
  repeat' (first | with_reducible assumption | with_reducible refine State.regWrite_keeps ?_ | with_reducible refine State.chainSend_keeps ?_
                 | with_reducible refine State.satAdd_keeps ?_ | with_reducible refine KeepsX.ite ?_ ?_ | with_reducible refine KeepsX.of_next ?_
                 | split)

theorem execConventionalPcieReset_keeps {s t : State} (h : s.Keeps t) : KeepsX s (execConventionalPcieReset t) := by
  unfold execConventionalPcieReset
  repeat' (first | with_reducible assumption | with_reducible refine State.endpointReset_keeps ?_
                 | with_reducible refine State.askDeviceReset_keeps ?_ | with_reducible refine State.hostPathReset_keeps ?_
                 | with_reducible refine State.chainAll_keeps ?_ | with_reducible refine Keeps.ite ?_ ?_ | dsimp only
                 | with_reducible refine KeepsX.ite ?_ ?_ | with_reducible refine KeepsX.of_next ?_)

/-! ### RegRows -/

theorem rowWrite_keeps {s t : State} {unit : Bool} {m : Nat} {off : Nat} {v : Nat} (h : s.Keeps t) : KeepsX s (rowWrite unit m off v t) := by
  unfold rowWrite
  repeat' (first | with_reducible assumption | with_reducible refine State.hostWrite_keeps ?_ | with_reducible refine Keeps.ite ?_ ?_
                 | with_reducible refine KeepsX.of_next ?_)

theorem execRingDisable_keeps {s t : State} {m : Nat} {r : Nat} {v : Nat} (h : s.Keeps t) : KeepsX s (execRingDisable m r v t) := by
  unfold execRingDisable
  repeat' (first | with_reducible assumption | with_reducible refine rowWrite_keeps ?_)

theorem execPmcCfgWrite_keeps {s t : State} {m : Nat} {bank : Nat} {x3 : Nat} {qual : Bool} {v : Nat} (h : s.Keeps t) : KeepsX s (execPmcCfgWrite m
    bank x3 qual v t) := by
  unfold execPmcCfgWrite
  repeat' (first | with_reducible assumption | with_reducible refine rowWrite_keeps ?_)

theorem execPmcWindowWrite_keeps {s t : State} {m : Nat} {off : Nat} {v : Nat} (h : s.Keeps t) : KeepsX s (execPmcWindowWrite m off v t) := by
  unfold execPmcWindowWrite
  repeat' (first | with_reducible assumption | with_reducible refine rowWrite_keeps ?_)

theorem execFwuMboxGo_keeps {s t : State} {m : Nat} {v : Nat} {bad : Bool} (h : s.Keeps t) : KeepsX s (execFwuMboxGo m v bad t) := by
  unfold execFwuMboxGo
  repeat' (first | with_reducible assumption | with_reducible refine State.regWrite_keeps ?_ | with_reducible refine KeepsX.of_next ?_)

theorem execCmdDoorbell_keeps {s t : State} {m : Nat} {ring : Nat} {v : Nat} (h : s.Keeps t) : KeepsX s (execCmdDoorbell m ring v t) := by
  unfold execCmdDoorbell
  repeat' (first | with_reducible assumption | with_reducible refine rowWrite_keeps ?_)

theorem execPktRingDoorbell_keeps {s t : State} {m : Nat} {ring : Nat} {v : Nat} (h : s.Keeps t) : KeepsX s (execPktRingDoorbell m ring v t) := by
  unfold execPktRingDoorbell
  repeat' (first | with_reducible assumption | with_reducible refine rowWrite_keeps ?_)

theorem execCqCiWrite_keeps {s t : State} {m : Nat} {q : Nat} {v : Nat} (h : s.Keeps t) : KeepsX s (execCqCiWrite m q v t) := by
  unfold execCqCiWrite
  repeat' (first | with_reducible assumption | with_reducible refine rowWrite_keeps ?_)

theorem execDmaRqCiWrite_keeps {s t : State} {m : Nat} {v : Nat} (h : s.Keeps t) : KeepsX s (execDmaRqCiWrite m v t) := by
  unfold execDmaRqCiWrite
  repeat' (first | with_reducible assumption | with_reducible refine rowWrite_keeps ?_)

theorem execCeReset_keeps {s t : State} {m : Nat} {v : Nat} (h : s.Keeps t) : KeepsX s (execCeReset m v t) := by
  unfold execCeReset
  repeat' (first | with_reducible assumption | with_reducible refine rowWrite_keeps ?_)

theorem execRingRestart_keeps {s t : State} {m : Nat} {ring : Nat} {v : Nat} (h : s.Keeps t) : KeepsX s (execRingRestart m ring v t) := by
  unfold execRingRestart
  repeat' (first | with_reducible assumption | with_reducible refine rowWrite_keeps ?_)

theorem execPoolEnable_keeps {s t : State} {m : Nat} {p : Nat} {v : Nat} (h : s.Keeps t) : KeepsX s (execPoolEnable m p v t) := by
  unfold execPoolEnable
  repeat' (first | with_reducible assumption | with_reducible refine rowWrite_keeps ?_)

theorem execGlbOwnWrite_keeps {s t : State} {m : Nat} {b : Nat} {v : Nat} (h : s.Keeps t) : KeepsX s (execGlbOwnWrite m b v t) := by
  unfold execGlbOwnWrite
  repeat' (first | with_reducible assumption | with_reducible refine rowWrite_keeps ?_)

theorem execDrainLimitWrite_keeps {s t : State} {m : Nat} {v : Nat} (h : s.Keeps t) : KeepsX s (execDrainLimitWrite m v t) := by
  unfold execDrainLimitWrite
  repeat' (first | with_reducible assumption | with_reducible refine rowWrite_keeps ?_)

theorem execPortEnable_keeps {s t : State} {m : Nat} {port : Nat} {v : Nat} (h : s.Keeps t) : KeepsX s (execPortEnable m port v t) := by
  unfold execPortEnable
  repeat' (first | with_reducible assumption | with_reducible refine rowWrite_keeps ?_)

theorem execPortDisable_keeps {s t : State} {m : Nat} {port : Nat} {v : Nat} (h : s.Keeps t) : KeepsX s (execPortDisable m port v t) := by
  unfold execPortDisable
  repeat' (first | with_reducible assumption | with_reducible refine rowWrite_keeps ?_)

theorem execGroupEnable_keeps {s t : State} {m : Nat} {group : Nat} {v : Nat} (h : s.Keeps t) : KeepsX s (execGroupEnable m group v t) := by
  unfold execGroupEnable
  repeat' (first | with_reducible assumption | with_reducible refine rowWrite_keeps ?_)

theorem execGroupDisable_keeps {s t : State} {m : Nat} {group : Nat} {v : Nat} (h : s.Keeps t) : KeepsX s (execGroupDisable m group v t) := by
  unfold execGroupDisable
  repeat' (first | with_reducible assumption | with_reducible refine rowWrite_keeps ?_)

theorem execPortRecalibrate_keeps {s t : State} {m : Nat} {port : Nat} {v : Nat} (h : s.Keeps t) : KeepsX s (execPortRecalibrate m port v t) := by
  unfold execPortRecalibrate
  repeat' (first | with_reducible assumption | with_reducible refine rowWrite_keeps ?_)

theorem execFxeGroupEnable_keeps {s t : State} {m : Nat} {f : Nat} {v : Nat} (h : s.Keeps t) : KeepsX s (execFxeGroupEnable m f v t) := by
  unfold execFxeGroupEnable
  repeat' (first | with_reducible assumption | with_reducible refine rowWrite_keeps ?_)

theorem execFxeClientEnable_keeps {s t : State} {m : Nat} {c : Nat} {v : Nat} (h : s.Keeps t) : KeepsX s (execFxeClientEnable m c v t) := by
  unfold execFxeClientEnable
  repeat' (first | with_reducible assumption | with_reducible refine rowWrite_keeps ?_)

theorem execFxeProtEnable_keeps {s t : State} {m : Nat} {c : Nat} {v : Nat} (h : s.Keeps t) : KeepsX s (execFxeProtEnable m c v t) := by
  unfold execFxeProtEnable
  repeat' (first | with_reducible assumption | with_reducible refine rowWrite_keeps ?_)

theorem execTraceArm_keeps {s t : State} {m : Nat} {v : Nat} (h : s.Keeps t) : KeepsX s (execTraceArm m v t) := by
  unfold execTraceArm
  repeat' (first | with_reducible assumption | with_reducible refine rowWrite_keeps ?_)

theorem execLpmShadowGo_keeps {s t : State} {m : Nat} {v : Nat} (h : s.Keeps t) : KeepsX s (execLpmShadowGo m v t) := by
  unfold execLpmShadowGo
  repeat' (first | with_reducible assumption | with_reducible refine rowWrite_keeps ?_)

theorem execLpmShadowStop_keeps {s t : State} {m : Nat} {v : Nat} (h : s.Keeps t) : KeepsX s (execLpmShadowStop m v t) := by
  unfold execLpmShadowStop
  repeat' (first | with_reducible assumption | with_reducible refine rowWrite_keeps ?_)

theorem execExmShadowGo_keeps {s t : State} {m : Nat} {v : Nat} (h : s.Keeps t) : KeepsX s (execExmShadowGo m v t) := by
  unfold execExmShadowGo
  repeat' (first | with_reducible assumption | with_reducible refine rowWrite_keeps ?_)

theorem execExmShadowStop_keeps {s t : State} {m : Nat} {v : Nat} (h : s.Keeps t) : KeepsX s (execExmShadowStop m v t) := by
  unfold execExmShadowStop
  repeat' (first | with_reducible assumption | with_reducible refine rowWrite_keeps ?_)

theorem execCamShadowGo_keeps {s t : State} {m : Nat} {v : Nat} (h : s.Keeps t) : KeepsX s (execCamShadowGo m v t) := by
  unfold execCamShadowGo
  repeat' (first | with_reducible assumption | with_reducible refine rowWrite_keeps ?_)

theorem execCamShadowStop_keeps {s t : State} {m : Nat} {v : Nat} (h : s.Keeps t) : KeepsX s (execCamShadowStop m v t) := by
  unfold execCamShadowStop
  repeat' (first | with_reducible assumption | with_reducible refine rowWrite_keeps ?_)

theorem execExmWinRead_keeps {s t : State} {m : Nat} {v : Nat} (h : s.Keeps t) : KeepsX s (execExmWinRead m v t) := by
  unfold execExmWinRead
  repeat' (first | with_reducible assumption | with_reducible refine rowWrite_keeps ?_)

theorem execExmWinInsert_keeps {s t : State} {m : Nat} {v : Nat} (h : s.Keeps t) : KeepsX s (execExmWinInsert m v t) := by
  unfold execExmWinInsert
  repeat' (first | with_reducible assumption | with_reducible refine rowWrite_keeps ?_)

theorem execExmWinReplace_keeps {s t : State} {m : Nat} {v : Nat} (h : s.Keeps t) : KeepsX s (execExmWinReplace m v t) := by
  unfold execExmWinReplace
  repeat' (first | with_reducible assumption | with_reducible refine rowWrite_keeps ?_)

theorem execExmWinDelete_keeps {s t : State} {m : Nat} {v : Nat} (h : s.Keeps t) : KeepsX s (execExmWinDelete m v t) := by
  unfold execExmWinDelete
  repeat' (first | with_reducible assumption | with_reducible refine rowWrite_keeps ?_)

theorem execExmWinNext_keeps {s t : State} {m : Nat} {v : Nat} (h : s.Keeps t) : KeepsX s (execExmWinNext m v t) := by
  unfold execExmWinNext
  repeat' (first | with_reducible assumption | with_reducible refine rowWrite_keeps ?_)

theorem execExmWinUnlearn_keeps {s t : State} {m : Nat} {v : Nat} (h : s.Keeps t) : KeepsX s (execExmWinUnlearn m v t) := by
  unfold execExmWinUnlearn
  repeat' (first | with_reducible assumption | with_reducible refine rowWrite_keeps ?_)

theorem execExmWinFlushPort_keeps {s t : State} {m : Nat} {v : Nat} (h : s.Keeps t) : KeepsX s (execExmWinFlushPort m v t) := by
  unfold execExmWinFlushPort
  repeat' (first | with_reducible assumption | with_reducible refine rowWrite_keeps ?_)

theorem execBufPeakClr_keeps {s t : State} {m : Nat} {v : Nat} (h : s.Keeps t) : KeepsX s (execBufPeakClr m v t) := by
  unfold execBufPeakClr
  repeat' (first | with_reducible assumption | with_reducible refine rowWrite_keeps ?_)

theorem execShpSelWrite_keeps {s t : State} {m : Nat} {v : Nat} (h : s.Keeps t) : KeepsX s (execShpSelWrite m v t) := by
  unfold execShpSelWrite
  repeat' (first | with_reducible assumption | with_reducible refine rowWrite_keeps ?_)

theorem execShpCfgWrite_keeps {s t : State} {m : Nat} {v : Nat} (h : s.Keeps t) : KeepsX s (execShpCfgWrite m v t) := by
  unfold execShpCfgWrite
  repeat' (first | with_reducible assumption | with_reducible refine rowWrite_keeps ?_)

theorem execFabLinkEnable_keeps {s t : State} {m : Nat} {l : Nat} {v : Nat} (h : s.Keeps t) : KeepsX s (execFabLinkEnable m l v t) := by
  unfold execFabLinkEnable
  repeat' (first | with_reducible assumption | with_reducible refine rowWrite_keeps ?_)

theorem execSynceCfgWrite_keeps {s t : State} {m : Nat} {x2 : Nat} {v : Nat} (h : s.Keeps t) : KeepsX s (execSynceCfgWrite m x2 v t) := by
  unfold execSynceCfgWrite
  repeat' (first | with_reducible assumption | with_reducible refine rowWrite_keeps ?_)

theorem execTriggerEnable_keeps {s t : State} {m : Nat} {x2 : Nat} {v : Nat} (h : s.Keeps t) : KeepsX s (execTriggerEnable m x2 v t) := by
  unfold execTriggerEnable
  repeat' (first | with_reducible assumption | with_reducible refine rowWrite_keeps ?_)

theorem execTimSnap_keeps {s t : State} {m : Nat} {v : Nat} (h : s.Keeps t) : KeepsX s (execTimSnap m v t) := by
  unfold execTimSnap
  repeat' (first | with_reducible assumption | with_reducible refine rowWrite_keeps ?_)

theorem execHbtTrain_keeps {s t : State} {m : Nat} {k : Nat} {v : Nat} (h : s.Keeps t) : KeepsX s (execHbtTrain m k v t) := by
  unfold execHbtTrain
  repeat' (first | with_reducible assumption | with_reducible refine rowWrite_keeps ?_)

theorem execErrLogPopReg_keeps {s t : State} {m : Nat} {v : Nat} (h : s.Keeps t) : KeepsX s (execErrLogPopReg m v t) := by
  unfold execErrLogPopReg
  repeat' (first | with_reducible assumption | with_reducible refine rowWrite_keeps ?_)

theorem execErrSwRaise_keeps {s t : State} {m : Nat} {v : Nat} (h : s.Keeps t) : KeepsX s (execErrSwRaise m v t) := by
  unfold execErrSwRaise
  repeat' (first | with_reducible assumption | with_reducible refine rowWrite_keeps ?_)

theorem execErrVecRearm_keeps {s t : State} {m : Nat} {x2 : Nat} {v : Nat} (h : s.Keeps t) : KeepsX s (execErrVecRearm m x2 v t) := by
  unfold execErrVecRearm
  repeat' (first | with_reducible assumption | with_reducible refine rowWrite_keeps ?_)

theorem execErrFatalForce_keeps {s t : State} {m : Nat} {v : Nat} (h : s.Keeps t) : KeepsX s (execErrFatalForce m v t) := by
  unfold execErrFatalForce
  repeat' (first | with_reducible assumption | with_reducible refine rowWrite_keeps ?_)

theorem execPmcRunStart_keeps {s t : State} {m : Nat} {v : Nat} (h : s.Keeps t) : KeepsX s (execPmcRunStart m v t) := by
  unfold execPmcRunStart
  repeat' (first | with_reducible assumption | with_reducible refine rowWrite_keeps ?_)

theorem execPmcRunStop_keeps {s t : State} {m : Nat} {v : Nat} (h : s.Keeps t) : KeepsX s (execPmcRunStop m v t) := by
  unfold execPmcRunStop
  repeat' (first | with_reducible assumption | with_reducible refine rowWrite_keeps ?_)

theorem execPmcClr_keeps {s t : State} {m : Nat} {v : Nat} (h : s.Keeps t) : KeepsX s (execPmcClr m v t) := by
  unfold execPmcClr
  repeat' (first | with_reducible assumption | with_reducible refine rowWrite_keeps ?_)

theorem execDeviceReset_keeps {s t : State} {m : Nat} {v : Nat} (h : s.Keeps t) : KeepsX s (execDeviceReset m v t) := by
  unfold execDeviceReset
  repeat' (first | with_reducible assumption | with_reducible refine rowWrite_keeps ?_)

theorem execDieResetFe_keeps {s t : State} {m : Nat} {v : Nat} (h : s.Keeps t) : KeepsX s (execDieResetFe m v t) := by
  unfold execDieResetFe
  repeat' (first | with_reducible assumption | with_reducible refine rowWrite_keeps ?_)

theorem execDieResetTm_keeps {s t : State} {m : Nat} {v : Nat} (h : s.Keeps t) : KeepsX s (execDieResetTm m v t) := by
  unfold execDieResetTm
  repeat' (first | with_reducible assumption | with_reducible refine rowWrite_keeps ?_)

theorem execBlockResetDma_keeps {s t : State} {m : Nat} {v : Nat} (h : s.Keeps t) : KeepsX s (execBlockResetDma m v t) := by
  unfold execBlockResetDma
  repeat' (first | with_reducible assumption | with_reducible refine rowWrite_keeps ?_)

theorem execBlockResetPmc_keeps {s t : State} {m : Nat} {v : Nat} (h : s.Keeps t) : KeepsX s (execBlockResetPmc m v t) := by
  unfold execBlockResetPmc
  repeat' (first | with_reducible assumption | with_reducible refine rowWrite_keeps ?_)

theorem execBlockResetFxe_keeps {s t : State} {m : Nat} {v : Nat} (h : s.Keeps t) : KeepsX s (execBlockResetFxe m v t) := by
  unfold execBlockResetFxe
  repeat' (first | with_reducible assumption | with_reducible refine rowWrite_keeps ?_)

theorem execPrimingRelease_keeps {s t : State} {m : Nat} {v : Nat} (h : s.Keeps t) : KeepsX s (execPrimingRelease m v t) := by
  unfold execPrimingRelease
  repeat' (first | with_reducible assumption | with_reducible refine rowWrite_keeps ?_)

theorem execRefFreqRelock_keeps {s t : State} {m : Nat} {v : Nat} (h : s.Keeps t) : KeepsX s (execRefFreqRelock m v t) := by
  unfold execRefFreqRelock
  repeat' (first | with_reducible assumption | with_reducible refine rowWrite_keeps ?_)

theorem execIglTakeover_keeps {s t : State} {m : Nat} {v : Nat} (h : s.Keeps t) : KeepsX s (execIglTakeover m v t) := by
  unfold execIglTakeover
  repeat' (first | with_reducible assumption | with_reducible refine rowWrite_keeps ?_)

theorem execIglRelease_keeps {s t : State} {m : Nat} {v : Nat} (h : s.Keeps t) : KeepsX s (execIglRelease m v t) := by
  unfold execIglRelease
  repeat' (first | with_reducible assumption | with_reducible refine rowWrite_keeps ?_)

/-! ### WellLog -/

theorem State.freeze_keeps {s t : State} (h : s.Keeps t) : s.Keeps (State.freeze t) := by
  unfold State.freeze
  repeat' (first | with_reducible assumption | with_reducible refine State.fset_keeps ?_ | dsimp only | simp only [keeps_upd])

theorem State.wellSection_keeps {s t : State} {type : Nat} {given : Nat × List Byte} (h : s.Keeps t) : s.Keeps (State.wellSection t type given) := by
  unfold State.wellSection
  repeat' (first | with_reducible assumption | with_reducible refine State.fset_keeps ?_ | with_reducible refine State.emit_keeps ?_
                 | with_reducible refine State.pmc_keeps ?_ | with_reducible refine Keeps.ite ?_ ?_ | dsimp only | simp only [keeps_upd])

theorem wellRun_keeps {s t : State} {x1 : Nat} {x2 : List (Nat × List Byte)} (h : s.Keeps t) : s.Keeps (wellRun x1 x2 t) := by
  induction x1 generalizing t x2 with
  | zero =>
    unfold wellRun
    repeat' (first | with_reducible assumption | with_reducible apply ih | with_reducible refine State.wellSection_keeps ?_
                   | with_reducible refine State.fset_keeps ?_ | with_reducible refine Keeps.ite ?_ ?_ | simp only [keepsP_mk] | split)
  | succ n ih =>
    unfold wellRun
    repeat' (first | with_reducible assumption | with_reducible apply ih | with_reducible refine State.wellSection_keeps ?_
                   | with_reducible refine State.fset_keeps ?_ | with_reducible refine Keeps.ite ?_ ?_ | dsimp only | split)

theorem State.wellEnd_keeps {s t : State} {state : Nat} (h : s.Keeps t) : s.Keeps (State.wellEnd t state) := by
  unfold State.wellEnd
  repeat' (first | with_reducible assumption | with_reducible refine State.freeze_keeps ?_ | with_reducible refine State.pulse_keeps ?_
                 | with_reducible refine State.fset_keeps ?_)

theorem State.wellFinish_keeps {s t : State} (h : s.Keeps t) : s.Keeps (State.wellFinish t) := by
  unfold State.wellFinish
  repeat' (first | with_reducible assumption | with_reducible refine State.emit_keeps ?_ | with_reducible refine State.wellEnd_keeps ?_)

theorem State.wellBegin_keeps {s t : State} (h : s.Keeps t) : s.Keeps (State.wellBegin t) := by
  unfold State.wellBegin
  repeat' (first | with_reducible assumption | with_reducible refine State.fset_keeps ?_ | with_reducible refine State.emit_keeps ?_
                 | dsimp only | simp only [keeps_upd])

theorem execWellLogDump_keeps {s t : State} {x1 : Nat} {bodies : List (Nat × List Byte)} {failed : Bool} (h : s.Keeps t) : KeepsX s (execWellLogDump
    x1 bodies failed t) := by
  unfold execWellLogDump
  repeat' (first | with_reducible assumption | with_reducible refine wellRun_keeps ?_ | with_reducible refine State.wellEnd_keeps ?_
                 | with_reducible refine State.wellFinish_keeps ?_ | with_reducible refine State.freeze_keeps ?_
                 | with_reducible refine State.fset_keeps ?_ | with_reducible refine State.wellBegin_keeps ?_
                 | with_reducible refine Keeps.ite ?_ ?_ | dsimp only | with_reducible refine KeepsX.ite ?_ ?_
                 | with_reducible refine KeepsX.of_next ?_ | split)

theorem execWellLogStall_keeps {s t : State} (h : s.Keeps t) : KeepsX s (execWellLogStall t) := by
  unfold execWellLogStall
  repeat' (first | with_reducible assumption | with_reducible refine State.wellEnd_keeps ?_ | with_reducible refine KeepsX.ite ?_ ?_
                 | with_reducible refine KeepsX.of_next ?_)

/-! ### Pins -/

theorem nextOf_keeps {s t : State} {o : Host.Outcome State Fault Refusal} (ho : KeepsX s o) (h : s.Keeps t) : s.Keeps (nextOf t o) := by
  unfold nextOf
  split
  · exact ho
  · exact h

theorem State.loseLock_keeps {s t : State} {p : Nat} (h : s.Keeps t) : s.Keeps (State.loseLock t p) := by
  unfold State.loseLock
  repeat' (first | with_reducible assumption | with_reducible refine nextOf_keeps ?_ ?_ | with_reducible refine execLinkConditionChange_keeps ?_)

theorem execRefClockLoss_keeps {s t : State} {clock : Nat} (h : s.Keeps t) : KeepsX s (execRefClockLoss clock t) := by
  unfold execRefClockLoss
  repeat' (first | with_reducible assumption | with_reducible refine execConventionalPcieReset_keeps ?_
                 | with_reducible refine State.loseLock_keeps ?_ | with_reducible refine nextOf_keeps ?_ ?_
                 | with_reducible refine execSynceSquelch_keeps ?_ | with_reducible refine State.fabMove_keeps ?_
                 | with_reducible refine execChainLinkDown_keeps ?_ | with_reducible refine execTimeRefLoss_keeps ?_
                 | with_reducible refine Keeps.ite ?_ ?_ | dsimp only | with_reducible refine KeepsX.ite ?_ ?_
                 | with_reducible refine KeepsX.of_next ?_ | intro _ _ _ | with_reducible refine Keeps.foldl ?_ ?_)

theorem State.jtagLoad_keeps {s t : State} {i : JtagInstr} {boundary : Bool} (h : s.Keeps t) : s.Keeps (State.jtagLoad t i boundary) := by
  unfold State.jtagLoad
  repeat' (first | with_reducible assumption | dsimp only | simp only [keeps_upd])

theorem State.jtagShift_keeps {s t : State} {x1 : Nat} {tdi : Nat} (h : s.Keeps t) : s.Keeps (State.jtagShift t x1 tdi) := by
  unfold State.jtagShift
  repeat' (first | with_reducible assumption | with_reducible refine State.emit_keeps ?_)

theorem jtagBoundary_keeps {s t : State} {i : JtagInstr} {x2 : Nat} {tdi : Nat} (h : s.Keeps t) : KeepsX s (jtagBoundary i x2 tdi t) := by
  unfold jtagBoundary
  repeat' (first | with_reducible assumption | with_reducible refine State.jtagLoad_keeps ?_ | with_reducible refine State.jtagShift_keeps ?_
                 | with_reducible refine Keeps.ite ?_ ?_ | dsimp only | with_reducible refine KeepsX.ite ?_ ?_
                 | with_reducible refine KeepsX.of_next ?_)

theorem execJtagIdcode_keeps {s t : State} (h : s.Keeps t) : KeepsX s (execJtagIdcode t) := by
  unfold execJtagIdcode
  repeat' (first | with_reducible assumption | with_reducible refine State.emit_keeps ?_ | with_reducible refine State.jtagLoad_keeps ?_
                 | with_reducible refine KeepsX.ite ?_ ?_ | with_reducible refine KeepsX.of_next ?_)

theorem execJtagBypass_keeps {s t : State} {x1 : Nat} {tdi : Nat} (h : s.Keeps t) : KeepsX s (execJtagBypass x1 tdi t) := by
  unfold execJtagBypass
  repeat' (first | with_reducible assumption | with_reducible refine State.jtagShift_keeps ?_ | with_reducible refine State.jtagLoad_keeps ?_
                 | with_reducible refine KeepsX.ite ?_ ?_ | with_reducible refine KeepsX.of_next ?_)

theorem execJtagSamplePreload_keeps {s t : State} (h : s.Keeps t) : KeepsX s (execJtagSamplePreload t) := by
  unfold execJtagSamplePreload
  repeat' (first | with_reducible assumption | with_reducible refine State.jtagLoad_keeps ?_ | with_reducible refine KeepsX.ite ?_ ?_
                 | with_reducible refine KeepsX.of_next ?_)

theorem execJtagExtest_keeps {s t : State} {x1 : Nat} {tdi : Nat} (h : s.Keeps t) : KeepsX s (execJtagExtest x1 tdi t) := by
  unfold execJtagExtest
  repeat' (first | with_reducible assumption | with_reducible refine jtagBoundary_keeps ?_)

theorem execJtagExtestPulse_keeps {s t : State} {x1 : Nat} {tdi : Nat} (h : s.Keeps t) : KeepsX s (execJtagExtestPulse x1 tdi t) := by
  unfold execJtagExtestPulse
  repeat' (first | with_reducible assumption | with_reducible refine jtagBoundary_keeps ?_)

theorem execJtagExtestTrain_keeps {s t : State} {x1 : Nat} {tdi : Nat} (h : s.Keeps t) : KeepsX s (execJtagExtestTrain x1 tdi t) := by
  unfold execJtagExtestTrain
  repeat' (first | with_reducible assumption | with_reducible refine jtagBoundary_keeps ?_)

theorem execJtagClamp_keeps {s t : State} {x1 : Nat} {tdi : Nat} (h : s.Keeps t) : KeepsX s (execJtagClamp x1 tdi t) := by
  unfold execJtagClamp
  repeat' (first | with_reducible assumption | with_reducible refine jtagBoundary_keeps ?_)

theorem execJtagHighz_keeps {s t : State} {x1 : Nat} {tdi : Nat} (h : s.Keeps t) : KeepsX s (execJtagHighz x1 tdi t) := by
  unfold execJtagHighz
  repeat' (first | with_reducible assumption | with_reducible refine jtagBoundary_keeps ?_)

theorem execJtagTapReset_keeps {s t : State} (h : s.Keeps t) : KeepsX s (execJtagTapReset t) := by
  unfold execJtagTapReset
  repeat' (first | with_reducible assumption | with_reducible refine State.jtagLoad_keeps ?_ | with_reducible refine KeepsX.ite ?_ ?_
                 | with_reducible refine KeepsX.of_next ?_)

theorem State.sideWrite_keeps {s t : State} {m : Nat} {off : Nat} {v : Nat} (h : s.Keeps t) : s.Keeps (State.sideWrite t m off v) := by
  unfold State.sideWrite
  repeat' (first | with_reducible assumption | with_reducible refine State.writeReg_keeps ?_ | with_reducible refine State.regError_keeps ?_
                 | with_reducible refine Keeps.ite ?_ ?_ | with_reducible refine KeepsP.fst ?_)

theorem execJtagRegAccess_keeps {s t : State} {write : Bool} {off : Nat} {v : Nat} (h : s.Keeps t) : KeepsX s (execJtagRegAccess write off v t) := by
  unfold execJtagRegAccess
  repeat' (first | with_reducible assumption | with_reducible refine State.jtagLoad_keeps ?_ | with_reducible refine State.sideWrite_keeps ?_
                 | with_reducible refine State.emit_keeps ?_ | dsimp only | with_reducible refine KeepsX.ite ?_ ?_
                 | with_reducible refine KeepsX.of_next ?_)

theorem State.i3cNack_keeps {s t : State} (h : s.Keeps t) : s.Keeps (State.i3cNack t) := by
  unfold State.i3cNack
  repeat' (first | with_reducible assumption | with_reducible refine State.emit_keeps ?_)

theorem execI3cEntdaa_keeps {s t : State} {addr : Nat} (h : s.Keeps t) : KeepsX s (execI3cEntdaa addr t) := by
  unfold execI3cEntdaa
  repeat' (first | with_reducible assumption | with_reducible refine State.emit_keeps ?_ | dsimp only | simp only [keeps_upd]
                 | with_reducible refine KeepsX.ite ?_ ?_ | with_reducible refine KeepsX.of_next ?_)

theorem i3cWrite_keeps {s t : State} {bytes : List Byte} (h : s.Keeps t) : KeepsX s (i3cWrite bytes t) := by
  unfold i3cWrite
  repeat' (first | with_reducible assumption | with_reducible refine State.i3cNack_keeps ?_ | with_reducible refine State.sideWrite_keeps ?_
                 | dsimp only | simp only [keeps_upd] | with_reducible refine KeepsX.ite ?_ ?_ | with_reducible refine KeepsX.of_next ?_)

theorem execI3cPointerWrite_keeps {s t : State} {bytes : List Byte} (h : s.Keeps t) : KeepsX s (execI3cPointerWrite bytes t) := by
  unfold execI3cPointerWrite
  repeat' (first | with_reducible assumption | with_reducible refine i3cWrite_keeps ?_)

theorem execI3cRegisterWrite_keeps {s t : State} {bytes : List Byte} (h : s.Keeps t) : KeepsX s (execI3cRegisterWrite bytes t) := by
  unfold execI3cRegisterWrite
  repeat' (first | with_reducible assumption | with_reducible refine i3cWrite_keeps ?_)

theorem execI3cRead_keeps {s t : State} {x1 : Nat} (h : s.Keeps t) : KeepsX s (execI3cRead x1 t) := by
  unfold execI3cRead
  repeat' (first | with_reducible assumption | with_reducible refine State.i3cNack_keeps ?_ | with_reducible refine State.emit_keeps ?_
                 | dsimp only | simp only [keeps_upd] | with_reducible refine KeepsX.ite ?_ ?_ | with_reducible refine KeepsX.of_next ?_)

end Sys2Proof.Machine
end

