-- ==== Sys2Proof/Laws/RegWrite.lean ====
section
/-! SUPPORT. Laws of a register write (22 R603): a write that passes the checks does what the rule of the register's chapter answers. -/

namespace Sys2Proof.Machine

open Sys2Proof

/-- Where a register's row begins, and the register's indices. -/
def rowOf (off : Nat) : Option (Nat × List Nat) := (regAt off).map fun x => (x.1.off, x.2)

/-- The state that a rule's answer leaves. -/
def ruleOut (x : Option (State × Wr)) (p : State) (off m : Nat) : State :=
  match x with
  | none => p
  | some (t, .reported) => t.regError off m
  | some (t, _) => t

/-- A write that takes is the rule's answer. -/
theorem hostWrite_takes {s : State} {m off v base : Nat} {ix : List Nat} (h : s.writeTakes m off v = true)
    (hr : rowOf off = some (base, ix)) :
    s.hostWrite m off v = ruleOut (blockRule m (wv off v) false off base (ix.headD 0) (ix.getD 1 0) s (s.putPlain off (s.plainNext off v)))
      (s.putPlain off (s.plainNext off v)) off m := by
  unfold rowOf at hr
  cases hreg : regAt off with
  | none => simp [hreg] at hr
  | some x =>
    obtain ⟨r, ix'⟩ := x
    simp only [hreg, Option.map_some, Option.some.injEq, Prod.mk.injEq] at hr
    obtain ⟨rfl, rfl⟩ := hr
    simp only [State.writeTakes, State.writeReaches, hreg, fieldsAt, Bool.and_eq_true, Bool.or_eq_true, Bool.not_eq_true', bne_iff_ne, beq_iff_eq] at h
    obtain ⟨⟨⟨⟨⟨⟨⟨⟨⟨h1, h2⟩, h3⟩, h4⟩, -⟩, h5⟩, h6⟩, h7⟩, h8⟩, h9⟩ := h
    have e0 : wv off v = fieldBits Acc.writable r.fields (v % 2 ^ 32) := by simp [wv, fieldsAt, hreg]
    have e1 : (if s.fbit Fld.RST_STATUS_READY = true then keepFields Acc.locks r.fields (s.reg off).toNat (fieldBits Acc.writable r.fields (v % 2^32)) else fieldBits Acc.writable r.fields (v % 2^32)) = wv off v := by
      rcases h9 with h9 | h9
      · simp [h9, e0]
      · split
        · rw [← e0]; exact h9
        · exact e0.symm
    have e2 : plainValue r.fields (s.reg off).toNat (wv off v) = s.plainNext off v := by simp [State.plainNext, fieldsAt, hreg]
    simp only [State.hostWrite, State.regWrite, h1, h4, State.writeReg, h2, h3, hreg, h5, h6, h7, State.applyWrite, h8, e1, e2]
    simp only [← e0]
    simp only [Bool.false_eq_true, if_false, and_self, if_true, Bool.not_true]
    cases blockRule m (wv off v) false off r.off (ix'.headD 0) (ix'.getD 1 0) s (s.putPlain off (s.plainNext off v)) with
    | none => simp [ruleOut]
    | some y => obtain ⟨t, w⟩ := y; cases w <;> simp [ruleOut]

/-- A row of the command table that writes one register of an existing unit. -/
theorem rowWrite_takes {s : State} {m off v base : Nat} {ix : List Nat} (h : s.writeTakes m off v = true)
    (hr : rowOf off = some (base, ix)) :
    rowWrite true m off v s = .next (ruleOut (blockRule m (wv off v) false off base (ix.headD 0) (ix.getD 1 0) s
      (s.putPlain off (s.plainNext off v))) (s.putPlain off (s.plainNext off v)) off m) := by
  simp [rowWrite, hostWrite_takes h hr]

end Sys2Proof.Machine
end

