-- ==== Sys2Proof/Laws/RegAt.lean ====
section
/-! SUPPORT. The row and the indices of the registers that rows of the command table write, for every index (22 R602, R610). -/

namespace Sys2Proof.Machine

open Sys2Proof

theorem findRow_skip {r : RegRow} {rs : List RegRow} {off : Nat} (h : off < r.off ∨ regIndices r.dims (off - r.off) = none) :
    findRow (r :: rs) off = findRow rs off := by
  conv => lhs; unfold findRow
  split
  · rcases h with h | h
    · omega
    · rw [h]
  · rfl

theorem findRow_skip0 {o : Nat} {fs : List RegField} {rs : List RegRow} {off : Nat} (h : off ≠ o) :
    findRow (⟨o, [], fs⟩ :: rs) off = findRow rs off := by
  by_cases g : off < o
  · exact findRow_skip (.inl g)
  · exact findRow_skip (.inr (if_neg (by dsimp only; omega)))

theorem regIndices_one_none {n st d : Nat} (h : n ≤ d / st ∨ d % st ≠ 0) : regIndices [(n, st)] d = none := by
  unfold regIndices
  split
  · rw [show regIndices [] (d % st) = none from if_neg (by omega)]; rfl
  · rfl

theorem findRow_skip1 {o n st : Nat} {fs : List RegField} {rs : List RegRow} {off : Nat}
    (h : off < o ∨ n ≤ (off - o) / st ∨ (off - o) % st ≠ 0) : findRow (⟨o, [(n, st)], fs⟩ :: rs) off = findRow rs off :=
  findRow_skip (h.imp id regIndices_one_none)

theorem findRow_skip2 {o n st n' st' : Nat} {fs : List RegField} {rs : List RegRow} {off : Nat}
    (h : off < o ∨ n ≤ (off - o) / st ∨ n' ≤ (off - o) % st / st' ∨ (off - o) % st % st' ≠ 0) :
    findRow (⟨o, [(n, st), (n', st')], fs⟩ :: rs) off = findRow rs off := by
  refine findRow_skip (h.imp id fun h => ?_)
  dsimp only
  unfold regIndices
  split
  · rw [regIndices_one_none (by omega)]; rfl
  · rfl

theorem rowOf_hit1 {o n st i off : Nat} {fs : List RegField} {rs : List RegRow} (h : i < n) (hp : 0 < st) (ho : off = o + st * i) :
    (findRow (⟨o, [(n, st)], fs⟩ :: rs) off).map (fun x => (x.1.off, x.2)) = some (o, [i]) := by
  subst ho
  simp [findRow, regIndices, Nat.mul_div_cancel_left i hp, h]

theorem rowOf_hit2 {o n st n' st' i j off : Nat} {fs : List RegField} {rs : List RegRow} (h : i < n) (h' : j < n')
    (hp : 0 < st' ∧ n' * st' ≤ st) (ho : off = o + st * i + st' * j) :
    (findRow (⟨o, [(n, st), (n', st')], fs⟩ :: rs) off).map (fun x => (x.1.off, x.2)) = some (o, [i, j]) := by
  subst ho
  have hj : st' * j < st := by
    have := Nat.mul_lt_mul_of_pos_left h' hp.1
    rw [Nat.mul_comm st' n'] at this
    omega
  have d : (st * i + st' * j) / st = i := by rw [Nat.mul_add_div (by omega), Nat.div_eq_of_lt hj, Nat.add_zero]
  have m : (st * i + st' * j) % st = st' * j := by rw [Nat.mul_add_mod, Nat.mod_eq_of_lt hj]
  simp [findRow, regIndices, Nat.add_assoc, d, m, Nat.mul_div_cancel_left j hp.1, h, h']

theorem rowOf_of {off b o : Nat} {ix : List Nat} (hb : blockOf off = some b)
    (h : (findRow (regRows b) off).map (fun x => (x.1.off, x.2)) = some (o, ix)) : rowOf off = some (o, ix) := by
  simpa [rowOf, regAt, hb] using h

theorem rowOf_CE_CMD_PI {n : Nat} (hn : n < 8) :
    rowOf (Reg.CE_CMD_PI n) = some (Reg.CE_CMD_PI 0, [n]) := by
  simp only [Reg.CE_CMD_PI, Nat.mul_zero, Nat.add_zero]
  refine rowOf_of (b := 2) (by unfold blockOf; repeat' (first | rw [if_neg (by omega)] | rw [if_pos (by omega)] | rfl | (congr 1; omega))) ?_
  rw [show regRows 2 = regRows2a from rfl]
  simp only [regRows2a]
  repeat (first
    | (with_reducible refine (congrArg (Option.map _) (findRow_skip0 ?_)).trans ?_; omega)
    | (with_reducible refine (congrArg (Option.map _) (findRow_skip1 ?_)).trans ?_; omega))
  exact rowOf_hit1 hn (by omega) (by omega)

theorem rowOf_HIF_RXR_PI {n : Nat} (hn : n < 64) :
    rowOf (Reg.HIF_RXR_PI n) = some (Reg.HIF_RXR_PI 0, [n]) := by
  simp only [Reg.HIF_RXR_PI, Nat.mul_zero, Nat.add_zero]
  refine rowOf_of (b := 1) (by unfold blockOf; repeat' (first | rw [if_neg (by omega)] | rw [if_pos (by omega)] | rfl | (congr 1; omega))) ?_
  rw [show regRows 1 = regRows1a ++ regRows1b from rfl]
  simp only [regRows1a, regRows1b, List.cons_append, List.nil_append]
  repeat (first
    | (with_reducible refine (congrArg (Option.map _) (findRow_skip0 ?_)).trans ?_; omega)
    | (with_reducible refine (congrArg (Option.map _) (findRow_skip1 ?_)).trans ?_; omega))
  exact rowOf_hit1 hn (by omega) (by omega)

theorem rowOf_HIF_TXR_PI {n : Nat} (hn : n < 64) :
    rowOf (Reg.HIF_TXR_PI n) = some (Reg.HIF_TXR_PI 0, [n]) := by
  simp only [Reg.HIF_TXR_PI, Nat.mul_zero, Nat.add_zero]
  refine rowOf_of (b := 1) (by unfold blockOf; repeat' (first | rw [if_neg (by omega)] | rw [if_pos (by omega)] | rfl | (congr 1; omega))) ?_
  rw [show regRows 1 = regRows1a ++ regRows1b from rfl]
  simp only [regRows1a, regRows1b, List.cons_append, List.nil_append]
  repeat (first
    | (with_reducible refine (congrArg (Option.map _) (findRow_skip0 ?_)).trans ?_; omega)
    | (with_reducible refine (congrArg (Option.map _) (findRow_skip1 ?_)).trans ?_; omega))
  exact rowOf_hit1 hn (by omega) (by omega)

theorem rowOf_CE_CQ_CI {m : Nat} (hm : m < 8) :
    rowOf (Reg.CE_CQ_CI m) = some (Reg.CE_CQ_CI 0, [m]) := by
  simp only [Reg.CE_CQ_CI, Nat.mul_zero, Nat.add_zero]
  refine rowOf_of (b := 2) (by unfold blockOf; repeat' (first | rw [if_neg (by omega)] | rw [if_pos (by omega)] | rfl | (congr 1; omega))) ?_
  rw [show regRows 2 = regRows2a from rfl]
  simp only [regRows2a]
  repeat (first
    | (with_reducible refine (congrArg (Option.map _) (findRow_skip0 ?_)).trans ?_; omega)
    | (with_reducible refine (congrArg (Option.map _) (findRow_skip1 ?_)).trans ?_; omega))
  exact rowOf_hit1 hm (by omega) (by omega)

theorem rowOf_DMA_RQ_CI : rowOf Reg.DMA_RQ_CI = some (Reg.DMA_RQ_CI, []) := by decide

theorem rowOf_CE_RESET : rowOf Reg.CE_RESET = some (Reg.CE_RESET, []) := by decide

theorem rowOf_HIF_RXR_BASE_LO {n : Nat} (hn : n < 64) :
    rowOf (Reg.HIF_RXR_BASE_LO n) = some (Reg.HIF_RXR_BASE_LO 0, [n]) := by
  simp only [Reg.HIF_RXR_BASE_LO, Nat.mul_zero, Nat.add_zero]
  refine rowOf_of (b := 1) (by unfold blockOf; repeat' (first | rw [if_neg (by omega)] | rw [if_pos (by omega)] | rfl | (congr 1; omega))) ?_
  rw [show regRows 1 = regRows1a ++ regRows1b from rfl]
  simp only [regRows1a, regRows1b, List.cons_append, List.nil_append]
  repeat (first
    | (with_reducible refine (congrArg (Option.map _) (findRow_skip0 ?_)).trans ?_; omega)
    | (with_reducible refine (congrArg (Option.map _) (findRow_skip1 ?_)).trans ?_; omega))
  exact rowOf_hit1 hn (by omega) (by omega)

theorem rowOf_HIF_TXR_BASE_LO {n : Nat} (hn : n < 64) :
    rowOf (Reg.HIF_TXR_BASE_LO n) = some (Reg.HIF_TXR_BASE_LO 0, [n]) := by
  simp only [Reg.HIF_TXR_BASE_LO, Nat.mul_zero, Nat.add_zero]
  refine rowOf_of (b := 1) (by unfold blockOf; repeat' (first | rw [if_neg (by omega)] | rw [if_pos (by omega)] | rfl | (congr 1; omega))) ?_
  rw [show regRows 1 = regRows1a ++ regRows1b from rfl]
  simp only [regRows1a, regRows1b, List.cons_append, List.nil_append]
  repeat (first
    | (with_reducible refine (congrArg (Option.map _) (findRow_skip0 ?_)).trans ?_; omega)
    | (with_reducible refine (congrArg (Option.map _) (findRow_skip1 ?_)).trans ?_; omega))
  exact rowOf_hit1 hn (by omega) (by omega)

theorem rowOf_HIF_POOL_CFG {p : Nat} (hp : p < 8) :
    rowOf (Reg.HIF_POOL_CFG p) = some (Reg.HIF_POOL_CFG 0, [p]) := by
  simp only [Reg.HIF_POOL_CFG, Nat.mul_zero, Nat.add_zero]
  refine rowOf_of (b := 1) (by unfold blockOf; repeat' (first | rw [if_neg (by omega)] | rw [if_pos (by omega)] | rfl | (congr 1; omega))) ?_
  rw [show regRows 1 = regRows1a ++ regRows1b from rfl]
  simp only [regRows1a, regRows1b, List.cons_append, List.nil_append]
  repeat (first
    | (with_reducible refine (congrArg (Option.map _) (findRow_skip0 ?_)).trans ?_; omega)
    | (with_reducible refine (congrArg (Option.map _) (findRow_skip1 ?_)).trans ?_; omega))
  exact rowOf_hit1 hp (by omega) (by omega)

theorem rowOf_GLB_OWN {b : Nat} (hb : b < 28) :
    rowOf (Reg.GLB_OWN b) = some (Reg.GLB_OWN 0, [b]) := by
  simp only [Reg.GLB_OWN, Nat.mul_zero, Nat.add_zero]
  refine rowOf_of (b := 0) (by unfold blockOf; repeat' (first | rw [if_neg (by omega)] | rw [if_pos (by omega)] | rfl | (congr 1; omega))) ?_
  rw [show regRows 0 = regRows0a from rfl]
  simp only [regRows0a]
  repeat (first
    | (with_reducible refine (congrArg (Option.map _) (findRow_skip0 ?_)).trans ?_; omega)
    | (with_reducible refine (congrArg (Option.map _) (findRow_skip1 ?_)).trans ?_; omega))
  exact rowOf_hit1 hb (by omega) (by omega)

theorem rowOf_GEN_DRAIN_LIMIT : rowOf Reg.GEN_DRAIN_LIMIT = some (Reg.GEN_DRAIN_LIMIT, []) := by decide

theorem rowOf_PRT_PORT_CFG {g i : Nat} (hg : g < 16) (hi : i < 8) :
    rowOf (Reg.PRT_PORT_CFG g i) = some (Reg.PRT_PORT_CFG 0 0, [g, i]) := by
  simp only [Reg.PRT_PORT_CFG, Nat.mul_zero, Nat.add_zero]
  refine rowOf_of (b := 11) (by unfold blockOf; repeat' (first | rw [if_neg (by omega)] | rw [if_pos (by omega)] | rfl | (congr 1; omega))) ?_
  rw [show regRows 11 = regRows11a from rfl]
  simp only [regRows11a]
  repeat (with_reducible refine (congrArg (Option.map _) (findRow_skip1 ?_)).trans ?_; omega)
  exact rowOf_hit2 hg hi (by omega) (by omega)

theorem rowOf_PRT_GRP_CTRL {g : Nat} (hg : g < 16) :
    rowOf (Reg.PRT_GRP_CTRL g) = some (Reg.PRT_GRP_CTRL 0, [g]) := by
  simp only [Reg.PRT_GRP_CTRL, Nat.mul_zero, Nat.add_zero]
  refine rowOf_of (b := 11) (by unfold blockOf; repeat' (first | rw [if_neg (by omega)] | rw [if_pos (by omega)] | rfl | (congr 1; omega))) ?_
  rw [show regRows 11 = regRows11a from rfl]
  simp only [regRows11a]
  exact rowOf_hit1 hg (by omega) (by omega)

theorem rowOf_PRT_PORT_CAL {g i : Nat} (hg : g < 16) (hi : i < 8) :
    rowOf (Reg.PRT_PORT_CAL g i) = some (Reg.PRT_PORT_CAL 0 0, [g, i]) := by
  simp only [Reg.PRT_PORT_CAL, Nat.mul_zero, Nat.add_zero]
  refine rowOf_of (b := 11) (by unfold blockOf; repeat' (first | rw [if_neg (by omega)] | rw [if_pos (by omega)] | rfl | (congr 1; omega))) ?_
  rw [show regRows 11 = regRows11a from rfl]
  simp only [regRows11a]
  repeat (first
    | (with_reducible refine (congrArg (Option.map _) (findRow_skip1 ?_)).trans ?_; omega)
    | (with_reducible refine (congrArg (Option.map _) (findRow_skip2 ?_)).trans ?_; omega))
  exact rowOf_hit2 hg hi (by omega) (by omega)

theorem rowOf_FXE_GRP_CFG {f : Nat} (hf : f < 32) :
    rowOf (Reg.FXE_GRP_CFG f) = some (Reg.FXE_GRP_CFG 0, [f]) := by
  simp only [Reg.FXE_GRP_CFG, Nat.mul_zero, Nat.add_zero]
  refine rowOf_of (b := 12) (by unfold blockOf; repeat' (first | rw [if_neg (by omega)] | rw [if_pos (by omega)] | rfl | (congr 1; omega))) ?_
  rw [show regRows 12 = regRows12a ++ regRows12b from rfl]
  simp only [regRows12a, regRows12b, List.cons_append, List.nil_append]
  exact rowOf_hit1 hf (by omega) (by omega)

theorem rowOf_FXE_CLIENT_CFG {c : Nat} (hc : c < 256) :
    rowOf (Reg.FXE_CLIENT_CFG c) = some (Reg.FXE_CLIENT_CFG 0, [c]) := by
  simp only [Reg.FXE_CLIENT_CFG, Nat.mul_zero, Nat.add_zero]
  refine rowOf_of (b := 12) (by unfold blockOf; repeat' (first | rw [if_neg (by omega)] | rw [if_pos (by omega)] | rfl | (congr 1; omega))) ?_
  rw [show regRows 12 = regRows12a ++ regRows12b from rfl]
  simp only [regRows12a, regRows12b, List.cons_append, List.nil_append]
  repeat (with_reducible refine (congrArg (Option.map _) (findRow_skip1 ?_)).trans ?_; omega)
  exact rowOf_hit1 hc (by omega) (by omega)

theorem rowOf_FXE_CLIENT_PROT {c : Nat} (hc : c < 256) :
    rowOf (Reg.FXE_CLIENT_PROT c) = some (Reg.FXE_CLIENT_PROT 0, [c]) := by
  simp only [Reg.FXE_CLIENT_PROT, Nat.mul_zero, Nat.add_zero]
  refine rowOf_of (b := 12) (by unfold blockOf; repeat' (first | rw [if_neg (by omega)] | rw [if_pos (by omega)] | rfl | (congr 1; omega))) ?_
  rw [show regRows 12 = regRows12a ++ regRows12b from rfl]
  simp only [regRows12a, regRows12b, List.cons_append, List.nil_append]
  repeat (with_reducible refine (congrArg (Option.map _) (findRow_skip1 ?_)).trans ?_; omega)
  exact rowOf_hit1 hc (by omega) (by omega)

theorem rowOf_PAR_TRACE_CTRL : rowOf Reg.PAR_TRACE_CTRL = some (Reg.PAR_TRACE_CTRL, []) := by decide

theorem rowOf_LPM_SHADOW_CTRL : rowOf Reg.LPM_SHADOW_CTRL = some (Reg.LPM_SHADOW_CTRL, []) := by decide

theorem rowOf_EXM_SHADOW_CTRL : rowOf Reg.EXM_SHADOW_CTRL = some (Reg.EXM_SHADOW_CTRL, []) := by decide

theorem rowOf_CAM_SHADOW_CTRL : rowOf Reg.CAM_SHADOW_CTRL = some (Reg.CAM_SHADOW_CTRL, []) := by decide

theorem rowOf_EXM_WIN_CTRL : rowOf Reg.EXM_WIN_CTRL = some (Reg.EXM_WIN_CTRL, []) := by decide

theorem rowOf_BUF_PEAK_CLR : rowOf Reg.BUF_PEAK_CLR = some (Reg.BUF_PEAK_CLR, []) := by decide

theorem rowOf_SHP_SEL : rowOf Reg.SHP_SEL = some (Reg.SHP_SEL, []) := by decide

theorem rowOf_SHP_CFG : rowOf Reg.SHP_CFG = some (Reg.SHP_CFG, []) := by decide

theorem rowOf_FAB_LINK_CTRL {l : Nat} (hl : l < 160) :
    rowOf (Reg.FAB_LINK_CTRL l) = some (Reg.FAB_LINK_CTRL 0, [l]) := by
  simp only [Reg.FAB_LINK_CTRL, Nat.mul_zero, Nat.add_zero]
  refine rowOf_of (b := 25) (by unfold blockOf; repeat' (first | rw [if_neg (by omega)] | rw [if_pos (by omega)] | rfl | (congr 1; omega))) ?_
  rw [show regRows 25 = regRows25a ++ regRows25b from rfl]
  simp only [regRows25a, regRows25b, List.cons_append, List.nil_append]
  repeat (first
    | (with_reducible refine (congrArg (Option.map _) (findRow_skip0 ?_)).trans ?_; omega)
    | (with_reducible refine (congrArg (Option.map _) (findRow_skip1 ?_)).trans ?_; omega))
  exact rowOf_hit1 hl (by omega) (by omega)

theorem rowOf_TIM_SYNCE_CFG {n : Nat} (hn : n < 2) :
    rowOf (Reg.TIM_SYNCE_CFG n) = some (Reg.TIM_SYNCE_CFG 0, [n]) := by
  simp only [Reg.TIM_SYNCE_CFG, Nat.mul_zero, Nat.add_zero]
  refine rowOf_of (b := 8) (by unfold blockOf; repeat' (first | rw [if_neg (by omega)] | rw [if_pos (by omega)] | rfl | (congr 1; omega))) ?_
  rw [show regRows 8 = regRows8a ++ regRows8b from rfl]
  simp only [regRows8a, regRows8b, List.cons_append, List.nil_append]
  repeat (first
    | (with_reducible refine (congrArg (Option.map _) (findRow_skip0 ?_)).trans ?_; omega)
    | (with_reducible refine (congrArg (Option.map _) (findRow_skip1 ?_)).trans ?_; omega))
  exact rowOf_hit1 hn (by omega) (by omega)

theorem rowOf_TIM_TRIG_CFG {n : Nat} (hn : n < 8) :
    rowOf (Reg.TIM_TRIG_CFG n) = some (Reg.TIM_TRIG_CFG 0, [n]) := by
  simp only [Reg.TIM_TRIG_CFG, Nat.mul_zero, Nat.add_zero]
  refine rowOf_of (b := 8) (by unfold blockOf; repeat' (first | rw [if_neg (by omega)] | rw [if_pos (by omega)] | rfl | (congr 1; omega))) ?_
  rw [show regRows 8 = regRows8a ++ regRows8b from rfl]
  simp only [regRows8a, regRows8b, List.cons_append, List.nil_append]
  repeat (first
    | (with_reducible refine (congrArg (Option.map _) (findRow_skip0 ?_)).trans ?_; omega)
    | (with_reducible refine (congrArg (Option.map _) (findRow_skip1 ?_)).trans ?_; omega))
  exact rowOf_hit1 hn (by omega) (by omega)

theorem rowOf_TIM_SNAP : rowOf Reg.TIM_SNAP = some (Reg.TIM_SNAP, []) := by decide

theorem rowOf_HBT_STACK_CTRL {k : Nat} (hk : k < 6) :
    rowOf (Reg.HBT_STACK_CTRL k) = some (Reg.HBT_STACK_CTRL 0, [k]) := by
  simp only [Reg.HBT_STACK_CTRL, Nat.mul_zero, Nat.add_zero]
  refine rowOf_of (b := 26) (by unfold blockOf; repeat' (first | rw [if_neg (by omega)] | rw [if_pos (by omega)] | rfl | (congr 1; omega))) ?_
  rw [show regRows 26 = regRows26a from rfl]
  simp only [regRows26a]
  repeat (with_reducible refine (congrArg (Option.map _) (findRow_skip0 ?_)).trans ?_; omega)
  exact rowOf_hit1 hk (by omega) (by omega)

theorem rowOf_ERR_LOG_POP : rowOf Reg.ERR_LOG_POP = some (Reg.ERR_LOG_POP, []) := by decide

theorem rowOf_ERR_SW_RAISE : rowOf Reg.ERR_SW_RAISE = some (Reg.ERR_SW_RAISE, []) := by decide

theorem rowOf_ERR_VEC {v : Nat} (hv : v < 512) :
    rowOf (Reg.ERR_VEC v) = some (Reg.ERR_VEC 0, [v]) := by
  simp only [Reg.ERR_VEC, Nat.mul_zero, Nat.add_zero]
  refine rowOf_of (b := 5) (by unfold blockOf; repeat' (first | rw [if_neg (by omega)] | rw [if_pos (by omega)] | rfl | (congr 1; omega))) ?_
  rw [show regRows 5 = regRows5a ++ regRows5b from rfl]
  simp only [regRows5a, regRows5b, List.cons_append, List.nil_append]
  repeat (first
    | (with_reducible refine (congrArg (Option.map _) (findRow_skip0 ?_)).trans ?_; omega)
    | (with_reducible refine (congrArg (Option.map _) (findRow_skip1 ?_)).trans ?_; omega))
  exact rowOf_hit1 hv (by omega) (by omega)

theorem rowOf_ERR_FATAL_FORCE : rowOf Reg.ERR_FATAL_FORCE = some (Reg.ERR_FATAL_FORCE, []) := by decide

theorem rowOf_PMC_RUN : rowOf Reg.PMC_RUN = some (Reg.PMC_RUN, []) := by decide

theorem rowOf_PMC_CLR : rowOf Reg.PMC_CLR = some (Reg.PMC_CLR, []) := by decide

theorem rowOf_PMC_CFG {b n : Nat} (hb : b < 2) (hn : n < 2048) :
    rowOf (Reg.PMC_CFG b n) = some (Reg.PMC_CFG 0 0, [b, n]) := by
  simp only [Reg.PMC_CFG, Nat.mul_zero, Nat.add_zero]
  refine rowOf_of (b := 6) (by unfold blockOf; repeat' (first | rw [if_neg (by omega)] | rw [if_pos (by omega)] | rfl | (congr 1; omega))) ?_
  rw [show regRows 6 = regRows6a from rfl]
  simp only [regRows6a]
  repeat (first
    | (with_reducible refine (congrArg (Option.map _) (findRow_skip0 ?_)).trans ?_; omega)
    | (with_reducible refine (congrArg (Option.map _) (findRow_skip2 ?_)).trans ?_; omega))
  exact rowOf_hit2 hb hn (by omega) (by omega)

theorem rowOf_PMC_QUAL {b n : Nat} (hb : b < 2) (hn : n < 2048) :
    rowOf (Reg.PMC_QUAL b n) = some (Reg.PMC_QUAL 0 0, [b, n]) := by
  simp only [Reg.PMC_QUAL, Nat.mul_zero, Nat.add_zero]
  refine rowOf_of (b := 6) (by unfold blockOf; repeat' (first | rw [if_neg (by omega)] | rw [if_pos (by omega)] | rfl | (congr 1; omega))) ?_
  rw [show regRows 6 = regRows6a from rfl]
  simp only [regRows6a]
  repeat (first
    | (with_reducible refine (congrArg (Option.map _) (findRow_skip0 ?_)).trans ?_; omega)
    | (with_reducible refine (congrArg (Option.map _) (findRow_skip2 ?_)).trans ?_; omega))
  exact rowOf_hit2 hb hn (by omega) (by omega)

theorem rowOf_RST_CTRL : rowOf Reg.RST_CTRL = some (Reg.RST_CTRL, []) := by decide

theorem rowOf_RST_BLOCK : rowOf Reg.RST_BLOCK = some (Reg.RST_BLOCK, []) := by decide

theorem rowOf_TIM_CFG : rowOf Reg.TIM_CFG = some (Reg.TIM_CFG, []) := by decide

theorem rowOf_IGL_TAKEOVER : rowOf Reg.IGL_TAKEOVER = some (Reg.IGL_TAKEOVER, []) := by decide

theorem rowOf_IGL_RELEASE : rowOf Reg.IGL_RELEASE = some (Reg.IGL_RELEASE, []) := by decide

theorem rowOf_CE_CTRL : rowOf Reg.CE_CTRL = some (Reg.CE_CTRL, []) := by decide

theorem rowOf_CE_CQ_SIZE {m : Nat} (hm : m < 8) :
    rowOf (Reg.CE_CQ_SIZE m) = some (Reg.CE_CQ_SIZE 0, [m]) := by
  simp only [Reg.CE_CQ_SIZE, Nat.mul_zero, Nat.add_zero]
  refine rowOf_of (b := 2) (by unfold blockOf; repeat' (first | rw [if_neg (by omega)] | rw [if_pos (by omega)] | rfl | (congr 1; omega))) ?_
  rw [show regRows 2 = regRows2a from rfl]
  simp only [regRows2a]
  repeat (first
    | (with_reducible refine (congrArg (Option.map _) (findRow_skip0 ?_)).trans ?_; omega)
    | (with_reducible refine (congrArg (Option.map _) (findRow_skip1 ?_)).trans ?_; omega))
  exact rowOf_hit1 hm (by omega) (by omega)

theorem rowOf_HIF_RXR_CFG {n : Nat} (hn : n < 64) :
    rowOf (Reg.HIF_RXR_CFG n) = some (Reg.HIF_RXR_CFG 0, [n]) := by
  simp only [Reg.HIF_RXR_CFG, Nat.mul_zero, Nat.add_zero]
  refine rowOf_of (b := 1) (by unfold blockOf; repeat' (first | rw [if_neg (by omega)] | rw [if_pos (by omega)] | rfl | (congr 1; omega))) ?_
  rw [show regRows 1 = regRows1a ++ regRows1b from rfl]
  simp only [regRows1a, regRows1b, List.cons_append, List.nil_append]
  repeat (first
    | (with_reducible refine (congrArg (Option.map _) (findRow_skip0 ?_)).trans ?_; omega)
    | (with_reducible refine (congrArg (Option.map _) (findRow_skip1 ?_)).trans ?_; omega))
  exact rowOf_hit1 hn (by omega) (by omega)

theorem rowOf_HIF_TXR_CFG {n : Nat} (hn : n < 64) :
    rowOf (Reg.HIF_TXR_CFG n) = some (Reg.HIF_TXR_CFG 0, [n]) := by
  simp only [Reg.HIF_TXR_CFG, Nat.mul_zero, Nat.add_zero]
  refine rowOf_of (b := 1) (by unfold blockOf; repeat' (first | rw [if_neg (by omega)] | rw [if_pos (by omega)] | rfl | (congr 1; omega))) ?_
  rw [show regRows 1 = regRows1a ++ regRows1b from rfl]
  simp only [regRows1a, regRows1b, List.cons_append, List.nil_append]
  repeat (first
    | (with_reducible refine (congrArg (Option.map _) (findRow_skip0 ?_)).trans ?_; omega)
    | (with_reducible refine (congrArg (Option.map _) (findRow_skip1 ?_)).trans ?_; omega))
  exact rowOf_hit1 hn (by omega) (by omega)

theorem rowOf_DMA_RQ_SIZE : rowOf Reg.DMA_RQ_SIZE = some (Reg.DMA_RQ_SIZE, []) := by decide

theorem rowOf_FWU_MBOX_CTRL : rowOf Reg.FWU_MBOX_CTRL = some (Reg.FWU_MBOX_CTRL, []) := by decide

end Sys2Proof.Machine
end

