-- ==== Sys2Proof/WellFormed.lean ====
section
/-! DEFINITION. Which commands are well formed: every operand lies in the width or the range the spec gives it. The machine is
defined on every command; this says which ones the spec's own fields can carry. -/

namespace Sys2Proof

/-- A ring entry's fields fit the header of 02 R63, and the payload is the entry's units after the first. -/
def Cmd.wf (c : Cmd) : Bool :=
  decide (c.ring < 8) && decide (1 ≤ c.len) && decide (c.len ≤ 16) && decide (c.tag < 2 ^ 32) && decide (c.cq < 8)
    && decide (c.pos < 2 ^ 17) && decide (c.arg0 < 2 ^ 64) && decide (c.arg1 < 2 ^ 64)
    && decide (c.payload.length = 32 * (c.len - 1))

/-- A chain frame goes between two of the 64 chain IDs (02 R48). -/
def ChainFrame.wf (f : ChainFrame) : Bool := decide (f.src < 64) && decide (f.dst < 64)

/-- An overhead frame has a number below 32, eight blocks and three C bits (05 R162). -/
def OhFrame.wf (o : OhFrame) : Bool :=
  decide (o.index < 32) && decide (o.blocks.length = 8) && decide (o.c < 8) && decide (o.groupNum < 2 ^ 20)
    && decide (o.phyNum < 256) && decide (o.calA < 2 ^ 16) && decide (o.calB < 2 ^ 16)

/-- Priming has six steps (21 R592); the chain ID strap has six bits, and the stacks and modules are those of 00 R2. -/
def PrimeRun.wf (r : PrimeRun) : Bool :=
  decide (r.chain < 64) && decide (r.ms.length ≤ 6) && decide (r.pfs.length ≤ 8) && r.feBad.all (fun n => decide (n < 4))
    && r.tmBad.all (fun n => decide (n < 6)) && r.modulesBad.all (fun n => decide (n < 24))

/-- Whether every operand of a command lies in its range. -/
def Instr.wf : Instr → Bool
  | .frameReceive link _ => decide (link < 384)
  | .frameEnd link ending evict => decide (link < 384) && decide (ending < 3) && evict.all (fun n => decide (n < 2 ^ 20))
  | .slotGrant slice _ => decide (slice < 16)
  | .freezeEnd slice _ => decide (slice < 16)
  | .ingressPassEnd slice _ _ => decide (slice < 16)
  | .recircEnqueue slice => decide (slice < 16)
  | .probeTimeout _ => true
  | .replication slice => decide (slice < 16)
  | .d2dFlitError module _ => decide (module < 24)
  | .admission input _ => decide (input < 52)
  | .pfcRefresh port => decide (port < 128)
  | .refillStart q => decide (q < 2 ^ 20)
  | .refillReadDone q _ => decide (q < 2 ^ 20)
  | .schedulerDecision node _ _ => decide (node < 128)
  | .expressRelease node _ _ => decide (node < 128)
  | .packetDeparture _ => true
  | .switchMatching => true
  | .egressPass slice _ => decide (slice < 16)
  | .portFrameGrant link _ => decide (link < 384)
  | .gateTransition port => decide (port < 128)
  | .pauseFrameReceived port _ prios _ => decide (port < 128) && decide (prios < 256)
  | .pauseTimerExpiry port cls => decide (port < 128) && decide (cls < 9)
  | .pcieConfigRequest => true
  | .chainFrameReceive _ f => f.wf
  | .chainLinkDown _ _ _ => true
  | .chainLinkUp _ _ _ => true
  | .chainReadTimeout dev => decide (dev < 64)
  | .chainLost => true
  | .iglTakeover m v => decide (m < 12) && decide (v < 2 ^ 32)
  | .iglRelease m v => decide (m < 12) && decide (v < 2 ^ 32)
  | .cmdDoorbell m ring v => decide (m < 12) && decide (ring < 8) && decide (v < 2 ^ 32)
  | .pktRingDoorbell m ring v => decide (m < 12) && decide (ring < 128) && decide (v < 2 ^ 32)
  | .commandFetchReturn ring _ => decide (ring < 8)
  | .commandStart => true
  | .cqCiWrite m q v => decide (m < 12) && decide (q < 8) && decide (v < 2 ^ 32)
  | .dmaRqCiWrite m v => decide (m < 12) && decide (v < 2 ^ 32)
  | .ceReset m v => decide (m < 12) && decide (v < 2 ^ 32)
  | .coalesceTimer q => decide (q < 8)
  | .ringDisable m r v => decide (m < 12) && decide (r < 145) && decide (v < 2 ^ 32)
  | .ringDisableDone r => decide (r < 145)
  | .ringRestart m ring v => decide (m < 12) && decide (ring < 128) && decide (v < 2 ^ 32)
  | .rxDelivery ring _ => decide (ring < 64)
  | .txDescriptorFetch ring _ _ => decide (ring < 64)
  | .poolEnable m p v => decide (p < 8) && decide (m < 12) && decide (v < 2 ^ 32)
  | .bucketAlloc r _ => decide (r < 8)
  | .bucketFree p _ => decide (p < 8)
  | .dmaTransferDone ch _ _ _ => decide (ch < 16)
  | .dmaRecordWrite => true
  | .dmaWithdraw ch _ _ _ => decide (8 ≤ ch) && decide (ch < 16)
  | .nop c => c.wf
  | .echo c => c.wf
  | .regRead c => c.wf
  | .regWrite c => c.wf
  | .copy c => c.wf
  | .fill c => c.wf
  | .compare c => c.wf
  | .abort c _ _ _ => c.wf
  | .glbOwnWrite m b v => decide (m < 12) && decide (b < 28) && decide (v < 2 ^ 32)
  | .registerWrite m _ off len v => decide (m < 12) && decide (off < 2 ^ 27) && decide (len ≤ 8) && decide (v < 2 ^ (8 * len))
  | .genOpen c => c.wf
  | .genCommit c _ => c.wf
  | .genCommitRetry => true
  | .genCommitWaitExpiry => true
  | .genCancel c => c.wf
  | .genAbandon c => c.wf
  | .genQuery c => c.wf
  | .genSetMargin c => c.wf
  | .genActivation => true
  | .genRetirement => true
  | .journalWalkEnd => true
  | .drainSlowExpiry g => decide (g < 4)
  | .drainLimitWrite m v => decide (m < 12) && decide (v < 2 ^ 32)
  | .portEnable m port v => decide (m < 12) && decide (port < 128) && decide (v < 2 ^ 32)
  | .portDisable m port v => decide (m < 12) && decide (port < 128) && decide (v < 2 ^ 32)
  | .groupEnable m group v => decide (m < 12) && decide (group < 16) && decide (v < 2 ^ 32)
  | .groupCalDone group => decide (group < 16)
  | .groupDisable m group v => decide (m < 12) && decide (group < 16) && decide (v < 2 ^ 32)
  | .linkConditionChange port _ _ _ _ _ _ _ _ => decide (port < 128)
  | .linkDownDeclared port => decide (port < 128)
  | .linkUpDeclared port => decide (port < 128)
  | .holdoffExpiry link => decide (link < 384)
  | .portFlushDone link => decide (link < 384)
  | .readmitDone link => decide (link < 384)
  | .portRecalibrate m port v => decide (m < 12) && decide (port < 128) && decide (v < 2 ^ 32)
  | .portCalDone port _ _ _ => decide (port < 128)
  | .fxeGroupEnable m f v => decide (m < 12) && decide (f < 32) && decide (v < 2 ^ 32)
  | .fxeClientEnable m c v => decide (m < 12) && decide (c < 256) && decide (v < 2 ^ 32)
  | .fxeProtEnable m c v => decide (m < 12) && decide (c < 256) && decide (v < 2 ^ 32)
  | .overheadFrameReceive port inst o => decide (port < 128) && decide (inst < 8) && o.wf
  | .defectIntegrationExpiry port n => decide (port < 128) && decide (n < 7)
  | .mgmtPacketReceive f channel bytes => decide (f < 32) && decide (channel < 2) && decide (64 ≤ bytes.length) && decide (bytes.length ≤ 1518)
  | .fxeCalWrite c => c.wf
  | .fxeCalRead c => c.wf
  | .fxeCalSwitch c => c.wf
  | .calSwitchExecute f => decide (f < 32)
  | .calSwitchTimeout f => decide (f < 32)
  | .fxeCalCopy c => c.wf
  | .fxeProtOp c => c.wf
  | .fxeMgmtSend c _ => c.wf
  | .fxeMgmtRecv c => c.wf
  | .clientDownDeclared c => decide (c < 256)
  | .clientUpDeclared c => decide (c < 256)
  | .sfHoldoffExpiry c path => decide (c < 256) && decide (path < 2)
  | .waitToRestoreExpiry c => decide (c < 256)
  | .parLoad c _ => c.wf
  | .parRead c => c.wf
  | .traceArm m v => decide (m < 12) && decide (v < 2 ^ 32)
  | .lpmInsert c => c.wf
  | .lpmReplace c => c.wf
  | .lpmDelete c => c.wf
  | .lpmRead c _ => c.wf
  | .lpmLookup c _ => c.wf
  | .lpmBulk c _ _ => c.wf
  | .nhSet c => c.wf
  | .nhRead c => c.wf
  | .ecmpSet c _ => c.wf
  | .ecmpRead c => c.wf
  | .tableDoubling family len => decide (family < 2) && decide (len ≤ 128)
  | .overflowReturn _ => true
  | .filterRebuild family len => decide (family < 2) && decide (len ≤ 128)
  | .parityRepair _ => true
  | .lpmShadowGo m v => decide (m < 12) && decide (v < 2 ^ 32)
  | .lpmShadowStop m v => decide (m < 12) && decide (v < 2 ^ 32)
  | .lpmShadowDone _ => true
  | .exmInsert c _ => c.wf
  | .exmReplace c _ => c.wf
  | .exmDelete c _ => c.wf
  | .exmRead c _ => c.wf
  | .exmUnlearn c _ => c.wf
  | .exmNext c _ => c.wf
  | .exmSearch c _ => c.wf
  | .exmFlushPort c => c.wf
  | .learnProcess => true
  | .moveProcess => true
  | .moveWindowExpiry _ => true
  | .agingSweep _ => true
  | .ageRemovalCheck _ => true
  | .exmWinRead m v => decide (m < 12) && decide (v < 2 ^ 32)
  | .exmWinInsert m v => decide (m < 12) && decide (v < 2 ^ 32)
  | .exmWinReplace m v => decide (m < 12) && decide (v < 2 ^ 32)
  | .exmWinDelete m v => decide (m < 12) && decide (v < 2 ^ 32)
  | .exmWinNext m v => decide (m < 12) && decide (v < 2 ^ 32)
  | .exmWinUnlearn m v => decide (m < 12) && decide (v < 2 ^ 32)
  | .exmWinFlushPort m v => decide (m < 12) && decide (v < 2 ^ 32)
  | .exmShadowGo m v => decide (m < 12) && decide (v < 2 ^ 32)
  | .exmShadowStop m v => decide (m < 12) && decide (v < 2 ^ 32)
  | .exmShadowDone _ => true
  | .camInsert c => c.wf
  | .camReplace c => c.wf
  | .camDelete c => c.wf
  | .camRead c => c.wf
  | .camMove c => c.wf
  | .camMoveDone => true
  | .camOcc c => c.wf
  | .camSearch c => c.wf
  | .camParityRepair _ => true
  | .camShadowGo m v => decide (m < 12) && decide (v < 2 ^ 32)
  | .camShadowStop m v => decide (m < 12) && decide (v < 2 ^ 32)
  | .camShadowDone _ => true
  | .actWrite c => c.wf
  | .actRead c => c.wf
  | .polbWrite c => c.wf
  | .polbRead c => c.wf
  | .polSet c => c.wf
  | .polRead c => c.wf
  | .replWrite c _ => c.wf
  | .replRead c => c.wf
  | .fstRead c => c.wf
  | .fstBulk c => c.wf
  | .fstFlushSweep _ => true
  | .editWrite c => c.wf
  | .editRead c => c.wf
  | .mirrorWrite c => c.wf
  | .mirrorRead c => c.wf
  | .encapWrite c => c.wf
  | .encapRead c => c.wf
  | .tmplWrite c => c.wf
  | .tmplRead c => c.wf
  | .bufQadmSet c => c.wf
  | .bufQRead c => c.wf
  | .bufProfSet c => c.wf
  | .bufProfRead c => c.wf
  | .bufLimitSet c => c.wf
  | .bufLimitRead c => c.wf
  | .bufFlush c => c.wf
  | .flushComplete => true
  | .bufFenceRelease c => c.wf
  | .bufFenceHold c => c.wf
  | .bufUnfenceHold c => c.wf
  | .bufStackOut c => c.wf
  | .regionParked region => decide (region < 48)
  | .fenceTimeout region => decide (region < 48)
  | .regionWakeDone region => decide (region < 48)
  | .autoUnfence => true
  | .headerSweep _ => true
  | .bufPeakClr m v => decide (m < 12) && decide (v < 2 ^ 32)
  | .qAttach c => c.wf
  | .qDetach c => c.wf
  | .qDetachFlush c => c.wf
  | .qRead c => c.wf
  | .qMapSet c => c.wf
  | .qMapRead c => c.wf
  | .nodeSet c => c.wf
  | .nodeDetach c => c.wf
  | .nodeRead c => c.wf
  | .schShaperSet c => c.wf
  | .schShaperRead c => c.wf
  | .tmpolSet c => c.wf
  | .tmpolRead c => c.wf
  | .shpSelWrite m v => decide (m < 12) && decide (v < 2 ^ 32)
  | .shpCfgWrite m v => decide (m < 12) && decide (v < 2 ^ 32)
  | .dlnProfSet c => c.wf
  | .dlnProfRead c => c.wf
  | .dlnQmapSet c => c.wf
  | .dlnQmapRead c => c.wf
  | .gclWrite c => c.wf
  | .gclSet c => c.wf
  | .gclCancel c => c.wf
  | .gclRead c => c.wf
  | .gclSwitch port => decide (port < 128)
  | .verifyAttempt port => decide (port < 128)
  | .verifyResponse port => decide (port < 128)
  | .fabLinkEnable m l v => decide (m < 12) && decide (l < 160) && decide (v < 2 ^ 32)
  | .fabLinkTrained l => decide (l < 160)
  | .fabLinkActive l => decide (l < 160)
  | .fabLockLoss l => decide (l < 160)
  | .fabLinkRetry l => decide (l < 160)
  | .fabCellReceive l _ => decide (l < 160)
  | .fabAckReceive l _ => decide (l < 160)
  | .fabNakReceive l _ => decide (l < 160)
  | .fabAckTimeout l => decide (l < 160)
  | .reachCellReceive l devs => decide (l < 160) && devs.all (fun n => decide (n < 2048))
  | .reachTimeout l => decide (l < 160)
  | .reorderTimeout src _ => decide (src < 2048)
  | .statusRefresh q => decide (q < 2 ^ 20)
  | .creditStatusReceive l k src port q tc weight _ => decide (l < 160) && decide (k < 2 ^ 16) && decide (src < 2048)
      && decide (port < 128) && decide (q < 2 ^ 20) && decide (tc < 8) && decide (weight < 2 ^ 16)
  | .cflowRejectRetry q => decide (q < 2 ^ 20)
  | .cflowIdleExpiry src q => decide (src < 2048) && decide (q < 2 ^ 20)
  | .creditGenerate port => decide (port < 128)
  | .grantReceive l _ q _ _ _ => decide (l < 160) && decide (q < 2 ^ 20)
  | .fabExpSet c => c.wf
  | .fabExpRead c => c.wf
  | .fabCflowRead c => c.wf
  | .timeRead c => c.wf
  | .timeSet c => c.wf
  | .timeStep c => c.wf
  | .timeRate c => c.wf
  | .timeSlew c => c.wf
  | .timeUnlock c => c.wf
  | .timeSwitch c => c.wf
  | .timeTxtsRead c => c.wf
  | .slewEnd d => decide (d < 2)
  | .oneSecondTick => true
  | .timeRefLoss => true
  | .timeRefReturn => true
  | .timeLaneLoss lane => decide (lane < 2)
  | .timeLaneReturn lane => decide (lane < 2)
  | .ppsInEdge n _ _ => decide (n < 2)
  | .ppsInLoss n => decide (n < 2)
  | .ppsOutPulse n => decide (n < 2)
  | .synceSquelch n => decide (n < 2)
  | .synceResume n => decide (n < 2)
  | .synceCfgWrite m n v => decide (n < 2) && decide (m < 12) && decide (v < 2 ^ 32)
  | .triggerFire n => decide (n < 8)
  | .triggerEnable m n v => decide (n < 8) && decide (m < 12) && decide (v < 2 ^ 32)
  | .timSnap m v => decide (m < 12) && decide (v < 2 ^ 32)
  | .pwrDomainPark c => c.wf
  | .domainDrained n => decide (n < 40)
  | .domainParkTimeout n => decide (n < 40)
  | .pwrDomainUnpark c => c.wf
  | .domainUnparkDone n _ _ => decide (n < 40)
  | .telemetrySample _ _ _ _ _ => true
  | .tempSample _ => true
  | .energyEvaluation => true
  | .backgroundCreditEarn => true
  | .fencePolicyEval => true
  | .feedStateChange feed st => decide (feed < 2) && decide (st < 3)
  | .feedSag _ _ _ _ => true
  | .inputCollapse => true
  | .revertHoldExpiry _ _ => true
  | .feedSelfTest _ => true
  | .pwrGovSet c => c.wf
  | .pwrGovRead c => c.wf
  | .pwrFenceSet c => c.wf
  | .pwrFenceRead c => c.wf
  | .pwrFeedSet c => c.wf
  | .pwrFeedRead c => c.wf
  | .pwrFeedTest c _ _ => c.wf
  | .pwrFeedSwitch c _ _ => c.wf
  | .pwrSnapshot c => c.wf
  | .hbmLinkError die stack ch _ => decide (die < 2) && decide (stack < 6) && decide (ch < 32)
  | .refreshWindow die stack pc bank => decide (die < 2) && decide (stack < 6) && decide (pc < 64) && decide (bank < 16)
  | .stackTempRead die stack temp => decide (die < 2) && decide (stack < 6) && decide (temp < 256)
  | .scrubRead die stack _ _ => decide (die < 2) && decide (stack < 6)
  | .stackNoResponse die stack => decide (die < 2) && decide (stack < 6)
  | .selfRefreshEntry stack => decide (stack < 6)
  | .hbtTrain m k v => decide (m < 12) && decide (k < 6) && decide (v < 2 ^ 32)
  | .hbtTrainDone k _ _ => decide (k < 6)
  | .errLogPopReg m v => decide (m < 12) && decide (v < 2 ^ 32)
  | .errLogPop c _ => c.wf
  | .errInject c => c.wf
  | .errMsgRaise c => c.wf
  | .errSwRaise m v => decide (m < 12) && decide (v < 2 ^ 32)
  | .errVecRearm m n v => decide (m < 12) && decide (n < 512) && decide (v < 2 ^ 32)
  | .msixUnmask f entry addr data _ _ _ => decide (f < 8) && decide (entry < 512) && decide (addr < 2 ^ 64) && decide (data < 2 ^ 32)
  | .faultInputAssert n _ => decide (n < 16)
  | .faultInputStuck n => decide (n < 16)
  | .errFatalForce m v => decide (m < 12) && decide (v < 2 ^ 32)
  | .wellLogDump _ _ _ => true
  | .wellLogStall => true
  | .watchdogExpiry core => decide (core < 4)
  | .pmcRunStart m v => decide (m < 12) && decide (v < 2 ^ 32)
  | .pmcRunStop m v => decide (m < 12) && decide (v < 2 ^ 32)
  | .pmcRunApply => true
  | .pmcClr m v => decide (m < 12) && decide (v < 2 ^ 32)
  | .pmcCfgWrite m bank n _ v => decide (bank < 2) && decide (n < 2048) && decide (m < 12) && decide (v < 2 ^ 32)
  | .pmcRead c => c.wf
  | .pmcWindowWrite m off v => decide (off < 2 ^ 27) && decide (m < 12) && decide (v < 2 ^ 32)
  | .fwuInfo c => c.wf
  | .fwuSessionStart c => c.wf
  | .fwuChunk c _ => c.wf
  | .fwuBitmap c => c.wf
  | .fwuApply c _ => c.wf
  | .fwuSessionAbort c => c.wf
  | .fwuActivate c => c.wf
  | .fwuConfirm c => c.wf
  | .fwuUcodeStage c => c.wf
  | .fwuMboxGo m v _ => decide (m < 12) && decide (v < 2 ^ 32)
  | .sessionIdleExpiry => true
  | .handoverCommit => true
  | .handoverFail => true
  | .trialSelfConfirm => true
  | .trialWindowExpiry => true
  | .trialWatchdogExpiry => true
  | .porNAssert _ => true
  | .primingStart r => r.wf
  | .deviceReset m v => decide (m < 12) && decide (v < 2 ^ 32)
  | .dieResetFe m v => decide (m < 12) && decide (v < 2 ^ 32)
  | .dieResetTm m v => decide (m < 12) && decide (v < 2 ^ 32)
  | .dieResetDone die _ => decide (die < 2)
  | .blockResetDma m v => decide (m < 12) && decide (v < 2 ^ 32)
  | .blockResetPmc m v => decide (m < 12) && decide (v < 2 ^ 32)
  | .blockResetFxe m v => decide (m < 12) && decide (v < 2 ^ 32)
  | .primingRelease m v => decide (m < 12) && decide (v < 2 ^ 32)
  | .refFreqRelock m v => decide (m < 12) && decide (v < 2 ^ 32)
  | .ready => true
  | .conventionalPcieReset => true
  | .refClockLoss clock => decide (clock < 9)
  | .jtagIdcode => true
  | .jtagBypass n tdi => decide (tdi < 2 ^ n)
  | .jtagSamplePreload => true
  | .jtagExtest n tdi => decide (tdi < 2 ^ n)
  | .jtagExtestPulse n tdi => decide (tdi < 2 ^ n)
  | .jtagExtestTrain n tdi => decide (tdi < 2 ^ n)
  | .jtagClamp n tdi => decide (tdi < 2 ^ n)
  | .jtagHighz n tdi => decide (tdi < 2 ^ n)
  | .jtagRegAccess _ off v => decide (off < 2 ^ 27) && decide (v < 2 ^ 32)
  | .jtagTapReset => true
  | .i3cEntdaa addr => decide (addr < 128)
  | .i3cPointerWrite bytes => decide (bytes.length = 4)
  | .i3cRegisterWrite bytes => decide (bytes.length = 8)
  | .i3cRead _ => true
  | .overheadFrameTransmit f index => decide (f < 32) && decide (index < 32)
  | .perstDeassertion speed width _ => decide (speed < 16) && decide (width < 64)
  | .faultInputDeassert n _ => decide (n < 16)
  | .ppsOutPulseEnd n => decide (n < 2)
  | .fabAckInterval l => decide (l < 160)
  | .fwFatal reason => decide (reason < 2 ^ 32)
  | .trialImageFault => true
  | .oldImageStop => true

end Sys2Proof
end

