-- ==== Sys2Proof/Tests/Slice0.lean ====
section
/-! SUPPORT. The model's own tests: for every obligation with hypotheses one theorem that shows, clause by clause, a state and operands that
meet them; ill-formed commands that the well-formedness check refuses; and worked examples of the spec. -/

namespace Sys2Proof.Tests

open Sys2Proof Sys2Proof.Machine

set_option Elab.async false

/-- The device with every block served, every domain ON and READY not yet reached. -/
def w0 : State := State.reset.fset Fld.RST_STATUS_PHASE 8

/-- The device at READY. -/
def w1 : State := w0.fset Fld.RST_STATUS_READY 1

/-- A ring command of LEN `len` with its operands; `p` is the payload as one little-endian number. -/
def cm (len a0 a1 p : Nat) : Cmd := ⟨0, len, false, false, false, 0, 0, 0, a0, a1, leBytes (32 * (len - 1)) p⟩

/-- A metadata record of zeros. -/
def md0 : Meta :=
  { stampNs := 0, stampQns := 0, stampSec := 0, gen := 0, pass := 0, express := false, color := 0, tc := 0, remarkEn := false, dscp := 0
    flags := 0, inPort := 0, inClient := 0, pktLen := 64, queue := 0, destDev := 0, destPort := 0, encap := 0, offL3 := 0, offL4 := 0
    offInner := 0, l3Kind := 0, ptpOp := 0, ptpOff := 0, session := 0, copyKind := 0, ldt := 0, cookie := 0 }

/-- A packet of 64 bytes, whole. -/
def pk : Pkt :=
  { id := 1, md := md0, bytes := [], complete := true, errored := false, late := false, poison := false, maxFrame := 0, inRate := 0
    fromFabric := false, ldtV := false, direct := none, link := 0 }

/-- A state whose registers at some offsets hold given values. -/
def rg (s : State) (l : List (Nat × Nat)) : State := l.foldl (fun t p => t.setReg p.1 (BitVec.ofNat 32 p.2)) s

/-- A state with a fatal phase. -/
def ft (s : State) (f : FatalPhase) : State := { s with err := { s.err with fatal := f } }

/-- The device with a build open in generation 1, held by function 0's master. -/
def wb : State := (w0.fset Fld.GEN_STATE_BUILD_OPEN 1).fset Fld.GEN_STATE_HOLDER 1

/-- An untagged version. -/
def ver {α : Type} (x : α) : Ver α := ⟨⟨false, 0, false, 0⟩, x⟩

/-- A state with other tables. -/
def tb (s : State) (f : TabState → TabState) : State := { s with tab := f s.tab }

/-- A state with another traffic manager. -/
def tmS (s : State) (f : TmState → TmState) : State := { s with tm := f s.tm }

/-- The state a write answers. -/
def okSt {ε α : Type} (d : α) (e : Except ε α) : α := e.toOption.getD d

/-- A tree with one class group, its nodes and port node 0 bound to line port 0. -/
def tree (s : State) : State :=
  (((s.setNode 1 0 { node0 with attached := true }).setNode 2 0 { node0 with attached := true }).setNode 3 0
    { node0 with attached := true }).fset (Fld.SCH_PORT_BIND_KIND 0) 1

/-- A packet in a queue of node 0. -/
def qpk (p : Where) : QPkt := { pkt := pk, charge := 64, node := 0, acct := none, place := p, bad := false }

/-- Line port `p` UP. -/
def up (s : State) (p : Nat) : State := s.fset (Fld.PRT_PORT_STATUS_STATE (p / 8) (p % 8)) 5

/-- An enabled fabric with link `l` ACTIVE. -/
def fab (l : Nat) : State := (w0.fset Fld.FAB_CFG_EN 1).fset (Fld.FAB_LINK_CTRL_STATE l) 3

/-- A fabric cell: a header word and its checksum. -/
def fcell (h : Nat) : List Byte := let b := leBytes 12 h; b ++ leBytes 4 (crc32 b)

/-- Line port 120 a FlexE PHY of 100G of the enabled group 30. -/
def phy : State :=
  rg w0 [(Reg.PRT_PORT_CFG 15 0, 1 + 2 * 3 + 2 ^ 12), ((Fld.FXE_GRP_PHY_PHY_MASK 30).reg, 1), (Reg.FXE_GRP_CFG 30, 1)]

/-- An overhead frame with nothing wrong. -/
def ohf : OhFrame :=
  { index := 0, blocks := List.replicate 8 true, omfOk := true, crcOk := true, c := 0, cr := false, ca := false, rpf := false, groupNum := 0
    phyNum := 0, mapOk := true, calA := 0, calB := 0, skewNs := 0 }

/-- A slice's pass of the packet. -/
def pass : Pass := { pkt := pk, probes := 0, em := 0, issued := true }

/-- An image whose header is in order, with nothing behind it. -/
def img : List Byte :=
  leBytes 4 0x4D495A46 ++ leBytes 2 1 ++ [0,
      0] ++ leBytes 4 7 ++ leBytes 4 0 ++ leBytes 4 4096 ++ leBytes 4 0 ++ leBytes 2 1 ++ leBytes 2 0
    ++ List.replicate 4068 0

/-- A full update session for that image, with its one chunk. -/
def sess : Session :=
  { id := 5, params := { full := true, sourceVersion := 0, sourceCrc := 0, targetVersion := 7, targetLength := 4096, targetCrc := 0
                         deltaLength := 0, deltaCrc := 0, count := 1 }
    holder := 1, holderChain := 0, chunks := [(0, (0, img))], last := 0 }

/-- A state with another update service. -/
def fw (s : State) (f : FwuState → FwuState) : State := { s with fwu := f s.fwu }

/-- A handover of the update. -/
def hov : Handover :=
  { target := 1, before := (3, 2), hostConfirm := true, window := 10, caller := none, switched := 0, selfOk := false, hostOk := false
    oldFollows := true }

/-- The straps and step results of a start with nothing wrong. -/
def prime : PrimeRun :=
  { chain := 0, hold := false, ms := [], pfs := [], noRef := false, noDirectory := false, noServices := [], feBad := [], tmBad := []
    modulesBad := [] }

/-- Power is on and the device waits in step 1. -/
def w1s : State := State.reset.fset Fld.RST_STATUS_PHASE 1

/-- A microcode bank that is not the base image and holds one valid state. -/
def gbank : Bank := ⟨false, [(4, 2), (16384, 1), (16388, 1), (16480, 0xFF), (16481, 3)]⟩

/-- The device with a build open and a bank mapped. -/
def wp (b : Bank) : State := { wb with par := { wb.par with banks := [(0, b)] } }

theorem okOf {ε α : Type} {e : Except ε α} {a : α} (h : e.toOption = some a) : e = .ok a := by
  cases e with
  | error _ => exact absurd h (by simp [Except.toOption])
  | ok b => simpa [Except.toOption] using h

theorem okIs {ε α : Type} {e : Except ε α} (d : α) (h : e.toOption.isSome = true) : e = .ok (okSt d e) := by
  cases e with
  | error _ => exact absurd h (by simp [Except.toOption])
  | ok b => rfl

theorem okIs2 {ε α β : Type} {e : Except ε (α × β)} (d : α × β) (h : e.toOption.isSome = true) :
    e = .ok ((okSt d e).1, (okSt d e).2) := okIs d h

theorem okIs3 {ε α β γ : Type} {e : Except ε (α × β × γ)} (d : α × β × γ) (h : e.toOption.isSome = true) :
    e = .ok ((okSt d e).1, (okSt d e).2.1, (okSt d e).2.2) := okIs d h

theorem someIs {α : Type} {o : Option α} (d : α) (h : o.isSome = true) : o = some (o.getD d) := by
  cases o with
  | none => exact absurd h (by simp)
  | some b => rfl

theorem chunkBits {x : Nat} (h : x < 2 ^ 32) : (cm 2 (5 * 2 ^ 32) x 0).resv [(0, 13), (32, 32)] [(0, 32)] [(32, 0, 64)] = false := by
  have e : (cm 2 (5 * 2 ^ 32) x 0).resv [(0, 13), (32, 32)] [(0, 32)] [(32, 0, 64)] =
      !(onlyBits (5 * 2 ^ 32) [(0, 13), (32, 32)] && onlyBits x [(0, 32)] && onlyBits (leNat (leBytes 32 0)) [(0, 64)]) := rfl
  rw [e, onlyBits_low h]; decide +kernel

theorem firstBad_none {rule : Nat} {xs : List (Nat × Bool)} (h : ∀ e ∈ xs, e.2 = true) : firstBad rule xs = none := by
  simp [firstBad, List.find?_eq_none]; intro a hb; exact absurd (h (a, false) hb) (by simp)

theorem gbank_byte {i : Nat} : Nat.land (gbank.byte i).toNat (255 - definedBits i) = 0 := by
  by_cases h : i ∈ [4, 16384, 16388, 16480, 16481]
  · simp only [List.mem_cons, List.not_mem_nil, or_false] at h
    obtain rfl | rfl | rfl | rfl | rfl := h <;> decide +kernel
  · have : gbank.byte i = 0 := by
      simp only [List.mem_cons, List.not_mem_nil, or_false, not_or] at h
      obtain ⟨h1, h2, h3, h4, h5⟩ := h
      simp [Bank.byte, gbank, Assoc.get, Assoc.find, Ne.symm h1, Ne.symm h2, Ne.symm h3, Ne.symm h4, Ne.symm h5]
    simp [this]

theorem foldl_none {l : List (Option (Nat × Nat))} (h : ∀ x ∈ l, x = none) :
    l.foldl (fun r x => match r with | some e => some e | none => x) none = none := by
  induction l with
  | nil => rfl
  | cons x l ih =>
    rw [List.foldl_cons, h x (List.mem_cons_self ..)]
    exact ih fun y hy => h y (List.mem_cons_of_mem _ hy)

theorem gbank_bits : firstBad 10 ((List.range 81920).map fun i => (i, Nat.land (gbank.byte i).toNat (255 - definedBits i) == 0)) = none :=
  firstBad_none (by
    intro e he
    obtain ⟨i, -, rfl⟩ := List.mem_map.1 he
    exact beq_iff_eq.2 gbank_byte)

theorem gbank_valid : gbank.validate = none := by
  refine foldl_none ?_
  rw [List.forall_mem_cons, List.forall_mem_cons, List.forall_mem_cons, List.forall_mem_cons, List.forall_mem_cons, List.forall_mem_cons,
    List.forall_mem_cons, List.forall_mem_cons, List.forall_mem_singleton]
  exact ⟨by decide +kernel, by decide +kernel, by decide +kernel, by decide +kernel, by decide +kernel, by decide +kernel,
      by decide +kernel,
    by decide +kernel, gbank_bits⟩

/-- The bank that holds the image. -/
def bnk : ImageBank := ⟨bankActive, 0, 0, 0, 0, some img⟩

theorem img_length : img.length = 4096 := by
  simp only [img, List.length_append, List.length_replicate, leBytes, List.length_cons, List.length_nil]

theorem bnk_verifies {p st : Nat} (hp : p = 0) (hs : 0 ≤ st)
    (h : Config.signatureOk (bnk.range 64 96) (bnk.range 0 64 ++ bnk.range 4096 0) = true) : bnk.verifies p st = true := by
  have e : bnk.le 16 4 = 4096 := by decide +kernel
  have e2 : bnk.le 26 2 = 0 := by decide +kernel
  subst hp
  simp only [ImageBank.verifies, e, Nat.sub_self, h, e2, hs, decide_true, Bool.and_true]
  decide +kernel

theorem boots {s : State} (h : s.bankVerifies 0 = true) (h2 : s.bootOrder = [0]) (h3 : (s.fwBank 0).state ≠ bankPrevious) :
    s.bootFrom [] s.bootOrder = ({ s with fwu := { s.fwu with running := 0 } }, some 0) := by
  simp [h2, State.bootFrom, h, h3]

theorem test_wit_UpdateCommandsComplete_apply
    (h : Config.signatureOk (bnk.range 64 96) (bnk.range 0 64 ++ bnk.range 4096 0) = true) :
    ∃ s : State, ∃ c : Cmd, s.fwuOwned (s.cmdMaster c) = true ∧ s.runs 0x0D05 1 1 c [(32, 32)] [] [] = true ∧
      ∃ x, s.sessionFor (s.cmdMaster c) (bitsAt c.arg0 32 32) = .ok x ∧ x.params.count ≤ x.chunks.length ∧ s.fwPhase = 0 ∧
        ∃ bs, s.applied x = .ok bs := by
  refine ⟨fw w0 fun f => { f with session := some sess }, cm 1 (5 * 2 ^ 32) 0 0, by decide +kernel, by decide +kernel, sess, ?_,
    by decide +kernel, by decide +kernel, img, ?_⟩
  · rfl
  · have hc : sess.content = img := by
      simp [Session.content, sess, SessionParams.length, Assoc.get, Assoc.find, img_length]
    have hl : img.length = sess.params.targetLength := img_length
    have hf : sess.params.full = true := rfl
    have hk : (⟨0, 0, 0, 0, 0, some img⟩ : ImageBank).le 20 4 = sess.params.targetCrc := by decide +kernel
    have hv := bnk_verifies (p := (fw w0 fun f => { f with session := some sess }).fget Fld.GLB_COMPAT_PROFILE_PROFILE)
      (st := (fw w0 fun f => { f with session := some sess }).fget Fld.GLB_STEPPING_STEPPING) (by decide +kernel) (Nat.zero_le _) h
    change ImageBank.verifies ⟨0, 0, 0, 0, 0, some img⟩ _ _ = true at hv
    simp only [State.applied, hf, if_true, hc, hl, hk, ne_eq, not_true_eq_false, or_self, if_false, hv]

theorem test_wit_StartUpEventsTakeEffect_boot
    (h : Config.signatureOk (bnk.range 64 96) (bnk.range 0 64 ++ bnk.range 4096 0) = true) :
    ∃ s : State, ∃ r : PrimeRun, s.fget Fld.RST_STATUS_PHASE = 1 ∧ s.pwr.collapsed = false ∧ s.pwr.tripped = false ∧
      s.rst.jtagHolds = false ∧
      let s0 := if s.rst.porLow then
          ({ s with rst := { s.rst with porLow := false, strapChain := r.chain % 64, strapHold := r.hold } }).strapRegs else s
      let s1 := ((s0.stepTimes r.ms).lockPll r.noRef).loadConfig r.pfs
      ∃ s2 k, r.noDirectory = false ∧ s1.fbit Fld.FWU_RECOVERY_ARM = false ∧ s1.bootFrom r.noServices s1.bootOrder = (s2, some k) :=
  ⟨fw w1s fun f => { f with bank0 := bnk }, prime, by decide +kernel, rfl, rfl, rfl, _, 0, rfl, by decide +kernel,
    boots (bnk_verifies (by decide +kernel) (Nat.zero_le _) h) (by decide +kernel) (by decide +kernel)⟩

theorem chunk_sess : (fw w0 fun f => { f with session := some { sess with chunks := [] } }).sessionFor
    ((fw w0 fun f => { f with session := some { sess with chunks := [] } }).cmdMaster (cm 2 (5 * 2 ^ 32) 0 0)) (bitsAt (5 * 2 ^ 32) 32
        32) =
    .ok { sess with chunks := [] } := okOf (by decide +kernel)

theorem chunk_runs {x : Nat} (hx : x < 2 ^ 32) :
    (fw w0 fun f => { f with session := some { sess with chunks := [] } }).runs 0x0D03 2 2 (cm 2 (5 * 2 ^ 32) x 0)
      [(0, 13), (32, 32)] [(0, 32)] [(32, 0, 64)] = true :=
  runs_iff.2 ⟨rfl, chunkBits hx⟩

theorem chunk_wit {x : Nat} (hx : x < 2 ^ 32) (got : List Byte)
    (h : crc32cStd ((got.take 4096 ++ List.replicate (4096 - got.length) 0).map (fun b : Byte => b.toNat)) = x) :
    ∃ s : State, ∃ c : Cmd, s.fwuOwned (s.cmdMaster c) = true ∧
      s.runs 0x0D03 2 2 c [(0, 13), (32, 32)] [(0, 32)] [(32, 0, 64)] = true ∧
      ∃ x, s.sessionFor (s.cmdMaster c) (bitsAt c.arg0 32 32) = .ok x ∧ bitsAt c.arg0 0 13 < x.params.count ∧
        (x.params.full = true → s.fwPhase = 0) ∧
        ∃ got : List Byte, crc32cStd ((got.take 4096 ++ List.replicate (4096 - got.length) 0).map (fun b : Byte => b.toNat)) =
          bitsAt c.arg1 0 32 ∧ Assoc.find x.chunks (bitsAt c.arg0 0 13) = none :=
  ⟨fw w0 fun f => { f with session := some { sess with chunks := [] } }, cm 2 (5 * 2 ^ 32) x 0, rfl,
    chunk_runs hx, { sess with chunks := [] }, chunk_sess, (by decide +kernel : bitsAt (5 * 2 ^ 32) 0 13 < sess.params.count),
    fun _ => by decide +kernel, got,
    h.trans (bitsAt_self hx).symm, rfl⟩

theorem test_wit_UpdateCommandsComplete_chunk :
    ∃ s : State, ∃ c : Cmd, s.fwuOwned (s.cmdMaster c) = true ∧
      s.runs 0x0D03 2 2 c [(0, 13), (32, 32)] [(0, 32)] [(32, 0, 64)] = true ∧
      ∃ x, s.sessionFor (s.cmdMaster c) (bitsAt c.arg0 32 32) = .ok x ∧ bitsAt c.arg0 0 13 < x.params.count ∧
        (x.params.full = true → s.fwPhase = 0) ∧
        ∃ got : List Byte, crc32cStd ((got.take 4096 ++ List.replicate (4096 - got.length) 0).map (fun b : Byte => b.toNat)) =
          bitsAt c.arg1 0 32 ∧ Assoc.find x.chunks (bitsAt c.arg0 0 13) = none :=
  chunk_wit (crc32cStd_lt _) [] rfl

theorem test_wit_StepRunsFront :
    ∃ s : State, s.pending = [] :=
  ⟨w0, by decide +kernel⟩

theorem test_wit_QueueKept :
    ∃ c : Instr, ∃ s t : State, exec c s = .next t ∧ s.pending ≠ [] :=
  ⟨.nop (cm 1 0 0 0), { w0 with pending := [.switchMatching] }, _, rfl, by decide +kernel⟩

theorem test_wit_StepKeepsCanonical :
    ∃ s t : State, s.Canonical ∧ step s = .next t ∧ s.pending ≠ [] :=
  ⟨{ w0 with pending := [.nop (cm 1 0 0 0)] }, _, ⟨by decide +kernel, by decide +kernel⟩, rfl, by decide +kernel⟩

theorem test_wit_CompletionWritten :
    (∃ s : State, ∃ c : Cmd, ∃ st : Nat, s.ce.resetPending = false ∧ st = stOK ∧ c.noCmpl = true) ∧
    (∃ s : State, ∃ c : Cmd, ∃ st : Nat, s.ce.resetPending = false ∧ let k := s.fget (Fld.CE_CQ_SIZE_SIZE_LOG2 c.cq);
        (st ≠ stOK ∨ c.noCmpl = false) ∧ c.cq < 8 ∧ s.fbit (Fld.CE_CQ_SIZE_EN c.cq) = true ∧ 6 ≤ k ∧ k ≤ 16) :=
  ⟨⟨((w0.fset (Fld.CE_CQ_SIZE_EN 0) 1).fset (Fld.CE_CQ_SIZE_SIZE_LOG2 0) 6), { cm 1 0 0 0 with noCmpl := true }, 0, by decide +kernel,
      by decide +kernel, by decide +kernel⟩,
   ⟨((w0.fset (Fld.CE_CQ_SIZE_EN 0) 1).fset (Fld.CE_CQ_SIZE_SIZE_LOG2 0) 6), cm 1 0 0 0, 0, by decide +kernel, by decide +kernel,
       by decide +kernel, by decide +kernel, by decide +kernel, by decide +kernel⟩⟩

theorem test_wit_RegisterWriteOrder :
    (∃ s : State, ∃ off : Nat, ∃ v : Nat, s.off = false ∧ s.err.fatal = .frozen ∧ (off ≠ Reg.RST_CTRL ∨ bitAt v 0 = false)) ∧
    (∃ s : State, ∃ off : Nat, ∃ v : Nat, s.off = false ∧ s.err.fatal = .frozen ∧ off = Reg.RST_CTRL ∧ bitAt v 0 = true) ∧
    (∃ s : State, ∃ off : Nat, s.off = false ∧ s.err.fatal ≠ .frozen ∧ ∃ len : Nat, ¬ (len = 4 ∧ off % 4 = 0) ∧ ¬ (len = 8 ∧
        off % 8 = 0)) ∧
    (∃ s : State, ∃ off : Nat, s.off = false ∧ s.err.fatal ≠ .frozen ∧ off % 4 = 0 ∧ inPmcWindow off = true) ∧
    (∃ s : State, ∃ off : Nat, s.off = false ∧ s.err.fatal ≠ .frozen ∧ off % 4 = 0 ∧ inPmcWindow off = false ∧ regAt off = none) ∧
    (∃ s : State, ∃ off : Nat, s.off = false ∧ let b := (blockOf off).getD 0; s.err.fatal ≠ .frozen ∧ off % 4 = 0 ∧
        inPmcWindow off = false ∧ ∃ r, ∃ ix, regAt off = some (r, ix) ∧ s.blockServed b = false) ∧
    (∃ s : State, ∃ m : Nat, ∃ off : Nat, s.off = false ∧ let b := (blockOf off).getD 0; s.err.fatal ≠ .frozen ∧ off % 4 = 0 ∧
        inPmcWindow off = false ∧ ∃ r, ∃ ix, regAt off = some (r, ix) ∧ s.blockServed b = true ∧ s.mayWriteReg m b off = false) ∧
    (∃ s : State, ∃ m : Nat, ∃ off : Nat, s.off = false ∧ let b := (blockOf off).getD 0; s.err.fatal ≠ .frozen ∧ off % 4 = 0 ∧
        inPmcWindow off = false ∧ ∃ r, ∃ ix, regAt off = some (r, ix) ∧ s.blockServed b = true ∧ s.mayWriteReg m b off = true ∧
        s.domOn (regDomain off) = false) ∧
    (∃ s : State, ∃ m : Nat, ∃ off : Nat, s.off = false ∧ let b := (blockOf off).getD 0; s.err.fatal ≠ .frozen ∧ off % 4 = 0 ∧
        inPmcWindow off = false ∧ ∃ r, ∃ ix, regAt off = some (r, ix) ∧ s.blockServed b = true ∧ s.mayWriteReg m b off = true ∧
        s.domOn (regDomain off) = true ∧ r.fields.any (fun f => f.acc.writable) = false ∧ r.off ≠ Reg.FWU_MBOX_RES 0) ∧
    (∃ s : State, ∃ m : Nat, ∃ off : Nat, ∃ v : Nat, s.off = false ∧ let b := (blockOf off).getD 0; s.err.fatal ≠ .frozen ∧ off % 4 = 0 ∧
        inPmcWindow off = false ∧ ∃ r, ∃ ix, regAt off = some (r, ix) ∧ s.blockServed b = true ∧ s.mayWriteReg m b off = true ∧
        s.domOn (regDomain off) = true ∧ s.writeTakes m off v = true ∧
        blockRule m (wv off v) false off r.off (ix.headD 0) (ix.getD 1 0) s (s.putPlain off (s.plainNext off v)) = none) :=
  ⟨⟨ft w0 .frozen, 0, 0, by decide +kernel, by decide +kernel, by decide +kernel⟩,
   ⟨ft w0 .frozen, Reg.RST_CTRL, 1, by decide +kernel, by decide +kernel, by decide +kernel, by decide +kernel⟩,
   ⟨w0, 0, by decide +kernel, by decide +kernel, 0, by decide +kernel, by decide +kernel⟩,
   ⟨w0, 0x690FFC, by decide +kernel, by decide +kernel, by decide +kernel, by decide +kernel⟩,
   ⟨w0, 0x1FFFFC, by decide +kernel, by decide +kernel, by decide +kernel, by decide +kernel, by decide +kernel⟩,
   ⟨State.reset, Reg.TIM_CFG, by decide +kernel, by decide +kernel, by decide +kernel, by decide +kernel,
       ((regAt (Reg.TIM_CFG)).getD (⟨0, [], []⟩, [])).1, ((regAt (Reg.TIM_CFG)).getD (⟨0, [], []⟩, [])).2, by decide +kernel,
       by decide +kernel⟩,
   ⟨w0.fset (Fld.GLB_OWN_OWNER 8) 7, 1, Reg.TIM_CFG, by decide +kernel, by decide +kernel, by decide +kernel, by decide +kernel,
       ((regAt (Reg.TIM_CFG)).getD (⟨0, [], []⟩, [])).1, ((regAt (Reg.TIM_CFG)).getD (⟨0, [], []⟩, [])).2, by decide +kernel,
       by decide +kernel, by decide +kernel⟩,
   ⟨w0.fset (Fld.PWR_DOM_STATE_STATE (regDomain Reg.LPM_CFG)) 3, 1, Reg.LPM_CFG, by decide +kernel, by decide +kernel, by decide +kernel,
       by decide +kernel, ((regAt (Reg.LPM_CFG)).getD (⟨0, [], []⟩, [])).1, ((regAt (Reg.LPM_CFG)).getD (⟨0, [], []⟩, [])).2,
       by decide +kernel, by decide +kernel, by decide +kernel, by decide +kernel⟩,
   ⟨w0, 1, Reg.RST_STATUS, by decide +kernel, by decide +kernel, by decide +kernel, by decide +kernel,
       ((regAt (Reg.RST_STATUS)).getD (⟨0, [], []⟩, [])).1, ((regAt (Reg.RST_STATUS)).getD (⟨0, [], []⟩, [])).2, by decide +kernel,
       by decide +kernel, by decide +kernel, by decide +kernel, by decide +kernel, by decide +kernel⟩,
   ⟨w0, 0, Reg.GLB_OWN 0, 0, by decide +kernel, by decide +kernel, by decide +kernel, by decide +kernel,
       ((regAt (Reg.GLB_OWN 0)).getD (⟨0, [], []⟩, [])).1, ((regAt (Reg.GLB_OWN 0)).getD (⟨0, [], []⟩, [])).2, by decide +kernel,
       by decide +kernel, by decide +kernel, by decide +kernel, by decide +kernel, by decide +kernel⟩⟩

theorem test_wit_FieldAccessTypes :
    ∃ off : Nat, ∃ r : RegRow, ∃ ix : List Nat, regAt off = some (r, ix) ∧ ∃ f ∈ r.fields, ∃ old : Nat, ∃ v : Nat, old < 2 ^ 32 ∧
        v < 2 ^ 32 :=
  ⟨Reg.HBF_STACK_CTRL 3, ((regAt (Reg.HBF_STACK_CTRL 3)).getD (⟨0, [], []⟩, [])).1, ((regAt (Reg.HBF_STACK_CTRL 3)).getD (⟨0, [], []⟩,
      [])).2, by decide +kernel, (((((regAt (Reg.HBF_STACK_CTRL 3)).getD (⟨0, [], []⟩, [])).1).fields).headD ⟨0, 0, .ro, 0⟩),
      by decide +kernel, 0, 0, by decide +kernel, by decide +kernel⟩

theorem test_wit_RefusedCommandsChangeNothing :
    (∃ s : State, ∃ c : Cmd, s.off = false ∧ s.timOwned c = false ∧ s.runs 0x0B06 1 1 c [(0, 1)] [] [] = true) ∧
    (∃ s : State, ∃ c : Cmd, s.off = false ∧ s.timOwned c = false ∧ s.runs 0x0B02 1 1 c [(0, 64)] [(0, 17)] [] = true ∧
        bitsAt c.arg0 0 32 < 1000000000) ∧
    (∃ s : State, ∃ c : Cmd, s.off = false ∧ s.pwrOwned c = false ∧ s.runs 0x0C01 1 1 c [(0, 6), (8, 1)] [] [] = true ∧
        bitsAt c.arg0 0 6 ≤ 39) ∧
    (∃ s : State, ∃ c : Cmd, s.off = false ∧ s.errOwned c = false ∧ s.runs 0x0F03 1 1 c [(0, 9)] [] [] = true ∧ bitsAt c.arg0 0 9 ≤ 485) ∧
    (∃ s : State, ∃ c : Cmd, s.off = false ∧ s.fwuOwned (s.cmdMaster c) = false ∧ s.runs 0x0D01 1 1 c [] [] [] = true) ∧
    (∃ s : State, ∃ c : Cmd, s.off = false ∧ s.owns (s.cmdMaster c) 16 = false ∧ s.runs 0x0605 1 1 c [(0, 15), (16, 16)] [] [] = true ∧
        bitsAt c.arg0 0 15 ≤ bitsAt c.arg0 16 15 ∧
        (CamMove.mk (bitsAt c.arg0 0 15) (bitsAt c.arg0 16 15) (bitAt c.arg0 31) c).dest.isSome = true) :=
  ⟨⟨w0.fset (Fld.GLB_OWN_OWNER 8) 7, cm 1 0 0 0, by decide +kernel, by decide +kernel, by decide +kernel⟩,
   ⟨w0.fset (Fld.GLB_OWN_OWNER 8) 7, cm 1 999999999 131071 0, by decide +kernel, by decide +kernel, by decide +kernel, by decide +kernel⟩,
   ⟨w0.fset (Fld.GLB_OWN_OWNER 7) 7, cm 1 39 0 0, by decide +kernel, by decide +kernel, by decide +kernel, by decide +kernel⟩,
   ⟨w0.fset (Fld.GLB_OWN_OWNER 5) 7, cm 1 485 0 0, by decide +kernel, by decide +kernel, by decide +kernel, by decide +kernel⟩,
   ⟨w0.fset (Fld.GLB_OWN_OWNER 9) 7, cm 1 0 0 0, by decide +kernel, by decide +kernel, by decide +kernel⟩,
   ⟨w0.fset (Fld.GLB_OWN_OWNER 16) 7, cm 1 (0x10000 * 32766) 0 0, by decide +kernel, by decide +kernel, by decide +kernel,
       by decide +kernel, by decide +kernel⟩⟩

theorem test_wit_ForwardingStopsWhenFatal :
    (∃ s : State, s.err.fatal = .stopped ∧ s.off = false ∧ ∃ link : Nat, (s.ptx link).sending = none) ∧
    (∃ s : State, s.err.fatal = .stopped ∧ s.off = false ∧ ∃ input : Nat, ∃ p, ∃ rest, Assoc.get s.tm.inputs [] input = p :: rest) :=
  ⟨⟨ft w0 .stopped, by decide +kernel, by decide +kernel, 0, by decide +kernel⟩,
   ⟨{ ft w0 .stopped with tm := { w0.tm with inputs := [(3, [pk])] } }, by decide +kernel, by decide +kernel, 3, pk, [],
       by decide +kernel⟩⟩

theorem test_wit_SlotOrder :
    (∃ s : State, ∃ slice : Nat, ∃ idle : Nat, s.stoppedForwarding = false ∧ slice < 16 ∧ (s.slice slice).frozen = false ∧
        s.fget (Fld.PWR_DOM_STATE_STATE (3 + slice)) ≤ 1 ∧ s.dieResetRuns = false ∧ let x := (s.slice slice).tick idle; x.grants < 2 ∧
        x.grants < x.slots (s.fget Fld.CAM_STATUS_STEP) ∧ ∃ p, ∃ ps, x.hold = p :: ps) ∧
    (∃ s : State, ∃ slice : Nat, ∃ idle : Nat, s.stoppedForwarding = false ∧ slice < 16 ∧ (s.slice slice).frozen = false ∧
        s.fget (Fld.PWR_DOM_STATE_STATE (3 + slice)) ≤ 1 ∧ s.dieResetRuns = false ∧ let x := (s.slice slice).tick idle; x.grants < 2 ∧
        x.grants < x.slots (s.fget Fld.CAM_STATUS_STEP) ∧ ∃ p, ∃ ps, x.hold = [] ∧ x.recirc = p :: ps) ∧
    (∃ s : State, ∃ slice : Nat, ∃ idle : Nat, s.stoppedForwarding = false ∧ slice < 16 ∧ (s.slice slice).frozen = false ∧
        s.fget (Fld.PWR_DOM_STATE_STATE (3 + slice)) ≤ 1 ∧ s.dieResetRuns = false ∧ let x := (s.slice slice).tick idle; x.grants < 2 ∧
        x.grants < x.slots (s.fget Fld.CAM_STATUS_STEP) ∧ ∃ p, ∃ ps, x.hold = [] ∧ x.recirc = [] ∧ x.inject = p :: ps) :=
  ⟨⟨w0.setSlice 15 { slice0 with hold := [pk] }, 15, 0, by decide +kernel, by decide +kernel, by decide +kernel, by decide +kernel,
      by decide +kernel, by decide +kernel, by decide +kernel, pk, [], by decide +kernel⟩,
   ⟨w0.setSlice 15 { slice0 with recirc := [pk, pk] }, 15, 0, by decide +kernel, by decide +kernel, by decide +kernel, by decide +kernel,
       by decide +kernel, by decide +kernel, by decide +kernel, pk, [pk], by decide +kernel, by decide +kernel⟩,
   ⟨w0.setSlice 15 { slice0 with inject := [pk], grants := 1 }, 15, 0, by decide +kernel, by decide +kernel, by decide +kernel,
       by decide +kernel, by decide +kernel, by decide +kernel, by decide +kernel, pk, [], by decide +kernel, by decide +kernel,
       by decide +kernel⟩⟩

theorem test_wit_TimeAtReady :
    ∃ s : State, s.off = false ∧ s.rst.released = true ∧ (s.fget Fld.RST_STATUS_PHASE = 6 ∨ s.fget Fld.RST_STATUS_PHASE = 7) :=
  ⟨{ State.reset.fset Fld.RST_STATUS_PHASE 7 with rst := { rstReset with released := true } }, by decide +kernel, by decide +kernel,
      by decide +kernel⟩

theorem test_wit_WellLogOnlyWhenPossible :
    (∃ s : State, s.off = false ∧ s.err.fatal = .stopped ∧ (s.fget Fld.ERR_WL_SIZE_SIZE_MIB = 0 ∨ s.rst.firmwareUp = false)) ∧
    (∃ s : State, s.off = false ∧ s.err.fatal = .stopped ∧ s.fget Fld.ERR_WL_SIZE_SIZE_MIB ≠ 0 ∧ s.rst.firmwareUp = true) :=
  ⟨⟨ft w0 .stopped, by decide +kernel, by decide +kernel, by decide +kernel⟩,
   ⟨{ ft (w0.fset Fld.ERR_WL_SIZE_SIZE_MIB 1) .stopped with rst := { w0.rst with firmwareUp := true } }, by decide +kernel,
       by decide +kernel, by decide +kernel, by decide +kernel⟩⟩

theorem test_wit_CalendarSwitchTimeout :
    ∃ s : State, ∃ f : Nat, ∃ w : CalSwitch, f < 32 ∧ (s.group f).switch = some w ∧ s.groupEn f = true :=
  ⟨(w0.fset (Fld.FXE_GRP_CFG_EN 31) 1).setGroup 31 { flexeGroup0 with switch := some ⟨cm 1 0 0 0, none, false, false, none⟩ }, 31,
      ⟨cm 1 0 0 0, none, false, false, none⟩, by decide +kernel, by decide +kernel, by decide +kernel⟩

theorem test_wit_BuildInvisibleToOlder :
    (∃ s t : State, ∃ c : Cmd, ∃ p : Nat, c.cq < 8 ∧ s.buildOpen = true ∧ s.genOlder p s.buildGen = true ∧ exec (.nhSet c) s = .next t) ∧
    (∃ s t : State, ∃ c : Cmd, ∃ p : Nat, c.cq < 8 ∧ s.buildOpen = true ∧ s.genOlder p s.buildGen = true ∧
        exec (.actWrite c) s = .next t) ∧
    (∃ s t : State, ∃ c : Cmd, ∃ p : Nat, c.cq < 8 ∧ s.buildOpen = true ∧ s.genOlder p s.buildGen = true ∧
        exec (.editWrite c) s = .next t) :=
  ⟨⟨wb.fset (Fld.GEN_SEQ_SEQ 1) 1, _, cm 2 5 0 0, 0, by decide +kernel, by decide +kernel, by decide +kernel, rfl⟩,
   ⟨wb.fset (Fld.GEN_SEQ_SEQ 1) 1, _, cm 2 5 0 0, 0, by decide +kernel, by decide +kernel, by decide +kernel, rfl⟩,
   ⟨wb.fset (Fld.GEN_SEQ_SEQ 1) 1, _, cm 1 5 0 0, 0, by decide +kernel, by decide +kernel, by decide +kernel, rfl⟩⟩

theorem test_wit_HostRegisterRowsTakeEffect :
    (∃ s : State, ∃ m : Nat, ∃ v : Nat, ∃ ring < 8, s.writeTakes m (Reg.CE_CMD_PI ring) v = true ∧ s.pfMay m (s.cmdPf ring) = true ∧
        s.fbit Fld.CE_STATUS_HALTED = false ∧ s.ce.resetPending = false ∧
        doorbellOk (wv (Reg.CE_CMD_PI ring) v) (s.fget (Fld.CE_CMD_CI_CI ring)) (s.fget (Fld.CE_CMD_PI_PI ring)) (s.fget
        (Fld.CE_CMD_SIZE_SIZE_LOG2 ring)) = true) ∧
    (∃ s : State, ∃ m : Nat, ∃ v : Nat, ∃ ring < 128, s.writeTakes m (pktFld ring Fld.HIF_RXR_PI_PI).reg v = true ∧
        s.pfMay m (s.ringPf ring) = true ∧ s.pktStopped ring = false ∧
        doorbellOk (wv (pktFld ring Fld.HIF_RXR_PI_PI).reg v) (s.pktCi ring) (s.pktPi ring) (s.pktK ring) = true) ∧
    (∃ s : State, ∃ m : Nat, ∃ v : Nat, ∃ q < 8, s.writeTakes m (Reg.CE_CQ_CI q) v = true ∧ s.pfMay m (s.cqPf q) = true ∧
        consumerOk (wv (Reg.CE_CQ_CI q) v) (s.fget (Fld.CE_CQ_CI_CI q)) (s.fget (Fld.CE_CQ_PI_PI q)) (s.fget (Fld.CE_CQ_SIZE_SIZE_LOG2
        q)) = true) ∧
    (∃ s : State, ∃ m : Nat, ∃ v : Nat, s.writeTakes m Reg.DMA_RQ_CI v = true ∧
        consumerOk (wv Reg.DMA_RQ_CI v) (s.fget Fld.DMA_RQ_CI_CI) (s.fget Fld.DMA_RQ_PI_PI) (s.fget Fld.DMA_RQ_SIZE_SIZE_LOG2) = true) ∧
    (∃ s : State, ∃ m : Nat, ∃ v : Nat, s.writeTakes m Reg.CE_RESET (withBits v 0 1 1) = true) ∧
    (∃ s : State, ∃ m : Nat, ∃ v : Nat, ∃ ring < 128, s.writeTakes m (pktFld ring Fld.HIF_RXR_BASE_LO_ADDR).reg v = true ∧
        s.pfMay m (s.ringPf ring) = true ∧ s.pktStopped ring = true) ∧
    (∃ s : State, ∃ m : Nat, ∃ v : Nat, ∃ p < 8, s.writeTakes m (Reg.HIF_POOL_CFG p) (withBits v 31 1 1) = true ∧ s.poolEn p = false ∧
        let t := (s.fset (Fld.HIF_POOL_CFG_BSIZE_LOG2 p) (bitsAt v 0 4)).fset (Fld.HIF_POOL_CFG_COUNT p) (bitsAt v 4 16);
        t.poolOk p = true) ∧
    (∃ s : State, ∃ m : Nat, ∃ v : Nat, ∃ b < 28, s.writeTakes m (Reg.GLB_OWN b) v = true) ∧
    (∃ s : State, ∃ off < 2 ^ 32, s.off = false ∧ s.err.fatal ≠ .frozen ∧ inPmcWindow off = true ∧ off % 4 = 0) :=
  ⟨⟨w0, 1, 0, 0, by decide +kernel, by decide +kernel, by decide +kernel, by decide +kernel, by decide +kernel, by decide +kernel⟩,
   ⟨w0, 1, 0, 0, by decide +kernel, by decide +kernel, by decide +kernel, by decide +kernel, by decide +kernel⟩,
   ⟨w0, 1, 0, 0, by decide +kernel, by decide +kernel, by decide +kernel, by decide +kernel⟩,
   ⟨w0, 1, 0, by decide +kernel, by decide +kernel⟩,
   ⟨w0, 1, 0, by decide +kernel⟩,
   ⟨rg w0 [((pktFld 127 Fld.HIF_RXR_CFG_STOPPED).reg, 2 ^ 29)], 1, 0, 127, by decide +kernel, by decide +kernel, by decide +kernel,
       by decide +kernel⟩,
   ⟨w0, 1, 8 + 16 * 100, 7, by decide +kernel, by decide +kernel, by decide +kernel, by decide +kernel⟩,
   ⟨w0, 0, 0, 0, by decide +kernel, by decide +kernel⟩,
   ⟨w0, 0x690FFC, by decide +kernel, by decide +kernel, by decide +kernel, by decide +kernel, by decide +kernel⟩⟩

theorem test_wit_DisableWaits :
    (∃ s : State, ∃ m : Nat, ∃ r : Nat, ∃ v : Nat, r < 8 ∧ s.writeTakes m Reg.CE_CTRL (withBits v r 1 0) = true ∧
        bitAt (s.fget Fld.CE_CTRL_RING_EN) r = true) ∧
    (∃ s : State, ∃ m : Nat, ∃ r : Nat, ∃ v : Nat, r < 8 ∧ s.writeTakes m (Reg.CE_CQ_SIZE r) (withBits v 31 1 0) = true ∧
        s.pfMay m (s.cqPf r) = true ∧ s.fbit (Fld.CE_CQ_SIZE_EN r) = true ∧ bitsAt v 0 5 = s.fget (Fld.CE_CQ_SIZE_SIZE_LOG2 r) ∧
        6 ≤ bitsAt v 0 5 ∧ bitsAt v 0 5 ≤ 16) ∧
    (∃ s : State, ∃ m : Nat, ∃ r : Nat, ∃ v : Nat, r < 128 ∧
        s.writeTakes m (pktFld r Fld.HIF_RXR_CFG_SIZE_LOG2).reg (withBits v 28 1 0) = true ∧ s.pfMay m (s.ringPf r) = true ∧
        s.pktEn r = true ∧ 6 ≤ bitsAt v 0 5 ∧ bitsAt v 0 5 ≤ 16 ∧ bitsAt v 0 5 = s.pktK r ∧
        (r < 64 → bitsAt v 8 6 = s.fget (Fld.HIF_RXR_CFG_BUFSZ_64 r)) ∧ s.vectorInRange (s.ringPf r) (bitsAt v 16 9) = true) ∧
    (∃ s : State, ∃ m : Nat, ∃ v : Nat, s.writeTakes m Reg.DMA_RQ_SIZE (withBits v 31 1 0) = true ∧ s.fbit Fld.DMA_RQ_SIZE_EN = true ∧
        6 ≤ bitsAt v 0 5 ∧ bitsAt v 0 5 ≤ 16 ∧ bitsAt v 0 5 = s.fget Fld.DMA_RQ_SIZE_SIZE_LOG2) :=
  ⟨⟨rg w0 [(Reg.CE_CTRL, 0x80)], 1, 7, 0, by decide +kernel, by decide +kernel, by decide +kernel⟩,
   ⟨rg w0 [(Reg.CE_CQ_SIZE 7, 2 ^ 31 + 16)], 1, 7, 16, by decide +kernel, by decide +kernel, by decide +kernel, by decide +kernel,
       by decide +kernel, by decide +kernel, by decide +kernel⟩,
   ⟨rg w0 [((pktFld 127 Fld.HIF_RXR_CFG_SIZE_LOG2).reg, 2 ^ 28 + 6), (Reg.HIF_PF_CFG 0, 1 + 64 * 4)], 1, 127, 6, by decide +kernel,
       by decide +kernel, by decide +kernel, by decide +kernel, by decide +kernel, by decide +kernel, by decide +kernel,
       by decide +kernel, by decide +kernel⟩,
   ⟨rg w0 [(Reg.DMA_RQ_SIZE, 2 ^ 31 + 6)], 1, 6, by decide +kernel, by decide +kernel, by decide +kernel, by decide +kernel,
       by decide +kernel⟩⟩

theorem test_wit_LineRegisterRowsTakeEffect :
    (∃ s : State, ∃ m : Nat, ∃ v : Nat, ∃ p < 128, s.writeTakes m (Reg.PRT_PORT_CFG (p / 8) (p % 8)) (withBits v 0 1 1) = true ∧
        s.portEn p = false ∧ s.layoutOk (p / 8) (p % 8) (wv (Reg.PRT_PORT_CFG (p / 8) (p % 8)) (withBits v 0 1 1)) = true) ∧
    (∃ s : State, ∃ m : Nat, ∃ v : Nat, ∃ p < 128, s.writeTakes m (Reg.PRT_PORT_CFG (p / 8) (p % 8)) (withBits v 0 1 0) = true ∧
        s.portEn p = true) ∧
    (∃ s : State, ∃ m : Nat, ∃ v : Nat, ∃ g < 16, s.writeTakes m (Reg.PRT_GRP_CTRL g) (withBits v 0 1 1) = true ∧
        s.domOn (19 + g / 4) = true ∧ s.fbit (Fld.PRT_GRP_CTRL_EN g) = false) ∧
    (∃ s : State, ∃ m : Nat, ∃ v : Nat, ∃ g < 16, s.writeTakes m (Reg.PRT_GRP_CTRL g) (withBits v 0 1 0) = true ∧
        s.fbit (Fld.PRT_GRP_CTRL_EN g) = true) ∧
    (∃ s : State, ∃ m : Nat, ∃ v : Nat, ∃ p < 128, s.writeTakes m (Reg.PRT_PORT_CAL (p / 8) (p % 8)) (withBits v 0 1 1) = true ∧
        s.portEn p = true) ∧
    (∃ s : State, ∃ m : Nat, ∃ v : Nat, ∃ f < 32, s.writeTakes m (Reg.FXE_GRP_CFG f) (withBits v 0 1 1) = true) ∧
    (∃ s : State, ∃ m : Nat, ∃ v : Nat, ∃ c < 256, s.writeTakes m (Reg.FXE_CLIENT_CFG c) (withBits v 0 1 1) = true) ∧
    (∃ s : State, ∃ m : Nat, ∃ v : Nat, ∃ c < 256, s.writeTakes m (Reg.FXE_CLIENT_PROT c) (withBits v 0 1 1) = true) ∧
    (∃ s : State, ∃ m : Nat, ∃ v : Nat, s.writeTakes m Reg.PAR_TRACE_CTRL (withBits v 0 1 1) = true) :=
  ⟨⟨rg w0 [(Reg.PRT_GRP_CTRL 15, 1)], 1, 0, 127, by decide +kernel, by decide +kernel, by decide +kernel, by decide +kernel⟩,
   ⟨rg w0 [(Reg.PRT_GRP_CTRL 15, 1), (Reg.PRT_PORT_CFG 15 7, 1)], 1, 0, 127, by decide +kernel, by decide +kernel, by decide +kernel⟩,
   ⟨w0, 1, 0, 0, by decide +kernel, by decide +kernel, by decide +kernel, by decide +kernel⟩,
   ⟨rg w0 [(Reg.PRT_GRP_CTRL 15, 1)], 1, 0, 15, by decide +kernel, by decide +kernel, by decide +kernel⟩,
   ⟨rg w0 [(Reg.PRT_GRP_CTRL 15, 1), (Reg.PRT_PORT_CFG 15 7, 1)], 1, 0, 127, by decide +kernel, by decide +kernel, by decide +kernel⟩,
   ⟨w0, 1, 0, 0, by decide +kernel, by decide +kernel⟩,
   ⟨w0, 1, 0, 0, by decide +kernel, by decide +kernel⟩,
   ⟨w0, 1, 0, 0, by decide +kernel, by decide +kernel⟩,
   ⟨w0, 1, 0, by decide +kernel⟩⟩

theorem test_wit_TableRegisterRowsTakeEffect :
    (∃ s : State, ∃ m : Nat, ∃ v : Nat, ∃ x ∈ [(lpmShadow, Instr.lpmShadowGo m v), (exmShadow, Instr.exmShadowGo m v), (camShadow,
        Instr.camShadowGo m v)], s.writeTakes m x.1.ctrl (withBits v 0 1 1) = true ∧ s.fbit (x.1.fld 3 1) = false ∧ bitAt v 2 = false) ∧
    (∃ s : State, ∃ m : Nat, ∃ v : Nat, ∃ x ∈ [(lpmShadow, Instr.lpmShadowStop m v), (exmShadow, Instr.exmShadowStop m v), (camShadow,
        Instr.camShadowStop m v)], s.writeTakes m x.1.ctrl (withBits v 0 2 2) = true ∧ s.fbit (x.1.fld 3 1) = true) ∧
    (∃ s : State, ∃ m : Nat, ∃ v : Nat, ∃ x ∈ [(0, Instr.exmWinRead m v), (1, Instr.exmWinInsert m v), (2, Instr.exmWinReplace m v), (3,
        Instr.exmWinDelete m v),
        (4, Instr.exmWinNext m v), (5, Instr.exmWinUnlearn m v), (6, Instr.exmWinFlushPort m v)],
            let w := withBits (withBits v 0 1 1) 2 3 x.1; s.writeTakes m Reg.EXM_WIN_CTRL w = true ∧
            s.fbit Fld.EXM_WIN_CTRL_BUSY = false) ∧
    (∃ s : State, ∃ m : Nat, ∃ v : Nat, s.writeTakes m Reg.BUF_PEAK_CLR (withBits v 0 1 1) = true) ∧
    (∃ s : State, ∃ m : Nat, ∃ v : Nat, s.writeTakes m Reg.SHP_SEL v = true ∧ srefOk (bitsAt v 0 21) = true) ∧
    (∃ s : State, ∃ m : Nat, ∃ v : Nat, s.writeTakes m Reg.SHP_CFG v = true ∧ s.fget Fld.SHP_SEL_KIND ≠ 5) ∧
    (∃ s : State, ∃ m : Nat, ∃ v : Nat, ∃ l < 160, s.writeTakes m (Reg.FAB_LINK_CTRL l) v = true) ∧
    (∃ s : State, ∃ m : Nat, ∃ v : Nat, s.writeTakes m Reg.GEN_DRAIN_LIMIT v = true) :=
  ⟨⟨w0, 1, 0, (camShadow, Instr.camShadowGo 1 0), by simp, by decide +kernel, by decide +kernel, by decide +kernel⟩,
   ⟨rg w0 [(camShadow.ctrl, 8)], 1, 0, (camShadow, Instr.camShadowStop 1 0), by simp, by decide +kernel, by decide +kernel⟩,
   ⟨w0, 1, 0, (6, Instr.exmWinFlushPort 1 0), by simp, by decide +kernel, by decide +kernel⟩,
   ⟨w0, 1, 0, by decide +kernel⟩,
   ⟨w0, 1, 0, by decide +kernel, by decide +kernel⟩,
   ⟨w0, 1, 0, by decide +kernel, by decide +kernel⟩,
   ⟨w0, 1, 0, 0, by decide +kernel, by decide +kernel⟩,
   ⟨w0, 1, 0, by decide +kernel⟩⟩

theorem test_wit_SystemRegisterRowsTakeEffect :
    (∃ s : State, ∃ m : Nat, ∃ v : Nat, ∃ n < 2, s.writeTakes m (Reg.TIM_SYNCE_CFG n) v = true) ∧
    (∃ s : State, ∃ m : Nat, ∃ v : Nat, ∃ n < 8, s.writeTakes m (Reg.TIM_TRIG_CFG n) (withBits v 0 1 1) = true) ∧
    (∃ s : State, ∃ m : Nat, ∃ v : Nat, s.writeTakes m Reg.TIM_SNAP (withBits v 0 1 1) = true) ∧
    (∃ s : State, ∃ m : Nat, ∃ v : Nat, ∃ k < 6, s.writeTakes m (Reg.HBT_STACK_CTRL k) (withBits v 0 1 1) = true ∧
        s.domOn (31 + k) = true ∧ (s.stackState 1 k = 3 ∨ s.stackState 1 k = 4)) ∧
    (∃ s : State, ∃ m : Nat, ∃ v : Nat, s.writeTakes m Reg.ERR_LOG_POP (withBits v 0 1 1) = true) ∧
    (∃ s : State, ∃ m : Nat, ∃ v : Nat, s.writeTakes m Reg.ERR_SW_RAISE v = true ∧ bitsAt v 0 9 ≤ 485) ∧
    (∃ s : State, ∃ m : Nat, ∃ v : Nat, ∃ n < 512, s.writeTakes m (Reg.ERR_VEC n) (withBits v 0 1 1) = true) ∧
    (∃ s : State, ∃ m : Nat, ∃ v : Nat, s.writeTakes m Reg.ERR_FATAL_FORCE (withBits v 0 1 1) = true) ∧
    (∃ s : State, ∃ m : Nat, ∃ v : Nat, s.writeTakes m Reg.PMC_RUN (withBits v 0 2 1) = true) ∧
    (∃ s : State, ∃ m : Nat, ∃ v : Nat, s.writeTakes m Reg.PMC_RUN (withBits v 0 2 2) = true) ∧
    (∃ s : State, ∃ m : Nat, ∃ v : Nat, s.writeTakes m Reg.PMC_CLR v = true) ∧
    (∃ s : State, ∃ m : Nat, ∃ v : Nat, ∃ b < 2, ∃ n < 2048, s.writeTakes m (Reg.PMC_CFG b n) v = true ∧
        pmcCfgOk b (bitsAt v 0 12) (bitsAt v 12 10) (bitAt v 22) (s.fget (Fld.PMC_QUAL_QUAL b n)) = true) ∧
    (∃ s : State, ∃ m : Nat, ∃ v : Nat, ∃ b < 2, ∃ n < 2048, s.writeTakes m (Reg.PMC_QUAL b n) v = true ∧
        pmcCfgOk b (bitsAt (s.reg (Reg.PMC_CFG b n)).toNat 0 12) (bitsAt (s.reg (Reg.PMC_CFG b n)).toNat 12 10) (bitAt (s.reg
        (Reg.PMC_CFG b n)).toNat 22) (bitsAt v 0 8) = true) :=
  ⟨⟨w0, 1, 0, 0, by decide +kernel, by decide +kernel⟩,
   ⟨w0, 1, 0, 0, by decide +kernel, by decide +kernel⟩,
   ⟨w0, 1, 0, by decide +kernel⟩,
   ⟨rg w0 [((Fld.HBT_STACK_STATUS_STATE 5).reg, 3)], 1, 0, 5, by decide +kernel, by decide +kernel, by decide +kernel, by decide +kernel⟩,
   ⟨w0, 1, 0, by decide +kernel⟩,
   ⟨w0, 1, 0, by decide +kernel, by decide +kernel⟩,
   ⟨w0, 1, 0, 0, by decide +kernel, by decide +kernel⟩,
   ⟨w0, 1, 0, by decide +kernel⟩,
   ⟨w0, 1, 0, by decide +kernel⟩,
   ⟨w0, 1, 0, by decide +kernel⟩,
   ⟨w0, 1, 0, by decide +kernel⟩,
   ⟨w0, 1, 0, 0, by decide +kernel, 0, by decide +kernel, by decide +kernel, by decide +kernel⟩,
   ⟨w0, 1, 0, 0, by decide +kernel, 0, by decide +kernel, by decide +kernel, by decide +kernel⟩⟩

theorem test_wit_ResetRowsTakeEffect :
    (∃ s : State, ∃ m : Nat, ∃ v : Nat, s.writeTakes m Reg.RST_CTRL (withBits v 0 1 1) = true) ∧
    (∃ s : State, ∃ m : Nat, ∃ v : Nat, s.writeTakes m Reg.RST_CTRL (withBits v 1 1 1) = true ∧ s.fbit Fld.RST_STATUS_READY = true ∧
        s.fbit Fld.RST_STATUS_DIE_FE_BUSY = false ∧ bitAt v 0 = false ∧ bitsAt v 2 2 = 0) ∧
    (∃ s : State, ∃ m : Nat, ∃ v : Nat, s.writeTakes m Reg.RST_CTRL (withBits v 2 1 1) = true ∧ s.fbit Fld.RST_STATUS_READY = true ∧
        s.fbit Fld.RST_STATUS_DIE_TM_BUSY = false ∧ bitsAt v 0 2 = 0 ∧ bitAt v 3 = false) ∧
    (∃ s : State, ∃ m : Nat, ∃ v : Nat, s.writeTakes m Reg.RST_BLOCK (withBits v 3 1 1) = true ∧ bitsAt (withBits v 3 1 0) 0 28 = 0) ∧
    (∃ s : State, ∃ m : Nat, ∃ v : Nat, s.writeTakes m Reg.RST_BLOCK (withBits v 6 1 1) = true ∧ bitsAt (withBits v 6 1 0) 0 28 = 0) ∧
    (∃ s : State, ∃ m : Nat, ∃ v : Nat, s.writeTakes m Reg.RST_BLOCK (withBits v 12 1 1) = true ∧ bitsAt (withBits v 12 1 0) 0 28 = 0 ∧
        s.fbit Fld.RST_STATUS_DIE_FE_BUSY = false) ∧
    (∃ s : State, ∃ m : Nat, ∃ v : Nat, s.writeTakes m Reg.RST_CTRL (withBits v 3 1 1) = true ∧ bitsAt v 0 3 = 0 ∧ s.release.2 = .ok) ∧
    (∃ s : State, ∃ m : Nat, ∃ v : Nat, s.writeTakes m Reg.TIM_CFG v = true) ∧
    (∃ s : State, ∃ m : Nat, ∃ v : Nat, s.writeTakes m Reg.FWU_MBOX_CTRL (withBits v 0 1 1) = true ∧
        s.fbit Fld.FWU_MBOX_CTRL_BUSY = false) :=
  ⟨⟨w0, 1, 0, by decide +kernel⟩,
   ⟨w1, 1, 0, by decide +kernel, by decide +kernel, by decide +kernel, by decide +kernel, by decide +kernel⟩,
   ⟨w1, 1, 0, by decide +kernel, by decide +kernel, by decide +kernel, by decide +kernel, by decide +kernel⟩,
   ⟨w0, 1, 0, by decide +kernel, by decide +kernel⟩,
   ⟨w0, 1, 0, by decide +kernel, by decide +kernel⟩,
   ⟨w0, 1, 0, by decide +kernel, by decide +kernel, by decide +kernel⟩,
   ⟨{ w0.fset Fld.RST_STATUS_PHASE 7 with fwu := { w0.fwu with bank0 := { w0.fwu.bank0 with bytes := some (List.replicate 24 0 ++ [0xFF, 0xFF]) } } }, 1, 0, by decide +kernel, by decide +kernel, by decide +kernel⟩,
   ⟨w0, 1, 0, by decide +kernel⟩,
   ⟨w0, 0, 0, by decide +kernel, by decide +kernel⟩⟩

theorem test_wit_EngineAndDmaCommandsComplete :
    (∃ s : State, ∃ c : Cmd, s.takes 0x0100 1 16 c = true) ∧
    (∃ s : State, ∃ c : Cmd, s.runs 0x0101 1 1 c [(0, 64)] [] [] = true) ∧
    (∃ s : State, ∃ c : Cmd, s.runs 0x0102 1 1 c [(0, 32)] [] [] = true ∧ bitsAt c.arg0 0 32 < 0x8000000 ∧ bitsAt c.arg0 0 32 % 4 = 0) ∧
    (∃ s : State, ∃ c : Cmd, let n := bitsAt c.arg0 0 8;
        let r := writePairs (s.cmdMaster c) ((List.range n).map fun i => (c.fld (32 + 8 * i) 0 32, c.fld (36 + 8 * i) 0 32)) 0 s;
        s.runs 0x0103 2 16 c [(0, 8)] [] [(32, 0, 64 * n)] = true ∧ 1 ≤ n ∧ n ≤ 4 * (c.len - 1) ∧ r.2.1 = stOK) ∧
    (∃ s : State, ∃ c : Cmd, let ch := bitsAt c.arg1 0 4; s.runs 0x0201 2 2 c [] [(0, 4)] [(32, 0, 64), (40, 0, 64), (48, 0, 32), (52, 0,
        2)] = true ∧ ch < 8 ∧ sideOk (c.fld 52 0 1 == 1) false (c.fld 32 0 64) (c.fld 48 0 32) = true ∧
        sideOk (c.fld 52 1 1 == 1) true (c.fld 40 0 64) (c.fld 48 0 32) = true ∧
        ((c.fld 52 0 1 == 1) && !s.pagesReadable (c.fld 32 0 64) (c.fld 48 0 32)) = false) ∧
    (∃ s : State, ∃ c : Cmd, let ch := bitsAt c.arg1 0 4; s.runs 0x0202 2 2 c [] [(0, 4)] [(32, 0, 64), (40, 0, 64), (48, 0, 32), (52, 0,
        1)] = true ∧ ch < 8 ∧ sideOk (c.fld 52 0 1 == 1) true (c.fld 32 0 64) (c.fld 48 0 32) = true) ∧
    (∃ s : State, ∃ c : Cmd, let ch := bitsAt c.arg1 0 4; s.runs 0x0203 2 2 c [] [(0, 4)] [(32, 0, 64), (40, 0, 64), (48, 0, 32), (52, 0,
        2)] = true ∧ ch < 8 ∧ sideOk (c.fld 52 0 1 == 1) false (c.fld 32 0 64) (c.fld 48 0 32) = true ∧
        sideOk (c.fld 52 1 1 == 1) false (c.fld 40 0 64) (c.fld 48 0 32) = true ∧
        ((c.fld 52 0 1 == 1) && !s.pagesReadable (c.fld 32 0 64) (c.fld 48 0 32)) = false ∧
        ((c.fld 52 1 1 == 1) && !s.pagesReadable (c.fld 40 0 64) (c.fld 48 0 32)) = false) ∧
    (∃ s : State, ∃ c : Cmd, s.runs 0x0204 1 1 c [] [(0, 4)] [] = true ∧ bitsAt c.arg1 0 4 < 8) :=
  ⟨⟨w0, cm 1 0 0 0, by decide +kernel⟩,
   ⟨w0, cm 1 0 0 0, by decide +kernel⟩,
   ⟨w0, cm 1 0 0 0, by decide +kernel, by decide +kernel, by decide +kernel⟩,
   ⟨w0, cm 2 1 0 (Reg.TIM_EVENT_EN), by decide +kernel, by decide +kernel, by decide +kernel, by decide +kernel⟩,
   ⟨w0, cm 2 0 7 0, by decide +kernel, by decide +kernel, by decide +kernel, by decide +kernel, by decide +kernel⟩,
   ⟨w0, cm 2 0 7 0, by decide +kernel, by decide +kernel, by decide +kernel⟩,
   ⟨w0, cm 2 0 7 0, by decide +kernel, by decide +kernel, by decide +kernel, by decide +kernel, by decide +kernel, by decide +kernel⟩,
   ⟨w0, cm 1 0 0 0, by decide +kernel, by decide +kernel⟩⟩

theorem test_wit_EngineEventsTakeEffect :
    (∃ s : State, ∃ ring : Nat, ∃ bytes : List Byte, let k := s.fget (Fld.CE_CMD_SIZE_SIZE_LOG2 ring);
        let ci := s.fget (Fld.CE_CMD_CI_CI ring);
        let n := min (min 16 (bytes.length / 32)) (min (occ (s.fget (Fld.CE_CMD_PI_PI ring)) ci k) (2 ^ k - ci % 2 ^ k)); ring < 8 ∧
        s.ceIdle = false ∧ bitAt (s.fget Fld.CE_CTRL_RING_EN) ring = true ∧ n ≠ 0) ∧
    (∃ s : State, ∃ e : Entry, ∃ rest : List Entry, s.ceIdle = false ∧ s.ce.executing.length < 256 ∧
        (List.range 8).filterMap s.startable = e :: rest ∧ s.cqUsable e.cmd.cq e.cmd.ring = true ∧ s.cqSlots e.cmd.cq ≠ 0) ∧
    (∃ s : State, ∃ m : Nat, s.off = false ∧ m ∈ s.ce.coalescing) ∧
    (∃ s : State, ∃ r < 8, s.off = false ∧ (Assoc.get s.ce.rings ⟨[], [], false⟩ r).disabling = true ∧ (Assoc.get s.ce.rings ⟨[], [],
        false⟩ r).fetched = []) ∧
    (∃ s : State, ∃ m < 8, s.off = false ∧ m ∈ s.ce.cqDisabling ∧ (∀ e ∈ s.ce.executing, e.cmd.cq ≠ m)) ∧
    (∃ s : State, ∃ r < 128, s.off = false ∧ r ∈ s.host.ringDisabling) ∧
    (∃ s : State, s.off = false ∧ s.dma.rqDisabling = true ∧ s.dma.due = []) :=
  ⟨⟨rg w0 [(Reg.CE_CTRL, 0x80), (Reg.CE_CMD_SIZE 7, 6), (Reg.CE_CMD_PI 7, 1)], 7, (List.replicate 32 0), by decide +kernel,
      by decide +kernel, by decide +kernel, by decide +kernel⟩,
   ⟨{ rg w0 [(Reg.CE_CTRL, 0x80), (Reg.CE_CQ_SIZE 0, 2 ^ 31 + 6)] with ce := { w0.ce with rings := [(7, ⟨[⟨0x0100, { cm 1 0 0 0 with ring := 7 }⟩], [], false⟩)] } }, ⟨0x0100, { cm 1 0 0 0 with ring := 7 }⟩, [], by decide +kernel, by decide +kernel, by decide +kernel, by decide +kernel, by decide +kernel⟩,
   ⟨{ w0 with ce := { w0.ce with coalescing := [7] } }, 7, by decide +kernel, by decide +kernel⟩,
   ⟨{ w0 with ce := { w0.ce with rings := [(7, ⟨[], [], true⟩)] } }, 7, by decide +kernel, by decide +kernel, by decide +kernel,
       by decide +kernel⟩,
   ⟨{ w0 with ce := { w0.ce with cqDisabling := [7] } }, 7, by decide +kernel, by decide +kernel, by decide +kernel, by decide +kernel⟩,
   ⟨{ w0 with host := { w0.host with ringDisabling := [127] } }, 127, by decide +kernel, by decide +kernel, by decide +kernel⟩,
   ⟨{ w0 with dma := { w0.dma with rqDisabling := true } }, by decide +kernel, by decide +kernel, by decide +kernel⟩⟩

theorem test_wit_PacketRingAndDmaEventsTakeEffect :
    (∃ s : State, s.off = false ∧ s.err.fatal ≠ .frozen ∧ ∃ ring : Nat, ∃ descs : List (List Byte), ∃ p : RxPacket,
        let n := ceilDiv p.bytes.length (64 * s.fget (Fld.HIF_RXR_CFG_BUFSZ_64 ring));
        let ds := (List.range n).map fun i => descs.getD i [];
        (s.host.pools.any fun (kv : Nat × PoolState) => kv.2.waiting.any fun w => w.1 == 0) = false ∧
        s.host.rx.find? (fun q => q.ring == ring && q.complete) = some p ∧ s.fget (Fld.HIF_RXR_CFG_BUFSZ_64 ring) ≠ 0 ∧
        n ≤ s.pktAvail ring ∧ ds.all rxDescOk = true) ∧
    (∃ s : State, s.off = false ∧ s.err.fatal ≠ .frozen ∧ ∃ ring : Nat, ∃ descs : List (List Byte), ∃ ds : List (List Byte),
        let d := ds.headD []; ring < 64 ∧ packetDescs (s.pktAvail (64 + ring)) descs = some ds ∧ descFault ds = none ∧
        ds.foldl (fun n d => n + leAt d 8 2 % 2 ^ 14) 0 ≤ 9600 ∧ bitAt (byteOr0 d 10) 1 = true) ∧
    (∃ s : State, s.off = false ∧ s.err.fatal ≠ .frozen ∧ ∃ ring : Nat, ∃ descs : List (List Byte), ∃ ds : List (List Byte),
        let d := ds.headD []; ring < 64 ∧ packetDescs (s.pktAvail (64 + ring)) descs = some ds ∧ descFault ds = none ∧
        ds.foldl (fun n d => n + leAt d 8 2 % 2 ^ 14) 0 ≤ 9600 ∧ bitAt (byteOr0 d 10) 1 = false ∧
        s.domOn (3 + byteOr0 d 11 % 16) = true ∧ (s.slice (byteOr0 d 11 % 16)).inject.length < 256) ∧
    (∃ s : State, s.off = false ∧ s.err.fatal ≠ .frozen ∧ ∃ requester : Nat, ∃ size : Nat, ∃ p : Nat, requester < 8 ∧
        s.poolFor size = some p ∧ s.poolEmpty p = false ∧ s.inPool p (s.pool p).head = true ∧
        s.fbit (Fld.HIF_POOL_STAT_FROZEN p) = false ∧ p < 8) ∧
    (∃ s : State, s.off = false ∧ s.err.fatal ≠ .frozen ∧ ∃ p : Nat, ∃ a : Nat,
        (s.host.buckets.any fun b => b.1 == p && b.2.1 == a) = true ∧ (s.pool p).waiting = []) ∧
    (∃ s : State, s.off = false ∧ s.err.fatal ≠ .frozen ∧ ∃ ch : Nat, ∃ x : Xfer, ∃ xs : List Xfer,
        Assoc.get s.dma.chans [] ch = x :: xs ∧ s.dmaHeld ch = false) ∧
    (∃ s : State, s.off = false ∧ s.err.fatal ≠ .frozen ∧ ∃ ch : Nat, ∃ x : Xfer, ∃ xs : List Xfer, 8 ≤ ch ∧
        Assoc.get s.dma.chans [] ch = x :: xs) ∧
    (∃ s : State, s.off = false ∧ s.err.fatal ≠ .frozen ∧ ∃ r, ∃ rs, s.dma.due = r :: rs ∧ s.fbit Fld.DMA_RQ_SIZE_EN = true ∧
        s.rqWaits = false) :=
  ⟨⟨{ rg w0 [((pktFld 63 Fld.HIF_RXR_CFG_SIZE_LOG2).reg, 2 ^ 28 + 6 + 256), ((pktFld 63 Fld.HIF_RXR_PI_PI).reg, 1)] with host := { w0.host with rx := [⟨1, true, 0, 63, List.replicate 64 0, 0, 0, false, false, 0, 0, 0, 0⟩] } }, by decide +kernel, by decide +kernel, 63, [List.replicate 32 0], ⟨1, true, 0, 63, List.replicate 64 0, 0, 0, false, false, 0, 0, 0, 0⟩, by decide +kernel, by decide +kernel, by decide +kernel, by decide +kernel, by decide +kernel⟩,
   ⟨rg w0 [((pktFld 127 Fld.HIF_RXR_CFG_SIZE_LOG2).reg, 2 ^ 28 + 6), ((pktFld 127 Fld.HIF_RXR_PI_PI).reg, 1)], by decide +kernel,
       by decide +kernel, 63, [leBytes 8 0 ++ [64, 0, 3, 0] ++ List.replicate 20 0], [leBytes 8 0 ++ [64, 0, 3,
       0] ++ List.replicate 20 0], by decide +kernel, by decide +kernel, by decide +kernel, by decide +kernel, by decide +kernel⟩,
   ⟨rg w0 [((pktFld 127 Fld.HIF_RXR_CFG_SIZE_LOG2).reg, 2 ^ 28 + 6), ((pktFld 127 Fld.HIF_RXR_PI_PI).reg, 1)], by decide +kernel,
       by decide +kernel, 63, [leBytes 8 0 ++ [64, 0, 1, 15] ++ List.replicate 20 0], [leBytes 8 0 ++ [64, 0, 1,
       15] ++ List.replicate 20 0], by decide +kernel, by decide +kernel, by decide +kernel, by decide +kernel, by decide +kernel,
       by decide +kernel, by decide +kernel⟩,
   ⟨{ rg w0 [(Reg.HIF_POOL_CFG 7, 2 ^ 31 + 16 * 100 + 8)] with host := { w0.host with pools := [(7, ⟨256, []⟩)] } }, by decide +kernel,
       by decide +kernel, 7, 256, 7, by decide +kernel, by decide +kernel, by decide +kernel, by decide +kernel, by decide +kernel,
       by decide +kernel⟩,
   ⟨{ w0 with host := { w0.host with buckets := [(7, 256, 0)] } }, by decide +kernel, by decide +kernel, 7, 256, by decide +kernel,
       by decide +kernel⟩,
   ⟨{ w0 with dma := { w0.dma with chans := [(7, [(⟨.fill 0 0 false, 8, 8, 0, none⟩ : Xfer)])] } }, by decide +kernel, by decide +kernel,
       7, (⟨.fill 0 0 false, 8, 8, 0, none⟩ : Xfer), ([] : List Xfer), by decide +kernel, by decide +kernel⟩,
   ⟨{ w0 with dma := { w0.dma with chans := [(8, [(⟨.fill 0 0 false, 8, 8, 0, none⟩ : Xfer)])] } }, by decide +kernel, by decide +kernel,
       8, (⟨.fill 0 0 false, 8, 8, 0, none⟩ : Xfer), ([] : List Xfer), by decide +kernel, by decide +kernel⟩,
   ⟨{ rg w0 [(Reg.DMA_RQ_SIZE, 2 ^ 31 + 6)] with dma := { w0.dma with due := [⟨8, 0, 0, 0, 0, 0⟩] } }, by decide +kernel,
       by decide +kernel, ⟨8, 0, 0, 0, 0, 0⟩, [], by decide +kernel, by decide +kernel, by decide +kernel⟩⟩

theorem test_wit_GenerationCommandsComplete :
    (∃ s : State, ∃ c : Cmd, s.genClosing = false ∧ let g := s.buildGen; s.runs 0x0301 1 1 c [] [] [] = true ∧ s.buildOpen = false ∧
        s.commitPending = false ∧ s.genStateOf g = genFree) ∧
    (∃ s : State, ∃ c : Cmd, s.genClosing = false ∧ ∃ t : Nat, s.runs 0x0302 1 1 c [(0, 64)] [(0, 17), (32, 16)] [] = true ∧
        s.tablesBusy = false ∧ s.buildOpen = true ∧ s.fget Fld.GEN_STATE_HOLDER = s.cmdMaster c ∧ s.commitInstant c = .ok t ∧
        s.liveCount < 3) ∧
    (∃ s : State, ∃ c : Cmd, s.genClosing = false ∧ s.runs 0x0303 1 1 c [] [] [] = true ∧ s.commitPending = true ∧
        s.fget Fld.GEN_STATE_HOLDER = s.cmdMaster c ∧
        s.nowCeil + 2000 ≤ s.getInstant Fld.GEN_COMMIT_NS_NS Fld.GEN_COMMIT_SEC_LO_SEC Fld.GEN_COMMIT_SEC_HI_SEC) ∧
    (∃ s : State, ∃ c : Cmd, s.genClosing = false ∧ s.runs 0x0304 1 1 c [] [] [] = true ∧ s.tablesBusy = false ∧ s.buildOpen = true ∧
        s.fget Fld.GEN_STATE_HOLDER = s.cmdMaster c) ∧
    (∃ s : State, ∃ c : Cmd, s.genClosing = false ∧ s.runs 0x0305 1 1 c [] [] [] = true) ∧
    (∃ s : State, ∃ c : Cmd, s.genClosing = false ∧ let t := bitsAt c.arg0 0 3; let m := bitsAt c.arg0 8 5; s.runs 0x0306 1 1 c [(0, 3),
        (8, 5)] [] [] = true ∧ t ≤ 6 ∧ 3 ≤ m ∧ m ≤ 25 ∧ s.buildOpen = false ∧ s.commitPending = false ∧
        s.genVisible t s.activeGen ≤ tableCapacity t * (100 - m) / 100) :=
  ⟨⟨w0, cm 1 0 0 0, by decide +kernel, by decide +kernel, by decide +kernel, by decide +kernel, by decide +kernel⟩,
   ⟨(w0.fset Fld.GEN_STATE_BUILD_OPEN 1).fset Fld.GEN_STATE_HOLDER 1, cm 1 61000 0 0, by decide +kernel, 61000, by decide +kernel,
       by decide +kernel, by decide +kernel, by decide +kernel, okOf (by decide +kernel), by decide +kernel⟩,
   ⟨State.fset ((w0.fset Fld.GEN_STATE_PENDING 1).fset Fld.GEN_COMMIT_NS_NS 2000) Fld.GEN_STATE_HOLDER 1, cm 1 0 0 0, by decide +kernel,
       by decide +kernel, by decide +kernel, by decide +kernel, by decide +kernel⟩,
   ⟨(w0.fset Fld.GEN_STATE_BUILD_OPEN 1).fset Fld.GEN_STATE_HOLDER 1, cm 1 0 0 0, by decide +kernel, by decide +kernel,
       by decide +kernel, by decide +kernel, by decide +kernel⟩,
   ⟨w0, cm 1 0 0 0, by decide +kernel, by decide +kernel⟩,
   ⟨w0, cm 1 (6 + 256 * 25) 0 0, by decide +kernel, by decide +kernel, by decide +kernel, by decide +kernel, by decide +kernel,
       by decide +kernel, by decide +kernel, by decide +kernel⟩⟩

theorem test_wit_GenerationEventsTakeEffect :
    (∃ s : State, ∃ a, s.gen.arm = some a ∧ s.off = false ∧ s.commitPending = true ∧ s.genStateOf a.build = genPending ∧ a.build < 4 ∧
        s.activeGen < 4 ∧ s.activeGen ≠ a.build ∧ (s.waitFor (a.instant / 4)).activeGen = s.activeGen) ∧
    (∃ s : State, ∃ g : Nat, s.oldestDraining = some g ∧ s.off = false ∧ s.fget (Fld.GEN_DRAIN_COUNT g) = 0) ∧
    (∃ s : State, ∃ r : GenReq, s.gen.wait = some (.retirement r true)) ∧
    (∃ s : State, ∃ r : GenReq, s.gen.wait = some (.retirement r false) ∧ s.gen.queue = []) ∧
    (∃ s : State, ∃ w, ∃ ws, s.gen.walks = w :: ws ∧ s.tab.camMove = none ∧ w.abandon = none) ∧
    (∃ s : State, ∃ g < 4, s.genStateOf g = genDraining ∧ s.fget Fld.GEN_DRAIN_LIMIT_MS ≠ 0 ∧ s.off = false) ∧
    (∃ s : State, ∃ m, s.tab.camMove = some m ∧ s.gen.wait = none ∧ s.tab.camHeld = []) :=
  ⟨⟨{ ((w0.fset Fld.GEN_STATE_PENDING 1).fset (fldGenState 1) genPending) with gen := { w0.gen with arm := some ⟨1, 0, 0, []⟩ } }, ⟨1, 0,
      0, []⟩, by decide +kernel, by decide +kernel, by decide +kernel, by decide +kernel, by decide +kernel, by decide +kernel,
      by decide +kernel, by decide +kernel⟩,
   ⟨w0.fset (fldGenState 3) genDraining, 3, by decide +kernel, by decide +kernel, by decide +kernel⟩,
   ⟨{ w0 with gen := { w0.gen with wait := some (.retirement (⟨0x0302, cm 1 0 0 0, .bytes [], []⟩ : GenReq) true) } }, (⟨0x0302,
       cm 1 0 0 0, .bytes [], []⟩ : GenReq), by decide +kernel⟩,
   ⟨{ w0 with gen := { w0.gen with wait := some (.retirement (⟨0x0302, cm 1 0 0 0, .bytes [], []⟩ : GenReq) false) } }, (⟨0x0302,
       cm 1 0 0 0, .bytes [], []⟩ : GenReq), by decide +kernel, by decide +kernel⟩,
   ⟨{ w0 with gen := { w0.gen with walks := [⟨1, none⟩] } }, ⟨1, none⟩, [], by decide +kernel, by decide +kernel, by decide +kernel⟩,
   ⟨w0.fset (fldGenState 3) genDraining, 3, by decide +kernel, by decide +kernel, by decide +kernel, by decide +kernel⟩,
   ⟨{ w0 with tab := { w0.tab with camMove := some ⟨0, 0, false, cm 1 0 0 0⟩ } }, ⟨0, 0, false, cm 1 0 0 0⟩, by decide +kernel,
       by decide +kernel, by decide +kernel⟩⟩

theorem test_wit_PrefixWritesComplete :
    (∃ s : State, ∃ t : State, ∃ c : Cmd, ∃ ctx : WriteCtx, ∃ r0 : Nat, s.writeCtx (s.cmdMaster c) = .ok ctx ∧ ∃ x ∈ [(0x0401,
        VerOp.insert, Instr.lpmInsert c), (0x0402, VerOp.replace, Instr.lpmReplace c), (0x0403, VerOp.delete, Instr.lpmDelete c)],
        s.runs x.1 2 2 c [(0, 64)] [(0, 64)] routeFields = true ∧ (cmdRoute c).check x.2.1 = none ∧
        s.routeApply ctx x.2.1 (cmdRoute c) = .ok (t, r0)) ∧
    (∃ s : State, ∃ c : Cmd, ∃ ctx : WriteCtx, s.writeCtx (s.cmdMaster c) = .ok ctx ∧ ∃ b : List Byte, s.runs 0x0406 2 2 c [] [] [(32, 0,
        64), (40, 0, 20)] = true ∧ c.fld 40 0 20 ≠ 0 ∧ let r := bulkRun ctx (chunks 32 (min (c.fld 40 0 20) (b.length / 32)) b) 0 s;
        r.2.2 = stOK) ∧
    (∃ s : State, ∃ t : State, ∃ c : Cmd, ∃ ctx : WriteCtx, s.writeCtx (s.cmdMaster c) = .ok ctx ∧ let x := c.fld 32 0 128;
        let op := bitsAt c.arg0 24 2; let i := bitsAt c.arg0 0 19; s.runs 0x0410 2 2 c [(0, 19), (24, 2)] [] [(33, 0, 60)] = true ∧
        op ≠ 3 ∧ (op ≠ 2 → nhActSet x ≤ 262143 ∧ nhEncap x ≤ 262143) ∧
        s.idxApply nhTable ctx (verOpOf op) i x (s.idxHas s.tab.act ctx.gen (nhActSet x) && s.refOk s.tab.encap ctx.gen (nhEncap x))
        (s.nhRefs ctx.gen i) = .ok t) ∧
    (∃ s : State, ∃ c : Cmd, ∃ ctx : WriteCtx, s.writeCtx (s.cmdMaster c) = .ok ctx ∧ let i := bitsAt c.arg0 0 16;
        s.runs 0x0412 1 1 c [(0, 16), (24, 2), (32, 8)] [(0, 64)] [] = true ∧ bitsAt c.arg0 24 2 < 3 ∧ ∃ d, ∃ u, ∃ a : Nat, ∃ b : Nat,
        s.groupCmd c ecmpGroups (bitsAt c.arg0 24 2) i (bitsAt c.arg0 32 8 + 1) 4 d (fun m => if m < 524288 then none else some
        stOutOfRange) (fun ms g => ms.all fun m => s.idxHas s.tab.nh g m) (fun g => s.ecmpRefs g i) = (u, .done stOK a b)) :=
  ⟨⟨tb wb fun t => { t with lpm := [ver ⟨0, 0, 0, 0, 0, 0, 0, .dflt 0, false⟩] }, _, cm 2 0 0 0, ⟨1, false⟩, _, okOf (by decide +kernel),
      (0x0403, VerOp.delete, Instr.lpmDelete (cm 2 0 0 0)), by simp, by decide +kernel, by decide +kernel, okIs2 (w0,
      0) (by decide +kernel)⟩,
   ⟨wb, cm 2 0 0 (2 ^ 64), ⟨1, false⟩, okOf (by decide +kernel), ([] : List Byte), by decide +kernel, by decide +kernel,
       by decide +kernel⟩,
   ⟨tb wb fun t => { t with nh := [ver ⟨0, 0, false⟩] }, _, cm 2 (2 * 2 ^ 24) 0 0, ⟨1, false⟩, okOf (by decide +kernel),
       by decide +kernel, by decide +kernel, by decide +kernel, okIs w0 (by decide +kernel)⟩,
   ⟨tb wb fun t => { t with ecmp := [ver ⟨0, 0, false⟩], ecmpBlocks := [⟨0, [0], [], none⟩] }, cm 1 (2 * 2 ^ 24) 0 0, ⟨1, false⟩,
       okOf (by decide +kernel), by decide +kernel, by decide +kernel, HostData.bytes [], _, 0, 0, Prod.ext rfl (by decide +kernel)⟩⟩

theorem test_wit_PrefixReadsComplete :
    (∃ s : State, ∃ c : Cmd, ∃ upsets : List Upset, ∃ v : Ver LpmEntry, let g := c.fld 41 0 2; let r := cmdRoute c;
        let s1 := upsets.foldl State.lpmUpset (s.hbfUes 17 upsets); upsets.any (·.data) = false ∧ s.runs 0x0404 2 2 c [(0, 64)] [(0,
        64)] (routeFields ++ [(41, 0, 2)]) = true ∧ r.check .delete = none ∧ s.genReadable g = true ∧
        s1.tab.lpm.find? (fun e : Ver
        LpmEntry => e.val.family == r.family && e.val.vrf == r.vrf && e.val.len == r.len && e.val.pfx == r.pfx && s1.visible e.tag
        g) = some v ∧ v.val.bad = false) ∧
    (∃ s : State, ∃ c : Cmd, ∃ upsets : List Upset, let g := c.fld 41 0 2; let r := cmdRoute c; upsets.any (·.data) = false ∧
        s.runs 0x0405 2 2 c [(0, 64)] [(0, 64)] (routeFields ++ [(41, 0, 2), (44, 0, 32)]) = true ∧
        r.len ≤ (if r.family = 1 then 128 else 32) ∧ s.genReadable g = true) ∧
    (∃ s : State, ∃ c : Cmd, ∃ v : Ver IdxVal, s.runs 0x0411 1 1 c [(0, 19)] [(0, 2)] [] = true ∧
        s.genReadable (bitsAt c.arg1 0 2) = true ∧ s.idxVer s.tab.nh (bitsAt c.arg1 0 2) (bitsAt c.arg0 0 19) = some v ∧
        v.val.bad = false) ∧
    (∃ s : State, ∃ c : Cmd, ∃ x : Nat, ∃ b : Block, s.runs 0x0413 2 2 c [(0, 16)] [(0, 2)] [(32, 0, 64)] = true ∧
        s.genReadable (bitsAt c.arg1 0 2) = true ∧ s.idxGet s.tab.ecmp (bitsAt c.arg1 0 2) (bitsAt c.arg0 0 16) = some x ∧
        blockAt s.tab.ecmpBlocks (ecmpBase x) = some b) :=
  ⟨⟨tb w0 fun t => { t with lpm := [ver ⟨0, 0, 0, 0, 0, 0, 0, .dflt 0, false⟩] }, cm 2 0 0 0, ([] : List Upset), (ver ⟨0, 0, 0, 0, 0, 0,
      0, .dflt 0, false⟩ : Ver LpmEntry), by decide +kernel, by decide +kernel, by decide +kernel, by decide +kernel, by decide +kernel,
      by decide +kernel⟩,
   ⟨w0, cm 2 0 0 0, ([] : List Upset), by decide +kernel, by decide +kernel, by decide +kernel, by decide +kernel⟩,
   ⟨tb w0 fun t => { t with nh := [ver ⟨0, 0, false⟩] }, cm 1 0 0 0, (ver ⟨0, 0, false⟩ : Ver IdxVal), by decide +kernel,
       by decide +kernel, by decide +kernel, by decide +kernel⟩,
   ⟨tb w0 fun t => { t with ecmp := [ver ⟨0, 0, false⟩], ecmpBlocks := [⟨0, [0], [], none⟩] }, cm 2 0 0 0, 0, (⟨0, [0], [],
       none⟩ : Block), by decide +kernel, by decide +kernel, by decide +kernel, by decide +kernel⟩⟩

theorem test_wit_ExactMatchCommandsComplete :
    (∃ s : State, ∃ c : Cmd, ∃ upsets : List Upset, ∃ x ∈ [(0x0501, VerOp.insert, Instr.exmInsert c upsets), (0x0502, VerOp.replace,
        Instr.exmReplace c upsets),
        (0x0503, VerOp.delete, Instr.exmDelete c upsets)], let s1 := upsets.foldl State.exmUpset (s.hbfUes 17 upsets); ∃ ctx : WriteCtx,
            ∃ t, ∃ r0, s.runs x.1 3 3 c [] [] (if x.2.1 = .delete then exmKeyFields else exmDataFields) = true ∧
            s1.exmCheck (cmdKey c) (if x.2.1 = .delete then none else some (c.fld 80 0 24, c.fld 83 0 2)) = none ∧
            s1.writeCtx (s.cmdMaster c) = .ok ctx ∧ s1.exmApply ctx x.2.1 (cmdKey c) (c.fld 80 0 24) (c.fld 83 0 2) = .ok (t, r0)) ∧
    (∃ s : State, ∃ c : Cmd, ∃ upsets : List Upset, ∃ v : Ver ExmEntry, let s1 := upsets.foldl State.exmUpset (s.hbfUes 17 upsets);
        s.runs 0x0504 3 3 c [] [(0, 2)] exmKeyFields = true ∧ s1.exmCheck (cmdKey c) none = none ∧
        s1.genReadable (bitsAt c.arg1 0 2) = true ∧ s1.exmBad (tblOf (cmdKey c)) (keyOf (cmdKey c)) = false ∧
        s1.tab.exm.find? (fun v => v.val.isKey (tblOf (cmdKey c)) (keyOf (cmdKey c)) && s1.visible v.tag (bitsAt c.arg1 0 2)) = some v) ∧
    (∃ s : State, ∃ c : Cmd, ∃ upsets : List Upset, ∃ v : Ver ExmEntry,
        let hit := fun (w : Ver ExmEntry) => verLearned w && w.val.isKey (tblOf (cmdKey c)) (keyOf (cmdKey c));
        let s1 := upsets.foldl State.exmUpset (s.hbfUes 17 upsets); s.runs 0x0505 3 3 c [] [] exmKeyFields = true ∧
        s1.exmCheck (cmdKey c) none = none ∧ s1.exmBad (tblOf (cmdKey c)) (keyOf (cmdKey c)) = false ∧ s1.tab.exm.find? hit = some v) ∧
    (∃ s : State, ∃ c : Cmd, ∃ upsets : List Upset, ∃ v : Ver ExmEntry, let s1 := upsets.foldl State.exmUpset (s.hbfUes 17 upsets);
        s.runs 0x0506 2 2 c [(0, 32)] [(0, 2)] [(32, 0, 64)] = true ∧ cursorOk c.arg0 = true ∧ s.genReadable (bitsAt c.arg1 0 2) = true ∧
        s1.exmNextFrom c.arg0 (bitsAt c.arg1 0 2) (fun _ => true) = some v ∧ v.val.bad = false) ∧
    (∃ s : State, ∃ c : Cmd, ∃ upsets : List Upset, let g := bitsAt c.arg1 0 2; let start := bitsAt c.arg0 0 32;
        let s1 := upsets.foldl State.exmUpset (s.hbfUes 17 upsets);
        let vs := s1.exmCollect g (fun (v : Ver ExmEntry) => (bitAt c.arg1 14 || v.val.tbl == bitsAt c.arg1 8 6) && (!bitAt c.arg1 15 || v.val.learned) && (!bitAt c.arg1 16 || (v.val.rkind == 3 && v.val.result % 128 == c.fld 40 0 7)) && decide (cursorRank v.val.cursor < cursorRank start + 1048576)) (bitsAt c.arg1 32 16) start; s.runs 0x0507 2 2 c [(0, 32)] [(0, 2), (8, 9), (32, 16)] [(32, 0, 64), (40, 0, 7)] = true ∧ cursorOk start = true ∧ bitsAt c.arg1 32 16 ≠ 0 ∧ s.genReadable g = true ∧ vs.any (·.val.bad) = false) ∧
    (∃ s : State, ∃ c : Cmd, s.runs 0x0508 1 1 c [(0, 18), (24, 7)] [] [] = true ∧
        (bitAt c.arg0 30 = true ∨ s.tblEn (bitsAt c.arg0 24 6) = true)) :=
  ⟨⟨tb (wb.fset (Fld.EXM_TBL_CFG_EN 0) 1) fun t => { t with exm := [ver ⟨0, 5, 0, 7, false, false, 0, 9, 1, false, false⟩] }, cm 3 0 0 5,
      ([] : List Upset), (0x0503, VerOp.delete, Instr.exmDelete (cm 3 0 0 5) []), by simp, (⟨1, false⟩ : WriteCtx), _, _,
      by decide +kernel, by decide +kernel, okOf (by decide +kernel), okIs2 (w0, 0) (by decide +kernel)⟩,
   ⟨tb (w0.fset (Fld.EXM_TBL_CFG_EN 0) 1) fun t => { t with exm := [ver ⟨0, 5, 0, 7, false, false, 0, 9, 1, false, false⟩] }, cm 3 0 0 5,
       ([] : List Upset), (ver ⟨0, 5, 0, 7, false, false, 0, 9, 1, false, false⟩ : Ver ExmEntry), by decide +kernel, by decide +kernel,
       by decide +kernel, by decide +kernel, by decide +kernel⟩,
   ⟨tb (w0.fset (Fld.EXM_TBL_CFG_EN 0) 1) fun t => { t with exm := [ver ⟨0, 5, 0, 7, true, false, 0, 9, 1, false, false⟩] }, cm 3 0 0 5,
       ([] : List Upset), (ver ⟨0, 5, 0, 7, true, false, 0, 9, 1, false, false⟩ : Ver ExmEntry), by decide +kernel, by decide +kernel,
       by decide +kernel, by decide +kernel⟩,
   ⟨tb (w0.fset (Fld.EXM_TBL_CFG_EN 0) 1) fun t => { t with exm := [ver ⟨0, 5, 0, 7, false, false, 0, 9, 1, false, false⟩] }, cm 2 0 0 0,
       ([] : List Upset), (ver ⟨0, 5, 0, 7, false, false, 0, 9, 1, false, false⟩ : Ver ExmEntry), by decide +kernel, by decide +kernel,
       by decide +kernel, by decide +kernel, by decide +kernel⟩,
   ⟨tb (w0.fset (Fld.EXM_TBL_CFG_EN 0) 1) fun t => { t with exm := [ver ⟨0, 5, 0, 7, false, false, 0, 9, 1, false, false⟩] },
       cm 2 0 (2 ^ 32) 0, ([] : List Upset), by decide +kernel, by decide +kernel, by decide +kernel, by decide +kernel,
       by decide +kernel⟩,
   ⟨tb (w0.fset (Fld.EXM_TBL_CFG_EN 0) 1) fun t => { t with exm := [ver ⟨0, 5, 0, 7, false, false, 0, 9, 1, false, false⟩] }, cm 1 0 0 0,
       by decide +kernel, by decide +kernel⟩⟩

theorem test_wit_TableEventsTakeEffect :
    (∃ s : State, ∃ family : Nat, ∃ len : Nat, ∃ t : LenTable, ∃ done : Nat, Assoc.find s.tab.lens (lenKey family len) = some t ∧
        t.split = some done) ∧
    (∃ s : State, ∃ n : Nat, ∃ v : Ver LpmEntry, ∃ k : Nat, ∃ p, s.tab.lpm[n]? = some v ∧ v.val.place = .overflow k ∧
        s.lpmPlace v.val.family v.val.vrf v.val.len v.val.pfx = some p ∧ (∀ j, p ≠ .overflow j)) ∧
    (∃ s : State, ∃ family : Nat, ∃ len : Nat, ∃ r : FiltRegion, ∃ units : Nat, Assoc.find s.tab.filt (lenKey family len) = some r ∧
        r.rebuild = some units) ∧
    (∃ s : State, ∃ x ∈ [(lpmShadow, fun d => Instr.lpmShadowDone d), (exmShadow, fun d => Instr.exmShadowDone d), (camShadow,
        fun d => Instr.camShadowDone d)], s.fbit (x.1.fld 3 1) = true) ∧
    (∃ s : State, ∃ r : LearnReq, ∃ rest : List LearnReq, s.tab.learnQ = r :: rest ∧ r.move = false ∧
        let s1 := { s with tab := { s.tab with learnQ := rest } }; s1.exmStored (tblOf r.key) (keyOf r.key) = none) ∧
    (∃ s : State, ∃ r : LearnReq, ∃ rest : List LearnReq, ∃ v : Ver ExmEntry, s.tab.learnQ = r :: rest ∧ r.move = true ∧
        let s1 := { s with tab := { s.tab with learnQ := s.tab.learnQ.erase r } };
        s1.tab.exm.find? (fun v => v.val.isKey (tblOf r.key) (keyOf r.key) && verLearned v) = some v ∧
        v.val.result ≠ s1.learnResult r.port) ∧
    (∃ s : State, s.fget Fld.EXM_AGE_CFG_PERIOD_100MS ≠ 0) ∧
    (∃ s : State, ∃ cursor : Nat, ∃ v : Ver ExmEntry,
        s.tab.exm.find? (fun v => v.val.cursor == cursor && v.val.aging && verLearned v) = some v ∧ v.val.hit = false) ∧
    (∃ s : State, ∃ cursor : Nat, ∃ v : Ver ExmEntry,
        s.tab.exm.find? (fun v => v.val.cursor == cursor && v.val.aging && verLearned v) = some v ∧ v.val.hit = true) :=
  ⟨⟨tb w0 fun t => { t with lens := [(lenKey 1 64, ⟨0, some 0⟩)] }, 1, 64, (⟨0, some 0⟩ : LenTable), 0, by decide +kernel,
      by decide +kernel⟩,
   ⟨tb w0 fun t => { t with lpm := [ver ⟨0, 0, 0, 0, 0, 0, 0, .overflow 3, false⟩] }, 0, (ver ⟨0, 0, 0, 0, 0, 0, 0, .overflow 3,
       false⟩ : Ver LpmEntry), 3, LpmPlace.dflt 0, by decide +kernel, by decide +kernel, by decide +kernel, (fun _ h => by cases h)⟩,
   ⟨tb w0 fun t => { t with filt := [(lenKey 1 64, ⟨1, [], 0, some 2, false⟩)] }, 1, 64, (⟨1, [], 0, some 2, false⟩ : FiltRegion), 2,
       by decide +kernel, by decide +kernel⟩,
   ⟨rg w0 [(camShadow.ctrl, 8)], (camShadow, fun d => Instr.camShadowDone d), by simp, by decide +kernel⟩,
   ⟨tb w0 fun t => { t with learnQ := [⟨false, 5, 127⟩] }, (⟨false, 5, 127⟩ : LearnReq), ([] : List LearnReq), by decide +kernel,
       by decide +kernel, by decide +kernel⟩,
   ⟨tb w0 fun t => { t with learnQ := [⟨true, 5, 127⟩], exm := [ver ⟨0, 5, 0, 7, true, false, 0, 9, 1, false, false⟩] }, (⟨true, 5,
       127⟩ : LearnReq), ([] : List LearnReq), (ver ⟨0, 5, 0, 7, true, false, 0, 9, 1, false, false⟩ : Ver ExmEntry), by decide +kernel,
       by decide +kernel, by decide +kernel, by decide +kernel⟩,
   ⟨w0, by decide +kernel⟩,
   ⟨tb (w0.fset (Fld.EXM_TBL_CFG_EN 0) 1) fun t => { t with exm := [ver ⟨0, 5, 0, 7, true, false, 0, 9, 1, false, true⟩] }, 9, (ver ⟨0,
       5, 0, 7, true, false, 0, 9, 1, false, true⟩ : Ver ExmEntry), by decide +kernel, by decide +kernel⟩,
   ⟨tb (w0.fset (Fld.EXM_TBL_CFG_EN 0) 1) fun t => { t with exm := [ver ⟨0, 5, 0, 7, true, true, 0, 9, 1, false, true⟩] }, 9, (ver ⟨0, 5,
       0, 7, true, true, 0, 9, 1, false, true⟩ : Ver ExmEntry), by decide +kernel, by decide +kernel⟩⟩

theorem test_wit_CamCommandsComplete :
    (∃ s : State, ∃ c : Cmd, ∃ x ∈ [(0x0601, 5, [(0, 15)], Instr.camInsert c), (0x0602, 5, [(0, 15), (16, 15)], Instr.camReplace c),
        (0x0603, 1, [(0, 15)], Instr.camDelete c)],
        let op : VerOp := if x.1 = 0x0601 then .insert else if x.1 = 0x0602 then .replace else .delete; ∃ ctx : WriteCtx, ∃ t, ∃ freed,
        ∃ slot, s.runs x.1 x.2.1 x.2.1 c x.2.2.1 [] (if x.1 = 0x0603 then [] else camFields) = true ∧
        (x.1 ≠ 0x0603 → Nat.land (c.fld 32 0 480) (c.fld 92 0 480) = c.fld 32 0 480) ∧ s.camHolds x.1 c = false ∧
        s.writeCtx (s.cmdMaster c) = .ok ctx ∧
        s.camApply ctx op (bitsAt c.arg0 0 15) (bitsAt c.arg0 16 15) (if op = .delete then 0 else camEntry c) = .ok (t, freed, slot)) ∧
    (∃ s : State, ∃ c : Cmd, s.runs 0x0604 2 2 c [(0, 15)] [(0, 2)] [(32, 0, 64)] = true ∧ s.genReadable (bitsAt c.arg1 0 2) = true) ∧
    (∃ s : State, ∃ c : Cmd, ∃ d : Nat, let m : CamMove := ⟨bitsAt c.arg0 0 15, bitsAt c.arg0 16 15, bitAt c.arg0 31, c⟩;
        s.runs 0x0605 1 1 c [(0, 15), (16, 16)] [] [] = true ∧ m.first ≤ m.last ∧ m.dest = some d ∧ s.owns (s.cmdMaster c) 16 = true ∧
        s.tab.camMove = none ∧ s.gen.walks = [] ∧ s.camSlot d = none) ∧
    (∃ s : State, ∃ c : Cmd, s.runs 0x0606 2 2 c [] [] [(32, 0, 64)] = true) ∧
    (∃ s : State, ∃ c : Cmd, ∃ slice : Nat, s.runs 0x0607 3 3 c [] [(0, 2)] [(32, 0, 480)] = true ∧
        s.genReadable (bitsAt c.arg1 0 2) = true ∧ (List.range 16).find? s.sliceOn = some slice) :=
  ⟨⟨tb wb fun t => { t with cam := [ver ⟨0, 0, false⟩] }, cm 1 0 0 0, (0x0603, 1, [(0, 15)], Instr.camDelete (cm 1 0 0 0)), by simp, (⟨1,
      false⟩ : WriteCtx), _, _, _, by decide +kernel, by decide +kernel, by decide +kernel, okOf (by decide +kernel), okIs3 (w0, false,
      0) (by decide +kernel)⟩,
   ⟨w0, cm 2 0 0 0, by decide +kernel, by decide +kernel⟩,
   ⟨w0, cm 1 (0x10000 * 32766 + 32766) 0 0, 32767, by decide +kernel, by decide +kernel, by decide +kernel, by decide +kernel,
       by decide +kernel, by decide +kernel, by decide +kernel⟩,
   ⟨w0, cm 2 0 0 0, by decide +kernel⟩,
   ⟨w0, cm 3 0 0 0, 0, by decide +kernel, by decide +kernel, by decide +kernel⟩⟩

theorem test_wit_IndexedWritesComplete :
    (∃ s : State, ∃ t : State, ∃ c : Cmd, ∃ ctx : WriteCtx, s.writeCtx (s.cmdMaster c) = .ok ctx ∧ let op := bitsAt c.arg0 24 2; op < 3 ∧
        let x := c.fld 32 0 256; let i := bitsAt c.arg0 0 18; s.runs 0x0701 2 2 c [(0, 18), (24, 2)] [] actFields = true ∧
        bitsAt x 60 4 = 0 ∧ (op ≠ 2 → actBad x = false) ∧
        s.idxApply actTable ctx (verOpOf op) i x (s.actRefsOk ctx.gen x) (s.actRefs ctx.gen i) = .ok t) ∧
    (∃ s : State, ∃ t : State, ∃ c : Cmd, ∃ ctx : WriteCtx, s.writeCtx (s.cmdMaster c) = .ok ctx ∧ let op := bitsAt c.arg0 24 2; op < 3 ∧
        let i := bitsAt c.arg0 0 18; s.runs 0x0703 1 1 c [(0, 18), (24, 2)] [(8, 36)] [] = true ∧ i ≠ 0 ∧
        (op ≠ 2 → polbYelAct c.arg1 ≠ 3 ∧ polbRedAct c.arg1 ≠ 3) ∧
        s.idxApply polbTable ctx (verOpOf op) i c.arg1 true (s.polbRefs ctx.gen i) = .ok t) ∧
    (∃ s : State, ∃ t : State, ∃ c : Cmd, ∃ ctx : WriteCtx, s.writeCtx (s.cmdMaster c) = .ok ctx ∧ let op := bitsAt c.arg0 24 2; op < 3 ∧
        let i := bitsAt c.arg0 0 12; s.runs 0x0711 1 1 c [(0, 12), (24, 2)] [(8, 26)] [] = true ∧ i ≠ 0 ∧
        s.idxApply editTable ctx (verOpOf op) i c.arg1 true (s.editRefs ctx.gen i) = .ok t) ∧
    (∃ s : State, ∃ t : State, ∃ c : Cmd, ∃ ctx : WriteCtx, s.writeCtx (s.cmdMaster c) = .ok ctx ∧ let op := bitsAt c.arg0 24 2; op < 3 ∧
        let x := c.fld 32 0 128; let i := bitsAt c.arg0 0 4; s.runs 0x0713 2 2 c [(0, 4), (24, 2)] [] [(33, 0, 78)] = true ∧ i ≠ 0 ∧
        (op ≠ 2 → mirEncap x ≤ 262143 ∧ (mirTrunc x = 0 ∨ (64 ≤ mirTrunc x ∧ mirTrunc x ≤ 9216))) ∧
        s.idxApply mirrorTable ctx (verOpOf op) i x (s.refOk s.tab.encap ctx.gen (mirEncap x)) (s.mirrorRefs ctx.gen i) = .ok t) ∧
    (∃ s : State, ∃ t : State, ∃ c : Cmd, ∃ ctx : WriteCtx, s.writeCtx (s.cmdMaster c) = .ok ctx ∧ let op := bitsAt c.arg0 24 2; op < 3 ∧
        let x := c.fld 32 0 256; let i := bitsAt c.arg0 0 18; s.runs 0x0715 2 2 c [(0, 18), (24, 2)] [] [(33, 0, 224)] = true ∧ i ≠ 0 ∧
        (op ≠ 2 → encL2Op x ≠ 3 ∧ (encTagOp x ≠ 3 ∨ encL2Op x ≠ 2)) ∧
        s.idxApply encapTable ctx (verOpOf op) i x (s.refOk s.tab.tmpl ctx.gen (encTemplate x)) (s.encapRefs ctx.gen i) = .ok t) ∧
    (∃ s : State, ∃ t : State, ∃ c : Cmd, ∃ ctx : WriteCtx, s.writeCtx (s.cmdMaster c) = .ok ctx ∧ let op := bitsAt c.arg0 24 2; op < 3 ∧
        let x := c.fld 32 0 1024; let i := bitsAt c.arg0 0 12; s.runs 0x0717 5 5 c [(0, 12), (24, 2)] [] [(33, 0, 25), (40, 0,
        960)] = true ∧ i ≠ 0 ∧ (op ≠ 2 → tmplBad x = false) ∧
        s.idxApply tmplTable ctx (verOpOf op) i x true (s.tmplRefs ctx.gen i) = .ok t) ∧
    (∃ s : State, ∃ c : Cmd, ∃ ctx : WriteCtx, s.writeCtx (s.cmdMaster c) = .ok ctx ∧ let op := bitsAt c.arg0 24 2; op < 3 ∧
        let i := bitsAt c.arg0 0 16; let n := bitsAt c.arg0 32 10 + 1; s.runs 0x0707 1 1 c [(0, 16), (24, 2), (32, 10)] [(0,
        64)] [] = true ∧ ∃ d, ∃ u, ∃ r0 : Nat, ∃ r1 : Nat,
        s.groupCmd c replGroups op i n 8 d replMemberCheck (fun ms g => ms.all fun m => s.refOk s.tab.encap g (rmEncap m)) (fun
        g => s.replRefs g i) = (u, .done stOK r0 r1)) :=
  ⟨⟨tb wb fun t => { t with act := [ver ⟨1, 0, false⟩] }, _, cm 2 (2 * 2 ^ 24 + 1) 0 0, ⟨1, false⟩, okOf (by decide +kernel),
      by decide +kernel, by decide +kernel, by decide +kernel, by decide +kernel, okIs w0 (by decide +kernel)⟩,
   ⟨tb wb fun t => { t with polb := [ver ⟨1, 0, false⟩] }, _, cm 1 (2 * 2 ^ 24 + 1) 0 0, ⟨1, false⟩, okOf (by decide +kernel),
       by decide +kernel, by decide +kernel, by decide +kernel, by decide +kernel, okIs w0 (by decide +kernel)⟩,
   ⟨tb wb fun t => { t with edit := [ver ⟨1, 0, false⟩] }, _, cm 1 (2 * 2 ^ 24 + 1) 0 0, ⟨1, false⟩, okOf (by decide +kernel),
       by decide +kernel, by decide +kernel, by decide +kernel, okIs w0 (by decide +kernel)⟩,
   ⟨tb wb fun t => { t with mirror := [ver ⟨1, 0, false⟩] }, _, cm 2 (2 * 2 ^ 24 + 1) 0 0, ⟨1, false⟩, okOf (by decide +kernel),
       by decide +kernel, by decide +kernel, by decide +kernel, by decide +kernel, okIs w0 (by decide +kernel)⟩,
   ⟨tb wb fun t => { t with encap := [ver ⟨1, 0, false⟩] }, _, cm 2 (2 * 2 ^ 24 + 1) 0 0, ⟨1, false⟩, okOf (by decide +kernel),
       by decide +kernel, by decide +kernel, by decide +kernel, by decide +kernel, okIs w0 (by decide +kernel)⟩,
   ⟨tb wb fun t => { t with tmpl := [ver ⟨1, 0, false⟩] }, _, cm 5 (2 * 2 ^ 24 + 1) 0 0, ⟨1, false⟩, okOf (by decide +kernel),
       by decide +kernel, by decide +kernel, by decide +kernel, by decide +kernel, okIs w0 (by decide +kernel)⟩,
   ⟨tb wb fun t => { t with repl := [ver ⟨0, 0, false⟩], replBlocks := [⟨0, [0], [], none⟩] }, cm 1 (2 * 2 ^ 24) 0 0, ⟨1, false⟩,
       okOf (by decide +kernel), by decide +kernel, by decide +kernel, HostData.bytes [], _, 0, 0, Prod.ext rfl (by decide +kernel)⟩⟩

theorem test_wit_ActionReadsAndCountersComplete :
    (∃ s : State, ∃ c : Cmd, ∃ x, s.runs 0x0702 2 2 c [(0, 18)] [(0, 2)] [(32, 0, 64)] = true ∧
        s.idxRead actTable (bitsAt c.arg1 0 2) (bitsAt c.arg0 0 18) 256 stDataError = .ok x) ∧
    (∃ s : State, ∃ c : Cmd, ∃ x, s.runs 0x0704 1 1 c [(0, 18)] [(0, 2)] [] = true ∧ bitsAt c.arg0 0 18 ≠ 0 ∧
        s.idxRead polbTable (bitsAt c.arg1 0 2) (bitsAt c.arg0 0 18) 64 stDataError = .ok x) ∧
    (∃ s : State, ∃ c : Cmd, s.runs 0x0705 2 2 c [(0, 19), (24, 2)] [] polFields = true ∧ bitsAt c.arg0 24 2 < 3 ∧
        (polPayload c).badConfig = false) ∧
    (∃ s : State, ∃ c : Cmd, s.runs 0x0706 2 2 c [(0, 19)] [] [(32, 0, 64)] = true) ∧
    (∃ s : State, ∃ c : Cmd, ∃ x, ∃ b : Block, s.runs 0x0708 2 2 c [(0, 16)] [(0, 2)] [(32, 0, 64)] = true ∧
        s.idxRead replTable (bitsAt c.arg1 0 2) (bitsAt c.arg0 0 16) 64 stDataError = .ok x ∧
        blockAt s.tab.replBlocks (replBase x) = some b ∧ b.bad = []) ∧
    (∃ s : State, ∃ c : Cmd, s.runs 0x0709 1 1 c [(0, 25), (32, 1)] [] [] = true) ∧
    (∃ s : State, ∃ c : Cmd, s.runs 0x070A 2 2 c [(0, 25)] [(0, 21), (32, 1)] [(32, 0, 64)] = true ∧ bitsAt c.arg1 0 21 ≠ 0 ∧
        bitsAt c.arg1 0 21 ≤ 1048576 ∧ bitsAt c.arg0 0 25 + bitsAt c.arg1 0 21 ≤ 33554432) ∧
    (∃ s : State, ∃ c : Cmd, ∃ x, s.runs 0x0712 1 1 c [(0, 12)] [(0, 2)] [] = true ∧ bitsAt c.arg0 0 12 ≠ 0 ∧
        s.idxRead editTable (bitsAt c.arg1 0 2) (bitsAt c.arg0 0 12) 64 stNotFound = .ok x) ∧
    (∃ s : State, ∃ c : Cmd, ∃ x, s.runs 0x0714 1 1 c [(0, 4)] [(0, 2)] [] = true ∧ bitsAt c.arg0 0 4 ≠ 0 ∧
        s.idxRead mirrorTable (bitsAt c.arg1 0 2) (bitsAt c.arg0 0 4) 128 stNotFound = .ok x) ∧
    (∃ s : State, ∃ c : Cmd, ∃ x, s.runs 0x0716 2 2 c [(0, 18)] [(0, 2)] [(32, 0, 64)] = true ∧ bitsAt c.arg0 0 18 ≠ 0 ∧
        s.idxRead encapTable (bitsAt c.arg1 0 2) (bitsAt c.arg0 0 18) 256 stNotFound = .ok x) ∧
    (∃ s : State, ∃ c : Cmd, ∃ v : Ver IdxVal, s.runs 0x0718 2 2 c [(0, 12)] [(0, 2)] [(32, 0, 64)] = true ∧ bitsAt c.arg0 0 12 ≠ 0 ∧
        s.genReadable (bitsAt c.arg1 0 2) = true ∧ s.idxVer s.tab.tmpl (bitsAt c.arg1 0 2) (bitsAt c.arg0 0 12) = some v ∧
        v.val.bad = false) ∧
    (∃ s : State, s.fget Fld.FST_CFG_FLUSH_US ≠ 0) :=
  ⟨⟨tb w0 fun t => { t with act := [ver ⟨0, 0, false⟩] }, cm 2 0 0 0,
      okSt 0 (State.idxRead ((tb w0 fun t => { t with act := [ver ⟨0, 0, false⟩] })) actTable 0 0 256 stDataError), by decide +kernel,
      okOf (by decide +kernel)⟩,
   ⟨tb w0 fun t => { t with polb := [ver ⟨1, 0, false⟩] }, cm 1 1 0 0,
       okSt 0 (State.idxRead ((tb w0 fun t => { t with polb := [ver ⟨1, 0, false⟩] })) polbTable 0 1 64 stDataError), by decide +kernel,
       by decide +kernel, okOf (by decide +kernel)⟩,
   ⟨w0, cm 2 0 0 (2 ^ 70 + 2 ^ 102), by decide +kernel, by decide +kernel, by decide +kernel⟩,
   ⟨w0, cm 2 0 0 0, by decide +kernel⟩,
   ⟨tb w0 fun t => { t with repl := [ver ⟨0, 0, false⟩], replBlocks := [⟨0, [0], [], none⟩] }, cm 2 0 0 0,
       okSt 0 (State.idxRead ((tb w0 fun t => { t with repl := [ver ⟨0, 0, false⟩], replBlocks := [⟨0, [0], [], none⟩] })) replTable 0 0
       64 stDataError), (⟨0, [0], [], none⟩ : Block), by decide +kernel, okOf (by decide +kernel), by decide +kernel, by decide +kernel⟩,
   ⟨w0, cm 1 0 0 0, by decide +kernel⟩,
   ⟨w0, cm 2 33554431 1 0, by decide +kernel, by decide +kernel, by decide +kernel, by decide +kernel⟩,
   ⟨tb w0 fun t => { t with edit := [ver ⟨1, 0, false⟩] }, cm 1 1 0 0,
       okSt 0 (State.idxRead ((tb w0 fun t => { t with edit := [ver ⟨1, 0, false⟩] })) editTable 0 1 64 stNotFound), by decide +kernel,
       by decide +kernel, okOf (by decide +kernel)⟩,
   ⟨tb w0 fun t => { t with mirror := [ver ⟨1, 0, false⟩] }, cm 1 1 0 0,
       okSt 0 (State.idxRead ((tb w0 fun t => { t with mirror := [ver ⟨1, 0, false⟩] })) mirrorTable 0 1 128 stNotFound),
       by decide +kernel, by decide +kernel, okOf (by decide +kernel)⟩,
   ⟨tb w0 fun t => { t with encap := [ver ⟨1, 0, false⟩] }, cm 2 1 0 0,
       okSt 0 (State.idxRead ((tb w0 fun t => { t with encap := [ver ⟨1, 0, false⟩] })) encapTable 0 1 256 stNotFound),
       by decide +kernel, by decide +kernel, okOf (by decide +kernel)⟩,
   ⟨tb w0 fun t => { t with tmpl := [ver ⟨1, 0, false⟩] }, cm 2 1 0 0, (ver ⟨1, 0, false⟩ : Ver IdxVal), by decide +kernel,
       by decide +kernel, by decide +kernel, by decide +kernel, by decide +kernel⟩,
   ⟨w0.fset Fld.FST_CFG_FLUSH_US 1, by decide +kernel⟩⟩

theorem test_wit_BufferCommandsComplete :
    (∃ s : State, ∃ c : Cmd, s.runs 0x0801 1 1 c queueFields [(0, 9)] [] = true ∧
        rangeOk (bitsAt c.arg0 0 20) (bitsAt c.arg0 32 21) = true) ∧
    (∃ s : State, ∃ c : Cmd, s.runs 0x0802 1 1 c [(0, 20)] [] [] = true) ∧
    (∃ s : State, ∃ c : Cmd,
        let p : AdmProfile := ⟨c.fld 32 0 28, c.fld 36 0 28, c.fld 40 0 28, c.fld 44 0 28, c.fld 48 0 28, c.fld 52 0 28⟩;
        s.runs 0x0803 2 2 c [(0, 8)] [] profFields = true ∧ p.limitY ≤ p.limitG ∧ p.limitR ≤ p.limitY ∧ p.min ≤ p.limitG) ∧
    (∃ s : State, ∃ c : Cmd, s.runs 0x0804 2 2 c [(0, 8)] [] [(32, 0, 64)] = true) ∧
    (∃ s : State, ∃ c : Cmd, let kind := bitsAt c.arg0 0 2; s.runs 0x0805 1 1 c [(0, 2), (8, 7), (16, 3), (24, 1)] (if kind = 3 then [(0,
        28), (32, 28)] else [(0, 28)]) [] = true ∧ bitAt c.arg0 24 = true) ∧
    (∃ s : State, ∃ c : Cmd, let kind := bitsAt c.arg0 0 2; s.runs 0x0805 1 1 c [(0, 2), (8, 7), (16, 3), (24, 1)] (if kind = 3 then [(0,
        28), (32, 28)] else [(0, 28)]) [] = true ∧ bitAt c.arg0 24 = false ∧ (kind = 3 → bitsAt c.arg1 32 28 < bitsAt c.arg1 0 28)) ∧
    (∃ s : State, ∃ c : Cmd, let first := bitsAt c.arg0 0 20; let count := bitsAt c.arg0 32 21; s.runs 0x0806 1 1 c queueFields [(0,
        8)] [] = true ∧ (bitAt c.arg1 7 = true ∨ rangeOk first count = true)) ∧
    (∃ s : State, ∃ c : Cmd, let region := bitsAt c.arg0 0 6; let op := bitsAt c.arg0 9 3; s.runs 0x0807 1 1 c [(0, 6), (8,
        4)] [] [] = true ∧ region ≤ 47 ∧ op = 0) ∧
    (∃ s : State, ∃ c : Cmd, let region := bitsAt c.arg0 0 6; let op := bitsAt c.arg0 9 3;
        let rs := fenceTargets region (bitAt c.arg0 8 || op == 3);
        let walk := rs.foldl (fun (a : State × Bool) r => (a.1.fence r, a.2 || a.1.fenceRefused r)) (s, false); s.runs 0x0807 1 1 c [(0,
        6), (8, 4)] [] [] = true ∧ region ≤ 47 ∧ op = 1 ∧ walk.2 = false) ∧
    (∃ s : State, ∃ c : Cmd, let region := bitsAt c.arg0 0 6; let op := bitsAt c.arg0 9 3;
        let rs := fenceTargets region (bitAt c.arg0 8 || op == 3); let out := rs.any fun r => (s.region r).state == regOut;
        s.runs 0x0807 1 1 c [(0, 6), (8, 4)] [] [] = true ∧ region ≤ 47 ∧ op = 2 ∧
        (out = true → s.hbtTrained (bitsAt c.arg0 3 3) = true)) ∧
    (∃ s : State, ∃ c : Cmd, let region := bitsAt c.arg0 0 6; let op := bitsAt c.arg0 9 3;
        let rs := fenceTargets region (bitAt c.arg0 8 || op == 3); s.runs 0x0807 1 1 c [(0, 6), (8, 4)] [] [] = true ∧ region ≤ 47 ∧
        op = 3 ∧ (∃ r ∈ rs, (s.region r).state ≠ regOut)) :=
  ⟨⟨w0, cm 1 (2 ^ 32 + 1048575) 0 0, by decide +kernel, by decide +kernel⟩,
   ⟨w0, cm 1 0 0 0, by decide +kernel⟩,
   ⟨w0, cm 2 0 0 0, by decide +kernel, by decide +kernel, by decide +kernel, by decide +kernel⟩,
   ⟨w0, cm 2 0 0 0, by decide +kernel⟩,
   ⟨w0, cm 1 (2 ^ 24 + 2 * 2 ^ 0 + 127 * 2 ^ 8 + 7 * 2 ^ 16) 0 0, by decide +kernel, by decide +kernel⟩,
   ⟨w0, cm 1 0 0 0, by decide +kernel, by decide +kernel, by decide +kernel⟩,
   ⟨w0, cm 1 (2 ^ 32) 0 0, by decide +kernel, by decide +kernel⟩,
   ⟨w0, cm 1 0 0 0, by decide +kernel, by decide +kernel, by decide +kernel⟩,
   ⟨w0, cm 1 (47 + 2 ^ 9) 0 0, by decide +kernel, by decide +kernel, by decide +kernel, by decide +kernel⟩,
   ⟨w0, cm 1 (47 + 2 * 2 ^ 9) 0 0, by decide +kernel, by decide +kernel, by decide +kernel, by decide +kernel⟩,
   ⟨w0, cm 1 (47 + 3 * 2 ^ 9) 0 0, by decide +kernel, by decide +kernel, by decide +kernel, by decide +kernel⟩⟩

theorem test_wit_BufferEventsTakeEffect :
    (∃ s : State, ∃ port : Nat, (∃ k < 8, bitAt (s.fget (fldXoff port)) k = true ∧ (Assoc.get s.tm.pfcLimit (limitReset,
        limitReset - 1) (8 * port + k)).2 * 1024 ≤ s.account port k)) ∧
    (∃ s : State, ∃ q : Nat, ∃ h, ∃ rest : List QPkt, segPart (s.queue q).pkts = h :: rest ∧ (s.queue q).spilled = true ∧
        q ∉ s.tm.refilling ∧ sumpBytes (s.queue q).pkts < s.refillKb * 512 ∧ cellsOf h.charge ≤ s.refillFree) ∧
    (∃ s : State, ∃ q : Nat, q ∈ s.tm.refilling) ∧
    (∃ s : State, ∃ f : Flush, ∃ fs : List Flush, s.tm.flushes = f :: fs) ∧
    (∃ s : State, ∃ region : Nat, (s.region region).state = regFencing ∧ s.fget Fld.BUF_FENCE_CFG_WAIT_MS ≠ 0) ∧
    (∃ s : State, ∃ region : Nat, (s.region region).state = regWaking) ∧
    (∃ s : State, ∃ r : Nat, s.activePages < s.fget Fld.BUF_UNFENCE_FREE_PAGES ∧
        (List.range 48).find? (fun r => (s.region r).state == regFencing) = some r) :=
  ⟨⟨tmS (w0.fset (fldXoff 127) 0x80) fun t => { t with pfcLimit := [(8 * 127 + 7, (0, 0))] }, 127, ⟨7, by decide, by decide +kernel,
      by decide +kernel⟩⟩,
   ⟨tmS w0 fun t => { t with queues := [(9, { queue0 with pkts := [qpk .cistern], spilled := true })] }, 9, (qpk .cistern),
       ([] : List QPkt), by decide +kernel, by decide +kernel, by decide +kernel, by decide +kernel, by decide +kernel⟩,
   ⟨tmS w0 fun t => { t with refilling := [9] }, 9, by decide +kernel⟩,
   ⟨tmS w0 fun t => { t with flushes := [⟨.flush (cm 1 0 0 0), 1, []⟩] }, (⟨.flush (cm 1 0 0 0), 1, []⟩ : Flush), ([] : List Flush),
       by decide +kernel⟩,
   ⟨w0.setRegion 47 { region0 with state := regFencing }, 47, by decide +kernel, by decide +kernel⟩,
   ⟨w0.setRegion 47 { region0 with state := regWaking }, 47, by decide +kernel⟩,
   ⟨(List.range 47).foldl (fun (t : State) r => t.setRegion r { region0 with state := regParked }) (w0.setRegion
       47 { region0 with state := regFencing }), 47, by decide +kernel, by decide +kernel⟩⟩

theorem test_wit_QueueAndSchedulerCommandsComplete :
    (∃ s : State, ∃ c : Cmd, let q := bitsAt c.arg0 0 20; let d := c.fld 32 0 88; let qu := s.queue q; ∃ n : Nat,
        s.runs 0x0810 2 2 c [(0, 20)] [] [(32, 0, 88)] = true ∧ qdPrio d ≤ 4 ∧ (qdClass d = 3 → qdShaperEn d = false) ∧
        s.liveParent 3 (qdParent d) = some n ∧ qu.detaching = false ∧ (qu.attached = true → qdClass qu.desc = qdClass d) ∧
        (qu.attached = true → s.nodePort 3 (qdParent qu.desc) ≠ some n → qu.pkts = []) ∧
        (qdPrio d < 4 → s.siblings 0 (qdParent d) q (qdPrio d) = []) ∧
        (qdPrio d = 4 → s.isPrecision 1 (qdParent d) = true → (s.siblings 0 (qdParent d) q 4).length < 64)) ∧
    (∃ s : State, ∃ c : Cmd, let q := bitsAt c.arg0 0 20; s.runs 0x0811 1 1 c [(0, 20)] [(0, 1)] [] = true ∧
        (s.queue q).detaching = false ∧ (s.queue q).attached = true ∧ bitAt c.arg1 0 = false ∧ (s.queue q).pkts = []) ∧
    (∃ s : State, ∃ c : Cmd, let q := bitsAt c.arg0 0 20; s.runs 0x0811 1 1 c [(0, 20)] [(0, 1)] [] = true ∧
        (s.queue q).detaching = false ∧ (s.queue q).attached = true ∧ bitAt c.arg1 0 = true) ∧
    (∃ s : State, ∃ c : Cmd, s.runs 0x0812 1 1 c [(0, 20)] [] [] = true) ∧
    (∃ s : State, ∃ c : Cmd, s.runs 0x0813 1 1 c [(0, 11), (12, 2), (16, 1)] [(0, 64)] [] = true ∧ c.arg1 ≤ 1048575 ∧
        bitAt c.arg0 16 = false) ∧
    (∃ s : State, ∃ c : Cmd, s.runs 0x0813 1 1 c [(0, 11), (12, 2), (16, 1)] [(0, 64)] [] = true ∧ c.arg1 ≤ 1048575 ∧
        bitAt c.arg0 16 = true) ∧
    (∃ s : State, ∃ c : Cmd, let i := bitsAt c.arg0 0 18; let level := bitsAt c.arg0 18 2; let d := bitsAt c.arg1 0 46;
        let nd := s.node level i; let par := ndParent d; let newPrec := ndPrecision d && !(nd.attached && ndPrecision nd.desc);
        ∃ n : Nat, s.runs 0x0901 1 1 c [(0, 20), (24, 1)] [(0, 46)] [] = true ∧ bitAt c.arg0 24 = false ∧ level ≠ 0 ∧
        i < levelCount level ∧ ndPrio d ≤ 4 ∧ par < levelCount (level - 1) ∧ (level ≠ 1 → bitsAt d 37 9 = 0) ∧
        (ndClientV d = true → s.bindKind par = 1 ∧ s.bindPort par = s.anchorPort (ndClient d)) ∧ s.liveParent (level - 1) par = some n ∧
        (nd.attached = true → s.nodePort level i = some n) ∧
        (nd.attached = true → ndPrecision nd.desc ≠ ndPrecision d → s.children (4 - level) i = []) ∧
        (ndPrio d < 4 → s.siblings (4 - level) par i (ndPrio d) = []) ∧ (newPrec = true → s.precUsed < 4096) ∧
        (ndPrio d = 4 → s.isPrecision (4 - level + 1) par = true → (s.siblings (4 - level) par i 4).length < 64)) ∧
    (∃ s : State, ∃ c : Cmd, let i := bitsAt c.arg0 0 18; let level := bitsAt c.arg0 18 2; s.runs 0x0901 1 1 c [(0, 20), (24, 1)] [(0,
        64)] [] = true ∧ bitAt c.arg0 24 = true ∧ level ≠ 0 ∧ i < levelCount level ∧ (s.node level i).attached = true ∧
        s.children (4 - level) i = []) ∧
    (∃ s : State, ∃ c : Cmd, let i := bitsAt c.arg0 0 18; let level := bitsAt c.arg0 18 2; s.runs 0x0902 1 1 c [(0, 20)] [] [] = true ∧
        level ≠ 0 ∧ i < levelCount level) ∧
    (∃ s : State, ∃ c : Cmd, let r := bitsAt c.arg0 0 21; s.runs 0x0903 1 1 c [(0, 21), (32, 2)] [(0, 64)] [] = true ∧ srefOk r = true ∧
        r / 2 ^ 18 ≠ 5) ∧
    (∃ s : State, ∃ c : Cmd, let r := bitsAt c.arg0 0 21; s.runs 0x0904 1 1 c [(0, 21)] [] [] = true ∧ srefOk r = true) ∧
    (∃ s : State, ∃ c : Cmd, let i := bitsAt c.arg0 0 13; s.runs 0x0905 2 2 c [(0, 13), (24, 2)] [] [(32, 0, 128), (48, 0, 3), (49, 0,
        8)] = true ∧ i ≠ 0 ∧ bitsAt c.arg0 24 2 < 3 ∧ (polPayload c).badConfig = false) ∧
    (∃ s : State, ∃ c : Cmd, let i := bitsAt c.arg0 0 13; s.runs 0x0906 2 2 c [(0, 13)] [] [(32, 0, 64)] = true ∧ i ≠ 0) :=
  ⟨⟨tree w0, cm 2 0 0 (4 * 2 ^ 17), 0, by decide +kernel, by decide +kernel, by decide +kernel, by decide +kernel, by decide +kernel,
      by decide +kernel, by decide +kernel, by decide +kernel, by decide +kernel⟩,
   ⟨(w0.setQueue 1048575 { queue0 with attached := true }), cm 1 1048575 0 0, by decide +kernel, by decide +kernel, by decide +kernel,
       by decide +kernel, by decide +kernel⟩,
   ⟨(w0.setQueue 1048575 { queue0 with attached := true }), cm 1 1048575 1 0, by decide +kernel, by decide +kernel, by decide +kernel,
       by decide +kernel⟩,
   ⟨w0, cm 1 0 0 0, by decide +kernel⟩,
   ⟨w0, cm 1 0 0 0, by decide +kernel, by decide +kernel, by decide +kernel⟩,
   ⟨w0, cm 1 (2 ^ 16 + 2047) 0 0, by decide +kernel, by decide +kernel, by decide +kernel⟩,
   ⟨(w0.fset (Fld.SCH_PORT_BIND_KIND 0) 1), cm 1 (2 ^ 18) (4 * 2 ^ 0) 0, 0, by decide +kernel, by decide +kernel, by decide +kernel,
       by decide +kernel, by decide +kernel, by decide +kernel, by decide +kernel, by decide +kernel, by decide +kernel,
       by decide +kernel, by decide +kernel, by decide +kernel, by decide +kernel, by decide +kernel⟩,
   ⟨(w0.setNode 1 4095 { node0 with attached := true }), cm 1 (2 ^ 24 + 2 ^ 18 + 4095) 0 0, by decide +kernel, by decide +kernel,
       by decide +kernel, by decide +kernel, by decide +kernel, by decide +kernel⟩,
   ⟨w0, cm 1 (3 * 2 ^ 18 + 131071) 0 0, by decide +kernel, by decide +kernel, by decide +kernel⟩,
   ⟨w0, cm 1 0 0 0, by decide +kernel, by decide +kernel, by decide +kernel⟩,
   ⟨w0, cm 1 0 0 0, by decide +kernel, by decide +kernel⟩,
   ⟨w0, cm 2 8191 0 (2 ^ 70 + 2 ^ 102), by decide +kernel, by decide +kernel, by decide +kernel, by decide +kernel⟩,
   ⟨w0, cm 2 8191 0 0, by decide +kernel, by decide +kernel⟩⟩

theorem test_wit_DeadlineUnitTakesEffect :
    (∃ s : State, ∃ c : Cmd, let new : DlnProfile := ⟨bitsAt c.arg1 0 30, bitsAt c.arg0 8 2, bitsAt c.arg0 10 1, bitsAt c.arg0 16 6⟩;
        s.runs 0x0920 1 1 c [(0, 11), (16, 6), (24, 1)] [(0, 30)] [] = true ∧ bitAt c.arg0 24 = false ∧ new.budget ≤ 1000000000 ∧
        new.lateAct ≠ 3) ∧
    (∃ s : State, ∃ c : Cmd, s.runs 0x0920 1 1 c [(0, 11), (16, 6), (24, 1)] [(0, 30)] [] = true ∧ bitAt c.arg0 24 = true) ∧
    (∃ s : State, ∃ c : Cmd, let first := bitsAt c.arg0 0 20; let count := bitsAt c.arg0 32 21; s.runs 0x0921 1 1 c queueFields [(0,
        9)] [] = true ∧ rangeOk first count = true ∧ bitAt c.arg1 8 = false) ∧
    (∃ s : State, ∃ c : Cmd, let first := bitsAt c.arg0 0 20; let count := bitsAt c.arg0 32 21; s.runs 0x0921 1 1 c queueFields [(0,
        9)] [] = true ∧ rangeOk first count = true ∧ bitAt c.arg1 8 = true ∧ count = 1) ∧
    (∃ s : State, ∃ c : Cmd, let p := bitsAt c.arg0 0 7; let first := bitsAt c.arg0 16 10; let count := bitsAt c.arg0 32 10;
        let entry := fun i => c.fld (32 + 8 * i) 0 64; s.runs 0x0922 2 16 c [(0, 7), (16, 10), (32,
        10)] [] ((List.range (min count (4 * (c.len - 1)))).map fun i => (32 + 8 * i, 0, 64)) = true ∧ count ≠ 0 ∧ first + count ≤ 1024 ∧
        count ≤ 4 * (c.len - 1) ∧ (∀ i < count, 16 ≤ bitsAt (entry i) 0 30 ∧ bitsAt (entry i) 0 30 ≤ 999999999 ∧
        bitsAt (entry i) 38 2 ≠ 3 ∧ bitsAt (entry i) 40 24 = 0) ∧ s.gclClosed p = false ∧ s.gclPending p = false) ∧
    (∃ s : State, ∃ c : Cmd, let p := bitsAt c.arg1 16 7;
        let base := (bitsAt c.arg0 32 32 + 2 ^ 32 * bitsAt c.arg1 0 16) * 1000000000 + bitsAt c.arg0 0 32; let cycle := c.fld 32 0 32;
        s.runs 0x0923 2 2 c [(0, 64)] [(0, 23)] [(32, 0, 64), (40, 0, 11)] = true ∧ bitsAt c.arg0 0 32 < 1000000000 ∧
        base ≤ s.nowNs + 60000000000 ∧ 1000 ≤ cycle ∧ cycle ≤ 1000000000 ∧ c.fld 36 0 32 ≤ cycle ∧ c.fld 40 0 11 ≠ 0 ∧
        c.fld 40 0 11 ≤ 1024 ∧ s.gclClosed p = false ∧ s.gclPending p = false) ∧
    (∃ s : State, ∃ c : Cmd, let p := bitsAt c.arg0 0 7; s.runs 0x0924 1 1 c [(0, 7)] [] [] = true ∧ s.gclClosed p = false ∧
        s.gclPending p = true ∧ s.nowNs + 2000 ≤ (s.gate p).cct) ∧
    (∃ s : State, ∃ c : Cmd, let p := bitsAt c.arg0 0 7; let first := bitsAt c.arg0 16 10; let count := bitsAt c.arg0 32 10;
        s.runs 0x0925 2 2 c [(0, 7), (8, 1), (16, 10), (32, 10)] [] [(32, 0, 64)] = true ∧ count ≠ 0 ∧ first + count ≤ 1024 ∧
        s.gclClosed p = false) ∧
    (∃ s : State, ∃ port : Nat, s.gclPending port = true ∧ (s.gate port).cct ≤ s.nowNs ∧ port < 128) ∧
    (∃ s : State, ∃ port : Nat, ∃ e, ∃ i, s.gateAt port s.nowNs = some (e, i)) ∧
    (∃ s : State, ∃ port : Nat, s.fget (Fld.DLN_PORT_STATUS_VERIFY port) = 1 ∧ (s.ptx port).attempts < 3) ∧
    (∃ s : State, ∃ port : Nat, s.fget (Fld.DLN_PORT_STATUS_VERIFY port) = 1 ∧ 3 ≤ (s.ptx port).attempts) ∧
    (∃ s : State, ∃ node : Nat, ∃ q : Nat, ∃ h, ∃ rest : List QPkt, s.fbit Fld.SCH_CFG_EN = true ∧ s.stoppedForwarding = false ∧
        s.fbit (Fld.SCH_PORT_BIND_EN node) = true ∧
        earliestLdt s (((s.tm.queues.map (·.1)).filter fun q => s.candidate node q).filter fun q => s.bindKind
        node != 1 || (s.expressRoom (s.queueLink q
        node) && (match (s.queue q).pkts with | h :: _ => s.voqRoom q (s.queueLink q node) h.pkt | [] => false))) = some q ∧
        (s.queue q).pkts = h :: rest) :=
  ⟨⟨w0, cm 1 255 1000000000 0, by decide +kernel, by decide +kernel, by decide +kernel, by decide +kernel⟩,
   ⟨w0, cm 1 (2 ^ 24 + 255) 0 0, by decide +kernel, by decide +kernel⟩,
   ⟨w0, cm 1 (2 ^ 32 + 1048575) 0 0, by decide +kernel, by decide +kernel, by decide +kernel⟩,
   ⟨w0, cm 1 (2 ^ 32 + 1048575) 256 0, by decide +kernel, by decide +kernel, by decide +kernel, by decide +kernel⟩,
   ⟨(rg w0 [(Reg.PRT_PORT_CFG 15 7, 1)]), cm 2 (127 + 1023 * 2 ^ 16 + 2 ^ 32) 0 16, by decide +kernel, by decide +kernel,
       by decide +kernel, by decide +kernel, by decide +kernel, by decide +kernel, by decide +kernel⟩,
   ⟨(rg w0 [(Reg.PRT_PORT_CFG 15 7, 1)]), cm 2 0 (127 * 2 ^ 16) (1000 + 1000 * 2 ^ 32 + 2 ^ 64), by decide +kernel, by decide +kernel,
       by decide +kernel, by decide +kernel, by decide +kernel, by decide +kernel, by decide +kernel, by decide +kernel,
       by decide +kernel, by decide +kernel⟩,
   ⟨((rg w0 [(Reg.PRT_PORT_CFG 15 7, 1)]).fset (Fld.DLN_PORT_STATUS_PENDING 127) 1).setGate 127 { gate0 with cct := 2000 }, cm 1 127 0 0,
       by decide +kernel, by decide +kernel, by decide +kernel, by decide +kernel⟩,
   ⟨(rg w0 [(Reg.PRT_PORT_CFG 15 7, 1)]), cm 2 (127 + 1023 * 2 ^ 16 + 2 ^ 32) 0 0, by decide +kernel, by decide +kernel,
       by decide +kernel, by decide +kernel⟩,
   ⟨((rg w0 [(Reg.PRT_PORT_CFG 15 7, 1)]).fset (Fld.DLN_PORT_STATUS_PENDING 127) 1), 127, by decide +kernel, by decide +kernel,
       by decide +kernel⟩,
   ⟨((rg w0 [(Reg.PRT_PORT_CFG 15 7,
       1)]).setGate 127 { gate0 with running := true, bankA := { gateBank0 with cycle := 1000, length := 1, entries := [(0, 16)] } }),
       127, ((State.gateAt ((((rg w0 [(Reg.PRT_PORT_CFG 15 7,
       1)]).setGate 127 { gate0 with running := true, bankA := { gateBank0 with cycle := 1000, length := 1, entries := [(0, 16)] } })))
       127 0).getD (0, 0)).1, ((State.gateAt ((((rg w0 [(Reg.PRT_PORT_CFG 15 7,
       1)]).setGate 127 { gate0 with running := true, bankA := { gateBank0 with cycle := 1000, length := 1, entries := [(0, 16)] } })))
       127 0).getD (0, 0)).2, by decide +kernel⟩,
   ⟨w0.fset (Fld.DLN_PORT_STATUS_VERIFY 127) 1, 127, by decide +kernel, by decide +kernel⟩,
   ⟨(w0.fset (Fld.DLN_PORT_STATUS_VERIFY 127) 1).setPtx 127 { ptx0 with attempts := 3 }, 127, by decide +kernel, by decide +kernel⟩,
   ⟨((up (tree w0) 0).setQueue 9 { queue0 with attached := true, desc := 4 * 2 ^ 17 + 3 * 2 ^ 32, pkts := [qpk .shared] }).fset
       Fld.SCH_CFG_EN 1, 0, 9, qpk .shared, ([] : List QPkt), by decide +kernel, by decide +kernel, by decide +kernel, by decide +kernel,
       by decide +kernel⟩⟩

theorem test_wit_FabricLinkEventsTakeEffect :
    (∃ s : State, ∃ l : Nat, s.fabState l = 1) ∧
    (∃ s : State, ∃ l : Nat, s.fabState l = 2 ∧ (s.fabLink l).reachSeen = true) ∧
    (∃ s : State, ∃ l : Nat, s.fabState l = 2 ∧ (s.fabLink l).reachSeen = false) ∧
    (∃ s : State, ∃ l : Nat, 2 ≤ s.fabState l) ∧
    (∃ s : State, ∃ l : Nat, s.fabState l = 4) ∧
    (∃ s : State, ∃ l : Nat, (s.fabState l = 2 ∨ s.fabState l = 3)) ∧
    (∃ s : State, ∃ l : Nat, ∃ nak : Nat, let k := s.fabLink l; let run := if k.nakSeq = nak ∧ k.nakRun ≠ 0 then k.nakRun + 1 else 1;
        16 ≤ run) ∧
    (∃ s : State, ∃ l : Nat, ∃ nak : Nat, let k := s.fabLink l; let run := if k.nakSeq = nak ∧ k.nakRun ≠ 0 then k.nakRun + 1 else 1;
        run < 16) ∧
    (∃ s : State, ∃ l : Nat, (s.fabLink l).replay ≠ []) ∧
    (∃ s : State, ∃ l : Nat, s.fabState l = 3 ∧ (s.fabLink l).unacked ≠ 0) :=
  ⟨⟨w0.fset (Fld.FAB_LINK_CTRL_STATE 159) 1, 159, by decide +kernel⟩,
   ⟨(w0.fset (Fld.FAB_LINK_CTRL_STATE 159) 2).setFabLink 159 { fabLink0 with reachSeen := true }, 159, by decide +kernel,
       by decide +kernel⟩,
   ⟨w0.fset (Fld.FAB_LINK_CTRL_STATE 159) 2, 159, by decide +kernel, by decide +kernel⟩,
   ⟨w0.fset (Fld.FAB_LINK_CTRL_STATE 159) 3, 159, by decide +kernel⟩,
   ⟨w0.fset (Fld.FAB_LINK_CTRL_STATE 159) 4, 159, by decide +kernel⟩,
   ⟨w0.fset (Fld.FAB_LINK_CTRL_STATE 159) 2, 159, by decide +kernel⟩,
   ⟨(w0.fset (Fld.FAB_LINK_CTRL_STATE 159) 2).setFabLink 159 { fabLink0 with nakSeq := 3, nakRun := 15 }, 159, 3, by decide +kernel⟩,
   ⟨w0, 0, 0, by decide +kernel⟩,
   ⟨(w0.fset (Fld.FAB_LINK_CTRL_STATE 159) 2).setFabLink
       159 { fabLink0 with replay := [(0, ⟨0, 0, 0, 0, false, true, true, false, [], 1, none⟩)] }, 159, by decide +kernel⟩,
   ⟨(w0.fset (Fld.FAB_LINK_CTRL_STATE 159) 3).setFabLink 159 { fabLink0 with unacked := 1 }, 159, by decide +kernel, by decide +kernel⟩⟩

theorem test_wit_FabricCellReceived :
    (∃ s : State, ∃ l : Nat, ∃ cell : List Byte,
        let good := decide (16 ≤ cell.length) && leNat (cell.drop (cell.length - 4)) == crc32 (cell.take (cell.length - 4));
        s.fabState l = 3 ∧ s.fbit Fld.FAB_CFG_EN = true ∧ good = false) ∧
    (∃ s : State, ∃ l : Nat, ∃ cell : List Byte, let h := leNat (cell.take 12);
        let good := decide (16 ≤ cell.length) && leNat (cell.drop (cell.length - 4)) == crc32 (cell.take (cell.length - 4));
        s.fabState l = 3 ∧ s.fbit Fld.FAB_CFG_EN = true ∧ good = true ∧ bitsAt h 0 2 = 0 ∧ (s.fabLink l).rxSeq ≠ bitsAt h 53 16) ∧
    (∃ s : State, ∃ l : Nat, ∃ cell : List Byte, let h := leNat (cell.take 12);
        let good := decide (16 ≤ cell.length) && leNat (cell.drop (cell.length - 4)) == crc32 (cell.take (cell.length - 4));
        let key := 2 * bitsAt h 15 11 + b2n (bitsAt h 4 2 == 1); let r := Assoc.get s.tm.reorder reorder0 key;
        let ahead := (bitsAt h 37 16 + 65536 - r.next) % 65536; s.fabState l = 3 ∧ s.fbit Fld.FAB_CFG_EN = true ∧ good = true ∧
        bitsAt h 0 2 = 0 ∧ (s.fabLink l).rxSeq = bitsAt h 53 16 ∧ 32768 ≤ ahead) ∧
    (∃ s : State, ∃ l : Nat, ∃ cell : List Byte, let h := leNat (cell.take 12);
        let good := decide (16 ≤ cell.length) && leNat (cell.drop (cell.length - 4)) == crc32 (cell.take (cell.length - 4));
        let key := 2 * bitsAt h 15 11 + b2n (bitsAt h 4 2 == 1); let r := Assoc.get s.tm.reorder reorder0 key;
        let ahead := (bitsAt h 37 16 + 65536 - r.next) % 65536; s.fabState l = 3 ∧ s.fbit Fld.FAB_CFG_EN = true ∧ ∃ s1, good = true ∧
        bitsAt h 0 2 = 0 ∧ s.acceptLink l (bitsAt h 53 16) = some s1 ∧ ahead = 0 ∧ Assoc.find r.waiting (bitsAt h 37 16) = none) ∧
    (∃ s : State, ∃ l : Nat, ∃ cell : List Byte, let h := leNat (cell.take 12);
        let good := decide (16 ≤ cell.length) && leNat (cell.drop (cell.length - 4)) == crc32 (cell.take (cell.length - 4));
        let key := 2 * bitsAt h 15 11 + b2n (bitsAt h 4 2 == 1); let r := Assoc.get s.tm.reorder reorder0 key;
        let ahead := (bitsAt h 37 16 + 65536 - r.next) % 65536; s.fabState l = 3 ∧ s.fbit Fld.FAB_CFG_EN = true ∧ good = true ∧
        bitsAt h 0 2 = 0 ∧ (s.fabLink l).rxSeq = bitsAt h 53 16 ∧ 0 < ahead ∧ ahead < 32768 ∧
        Assoc.find r.waiting (bitsAt h 37 16) = none ∧ s.storeBytes + (((cell.drop 12).take (bitsAt h 6 9)).length) ≤ 8388608) :=
  ⟨⟨fab 159, 159, [], by decide +kernel, by decide +kernel, by decide +kernel⟩,
   ⟨fab 159, 159, fcell (5 * 2 ^ 53), by decide +kernel, by decide +kernel, by decide +kernel, by decide +kernel, by decide +kernel⟩,
   ⟨fab 159, 159, fcell (65535 * 2 ^ 37), by decide +kernel, by decide +kernel, by decide +kernel, by decide +kernel, by decide +kernel,
       by decide +kernel⟩,
   ⟨fab 159, 159, fcell 0, by decide +kernel, by decide +kernel, _, by decide +kernel, by decide +kernel, someIs w0 (by decide +kernel),
       by decide +kernel, by decide +kernel⟩,
   ⟨fab 159, 159, fcell (32767 * 2 ^ 37), by decide +kernel, by decide +kernel, by decide +kernel, by decide +kernel, by decide +kernel,
       by decide +kernel, by decide +kernel, by decide +kernel, by decide +kernel⟩⟩

theorem test_wit_FabricFlowEventsTakeEffect :
    (∃ s : State, ∃ src : Nat, ∃ express : Bool, ∃ n : Nat, let key := 2 * src + b2n express;
        let r := Assoc.get s.tm.reorder reorder0 key; firstAfter r.next (r.waiting.map (·.1)) = some n ∧ r.current = none ∧ (∀ c,
        Assoc.find r.waiting n = some c → c.first = true)) ∧
    (∃ s : State, ∃ l : Nat, ∃ seq : Nat, s.fabState l = 3 ∧ s.fbit Fld.FAB_CFG_EN = true ∧ (s.fabLink l).rxSeq ≠ seq) ∧
    (∃ s : State, ∃ l : Nat, ∃ seq : Nat, ∃ src : Nat, ∃ port : Nat, ∃ q : Nat, s.fabState l = 3 ∧ s.fbit Fld.FAB_CFG_EN = true ∧
        (s.fabLink l).rxSeq = seq ∧ s.lineNode port = none ∧ (s.tm.cflows.find? fun f => f.src == src && f.queue == q) = none ∧
        s.tm.cflows.length < 131072) ∧
    (∃ s : State, ∃ l : Nat, ∃ seq : Nat, ∃ src : Nat, ∃ port : Nat, ∃ q : Nat, s.fabState l = 3 ∧ s.fbit Fld.FAB_CFG_EN = true ∧
        (s.fabLink l).rxSeq = seq ∧ s.lineNode port = none ∧ (s.tm.cflows.find? fun f => f.src == src && f.queue == q) = none ∧
        131072 ≤ s.tm.cflows.length) ∧
    (∃ s : State, ∃ port : Nat, ∃ n : Nat, ∃ f, ∃ c, ∃ changed, s.lineNode port = some n ∧ let s1 := s.creditRefill n;
        let s2 := s1.setCredit n { s1.credit n with stopped := s1.creditStop n }; s1.creditStop n = false ∧ s2.flowsOn port ≠ [] ∧
        0 ≤ (s2.credit n).tokens ∧ s2.fbit Fld.FAB_CFG_EN = true ∧ s2.chooseFlow n (s2.flowsOn port) (s2.credit n) = some (f, c,
        changed)) ∧
    (∃ s : State, ∃ l : Nat, ∃ seq : Nat, ∃ q : Nat, ∃ epoch : Nat, s.fabState l = 3 ∧ s.fbit Fld.FAB_CFG_EN = true ∧
        (s.fabLink l).rxSeq = seq ∧ (s.queue q).attached = true ∧ (s.queue q).epochSeen ≠ epoch + 1) ∧
    (∃ s : State, ∃ q : Nat, (s.queue q).onSent = true ∧ s.tm.reachable.contains (qdDestDev (s.queue q).desc) = true) ∧
    (∃ s : State, ∃ q : Nat, (s.queue q).rejected = true ∧ (s.queue q).pkts ≠ []) :=
  ⟨⟨tmS w0 fun
      t => { t with reorder := [(15, ⟨0, [(3, (⟨0, 7, 0, 3, true, true, true, false, [], 1, none⟩ : FabCell))], none, false, false⟩)] },
      7, true, 3, by decide +kernel, by decide +kernel, by decide +kernel⟩,
   ⟨(fab 159).fset (Fld.SCH_PORT_BIND_KIND 127) 0, 159, 4, by decide +kernel, by decide +kernel, by decide +kernel⟩,
   ⟨(fab 159).fset (Fld.SCH_PORT_BIND_KIND 127) 0, 159, 0, 7, 127, 9, by decide +kernel, by decide +kernel, by decide +kernel,
       by decide +kernel, by decide +kernel, by decide +kernel⟩,
   ⟨tmS ((fab 159).fset (Fld.SCH_PORT_BIND_KIND 127) 0) fun
       t => { t with cflows := List.replicate 131072 ⟨0, 0, 0, 0, 0, true, 0, 0, 0⟩ }, 159, 0, 7, 127, 9, by decide +kernel,
       by decide +kernel, by decide +kernel, by decide +kernel,
       List.find?_eq_none.mpr (by intro x h; rw [List.eq_of_mem_replicate h]; decide),
       (by show 131072 ≤ (List.replicate 131072 _).length; rw [List.length_replicate])⟩,
   ⟨tmS ((((up (w0.fset (Fld.SCH_PORT_BIND_KIND 0) 1) 0).fset (Fld.FAB_PORT_CRED_EN 0) 1).fset (Fld.FAB_PORT_CRED_STRICT_TC 0)
       0x80).fset Fld.FAB_CFG_EN 1) fun t => { t with cflows := [⟨7, 9, 0, 7, 1, true, 0, 0, 0⟩] }, 0, 0,
       (let s1 := State.creditRefill ((tmS ((((up (w0.fset (Fld.SCH_PORT_BIND_KIND 0) 1) 0).fset (Fld.FAB_PORT_CRED_EN 0) 1).fset (Fld.FAB_PORT_CRED_STRICT_TC 0) 0x80).fset Fld.FAB_CFG_EN 1) fun t => { t with cflows := [⟨7, 9, 0, 7, 1, true, 0, 0, 0⟩] })) 0; let s2 := s1.setCredit 0 { s1.credit 0 with stopped := s1.creditStop 0 }; (State.chooseFlow s2 0 (s2.flowsOn 0) (s2.credit 0)).getD (⟨7, 9, 0, 7, 1, true, 0, 0, 0⟩, credit0, [])).1, (let s1 := State.creditRefill ((tmS ((((up (w0.fset (Fld.SCH_PORT_BIND_KIND 0) 1) 0).fset (Fld.FAB_PORT_CRED_EN 0) 1).fset (Fld.FAB_PORT_CRED_STRICT_TC 0) 0x80).fset Fld.FAB_CFG_EN 1) fun t => { t with cflows := [⟨7, 9, 0, 7, 1, true, 0, 0, 0⟩] })) 0; let s2 := s1.setCredit 0 { s1.credit 0 with stopped := s1.creditStop 0 }; (State.chooseFlow s2 0 (s2.flowsOn 0) (s2.credit 0)).getD (⟨7, 9, 0, 7, 1, true, 0, 0, 0⟩, credit0, [])).2.1, (let s1 := State.creditRefill ((tmS ((((up (w0.fset (Fld.SCH_PORT_BIND_KIND 0) 1) 0).fset (Fld.FAB_PORT_CRED_EN 0) 1).fset (Fld.FAB_PORT_CRED_STRICT_TC 0) 0x80).fset Fld.FAB_CFG_EN 1) fun t => { t with cflows := [⟨7, 9, 0, 7, 1, true, 0, 0, 0⟩] })) 0; let s2 := s1.setCredit 0 { s1.credit 0 with stopped := s1.creditStop 0 }; (State.chooseFlow s2 0 (s2.flowsOn 0) (s2.credit 0)).getD (⟨7, 9, 0, 7, 1, true, 0, 0, 0⟩, credit0, [])).2.2, by decide +kernel, by decide +kernel, by decide +kernel, by decide +kernel, by decide +kernel, by decide +kernel⟩,
   ⟨(fab 159).setQueue 9 { queue0 with attached := true }, 159, 0, 9, 3, by decide +kernel, by decide +kernel, by decide +kernel,
       by decide +kernel, by decide +kernel⟩,
   ⟨tmS w0 fun t => { t with reachable := [0], queues := [(9, { queue0 with onSent := true })] }, 9, by decide +kernel,
       by decide +kernel⟩,
   ⟨tmS w0 fun t => { t with queues := [(9, { queue0 with rejected := true, pkts := [qpk .shared] })] }, 9, by decide +kernel,
       by decide +kernel⟩⟩

theorem test_wit_FabricCommandsComplete :
    (∃ s : State, ∃ c : Cmd, s.runs 0x0930 1 1 c [(0, 11), (16, 1), (24, 1)] [(0, 64)] [] = true ∧ bitAt c.arg0 24 = false ∧
        (bitAt c.arg0 16 = true → 64 ≤ bitsAt c.arg1 32 32)) ∧
    (∃ s : State, ∃ c : Cmd, s.runs 0x0930 1 1 c [(0, 11), (16, 1), (24, 1)] [(0, 64)] [] = true ∧ bitAt c.arg0 24 = true) ∧
    (∃ s : State, ∃ c : Cmd, let q := bitsAt c.arg0 0 20; ∃ n : Nat, s.runs 0x0931 1 1 c [(0, 20)] [] [] = true ∧
        s.queuePort q = some n ∧ s.bindKind n = 2) :=
  ⟨⟨w0, cm 1 0 0 0, by decide +kernel, by decide +kernel, by decide +kernel⟩,
   ⟨w0, cm 1 (2 ^ 24 + 2047) 0 0, by decide +kernel, by decide +kernel⟩,
   ⟨((tree w0).fset (Fld.SCH_PORT_BIND_KIND 0) 2).setQueue 9 { queue0 with attached := true }, cm 1 9 0 0, 0, by decide +kernel,
       by decide +kernel, by decide +kernel⟩⟩

theorem test_wit_ForwardingEventsTakeEffect :
    (∃ s : State, s.fbit Fld.LSW_CFG_EN = true ∧ s.stoppedForwarding = false) ∧
    (∃ s : State, ∃ id : Nat, ∃ x, s.tm.leaving.find? (·.pkt.id == id) = some x ∧
        (s.tm.voq.any fun kv => kv.2.any fun v => v.qp.pkt.id == id) = false ∧ (s.tm.cutQ.any (·.pkt.id == id)) = false) ∧
    (∃ s : State, ∃ input : Nat, ∃ p, ∃ rest, Assoc.get s.tm.inputs [] input = p :: rest ∧ s.stoppedForwarding = false) ∧
    (∃ s : State, ∃ node : Nat, ∃ s1, ∃ q : Nat, ∃ h, ∃ rest : List QPkt, s.fbit Fld.SCH_CFG_EN = true ∧ s.stoppedForwarding = false ∧
        s.eligible 4 node = true ∧ State.pickQueue 4 node s = (s1, some q) ∧ (s1.queue q).pkts = h :: rest ∧
        (s1.bindKind node = 1 → s1.voqRoom q (s1.queueLink q node) h.pkt = true)) :=
  ⟨⟨w0.fset Fld.LSW_CFG_EN 1, by decide +kernel, by decide +kernel⟩,
   ⟨tmS w0 fun t => { t with leaving := [qpk .shared] }, 1, qpk .shared, by decide +kernel, by decide +kernel, by decide +kernel⟩,
   ⟨tmS w0 fun t => { t with inputs := [(51, [pk, pk])] }, 51, pk, [pk], by decide +kernel, by decide +kernel⟩,
   ⟨tmS (((((up ((tree w0).setNode 1 0 { node0 with attached := true, desc := 1 }) 0).setNode 2
       0 { node0 with attached := true, desc := 1 }).setNode 3 0 { node0 with attached := true, desc := 1 }).fset Fld.LSW_CFG_EN 1).fset
       (Fld.SCH_PORT_BIND_EN 0) 1 |>.fset Fld.SCH_CFG_EN 1) fun
       t => { t with queues := [(9, { queue0 with attached := true, pkts := [qpk .shared] })] }, 0, _, 9, qpk .shared, ([] : List QPkt),
       by decide +kernel, by decide +kernel, by decide +kernel, Prod.ext rfl (by decide +kernel), by decide +kernel, by decide +kernel⟩⟩

theorem test_wit_IngressEventsTakeEffect :
    (∃ s : State, s.stoppedForwarding = false ∧ ∃ slice : Nat, ∃ idle : Nat, slice < 16 ∧ (s.slice slice).frozen = false ∧
        s.fget (Fld.PWR_DOM_STATE_STATE (3 + slice)) ≤ 1 ∧
        let s1 := (s.earnCredit slice idle).pmc 0x013 slice 0 (2 * idle - (s.slice slice).grants); let x := (s1.slice slice).tick idle;
        x.nextPass (!s.dieResetRuns) = none) ∧
    (∃ s : State, s.stoppedForwarding = false ∧ ∃ slice : Nat, ∃ idle : Nat, slice < 16 ∧ (s.slice slice).frozen = false ∧
        s.fget (Fld.PWR_DOM_STATE_STATE (3 + slice)) ≤ 1 ∧
        let s1 := (s.earnCredit slice idle).pmc 0x013 slice 0 (2 * idle - (s.slice slice).grants); let x := (s1.slice slice).tick idle;
        ∃ waiting, ∃ y, x.nextPass (!s.dieResetRuns) = some (waiting, y) ∧ x.grants < 2 ∧
        x.slots (s.fget Fld.CAM_STATUS_STEP) ≤ x.grants) ∧
    (∃ s : State, s.stoppedForwarding = false ∧ ∃ slice : Nat, ∃ idle : Nat, slice < 16 ∧ (s.slice slice).frozen = false ∧
        s.fget (Fld.PWR_DOM_STATE_STATE (3 + slice)) ≤ 1 ∧
        let s1 := (s.earnCredit slice idle).pmc 0x013 slice 0 (2 * idle - (s.slice slice).grants); let x := (s1.slice slice).tick idle;
        ∃ waiting, ∃ y, x.nextPass (!s.dieResetRuns) = some (waiting, y) ∧ x.grants < 2 ∧
        x.grants < x.slots (s.fget Fld.CAM_STATUS_STEP)) ∧
    (∃ s : State, s.stoppedForwarding = false ∧ ∃ slice : Nat, slice < 16 ∧ (s.slice slice).frozen = true) ∧
    (∃ s : State, s.stoppedForwarding = false ∧ ∃ slice : Nat, ∃ q, ∃ rest : List Pass, (s.slice slice).passes = q :: rest ∧
        q.issued = true) ∧
    (∃ s : State, s.stoppedForwarding = false ∧ ∃ slice : Nat, ∃ p, ∃ rest : List Pkt, takeComplete (s.slice slice).recircWait = some (p,
        rest) ∧ let x := s.slice slice;
        let full := decide (512 ≤ x.recirc.length) || decide (1048576 < x.recirc.foldl (fun n q => n + q.bytes.length) p.bytes.length);
        full = false) ∧
    (∃ s : State, s.stoppedForwarding = false ∧ ∃ slice : Nat, ∃ p, ∃ rest : List Pkt, takeComplete (s.slice slice).recircWait = some (p,
        rest) ∧ let x := s.slice slice;
        let full := decide (512 ≤ x.recirc.length) || decide (1048576 < x.recirc.foldl (fun n q => n + q.bytes.length) p.bytes.length);
        full = true) ∧
    (∃ s : State, s.stoppedForwarding = false ∧ ∃ slice : Nat, ∃ r : ReplReq, ∃ rest : List ReplReq, (s.slice slice).repl = r :: rest ∧
        let s1 := s.setSlice slice { s.slice slice with repl := rest }; s1.floodMembers r.group r.pkt = []) ∧
    (∃ s : State, s.stoppedForwarding = false ∧ ∃ slice : Nat, ∃ r : ReplReq, ∃ rest : List ReplReq, (s.slice slice).repl = r :: rest ∧
        let s1 := s.setSlice slice { s.slice slice with repl := rest }; ∃ m : Nat, ∃ ms : List Nat,
        s1.floodMembers r.group r.pkt = m :: ms) :=
  ⟨⟨w0, by decide +kernel, 15, 0, by decide +kernel, by decide +kernel, by decide +kernel, by decide +kernel⟩,
   ⟨(w0.fset Fld.CAM_STATUS_STEP 2).setSlice 15 { slice0 with hold := [pk], grants := 1 }, by decide +kernel, 15, 0, by decide +kernel,
       by decide +kernel, by decide +kernel, pk,
       (((((w0.fset Fld.CAM_STATUS_STEP 2).setSlice 15 { slice0 with hold := [pk], grants := 1 }).slice 15).nextPass true).getD (pk,
       slice0)).2, by decide +kernel, by decide +kernel, by decide +kernel⟩,
   ⟨w0.setSlice 15 { slice0 with hold := [pk], grants := 1 }, by decide +kernel, 15, 0, by decide +kernel, by decide +kernel,
       by decide +kernel, pk, ((((w0.setSlice 15 { slice0 with hold := [pk], grants := 1 }).slice 15).nextPass true).getD (pk,
       slice0)).2, by decide +kernel, by decide +kernel, by decide +kernel⟩,
   ⟨w0.setSlice 15 { slice0 with frozen := true }, by decide +kernel, 15, by decide +kernel, by decide +kernel⟩,
   ⟨w0.setSlice 15 { slice0 with passes := [pass] }, by decide +kernel, 15, pass, ([] : List Pass), by decide +kernel, by decide +kernel⟩,
   ⟨w0.setSlice 15 { slice0 with recircWait := [pk] }, by decide +kernel, 15, pk, ([] : List Pkt), by decide +kernel, by decide +kernel⟩,
   ⟨w0.setSlice 15 { slice0 with recircWait := [pk], recirc := List.replicate 512 pk }, by decide +kernel, 15, pk, ([] : List Pkt),
       by decide +kernel, by decide +kernel⟩,
   ⟨w0.setSlice 15 { slice0 with repl := [(⟨pk, 0, none⟩ : ReplReq)] }, by decide +kernel, 15, (⟨pk, 0, none⟩ : ReplReq),
       ([] : List ReplReq), by decide +kernel, by decide +kernel⟩,
   ⟨(tb w0 fun t => { t with repl := [ver ⟨0, 0, false⟩], replBlocks := [⟨0, [5], [], none⟩] }).setSlice
       15 { slice0 with repl := [(⟨pk, 0, none⟩ : ReplReq)] }, by decide +kernel, 15, (⟨pk, 0, none⟩ : ReplReq), ([] : List ReplReq),
       by decide +kernel, 5, ([] : List Nat), by decide +kernel⟩⟩

theorem test_wit_EgressAndMacEventsTakeEffect :
    (∃ s : State, s.stoppedForwarding = false ∧ ∃ slice : Nat, ∃ p, ∃ rest : List Pkt, Assoc.get s.tm.egressIn [] slice = p :: rest) ∧
    (∃ s : State, s.stoppedForwarding = false ∧ ∃ link : Nat, ∃ f : TxFrame, (s.ptx link).sending = some f ∧ f.pkt.complete = true) ∧
    (∃ s : State, s.stoppedForwarding = false ∧ ∃ link : Nat, ∃ k : Nat, ∃ f : TxFrame, (s.ptx link).sending = none ∧
        let s0 := s.countDeferred link; s0.grantFrom link = some k ∧ k < 8 ∧ (s0.ptx link).head k = some f) ∧
    (∃ s : State, s.stoppedForwarding = false ∧ ∃ link : Nat, link < 384 ∧ s.linkState link ≠ 0 ∧ s.linkServed link = false) ∧
    (∃ s : State, s.stoppedForwarding = false ∧ ∃ link : Nat, ∃ bytes : List Byte, link < 384 ∧ s.linkState link ≠ 0 ∧ ∃ op : Nat,
        s.linkServed link = true ∧ controlOpcode bytes = some op) ∧
    (∃ s : State, s.stoppedForwarding = false ∧ ∃ link : Nat, ∃ bytes : List Byte, link < 384 ∧ s.linkState link ≠ 0 ∧
        s.linkServed link = true ∧ controlOpcode bytes = none) ∧
    (∃ s : State, s.stoppedForwarding = false ∧ ∃ link : Nat, ∃ f : RxFrame, Assoc.find s.ports.rx link = some f ∧ f.off = false ∧
        rxCause f.len (s.linkMaxFrame link) 0 = none ∧ f.control = none ∧ f.id = none) :=
  ⟨⟨tmS w0 fun t => { t with egressIn := [(15, [pk])] }, by decide +kernel, 15, pk, ([] : List Pkt), by decide +kernel⟩,
   ⟨w0.setPtx 383 { ptx0 with sending := some (⟨pk, 0, false, 0⟩ : TxFrame) }, by decide +kernel, 383, (⟨pk, 0, false, 0⟩ : TxFrame),
       by decide +kernel, by decide +kernel⟩,
   ⟨(up w0 127).setPtx 127 { ptx0 with classes := [(7, [(⟨pk, 0, false, 0⟩ : TxFrame)])] }, by decide +kernel, 127, 7, (⟨pk, 0, false,
       0⟩ : TxFrame), by decide +kernel, by decide +kernel, by decide +kernel, by decide +kernel⟩,
   ⟨w0.fset (Fld.PRT_PORT_STATUS_STATE 15 7) 2, by decide +kernel, 127, by decide +kernel, by decide +kernel, by decide +kernel⟩,
   ⟨up w0 127, by decide +kernel, 127, (List.replicate 12 0 ++ [0x88, 8, 0, 1] : List Byte), by decide +kernel, by decide +kernel, 1,
       by decide +kernel, by decide +kernel⟩,
   ⟨up w0 127, by decide +kernel, 127, ([] : List Byte), by decide +kernel, by decide +kernel, by decide +kernel, by decide +kernel⟩,
   ⟨({ (up w0 127) with ports := { w0.ports with rx := [(127, (⟨none, 64, none, false⟩ : RxFrame))] } } : State), by decide +kernel, 127,
       (⟨none, 64, none, false⟩ : RxFrame), by decide +kernel, by decide +kernel, by decide +kernel, by decide +kernel,
       by decide +kernel⟩⟩

theorem test_wit_PortEventsTakeEffect :
    (∃ s : State, ∃ group : Nat, s.fbit (Fld.PRT_GRP_CTRL_CAL_BUSY group) = true) ∧
    (∃ port : Nat, port < 128) ∧
    (∃ s : State, ∃ port : Nat, s.linkServed port = true ∧ s.linkGood port = false) ∧
    (∃ s : State, ∃ port < 128, s.linkState port = 3 ∧ s.linkGood port = true ∧ s.calHolds port = false) ∧
    (∃ s : State, ∃ link : Nat, s.ports.holdoff.contains link = true ∧ s.linkState link ≠ 3) ∧
    (∃ s : State, ∃ link : Nat, ∃ f : Flush,
        (s.tm.flushes.find? fun (f : Flush) => match f.owner with | .port k => k == link | _ => false) = some f) ∧
    (∃ s : State, ∃ link : Nat, s.linkState link = 4) ∧
    (∃ s : State, ∃ port : Nat, s.ports.portCal.contains port = true) ∧
    (∃ s : State, ∃ port : Nat, port < 128 ∧ s.linkServed port = true ∧ s.isFlexePhy port = false) ∧
    (∃ s : State, ∃ port : Nat, ∃ n : Nat, s.lineNode port = some n) :=
  ⟨⟨w0.fset (Fld.PRT_GRP_CTRL_CAL_BUSY 15) 1, 15, by decide +kernel⟩,
   ⟨127, by decide +kernel⟩,
   ⟨w0.fset (Fld.PRT_PORT_STATUS_STATE 15 7) 5, 127, by decide +kernel, by decide +kernel⟩,
   ⟨(w0.fset (Fld.PRT_PORT_STATUS_STATE 15 7) 3).fset (Fld.PRT_PORT_STATUS_PCS_LOCK 15 7) 1, 127, by decide +kernel, by decide +kernel,
       by decide +kernel, by decide +kernel⟩,
   ⟨({ w0 with ports := { w0.ports with holdoff := [383] } } : State), 383, by decide +kernel, by decide +kernel⟩,
   ⟨tmS w0 fun t => { t with flushes := [(⟨.port 383, 1, []⟩ : Flush)] }, 383, (⟨.port 383, 1, []⟩ : Flush), by decide +kernel⟩,
   ⟨w0.fset (Fld.PRT_PORT_STATUS_STATE 15 7) 4, 127, by decide +kernel⟩,
   ⟨({ w0 with ports := { w0.ports with portCal := [127] } } : State), 127, by decide +kernel⟩,
   ⟨w0.fset (Fld.PRT_PORT_STATUS_STATE 15 7) 5, 127, by decide +kernel, by decide +kernel, by decide +kernel⟩,
   ⟨(w0.fset (Fld.SCH_PORT_BIND_KIND 0) 1).fset (Fld.SCH_PORT_BIND_LINE_PORT 0) 127, 127, 0, by decide +kernel⟩⟩

theorem test_wit_FlexeCommandsComplete :
    (∃ s : State, ∃ c : Cmd, let f := bitsAt c.arg0 0 5; let dir := bitAt c.arg0 8; let first := bitsAt c.arg0 16 9;
        let count := bitsAt c.arg0 32 9; s.runs 0x0A01 2 16 c [(0, 5), (8, 1), (16, 9), (32, 9)] [] [(32, 0, 16 * count)] = true ∧
        0 < count ∧ count ≤ 16 * (c.len - 1) ∧ s.groupEn f = true ∧ first + count ≤ s.groupSlots f ∧ s.switching f = false ∧
        (dir = true → s.fbit (Fld.FXE_GRP_CFG_RX_CAL_AUTO f) = false)) ∧
    (∃ s : State, ∃ c : Cmd, let f := bitsAt c.arg0 0 5; s.runs 0x0A02 1 1 c [(0, 5), (8, 2), (16, 9)] [] [] = true ∧
        s.groupEn f = true) ∧
    (∃ s : State, ∃ c : Cmd, let t := (bitsAt c.arg0 32 32 + 2 ^ 32 * bitsAt c.arg1 0 16) * 1000000000 + bitsAt c.arg0 0 32;
        let asap := bitAt c.arg1 16; let f := bitsAt c.arg1 17 5; let fs := if bitAt c.arg1 22 then [f, pairOf f] else [f];
        s.runs 0x0A03 1 1 c [(0, 64)] [(0, 23), (32, 16)] [] = true ∧ bitsAt c.arg1 32 16 ≠ 0 ∧ bitsAt c.arg0 0 32 < 1000000000 ∧
        (asap = false → t ≤ s.nowNs + 60000000000) ∧ (∀ g ∈ fs, s.groupEn g = true ∧ s.switching g = false) ∧ (∀ g ∈ fs,
        pageOk (s.group g).txCal (s.groupSlots g) (1 - s.txPage g) = true ∧
        ∀ id ∈ pageIds (s.group g).txCal (s.groupSlots g) (1 - s.txPage g), (s.groupIds g).contains id = true) ∧
        s.sizesAgree fs (f / 2) = true) ∧
    (∃ s : State, ∃ c : Cmd, let f := bitsAt c.arg0 0 5; s.runs 0x0A04 1 1 c [(0, 5), (8, 1)] [] [] = true ∧ s.groupEn f = true ∧
        s.switching f = false) ∧
    (∃ s : State, ∃ c : Cmd, let cl := bitsAt c.arg0 0 8; let op := bitsAt c.arg0 8 3; s.runs 0x0A05 1 1 c [(0, 11)] [] [] = true ∧
        op ≤ 5 ∧ s.clientEn cl = true ∧ s.clientProt cl = true) ∧
    (∃ s : State, ∃ c : Cmd, s.runs 0x0A06 2 2 c [] [] mgmtFields = true ∧ 64 ≤ c.fld 40 0 16 ∧ c.fld 40 0 16 ≤ 1518 ∧
        s.groupEn (c.fld 42 0 5) = true) ∧
    (∃ s : State, ∃ c : Cmd, let f := c.fld 42 0 5; let mine := fun (m : MgmtPkt) => m.channel == c.fld 43 0 1; ∃ m : MgmtPkt,
        s.runs 0x0A07 2 2 c [] [] mgmtFields = true ∧ s.groupEn f = true ∧ (s.group f).mgmt.find? mine = some m ∧
        m.bytes.length ≤ c.fld 40 0 16) :=
  ⟨⟨phy, cm 2 (30 + 2 ^ 32) 0 0, by decide +kernel, by decide +kernel, by decide +kernel, by decide +kernel, by decide +kernel,
      by decide +kernel, by decide +kernel⟩,
   ⟨phy, cm 1 30 0 0, by decide +kernel, by decide +kernel⟩,
   ⟨phy, cm 1 0 (2 ^ 16 + 30 * 2 ^ 17 + 2 ^ 32) 0, by decide +kernel, by decide +kernel, by decide +kernel, by decide +kernel,
       by decide +kernel, by decide +kernel, by decide +kernel⟩,
   ⟨phy, cm 1 30 0 0, by decide +kernel, by decide +kernel, by decide +kernel⟩,
   ⟨rg w0 [(Reg.FXE_CLIENT_CFG 255, 1), (Reg.FXE_CLIENT_PROT 255, 1)], cm 1 (255 + 5 * 2 ^ 8) 0 0, by decide +kernel, by decide +kernel,
       by decide +kernel, by decide +kernel⟩,
   ⟨phy, cm 2 0 0 (64 * 2 ^ 64 + 30 * 2 ^ 80), by decide +kernel, by decide +kernel, by decide +kernel, by decide +kernel⟩,
   ⟨phy.setGroup 30 { flexeGroup0 with mgmt := [(⟨0, [1, 2]⟩ : MgmtPkt)] }, cm 2 0 0 (64 * 2 ^ 64 + 30 * 2 ^ 80), (⟨0, [1,
       2]⟩ : MgmtPkt), by decide +kernel, by decide +kernel, by decide +kernel, by decide +kernel⟩⟩

theorem test_wit_FlexeEventsTakeEffect :
    (∃ s : State, ∃ port : Nat, ∃ inst : Nat, ∃ o, ∃ f : Nat, port < 128 ∧ s.isFlexePhy port = true ∧ s.groupOfPort port = some f ∧
        inst < s.phyInstances port ∧ let s1 := (s.phyAdd port 0 1).phyAdd port 1 (b2n (!o.crcOk));
        let x := (s1.oh port inst).frame o (s1.fget (Fld.FXE_GRP_CFG_GROUP_NUM f)) (s1.phyNum f (port % 8)) (s1.group f).rxCal (s1.instBase f port inst) (s1.rxPage f); let s2 := (s1.setOh port inst x).settleDefects port; let s3 := (s2.fset (Fld.FXE_GRP_STATUS_SKEW_NS f) (min o.skewNs 65535)).fset (Fld.FXE_GRP_STATUS_SKEW_EXCEED f) (b2n (decide (10000 < o.skewNs))); bitAt (s3.fget (Fld.FXE_PHY_DEF_RAW port)) 0 = true) ∧
    (∃ s : State, ∃ port : Nat, ∃ inst : Nat, ∃ o, ∃ f : Nat, port < 128 ∧ s.isFlexePhy port = true ∧ s.groupOfPort port = some f ∧
        inst < s.phyInstances port ∧ let s1 := (s.phyAdd port 0 1).phyAdd port 1 (b2n (!o.crcOk));
        let x := (s1.oh port inst).frame o (s1.fget (Fld.FXE_GRP_CFG_GROUP_NUM f)) (s1.phyNum f (port % 8)) (s1.group f).rxCal (s1.instBase f port inst) (s1.rxPage f); let s2 := (s1.setOh port inst x).settleDefects port; let s3 := (s2.fset (Fld.FXE_GRP_STATUS_SKEW_NS f) (min o.skewNs 65535)).fset (Fld.FXE_GRP_STATUS_SKEW_EXCEED f) (b2n (decide (10000 < o.skewNs))); bitAt (s3.fget (Fld.FXE_PHY_DEF_RAW port)) 0 = false) ∧
    (∃ s : State, ∃ f : Nat, ∃ index : Nat, s.groupEn f = true ∧ 0 < index ∧ index < 32 ∧ (s.group f).crClear = false) ∧
    (∃ s : State, ∃ f : Nat, s.groupEn f = true ∧ (s.group f).switch = none ∧ (s.group f).crClear = false) ∧
    (∃ s : State, ∃ port : Nat, ∃ d : Nat, port < 128 ∧ d < 7 ∧ s.isFlexePhy port = true ∧
        let raw := bitAt (s.fget (Fld.FXE_PHY_DEF_RAW port)) d; raw ≠ bitAt (s.fget (Fld.FXE_PHY_DEF_FAIL port)) d) ∧
    (∃ s : State, ∃ f : Nat, ∃ channel : Nat, s.groupEn f = true ∧ ((s.group f).mgmt.filter (·.channel == channel)).length < 64) ∧
    (∃ s : State, ∃ f : Nat, ∃ channel : Nat, s.groupEn f = true ∧ 64 ≤ ((s.group f).mgmt.filter (·.channel == channel)).length) ∧
    (∃ s : State, ∃ f : Nat, ∃ w : CalSwitch, ∃ t : Nat, f < 32 ∧ (s.group f).switch = some w ∧ w.caAt = some t ∧ w.atM1 = true ∧
        t + 104770 ≤ s.nowNs ∧ (∀ i, w.instant = some i → i ≤ s.nowNs)) ∧
    (∃ s : State, ∃ f : Nat, ∃ w : CalSwitch, f < 32 ∧ (s.group f).switch = some w) ∧
    (∃ s : State, ∃ c : Nat, s.linkServed (128 + c) = true ∧ s.linkGood (128 + c) = false ∧
        let s1 := (s.leaveUp (128 + c)).linkEvent (128 + c) 1; s1.holdoffMs (128 + c) = 0) ∧
    (∃ s : State, ∃ c < 256, s.linkState (128 + c) = 3 ∧ s.linkGood (128 + c) = true ∧ s.calHolds (128 + c) = false) ∧
    (∃ s : State, ∃ c : Nat, ∃ path : Nat, c < 256 ∧ path < 2 ∧ s.clientProt c = true ∧
        (if path = 0 then s.fbit (Fld.FXE_CLIENT_STATUS_SF_WORK c) else s.fbit (Fld.FXE_CLIENT_STATUS_SF_PROT c)) = true) ∧
    (∃ s : State, ∃ c : Nat, s.ports.wtr.contains c = true) :=
  ⟨⟨phy.setOh 120 0 { oh0 with raw := 1 }, 120, 0, { ohf with blocks := List.replicate 32 false }, 30, by decide +kernel,
      by decide +kernel, by decide +kernel, by decide +kernel, by decide +kernel⟩,
   ⟨phy, 120, 0, ohf, 30, by decide +kernel, by decide +kernel, by decide +kernel, by decide +kernel, by decide +kernel⟩,
   ⟨phy, 30, 31, by decide +kernel, by decide +kernel, by decide +kernel, by decide +kernel⟩,
   ⟨phy, 30, by decide +kernel, by decide +kernel, by decide +kernel⟩,
   ⟨phy.fset (Fld.FXE_PHY_DEF_RAW 120) 64, 120, 6, by decide +kernel, by decide +kernel, by decide +kernel, by decide +kernel⟩,
   ⟨phy, 30, 1, by decide +kernel, by decide +kernel⟩,
   ⟨phy.setGroup 30 { flexeGroup0 with mgmt := List.replicate 64 ⟨0, []⟩ }, 30, 0, by decide +kernel, by decide +kernel⟩,
   ⟨(({ w0 with tim := { w0.tim with dom0 := { timeZero with sec := 1 } } } : State)).setGroup
       31 { flexeGroup0 with switch := some (⟨cm 1 0 0 0, none, false, true, some 0⟩ : CalSwitch) }, 31, (⟨cm 1 0 0 0, none, false, true,
       some 0⟩ : CalSwitch), 0, by decide +kernel, by decide +kernel, by decide +kernel, by decide +kernel, by decide +kernel,
       by decide +kernel⟩,
   ⟨w0.setGroup 31 { flexeGroup0 with switch := some (⟨cm 1 0 0 0, none, false, true, some 0⟩ : CalSwitch) }, 31, (⟨cm 1 0 0 0, none,
       false, true, some 0⟩ : CalSwitch), by decide +kernel, by decide +kernel⟩,
   ⟨(w0.fset (Fld.FXE_CLIENT_STATUS_STATE 255) 5).fset (Fld.PRT_PORT_DOWN_HOLDOFF_MS (w0.linkPort 383 / 8) (w0.linkPort 383 % 8)) 0, 255,
       by decide +kernel, by decide +kernel, by decide +kernel⟩,
   ⟨((rg phy [(Reg.FXE_CLIENT_CFG 255,
       1 + 5 * 2 ^ 16)]).setGroup 30 { flexeGroup0 with rxCal := [(0, 5)] }).fset (Fld.FXE_CLIENT_STATUS_STATE 255) 3, 255,
       by decide +kernel, by decide +kernel, by decide +kernel, by decide +kernel⟩,
   ⟨rg (w0.fset (Fld.FXE_CLIENT_STATUS_SF_PROT 255) 1) [(Reg.FXE_CLIENT_PROT 255, 1)], 255, 1, by decide +kernel, by decide +kernel,
       by decide +kernel, by decide +kernel⟩,
   ⟨({ w0 with ports := { w0.ports with wtr := [255] } } : State), 255, by decide +kernel⟩⟩

theorem test_wit_ParserCommandsComplete :
    (∃ s : State, ∃ c : Cmd, s.genClosing = false ∧ let off := c.fld 40 0 20; let len := c.fld 44 0 20; ∃ bytes : List Byte,
        s.runs 0x0320 2 2 c [] [] parFields = true ∧ parRange off len = true ∧ s.buildOpen = true ∧
        s.fget Fld.GEN_STATE_HOLDER = s.cmdMaster c ∧ let g := s.buildGen;
        let b := (s.bank (s.fget (fldGenBank g))).write off (bytes.take len ++ List.replicate (len - bytes.length) 0);
        b.validate = none) ∧
    (∃ s : State, ∃ c : Cmd, s.genClosing = false ∧ let off := c.fld 40 0 20; let len := c.fld 44 0 20; ∃ bytes : List Byte,
        s.runs 0x0320 2 2 c [] [] parFields = true ∧ parRange off len = true ∧ s.buildOpen = true ∧
        s.fget Fld.GEN_STATE_HOLDER = s.cmdMaster c ∧ let g := s.buildGen;
        let b := (s.bank (s.fget (fldGenBank g))).write off (bytes.take len ++ List.replicate (len - bytes.length) 0); ∃ rule : Nat,
        ∃ at' : Nat, b.validate = some (rule, at')) ∧
    (∃ s : State, ∃ c : Cmd, s.genClosing = false ∧ let off := c.fld 40 0 20; let len := c.fld 44 0 20; let g := bitsAt c.arg0 0 2;
        s.runs 0x0321 2 2 c [(0, 2)] [] parFields = true ∧ parRange off len = true ∧ s.genReadable g = true) :=
  ⟨⟨wp gbank, cm 2 0 0 (81916 * 2 ^ 64 + 4 * 2 ^ 96), by decide +kernel, ([] : List Byte), by decide +kernel, by decide +kernel,
      by decide +kernel, by decide +kernel, (congrArg Bank.validate (by decide +kernel : _ = gbank)).trans gbank_valid⟩,
   ⟨wp ⟨false, []⟩, cm 2 0 0 (81916 * 2 ^ 64 + 4 * 2 ^ 96), by decide +kernel, ([] : List Byte), by decide +kernel, by decide +kernel,
       by decide +kernel, by decide +kernel, 1, 4, by decide +kernel⟩,
   ⟨w0, cm 2 0 0 (81916 * 2 ^ 64 + 4 * 2 ^ 96), by decide +kernel, by decide +kernel, by decide +kernel, by decide +kernel⟩⟩

theorem test_wit_TimeCommandsComplete :
    (∃ s : State, ∃ c : Cmd, s.runs 0x0B01 1 1 c [(0, 1)] [] [] = true) ∧
    (∃ s : State, ∃ c : Cmd, let d := bitsAt c.arg1 16 1; s.runs 0x0B02 1 1 c [(0, 64)] [(0, 17)] [] = true ∧
        bitsAt c.arg0 0 32 < 1000000000 ∧ s.timOwned c = true ∧ (s.timeDomain d).permit = true) ∧
    (∃ s : State, ∃ c : Cmd, let d := bitsAt c.arg1 0 1; let off := signed c.arg0 64; let new := ((s.timeDomain d).count : Int) + off;
        s.runs 0x0B03 1 1 c [(0, 64)] [(0, 1)] [] = true ∧ off.natAbs < 2 ^ 62 ∧ s.timOwned c = true ∧ (s.timeDomain d).permit = true ∧
        0 ≤ new ∧ new < 2 ^ 48 * 1000000000) ∧
    (∃ s : State, ∃ c : Cmd, let rho := signed c.arg0 48; s.runs 0x0B04 1 1 c [(0, 48)] [(0, 34)] [] = true ∧ -rhoLimit ≤ rho ∧
        rho ≤ rhoLimit ∧ s.timOwned c = true) ∧
    (∃ s : State, ∃ c : Cmd, let delta := signed c.arg0 64; let n := bitsAt c.arg1 0 40; s.runs 0x0B05 1 1 c [(0, 64)] [(0, 40), (48,
        1)] [] = true ∧ 1000 ≤ n ∧ 2000 * delta.natAbs ≤ n ∧ s.timOwned c = true) ∧
    (∃ s : State, ∃ c : Cmd, s.runs 0x0B06 1 1 c [(0, 1)] [] [] = true ∧ s.timOwned c = true) ∧
    (∃ s : State, ∃ c : Cmd, let d := bitsAt c.arg0 0 1; s.runs 0x0B07 1 1 c [(0, 1)] [] [] = true ∧ s.timOwned c = true ∧
        s.fget Fld.TIM_STATUS_STAMP_DOM = d) ∧
    (∃ s : State, ∃ c : Cmd, let d := bitsAt c.arg0 0 1; s.runs 0x0B07 1 1 c [(0, 1)] [] [] = true ∧ s.timOwned c = true ∧
        s.fget Fld.TIM_STATUS_STAMP_DOM ≠ d) ∧
    (∃ s : State, ∃ c : Cmd, let p := bitsAt c.arg0 0 7; let n := bitsAt c.arg0 8 7; let f := Assoc.get s.tim.txts [] p;
        s.runs 0x0B08 2 2 c [(0, 15)] [] [(32, 0, 64)] = true ∧ 0 < n ∧ n ≤ 64 ∧ s.timOwned c = true ∧
        s.fbit (Fld.PRT_PORT_CFG_EN (p / 8) (p % 8)) = true ∧ f ≠ []) :=
  ⟨⟨w0, cm 1 0 0 0, by decide +kernel⟩,
   ⟨w0, cm 1 0 0 0, by decide +kernel, by decide +kernel, by decide +kernel, by decide +kernel⟩,
   ⟨w0, cm 1 0 0 0, by decide +kernel, by decide +kernel, by decide +kernel, by decide +kernel, by decide +kernel, by decide +kernel⟩,
   ⟨w0, cm 1 0 0 0, by decide +kernel, by decide +kernel, by decide +kernel, by decide +kernel⟩,
   ⟨w0, cm 1 0 1000 0, by decide +kernel, by decide +kernel, by decide +kernel, by decide +kernel⟩,
   ⟨w0, cm 1 0 0 0, by decide +kernel, by decide +kernel⟩,
   ⟨w0, cm 1 0 0 0, by decide +kernel, by decide +kernel, by decide +kernel⟩,
   ⟨w0, cm 1 1 0 0, by decide +kernel, by decide +kernel, by decide +kernel⟩,
   ⟨({ (rg w0 [(Reg.PRT_PORT_CFG 15 7, 1)]) with tim := { w0.tim with txts := [(127, [⟨0, 0, 0, 0, 0, 0⟩])] } } : State),
       cm 2 (127 + 64 * 2 ^ 8) 0 0, by decide +kernel, by decide +kernel, by decide +kernel, by decide +kernel, by decide +kernel,
       by decide +kernel⟩⟩

theorem test_wit_TimeEventsTakeEffect :
    (∃ s : State, ∃ d : Nat, ∃ w : Slew, (s.timeDomain (d % 2)).slew = some w) ∧
    (∃ s : State, s.fbit Fld.TIM_STATUS_REF_PRESENT = true) ∧
    (∃ s : State, s.fbit Fld.TIM_STATUS_REF_PRESENT = false) ∧
    (∃ s : State, ∃ n : Nat, ∃ held : Nat, n < 2 ∧ s.fbit (Fld.TIM_PPSIN_CFG_EN n) = true ∧
        held < max 1 (s.fget (Fld.TIM_PPSIN_CFG_MIN_PULSE n))) ∧
    (∃ s : State, ∃ n : Nat, ∃ held : Nat, ∃ gap : Nat, n < 2 ∧ s.fbit (Fld.TIM_PPSIN_CFG_EN n) = true ∧
        max 1 (s.fget (Fld.TIM_PPSIN_CFG_MIN_PULSE n)) ≤ held ∧ gap < s.fget (Fld.TIM_PPSIN_WIN_MIN_GAP_MS n)) ∧
    (∃ s : State, ∃ n : Nat, ∃ held : Nat, ∃ gap : Nat, n < 2 ∧ s.fbit (Fld.TIM_PPSIN_CFG_EN n) = true ∧
        max 1 (s.fget (Fld.TIM_PPSIN_CFG_MIN_PULSE n)) ≤ held ∧ s.fget (Fld.TIM_PPSIN_WIN_MIN_GAP_MS n) ≤ gap) ∧
    (∃ s : State, ∃ n < 2, s.fbit (Fld.TIM_PPSIN_CFG_EN n) = true ∧ s.fbit (Fld.TIM_PPSIN_SEQ_LOST n) = false) ∧
    (∃ s : State, ∃ n : Nat, s.fbit (Fld.TIM_PPSOUT_CFG_EN (n % 2)) = true) ∧
    (∃ s : State, ∃ n : Nat, s.tim.ppsActive.contains n = true) ∧
    (∃ s : State, ∃ n < 2, s.fbit (Fld.TIM_SYNCE_CFG_EN n) = true ∧ s.fbit (Fld.TIM_SYNCE_CFG_SQUELCH_EN n) = true ∧
        s.fbit (Fld.TIM_SYNCE_STATUS_SQUELCHED n) = false) ∧
    (∃ s : State, ∃ n < 2, s.fbit (Fld.TIM_SYNCE_CFG_EN n) = true ∧ s.laneGood (s.fget (Fld.TIM_SYNCE_CFG_LANE n)) = true) ∧
    (∃ s : State, ∃ n < 8, s.fbit (Fld.TIM_TRIG_CFG_EN n) = true) :=
  ⟨⟨({ w0 with tim := { w0.tim with dom1 := { timeZero with slew := some (⟨5, 1000, 1000, 0, 0⟩ : Slew) } } } : State), 1, (⟨5, 1000,
      1000, 0, 0⟩ : Slew), by decide +kernel⟩,
   ⟨w0.fset Fld.TIM_STATUS_REF_PRESENT 1, by decide +kernel⟩,
   ⟨w0.fset Fld.TIM_STATUS_REF_PRESENT 0, by decide +kernel⟩,
   ⟨((w0.fset (Fld.TIM_PPSIN_CFG_EN 1) 1).fset (Fld.TIM_PPSIN_WIN_MIN_GAP_MS 1) 5), 1, 0, by decide +kernel, by decide +kernel,
       by decide +kernel⟩,
   ⟨((w0.fset (Fld.TIM_PPSIN_CFG_EN 1) 1).fset (Fld.TIM_PPSIN_WIN_MIN_GAP_MS 1) 5), 1, 100000000, 4, by decide +kernel,
       by decide +kernel, by decide +kernel, by decide +kernel⟩,
   ⟨((w0.fset (Fld.TIM_PPSIN_CFG_EN 1) 1).fset (Fld.TIM_PPSIN_WIN_MIN_GAP_MS 1) 5), 1, 100000000, 5, by decide +kernel,
       by decide +kernel, by decide +kernel, by decide +kernel⟩,
   ⟨((w0.fset (Fld.TIM_PPSIN_CFG_EN 1) 1).fset (Fld.TIM_PPSIN_WIN_MIN_GAP_MS 1) 5).fset (Fld.TIM_PPSIN_SEQ_LOST 1) 0, 1,
       by decide +kernel, by decide +kernel, by decide +kernel⟩,
   ⟨w0.fset (Fld.TIM_PPSOUT_CFG_EN 1) 1, 1, by decide +kernel⟩,
   ⟨({ w0 with tim := { w0.tim with ppsActive := [1] } } : State), 1, by decide +kernel⟩,
   ⟨(w0.fset (Fld.TIM_SYNCE_CFG_EN 1) 1).fset (Fld.TIM_SYNCE_CFG_SQUELCH_EN 1) 1 |>.fset (Fld.TIM_SYNCE_STATUS_SQUELCHED 1) 0, 1,
       by decide +kernel, by decide +kernel, by decide +kernel, by decide +kernel⟩,
   ⟨((rg (up w0 0) [(Reg.PRT_PORT_CFG 0 0, 1)]).fset (Fld.PRT_PORT_STATUS_PCS_LOCK 0 0) 1).fset (Fld.TIM_SYNCE_CFG_EN 1) 1, 1,
       by decide +kernel, by decide +kernel, by decide +kernel⟩,
   ⟨w0.fset (Fld.TIM_TRIG_CFG_EN 7) 1, 7, by decide +kernel, by decide +kernel⟩⟩

theorem test_wit_PowerCommandsComplete :
    (∃ s : State, ∃ c : Cmd, s.pwrOwned c = true ∧ let d := bitsAt c.arg0 0 6; s.runs 0x0C01 1 1 c [(0, 6), (8, 1)] [] [] = true ∧
        d ≤ 39 ∧ bitAt c.arg0 8 = false ∧ s.domState d = 0 ∧ s.parkable d = true) ∧
    (∃ s : State, ∃ c : Cmd, s.pwrOwned c = true ∧ let d := bitsAt c.arg0 0 6; s.runs 0x0C01 1 1 c [(0, 6), (8, 1)] [] [] = true ∧
        d ≤ 39 ∧ bitAt c.arg0 8 = true ∧ s.domState d = 2) ∧
    (∃ s : State, ∃ c : Cmd, s.pwrOwned c = true ∧ let d := bitsAt c.arg0 0 6; s.runs 0x0C01 1 1 c [(0, 6), (8, 1)] [] [] = true ∧
        d ≤ 39 ∧ bitAt c.arg0 8 = true ∧ s.domState d = 0) ∧
    (∃ s : State, ∃ c : Cmd, s.pwrOwned c = true ∧ s.runs 0x0C02 1 1 c [(0, 64)] [(0, 22)] [] = true ∧ bitAt c.arg1 21 = true) ∧
    (∃ s : State, ∃ c : Cmd, s.pwrOwned c = true ∧ let limit := bitsAt c.arg0 0 16; let step := bitsAt c.arg0 16 16;
        let bg := bitsAt c.arg1 16 4; s.runs 0x0C02 1 1 c [(0, 64)] [(0, 22)] [] = true ∧ bitAt c.arg1 21 = false ∧ 300 ≤ limit ∧
        limit ≤ 1350 ∧ 10 ≤ step ∧ step ≤ 10000 ∧ bitsAt c.arg0 32 16 ≠ 0 ∧ bitsAt c.arg0 48 8 < bitsAt c.arg0 56 8 ∧ 1 ≤ bg ∧ bg ≤ 7) ∧
    (∃ s : State, ∃ c : Cmd, s.pwrOwned c = true ∧ s.runs 0x0C03 1 1 c [(0, 1), (8, 18), (32, 17)] [] [] = true ∧
        bitAt c.arg0 48 = true) ∧
    (∃ s : State, ∃ c : Cmd, s.pwrOwned c = true ∧ let fill := bitsAt c.arg0 8 8; let n := bitsAt c.arg0 20 6; s.runs 0x0C03 1 1 c [(0,
        1), (8, 18), (32, 17)] [] [] = true ∧ bitAt c.arg0 48 = false ∧ 10 ≤ fill ∧ fill ≤ 100 ∧ 1 ≤ n ∧ n ≤ 48 ∧
        bitsAt c.arg0 32 16 ≠ 0) ∧
    (∃ s : State, ∃ c : Cmd, s.pwrOwned c = true ∧ s.runs 0x0C04 1 1 c [(0, 3), (8, 24), (32, 17)] [] [] = true ∧
        bitAt c.arg0 48 = true) ∧
    (∃ s : State, ∃ c : Cmd, s.pwrOwned c = true ∧ let sag := bitsAt c.arg0 8 8; let hold := bitsAt c.arg0 16 16;
        let test := bitsAt c.arg0 32 16; s.runs 0x0C04 1 1 c [(0, 3), (8, 24), (32, 17)] [] [] = true ∧ bitAt c.arg0 48 = false ∧
        5 ≤ sag ∧ sag ≤ 50 ∧ 1 ≤ hold ∧ hold ≤ 3600 ∧ 1 ≤ test ∧ test ≤ 10080) ∧
    (∃ s : State, ∃ c : Cmd, s.pwrOwned c = true ∧ s.runs 0x0C05 1 1 c [] [] [] = true ∧ s.fbit Fld.PWR_FEED_CFG_HEALTH_MODE = false ∧
        s.justTransferred = false) ∧
    (∃ s : State, ∃ c : Cmd, s.pwrOwned c = true ∧ s.runs 0x0C06 1 1 c [] [] [] = true ∧ s.feedState (1 - s.activeFeed) = feedGood) ∧
    (∃ s : State, ∃ c : Cmd, s.pwrOwned c = true ∧ s.runs 0x0C07 2 2 c [] [] [(32, 0, 64)] = true) :=
  ⟨⟨w0, cm 1 39 0 0, by decide +kernel, by decide +kernel, by decide +kernel, by decide +kernel, by decide +kernel, by decide +kernel⟩,
   ⟨w0.setDomState 39 2, cm 1 (39 + 256) 0 0, by decide +kernel, by decide +kernel, by decide +kernel, by decide +kernel,
       by decide +kernel⟩,
   ⟨w0, cm 1 (39 + 256) 0 0, by decide +kernel, by decide +kernel, by decide +kernel, by decide +kernel, by decide +kernel⟩,
   ⟨w0, cm 1 0 (2 ^ 21) 0, by decide +kernel, by decide +kernel, by decide +kernel⟩,
   ⟨w0, cm 1 (1350 + 10 * 2 ^ 16 + 2 ^ 32 + 2 ^ 56) (7 * 2 ^ 16) 0, by decide +kernel, by decide +kernel, by decide +kernel,
       by decide +kernel, by decide +kernel, by decide +kernel, by decide +kernel, by decide +kernel, by decide +kernel,
       by decide +kernel, by decide +kernel⟩,
   ⟨w0, cm 1 (2 ^ 48) 0 0, by decide +kernel, by decide +kernel, by decide +kernel⟩,
   ⟨w0, cm 1 (100 * 2 ^ 8 + 48 * 2 ^ 20 + 2 ^ 32) 0 0, by decide +kernel, by decide +kernel, by decide +kernel, by decide +kernel,
       by decide +kernel, by decide +kernel, by decide +kernel, by decide +kernel⟩,
   ⟨w0, cm 1 (2 ^ 48) 0 0, by decide +kernel, by decide +kernel, by decide +kernel⟩,
   ⟨w0, cm 1 (50 * 2 ^ 8 + 3600 * 2 ^ 16 + 10080 * 2 ^ 32) 0 0, by decide +kernel, by decide +kernel, by decide +kernel,
       by decide +kernel, by decide +kernel, by decide +kernel, by decide +kernel, by decide +kernel, by decide +kernel⟩,
   ⟨w0.fset Fld.PWR_FEED_CFG_HEALTH_MODE 0, cm 1 0 0 0, by decide +kernel, by decide +kernel, by decide +kernel, by decide +kernel⟩,
   ⟨w0, cm 1 0 0 0, by decide +kernel, by decide +kernel, by decide +kernel⟩,
   ⟨w0, cm 2 0 0 0, by decide +kernel, by decide +kernel⟩⟩

theorem test_wit_PowerEventsTakeEffect :
    (∃ s : State, ∃ d < 40, s.domState d = 1 ∧ s.domEmpty d = true) ∧
    (∃ s : State, ∃ d : Nat, d < 40 ∧ s.domState d = 3) ∧
    (∃ s : State, ∃ temps : List (Option Int), s.pwr.collapsed = false ∧ s.rst.porLow = false ∧ s.pwr.tripped = false ∧
        let s1 := ((List.range 64).zip temps).foldl State.sensor s; (∀ x j, s1.hottest s1.validSensors = some (x, j) → x < tripTemp)) ∧
    (∃ s : State, let a := ((List.range 48).filter fun r => (s.region r).state == regActive || (s.region r).state == regWaking).length;
        s.fbit Fld.PWR_FENCE_CFG_EN = true ∧ s.fenceTarget = a) ∧
    (∃ s : State, let a := ((List.range 48).filter fun r => (s.region r).state == regActive || (s.region r).state == regWaking).length;
        s.fbit Fld.PWR_FENCE_CFG_EN = true ∧ ∃ r : Nat, s.fenceTarget < a ∧ s.pwr.fenceHoldoff = 0 ∧ s.fenceChoice = some r) ∧
    (∃ feed : Nat, ∃ st : Nat, feed < 2 ∧ st < 3) ∧
    (∃ s : State, ∃ ticks : Nat, ticks < s.fget Fld.PWR_FEED_CFG_SAG_FILTER) ∧
    (∃ s : State, ∃ ticks : Nat, s.fget Fld.PWR_FEED_CFG_SAG_FILTER ≤ ticks ∧ s.feedState (1 - s.activeFeed) ≠ feedGood) ∧
    (∃ s : State, ∃ ticks : Nat, ∃ sagged : Bool, s.fget Fld.PWR_FEED_CFG_SAG_FILTER ≤ ticks ∧
        s.feedState (1 - s.activeFeed) = feedGood ∧ sagged = false) ∧
    (∃ s : State, s.fbit Fld.PWR_FEED_STATUS_HOLDING = true) ∧
    (∃ s : State, s.fbit Fld.PWR_FEED_CFG_HEALTH_MODE = false ∧ s.justTransferred = false ∧
        s.feedState (1 - s.activeFeed) ≠ feedAbsent) :=
  ⟨⟨w0.setDomState 39 1, 39, by decide +kernel, by decide +kernel, by decide +kernel⟩,
   ⟨w0.setDomState 39 3, 39, by decide +kernel, by decide +kernel⟩,
   ⟨w0, [some 919], by decide +kernel, by decide +kernel, by decide +kernel,
       (by intro _ x j h; have e : some (x, j) = some ((919 : Int), 0) := h.symm.trans (by decide +kernel); cases e; decide)⟩,
   ⟨(w0.fset Fld.PWR_FENCE_CFG_EN 1).fset Fld.PWR_FENCE_CFG_N_MIN 48, by decide +kernel, by decide +kernel⟩,
   ⟨(w0.fset Fld.PWR_FENCE_CFG_EN 1).fset Fld.PWR_FENCE_CFG_N_MIN 47, by decide +kernel, 47, by decide +kernel, by decide +kernel,
       by decide +kernel⟩,
   ⟨0, 0, by decide +kernel, by decide +kernel⟩,
   ⟨w0, 0, by decide +kernel⟩,
   ⟨w0.fset Fld.PWR_FEED_STATUS_STATE_B 2, 1000, by decide +kernel, by decide +kernel⟩,
   ⟨w0, 1000, false, by decide +kernel, by decide +kernel, by decide +kernel⟩,
   ⟨w0.fset Fld.PWR_FEED_STATUS_HOLDING 1, by decide +kernel⟩,
   ⟨w0, by decide +kernel, by decide +kernel, by decide +kernel⟩⟩

theorem test_wit_HbmEventsTakeEffect :
    (∃ s : State, ∃ die : Nat, ∃ stack : Nat, ∃ ch : Nat, ∃ again : Bool, s.stackOn die stack = true ∧ ch < 32 ∧
        let key := (8 * die + stack) * 32 + ch; let run := if again then Assoc.get s.hbm.retries 0 key else 0;
        run < s.fget (dieFld die Fld.HBF_CFG_RETRY_MAX)) ∧
    (∃ s : State, ∃ die : Nat, ∃ stack : Nat, ∃ ch : Nat, ∃ again : Bool, s.stackOn die stack = true ∧ ch < 32 ∧
        let key := (8 * die + stack) * 32 + ch; let run := if again then Assoc.get s.hbm.retries 0 key else 0;
        s.fget (dieFld die Fld.HBF_CFG_RETRY_MAX) ≤ run) ∧
    (∃ die : Nat, ∃ stack : Nat, ∃ pc : Nat, ∃ bank : Nat, die < 2 ∧ stack < hbmStacks die ∧ pc < 64 ∧ bank < 16) ∧
    (∃ s : State, ∃ die : Nat, ∃ stack : Nat, die < 2 ∧ stack < hbmStacks die ∧ s.off = false) ∧
    (∃ s : State, ∃ die : Nat, ∃ stack : Nat, ∃ found : Nat, ∃ unit : Nat, s.stackOn die stack = true ∧ s.off = false ∧
        s.scrubNext die stack (s.fget (dieFld die (Fld.HBF_SCRUB_POS_UNIT stack))) = some unit ∧ found ≠ 2) ∧
    (∃ s : State, ∃ die : Nat, ∃ stack : Nat, s.stackOn die stack = true) ∧
    (∃ s : State, ∃ stack : Nat, s.stackOn 1 stack = true ∧ s.fbit Fld.HBT_SR_CFG_SR_EN = true ∧
        (stackRegions stack).all (fun r => (s.region r).used == 0) = true) ∧
    (∃ s : State, ∃ stack : Nat, stack < 6 ∧ s.stackState 1 stack = 1) :=
  ⟨⟨(w0.fset (dieFld 1 (Fld.HBF_STACK_STATUS_STATE 5)) 2), 1, 5, 31, false, by decide +kernel, by decide +kernel, by decide +kernel⟩,
   ⟨(w0.fset (dieFld 1 (Fld.HBF_STACK_STATUS_STATE 5)) 2).fset (dieFld 1 Fld.HBF_CFG_RETRY_MAX) 0, 1, 5, 31, false, by decide +kernel,
       by decide +kernel, by decide +kernel⟩,
   ⟨0, 0, 0, 0, by decide +kernel, by decide +kernel, by decide +kernel, by decide +kernel⟩,
   ⟨w0, 0, 0, by decide +kernel, by decide +kernel, by decide +kernel⟩,
   ⟨w0.fset (dieFld 0 (Fld.HBF_STACK_STATUS_STATE 3)) 2, 0, 3, 1, 0, by decide +kernel, by decide +kernel, by decide +kernel,
       by decide +kernel⟩,
   ⟨(w0.fset (dieFld 1 (Fld.HBF_STACK_STATUS_STATE 5)) 2), 1, 5, by decide +kernel⟩,
   ⟨(w0.fset (dieFld 1 (Fld.HBF_STACK_STATUS_STATE 5)) 2).fset Fld.HBT_SR_CFG_SR_EN 1, 5, by decide +kernel, by decide +kernel,
       by decide +kernel⟩,
   ⟨w0.fset (dieFld 1 (Fld.HBF_STACK_STATUS_STATE 5)) 1, 5, by decide +kernel, by decide +kernel⟩⟩

theorem test_wit_ErrorAndCounterCommandsComplete :
    (∃ s : State, ∃ c : Cmd, let max := bitsAt c.arg0 0 7; s.runs 0x0F01 2 2 c [(0, 7)] [] [(32, 0, 64)] = true ∧ 0 < max ∧ max ≤ 64 ∧
        s.errOwned c = true) ∧
    (∃ s : State, ∃ c : Cmd, ∃ sev : Nat, s.runs 0x0F02 1 1 c [(0, 16)] [(0, 64)] [] = true ∧
        s.severity (bitsAt c.arg0 0 16) c.arg1 = some sev ∧ sev ≠ 3 ∧ s.errOwned c = true) ∧
    (∃ s : State, ∃ c : Cmd, s.runs 0x0F03 1 1 c [(0, 9)] [] [] = true ∧ bitsAt c.arg0 0 9 ≤ 485 ∧ s.errOwned c = true) ∧
    (∃ s : State, ∃ c : Cmd, let first := bitsAt c.arg0 0 11; let count := bitsAt c.arg1 0 12; s.runs 0x0E01 2 2 c [(0, 11), (16, 1),
        (17, 1)] [(0, 12)] [(32, 0, 64)] = true ∧ 0 < count ∧ first + count ≤ 2048) :=
  ⟨⟨w0, cm 2 64 0 0, by decide +kernel, by decide +kernel, by decide +kernel, by decide +kernel⟩,
   ⟨w0, cm 1 0x1001 0 0, 1, by decide +kernel, by decide +kernel, by decide +kernel, by decide +kernel⟩,
   ⟨w0, cm 1 0 0 0, by decide +kernel, by decide +kernel, by decide +kernel⟩,
   ⟨w0, cm 2 2047 1 0, by decide +kernel, by decide +kernel, by decide +kernel⟩⟩

theorem test_wit_ErrorEventsTakeEffect :
    (∃ s : State, s.off = false ∧ ∃ f : Nat, ∃ entry : Nat, s.pfEnabled f = true ∧
        s.vectorInRange f (s.fget (Fld.HIF_PF_CFG_VEC_BASE f) + entry) = true) ∧
    (∃ s : State, s.off = false ∧ ∃ i : Nat, ∃ held : Nat, i < 16 ∧ s.fbit (Fld.ERR_FAULT_STATUS_LEVEL i) = false ∧
        held < s.fget (Fld.ERR_FAULT_CFG_MIN_PULSE i)) ∧
    (∃ s : State, s.off = false ∧ ∃ i : Nat, ∃ held : Nat, i < 16 ∧ s.fbit (Fld.ERR_FAULT_STATUS_LEVEL i) = false ∧
        s.fget (Fld.ERR_FAULT_CFG_MIN_PULSE i) ≤ held ∧ s.fbit (Fld.ERR_FAULT_CFG_EN i) = false) ∧
    (∃ s : State, s.off = false ∧ ∃ i : Nat, ∃ held : Nat, i < 16 ∧ s.fbit (Fld.ERR_FAULT_STATUS_LEVEL i) = false ∧
        s.fget (Fld.ERR_FAULT_CFG_MIN_PULSE i) ≤ held ∧ s.fbit (Fld.ERR_FAULT_CFG_EN i) = true ∧
        s.fbit (Fld.ERR_FAULT_STATUS_LATCHED i) = false) ∧
    (∃ s : State, s.off = false ∧ ∃ i : Nat, ∃ held : Nat, i < 16 ∧ s.fget (Fld.ERR_FAULT_CFG_MIN_PULSE i) ≤ held) ∧
    (∃ s : State, s.off = false ∧ ∃ i < 16, s.fbit (Fld.ERR_FAULT_STATUS_LEVEL i) = true ∧ s.fbit (Fld.ERR_FAULT_CFG_EN i) = true ∧
        s.fbit (Fld.ERR_FAULT_STUCK_STUCK_MS i) = true ∧ s.err.stuckReported.contains i = false) ∧
    (∃ s : State, s.off = false ∧ s.err.fatal ≠ .frozen) ∧
    (∃ s : State, s.off = false ∧ s.err.fatal = .stopped ∧ s.fget Fld.ERR_WL_SIZE_SIZE_MIB = 0) ∧
    (∃ s : State, s.off = false ∧ s.err.fatal = .stopped ∧ s.fget Fld.ERR_WL_SIZE_SIZE_MIB ≠ 0 ∧ s.rst.firmwareUp = false) ∧
    (∃ s : State, s.off = false ∧ ∃ failed : Bool, s.err.fatal = .stopped ∧ s.fget Fld.ERR_WL_SIZE_SIZE_MIB ≠ 0 ∧
        s.rst.firmwareUp = true ∧ failed = true) ∧
    (∃ s : State, s.off = false ∧ s.err.fatal = .dumping) ∧
    (∃ s : State, s.off = false ∧ s.err.fatal = .dumping) ∧
    (∃ s : State, s.off = false ∧ ∃ r : PmcRun, s.pmcs.run = some r) :=
  ⟨⟨rg w0 [(Reg.HIF_PF_CFG 7, 1 + 64 * 2 ^ 6)], by decide +kernel, 7, 63, by decide +kernel, by decide +kernel⟩,
   ⟨w0.fset (Fld.ERR_FAULT_CFG_MIN_PULSE 15) 1, by decide +kernel, 15, 0, by decide +kernel, by decide +kernel, by decide +kernel⟩,
   ⟨w0.fset (Fld.ERR_FAULT_CFG_EN 15) 0, by decide +kernel, 15, 100000, by decide +kernel, by decide +kernel, by decide +kernel,
       by decide +kernel⟩,
   ⟨w0.fset (Fld.ERR_FAULT_CFG_EN 15) 1, by decide +kernel, 15, 100000, by decide +kernel, by decide +kernel, by decide +kernel,
       by decide +kernel, by decide +kernel⟩,
   ⟨w0, by decide +kernel, 15, 100000, by decide +kernel, by decide +kernel⟩,
   ⟨((w0.fset (Fld.ERR_FAULT_STATUS_LEVEL 15) 1).fset (Fld.ERR_FAULT_CFG_EN 15) 1).fset (Fld.ERR_FAULT_STUCK_STUCK_MS 15) 1,
       by decide +kernel, 15, by decide +kernel, by decide +kernel, by decide +kernel, by decide +kernel, by decide +kernel⟩,
   ⟨w0, by decide +kernel, by decide +kernel⟩,
   ⟨ft (w0.fset Fld.ERR_WL_SIZE_SIZE_MIB 0) .stopped, by decide +kernel, by decide +kernel, by decide +kernel⟩,
   ⟨ft (w0.fset Fld.ERR_WL_SIZE_SIZE_MIB 1) .stopped, by decide +kernel, by decide +kernel, by decide +kernel, by decide +kernel⟩,
   ⟨({ ft (w0.fset Fld.ERR_WL_SIZE_SIZE_MIB 1) .stopped with rst := { w0.rst with firmwareUp := true } } : State), by decide +kernel,
       true, by decide +kernel, by decide +kernel, by decide +kernel, by decide +kernel⟩,
   ⟨ft w0 .dumping, by decide +kernel, by decide +kernel⟩,
   ⟨ft w0 .dumping, by decide +kernel, by decide +kernel⟩,
   ⟨({ w0 with pmcs := { w0.pmcs with run := some ⟨1, 3, 0⟩ } } : State), by decide +kernel, (⟨1, 3, 0⟩ : PmcRun), by decide +kernel⟩⟩

theorem test_wit_UpdateCommandsComplete :
    (∃ s : State, ∃ c : Cmd, s.fwuOwned (s.cmdMaster c) = true ∧ s.runs 0x0D01 1 1 c [] [] [] = true) ∧
    (∃ s : State, ∃ c : Cmd, s.fwuOwned (s.cmdMaster c) = true ∧ let p := cmdParams c; s.runs 0x0D02 2 2 c [] [] [(32, 0, 32), (36, 0,
        32), (40, 0, 32), (44, 0, 32), (48, 0, 32), (52, 0, 32), (56, 0, 32), (60, 0, 13), (62, 0, 1)] = true ∧ 0 < p.count ∧
        p.count = chunksOf p.length ∧ p.length ≤ p.limit ∧ (p.full = true → p.deltaLength = 0 ∧ p.deltaCrc = 0) ∧ s.fwPhase = 0 ∧
        (s.inRecovery = true → p.full = true) ∧ s.fwu.session = none ∧ (p.full = false → p.sourceVersion = s.runningBank.version ∧
        p.sourceCrc = s.runningBank.crc)) ∧
    (∃ s : State, ∃ c : Cmd, s.fwuOwned (s.cmdMaster c) = true ∧ let m := s.cmdMaster c; ∃ x, s.runs 0x0D04 2 2 c [(32, 32)] [] [(32, 0,
        64)] = true ∧ s.sessionFor m (bitsAt c.arg0 32 32) = .ok x) ∧
    (∃ s : State, ∃ c : Cmd, s.fwuOwned (s.cmdMaster c) = true ∧ let m := s.cmdMaster c; ∃ x, s.runs 0x0D06 1 1 c [(32,
        32)] [] [] = true ∧ s.sessionFor m (bitsAt c.arg0 32 32) = .ok x) ∧
    (∃ s : State, ∃ c : Cmd, s.fwuOwned (s.cmdMaster c) = true ∧ let k := bitsAt c.arg0 0 1; let w := bitsAt c.arg0 16 12;
        s.runs 0x0D07 1 1 c [(0, 2), (16, 12)] [] [] = true ∧ (w = 0 ∨ 10 ≤ w ∧ w ≤ 3600) ∧
        ((s.fwBank k).state = bankReady ∨ (s.fwBank k).state = bankPrevious) ∧ s.fwPhase = 0) ∧
    (∃ s : State, ∃ c : Cmd, s.fwuOwned (s.cmdMaster c) = true ∧ ∃ h, s.runs 0x0D08 1 1 c [] [] [] = true ∧ s.fwu.handover = some h ∧
        s.fwPhase = 3 ∧ h.hostConfirm = true) ∧
    (∃ s : State, ∃ c : Cmd, s.fwuOwned (s.cmdMaster c) = true ∧ let m := s.cmdMaster c; ∃ bytes, s.runs 0x0D09 1 1 c [] [] [] = true ∧
        s.parState m = none ∧ s.runningBank.ucode = some bytes) :=
  ⟨⟨w0, cm 1 0 0 0, by decide +kernel, by decide +kernel⟩,
   ⟨w0, cm 2 0 0 (4096 * 2 ^ 96 + 2 ^ 224 + 2 ^ 240), by decide +kernel, by decide +kernel, by decide +kernel, by decide +kernel,
       by decide +kernel, by decide +kernel, by decide +kernel, by decide +kernel, by decide +kernel, by decide +kernel⟩,
   ⟨fw w0 fun f => { f with session := some { sess with chunks := [] } }, cm 2 (5 * 2 ^ 32) 0 0, by decide +kernel,
       { sess with chunks := [] }, by decide +kernel, okOf (by decide +kernel)⟩,
   ⟨fw w0 fun f => { f with session := some { sess with chunks := [] } }, cm 1 (5 * 2 ^ 32) 0 0, by decide +kernel,
       { sess with chunks := [] }, by decide +kernel, okOf (by decide +kernel)⟩,
   ⟨fw w0 fun f => { f with bank1 := { f.bank1 with state := bankReady } }, cm 1 (1 + 3600 * 2 ^ 16) 0 0, by decide +kernel,
       by decide +kernel, by decide +kernel, by decide +kernel, by decide +kernel⟩,
   ⟨fw (w0.fset Fld.FWU_STATUS_PHASE 3) fun f => { f with handover := some hov }, cm 1 0 0 0, by decide +kernel, hov, by decide +kernel,
       by decide +kernel, by decide +kernel, by decide +kernel⟩,
   ⟨fw wb fun f => { f with bank0 := { f.bank0 with bytes := some (List.replicate 32 0 ++ leBytes 4 64 ++ leBytes 4 81920) } },
       cm 1 0 0 0, by decide +kernel, _, by decide +kernel, by decide +kernel, someIs [] (by decide +kernel)⟩⟩

theorem test_wit_UpdateEventsTakeEffect :
    (∃ s : State, ∃ x, s.fwu.session = some x) ∧
    (∃ s : State, ∃ h, s.fwu.handover = some h ∧ s.fwPhase = 1) ∧
    (∃ s : State, ∃ h, s.fwu.handover = some h ∧ s.fwPhase = 3 ∧ h.oldFollows = true) :=
  ⟨⟨fw w0 fun f => { f with session := some { sess with chunks := [] } }, { sess with chunks := [] }, by decide +kernel⟩,
   ⟨fw (w0.fset Fld.FWU_STATUS_PHASE 1) fun f => { f with handover := some hov }, hov, by decide +kernel, by decide +kernel⟩,
   ⟨fw (w0.fset Fld.FWU_STATUS_PHASE 3) fun f => { f with handover := some hov }, hov, by decide +kernel, by decide +kernel,
       by decide +kernel⟩⟩

theorem test_wit_StartUpEventsTakeEffect :
    (∃ held : Nat, 1000 ≤ held) ∧
    (∃ s : State, ∃ r : PrimeRun, s.fget Fld.RST_STATUS_PHASE = 1 ∧ s.pwr.collapsed = false ∧ s.pwr.tripped = false ∧
        s.rst.jtagHolds = false ∧ r.noDirectory = true) ∧
    (∃ s : State, ∃ die : Nat, die ≤ 1 ∧ s.fbit (if die = 0 then Fld.RST_STATUS_DIE_FE_BUSY else Fld.RST_STATUS_DIE_TM_BUSY) = true) ∧
    (∃ s : State, s.off = false ∧ s.rst.released = true ∧ (s.fget Fld.RST_STATUS_PHASE = 6 ∨ s.fget Fld.RST_STATUS_PHASE = 7)) ∧
    (∃ s : State, s.off = false ∧ (s.isStandby = true ∨ s.err.fatal = .frozen)) ∧
    (∃ s : State, s.off = false ∧ s.isStandby = false ∧ s.err.fatal ≠ .frozen ∧ s.fbit Fld.RST_CFG_PERST_ACTION = true) ∧
    (∃ s : State, s.off = false ∧ s.isStandby = false ∧ s.err.fatal ≠ .frozen ∧ s.fbit Fld.RST_CFG_PERST_ACTION = false) ∧
    (∃ s : State, s.off = false) ∧
    (∃ s : State, s.off = false ∧ s.host.linkDown = false) ∧
    (∃ s : State, s.off = false ∧ ∃ clock : Nat, 1 ≤ clock ∧ clock ≤ 4) ∧
    (∃ s : State, s.off = false ∧ ∃ clock : Nat, (clock = 5 ∨ clock = 6)) ∧
    (∃ s : State, s.off = false ∧ s.fbit Fld.TIM_STATUS_REF_PRESENT = true) :=
  ⟨⟨1000, by decide +kernel⟩,
   ⟨w1s, { prime with noDirectory := true }, by decide +kernel, by decide +kernel, by decide +kernel, by decide +kernel,
       by decide +kernel⟩,
   ⟨w0.fset Fld.RST_STATUS_DIE_TM_BUSY 1, 1, by decide +kernel, by decide +kernel⟩,
   ⟨({ State.reset.fset Fld.RST_STATUS_PHASE 7 with rst := { rstReset with released := true } } : State), by decide +kernel,
       by decide +kernel, by decide +kernel⟩,
   ⟨ft w0 .frozen, by decide +kernel, by decide +kernel⟩,
   ⟨(w0.fset Fld.IGL_CTRL_ROLE 0).fset Fld.RST_CFG_PERST_ACTION 1, by decide +kernel, by decide +kernel, by decide +kernel,
       by decide +kernel⟩,
   ⟨w0, by decide +kernel, by decide +kernel, by decide +kernel, by decide +kernel⟩,
   ⟨w0, by decide +kernel⟩,
   ⟨w0, by decide +kernel, by decide +kernel⟩,
   ⟨w0, by decide +kernel, 4, by decide +kernel, by decide +kernel⟩,
   ⟨w0, by decide +kernel, 6, by decide +kernel⟩,
   ⟨w0.fset Fld.TIM_STATUS_REF_PRESENT 1, by decide +kernel, by decide +kernel⟩⟩

theorem test_wit_ChainEventsTakeEffect :
    (∃ s : State, s.off = false ∧ s.err.fatal ≠ .frozen ∧ ∃ east : Bool, ∃ f : ChainFrame, ∃ src : Nat, ∃ dst : Nat, ∃ seq : Nat,
        s.chainRuns = true ∧ s.fbit (upFld east) = true ∧ f.msg = .ack src dst seq) ∧
    (∃ s : State, s.off = false ∧ s.err.fatal ≠ .frozen ∧ ∃ east : Bool, ∃ f : ChainFrame, s.chainRuns = true ∧
        s.fbit (upFld east) = true ∧ (∀ src dst seq, f.msg ≠ .ack src dst seq) ∧ f.dst = s.ownId ∧ s.fbit Fld.IGL_STATUS_DUP_ID = false) ∧
    (∃ s : State, s.off = false ∧ s.err.fatal ≠ .frozen ∧ ∃ east : Bool, ∃ f : ChainFrame, s.chainRuns = true ∧
        s.fbit (upFld east) = true ∧ (∀ src dst seq, f.msg ≠ .ack src dst seq) ∧ f.dst ≠ s.ownId) ∧
    (∃ s : State, s.off = false ∧ s.err.fatal ≠ .frozen ∧ ∃ east : Bool, s.chainRuns = true ∧ s.fbit (upFld east) = true) ∧
    (∃ s : State, s.off = false ∧ s.err.fatal ≠ .frozen ∧ ∃ east : Bool, s.chainRuns = true ∧ s.fbit (upFld east) = false ∧
        s.fbit (if east then Fld.IGL_CTRL_EAST_EN else Fld.IGL_CTRL_WEST_EN) = true) ∧
    (∃ s : State, s.off = false ∧ s.err.fatal ≠ .frozen ∧ ∃ dev : Nat, s.chain.active = true ∧ s.present dev = false) ∧
    (∃ s : State, s.off = false ∧ s.err.fatal ≠ .frozen ∧ s.chain.cutOff = true ∧ (∀ ch < 8, Assoc.get s.dma.chans [] ch = [])) ∧
    (∃ s : State, s.off = false ∧ s.err.fatal ≠ .frozen ∧ ∃ m : Nat, ∃ v : Nat,
        s.writeTakes m Reg.IGL_TAKEOVER (withBits v 0 1 1) = true ∧ s.isStandby = true ∧ s.takeoverDue = true) ∧
    (∃ s : State, s.off = false ∧ s.err.fatal ≠ .frozen ∧ ∃ m : Nat, ∃ v : Nat,
        s.writeTakes m Reg.IGL_TAKEOVER (withBits v 0 1 1) = true ∧ (s.isStandby = false ∨ s.takeoverDue = false)) ∧
    (∃ s : State, s.off = false ∧ s.err.fatal ≠ .frozen ∧ ∃ m : Nat, ∃ v : Nat,
        s.writeTakes m Reg.IGL_RELEASE (withBits v 0 1 1) = true ∧ s.chain.active = true) ∧
    (∃ s : State, s.off = false ∧ s.err.fatal ≠ .frozen ∧ ∃ n : Nat, s.isStandby = false ∧ n ≠ s.ownId ∧ s.chain.active = true) :=
  ⟨⟨(w0.fset (upFld true) 1), by decide +kernel, by decide +kernel, true, (⟨3, 0, 0, .ack 0 3 9⟩ : ChainFrame), 0, 3, 9,
      by decide +kernel, by decide +kernel, by decide +kernel⟩,
   ⟨(w0.fset (upFld true) 1), by decide +kernel, by decide +kernel, true, (⟨3, 0, 0, .released⟩ : ChainFrame), by decide +kernel,
       by decide +kernel, (fun _ _ _ h => by cases h), by decide +kernel, by decide +kernel⟩,
   ⟨(w0.fset (upFld true) 1), by decide +kernel, by decide +kernel, true, (⟨3, 5, 0, .released⟩ : ChainFrame), by decide +kernel,
       by decide +kernel, (fun _ _ _ h => by cases h), by decide +kernel⟩,
   ⟨(w0.fset (upFld true) 1), by decide +kernel, by decide +kernel, true, by decide +kernel, by decide +kernel⟩,
   ⟨w0.fset Fld.IGL_CTRL_EAST_EN 1, by decide +kernel, by decide +kernel, true, by decide +kernel, by decide +kernel, by decide +kernel⟩,
   ⟨({ w0 with chain := { w0.chain with active := true } } : State), by decide +kernel, by decide +kernel, 63, by decide +kernel,
       by decide +kernel⟩,
   ⟨({ w0 with chain := { w0.chain with cutOff := true } } : State), by decide +kernel, by decide +kernel, by decide +kernel,
       (fun _ _ => rfl)⟩,
   ⟨({ (w0.fset Fld.IGL_CTRL_ROLE 2) with chain := { w0.chain with released := true } } : State), by decide +kernel, by decide +kernel,
       1, 0, by decide +kernel, by decide +kernel, by decide +kernel⟩,
   ⟨w0, by decide +kernel, by decide +kernel, 1, 0, by decide +kernel, by decide +kernel⟩,
   ⟨({ w0 with chain := { w0.chain with active := true } } : State), by decide +kernel, by decide +kernel, 1, 0, by decide +kernel,
       by decide +kernel⟩,
   ⟨({ w0 with chain := { w0.chain with active := true } } : State), by decide +kernel, by decide +kernel, 63, by decide +kernel,
       by decide +kernel, by decide +kernel⟩⟩

theorem test_wit_SidebandTakesEffect :
    (∃ s : State, s.pwr.collapsed = false ∧ s.rst.porLow = true) ∧
    (∃ s : State, s.pwr.collapsed = false ∧ s.rst.porLow = false) ∧
    (∃ s : State, s.pwr.collapsed = false ∧ ∃ off : Nat, s.rst.porLow = false ∧ off % 4 = 0) ∧
    (∃ s : State, s.pwr.collapsed = false ∧ s.rst.porLow = false ∧ s.rst.i3cAddr = none) ∧
    (∃ s : State, s.pwr.collapsed = false ∧ ∃ bytes : List Byte, s.rst.porLow = false ∧ s.rst.i3cAddr.isSome = true ∧ bytes.length = 4) ∧
    (∃ s : State, s.pwr.collapsed = false ∧ ∃ bytes : List Byte, s.rst.porLow = false ∧ s.rst.i3cAddr.isSome = true ∧ bytes.length = 8 ∧
        leAt bytes 0 4 % 4 = 0) ∧
    (∃ s : State, s.pwr.collapsed = false ∧ ∃ n : Nat, s.rst.porLow = false ∧ s.rst.i3cAddr.isSome = true ∧ n % 4 = 0) :=
  ⟨⟨({ w0 with rst := { w0.rst with porLow := true } } : State), by decide +kernel, by decide +kernel⟩,
   ⟨w0, by decide +kernel, by decide +kernel⟩,
   ⟨w0, by decide +kernel, 0, by decide +kernel, by decide +kernel⟩,
   ⟨w0, by decide +kernel, by decide +kernel, by decide +kernel⟩,
   ⟨({ w0 with rst := { w0.rst with i3cAddr := some 9 } } : State), by decide +kernel, [4, 0, 0, 0], by decide +kernel,
       by decide +kernel, by decide +kernel⟩,
   ⟨({ w0 with rst := { w0.rst with i3cAddr := some 9 } } : State), by decide +kernel, [4, 0, 0, 0, 1, 0, 0, 0], by decide +kernel,
       by decide +kernel, by decide +kernel, by decide +kernel⟩,
   ⟨({ w0 with rst := { w0.rst with i3cAddr := some 9 } } : State), by decide +kernel, 4, by decide +kernel, by decide +kernel,
       by decide +kernel⟩⟩

/-- 22, example: PRT_PORT_DOWN of port 44, the same register of chain device 3, and the ownership register of port group 5. -/
theorem test_register_example : Reg.PRT_PORT_DOWN 5 4 = 0x01050208 ∧ 3 * 0x08000000 + Reg.PRT_PORT_DOWN 5 4 = 0x19050208 ∧
    Reg.GLB_OWN 11 = 0x42C ∧ (blockOf (Reg.PRT_PORT_DOWN 5 4)) = some 11 := by
  decide +kernel

/-- 22 R605: an owner's write of that register is applied, and a read answers it. -/
theorem test_register_write : (match exec (.registerWrite 1 none 0x01050208 4 1) w1 with
    | .next t => decide (t.fget (Fld.PRT_PORT_DOWN_ACTION 5 4) = 1)
    | _ => false) = true := by
  decide +kernel

/-- 10 R310, example: the checksum after TOS and TTL change. -/
theorem test_checksum_example : csumUpdate (csumUpdate 0xB1E6 0x4500 0x4528) 0x4006 0x3F06 = 0xB2BE := by decide

/-- 10 R310, example: the outer and the inner label word. -/
theorem test_label_example :
    encLabelBytes (2 * 2 ^ 14 + 16005 * 2 ^ 172 + 300 * 2 ^ 192) 5 63 true = [0x03, 0xE8, 0x5A, 0x3F, 0x00, 0x12, 0xCB, 0x3F] := by
  decide +kernel

/-- 13, example: the latest departure time of 7 s + 400,000,000 ns with a budget of 2,000 ns. -/
theorem test_ldt_example : ldtOf 7400000000 2000 = 0xB91311D0 := by decide

/-- 14, example: the credit rate of a 400GbE port, 384 Gb/s. -/
theorem test_credit_example : (((rg w0 [(Reg.PRT_PORT_CFG 5 4, 1 + 2 * 5)]).fset (Fld.FAB_PORT_CRED_FACTOR 44) 1010).fset
    (Fld.FAB_PORT_EXPRES_KBPS 44) 20000000).creditRate 44 44 = 384000000 := by
  decide +kernel

/-- 08, example steps 8 to 10: visits without a hit. -/
theorem test_aging_example (e : ExmEntry) (h : e.hit = true) :
    (ageVisit 4 e).age = 0 ∧ (ageVisit 4 (ageVisit 4 e)).age = 1 ∧
      (ageVisit 4 (ageVisit 4 (ageVisit 4 (ageVisit 4 e)))).age = 3 ∧
      (ageVisit 4 (ageVisit 4 (ageVisit 4 (ageVisit 4 (ageVisit 4 e))))).aging = true := by
  simp [ageVisit, h]

/-- 03 R94: a commit's sequence numbers; the older one is the one behind, over the wrap as well. -/
theorem test_sequence_order : seqOlder 41 42 = true ∧ seqOlder 42 41 = false ∧ seqOlder 0xFFFFFFFF 0 = true := by decide

/-- 13 R402: a base in the past moves by whole cycles to at least 2,000 ns ahead. -/
theorem test_gate_switch_instant : cctOf 10000 20000 9000 = 30000 ∧ cctOf 11000 20000 9000 = 11000 := by decide

/-- 17 R499: each page puts one unit on every pseudo-channel of its stack. -/
theorem test_page_spread : ((List.range 64).map fun k => (hbtLoc 6291457 k).pc).eraseDups.length = 64 ∧ (hbtLoc 6291457 5).stack = 1 ∧
    (hbtLoc 6291457 5).pc = 6 ∧ (hbtLoc 6291457 5).bank = 1 := by
  decide +kernel

/-- 02, example step 5: the doorbell 0x103 of a ring of 256 units at CI 0x0F0 is accepted;
    one that runs more than 256 units ahead is not. -/
theorem test_doorbell_example :
    let s := rg w0 [(Reg.CE_CMD_SIZE 2, 8 + 2 ^ 8), (Reg.CE_CMD_PI 2, 0x0FE), (Reg.CE_CMD_CI 2, 0x0F0)]
    (match exec (.cmdDoorbell 1 2 0x103) s with | .next t => decide (t.reg (Reg.CE_CMD_PI 2) = 0x103) | _ => false) = true ∧
      (match exec (.cmdDoorbell 1 2 0x1F1) s with | .next t => decide (t.reg (Reg.CE_CMD_PI 2) = 0x0FE) | _ => false) = true := by
  decide +kernel

/-- With nothing waiting a step changes nothing (log entry 4). -/
theorem test_idle_step : step w1 = .next w1 := rfl

/-- A ring command whose ring number no device has. -/
def badCmd : Cmd := { cm 1 0 0 0 with ring := 8 }

/-- A chain frame. -/
def cf : ChainFrame := ⟨0, 1, 1, .hostReset⟩

theorem test_wf_cmd : (cm 1 0 0 0).wf = true ∧ (cm 16 0 0 0).wf = true ∧
    [badCmd, { cm 1 0 0 0 with len := 0 }, { cm 1 0 0 0 with len := 17 }, { cm 1 0 0 0 with tag := 2 ^ 32 }, { cm 1 0 0 0 with cq := 8 },
      { cm 1 0 0 0 with pos := 2 ^ 17 }, { cm 1 0 0 0 with arg0 := 2 ^ 64 }, { cm 1 0 0 0 with arg1 := 2 ^ 64 },
      { cm 2 0 0 0 with payload := [] }].all (fun c => !c.wf) = true := by
  decide +kernel

theorem test_wf_parts : ohf.wf = true ∧ prime.wf = true ∧ cf.wf = true ∧
    [{ ohf with index := 32 }, { ohf with blocks := [] }, { ohf with c := 8 }, { ohf with groupNum := 2 ^ 20 },
        { ohf with phyNum := 256 },
      { ohf with calA := 2 ^ 16 }, { ohf with calB := 2 ^ 16 }].all (fun o => !o.wf) = true ∧
    [{ prime with chain := 64 }, { prime with ms := [0, 0, 0, 0, 0, 0, 0] }, { prime with pfs := List.replicate 9 (0, 0) },
      { prime with feBad := [4] }, { prime with tmBad := [6] }, { prime with modulesBad := [24] }].all (fun r => !r.wf) = true ∧
    [{ cf with src := 64 }, { cf with dst := 64 }].all (fun f => !f.wf) = true := by
  decide +kernel

theorem test_wf_accepts :
    ([.slotGrant 15 3, .nop (cm 1 0 0 0), .frameReceive 383 [], .registerWrite 11 none 4 8 (2 ^ 64 - 1), .gclSwitch 127,
      .jtagBypass 3 7, .dmaWithdraw 8 [] [] 0, .fabLinkActive 159, .primingStart prime, .pmcCfgWrite 1 1 2047 false 0] :
      List Instr).all Instr.wf = true := by
  decide +kernel

theorem test_wf_refuses_0 :
    ([.frameReceive 384 [], .frameEnd 384 0 none, .frameEnd 0 3 none, .frameEnd 0 0 (some (2 ^ 20)), .slotGrant 16 0, .freezeEnd 16 0,
      .ingressPassEnd 16 [] none, .recircEnqueue 16, .replication 16, .d2dFlitError 24 0, .admission 52 false, .pfcRefresh 128,
      .refillStart (2 ^ 20), .refillReadDone (2 ^ 20) [], .schedulerDecision 128 0 0, .expressRelease 128 0 0, .egressPass 16 [],
      .portFrameGrant 384 0, .gateTransition 128, .pauseFrameReceived 128 false 0 [], .pauseFrameReceived 0 false 256 [],
      .pauseTimerExpiry 128 0, .pauseTimerExpiry 0 9, .chainFrameReceive false { cf with src := 64 }, .chainReadTimeout 64,
      .iglTakeover 12 0, .iglTakeover 0 (2 ^ 32), .iglRelease 12 0, .iglRelease 0 (2 ^ 32), .cmdDoorbell 12 0 0] :
      List Instr).all (fun i => !i.wf) = true := by
  decide +kernel

theorem test_wf_refuses_1 :
    ([.cmdDoorbell 0 8 0, .cmdDoorbell 0 0 (2 ^ 32), .pktRingDoorbell 12 0 0, .pktRingDoorbell 0 128 0, .pktRingDoorbell 0 0 (2 ^ 32),
      .commandFetchReturn 8 [], .cqCiWrite 12 0 0, .cqCiWrite 0 8 0, .cqCiWrite 0 0 (2 ^ 32), .dmaRqCiWrite 12 0,
      .dmaRqCiWrite 0 (2 ^ 32), .ceReset 12 0, .ceReset 0 (2 ^ 32), .coalesceTimer 8, .ringDisable 12 0 0, .ringDisable 0 145 0,
      .ringDisable 0 0 (2 ^ 32), .ringDisableDone 145, .ringRestart 12 0 0, .ringRestart 0 128 0, .ringRestart 0 0 (2 ^ 32),
      .rxDelivery 64 [], .txDescriptorFetch 64 [] [], .poolEnable 0 8 0, .poolEnable 12 0 0, .poolEnable 0 0 (2 ^ 32), .bucketAlloc 8 0,
      .bucketFree 8 0, .dmaTransferDone 16 [] [] none, .dmaWithdraw 7 [] [] 0] :
      List Instr).all (fun i => !i.wf) = true := by
  decide +kernel

theorem test_wf_refuses_2 :
    ([.dmaWithdraw 16 [] [] 0, .nop badCmd, .echo badCmd, .regRead badCmd, .regWrite badCmd, .copy badCmd, .fill badCmd, .compare badCmd,
      .abort badCmd [] [] 0, .glbOwnWrite 12 0 0, .glbOwnWrite 0 28 0, .glbOwnWrite 0 0 (2 ^ 32), .registerWrite 12 none 0 0 0,
      .registerWrite 0 none (2 ^ 27) 0 0, .registerWrite 0 none 0 9 0, .registerWrite 0 none 0 4 (2 ^ 32), .genOpen badCmd,
      .genCommit badCmd [], .genCancel badCmd, .genAbandon badCmd, .genQuery badCmd, .genSetMargin badCmd, .drainSlowExpiry 4,
      .drainLimitWrite 12 0, .drainLimitWrite 0 (2 ^ 32), .portEnable 12 0 0, .portEnable 0 128 0, .portEnable 0 0 (2 ^ 32),
      .portDisable 12 0 0, .portDisable 0 128 0] :
      List Instr).all (fun i => !i.wf) = true := by
  decide +kernel

theorem test_wf_refuses_3 :
    ([.portDisable 0 0 (2 ^ 32), .groupEnable 12 0 0, .groupEnable 0 16 0, .groupEnable 0 0 (2 ^ 32), .groupCalDone 16,
      .groupDisable 12 0 0, .groupDisable 0 16 0, .groupDisable 0 0 (2 ^ 32),
      .linkConditionChange 128 false false false false false 0 0 0, .linkDownDeclared 128, .linkUpDeclared 128, .holdoffExpiry 384,
      .portFlushDone 384, .readmitDone 384, .portRecalibrate 12 0 0, .portRecalibrate 0 128 0, .portRecalibrate 0 0 (2 ^ 32),
      .portCalDone 128 false 0 0, .fxeGroupEnable 12 0 0, .fxeGroupEnable 0 32 0, .fxeGroupEnable 0 0 (2 ^ 32), .fxeClientEnable 12 0 0,
      .fxeClientEnable 0 256 0, .fxeClientEnable 0 0 (2 ^ 32), .fxeProtEnable 12 0 0, .fxeProtEnable 0 256 0,
      .fxeProtEnable 0 0 (2 ^ 32), .overheadFrameReceive 128 0 ohf, .overheadFrameReceive 0 8 ohf,
      .overheadFrameReceive 0 0 { ohf with index := 32 }] :
      List Instr).all (fun i => !i.wf) = true := by
  decide +kernel

theorem test_wf_refuses_4 :
    ([.defectIntegrationExpiry 128 0, .defectIntegrationExpiry 0 7, .mgmtPacketReceive 32 0 [], .mgmtPacketReceive 0 2 [],
      .mgmtPacketReceive 0 0 (List.replicate 63 0), .mgmtPacketReceive 0 0 (List.replicate 1519 0), .fxeCalWrite badCmd,
      .fxeCalRead badCmd, .fxeCalSwitch badCmd, .calSwitchExecute 32, .calSwitchTimeout 32, .fxeCalCopy badCmd, .fxeProtOp badCmd,
      .fxeMgmtSend badCmd .hostError, .fxeMgmtRecv badCmd, .clientDownDeclared 256, .clientUpDeclared 256, .sfHoldoffExpiry 256 0,
      .sfHoldoffExpiry 0 2, .waitToRestoreExpiry 256, .parLoad badCmd .hostError, .parRead badCmd, .traceArm 12 0, .traceArm 0 (2 ^ 32),
      .lpmInsert badCmd, .lpmReplace badCmd, .lpmDelete badCmd, .lpmRead badCmd [], .lpmLookup badCmd [], .lpmBulk badCmd .hostError []] :
      List Instr).all (fun i => !i.wf) = true := by
  decide +kernel

theorem test_wf_refuses_5 :
    ([.nhSet badCmd, .nhRead badCmd, .ecmpSet badCmd .hostError, .ecmpRead badCmd, .tableDoubling 2 0, .tableDoubling 0 129,
      .filterRebuild 2 0, .filterRebuild 0 129, .lpmShadowGo 12 0, .lpmShadowGo 0 (2 ^ 32), .lpmShadowStop 12 0,
      .lpmShadowStop 0 (2 ^ 32), .exmInsert badCmd [], .exmReplace badCmd [], .exmDelete badCmd [], .exmRead badCmd [],
      .exmUnlearn badCmd [], .exmNext badCmd [], .exmSearch badCmd [], .exmFlushPort badCmd, .exmWinRead 12 0, .exmWinRead 0 (2 ^ 32),
      .exmWinInsert 12 0, .exmWinInsert 0 (2 ^ 32), .exmWinReplace 12 0, .exmWinReplace 0 (2 ^ 32), .exmWinDelete 12 0,
      .exmWinDelete 0 (2 ^ 32), .exmWinNext 12 0, .exmWinNext 0 (2 ^ 32)] :
      List Instr).all (fun i => !i.wf) = true := by
  decide +kernel

theorem test_wf_refuses_6 :
    ([.exmWinUnlearn 12 0, .exmWinUnlearn 0 (2 ^ 32), .exmWinFlushPort 12 0, .exmWinFlushPort 0 (2 ^ 32), .exmShadowGo 12 0,
      .exmShadowGo 0 (2 ^ 32), .exmShadowStop 12 0, .exmShadowStop 0 (2 ^ 32), .camInsert badCmd, .camReplace badCmd, .camDelete badCmd,
      .camRead badCmd, .camMove badCmd, .camOcc badCmd, .camSearch badCmd, .camShadowGo 12 0, .camShadowGo 0 (2 ^ 32),
      .camShadowStop 12 0, .camShadowStop 0 (2 ^ 32), .actWrite badCmd, .actRead badCmd, .polbWrite badCmd, .polbRead badCmd,
      .polSet badCmd, .polRead badCmd, .replWrite badCmd .hostError, .replRead badCmd, .fstRead badCmd, .fstBulk badCmd,
      .editWrite badCmd] :
      List Instr).all (fun i => !i.wf) = true := by
  decide +kernel

theorem test_wf_refuses_7 :
    ([.editRead badCmd, .mirrorWrite badCmd, .mirrorRead badCmd, .encapWrite badCmd, .encapRead badCmd, .tmplWrite badCmd,
      .tmplRead badCmd, .bufQadmSet badCmd, .bufQRead badCmd, .bufProfSet badCmd, .bufProfRead badCmd, .bufLimitSet badCmd,
      .bufLimitRead badCmd, .bufFlush badCmd, .bufFenceRelease badCmd, .bufFenceHold badCmd, .bufUnfenceHold badCmd, .bufStackOut badCmd,
      .regionParked 48, .fenceTimeout 48, .regionWakeDone 48, .bufPeakClr 12 0, .bufPeakClr 0 (2 ^ 32), .qAttach badCmd, .qDetach badCmd,
      .qDetachFlush badCmd, .qRead badCmd, .qMapSet badCmd, .qMapRead badCmd, .nodeSet badCmd] :
      List Instr).all (fun i => !i.wf) = true := by
  decide +kernel

theorem test_wf_refuses_8 :
    ([.nodeDetach badCmd, .nodeRead badCmd, .schShaperSet badCmd, .schShaperRead badCmd, .tmpolSet badCmd, .tmpolRead badCmd,
      .shpSelWrite 12 0, .shpSelWrite 0 (2 ^ 32), .shpCfgWrite 12 0, .shpCfgWrite 0 (2 ^ 32), .dlnProfSet badCmd, .dlnProfRead badCmd,
      .dlnQmapSet badCmd, .dlnQmapRead badCmd, .gclWrite badCmd, .gclSet badCmd, .gclCancel badCmd, .gclRead badCmd, .gclSwitch 128,
      .verifyAttempt 128, .verifyResponse 128, .fabLinkEnable 12 0 0, .fabLinkEnable 0 160 0, .fabLinkEnable 0 0 (2 ^ 32),
      .fabLinkTrained 160, .fabLinkActive 160, .fabLockLoss 160, .fabLinkRetry 160, .fabCellReceive 160 [], .fabAckReceive 160 0] :
      List Instr).all (fun i => !i.wf) = true := by
  decide +kernel

theorem test_wf_refuses_9 :
    ([.fabNakReceive 160 0, .fabAckTimeout 160, .reachCellReceive 160 [], .reachCellReceive 0 [2048], .reachTimeout 160,
      .reorderTimeout 2048 false, .statusRefresh (2 ^ 20), .creditStatusReceive 160 0 0 0 0 0 0 false,
      .creditStatusReceive 0 (2 ^ 16) 0 0 0 0 0 false, .creditStatusReceive 0 0 2048 0 0 0 0 false,
      .creditStatusReceive 0 0 0 128 0 0 0 false, .creditStatusReceive 0 0 0 0 (2 ^ 20) 0 0 false,
      .creditStatusReceive 0 0 0 0 0 8 0 false, .creditStatusReceive 0 0 0 0 0 0 (2 ^ 16) false, .cflowRejectRetry (2 ^ 20),
      .cflowIdleExpiry 2048 0, .cflowIdleExpiry 0 (2 ^ 20), .creditGenerate 128, .grantReceive 160 0 0 0 0 false,
      .grantReceive 0 0 (2 ^ 20) 0 0 false, .fabExpSet badCmd, .fabExpRead badCmd, .fabCflowRead badCmd, .timeRead badCmd,
      .timeSet badCmd, .timeStep badCmd, .timeRate badCmd, .timeSlew badCmd, .timeUnlock badCmd, .timeSwitch badCmd] :
      List Instr).all (fun i => !i.wf) = true := by
  decide +kernel

theorem test_wf_refuses_10 :
    ([.timeTxtsRead badCmd, .slewEnd 2, .timeLaneLoss 2, .timeLaneReturn 2, .ppsInEdge 2 0 0, .ppsInLoss 2, .ppsOutPulse 2,
      .synceSquelch 2, .synceResume 2, .synceCfgWrite 0 2 0, .synceCfgWrite 12 0 0, .synceCfgWrite 0 0 (2 ^ 32), .triggerFire 8,
      .triggerEnable 0 8 0, .triggerEnable 12 0 0, .triggerEnable 0 0 (2 ^ 32), .timSnap 12 0, .timSnap 0 (2 ^ 32),
      .pwrDomainPark badCmd, .domainDrained 40, .domainParkTimeout 40, .pwrDomainUnpark badCmd, .domainUnparkDone 40 false 0,
      .feedStateChange 2 0, .feedStateChange 0 3, .pwrGovSet badCmd, .pwrGovRead badCmd, .pwrFenceSet badCmd, .pwrFenceRead badCmd,
      .pwrFeedSet badCmd] :
      List Instr).all (fun i => !i.wf) = true := by
  decide +kernel

theorem test_wf_refuses_11 :
    ([.pwrFeedRead badCmd, .pwrFeedTest badCmd 0 0, .pwrFeedSwitch badCmd false false, .pwrSnapshot badCmd, .hbmLinkError 2 0 0 false,
      .hbmLinkError 0 6 0 false, .hbmLinkError 0 0 32 false, .refreshWindow 2 0 0 0, .refreshWindow 0 6 0 0, .refreshWindow 0 0 64 0,
      .refreshWindow 0 0 0 16, .stackTempRead 2 0 0, .stackTempRead 0 6 0, .stackTempRead 0 0 256, .scrubRead 2 0 0 [],
      .scrubRead 0 6 0 [], .stackNoResponse 2 0, .stackNoResponse 0 6, .selfRefreshEntry 6, .hbtTrain 12 0 0, .hbtTrain 0 6 0,
      .hbtTrain 0 0 (2 ^ 32), .hbtTrainDone 6 false 0, .errLogPopReg 12 0, .errLogPopReg 0 (2 ^ 32), .errLogPop badCmd none,
      .errInject badCmd, .errMsgRaise badCmd, .errSwRaise 12 0, .errSwRaise 0 (2 ^ 32)] :
      List Instr).all (fun i => !i.wf) = true := by
  decide +kernel

theorem test_wf_refuses_12 :
    ([.errVecRearm 12 0 0, .errVecRearm 0 512 0, .errVecRearm 0 0 (2 ^ 32), .msixUnmask 8 0 0 0 false false false,
      .msixUnmask 0 512 0 0 false false false, .msixUnmask 0 0 (2 ^ 64) 0 false false false,
      .msixUnmask 0 0 0 (2 ^ 32) false false false, .faultInputAssert 16 0, .faultInputStuck 16, .errFatalForce 12 0,
      .errFatalForce 0 (2 ^ 32), .watchdogExpiry 4, .pmcRunStart 12 0, .pmcRunStart 0 (2 ^ 32), .pmcRunStop 12 0, .pmcRunStop 0 (2 ^ 32),
      .pmcClr 12 0, .pmcClr 0 (2 ^ 32), .pmcCfgWrite 0 2 0 false 0, .pmcCfgWrite 0 0 2048 false 0, .pmcCfgWrite 12 0 0 false 0,
      .pmcCfgWrite 0 0 0 false (2 ^ 32), .pmcRead badCmd, .pmcWindowWrite 0 (2 ^ 27) 0, .pmcWindowWrite 12 0 0,
      .pmcWindowWrite 0 0 (2 ^ 32), .fwuInfo badCmd, .fwuSessionStart badCmd, .fwuChunk badCmd .hostError, .fwuBitmap badCmd] :
      List Instr).all (fun i => !i.wf) = true := by
  decide +kernel

theorem test_wf_refuses_13 :
    ([.fwuApply badCmd false, .fwuSessionAbort badCmd, .fwuActivate badCmd, .fwuConfirm badCmd, .fwuUcodeStage badCmd,
      .fwuMboxGo 12 0 false, .fwuMboxGo 0 (2 ^ 32) false, .primingStart { prime with chain := 64 }, .deviceReset 12 0,
      .deviceReset 0 (2 ^ 32), .dieResetFe 12 0, .dieResetFe 0 (2 ^ 32), .dieResetTm 12 0, .dieResetTm 0 (2 ^ 32), .dieResetDone 2 [],
      .blockResetDma 12 0, .blockResetDma 0 (2 ^ 32), .blockResetPmc 12 0, .blockResetPmc 0 (2 ^ 32), .blockResetFxe 12 0,
      .blockResetFxe 0 (2 ^ 32), .primingRelease 12 0, .primingRelease 0 (2 ^ 32), .refFreqRelock 12 0, .refFreqRelock 0 (2 ^ 32),
      .refClockLoss 9, .jtagBypass 1 2, .jtagExtest 1 2, .jtagExtestPulse 1 2, .jtagExtestTrain 1 2] :
      List Instr).all (fun i => !i.wf) = true := by
  decide +kernel

theorem test_wf_refuses_14 :
    ([.jtagClamp 1 2, .jtagHighz 1 2, .jtagRegAccess false (2 ^ 27) 0, .jtagRegAccess false 0 (2 ^ 32), .i3cEntdaa 128,
      .i3cPointerWrite [0], .i3cRegisterWrite [0], .overheadFrameTransmit 32 0, .overheadFrameTransmit 0 32,
      .perstDeassertion 16 0 false, .perstDeassertion 0 64 false, .faultInputDeassert 16 0, .ppsOutPulseEnd 2, .fabAckInterval 160,
      .fwFatal (2 ^ 32)] :
      List Instr).all (fun i => !i.wf) = true := by
  decide +kernel

end Sys2Proof.Tests
end

section
/-! SUPPORT. The slot arbiter of the ingress half (01 R24): counting and earning credit leave the packet path as it is, the next pass comes
from the highest class that holds one, and a granted slot takes that pass alone. -/

namespace Sys2Proof.Machine

open Sys2Proof

/-! ### Counters and credit leave the packet path -/

section
variable (s : State)

theorem State.foldl_path {α : Type} {f : State → α → State} (hf : ∀ t x, (f t x).path = t.path) (l : List α) : (l.foldl f s).path = s.path :=
  List.foldlRecOn (motive := fun t : State => t.path = s.path) l f rfl fun t ht x _ => (hf t x).trans ht

@[simp] theorem State.sendMessage_path (v : Nat) : (s.sendMessage v).path = s.path := by
  unfold State.sendMessage
  dsimp only
  split
  · rfl
  · split
    · split
      · rfl
      · split
        · rfl
        · rw [State.emit_path, State.satAdd_path]
    · split
      · exact s.satAdd_path _ _
      · rw [State.emit_path, State.satAdd_path]

theorem State.withSource_path {f : State → State} (hf : ∀ t, (f t).path = t.path) (n : Nat) : (s.withSource n f).path = s.path := by
  unfold State.withSource
  dsimp only
  split <;> simp [hf]

@[simp] theorem State.setEventBits_path (f : Fld) (v : Nat) : (s.setEventBits f v).path = s.path := by
  unfold State.setEventBits
  dsimp only
  split
  · split
    · refine s.foldl_path (fun t i => ?_) _
      split
      · exact t.withSource_path (fun u => by simp) _
      · rfl
    · exact s.withSource_path (fun t => by simp) _
  · simp

@[simp] theorem State.setEvent_path (f : Fld) : (s.setEvent f).path = s.path := by simp [State.setEvent]

@[simp] theorem State.pmcWrapped_path (b n : Nat) : (s.pmcWrapped b n).path = s.path := by
  unfold State.pmcWrapped
  dsimp only
  split <;> simp

@[simp] theorem State.pmcAdd_path (b n k : Nat) : (s.pmcAdd b n k).path = s.path := by
  unfold State.pmcAdd
  dsimp only
  split
  · rfl
  · split
    · split <;> simp
    · simp

@[simp] theorem State.pmc_path (ev inst qual k : Nat) : (s.pmc ev inst qual k).path = s.path := by
  unfold State.pmc
  dsimp only
  split
  · rfl
  · refine s.foldl_path (fun t n => ?_) _
    split <;> simp

@[simp] theorem State.earnCredit_path (i cycles : Nat) : (s.earnCredit i cycles).path = s.path := by simp [State.earnCredit]

end

/-- A slice is read from the packet path alone. -/
theorem State.slice_of_path {s t : State} (h : t.path = s.path) (i : Nat) : t.slice i = s.slice i := by simp [State.slice, h]

/-! ### The class that is served -/

theorem SliceState.nextPass_first {x : SliceState} {p : Pkt} {ps : List Pkt} (h : x.hold = p :: ps) :
    x.nextPass true = some (p, { x with hold := ps }) := by
  simp [SliceState.nextPass, h]

theorem SliceState.nextPass_recirc {x : SliceState} {p : Pkt} {ps : List Pkt} (hh : x.hold = []) (h : x.recirc = p :: ps) :
    x.nextPass true = some (p, { x with recirc := ps }) := by
  simp [SliceState.nextPass, hh, h]

theorem SliceState.nextPass_inject {x : SliceState} {p : Pkt} {ps : List Pkt} (hh : x.hold = []) (hr : x.recirc = [])
    (h : x.inject = p :: ps) : x.nextPass true = some (p, { x with inject := ps }) := by
  simp [SliceState.nextPass, hh, hr, h]

/-! ### A granted slot -/

theorem exec_slotGrant (slice idle : Nat) (s : State) : exec (.slotGrant slice idle) s = execSlotGrant slice idle s := rfl

/-- A slot that is granted leaves each class of the slice what the arbiter's choice left it, whether the pass issues its probes or the slice
freezes (07 R224). -/
theorem exec_slotGrant_classes {s : State} {slice idle : Nat} {p : Pkt} {y : SliceState} (hrun : s.stoppedForwarding = false) (hslice : slice < 16)
    (hthawed : (s.slice slice).frozen = false) (hpower : s.fget (Fld.PWR_DOM_STATE_STATE (3 + slice)) ≤ 1)
    (hnext : ((s.slice slice).tick idle).nextPass (!s.dieResetRuns) = some (p, y)) (hcap : ((s.slice slice).tick idle).grants < 2)
    (hslot : ((s.slice slice).tick idle).grants < ((s.slice slice).tick idle).slots (s.fget Fld.CAM_STATUS_STEP)) :
    ∃ t : State, exec (.slotGrant slice idle) s = .next t ∧ (t.slice slice).hold = y.hold ∧ (t.slice slice).recirc = y.recirc ∧
      (t.slice slice).inject = y.inject := by
  have hopen : ¬(16 ≤ slice ∨ s.stoppedForwarding = true ∨ (s.slice slice).frozen = true ∨
      1 < s.fget (Fld.PWR_DOM_STATE_STATE (3 + slice))) := by simp [hrun, hthawed]; omega
  have hearned : ∀ k, ((s.earnCredit slice idle).pmc 0x013 slice 0 k).slice slice = s.slice slice :=
    fun k => State.slice_of_path (by simp) slice
  rw [exec_slotGrant, execSlotGrant, if_neg hopen]
  simp only [hearned, hnext, if_neg (Nat.not_le.mpr hcap), if_neg (Nat.not_le.mpr hslot)]
  split_ifs <;> exact ⟨_, rfl, by simp⟩

end Sys2Proof.Machine
end

section
/-! CERTIFICATES. The slot arbiter's order (01 R24). -/

namespace Sys2Proof.Machine

open Sys2Proof

/-- Settles O11: what a grant leaves is what `nextPass` chose, and with no die reset that is the head of the highest class in the order of R24. -/
theorem slotOrder : Obligations.SlotOrder := by
  unfold Obligations.SlotOrder
  intro s slice idle hrun hslice hthawed hpower hdie x hcap hslot
  have grant : ∀ {p : Pkt} {y : SliceState}, x.nextPass true = some (p, y) → ∃ t : State, exec (.slotGrant slice idle) s = .next t ∧
      (t.slice slice).hold = y.hold ∧ (t.slice slice).recirc = y.recirc ∧ (t.slice slice).inject = y.inject := fun hnext =>
    exec_slotGrant_classes hrun hslice hthawed hpower (by rw [hdie]; exact hnext) hcap hslot
  refine ⟨fun p ps hold => ?first, fun p ps hold recirc => ?recirculated, fun p ps hold recirc inject => ?injected⟩
  case first => exact grant (SliceState.nextPass_first hold)
  case recirculated => simpa [hold] using grant (SliceState.nextPass_recirc hold recirc)
  case injected => simpa [hold, recirc] using grant (SliceState.nextPass_inject hold recirc inject)

end Sys2Proof.Machine
end

section
/-! SUPPORT. FlexE groups and their calendar switches (05 R162-R166): what an event leaves of the registers and the ports, what a group reads after
a write of a group, what abandoning a switch does to one group, and the overhead frame in which CR returns to 0. -/

namespace Sys2Proof.Machine

open Sys2Proof

/-! ### Messages and events (18 R525-R528)

A message writes the registers of vectors only, which lie below `Reg.ERR_VEC 512`. -/

section
variable (s : State)

theorem State.sendMessage_cases (v : Nat) :
    (∃ err : ErrState, s.sendMessage v = { s with err := err }) ∨ s.sendMessage v = s.satAdd (Fld.ERR_VEC_MSG_CNT v) 1 ∨
      ∃ o : Out, s.sendMessage v = (s.satAdd (Fld.ERR_VEC_MSG_CNT v) 1).emit o := by
  unfold State.sendMessage
  dsimp only
  split
  · exact .inl ⟨s.err, rfl⟩
  · split
    · split
      · exact .inl ⟨s.err, rfl⟩
      · split
        · exact .inl ⟨_, rfl⟩
        · exact .inr (.inr ⟨_, rfl⟩)
    · split
      · exact .inr (.inl rfl)
      · exact .inr (.inr ⟨_, rfl⟩)

@[simp] theorem State.sendMessage_ports (v : Nat) : (s.sendMessage v).ports = s.ports := by
  obtain ⟨err, h⟩ | h | ⟨o, h⟩ := s.sendMessage_cases v
  · rw [h]
  · rw [h, State.satAdd_ports]
  · rw [h, State.emit_ports, State.satAdd_ports]

theorem State.sendMessage_reg {v off : Nat} (h : off ≠ Reg.ERR_VEC v) : (s.sendMessage v).reg off = s.reg off := by
  have counted : (s.satAdd (Fld.ERR_VEC_MSG_CNT v) 1).reg off = s.reg off := by
    rw [State.satAdd, s.reg_fset_other (Fld.ERR_VEC_MSG_CNT v) h]
  obtain ⟨err, h⟩ | h | ⟨o, h⟩ := s.sendMessage_cases v
  · rw [h]; exact State.reg_congr rfl off
  · rw [h, counted]
  · rw [h, State.emit_reg, counted]

theorem State.sourceMap_vector_lt (n : Nat) : (s.sourceMap n).1 < 512 := by
  unfold State.sourceMap
  split_ifs <;> exact bitsAt_lt _ _ 9

theorem State.withSource_cases (n : Nat) (f : State → State) :
    s.withSource n f = f s ∨ ∃ v < 512, s.withSource n f = (f s).sendMessage v := by
  unfold State.withSource
  dsimp only
  split
  · exact .inr ⟨_, s.sourceMap_vector_lt n, rfl⟩
  · exact .inl rfl

/-- Only TIM_EVENT has event bits of several sources, and those from bit 16 up: any other event is one write, and at most one message. -/
theorem State.setEvent_cases {f : Fld} (hlo : f.lo < 16) :
    s.setEvent f = s.fset f (s.fget f ||| 1) ∨ ∃ v < 512, s.setEvent f = (s.fset f (s.fget f ||| 1)).sendMessage v := by
  unfold State.setEvent State.setEventBits
  dsimp only
  split
  case h_1 n _ =>
    rw [if_neg fun h => absurd hlo (Nat.not_lt.mpr h.2)]
    exact s.withSource_cases n _
  case h_2 => exact .inl rfl

theorem State.setEvent_ports {f : Fld} (hlo : f.lo < 16) : (s.setEvent f).ports = s.ports := by
  obtain h | ⟨v, -, h⟩ := s.setEvent_cases hlo <;> simp [h]

theorem State.setEvent_fget {f g : Fld} (hlo : f.lo < 16) (hg : Reg.ERR_VEC 512 ≤ g.reg) :
    (s.setEvent f).fget g = (s.fset f (s.fget f ||| 1)).fget g := by
  obtain h | ⟨v, hv, h⟩ := s.setEvent_cases hlo
  · rw [h]
  · have past : g.reg ≠ Reg.ERR_VEC v := by simp only [Reg.ERR_VEC] at hg ⊢; omega
    rw [h, State.fget, State.sendMessage_reg _ past, ← State.fget]

theorem State.setEvent_fget_other {f g : Fld} (hlo : f.lo < 16) (hg : Reg.ERR_VEC 512 ≤ g.reg) (h : g.reg ≠ f.reg) :
    (s.setEvent f).fget g = s.fget g := by
  rw [s.setEvent_fget hlo hg, s.fget_fset_other _ _ _ h]

theorem State.setEvent_fbit_same {f : Fld} (hlo : f.lo < 16) (hw : f.w = 1) (hf : Reg.ERR_VEC 512 ≤ f.reg) : (s.setEvent f).fbit f = true := by
  have one : (s.fget f ||| 1) % 2 ^ f.w = 1 := by rw [hw]; simp
  rw [State.fbit, s.setEvent_fget hlo hf, State.fget_fset_same _ _ _ (by omega), one]
  rfl

/-! ### Groups -/

@[simp] theorem State.setGroup_regs (f : Nat) (g : FlexeGroup) : (s.setGroup f g).regs = s.regs := rfl

theorem State.setGroup_group (i f : Nat) (g : FlexeGroup) : (s.setGroup i g).group f = if f = i then g else s.group f :=
  Assoc.get_put s.ports.groups flexeGroup0 i f g

@[simp] theorem State.setGroup_group_same (f : Nat) (g : FlexeGroup) : (s.setGroup f g).group f = g := by simp [State.setGroup_group]

end

/-- A group is read from the ports alone. -/
theorem State.group_of_ports {s t : State} (h : t.ports = s.ports) (f : Nat) : t.group f = s.group f := by simp [State.group, h]

/-! ### One group of a switch that is abandoned (R165) -/

/-- What the timeout does to each group of the switch. -/
def State.abandonOn (s : State) (g : Nat) : State :=
  ((s.setGroup g { s.group g with crClear := true }).fset (Fld.FXE_GRP_STATUS_SWITCHING g) 0).setEvent (Fld.FXE_GRP_EVENT_SWITCH_TIMEOUT g)

theorem exec_calSwitchTimeout {s : State} {f : Nat} {w : CalSwitch} (h : (s.group f).switch = some w) :
    exec (.calSwitchTimeout f) s
      = .next (((w.groups f).foldl State.abandonOn (s.setGroup f { s.group f with switch := none })).complete w.cmd 0x0A03 stTimeout 0 0) := by
  change execCalSwitchTimeout f s = _
  rw [execCalSwitchTimeout, h]
  rfl

section
variable (s : State) (g f : Nat)

theorem State.abandonOn_group : (s.abandonOn g).group f = if f = g then { s.group f with crClear := true } else s.group f := by
  have ports : (s.abandonOn g).ports = (s.setGroup g { s.group g with crClear := true }).ports := by
    rw [State.abandonOn, State.setEvent_ports _ (by decide : 2 < 16), State.fset_ports]
  rw [State.group_of_ports ports, State.setGroup_group]
  split
  · subst f; rfl
  · rfl

/-- Of the registers past the vectors', the group's SWITCHING and its events alone are written. -/
theorem State.abandonOn_fget {h : Fld} (hpast : Reg.ERR_VEC 512 ≤ h.reg) (hevent : h.reg ≠ Reg.FXE_GRP_EVENT g)
    (hstatus : h.reg ≠ Reg.FXE_GRP_STATUS g ∨ h.lo + h.w ≤ 2) : (s.abandonOn g).fget h = s.fget h := by
  rw [State.abandonOn, State.setEvent_fget_other _ (by decide : 2 < 16) hpast hevent]
  obtain hreg | hlow := hstatus
  · exact (State.fget_fset_other _ _ _ _ hreg).trans (State.fget_congr rfl h)
  · exact (State.fget_fset_apart _ _ _ _ (by decide : 2 + 1 ≤ 32) (.inl hlow)).trans (State.fget_congr rfl h)

theorem State.abandonOn_txPage : (s.abandonOn g).txPage f = s.txPage f :=
  s.abandonOn_fget g (by simp only [Reg.ERR_VEC, Fld.FXE_GRP_STATUS_TX_PAGE, Reg.FXE_GRP_STATUS]; omega)
    (by simp only [Fld.FXE_GRP_STATUS_TX_PAGE, Reg.FXE_GRP_STATUS, Reg.FXE_GRP_EVENT]; omega) (.inr (by decide : 0 + 1 ≤ 2))

theorem State.abandonOn_groupEn : (s.abandonOn g).groupEn f = s.groupEn f := by
  have field : (s.abandonOn g).fget (Fld.FXE_GRP_CFG_EN f) = s.fget (Fld.FXE_GRP_CFG_EN f) :=
    s.abandonOn_fget g (by simp only [Reg.ERR_VEC, Fld.FXE_GRP_CFG_EN, Reg.FXE_GRP_CFG]; omega)
      (by simp only [Fld.FXE_GRP_CFG_EN, Reg.FXE_GRP_CFG, Reg.FXE_GRP_EVENT]; omega) (.inr (by decide : 0 + 1 ≤ 2))
  rw [State.groupEn, State.groupEn, State.fbit, State.fbit, field]

end

/-- What holds of a group `f` once a switch of it is abandoned: what it keeps, no switch waits, and CR is to return to 0. -/
structure State.SwitchAbandoned (s : State) (f : Nat) (t : State) : Prop where
  txPage : t.txPage f = s.txPage f
  groupEn : t.groupEn f = s.groupEn f
  txCal : (t.group f).txCal = (s.group f).txCal
  switch : (t.group f).switch = none
  crClear : (t.group f).crClear = true
  timeout : t.fbit (Fld.FXE_GRP_EVENT_SWITCH_TIMEOUT f) = true

theorem State.abandonOn_timeout_same (s : State) (f : Nat) : (s.abandonOn f).fbit (Fld.FXE_GRP_EVENT_SWITCH_TIMEOUT f) = true :=
  State.setEvent_fbit_same _ (by decide : 2 < 16) rfl
    (by simp only [Reg.ERR_VEC, Fld.FXE_GRP_EVENT_SWITCH_TIMEOUT, Reg.FXE_GRP_EVENT]; omega)

theorem State.abandonOn_timeout {s : State} {f : Nat} (g : Nat) (h : s.fbit (Fld.FXE_GRP_EVENT_SWITCH_TIMEOUT f) = true) :
    (s.abandonOn g).fbit (Fld.FXE_GRP_EVENT_SWITCH_TIMEOUT f) = true := by
  by_cases e : f = g
  · subst e; exact s.abandonOn_timeout_same f
  · rw [State.fbit, s.abandonOn_fget, ← State.fbit, h]
    all_goals simp only [Reg.ERR_VEC, Fld.FXE_GRP_EVENT_SWITCH_TIMEOUT, Reg.FXE_GRP_EVENT, Reg.FXE_GRP_STATUS]; omega

/-- The switch of a group is withdrawn and the group abandoned. -/
theorem State.switchAbandoned_abandonOn (s : State) (f : Nat) :
    s.SwitchAbandoned f ((s.setGroup f { s.group f with switch := none }).abandonOn f) where
  txPage := State.abandonOn_txPage ..
  groupEn := State.abandonOn_groupEn ..
  txCal := by simp [State.abandonOn_group]
  switch := by simp [State.abandonOn_group]
  crClear := by simp [State.abandonOn_group]
  timeout := State.abandonOn_timeout_same _ f

/-- Abandoning a further group, as PAIR asks (R166), or the same one again. -/
theorem State.SwitchAbandoned.abandonOn {s t : State} {f : Nat} (h : s.SwitchAbandoned f t) (g : Nat) :
    s.SwitchAbandoned f (t.abandonOn g) where
  txPage := (t.abandonOn_txPage g f).trans h.txPage
  groupEn := (t.abandonOn_groupEn g f).trans h.groupEn
  txCal := by rw [← h.txCal, State.abandonOn_group]; split <;> rfl
  switch := by rw [← h.switch, State.abandonOn_group]; split <;> rfl
  crClear := by
    rw [State.abandonOn_group]
    split
    · rfl
    · exact h.crClear
  timeout := State.abandonOn_timeout g h.timeout

theorem CalSwitch.groups_eq_cons (w : CalSwitch) (f : Nat) : ∃ others, w.groups f = f :: others := by
  unfold CalSwitch.groups
  split <;> exact ⟨_, rfl⟩

theorem State.switchAbandoned_groups (s : State) (f : Nat) (w : CalSwitch) :
    s.SwitchAbandoned f ((w.groups f).foldl State.abandonOn (s.setGroup f { s.group f with switch := none })) := by
  obtain ⟨others, e⟩ := w.groups_eq_cons f
  rw [e, List.foldl_cons]
  exact List.foldlRecOn (motive := s.SwitchAbandoned f) others State.abandonOn (s.switchAbandoned_abandonOn f) fun _ h g _ => h.abandonOn g

/-! ### The next overhead frame -/

theorem State.foldl_emit_regs {α : Type} (s : State) (out : State → α → Out) (l : List α) :
    (l.foldl (fun t x => t.emit (out t x)) s).regs = s.regs :=
  List.foldlRecOn (motive := fun t : State => t.regs = s.regs) l _ rfl fun _ h _ _ => h

/-- A group with no switch waiting sends a frame once CR is to return to 0: of the registers, it writes CR alone. -/
theorem exec_overheadFrameTransmit_crClear {s : State} {f index : Nat} (hen : s.groupEn f = true) (hindex : index < 32)
    (hcr : (s.group f).crClear = true) (hswitch : (s.group f).switch = none) :
    ∃ t : State, exec (.overheadFrameTransmit f index) s = .next t ∧ t.regs = (s.fset (Fld.FXE_GRP_STATUS_CR_TX f) 0).regs := by
  have hopen : ¬(s.groupEn f = false ∨ 32 ≤ index) := by simp [hen, hindex]
  have hgroup : (((s.setGroup f { s.group f with crClear := false }).fset (Fld.FXE_GRP_STATUS_CR_TX f) 0).group f).switch = none := by
    rw [State.group_of_ports (State.fset_ports _ _ _), State.setGroup_group_same, hswitch]
  change ∃ t : State, execOverheadFrameTransmit f index s = .next t ∧ _
  rw [execOverheadFrameTransmit, if_neg hopen]
  simp only [hcr, if_true, hgroup]
  refine ⟨_, rfl, (State.foldl_emit_regs _ _ _).trans ?_⟩
  split <;> rfl

end Sys2Proof.Machine
end

section
/-! CERTIFICATES. A calendar switch abandoned by its timeout (05 R165). -/

namespace Sys2Proof.Machine

open Sys2Proof

/-- Settles O14: each group of the switch keeps its page and calendar and is marked for CR to return to 0, which its next overhead frame does. -/
theorem calendarSwitchTimeout : Obligations.CalendarSwitchTimeout := by
  unfold Obligations.CalendarSwitchTimeout
  intro s f w _ hswitch hen
  have abandoned := s.switchAbandoned_groups f w
  refine ⟨_, exec_calSwitchTimeout hswitch, abandoned.txPage, abandoned.txCal, abandoned.timeout, fun index hindex => ?_⟩
  obtain ⟨v, hv, hregs⟩ := exec_overheadFrameTransmit_crClear (abandoned.groupEn.trans hen) hindex abandoned.crClear abandoned.switch
  refine ⟨v, hv, ?cr, ?page⟩
  case cr => rw [State.fget_congr hregs, State.fget_fset_same _ _ _ (by decide : 3 + 1 ≤ 32), Nat.zero_mod]
  case page =>
    rw [State.txPage, State.fget_congr hregs, State.fget_fset_apart _ _ _ _ (by decide : 3 + 1 ≤ 32) (.inl (by decide : 0 + 1 ≤ 3))]
    exact abandoned.txPage

end Sys2Proof.Machine
end

section
/-! SUPPORT. Device time at READY (15 R445): what it holds, the writes that keep it so, and READY as the sequence of its stages. -/

namespace Sys2Proof.Machine

open Sys2Proof

/-- A message writes no device time. -/
@[simp] theorem State.sendMessage_tim (s : State) (v : Nat) : (s.sendMessage v).tim = s.tim := by
  obtain ⟨err, h⟩ | h | ⟨o, h⟩ := s.sendMessage_cases v
  · rw [h]
  · rw [h, State.satAdd_tim]
  · rw [h, State.emit_tim, State.satAdd_tim]

theorem State.pulse_cases (s : State) (n : Nat) : s.pulse n = s ∨ ∃ v < 512, s.pulse n = s.sendMessage v := by
  unfold State.pulse
  dsimp only
  split
  · exact .inr ⟨_, s.sourceMap_vector_lt n, rfl⟩
  · exact .inl rfl

/-- Device time as 15 R445 gives it. -/
structure State.TimeAsAtReady (s : State) : Prop where
  dom0 : s.tim.dom0 = timeZero
  dom1 : s.tim.dom1 = timeZero
  stampDom : s.fget Fld.TIM_STATUS_STAMP_DOM = 0

namespace State.TimeAsAtReady

variable {s : State}

theorem timeDomain (h : s.TimeAsAtReady) (d : Nat) : s.timeDomain d = timeZero := by
  unfold State.timeDomain
  split
  · exact h.dom0
  · exact h.dom1

/-- It is read from the registers and the time unit alone. -/
theorem congr {t : State} (h : s.TimeAsAtReady) (hregs : t.regs = s.regs) (htim : t.tim = s.tim) : t.TimeAsAtReady where
  dom0 := htim ▸ h.dom0
  dom1 := htim ▸ h.dom1
  stampDom := (State.fget_congr hregs _).trans h.stampDom

theorem emit (h : s.TimeAsAtReady) (o : Out) : (s.emit o).TimeAsAtReady := h.congr rfl rfl

theorem fset (h : s.TimeAsAtReady) {f : Fld} (hf : Reg.TIM_STATUS ≠ f.reg) (v : Nat) : (s.fset f v).TimeAsAtReady where
  dom0 := by rw [State.fset_tim, h.dom0]
  dom1 := by rw [State.fset_tim, h.dom1]
  stampDom := (s.fget_fset_other f Fld.TIM_STATUS_STAMP_DOM v hf).trans h.stampDom

theorem sendMessage (h : s.TimeAsAtReady) {v : Nat} (hv : v < 512) : (s.sendMessage v).TimeAsAtReady where
  dom0 := by rw [State.sendMessage_tim, h.dom0]
  dom1 := by rw [State.sendMessage_tim, h.dom1]
  stampDom := by
    have past : Reg.TIM_STATUS ≠ Reg.ERR_VEC v := by simp only [Reg.TIM_STATUS, Reg.ERR_VEC]; omega
    rw [State.fget, s.sendMessage_reg (off := Fld.TIM_STATUS_STAMP_DOM.reg) past, ← State.fget, h.stampDom]

theorem setFwPhase (h : s.TimeAsAtReady) (p : Nat) : (s.setFwPhase p).TimeAsAtReady := by
  have phase : (s.fset Fld.FWU_STATUS_PHASE p).TimeAsAtReady := h.fset (by decide) p
  unfold State.setFwPhase
  obtain e | ⟨v, hv, e⟩ := (s.fset Fld.FWU_STATUS_PHASE p).pulse_cases 732
  · rw [e]; exact phase
  · rw [e]; exact phase.sendMessage hv

/-- A trial marks its bank, records the handover and shows the phase. -/
theorem bootTrial (h : s.TimeAsAtReady) : s.bootTrial.TimeAsAtReady := by
  unfold State.bootTrial
  dsimp only
  split
  · exact h
  · refine State.TimeAsAtReady.setFwPhase ?_ 3
    exact h.congr rfl rfl

end State.TimeAsAtReady

/-! ### The stages of READY -/

/-- READY's registers: the phase, the PLL and the stamping domain. -/
def State.readyRegs (s : State) : State :=
  (((s.fset Fld.RST_STATUS_PHASE 8).fset Fld.RST_STATUS_READY 1).fset Fld.TIM_STATUS_PLL_LOCK
    (s.fget Fld.TIM_STATUS_REF_PRESENT)).fset Fld.TIM_STATUS_STAMP_DOM 0

/-- Both domains are loaded, and the release is used up. -/
def State.loadReady (s : State) : State :=
  { s with rst := { s.rst with released := false }, tim := { s.tim with dom0 := timeZero, dom1 := timeZero } }

/-- THERM_TRIP_N is released. -/
def State.releaseThermTrip (s : State) : State :=
  if s.pwr.thermTrip then ({ s with pwr := { s.pwr with thermTrip := false } }).emit (.pin 2 true) else s

/-- The wellhead sends discovery both ways. -/
def State.sendDiscovery (s : State) : State :=
  if s.fget Fld.IGL_CTRL_ROLE = 1 then
    ((({ s with chain := { s.chain with active := true } }).fset Fld.IGL_STATUS_WELLHEAD_ID (s.fget Fld.IGL_ID_CHAIN_ID)).emit
      (.discovery true)).emit (.discovery false)
  else s

/-- A chain link that is not enabled is down. -/
def State.linkDownUnless (s : State) (en up : Fld) : State := if s.fbit en then s else s.fset up 0

theorem exec_ready {s : State} (hoff : s.off = false) (hreleased : s.rst.released = true)
    (hphase : s.fget Fld.RST_STATUS_PHASE = 6 ∨ s.fget Fld.RST_STATUS_PHASE = 7) :
    exec .ready s = .next ((s.readyRegs.loadReady.releaseThermTrip.sendDiscovery.linkDownUnless Fld.IGL_CTRL_EAST_EN
      Fld.IGL_STATUS_EAST_UP).linkDownUnless Fld.IGL_CTRL_WEST_EN Fld.IGL_STATUS_WEST_UP).bootTrial := by
  have htaken : ¬(s.off = true ∨ s.rst.released = false ∨ s.fget Fld.RST_STATUS_PHASE ≠ 6 ∧ s.fget Fld.RST_STATUS_PHASE ≠ 7) := by
    simp [hoff, hreleased]; omega
  change execReady s = _
  rw [execReady, if_neg htaken]
  rfl

theorem State.readyRegs_stampDom (s : State) : s.readyRegs.fget Fld.TIM_STATUS_STAMP_DOM = 0 :=
  State.fget_fset_same _ Fld.TIM_STATUS_STAMP_DOM 0 (by decide)

theorem State.loadReady_timeAsAtReady {s : State} (h : s.fget Fld.TIM_STATUS_STAMP_DOM = 0) : s.loadReady.TimeAsAtReady where
  dom0 := rfl
  dom1 := rfl
  stampDom := (State.fget_congr (t := s) rfl _).trans h

namespace State.TimeAsAtReady

variable {s : State}

theorem releaseThermTrip (h : s.TimeAsAtReady) : s.releaseThermTrip.TimeAsAtReady := by
  unfold State.releaseThermTrip
  split
  · exact h.congr rfl rfl
  · exact h

theorem sendDiscovery (h : s.TimeAsAtReady) : s.sendDiscovery.TimeAsAtReady := by
  unfold State.sendDiscovery
  split
  · have active : ({ s with chain := { s.chain with active := true } } : State).TimeAsAtReady := h.congr rfl rfl
    exact ((active.fset (by decide) _).emit _).emit _
  · exact h

theorem linkDownUnless (h : s.TimeAsAtReady) (en : Fld) {up : Fld} (hup : Reg.TIM_STATUS ≠ up.reg) :
    (s.linkDownUnless en up).TimeAsAtReady := by
  unfold State.linkDownUnless
  split
  · exact h
  · exact h.fset hup 0

end State.TimeAsAtReady

end Sys2Proof.Machine
end

section
/-! CERTIFICATES. Device time at READY (15 R445). -/

namespace Sys2Proof.Machine

open Sys2Proof

/-- Settles O12: READY's first two stages load the stamping domain and both domains, and every later stage keeps them. -/
theorem timeAtReady : Obligations.TimeAtReady := by
  unfold Obligations.TimeAtReady
  intro s hoff hreleased hphase
  have hchain := (State.loadReady_timeAsAtReady s.readyRegs_stampDom).releaseThermTrip.sendDiscovery
  have heast := hchain.linkDownUnless Fld.IGL_CTRL_EAST_EN (up := Fld.IGL_STATUS_EAST_UP) (by decide)
  have hlinks := heast.linkDownUnless Fld.IGL_CTRL_WEST_EN (up := Fld.IGL_STATUS_WEST_UP) (by decide)
  refine ⟨_, exec_ready hoff hreleased hphase, hlinks.bootTrial.stampDom, fun d _ => ?_⟩
  rw [hlinks.bootTrial.timeDomain d]
  exact ⟨rfl, rfl, rfl, rfl, rfl, rfl, rfl⟩

end Sys2Proof.Machine
end

section
/-! SUPPORT. The Well log (18 R534-R539): the freeze, what a step of the dump does by whether a log can be written, and that a dump adds to what
the block has emitted and takes nothing back. -/

namespace Sys2Proof.Machine

open Sys2Proof

/-! ### The freeze (R535) -/

section
variable (s : State)

@[simp] theorem State.freeze_fatal : s.freeze.err.fatal = .frozen := by simp [State.freeze]

@[simp] theorem State.freeze_outs : s.freeze.outs = s.outs := by simp [State.freeze]

theorem State.freeze_frozen : s.freeze.fget Fld.ERR_STATUS_FROZEN = 1 := by
  rw [State.freeze, State.fget_fset_same _ _ _ (by decide : 8 + 1 ≤ 32)]
  rfl

theorem State.freeze_fget_other {f : Fld} (h : f.reg ≠ Reg.ERR_STATUS) : s.freeze.fget f = s.fget f :=
  (State.fget_fset_other _ Fld.ERR_STATUS_FROZEN f 1 h).trans (State.fget_congr rfl f)

/-- The device freezes without a log: STATE gives the reason, and nothing is emitted. -/
def State.freezeUnwritten (state : Nat) : State := (s.fset Fld.ERR_WL_STATUS_STATE state).freeze

theorem State.freezeUnwritten_outs (state : Nat) : (s.freezeUnwritten state).outs = s.outs := by simp [State.freezeUnwritten]

theorem State.freezeUnwritten_state (state : Nat) : (s.freezeUnwritten state).fget Fld.ERR_WL_STATUS_STATE = state % 8 := by
  rw [State.freezeUnwritten, State.freeze_fget_other _ (by decide), State.fget_fset_same _ _ _ (by decide : 0 + 3 ≤ 32)]
  rfl

end

/-! ### A step of the dump -/

/-- The next `n` sections, and the end of the dump where a write has failed or no section is left. -/
def State.wellStep (s : State) (n : Nat) (bodies : List (Nat × List Byte)) (failed : Bool) : State :=
  let t := wellRun n bodies s
  if failed then t.wellEnd 4 else if t.wellTypes.length ≤ t.err.wellSections.length then t.wellFinish else t

section
variable {s : State} (n : Nat) (bodies : List (Nat × List Byte)) (failed : Bool)

theorem exec_wellLogDump_stopped (hoff : s.off = false) (hstopped : s.err.fatal = .stopped) :
    exec (.wellLogDump n bodies failed) s =
      if s.fget Fld.ERR_WL_SIZE_SIZE_MIB = 0 then .next (s.freezeUnwritten 6)
      else if s.rst.firmwareUp = false then .next (s.freezeUnwritten 7)
      else .next (s.wellBegin.wellStep n bodies failed) := by
  change execWellLogDump n bodies failed s = _
  simp only [execWellLogDump, hoff, hstopped]
  rfl

theorem exec_wellLogDump_unwritten (hoff : s.off = false) (hstopped : s.err.fatal = .stopped)
    (hcannot : s.fget Fld.ERR_WL_SIZE_SIZE_MIB = 0 ∨ s.rst.firmwareUp = false) :
    exec (.wellLogDump n bodies failed) s = .next (s.freezeUnwritten (if s.fget Fld.ERR_WL_SIZE_SIZE_MIB = 0 then 6 else 7)) := by
  rw [exec_wellLogDump_stopped n bodies failed hoff hstopped]
  by_cases hsize : s.fget Fld.ERR_WL_SIZE_SIZE_MIB = 0
  · rw [if_pos hsize, if_pos hsize]
  · rw [if_neg hsize, if_neg hsize, if_pos (hcannot.resolve_left hsize)]

theorem exec_wellLogDump_written (hoff : s.off = false) (hstopped : s.err.fatal = .stopped)
    (hsize : s.fget Fld.ERR_WL_SIZE_SIZE_MIB ≠ 0) (hup : s.rst.firmwareUp = true) :
    exec (.wellLogDump n bodies failed) s = .next (s.wellBegin.wellStep n bodies failed) := by
  rw [exec_wellLogDump_stopped n bodies failed hoff hstopped, if_neg hsize, if_neg (by simp [hup])]

end

/-! ### What has been emitted stays -/

theorem State.sendMessage_outs_grows (s : State) (v : Nat) : s.outs <+: (s.sendMessage v).outs := by
  obtain ⟨err, h⟩ | h | ⟨o, h⟩ := s.sendMessage_cases v
  · rw [h]
  · rw [h, State.satAdd_outs]
  · rw [h, State.emit_outs, State.satAdd_outs]; exact ⟨_, rfl⟩

theorem State.pulse_outs_grows (s : State) (n : Nat) : s.outs <+: (s.pulse n).outs := by
  obtain h | ⟨v, -, h⟩ := s.pulse_cases n
  · rw [h]
  · rw [h]; exact s.sendMessage_outs_grows v

theorem State.wellEnd_outs_grows (s : State) (state : Nat) : s.outs <+: (s.wellEnd state).outs := by
  rw [State.wellEnd, State.freeze_outs]
  simpa using (s.fset Fld.ERR_WL_STATUS_STATE state).pulse_outs_grows 729

theorem State.wellFinish_outs_grows (s : State) : s.outs <+: s.wellFinish.outs := by
  refine List.IsPrefix.trans ?_ (State.wellEnd_outs_grows _ _)
  simp only [State.emit_outs, List.append_assoc]
  exact ⟨_, rfl⟩

/-- After a fatal error no event counter advances (R533). -/
theorem State.pmc_of_stopped {s : State} (h : s.err.fatal ≠ .running) (ev inst qual k : Nat) : s.pmc ev inst qual k = s := by
  have hrun : ∀ b, s.pmcRunning b = false := fun b => by simp [State.pmcRunning, State.stoppedForwarding, h]
  simp [State.pmc, hrun]

/-! ### A section (R538) -/

/-- A section is noted after those of `secs`. -/
def State.noteSection (s : State) (secs : List (Nat × Nat × Nat × Nat × Nat)) (desc : Nat × Nat × Nat × Nat × Nat) : State :=
  (({ s with err := { s.err with wellSections := secs ++ [desc] } }).fset Fld.ERR_WL_STATUS_SECTIONS (secs.length + 1)).fset
    Fld.ERR_WL_BYTES_BYTES (wellTotal (secs ++ [desc]))

/-- The record of a section's write. -/
def wellRecord (type n : Nat) : DmaRecord :=
  { channel := 15, requester := 7, status := stOK, tag := type, bytesDone := n, mismatch := 0 }

/-- A section's bytes go to host memory, and their record becomes due. -/
def State.writeSection (s : State) (type addr : Nat) (bytes : List Byte) : State :=
  let written := s.emit (.hostWrite addr bytes)
  ({ written with dma := { written.dma with due := written.dma.due ++ [wellRecord type bytes.length] } }).pmc 0x062 15 0 bytes.length

/-- A section is omitted or unreadable, or else written. -/
theorem State.wellSection_cases (s : State) (type : Nat) (given : Nat × List Byte) :
    (∃ desc, s.wellSection type given = s.noteSection s.err.wellSections desc) ∨
      ∃ addr bytes desc, s.wellSection type given = (s.writeSection type addr bytes).noteSection s.err.wellSections desc := by
  unfold State.wellSection
  dsimp only
  split_ifs
  · exact .inl ⟨(type, 1, 0, 0, 0), rfl⟩
  · exact .inl ⟨(type, (s.wellBody type given).1, wellNext s.err.wellSections, 0, 0), rfl⟩
  · exact .inr ⟨s.wellBase + wellNext s.err.wellSections, (s.wellBody type given).2, _, rfl⟩

/-- A dump that has come from `s` to `t` runs on, and all that `s` had emitted stands. -/
structure State.DumpsTo (s t : State) : Prop where
  dumping : t.err.fatal = .dumping
  outs : s.outs <+: t.outs

namespace State.DumpsTo

variable {s t : State}

theorem refl (h : s.err.fatal = .dumping) : s.DumpsTo s := ⟨h, [], s.outs.append_nil⟩

theorem congr {u : State} (h : s.DumpsTo t) (herr : u.err.fatal = t.err.fatal) (houts : u.outs = t.outs) : s.DumpsTo u :=
  ⟨herr.trans h.dumping, houts ▸ h.outs⟩

theorem fset (h : s.DumpsTo t) (f : Fld) (v : Nat) : s.DumpsTo (t.fset f v) := h.congr (by simp) (by simp)

theorem emit (h : s.DumpsTo t) (o : Out) : s.DumpsTo (t.emit o) := ⟨h.dumping, h.outs.trans ⟨_, rfl⟩⟩

theorem pmc (h : s.DumpsTo t) (ev inst qual k : Nat) : s.DumpsTo (t.pmc ev inst qual k) := by
  rw [State.pmc_of_stopped (by simp [h.dumping])]; exact h

theorem noteSection (h : s.DumpsTo t) (secs : List (Nat × Nat × Nat × Nat × Nat)) (desc : Nat × Nat × Nat × Nat × Nat) :
    s.DumpsTo (t.noteSection secs desc) := by
  have noted : s.DumpsTo { t with err := { t.err with wellSections := secs ++ [desc] } } := h.congr rfl rfl
  exact (noted.fset _ _).fset _ _

theorem writeSection (h : s.DumpsTo t) (type addr : Nat) (bytes : List Byte) : s.DumpsTo (t.writeSection type addr bytes) := by
  unfold State.writeSection
  refine State.DumpsTo.pmc ?_ 0x062 15 0 bytes.length
  exact (h.emit (.hostWrite addr bytes)).congr rfl rfl

theorem wellSection (h : s.DumpsTo t) (type : Nat) (given : Nat × List Byte) : s.DumpsTo (t.wellSection type given) := by
  obtain ⟨desc, e⟩ | ⟨addr, bytes, desc, e⟩ := t.wellSection_cases type given
  · rw [e]; exact h.noteSection _ _
  · rw [e]; exact (h.writeSection _ _ _).noteSection _ _

theorem wellRun (h : s.DumpsTo t) (n : Nat) (bodies : List (Nat × List Byte)) : s.DumpsTo (wellRun n bodies t) := by
  induction n generalizing t bodies with
  | zero => exact h
  | succ n ih =>
    rw [Machine.wellRun]
    split
    case h_1 => exact h
    case h_2 type _ _ =>
      dsimp only
      have ready := h.fset Fld.ERR_WL_STATUS_WAIT_RQ 0
      split_ifs
      · exact h.fset _ _
      · exact ih (ready.wellSection _ _) _
      · exact ih (ready.wellSection _ _) _

theorem outs_wellStep (h : s.DumpsTo t) (n : Nat) (bodies : List (Nat × List Byte)) (failed : Bool) :
    s.outs <+: (t.wellStep n bodies failed).outs := by
  have run := (h.wellRun n bodies).outs
  unfold State.wellStep
  dsimp only
  split_ifs
  · exact run.trans (State.wellEnd_outs_grows _ _)
  · exact run.trans (State.wellFinish_outs_grows _)
  · exact run

end State.DumpsTo

/-! ### The dump begins -/

/-- The state whose header the dump writes first. -/
def State.wellStart (s : State) : State :=
  ((({ s with err := { s.err with fatal := .dumping, wellSections := [] } }).fset Fld.ERR_WL_STATUS_STATE 1).fset
    Fld.ERR_WL_STATUS_SECTIONS 0).fset Fld.ERR_WL_BYTES_BYTES 4096

theorem State.wellBegin_eq (s : State) :
    s.wellBegin = s.wellStart.emit (.hostWrite s.wellStart.wellBase (s.wellStart.wellHeader 1)) := rfl

theorem State.wellStart_fatal (s : State) : s.wellStart.err.fatal = .dumping := by simp [State.wellStart]

theorem State.wellStart_outs (s : State) : s.wellStart.outs = s.outs := by simp [State.wellStart]

theorem State.wellBegin_fatal (s : State) : s.wellBegin.err.fatal = .dumping := by
  rw [State.wellBegin_eq, State.emit_err, State.wellStart_fatal]

theorem State.emit_wellBase (s : State) (o : Out) : (s.emit o).wellBase = s.wellBase := by simp [State.wellBase, State.pair]

theorem State.emit_wellHeader (s : State) (o : Out) (status : Nat) : (s.emit o).wellHeader status = s.wellHeader status := by
  have part : ∀ crc, (s.emit o).wellHeaderWith status crc = s.wellHeaderWith status crc := fun crc => by
    simp [State.wellHeaderWith, State.ownId]
  simp only [State.wellHeader, part]

/-- Its header does not read what is emitted, so it is the one of the state in which the dump goes on. -/
theorem State.wellBegin_outs (s : State) : s.wellBegin.outs = s.outs ++ [.hostWrite s.wellBegin.wellBase (s.wellBegin.wellHeader 1)] := by
  rw [State.wellBegin_eq, State.emit_wellBase, State.emit_wellHeader, State.emit_outs, State.wellStart_outs]

end Sys2Proof.Machine
end

section
/-! CERTIFICATES. When a Well log is written (18 R534). -/

namespace Sys2Proof.Machine

open Sys2Proof

/-- Settles O13: a stopped device with no buffer or no firmware freezes with nothing emitted; any other emits the header first, and the rest of
the dump only adds to it. -/
theorem wellLogOnlyWhenPossible : Obligations.WellLogOnlyWhenPossible := by
  unfold Obligations.WellLogOnlyWhenPossible
  intro s n bodies failed hoff hstopped
  refine ⟨fun hcannot => ?unwritten, fun hsize hup => ?written⟩
  case unwritten =>
    refine ⟨_, exec_wellLogDump_unwritten n bodies failed hoff hstopped hcannot, State.freeze_fatal _, State.freeze_frozen _,
      State.freezeUnwritten_outs _ _, ?_⟩
    rw [State.freezeUnwritten_state]
    split <;> rfl
  case written =>
    obtain ⟨more, hmore⟩ := (State.DumpsTo.refl s.wellBegin_fatal).outs_wellStep n bodies failed
    exact ⟨_, more, exec_wellLogDump_written n bodies failed hoff hstopped hsize hup, by rw [← hmore, s.wellBegin_outs]⟩

end Sys2Proof.Machine
end

section
/-! SUPPORT. What every command does, whatever its operands: it answers a next state, and it keeps the queue of waiting commands and the canonical
form of registers and host-path memory. -/

namespace Sys2Proof.Machine

open Sys2Proof

/-! ### An answer is a next state -/

/-- The outcome is a next state: no fault, no refusal. -/
def Answers (o : Host.Outcome State Fault Refusal) : Prop := ∃ t : State, o = .next t

theorem Answers.of_next (t : State) : Answers (.next t) := ⟨t, rfl⟩

theorem Answers.ite {p : Prop} [Decidable p] {x y : Host.Outcome State Fault Refusal} (hx : Answers x) (hy : Answers y) :
    Answers (if p then x else y) := by
  split
  · exact hx
  · exact hy

/-- A ring command and a row that writes one register answer as they stand; the other events branch on the state, and every branch ends in a next
state. -/
theorem exec_answers (c : Instr) (s : State) : Answers (exec c s) := by
  cases c <;> simp only [exec,
    execFrameReceive, execSlotGrant, execFreezeEnd, execIngressPassEnd, execRecircEnqueue, execReplication, execD2dFlitError,
    execAdmission, execPfcRefresh, execRefillStart, execRefillReadDone, execSchedulerDecision, execExpressRelease, execPacketDeparture,
    execSwitchMatching, execEgressPass, execPortFrameGrant, execGateTransition, execPauseFrameReceived, execPcieConfigRequest,
    execChainFrameReceive, execChainLinkDown, execChainLinkUp, execChainReadTimeout, execChainLost, execCommandFetchReturn,
    execCommandStart, execCoalesceTimer, execRingDisableDone, execRxDelivery, execTxDescriptorFetch, execBucketAlloc, execBucketFree,
    execDmaTransferDone, execDmaRecordWrite, execDmaWithdraw, execRegisterWrite, execGenOpen, execGenCommit, execGenCommitRetry,
    execGenCommitWaitExpiry, execGenCancel, execGenAbandon, execGenQuery, execGenSetMargin, execGenActivation, execGenRetirement,
    execJournalWalkEnd, execDrainSlowExpiry, execGroupCalDone, execLinkConditionChange, execPortFlushDone, execPortCalDone,
    execOverheadFrameReceive, execDefectIntegrationExpiry, execMgmtPacketReceive, execCalSwitchExecute, execCalSwitchTimeout,
    execSfHoldoffExpiry, execWaitToRestoreExpiry, execParLoad, execParRead, execTableDoubling, execOverflowReturn, execFilterRebuild,
    execLearnProcess, execMoveProcess, execAgingSweep, execAgeRemovalCheck, execCamMoveDone, execFstFlushSweep, execFlushComplete,
    execFenceTimeout, execRegionWakeDone, execAutoUnfence, execGclSwitch, execVerifyAttempt, execVerifyResponse, execFabLinkTrained,
    execFabLinkActive, execFabLockLoss, execFabLinkRetry, execFabCellReceive, execFabNakReceive, execFabAckTimeout, execReachCellReceive,
    execReorderTimeout, execStatusRefresh, execCreditStatusReceive, execCflowRejectRetry, execCreditGenerate, execGrantReceive,
    execSlewEnd, execTimeRefLoss, execTimeRefReturn, execPpsInEdge, execPpsInLoss, execPpsOutPulse, execSynceSquelch, execSynceResume,
    execTriggerFire, execDomainDrained, execDomainParkTimeout, execDomainUnparkDone, execTempSample, execFencePolicyEval,
    execFeedStateChange, execFeedSag, execRevertHoldExpiry, execFeedSelfTest, execHbmLinkError, execRefreshWindow, execStackTempRead,
    execScrubRead, execStackNoResponse, execSelfRefreshEntry, execHbtTrainDone, execMsixUnmask, execFaultInputAssert, execFaultInputStuck,
    execWellLogDump, execWellLogStall, execWatchdogExpiry, execPmcRunApply, execFwuInfo, execFwuSessionStart, execFwuChunk, execFwuBitmap,
    execFwuApply, execFwuSessionAbort, execFwuActivate, execFwuConfirm, execFwuUcodeStage, execSessionIdleExpiry, execHandoverCommit,
    execHandoverFail, execTrialSelfConfirm, execPorNAssert, execPrimingStart, execDieResetDone, execReady, execConventionalPcieReset,
    execRefClockLoss, execJtagIdcode, execJtagBypass, execJtagSamplePreload, execJtagExtest, execJtagExtestPulse, execJtagExtestTrain,
    execJtagClamp, execJtagHighz, execJtagRegAccess, execJtagTapReset, execI3cEntdaa, execI3cPointerWrite, execI3cRegisterWrite,
    execI3cRead, execOverheadFrameTransmit, execPerstDeassertion, execFaultInputDeassert, execPpsOutPulseEnd, execFabAckInterval,
    execFwFatal, execOldImageStop, fwuCmd, genCmd, i3cWrite, jtagBoundary, nextOf]
  all_goals repeat' (first | exact Answers.of_next _ | refine Answers.ite ?_ ?_ | split)

/-! ### What a command keeps -/

theorem exec_keeps (c : Instr) (s : State) : KeepsX s (exec c s) := by
  cases c with
  | frameReceive => exact execFrameReceive_keeps (Keeps.refl s)
  | frameEnd => exact execFrameEnd_keeps (Keeps.refl s)
  | slotGrant => exact execSlotGrant_keeps (Keeps.refl s)
  | freezeEnd => exact execFreezeEnd_keeps (Keeps.refl s)
  | ingressPassEnd => exact execIngressPassEnd_keeps (Keeps.refl s)
  | recircEnqueue => exact execRecircEnqueue_keeps (Keeps.refl s)
  | probeTimeout => exact execProbeTimeout_keeps (Keeps.refl s)
  | replication => exact execReplication_keeps (Keeps.refl s)
  | d2dFlitError => exact execD2dFlitError_keeps (Keeps.refl s)
  | admission => exact execAdmission_keeps (Keeps.refl s)
  | pfcRefresh => exact execPfcRefresh_keeps (Keeps.refl s)
  | refillStart => exact execRefillStart_keeps (Keeps.refl s)
  | refillReadDone => exact execRefillReadDone_keeps (Keeps.refl s)
  | schedulerDecision => exact execSchedulerDecision_keeps (Keeps.refl s)
  | expressRelease => exact execExpressRelease_keeps (Keeps.refl s)
  | packetDeparture => exact execPacketDeparture_keeps (Keeps.refl s)
  | switchMatching => exact execSwitchMatching_keeps (Keeps.refl s)
  | egressPass => exact execEgressPass_keeps (Keeps.refl s)
  | portFrameGrant => exact execPortFrameGrant_keeps (Keeps.refl s)
  | gateTransition => exact execGateTransition_keeps (Keeps.refl s)
  | pauseFrameReceived => exact execPauseFrameReceived_keeps (Keeps.refl s)
  | pauseTimerExpiry => exact execPauseTimerExpiry_keeps (Keeps.refl s)
  | pcieConfigRequest => exact execPcieConfigRequest_keeps (Keeps.refl s)
  | chainFrameReceive => exact execChainFrameReceive_keeps (Keeps.refl s)
  | chainLinkDown => exact execChainLinkDown_keeps (Keeps.refl s)
  | chainLinkUp => exact execChainLinkUp_keeps (Keeps.refl s)
  | chainReadTimeout => exact execChainReadTimeout_keeps (Keeps.refl s)
  | chainLost => exact execChainLost_keeps (Keeps.refl s)
  | iglTakeover => exact execIglTakeover_keeps (Keeps.refl s)
  | iglRelease => exact execIglRelease_keeps (Keeps.refl s)
  | cmdDoorbell => exact execCmdDoorbell_keeps (Keeps.refl s)
  | pktRingDoorbell => exact execPktRingDoorbell_keeps (Keeps.refl s)
  | commandFetchReturn => exact execCommandFetchReturn_keeps (Keeps.refl s)
  | commandStart => exact execCommandStart_keeps (Keeps.refl s)
  | cqCiWrite => exact execCqCiWrite_keeps (Keeps.refl s)
  | dmaRqCiWrite => exact execDmaRqCiWrite_keeps (Keeps.refl s)
  | ceReset => exact execCeReset_keeps (Keeps.refl s)
  | coalesceTimer => exact execCoalesceTimer_keeps (Keeps.refl s)
  | ringDisable => exact execRingDisable_keeps (Keeps.refl s)
  | ringDisableDone => exact execRingDisableDone_keeps (Keeps.refl s)
  | ringRestart => exact execRingRestart_keeps (Keeps.refl s)
  | rxDelivery => exact execRxDelivery_keeps (Keeps.refl s)
  | txDescriptorFetch => exact execTxDescriptorFetch_keeps (Keeps.refl s)
  | poolEnable => exact execPoolEnable_keeps (Keeps.refl s)
  | bucketAlloc => exact execBucketAlloc_keeps (Keeps.refl s)
  | bucketFree => exact execBucketFree_keeps (Keeps.refl s)
  | dmaTransferDone => exact execDmaTransferDone_keeps (Keeps.refl s)
  | dmaRecordWrite => exact execDmaRecordWrite_keeps (Keeps.refl s)
  | dmaWithdraw => exact execDmaWithdraw_keeps (Keeps.refl s)
  | nop => exact execNop_keeps (Keeps.refl s)
  | echo => exact execEcho_keeps (Keeps.refl s)
  | regRead => exact execRegRead_keeps (Keeps.refl s)
  | regWrite => exact execRegWrite_keeps (Keeps.refl s)
  | copy => exact execCopy_keeps (Keeps.refl s)
  | fill => exact execFill_keeps (Keeps.refl s)
  | compare => exact execCompare_keeps (Keeps.refl s)
  | abort => exact execAbort_keeps (Keeps.refl s)
  | glbOwnWrite => exact execGlbOwnWrite_keeps (Keeps.refl s)
  | registerWrite => exact execRegisterWrite_keeps (Keeps.refl s)
  | genOpen => exact execGenOpen_keeps (Keeps.refl s)
  | genCommit => exact execGenCommit_keeps (Keeps.refl s)
  | genCommitRetry => exact execGenCommitRetry_keeps (Keeps.refl s)
  | genCommitWaitExpiry => exact execGenCommitWaitExpiry_keeps (Keeps.refl s)
  | genCancel => exact execGenCancel_keeps (Keeps.refl s)
  | genAbandon => exact execGenAbandon_keeps (Keeps.refl s)
  | genQuery => exact execGenQuery_keeps (Keeps.refl s)
  | genSetMargin => exact execGenSetMargin_keeps (Keeps.refl s)
  | genActivation => exact execGenActivation_keeps (Keeps.refl s)
  | genRetirement => exact execGenRetirement_keeps (Keeps.refl s)
  | journalWalkEnd => exact execJournalWalkEnd_keeps (Keeps.refl s)
  | drainSlowExpiry => exact execDrainSlowExpiry_keeps (Keeps.refl s)
  | drainLimitWrite => exact execDrainLimitWrite_keeps (Keeps.refl s)
  | portEnable => exact execPortEnable_keeps (Keeps.refl s)
  | portDisable => exact execPortDisable_keeps (Keeps.refl s)
  | groupEnable => exact execGroupEnable_keeps (Keeps.refl s)
  | groupCalDone => exact execGroupCalDone_keeps (Keeps.refl s)
  | groupDisable => exact execGroupDisable_keeps (Keeps.refl s)
  | linkConditionChange => exact execLinkConditionChange_keeps (Keeps.refl s)
  | linkDownDeclared => exact execLinkDownDeclared_keeps (Keeps.refl s)
  | linkUpDeclared => exact execLinkUpDeclared_keeps (Keeps.refl s)
  | holdoffExpiry => exact execHoldoffExpiry_keeps (Keeps.refl s)
  | portFlushDone => exact execPortFlushDone_keeps (Keeps.refl s)
  | readmitDone => exact execReadmitDone_keeps (Keeps.refl s)
  | portRecalibrate => exact execPortRecalibrate_keeps (Keeps.refl s)
  | portCalDone => exact execPortCalDone_keeps (Keeps.refl s)
  | fxeGroupEnable => exact execFxeGroupEnable_keeps (Keeps.refl s)
  | fxeClientEnable => exact execFxeClientEnable_keeps (Keeps.refl s)
  | fxeProtEnable => exact execFxeProtEnable_keeps (Keeps.refl s)
  | overheadFrameReceive => exact execOverheadFrameReceive_keeps (Keeps.refl s)
  | defectIntegrationExpiry => exact execDefectIntegrationExpiry_keeps (Keeps.refl s)
  | mgmtPacketReceive => exact execMgmtPacketReceive_keeps (Keeps.refl s)
  | fxeCalWrite => exact execFxeCalWrite_keeps (Keeps.refl s)
  | fxeCalRead => exact execFxeCalRead_keeps (Keeps.refl s)
  | fxeCalSwitch => exact execFxeCalSwitch_keeps (Keeps.refl s)
  | calSwitchExecute => exact execCalSwitchExecute_keeps (Keeps.refl s)
  | calSwitchTimeout => exact execCalSwitchTimeout_keeps (Keeps.refl s)
  | fxeCalCopy => exact execFxeCalCopy_keeps (Keeps.refl s)
  | fxeProtOp => exact execFxeProtOp_keeps (Keeps.refl s)
  | fxeMgmtSend => exact execFxeMgmtSend_keeps (Keeps.refl s)
  | fxeMgmtRecv => exact execFxeMgmtRecv_keeps (Keeps.refl s)
  | clientDownDeclared => exact execClientDownDeclared_keeps (Keeps.refl s)
  | clientUpDeclared => exact execClientUpDeclared_keeps (Keeps.refl s)
  | sfHoldoffExpiry => exact execSfHoldoffExpiry_keeps (Keeps.refl s)
  | waitToRestoreExpiry => exact execWaitToRestoreExpiry_keeps (Keeps.refl s)
  | parLoad => exact execParLoad_keeps (Keeps.refl s)
  | parRead => exact execParRead_keeps (Keeps.refl s)
  | traceArm => exact execTraceArm_keeps (Keeps.refl s)
  | lpmInsert => exact execLpmInsert_keeps (Keeps.refl s)
  | lpmReplace => exact execLpmReplace_keeps (Keeps.refl s)
  | lpmDelete => exact execLpmDelete_keeps (Keeps.refl s)
  | lpmRead => exact execLpmRead_keeps (Keeps.refl s)
  | lpmLookup => exact execLpmLookup_keeps (Keeps.refl s)
  | lpmBulk => exact execLpmBulk_keeps (Keeps.refl s)
  | nhSet => exact execNhSet_keeps (Keeps.refl s)
  | nhRead => exact execNhRead_keeps (Keeps.refl s)
  | ecmpSet => exact execEcmpSet_keeps (Keeps.refl s)
  | ecmpRead => exact execEcmpRead_keeps (Keeps.refl s)
  | tableDoubling => exact execTableDoubling_keeps (Keeps.refl s)
  | overflowReturn => exact execOverflowReturn_keeps (Keeps.refl s)
  | filterRebuild => exact execFilterRebuild_keeps (Keeps.refl s)
  | parityRepair => exact execParityRepair_keeps (Keeps.refl s)
  | lpmShadowGo => exact execLpmShadowGo_keeps (Keeps.refl s)
  | lpmShadowStop => exact execLpmShadowStop_keeps (Keeps.refl s)
  | lpmShadowDone => exact execLpmShadowDone_keeps (Keeps.refl s)
  | exmInsert => exact execExmInsert_keeps (Keeps.refl s)
  | exmReplace => exact execExmReplace_keeps (Keeps.refl s)
  | exmDelete => exact execExmDelete_keeps (Keeps.refl s)
  | exmRead => exact execExmRead_keeps (Keeps.refl s)
  | exmUnlearn => exact execExmUnlearn_keeps (Keeps.refl s)
  | exmNext => exact execExmNext_keeps (Keeps.refl s)
  | exmSearch => exact execExmSearch_keeps (Keeps.refl s)
  | exmFlushPort => exact execExmFlushPort_keeps (Keeps.refl s)
  | learnProcess => exact execLearnProcess_keeps (Keeps.refl s)
  | moveProcess => exact execMoveProcess_keeps (Keeps.refl s)
  | moveWindowExpiry => exact execMoveWindowExpiry_keeps (Keeps.refl s)
  | agingSweep => exact execAgingSweep_keeps (Keeps.refl s)
  | ageRemovalCheck => exact execAgeRemovalCheck_keeps (Keeps.refl s)
  | exmWinRead => exact execExmWinRead_keeps (Keeps.refl s)
  | exmWinInsert => exact execExmWinInsert_keeps (Keeps.refl s)
  | exmWinReplace => exact execExmWinReplace_keeps (Keeps.refl s)
  | exmWinDelete => exact execExmWinDelete_keeps (Keeps.refl s)
  | exmWinNext => exact execExmWinNext_keeps (Keeps.refl s)
  | exmWinUnlearn => exact execExmWinUnlearn_keeps (Keeps.refl s)
  | exmWinFlushPort => exact execExmWinFlushPort_keeps (Keeps.refl s)
  | exmShadowGo => exact execExmShadowGo_keeps (Keeps.refl s)
  | exmShadowStop => exact execExmShadowStop_keeps (Keeps.refl s)
  | exmShadowDone => exact execExmShadowDone_keeps (Keeps.refl s)
  | camInsert => exact execCamInsert_keeps (Keeps.refl s)
  | camReplace => exact execCamReplace_keeps (Keeps.refl s)
  | camDelete => exact execCamDelete_keeps (Keeps.refl s)
  | camRead => exact execCamRead_keeps (Keeps.refl s)
  | camMove => exact execCamMove_keeps (Keeps.refl s)
  | camMoveDone => exact execCamMoveDone_keeps (Keeps.refl s)
  | camOcc => exact execCamOcc_keeps (Keeps.refl s)
  | camSearch => exact execCamSearch_keeps (Keeps.refl s)
  | camParityRepair => exact execCamParityRepair_keeps (Keeps.refl s)
  | camShadowGo => exact execCamShadowGo_keeps (Keeps.refl s)
  | camShadowStop => exact execCamShadowStop_keeps (Keeps.refl s)
  | camShadowDone => exact execCamShadowDone_keeps (Keeps.refl s)
  | actWrite => exact execActWrite_keeps (Keeps.refl s)
  | actRead => exact execActRead_keeps (Keeps.refl s)
  | polbWrite => exact execPolbWrite_keeps (Keeps.refl s)
  | polbRead => exact execPolbRead_keeps (Keeps.refl s)
  | polSet => exact execPolSet_keeps (Keeps.refl s)
  | polRead => exact execPolRead_keeps (Keeps.refl s)
  | replWrite => exact execReplWrite_keeps (Keeps.refl s)
  | replRead => exact execReplRead_keeps (Keeps.refl s)
  | fstRead => exact execFstRead_keeps (Keeps.refl s)
  | fstBulk => exact execFstBulk_keeps (Keeps.refl s)
  | fstFlushSweep => exact execFstFlushSweep_keeps (Keeps.refl s)
  | editWrite => exact execEditWrite_keeps (Keeps.refl s)
  | editRead => exact execEditRead_keeps (Keeps.refl s)
  | mirrorWrite => exact execMirrorWrite_keeps (Keeps.refl s)
  | mirrorRead => exact execMirrorRead_keeps (Keeps.refl s)
  | encapWrite => exact execEncapWrite_keeps (Keeps.refl s)
  | encapRead => exact execEncapRead_keeps (Keeps.refl s)
  | tmplWrite => exact execTmplWrite_keeps (Keeps.refl s)
  | tmplRead => exact execTmplRead_keeps (Keeps.refl s)
  | bufQadmSet => exact execBufQadmSet_keeps (Keeps.refl s)
  | bufQRead => exact execBufQRead_keeps (Keeps.refl s)
  | bufProfSet => exact execBufProfSet_keeps (Keeps.refl s)
  | bufProfRead => exact execBufProfRead_keeps (Keeps.refl s)
  | bufLimitSet => exact execBufLimitSet_keeps (Keeps.refl s)
  | bufLimitRead => exact execBufLimitRead_keeps (Keeps.refl s)
  | bufFlush => exact execBufFlush_keeps (Keeps.refl s)
  | flushComplete => exact execFlushComplete_keeps (Keeps.refl s)
  | bufFenceRelease => exact execBufFenceRelease_keeps (Keeps.refl s)
  | bufFenceHold => exact execBufFenceHold_keeps (Keeps.refl s)
  | bufUnfenceHold => exact execBufUnfenceHold_keeps (Keeps.refl s)
  | bufStackOut => exact execBufStackOut_keeps (Keeps.refl s)
  | regionParked => exact execRegionParked_keeps (Keeps.refl s)
  | fenceTimeout => exact execFenceTimeout_keeps (Keeps.refl s)
  | regionWakeDone => exact execRegionWakeDone_keeps (Keeps.refl s)
  | autoUnfence => exact execAutoUnfence_keeps (Keeps.refl s)
  | headerSweep => exact execHeaderSweep_keeps (Keeps.refl s)
  | bufPeakClr => exact execBufPeakClr_keeps (Keeps.refl s)
  | qAttach => exact execQAttach_keeps (Keeps.refl s)
  | qDetach => exact execQDetach_keeps (Keeps.refl s)
  | qDetachFlush => exact execQDetachFlush_keeps (Keeps.refl s)
  | qRead => exact execQRead_keeps (Keeps.refl s)
  | qMapSet => exact execQMapSet_keeps (Keeps.refl s)
  | qMapRead => exact execQMapRead_keeps (Keeps.refl s)
  | nodeSet => exact execNodeSet_keeps (Keeps.refl s)
  | nodeDetach => exact execNodeDetach_keeps (Keeps.refl s)
  | nodeRead => exact execNodeRead_keeps (Keeps.refl s)
  | schShaperSet => exact execSchShaperSet_keeps (Keeps.refl s)
  | schShaperRead => exact execSchShaperRead_keeps (Keeps.refl s)
  | tmpolSet => exact execTmpolSet_keeps (Keeps.refl s)
  | tmpolRead => exact execTmpolRead_keeps (Keeps.refl s)
  | shpSelWrite => exact execShpSelWrite_keeps (Keeps.refl s)
  | shpCfgWrite => exact execShpCfgWrite_keeps (Keeps.refl s)
  | dlnProfSet => exact execDlnProfSet_keeps (Keeps.refl s)
  | dlnProfRead => exact execDlnProfRead_keeps (Keeps.refl s)
  | dlnQmapSet => exact execDlnQmapSet_keeps (Keeps.refl s)
  | dlnQmapRead => exact execDlnQmapRead_keeps (Keeps.refl s)
  | gclWrite => exact execGclWrite_keeps (Keeps.refl s)
  | gclSet => exact execGclSet_keeps (Keeps.refl s)
  | gclCancel => exact execGclCancel_keeps (Keeps.refl s)
  | gclRead => exact execGclRead_keeps (Keeps.refl s)
  | gclSwitch => exact execGclSwitch_keeps (Keeps.refl s)
  | verifyAttempt => exact execVerifyAttempt_keeps (Keeps.refl s)
  | verifyResponse => exact execVerifyResponse_keeps (Keeps.refl s)
  | fabLinkEnable => exact execFabLinkEnable_keeps (Keeps.refl s)
  | fabLinkTrained => exact execFabLinkTrained_keeps (Keeps.refl s)
  | fabLinkActive => exact execFabLinkActive_keeps (Keeps.refl s)
  | fabLockLoss => exact execFabLockLoss_keeps (Keeps.refl s)
  | fabLinkRetry => exact execFabLinkRetry_keeps (Keeps.refl s)
  | fabCellReceive => exact execFabCellReceive_keeps (Keeps.refl s)
  | fabAckReceive => exact execFabAckReceive_keeps (Keeps.refl s)
  | fabNakReceive => exact execFabNakReceive_keeps (Keeps.refl s)
  | fabAckTimeout => exact execFabAckTimeout_keeps (Keeps.refl s)
  | reachCellReceive => exact execReachCellReceive_keeps (Keeps.refl s)
  | reachTimeout => exact execReachTimeout_keeps (Keeps.refl s)
  | reorderTimeout => exact execReorderTimeout_keeps (Keeps.refl s)
  | statusRefresh => exact execStatusRefresh_keeps (Keeps.refl s)
  | creditStatusReceive => exact execCreditStatusReceive_keeps (Keeps.refl s)
  | cflowRejectRetry => exact execCflowRejectRetry_keeps (Keeps.refl s)
  | cflowIdleExpiry => exact execCflowIdleExpiry_keeps (Keeps.refl s)
  | creditGenerate => exact execCreditGenerate_keeps (Keeps.refl s)
  | grantReceive => exact execGrantReceive_keeps (Keeps.refl s)
  | fabExpSet => exact execFabExpSet_keeps (Keeps.refl s)
  | fabExpRead => exact execFabExpRead_keeps (Keeps.refl s)
  | fabCflowRead => exact execFabCflowRead_keeps (Keeps.refl s)
  | timeRead => exact execTimeRead_keeps (Keeps.refl s)
  | timeSet => exact execTimeSet_keeps (Keeps.refl s)
  | timeStep => exact execTimeStep_keeps (Keeps.refl s)
  | timeRate => exact execTimeRate_keeps (Keeps.refl s)
  | timeSlew => exact execTimeSlew_keeps (Keeps.refl s)
  | timeUnlock => exact execTimeUnlock_keeps (Keeps.refl s)
  | timeSwitch => exact execTimeSwitch_keeps (Keeps.refl s)
  | timeTxtsRead => exact execTimeTxtsRead_keeps (Keeps.refl s)
  | slewEnd => exact execSlewEnd_keeps (Keeps.refl s)
  | oneSecondTick => exact execOneSecondTick_keeps (Keeps.refl s)
  | timeRefLoss => exact execTimeRefLoss_keeps (Keeps.refl s)
  | timeRefReturn => exact execTimeRefReturn_keeps (Keeps.refl s)
  | timeLaneLoss => exact execTimeLaneLoss_keeps (Keeps.refl s)
  | timeLaneReturn => exact execTimeLaneReturn_keeps (Keeps.refl s)
  | ppsInEdge => exact execPpsInEdge_keeps (Keeps.refl s)
  | ppsInLoss => exact execPpsInLoss_keeps (Keeps.refl s)
  | ppsOutPulse => exact execPpsOutPulse_keeps (Keeps.refl s)
  | synceSquelch => exact execSynceSquelch_keeps (Keeps.refl s)
  | synceResume => exact execSynceResume_keeps (Keeps.refl s)
  | synceCfgWrite => exact execSynceCfgWrite_keeps (Keeps.refl s)
  | triggerFire => exact execTriggerFire_keeps (Keeps.refl s)
  | triggerEnable => exact execTriggerEnable_keeps (Keeps.refl s)
  | timSnap => exact execTimSnap_keeps (Keeps.refl s)
  | pwrDomainPark => exact execPwrDomainPark_keeps (Keeps.refl s)
  | domainDrained => exact execDomainDrained_keeps (Keeps.refl s)
  | domainParkTimeout => exact execDomainParkTimeout_keeps (Keeps.refl s)
  | pwrDomainUnpark => exact execPwrDomainUnpark_keeps (Keeps.refl s)
  | domainUnparkDone => exact execDomainUnparkDone_keeps (Keeps.refl s)
  | telemetrySample => exact execTelemetrySample_keeps (Keeps.refl s)
  | tempSample => exact execTempSample_keeps (Keeps.refl s)
  | energyEvaluation => exact execEnergyEvaluation_keeps (Keeps.refl s)
  | backgroundCreditEarn => exact execBackgroundCreditEarn_keeps (Keeps.refl s)
  | fencePolicyEval => exact execFencePolicyEval_keeps (Keeps.refl s)
  | feedStateChange => exact execFeedStateChange_keeps (Keeps.refl s)
  | feedSag => exact execFeedSag_keeps (Keeps.refl s)
  | inputCollapse => exact execInputCollapse_keeps (Keeps.refl s)
  | revertHoldExpiry => exact execRevertHoldExpiry_keeps (Keeps.refl s)
  | feedSelfTest => exact execFeedSelfTest_keeps (Keeps.refl s)
  | pwrGovSet => exact execPwrGovSet_keeps (Keeps.refl s)
  | pwrGovRead => exact execPwrGovRead_keeps (Keeps.refl s)
  | pwrFenceSet => exact execPwrFenceSet_keeps (Keeps.refl s)
  | pwrFenceRead => exact execPwrFenceRead_keeps (Keeps.refl s)
  | pwrFeedSet => exact execPwrFeedSet_keeps (Keeps.refl s)
  | pwrFeedRead => exact execPwrFeedRead_keeps (Keeps.refl s)
  | pwrFeedTest => exact execPwrFeedTest_keeps (Keeps.refl s)
  | pwrFeedSwitch => exact execPwrFeedSwitch_keeps (Keeps.refl s)
  | pwrSnapshot => exact execPwrSnapshot_keeps (Keeps.refl s)
  | hbmLinkError => exact execHbmLinkError_keeps (Keeps.refl s)
  | refreshWindow => exact execRefreshWindow_keeps (Keeps.refl s)
  | stackTempRead => exact execStackTempRead_keeps (Keeps.refl s)
  | scrubRead => exact execScrubRead_keeps (Keeps.refl s)
  | stackNoResponse => exact execStackNoResponse_keeps (Keeps.refl s)
  | selfRefreshEntry => exact execSelfRefreshEntry_keeps (Keeps.refl s)
  | hbtTrain => exact execHbtTrain_keeps (Keeps.refl s)
  | hbtTrainDone => exact execHbtTrainDone_keeps (Keeps.refl s)
  | errLogPopReg => exact execErrLogPopReg_keeps (Keeps.refl s)
  | errLogPop => exact execErrLogPop_keeps (Keeps.refl s)
  | errInject => exact execErrInject_keeps (Keeps.refl s)
  | errMsgRaise => exact execErrMsgRaise_keeps (Keeps.refl s)
  | errSwRaise => exact execErrSwRaise_keeps (Keeps.refl s)
  | errVecRearm => exact execErrVecRearm_keeps (Keeps.refl s)
  | msixUnmask => exact execMsixUnmask_keeps (Keeps.refl s)
  | faultInputAssert => exact execFaultInputAssert_keeps (Keeps.refl s)
  | faultInputStuck => exact execFaultInputStuck_keeps (Keeps.refl s)
  | errFatalForce => exact execErrFatalForce_keeps (Keeps.refl s)
  | wellLogDump => exact execWellLogDump_keeps (Keeps.refl s)
  | wellLogStall => exact execWellLogStall_keeps (Keeps.refl s)
  | watchdogExpiry => exact execWatchdogExpiry_keeps (Keeps.refl s)
  | pmcRunStart => exact execPmcRunStart_keeps (Keeps.refl s)
  | pmcRunStop => exact execPmcRunStop_keeps (Keeps.refl s)
  | pmcRunApply => exact execPmcRunApply_keeps (Keeps.refl s)
  | pmcClr => exact execPmcClr_keeps (Keeps.refl s)
  | pmcCfgWrite => exact execPmcCfgWrite_keeps (Keeps.refl s)
  | pmcRead => exact execPmcRead_keeps (Keeps.refl s)
  | pmcWindowWrite => exact execPmcWindowWrite_keeps (Keeps.refl s)
  | fwuInfo => exact execFwuInfo_keeps (Keeps.refl s)
  | fwuSessionStart => exact execFwuSessionStart_keeps (Keeps.refl s)
  | fwuChunk => exact execFwuChunk_keeps (Keeps.refl s)
  | fwuBitmap => exact execFwuBitmap_keeps (Keeps.refl s)
  | fwuApply => exact execFwuApply_keeps (Keeps.refl s)
  | fwuSessionAbort => exact execFwuSessionAbort_keeps (Keeps.refl s)
  | fwuActivate => exact execFwuActivate_keeps (Keeps.refl s)
  | fwuConfirm => exact execFwuConfirm_keeps (Keeps.refl s)
  | fwuUcodeStage => exact execFwuUcodeStage_keeps (Keeps.refl s)
  | fwuMboxGo => exact execFwuMboxGo_keeps (Keeps.refl s)
  | sessionIdleExpiry => exact execSessionIdleExpiry_keeps (Keeps.refl s)
  | handoverCommit => exact execHandoverCommit_keeps (Keeps.refl s)
  | handoverFail => exact execHandoverFail_keeps (Keeps.refl s)
  | trialSelfConfirm => exact execTrialSelfConfirm_keeps (Keeps.refl s)
  | trialWindowExpiry => exact execTrialWindowExpiry_keeps (Keeps.refl s)
  | trialWatchdogExpiry => exact execTrialWatchdogExpiry_keeps (Keeps.refl s)
  | porNAssert => exact execPorNAssert_keeps (Keeps.refl s)
  | primingStart => exact execPrimingStart_keeps (Keeps.refl s)
  | deviceReset => exact execDeviceReset_keeps (Keeps.refl s)
  | dieResetFe => exact execDieResetFe_keeps (Keeps.refl s)
  | dieResetTm => exact execDieResetTm_keeps (Keeps.refl s)
  | dieResetDone => exact execDieResetDone_keeps (Keeps.refl s)
  | blockResetDma => exact execBlockResetDma_keeps (Keeps.refl s)
  | blockResetPmc => exact execBlockResetPmc_keeps (Keeps.refl s)
  | blockResetFxe => exact execBlockResetFxe_keeps (Keeps.refl s)
  | primingRelease => exact execPrimingRelease_keeps (Keeps.refl s)
  | refFreqRelock => exact execRefFreqRelock_keeps (Keeps.refl s)
  | ready => exact execReady_keeps (Keeps.refl s)
  | conventionalPcieReset => exact execConventionalPcieReset_keeps (Keeps.refl s)
  | refClockLoss => exact execRefClockLoss_keeps (Keeps.refl s)
  | jtagIdcode => exact execJtagIdcode_keeps (Keeps.refl s)
  | jtagBypass => exact execJtagBypass_keeps (Keeps.refl s)
  | jtagSamplePreload => exact execJtagSamplePreload_keeps (Keeps.refl s)
  | jtagExtest => exact execJtagExtest_keeps (Keeps.refl s)
  | jtagExtestPulse => exact execJtagExtestPulse_keeps (Keeps.refl s)
  | jtagExtestTrain => exact execJtagExtestTrain_keeps (Keeps.refl s)
  | jtagClamp => exact execJtagClamp_keeps (Keeps.refl s)
  | jtagHighz => exact execJtagHighz_keeps (Keeps.refl s)
  | jtagRegAccess => exact execJtagRegAccess_keeps (Keeps.refl s)
  | jtagTapReset => exact execJtagTapReset_keeps (Keeps.refl s)
  | i3cEntdaa => exact execI3cEntdaa_keeps (Keeps.refl s)
  | i3cPointerWrite => exact execI3cPointerWrite_keeps (Keeps.refl s)
  | i3cRegisterWrite => exact execI3cRegisterWrite_keeps (Keeps.refl s)
  | i3cRead => exact execI3cRead_keeps (Keeps.refl s)
  | overheadFrameTransmit => exact execOverheadFrameTransmit_keeps (Keeps.refl s)
  | perstDeassertion => exact execPerstDeassertion_keeps (Keeps.refl s)
  | faultInputDeassert => exact execFaultInputDeassert_keeps (Keeps.refl s)
  | ppsOutPulseEnd => exact execPpsOutPulseEnd_keeps (Keeps.refl s)
  | fabAckInterval => exact execFabAckInterval_keeps (Keeps.refl s)
  | fwFatal => exact execFwFatal_keeps (Keeps.refl s)
  | trialImageFault => exact execTrialImageFault_keeps (Keeps.refl s)
  | oldImageStop => exact execOldImageStop_keeps (Keeps.refl s)

theorem exec_keeps_next {c : Instr} {s t : State} (h : exec c s = .next t) : s.Keeps t := KeepsX.get h (exec_keeps c s)

/-- Taking a command from the queue touches neither registers nor memory. -/
theorem State.Canonical.of_pending {s : State} (h : s.Canonical) (rest : List Instr) : ({ s with pending := rest } : State).Canonical := h

end Sys2Proof.Machine
end

section
/-! CERTIFICATES. The step, the queue and the canonical form (00, 02, 22), and the block at reset (00 R11). -/

namespace Sys2Proof.Machine

open Sys2Proof

/-- Settles O1: the two branches of `step`. -/
theorem stepRunsFront : Obligations.StepRunsFront := by
  unfold Obligations.StepRunsFront
  exact fun s => ⟨fun _ _ => rfl, fun hempty => by rw [step, hempty]⟩

/-- Settles O2, by the shape of each command's meaning. -/
theorem everyCommandAnswersNext : Obligations.EveryCommandAnswersNext := by
  unfold Obligations.EveryCommandAnswersNext
  exact exec_answers

/-- Settles O3, by what each command keeps. -/
theorem queueKept : Obligations.QueueKept := by
  unfold Obligations.QueueKept
  exact fun _ _ _ h => (exec_keeps_next h).1

/-- Settles O4: an idle step changes nothing, and a command keeps the form of the state it is given. -/
theorem stepKeepsCanonical : Obligations.StepKeepsCanonical := by
  unfold Obligations.StepKeepsCanonical
  intro s t hcanonical hstep
  unfold step at hstep
  split at hstep
  case h_1 => cases hstep; exact hcanonical
  case h_2 c rest _ => exact (exec_keeps_next hstep).2 (hcanonical.of_pending rest)

/-- Settles O5: no register is listed at reset, so each reads its Reset value. -/
theorem resetState : Obligations.ResetState := by
  unfold Obligations.ResetState
  refine ⟨⟨rfl, rfl⟩, rfl, rfl, fun _ => rfl, ?phase, ?ready, rfl, rfl, ?active⟩
  case phase => decide
  case ready => decide
  case active => decide

end Sys2Proof.Machine
end

section
/-! SUPPORT. A completion (02 R63, R70, R71, R73): the record and the index it writes, the registers it can write, and what it leaves alone. -/

namespace Sys2Proof.Machine

open Sys2Proof

/-! ### What is written when the block reports: registers, outputs, the error unit and the command engine -/

/-- The state but for registers, outputs, error unit and command engine. -/
def State.outsideReport (s : State) : State := { s with regs := [], outs := [], err := errReset, ce := ceReset }

/-- What is read outside the report is what it was. -/
theorem State.eq_of_outsideReport {α : Type} {s t : State} (h : t.outsideReport = s.outsideReport) (f : State → α)
    (hf : ∀ u : State, f u.outsideReport = f u) : f t = f s := by
  rw [← hf t, ← hf s, h]

section
variable (s : State)

@[simp] theorem State.fset_outsideReport (f : Fld) (v : Nat) : (s.fset f v).outsideReport = s.outsideReport := by
  simp [State.outsideReport]
@[simp] theorem State.satAdd_outsideReport (f : Fld) (n : Nat) : (s.satAdd f n).outsideReport = s.outsideReport := by
  simp [State.outsideReport]
@[simp] theorem State.emit_outsideReport (o : Out) : (s.emit o).outsideReport = s.outsideReport := rfl
@[simp] theorem State.writeIndex_outsideReport (lo hi i : Nat) : (s.writeIndex lo hi i).outsideReport = s.outsideReport :=
  s.emit_outsideReport _

theorem State.withCe_outsideReport (ce : CeState) : ({ s with ce := ce } : State).outsideReport = s.outsideReport := rfl
theorem State.withCe_reg (ce : CeState) (off : Nat) : ({ s with ce := ce } : State).reg off = s.reg off := State.reg_congr rfl off
theorem State.withCe_fget (ce : CeState) (f : Fld) : ({ s with ce := ce } : State).fget f = s.fget f := State.fget_congr rfl f

theorem State.eq_withCoalescing : ∃ queues, s = { s with ce := { s.ce with coalescing := queues } } := ⟨s.ce.coalescing, rfl⟩

@[simp] theorem State.sendMessage_outsideReport (v : Nat) : (s.sendMessage v).outsideReport = s.outsideReport := by
  obtain ⟨err, h⟩ | h | ⟨o, h⟩ := s.sendMessage_cases v
  · rw [h]; rfl
  · rw [h, State.satAdd_outsideReport]
  · rw [h, State.emit_outsideReport, State.satAdd_outsideReport]

@[simp] theorem State.pulse_outsideReport (n : Nat) : (s.pulse n).outsideReport = s.outsideReport := by
  obtain h | ⟨v, -, h⟩ := s.pulse_cases n
  · rw [h]
  · rw [h, State.sendMessage_outsideReport]

@[simp] theorem State.fireCq_outsideReport (m : Nat) : (s.fireCq m).outsideReport = s.outsideReport := by
  rw [State.fireCq, State.pulse_outsideReport, State.withCe_outsideReport]

theorem State.foldl_outsideReport {α : Type} {f : State → α → State} (hf : ∀ t x, (f t x).outsideReport = t.outsideReport) (l : List α) :
    (l.foldl f s).outsideReport = s.outsideReport :=
  List.foldlRecOn (motive := fun t : State => t.outsideReport = s.outsideReport) l f rfl fun t ht x _ => (hf t x).trans ht

/-! ### The stages of a record (R71, R73) -/

/-- The bytes of a record (R71). -/
def State.recordBytes (c : Cmd) (opcode st r0 r1 : Nat) : List Byte :=
  let pi := s.fget (Fld.CE_CQ_PI_PI c.cq)
  leBytes 2 opcode ++ leBytes 2 st ++ leBytes 4 c.tag ++ leBytes 1 c.ring ++ leBytes 1 (s.fget Fld.IGL_ID_CHAIN_ID)
    ++ leBytes 2 (1 - pi / 2 ^ s.fget (Fld.CE_CQ_SIZE_SIZE_LOG2 c.cq) % 2) ++ leBytes 4 c.pos ++ leBytes 8 r0 ++ leBytes 8 r1

/-- The producer index after one more record. -/
def State.nextPi (q : Nat) : Nat := (s.fget (Fld.CE_CQ_PI_PI q) + 1) % 2 ^ (s.fget (Fld.CE_CQ_SIZE_SIZE_LOG2 q) + 1)

/-- The record lies in its slot, and the index has moved and is written back. -/
def State.recordPut (c : Cmd) (opcode st r0 r1 : Nat) : State :=
  let base := s.pair (Reg.CE_CQ_BASE_LO c.cq) (Reg.CE_CQ_BASE_HI c.cq)
  let slot := s.fget (Fld.CE_CQ_PI_PI c.cq) % 2 ^ s.fget (Fld.CE_CQ_SIZE_SIZE_LOG2 c.cq)
  ((s.emit (.hostWrite (base + 32 * slot) (s.recordBytes c opcode st r0 r1))).fset (Fld.CE_CQ_PI_PI c.cq) (s.nextPi c.cq)).writeIndex
    (Reg.CE_CQ_WB_LO c.cq) (Reg.CE_CQ_WB_HI c.cq) (s.nextPi c.cq)

/-- One more record of the queue is unsignalled. -/
def State.countUnsignalled (q : Nat) : State :=
  { s with ce := { s.ce with unsignalled := Assoc.put s.ce.unsignalled 0 q (Assoc.get s.ce.unsignalled 0 q + 1) } }

theorem State.countUnsignalled_reg (q off : Nat) : (s.countUnsignalled q).reg off = s.reg off := State.reg_congr rfl off
theorem State.countUnsignalled_fget (q : Nat) (f : Fld) : (s.countUnsignalled q).fget f = s.fget f := State.fget_congr rfl f

/-- The record is put, and counts as unsignalled. -/
def State.recordStored (c : Cmd) (opcode st r0 r1 : Nat) : State := (s.recordPut c opcode st r0 r1).countUnsignalled c.cq

/-- After the record, the queue's vector fires, or its coalescing timer starts, or neither. -/
theorem State.writeRecord_enabled {s : State} {c : Cmd} (hen : s.fbit (Fld.CE_CQ_SIZE_EN c.cq) = true) (opcode st r0 r1 : Nat) :
    s.writeRecord c opcode st r0 r1 =
      let t := s.recordStored c opcode st r0 r1
      if c.intr || decide (t.fget (Fld.CE_CQ_VEC_COAL_CNT c.cq) ≤ Assoc.get (s.recordPut c opcode st r0 r1).ce.unsignalled 0 c.cq + 1)
      then t.fireCq c.cq
      else if t.fbit (Fld.CE_CQ_VEC_COAL_TIME c.cq) && !t.ce.coalescing.contains c.cq then
        { t with ce := { t.ce with coalescing := t.ce.coalescing ++ [c.cq] } }
      else t := by
  rw [State.writeRecord, if_neg (by simp [hen])]
  rfl

theorem State.writeRecord_cases (c : Cmd) (opcode st r0 r1 : Nat) :
    (s.fbit (Fld.CE_CQ_SIZE_EN c.cq) = false ∧ s.writeRecord c opcode st r0 r1 = s) ∨
      (s.fbit (Fld.CE_CQ_SIZE_EN c.cq) = true ∧
        (s.writeRecord c opcode st r0 r1 = (s.recordStored c opcode st r0 r1).fireCq c.cq ∨
          ∃ queues, s.writeRecord c opcode st r0 r1 =
            { s.recordStored c opcode st r0 r1 with ce := { (s.recordStored c opcode st r0 r1).ce with coalescing := queues } })) := by
  cases hen : s.fbit (Fld.CE_CQ_SIZE_EN c.cq)
  case false => exact .inl ⟨rfl, by simp [State.writeRecord, hen]⟩
  case true =>
    refine .inr ⟨rfl, ?_⟩
    rw [State.writeRecord_enabled hen]
    dsimp only
    generalize s.recordStored c opcode st r0 r1 = t
    split_ifs
    · exact .inl rfl
    · exact .inr ⟨_, rfl⟩
    · exact .inr t.eq_withCoalescing

@[simp] theorem State.recordStored_outsideReport (c : Cmd) (opcode st r0 r1 : Nat) :
    (s.recordStored c opcode st r0 r1).outsideReport = s.outsideReport := by
  simp [State.recordStored, State.recordPut, State.countUnsignalled, State.writeIndex, State.outsideReport]

@[simp] theorem State.writeRecord_outsideReport (c : Cmd) (opcode st r0 r1 : Nat) :
    (s.writeRecord c opcode st r0 r1).outsideReport = s.outsideReport := by
  obtain ⟨-, h⟩ | ⟨-, h | ⟨queues, h⟩⟩ := s.writeRecord_cases c opcode st r0 r1
  · rw [h]
  · rw [h, State.fireCq_outsideReport, State.recordStored_outsideReport]
  · rw [h, State.withCe_outsideReport, State.recordStored_outsideReport]

@[simp] theorem State.ceResetNow_outsideReport : s.ceResetNow.outsideReport = s.outsideReport := by
  unfold State.ceResetNow
  dsimp only
  rw [State.fset_outsideReport, State.fset_outsideReport, State.foldl_outsideReport, State.foldl_outsideReport]
  · rfl
  · intros; simp
  · intros; simp

/-! ### The completion (R63, R70) -/

/-- The command has left those in execution. -/
def State.retire (c : Cmd) : State := { s with ce := { s.ce with executing := removeExec c s.ce.executing } }

/-- The command has left those in execution, and its record is written unless it is spared. -/
def State.recorded (c : Cmd) (opcode st r0 r1 : Nat) : State :=
  if st = stOK ∧ c.noCmpl then s.retire c else (s.retire c).writeRecord c opcode st r0 r1

theorem State.complete_eq (c : Cmd) (opcode st r0 r1 : Nat) :
    s.complete c opcode st r0 r1 =
      let t := s.recorded c opcode st r0 r1
      if t.ce.resetPending && t.ce.executing.isEmpty then t.ceResetNow else t := rfl

@[simp] theorem State.recorded_outsideReport (c : Cmd) (opcode st r0 r1 : Nat) :
    (s.recorded c opcode st r0 r1).outsideReport = s.outsideReport := by
  unfold State.recorded
  split
  · rfl
  · exact State.writeRecord_outsideReport ..

@[simp] theorem State.complete_outsideReport (c : Cmd) (opcode st r0 r1 : Nat) :
    (s.complete c opcode st r0 r1).outsideReport = s.outsideReport := by
  rw [State.complete_eq]
  dsimp only
  split
  · rw [State.ceResetNow_outsideReport, State.recorded_outsideReport]
  · exact State.recorded_outsideReport ..

section
variable (c : Cmd) (opcode st r0 r1 : Nat)

@[simp] theorem State.complete_host : (s.complete c opcode st r0 r1).host = s.host :=
  State.eq_of_outsideReport (s.complete_outsideReport ..) State.host fun _ => rfl
@[simp] theorem State.complete_dma : (s.complete c opcode st r0 r1).dma = s.dma :=
  State.eq_of_outsideReport (s.complete_outsideReport ..) State.dma fun _ => rfl
@[simp] theorem State.complete_chain : (s.complete c opcode st r0 r1).chain = s.chain :=
  State.eq_of_outsideReport (s.complete_outsideReport ..) State.chain fun _ => rfl
@[simp] theorem State.complete_tim : (s.complete c opcode st r0 r1).tim = s.tim :=
  State.eq_of_outsideReport (s.complete_outsideReport ..) State.tim fun _ => rfl
@[simp] theorem State.complete_pwr : (s.complete c opcode st r0 r1).pwr = s.pwr :=
  State.eq_of_outsideReport (s.complete_outsideReport ..) State.pwr fun _ => rfl
@[simp] theorem State.complete_rst : (s.complete c opcode st r0 r1).rst = s.rst :=
  State.eq_of_outsideReport (s.complete_outsideReport ..) State.rst fun _ => rfl
@[simp] theorem State.complete_pmcs : (s.complete c opcode st r0 r1).pmcs = s.pmcs :=
  State.eq_of_outsideReport (s.complete_outsideReport ..) State.pmcs fun _ => rfl
@[simp] theorem State.complete_hbm : (s.complete c opcode st r0 r1).hbm = s.hbm :=
  State.eq_of_outsideReport (s.complete_outsideReport ..) State.hbm fun _ => rfl
@[simp] theorem State.complete_fwu : (s.complete c opcode st r0 r1).fwu = s.fwu :=
  State.eq_of_outsideReport (s.complete_outsideReport ..) State.fwu fun _ => rfl
@[simp] theorem State.complete_gen : (s.complete c opcode st r0 r1).gen = s.gen :=
  State.eq_of_outsideReport (s.complete_outsideReport ..) State.gen fun _ => rfl
@[simp] theorem State.complete_par : (s.complete c opcode st r0 r1).par = s.par :=
  State.eq_of_outsideReport (s.complete_outsideReport ..) State.par fun _ => rfl
@[simp] theorem State.complete_tab : (s.complete c opcode st r0 r1).tab = s.tab :=
  State.eq_of_outsideReport (s.complete_outsideReport ..) State.tab fun _ => rfl
@[simp] theorem State.complete_tm : (s.complete c opcode st r0 r1).tm = s.tm :=
  State.eq_of_outsideReport (s.complete_outsideReport ..) State.tm fun _ => rfl
@[simp] theorem State.complete_ports : (s.complete c opcode st r0 r1).ports = s.ports :=
  State.eq_of_outsideReport (s.complete_outsideReport ..) State.ports fun _ => rfl
@[simp] theorem State.complete_path : (s.complete c opcode st r0 r1).path = s.path :=
  State.eq_of_outsideReport (s.complete_outsideReport ..) State.path fun _ => rfl
@[simp] theorem State.complete_freeSeq : (s.complete c opcode st r0 r1).freeSeq = s.freeSeq :=
  State.eq_of_outsideReport (s.complete_outsideReport ..) State.freeSeq fun _ => rfl
@[simp] theorem State.complete_pending : (s.complete c opcode st r0 r1).pending = s.pending :=
  State.eq_of_outsideReport (s.complete_outsideReport ..) State.pending fun _ => rfl

end

/-! ### The command engine after a completion -/

theorem State.sendMessage_ce (v : Nat) : (s.sendMessage v).ce = s.ce := by
  obtain ⟨err, h⟩ | h | ⟨o, h⟩ := s.sendMessage_cases v
  · rw [h]
  · rw [h, State.satAdd_ce]
  · rw [h, State.emit_ce, State.satAdd_ce]

theorem State.pulse_ce (n : Nat) : (s.pulse n).ce = s.ce := by
  obtain h | ⟨v, -, h⟩ := s.pulse_cases n
  · rw [h]
  · rw [h, State.sendMessage_ce]

theorem State.recordStored_ce (c : Cmd) (opcode st r0 r1 : Nat) :
    (s.recordStored c opcode st r0 r1).ce =
      { s.ce with unsignalled := Assoc.put s.ce.unsignalled 0 c.cq (Assoc.get s.ce.unsignalled 0 c.cq + 1) } := by
  simp [State.recordStored, State.recordPut, State.countUnsignalled, State.writeIndex]

/-- A record leaves the rings and a reset that waits. -/
theorem State.writeRecord_ce (c : Cmd) (opcode st r0 r1 : Nat) :
    (s.writeRecord c opcode st r0 r1).ce.rings = s.ce.rings ∧ (s.writeRecord c opcode st r0 r1).ce.resetPending = s.ce.resetPending := by
  obtain ⟨-, h⟩ | ⟨-, h | ⟨queues, h⟩⟩ := s.writeRecord_cases c opcode st r0 r1
  · simp [h]
  · simp [h, State.fireCq, State.pulse_ce, State.recordStored_ce]
  · simp [h, State.recordStored_ce]

theorem State.recorded_ce (c : Cmd) (opcode st r0 r1 : Nat) :
    (s.recorded c opcode st r0 r1).ce.rings = s.ce.rings ∧ (s.recorded c opcode st r0 r1).ce.resetPending = s.ce.resetPending := by
  unfold State.recorded
  split
  · exact ⟨rfl, rfl⟩
  · exact (s.retire c).writeRecord_ce c opcode st r0 r1

end

/-- With no reset of the engine waiting, a completion is the record. -/
theorem State.complete_of_noReset {s : State} (h : s.ce.resetPending = false) (c : Cmd) (opcode st r0 r1 : Nat) :
    s.complete c opcode st r0 r1 = s.recorded c opcode st r0 r1 := by
  obtain ⟨-, hreset⟩ := s.recorded_ce c opcode st r0 r1
  rw [State.complete_eq]
  simp [hreset, h]

/-! ### Registers after a completion: past those of the engine and the vectors, all stay -/

section
variable {s : State} {off : Nat}

theorem State.pulse_reg_past (h : Reg.ERR_VEC 512 ≤ off) (n : Nat) : (s.pulse n).reg off = s.reg off := by
  obtain e | ⟨v, hv, e⟩ := s.pulse_cases n
  · rw [e]
  · rw [e]; exact State.sendMessage_reg _ (by simp only [Reg.ERR_VEC] at h ⊢; omega)

theorem State.recordStored_reg {c : Cmd} (h : off ≠ Reg.CE_CQ_PI c.cq) (opcode st r0 r1 : Nat) :
    (s.recordStored c opcode st r0 r1).reg off = s.reg off := by
  have hreg : off ≠ (Fld.CE_CQ_PI_PI c.cq).reg := h
  simp only [State.recordStored, State.countUnsignalled_reg, State.recordPut, State.writeIndex, State.emit_reg, State.reg_fset_other _ _ hreg]

theorem State.writeRecord_reg_past {c : Cmd} (hcq : c.cq < 8) (h : Reg.ERR_VEC 512 ≤ off) (opcode st r0 r1 : Nat) :
    (s.writeRecord c opcode st r0 r1).reg off = s.reg off := by
  have hother : off ≠ Reg.CE_CQ_PI c.cq := by simp only [Reg.ERR_VEC, Reg.CE_CQ_PI] at h ⊢; omega
  obtain ⟨-, e⟩ | ⟨-, e | ⟨queues, e⟩⟩ := s.writeRecord_cases c opcode st r0 r1
  · rw [e]
  · rw [e, State.fireCq, State.pulse_reg_past h, State.withCe_reg, State.recordStored_reg hother]
  · rw [e, State.withCe_reg, State.recordStored_reg hother]

theorem State.foldl_reg {α : Type} {f : State → α → State} {l : List α} (hf : ∀ t, ∀ x ∈ l, (f t x).reg off = t.reg off) :
    (l.foldl f s).reg off = s.reg off :=
  List.foldlRecOn (motive := fun t : State => t.reg off = s.reg off) l f rfl fun t ht x hx => (hf t x hx).trans ht

theorem State.ceResetNow_reg_past (h : Reg.ERR_VEC 512 ≤ off) : s.ceResetNow.reg off = s.reg off := by
  simp only [Reg.ERR_VEC] at h
  have hctrl : off ≠ Fld.CE_CTRL_RING_EN.reg := by simp only [Fld.CE_CTRL_RING_EN, Reg.CE_CTRL]; omega
  have hstatus : off ≠ Fld.CE_STATUS_HALTED.reg := by simp only [Fld.CE_STATUS_HALTED, Reg.CE_STATUS]; omega
  unfold State.ceResetNow
  dsimp only
  rw [State.reg_fset_other _ _ hstatus, State.reg_fset_other _ _ hctrl, State.foldl_reg, State.foldl_reg]
  · exact State.withCe_reg ..
  · intro t n hn
    rw [List.mem_range] at hn
    rw [State.reg_fset_other, State.reg_fset_other]
    · simp only [Fld.CE_CMD_PI_PI, Reg.CE_CMD_PI]; omega
    · simp only [Fld.CE_CMD_CI_CI, Reg.CE_CMD_CI]; omega
  · intro t n hn
    rw [List.mem_range] at hn
    rw [State.reg_fset_other, State.reg_fset_other]
    · simp only [Fld.CE_CQ_PI_PI, Reg.CE_CQ_PI]; omega
    · simp only [Fld.CE_CQ_CI_CI, Reg.CE_CQ_CI]; omega

theorem State.complete_reg_past {c : Cmd} (hcq : c.cq < 8) (h : Reg.ERR_VEC 512 ≤ off) (opcode st r0 r1 : Nat) :
    (s.complete c opcode st r0 r1).reg off = s.reg off := by
  have hrecorded : (s.recorded c opcode st r0 r1).reg off = s.reg off := by
    unfold State.recorded
    split
    · exact State.withCe_reg ..
    · rw [State.writeRecord_reg_past hcq h]; exact State.withCe_reg ..
  rw [State.complete_eq]
  dsimp only
  split
  · rw [State.ceResetNow_reg_past h, hrecorded]
  · exact hrecorded

end

/-! ### A record that is written -/

section
variable {s : State} {c : Cmd} (opcode st r0 r1 : Nat)

theorem leBytes_length (n x : Nat) : (leBytes n x).length = n := by
  induction n generalizing x with
  | zero => rfl
  | succ n ih => rw [leBytes, List.length_cons, ih]

theorem State.recordBytes_length : (s.recordBytes c opcode st r0 r1).length = 32 := by
  simp [State.recordBytes, leBytes_length]

/-- The index write-back reads its address from registers the record does not write. -/
theorem State.recordStored_outs :
    (s.recordStored c opcode st r0 r1).outs = s.outs ++ [.hostWrite (s.pair (Reg.CE_CQ_BASE_LO c.cq) (Reg.CE_CQ_BASE_HI c.cq)
        + 32 * (s.fget (Fld.CE_CQ_PI_PI c.cq) % 2 ^ s.fget (Fld.CE_CQ_SIZE_SIZE_LOG2 c.cq))) (s.recordBytes c opcode st r0 r1),
      .hostWrite (s.pair (Reg.CE_CQ_WB_LO c.cq) (Reg.CE_CQ_WB_HI c.cq)) (leBytes 8 (s.nextPi c.cq))] := by
  have hlo : Reg.CE_CQ_WB_LO c.cq ≠ (Fld.CE_CQ_PI_PI c.cq).reg := by simp only [Fld.CE_CQ_PI_PI, Reg.CE_CQ_WB_LO, Reg.CE_CQ_PI]; omega
  have hhi : Reg.CE_CQ_WB_HI c.cq ≠ (Fld.CE_CQ_PI_PI c.cq).reg := by simp only [Fld.CE_CQ_PI_PI, Reg.CE_CQ_WB_HI, Reg.CE_CQ_PI]; omega
  simp [State.recordStored, State.recordPut, State.countUnsignalled, State.writeIndex, State.pair, State.reg_fset_other _ _ hlo, State.reg_fset_other _ _ hhi]

theorem State.recordStored_pi (hk : s.fget (Fld.CE_CQ_SIZE_SIZE_LOG2 c.cq) ≤ 16) :
    (s.recordStored c opcode st r0 r1).fget (Fld.CE_CQ_PI_PI c.cq) = s.nextPi c.cq := by
  have hpi : s.nextPi c.cq < 2 ^ 17 := lt_of_lt_of_le (Nat.mod_lt _ (by positivity)) (Nat.pow_le_pow_right (by omega) (by omega))
  have hfits : (Fld.CE_CQ_PI_PI c.cq).lo + (Fld.CE_CQ_PI_PI c.cq).w ≤ 32 := (by decide : 0 + 17 ≤ 32)
  simp only [State.recordStored, State.countUnsignalled_fget, State.recordPut, State.writeIndex, State.emit_fget]
  rw [State.fget_fset_same _ _ _ hfits]
  exact Nat.mod_eq_of_lt hpi

theorem State.fireCq_pi {q m : Nat} (hq : q < 8) : (s.fireCq m).fget (Fld.CE_CQ_PI_PI q) = s.fget (Fld.CE_CQ_PI_PI q) := by
  rw [State.fireCq]
  generalize ({ s.ce with unsignalled := _, coalescing := _ } : CeState) = ce
  obtain e | ⟨v, hv, e⟩ := ({ s with ce := ce } : State).pulse_cases m
  · rw [e, State.withCe_fget]
  · have hvec : (Fld.CE_CQ_PI_PI q).reg ≠ Reg.ERR_VEC v := by simp only [Fld.CE_CQ_PI_PI, Reg.CE_CQ_PI, Reg.ERR_VEC]; omega
    rw [e, State.fget, State.sendMessage_reg _ hvec, ← State.fget, State.withCe_fget]

theorem State.fireCq_outs_grows (s : State) (m : Nat) : s.outs <+: (s.fireCq m).outs := by
  rw [State.fireCq]
  generalize ({ s.ce with unsignalled := _, coalescing := _ } : CeState) = ce
  exact State.pulse_outs_grows { s with ce := ce } m

/-- What follows the record, a message at most, leaves the index and adds to the outputs. -/
theorem State.writeRecord_stored (hcq : c.cq < 8) (hen : s.fbit (Fld.CE_CQ_SIZE_EN c.cq) = true) :
    (s.writeRecord c opcode st r0 r1).fget (Fld.CE_CQ_PI_PI c.cq) = (s.recordStored c opcode st r0 r1).fget (Fld.CE_CQ_PI_PI c.cq) ∧
      (s.recordStored c opcode st r0 r1).outs <+: (s.writeRecord c opcode st r0 r1).outs := by
  obtain ⟨h, -⟩ | ⟨-, e | ⟨queues, e⟩⟩ := s.writeRecord_cases c opcode st r0 r1
  · rw [hen] at h; cases h
  · rw [e]; exact ⟨State.fireCq_pi hcq, State.fireCq_outs_grows ..⟩
  · rw [e]; exact ⟨State.withCe_fget .., List.prefix_refl _⟩

end

end Sys2Proof.Machine
end

section
/-! CERTIFICATES. What a completion writes and leaves alone (02 R71, R73). -/

namespace Sys2Proof.Machine

open Sys2Proof

/-- Settles O6: with no reset of the engine waiting, a completion is its record alone, or nothing for a command that spares it. -/
theorem completionWritten : Obligations.CompletionWritten := by
  unfold Obligations.CompletionWritten
  intro s c opcode st r0 r1 hreset
  dsimp only
  rw [State.complete_of_noReset hreset]
  have hframe := s.recorded_outsideReport c opcode st r0 r1
  obtain ⟨hrings, -⟩ := s.recorded_ce c opcode st r0 r1
  refine ⟨?frame, fun hok hspared => ?spared, fun hdue hcq hen _ hk => ?written⟩
  case frame =>
    exact ⟨State.eq_of_outsideReport hframe State.tab fun _ => rfl, State.eq_of_outsideReport hframe State.tm fun _ => rfl,
      State.eq_of_outsideReport hframe State.gen fun _ => rfl, State.eq_of_outsideReport hframe State.par fun _ => rfl,
      State.eq_of_outsideReport hframe State.tim fun _ => rfl, State.eq_of_outsideReport hframe State.pwr fun _ => rfl,
      State.eq_of_outsideReport hframe State.hbm fun _ => rfl, State.eq_of_outsideReport hframe State.fwu fun _ => rfl,
      State.eq_of_outsideReport hframe State.ports fun _ => rfl, State.eq_of_outsideReport hframe State.path fun _ => rfl,
      State.eq_of_outsideReport hframe State.dma fun _ => rfl, State.eq_of_outsideReport hframe State.host fun _ => rfl,
      State.eq_of_outsideReport hframe State.chain fun _ => rfl, State.eq_of_outsideReport hframe State.rst fun _ => rfl,
      State.eq_of_outsideReport hframe State.pmcs fun _ => rfl, State.eq_of_outsideReport hframe State.freeSeq fun _ => rfl,
      State.eq_of_outsideReport hframe State.pending fun _ => rfl, hrings⟩
  case spared => rw [State.recorded, if_pos ⟨hok, hspared⟩]; exact ⟨rfl, rfl, rfl⟩
  case written =>
    have hwritten : s.recorded c opcode st r0 r1 = (s.retire c).writeRecord c opcode st r0 r1 := by
      rw [State.recorded, if_neg]
      rintro ⟨hok, hspared⟩
      obtain h | h := hdue
      · exact h hok
      · rw [h] at hspared; cases hspared
    obtain ⟨hpi, more, houts⟩ := (s.retire c).writeRecord_stored opcode st r0 r1 hcq hen
    rw [hwritten]
    refine ⟨s.recordBytes_length opcode st r0 r1, hpi.trans (State.recordStored_pi opcode st r0 r1 hk), more, ?_⟩
    rw [← houts, State.recordStored_outs]
    rfl

end Sys2Proof.Machine
end

section
/-! SUPPORT. What a write of the open build leaves an older generation (03 R98, R99): an entry of its own such a generation does not see, and
marking an entry deleted, or adding one, changes nothing it sees. -/

namespace Sys2Proof.Machine

open Sys2Proof

/-! ### Ring commands: the state a body leaves, and its completion -/

/-- A ring command leaves its state, or its body's, and at most completes on it. -/
theorem cmdRun_cases (op lo hi : Nat) (c : Cmd) (s : State) (body : State → State × Done) :
    ∃ u : State, (u = s ∨ u = (body s).1) ∧
      (cmdRun op lo hi c s body = u ∨ ∃ st r0 r1, cmdRun op lo hi c s body = u.complete c op st r0 r1) := by
  unfold cmdRun
  split_ifs
  · exact ⟨s, .inl rfl, .inl rfl⟩
  · exact ⟨s, .inl rfl, .inr ⟨_, _, _, rfl⟩⟩
  · exact ⟨s, .inl rfl, .inr ⟨_, _, _, rfl⟩⟩
  · refine ⟨_, .inr rfl, ?_⟩
    generalize body s = x
    obtain ⟨t, d⟩ := x
    cases d with
    | done st r0 r1 => exact .inr ⟨st, r0, r1, rfl⟩
    | later => exact .inl rfl

/-! ### The first element of a kind -/

theorem updateFirst_of_find {α : Type} {p : α → Bool} {l : List α} {v : α} (h : l.find? p = some v) :
    ∃ l₁ l₂, l = l₁ ++ v :: l₂ ∧ removeFirst p l = l₁ ++ l₂ ∧ ∀ f : α → α, updateFirst p f l = l₁ ++ f v :: l₂ := by
  induction l with
  | nil => cases h
  | cons x xs ih =>
    by_cases hx : p x
    · rw [List.find?_cons_of_pos hx] at h
      cases h
      exact ⟨[], xs, rfl, by simp [removeFirst, hx], fun f => by simp [updateFirst, hx]⟩
    · rw [List.find?_cons_of_neg hx] at h
      obtain ⟨l₁, l₂, e, hremove, hupdate⟩ := ih h
      exact ⟨x :: l₁, l₂, by rw [e]; rfl, by simp [removeFirst, hx, hremove], fun f => by simp [updateFirst, hx, hupdate f]⟩

/-! ### Versions as a generation sees them -/

/-- From `a` to `b` no version that `sees` admits is lost, and each it admits was there, admitted or marked DEL. -/
def VersKept {α : Type} (sees : Tag → Bool) (a b : List (Ver α)) : Prop :=
  (∀ v ∈ a, sees v.tag = true → ∃ w ∈ b, w.val = v.val ∧ sees w.tag = true) ∧
    ∀ w ∈ b, sees w.tag = true → ∃ v ∈ a, v.val = w.val ∧ (sees v.tag = true ∨ v.tag.delV = true)

namespace VersKept

variable {α : Type} {sees : Tag → Bool} {a b : List (Ver α)}

theorem refl (sees : Tag → Bool) (a : List (Ver α)) : VersKept sees a a :=
  ⟨fun v hv h => ⟨v, hv, rfl, h⟩, fun w hw h => ⟨w, hw, rfl, .inl h⟩⟩

/-- A version that it does not see is added. -/
theorem append (h : VersKept sees a b) {x : Ver α} (hx : sees x.tag = false) : VersKept sees a (b ++ [x]) := by
  refine ⟨fun v hv hsees => ?_, fun w hw hsees => ?_⟩
  · obtain ⟨w, hw, hval, hw'⟩ := h.1 v hv hsees
    exact ⟨w, List.mem_append_left _ hw, hval, hw'⟩
  · obtain hw | rfl := (List.mem_append.1 hw).imp_right List.mem_singleton.1
    · exact h.2 w hw hsees
    · rw [hx] at hsees; cases hsees

/-- A version that it does not see is dropped. -/
theorem drop {l₁ l₂ : List (Ver α)} {x : Ver α} (hx : sees x.tag = false) : VersKept sees (l₁ ++ x :: l₂) (l₁ ++ l₂) := by
  refine ⟨fun v hv hsees => ⟨v, ?_, rfl, hsees⟩, fun w hw hsees => ⟨w, ?_, rfl, .inl hsees⟩⟩
  · have hne : v ≠ x := by rintro rfl; rw [hx] at hsees; cases hsees
    simpa [hne] using hv
  · simp only [List.mem_append, List.mem_cons] at hw ⊢
    exact hw.imp_right .inr

/-- A version is rewritten: neither the old nor the new is seen, or the value stays and what is seen stays seen, but for one
marked DEL. -/
theorem rewrite {l₁ l₂ : List (Ver α)} {x y : Ver α} (hold : sees x.tag = true → y.val = x.val ∧ sees y.tag = true)
    (hnew : sees y.tag = true → x.val = y.val ∧ (sees x.tag = true ∨ x.tag.delV = true)) :
    VersKept sees (l₁ ++ x :: l₂) (l₁ ++ y :: l₂) := by
  refine ⟨fun v hv hsees => ?_, fun w hw hsees => ?_⟩
  · by_cases hvx : v = x
    · subst hvx; exact ⟨y, by simp, hold hsees⟩
    · exact ⟨v, by simp [hvx] at hv ⊢; tauto, rfl, hsees⟩
  · by_cases hwy : w = y
    · subst hwy; exact ⟨x, by simp, hnew hsees⟩
    · exact ⟨w, by simp [hwy] at hw ⊢; tauto, rfl, .inl hsees⟩

end VersKept

/-! ### The rules of R99 under the build -/

section
variable {s : State} {p g : Nat}

/-- An entry that the build adds is not visible to an older generation. -/
theorem State.visible_added (h : s.genOlder p g = true) (delV : Bool) (delGen : Nat) : s.visible ⟨true, g, delV, delGen⟩ p = false := by
  simp [State.visible, h]

/-- To an older generation an entry that the build deletes is one that is not deleted. -/
theorem State.visible_deleted (h : s.genOlder p g = true) (t : Tag) :
    s.visible { t with delV := true, delGen := g } p = (!t.addV || !s.genOlder p t.addGen) := by
  simp [State.visible, h]

theorem State.visible_undeleted {t : Tag} (h : t.delV = false) : s.visible t p = (!t.addV || !s.genOlder p t.addGen) := by
  simp [State.visible, h]

theorem verWrite_kept {α : Type} {same : α → Bool} {op : VerOp} {new : Option α → α} {weight : α → Nat} {vs vs' : List (Ver α)} {k : VerCost}
    (hold : s.genOlder p g = true) (h : verWrite s ⟨g, false⟩ same op new weight vs = .ok (vs', k)) :
    VersKept (fun t => s.visible t p) vs vs' := by
  have hidden : ∀ v : Ver α, (v.tag.addV && v.tag.addGen == g) = true → s.visible v.tag p = false := by
    intro v hv
    obtain ⟨hadd, hgen⟩ : v.tag.addV = true ∧ v.tag.addGen = g := by simpa using hv
    simp [State.visible, hadd, hgen, hold]
  have marked : ∀ (v : Ver α) (l₁ l₂ : List (Ver α)), VersKept (fun t => s.visible t p) (l₁ ++ v :: l₂)
      (l₁ ++ { v with tag := { v.tag with delV := true, delGen := g } } :: l₂) := by
    intro v l₁ l₂
    refine VersKept.rewrite (fun hv => ⟨rfl, ?_⟩) (fun hw => ⟨rfl, ?_⟩)
    · rw [State.visible_deleted hold]
      simp only [State.visible, Bool.and_eq_true] at hv
      exact hv.1
    · rw [State.visible_deleted hold] at hw
      cases hdel : v.tag.delV
      case true => exact .inr rfl
      case false => exact .inl (by rw [State.visible_undeleted hdel]; exact hw)
  unfold verWrite at h
  dsimp only [Bool.false_or] at h
  split at h
  case h_1 => cases h
  case h_2 => cases h; exact (VersKept.refl _ vs).append (State.visible_added hold ..)
  case h_3 => cases h
  case h_4 v hfind =>
    obtain ⟨l₁, l₂, e, hremove, hupdate⟩ := updateFirst_of_find hfind
    split at h
    case isTrue hown => cases h; rw [hremove, e]; exact VersKept.drop (hidden v hown)
    case isFalse => cases h; rw [hupdate, e]; exact marked v l₁ l₂
  case h_5 v hfind =>
    obtain ⟨l₁, l₂, e, -, hupdate⟩ := updateFirst_of_find hfind
    split at h
    case isTrue hown =>
      cases h
      rw [hupdate, e]
      exact VersKept.rewrite (fun hv => by rw [hidden v hown] at hv; cases hv) (fun hw => by rw [hidden v hown] at hw; cases hw)
    case isFalse => cases h; rw [hupdate, e]; exact (marked v l₁ l₂).append (State.visible_added hold ..)

end

/-! ### An indexed write under the build -/

theorem State.writeCtx_build {s : State} {m : Nat} {ctx : WriteCtx} (hopen : s.buildOpen = true) (h : s.writeCtx m = .ok ctx) :
    ctx = ⟨s.buildGen, false⟩ := by
  unfold State.writeCtx at h
  rw [if_pos hopen] at h
  split_ifs at h
  cases h
  rfl

/-- A write of the build stores its versions and counts its journal records; it writes no register. -/
theorem State.idxApply_build {s u : State} {t : IdxTable} {g idx bits refs : Nat} {op : VerOp} {refsOk : Bool}
    (h : s.idxApply t ⟨g, false⟩ op idx bits refsOk refs = .ok u) :
    ∃ vs k, verWrite s ⟨g, false⟩ (fun v => v.idx == idx) op (fun _ => ⟨idx, bits, false⟩) (fun _ => 1) (t.get s.tab) = .ok (vs, k) ∧
      u.tab = t.put s.tab vs ∧ u.regs = s.regs := by
  unfold State.idxApply at h
  dsimp only at h
  split at h
  case h_1 => cases h
  case h_2 vs k hwrite =>
    split_ifs at h
    cases h
    exact ⟨vs, k, hwrite, rfl, rfl⟩

section
variable {s : State} {p : Nat}

theorem State.genSeq_of_past {t : State} (h : ∀ off, Reg.ERR_VEC 512 ≤ off → t.reg off = s.reg off) (g : Nat) : t.genSeq g = s.genSeq g := by
  have hpast : Reg.ERR_VEC 512 ≤ (Fld.GEN_SEQ_SEQ g).reg := by simp only [Reg.ERR_VEC, Fld.GEN_SEQ_SEQ, Reg.GEN_SEQ]; omega
  rw [State.genSeq, State.genSeq, State.fget, State.fget, h _ hpast]

theorem State.visible_of_past {t : State} (h : ∀ off, Reg.ERR_VEC 512 ≤ off → t.reg off = s.reg off) (tag : Tag) :
    t.visible tag p = s.visible tag p := by
  simp [State.visible, State.genOlder, State.genSeq_of_past h]

/-- A body's result keeps the versions of a table, and the registers. -/
def BodyKept (s : State) (p : Nat) (get : TabState → List (Ver IdxVal)) (x : State × Done) : Prop :=
  VersKept (fun tag => s.visible tag p) (get s.tab) (get x.1.tab) ∧ x.1.regs = s.regs

theorem BodyKept.ite {get : TabState → List (Ver IdxVal)} {q : Prop} [Decidable q] {x y : State × Done} (hx : BodyKept s p get x)
    (hy : BodyKept s p get y) : BodyKept s p get (if q then x else y) := by
  split
  · exact hx
  · exact hy

theorem BodyKept.fail (get : TabState → List (Ver IdxVal)) (st : Nat) : BodyKept s p get (fail st s) := ⟨VersKept.refl _ _, rfl⟩

/-- On its table, under an open build, an indexed write keeps what an older generation sees. -/
theorem State.idxWrite_kept {t : IdxTable} (ht : ∀ tab vs, t.get (t.put tab vs) = vs) (hopen : s.buildOpen = true)
    (hold : s.genOlder p s.buildGen = true) (c : Cmd) (op idx bits : Nat) (refsOk : Nat → Bool) (refs : Nat → Nat) :
    BodyKept s p t.get (s.idxWrite c t op idx bits refsOk refs) := by
  unfold State.idxWrite
  split
  case h_1 => exact ⟨VersKept.refl _ _, rfl⟩
  case h_2 ctx hctx =>
    cases State.writeCtx_build hopen hctx
    split
    case h_1 => exact ⟨VersKept.refl _ _, rfl⟩
    case h_2 u happly =>
      obtain ⟨vs, k, hwrite, htab, hregs⟩ := State.idxApply_build happly
      refine ⟨?_, hregs⟩
      rw [htab, ht]
      exact verWrite_kept hold hwrite

/-- A ring command whose body keeps the versions of a table, and the registers, keeps them with its completion. -/
theorem runCmd_kept {t : State} {get : TabState → List (Ver IdxVal)} {c : Cmd} {op lo hi : Nat} {body : State → State × Done} (hcq : c.cq < 8)
    (hbody : BodyKept s p get (body s))
    (hrun : runCmd op lo hi c s body = .next t) :
    VersKept (fun tag => s.visible tag p) (get s.tab) (get t.tab) ∧ ∀ tag, t.visible tag p = s.visible tag p := by
  obtain ⟨u, hu, ht⟩ := cmdRun_cases op lo hi c s body
  have hkept : VersKept (fun tag => s.visible tag p) (get s.tab) (get u.tab) ∧ u.regs = s.regs := by
    obtain rfl | rfl := hu
    · exact ⟨VersKept.refl _ _, rfl⟩
    · exact hbody
  obtain ⟨hvers, hregs⟩ := hkept
  rw [runCmd] at hrun
  obtain rfl | ⟨st, r0, r1, h⟩ := ht
  · cases hrun
    exact ⟨hvers, fun tag => State.visible_of_past (fun off _ => State.reg_congr hregs off) tag⟩
  · rw [h] at hrun
    cases hrun
    refine ⟨by rw [State.complete_tab]; exact hvers, fun tag => State.visible_of_past (fun off hoff => ?_) tag⟩
    rw [State.complete_reg_past hcq hoff, State.reg_congr hregs]

theorem exec_nhSet_kept {t : State} {c : Cmd} (hcq : c.cq < 8) (hopen : s.buildOpen = true) (hold : s.genOlder p s.buildGen = true)
    (h : exec (.nhSet c) s = .next t) :
    VersKept (fun tag => s.visible tag p) s.tab.nh t.tab.nh ∧ ∀ tag, t.visible tag p = s.visible tag p := by
  refine runCmd_kept (get := TabState.nh) hcq ?_ (h : execNhSet c s = _)
  exact .ite (.fail ..) (.ite (.fail ..) (State.idxWrite_kept (t := nhTable) (fun _ _ => rfl) hopen hold ..))

theorem exec_actWrite_kept {t : State} {c : Cmd} (hcq : c.cq < 8) (hopen : s.buildOpen = true) (hold : s.genOlder p s.buildGen = true)
    (h : exec (.actWrite c) s = .next t) :
    VersKept (fun tag => s.visible tag p) s.tab.act t.tab.act ∧ ∀ tag, t.visible tag p = s.visible tag p := by
  refine runCmd_kept (get := TabState.act) hcq ?_ (h : execActWrite c s = _)
  exact .ite (.fail ..) (.ite (.fail ..) (.ite (.fail ..) (State.idxWrite_kept (t := actTable) (fun _ _ => rfl) hopen hold ..)))

theorem exec_editWrite_kept {t : State} {c : Cmd} (hcq : c.cq < 8) (hopen : s.buildOpen = true) (hold : s.genOlder p s.buildGen = true)
    (h : exec (.editWrite c) s = .next t) :
    VersKept (fun tag => s.visible tag p) s.tab.edit t.tab.edit ∧ ∀ tag, t.visible tag p = s.visible tag p := by
  refine runCmd_kept (get := TabState.edit) hcq ?_ (h : execEditWrite c s = _)
  exact .ite (.fail ..) (.ite (.fail ..) (State.idxWrite_kept (t := editTable) (fun _ _ => rfl) hopen hold ..))

end

end Sys2Proof.Machine
end

section
/-! CERTIFICATES. A build's writes are invisible to older generations (03 R98, R99). -/

namespace Sys2Proof.Machine

open Sys2Proof

/-- Settles O15: on each of the three tables the command either is turned away or is one indexed write under the build. -/
theorem buildInvisibleToOlder : Obligations.BuildInvisibleToOlder := by
  unfold Obligations.BuildInvisibleToOlder
  intro s t c p hcq hopen hold
  have conclude : ∀ {a b : List (Ver IdxVal)}, VersKept (fun tag => s.visible tag p) a b ∧ (∀ tag, t.visible tag p = s.visible tag p) →
      (∀ v ∈ a, s.visible v.tag p = true → ∃ w ∈ b, w.val = v.val ∧ t.visible w.tag p = true) ∧
      (∀ w ∈ b, t.visible w.tag p = true → ∃ v ∈ a, v.val = w.val ∧ (s.visible v.tag p = true ∨ v.tag.delV = true)) := by
    rintro a b ⟨hkept, hsame⟩
    simp only [hsame]
    exact hkept
  exact ⟨fun h => conclude (exec_nhSet_kept hcq hopen hold h), fun h => conclude (exec_actWrite_kept hcq hopen hold h),
    fun h => conclude (exec_editWrite_kept hcq hopen hold h)⟩

end Sys2Proof.Machine
end
section
/-! SUPPORT. What the access types make of a write (00 R10): the fields of a register lie apart inside its 32 bits. -/

namespace Sys2Proof.Machine

open Sys2Proof

/-- Two fields that share no bit. -/
def RegField.apart (f g : RegField) : Bool := decide (f.lo + f.w ≤ g.lo ∨ g.lo + g.w ≤ f.lo)

/-- The fields of a register lie inside 32 bits, each apart from those after it. -/
def fieldsApart : List RegField → Bool
  | [] => true
  | f :: fs => decide (f.lo + f.w ≤ 32) && fs.all f.apart && fieldsApart fs

/-- What one field takes of a write, by its access type. -/
def RegField.taken (f : RegField) (old v : Nat) : Nat :=
  match f.acc with
  | .ro | .wo => bitsAt old f.lo f.w
  | .w1c => bitsAt old f.lo f.w - Nat.land (bitsAt old f.lo f.w) (bitsAt v f.lo f.w)
  | .rw | .rws | .rwl => bitsAt v f.lo f.w

/-- One field's step of `plainValue`. -/
def plainStep (old v x : Nat) (f : RegField) : Nat :=
  match f.acc with
  | .ro | .wo => x
  | .w1c | .rw | .rws | .rwl => putBits x f.lo f.w (f.taken old v)

theorem plainValue_eq (fs : List RegField) (old v : Nat) : plainValue fs old v = fs.foldl (plainStep old v) old := by
  unfold plainValue
  congr 1
  funext x f
  unfold plainStep RegField.taken
  cases f.acc <;> rfl

theorem RegField.taken_lt (f : RegField) (old v : Nat) : f.taken old v < 2 ^ f.w := by
  have ho := bitsAt_lt old f.lo f.w
  unfold RegField.taken
  split
  · exact ho
  · exact ho
  · exact (Nat.sub_le _ _).trans_lt ho
  all_goals exact bitsAt_lt _ _ _

theorem plainStep_lt {old v x n : Nat} {f : RegField} (hx : x < 2 ^ n) (h : f.lo + f.w ≤ n) : plainStep old v x f < 2 ^ n := by
  unfold plainStep
  split
  all_goals first | exact hx | exact putBits_lt hx h

theorem plainStep_apart {old v x : Nat} {f g : RegField} (h : f.apart g = true) :
    bitsAt (plainStep old v x f) g.lo g.w = bitsAt x g.lo g.w ∧ bitsAt (plainStep old v x g) f.lo f.w = bitsAt x f.lo f.w := by
  have h' : f.lo + f.w ≤ g.lo ∨ g.lo + g.w ≤ f.lo := of_decide_eq_true h
  unfold plainStep
  constructor <;> split <;> first
    | rfl
    | (rcases h' with h' | h'
       · simp only [bitsAt_putBits_above h', bitsAt_putBits_below h']
       · simp only [bitsAt_putBits_above h', bitsAt_putBits_below h'])

theorem plainStep_same {old v x : Nat} {f : RegField} (hx : bitsAt x f.lo f.w = bitsAt old f.lo f.w) :
    bitsAt (plainStep old v x f) f.lo f.w = f.taken old v := by
  have ht := f.taken_lt old v
  unfold plainStep
  split
  next h => rw [hx, RegField.taken, h]
  next h => rw [hx, RegField.taken, h]
  all_goals rw [bitsAt_putBits_same, Nat.mod_eq_of_lt ht]

theorem foldl_plainStep_lt {old v : Nat} {fs : List RegField} (h : fieldsApart fs = true) {x : Nat} (hx : x < 2 ^ 32) :
    fs.foldl (plainStep old v) x < 2 ^ 32 := by
  induction fs generalizing x with
  | nil => exact hx
  | cons f fs ih =>
    simp only [fieldsApart, Bool.and_eq_true, decide_eq_true_eq] at h
    exact ih h.2 (plainStep_lt hx h.1.1)

theorem foldl_plainStep_apart {old v : Nat} {g : RegField} {fs : List RegField} (h : fs.all g.apart = true) (x : Nat) :
    bitsAt (fs.foldl (plainStep old v) x) g.lo g.w = bitsAt x g.lo g.w := by
  induction fs generalizing x with
  | nil => rfl
  | cons f fs ih =>
    simp only [List.all_cons, Bool.and_eq_true] at h
    exact (ih h.2 _).trans (plainStep_apart h.1).2

theorem foldl_plainStep_mem {old v : Nat} {g : RegField} {fs : List RegField} (h : fieldsApart fs = true) (hg : g ∈ fs) {x : Nat}
    (hx : ∀ f ∈ fs, bitsAt x f.lo f.w = bitsAt old f.lo f.w) :
    bitsAt (fs.foldl (plainStep old v) x) g.lo g.w = g.taken old v := by
  induction fs generalizing x with
  | nil => cases hg
  | cons f fs ih =>
    simp only [fieldsApart, Bool.and_eq_true, decide_eq_true_eq] at h
    obtain ⟨⟨-, hf⟩, hfs⟩ := h
    rw [List.foldl_cons]
    rcases List.mem_cons.mp hg with rfl | hg
    · rw [foldl_plainStep_apart hf, plainStep_same (hx _ (.head _))]
    · exact ih hfs hg fun k hk =>
        (plainStep_apart (List.all_eq_true.mp hf k hk)).1.trans (hx k (.tail _ hk))

theorem findRow_mem {rs : List RegRow} {off : Nat} {x : RegRow × List Nat} (h : findRow rs off = some x) : x.1 ∈ rs := by
  induction rs with
  | nil => cases h
  | cons r rs ih =>
    unfold findRow at h
    split at h
    · split at h
      · cases h; exact .head _
      · exact .tail _ (ih h)
    · exact .tail _ (ih h)

/-- Every register of the map keeps its fields apart. -/
theorem regRows_fieldsApart (b : Nat) : ((regRows b).all fun r => fieldsApart r.fields) = true := by
  unfold regRows
  split <;> decide +kernel

theorem regAt_fieldsApart {off : Nat} {x : RegRow × List Nat} (h : regAt off = some x) : fieldsApart x.1.fields = true := by
  unfold regAt at h
  split at h
  · exact List.all_eq_true.mp (regRows_fieldsApart _) _ (findRow_mem h)
  · cases h

/-! A register that no write can change (22 R603 row 8). -/

theorem keepFields_of_readOnly {fs : List RegField} (h : fs.any (fun f => f.acc.writable) = false) (old new : Nat) :
    keepFields Acc.locks fs old new = new := by
  unfold keepFields
  induction fs with
  | nil => rfl
  | cons f fs ih =>
    simp only [List.any_cons, Bool.or_eq_false_iff] at h
    have hl : f.acc.locks = false := by
      have hw := h.1
      unfold Acc.writable at hw
      cases hacc : f.acc <;> simp_all [Acc.locks]
    rw [List.foldl_cons, hl]
    exact ih h.2

/-- A write to a register without writable fields is discarded. -/
theorem State.applyWrite_readOnly {s : State} {m off v : Nat} {bad : Bool} {r : RegRow} {i j : Nat}
    (h : r.fields.any (fun f => f.acc.writable) = false) (hr : r.off ≠ Reg.FWU_MBOX_RES 0) :
    s.applyWrite m off v bad r i j = (s, .refused) := by
  simp [State.applyWrite, h, hr, keepFields_of_readOnly h]

/-- A 4-byte write at an aligned offset is a register write of its low 32 bits. -/
theorem State.regWrite_four {s : State} {m off v : Nat} {bad : Bool} (ho : s.off = false) (ha : off % 4 = 0) :
    s.regWrite m off 4 v bad = (s.writeReg m off (v % 2 ^ 32) bad).1 := by
  simp [State.regWrite, ho, ha]

/-- A write of a wrong size is reported, or not seen by a frozen device. -/
theorem State.regWrite_badSize {s : State} {m off len v : Nat} {bad : Bool} (ho : s.off = false) (h4 : ¬ (len = 4 ∧ off % 4 = 0))
    (h8 : ¬ (len = 8 ∧ off % 8 = 0)) :
    s.regWrite m off len v bad = if s.err.fatal = .frozen then s else s.regError off m := by
  simp [State.regWrite, ho, h4, h8]

theorem bitAt_mod {v n i : Nat} (h : i < n) : bitAt (v % 2 ^ n) i = bitAt v i := by
  obtain ⟨k, rfl⟩ : ∃ k, n = i + (k + 1) := ⟨n - i - 1, by omega⟩
  rw [bitAt, bitAt, Nat.pow_add, Nat.mod_mul_right_div_self, Nat.pow_succ, Nat.mod_mod_of_dvd _ (Nat.dvd_mul_left 2 _)]

/-- A frozen device takes the write of a device reset and no other (18 R533). -/
theorem State.writeReg_frozen {s : State} {m off v : Nat} {bad : Bool} (hf : s.err.fatal = .frozen) :
    (s.writeReg m off v bad).1 = if off = Reg.RST_CTRL ∧ bitAt v 0 = true then s.askDeviceReset 2 m else s := by
  unfold State.writeReg
  rw [if_pos hf]
  split <;> rfl

/-- A register that the map has, in the order of 22 R603's rows 5 to 9. -/
theorem State.writeReg_at {s : State} {m off v : Nat} {bad : Bool} {r : RegRow} {ix : List Nat} (hf : s.err.fatal ≠ .frozen)
    (hw : inPmcWindow off = false) (hr : regAt off = some (r, ix)) :
    s.writeReg m off v bad =
      if s.blockServed ((blockOf off).getD 0) = false then (s.regError off m, .notServed)
      else if s.mayWriteReg m ((blockOf off).getD 0) off = false then
        (s.satAdd (Fld.GLB_OWN_REJECT_CNT (rejectBlock ((blockOf off).getD 0) off)) 1, .notOwner)
      else if s.domOn (regDomain off) = false then (s.regError off m, .notOn)
      else s.applyWrite m off v bad r (ix.headD 0) (ix.getD 1 0) := by
  simp [State.writeReg, hf, hw, hr]

end Sys2Proof.Machine
end

section
/-! CERTIFICATES. Register writes (22 R603, 00 R10). -/

namespace Sys2Proof.Machine

open Sys2Proof

/-- Settles O8: the fields of every register lie apart, and so the last word on a field is its own step. -/
theorem fieldAccessTypes : Obligations.FieldAccessTypes := by
  unfold Obligations.FieldAccessTypes
  intro off r ix hr f hf old v ho _
  have ha := regAt_fieldsApart hr
  rw [plainValue_eq]
  refine ⟨foldl_plainStep_lt ha ho, (foldl_plainStep_mem ha hf fun _ _ => rfl).trans ?_⟩
  unfold RegField.taken
  cases f.acc <;> rfl

/-- Settles O7: each row is one branch of `writeReg`, and a write that takes is `rowWrite_takes`. -/
theorem registerWriteOrder : Obligations.RegisterWriteOrder := by
  unfold Obligations.RegisterWriteOrder
  intro s m off v ho b w
  have hrst : Reg.RST_CTRL % 4 = 0 := by decide
  have hbit : bitAt (v % 2 ^ 32) 0 = bitAt v 0 := bitAt_mod (by decide)
  have hnot8 : ¬ (4 = 8 ∧ off % 8 = 0) := fun h => absurd h.1 (by decide)
  have haligned : off % 4 = 0 → w = .next (s.writeReg m off (v % 2 ^ 32) false).1 := fun ha =>
    congrArg Host.Outcome.next (State.regWrite_four ho ha)
  have hrow : ∀ r ix, off % 4 = 0 → s.err.fatal ≠ .frozen → inPmcWindow off = false → regAt off = some (r, ix) → _ :=
    fun r ix ha hf hw hr => (haligned ha).trans (congrArg (fun x => Host.Outcome.next x.1) (State.writeReg_at hf hw hr))
  refine ⟨fun hf hor => ?_, fun hf he hb => ?_, fun hf => ⟨fun len h4 h8 => ?_, fun ha => ⟨fun hw => ?_, fun hw =>
    ⟨fun hr => ?_, fun r ix hr => ⟨fun hs => ?_, fun hs => ⟨fun hm => ?_, fun hm => ⟨fun hd => ?_, fun hd => ⟨fun hro hres => ?_,
      fun ht hb => ?_⟩⟩⟩⟩⟩⟩⟩⟩
  · by_cases ha : off % 4 = 0
    · rw [haligned ha, State.writeReg_frozen hf, hbit, if_neg]
      rintro ⟨h1, h2⟩
      rcases hor with h | h
      · exact h h1
      · simp [h] at h2
    · refine congrArg Host.Outcome.next ((State.regWrite_badSize ho (fun h => ha h.2) hnot8).trans (if_pos hf))
  · rw [haligned (he ▸ hrst), State.writeReg_frozen hf, hbit, if_pos ⟨he, hb⟩]
  · exact congrArg Host.Outcome.next ((State.regWrite_badSize ho h4 h8).trans (if_neg hf))
  · rw [haligned ha]
    simp [State.writeReg, hf, hw, State.pmcWindowWrite]
  · rw [haligned ha]
    simp [State.writeReg, hf, hw, hr]
  · rw [hrow r ix ha hf hw hr, if_pos hs]
  · rw [hrow r ix ha hf hw hr, if_neg (by simp [b, hs] : ¬ _), if_pos hm]
  · rw [hrow r ix ha hf hw hr, if_neg (by simp [b, hs] : ¬ _), if_neg (by simp [b, hm] : ¬ _), if_pos hd]
  · rw [hrow r ix ha hf hw hr, if_neg (by simp [b, hs] : ¬ _), if_neg (by simp [b, hm] : ¬ _), if_neg (by simp [hd] : ¬ _),
      State.applyWrite_readOnly hro hres]
  · have hrow : rowOf off = some (r.off, ix) := by simp [rowOf, hr]
    have hne : w = .next (s.hostWrite m off v) := rfl
    rw [hne, hostWrite_takes ht hrow, hb]
    rfl

end Sys2Proof.Machine
end
section
/-! SUPPORT. The bits of a written value that a register's rule gets, and the field values that the access types leave (00 R10). -/

namespace Sys2Proof.Machine

open Sys2Proof

/-- Every row of the map is found at its own first register. -/
theorem regRows_found (b : Nat) : ((regRows b).all fun r => (regAt r.off).any fun x => x.1 == r) = true := by
  unfold regRows
  split <;> decide +kernel

/-- A register has the fields of its row's first register. -/
theorem fieldsAt_of_rowOf {off base : Nat} {ix : List Nat} (h : rowOf off = some (base, ix)) : fieldsAt off = fieldsAt base := by
  unfold rowOf at h
  obtain ⟨⟨r, ix'⟩, hr, he⟩ := Option.map_eq_some_iff.mp h
  obtain ⟨rfl, rfl⟩ := Prod.mk.inj he
  have hmem : ∃ b, r ∈ regRows b := by
    unfold regAt at hr
    split at hr
    · exact ⟨_, findRow_mem hr⟩
    · cases hr
  obtain ⟨b, hmem⟩ := hmem
  have hfound := List.all_eq_true.mp (regRows_found b) r hmem
  obtain ⟨⟨r', ix''⟩, hr', he'⟩ := (Option.any_eq_true _ _).mp hfound
  obtain rfl := eq_of_beq he'
  simp [fieldsAt, hr, hr']

theorem fieldsAt_apart (off : Nat) : fieldsApart (fieldsAt off) = true := by
  unfold fieldsAt
  split
  next h => exact regAt_fieldsApart h
  · rfl

/-- A field of the row that `base` begins, by its place. -/
def hasField (base lo w : Nat) (p : Acc → Bool) : Bool := (fieldsAt base).any fun f => f.lo == lo && f.w == w && p f.acc

theorem hasField_iff {base lo w : Nat} {p : Acc → Bool} :
    hasField base lo w p = true ↔ ∃ f ∈ fieldsAt base, f.lo = lo ∧ f.w = w ∧ p f.acc = true := by
  simp [hasField, and_assoc]

/-- Some field that a write can act on has bit `i`. -/
def covered (fs : List RegField) (i : Nat) : Bool := fs.any fun f => f.acc.writable && decide (f.lo ≤ i) && decide (i < f.lo + f.w)

theorem testBit_putBits (x lo w v i : Nat) :
    (putBits x lo w v).testBit i = if lo ≤ i ∧ i < lo + w then v.testBit (i - lo) else x.testBit i := by
  have hb : ∀ y : Nat, y.testBit i = decide (bitsAt y i 1 = 1) := fun y => by
    rw [Nat.testBit_eq_decide_div_mod_eq, bitsAt, Nat.pow_one]
  split
  next h =>
    have hs : bitsAt (putBits x lo w v) lo w = v % 2 ^ w := bitsAt_putBits_same x lo w v
    have hl : (bitsAt (putBits x lo w v) lo w).testBit (i - lo) = (putBits x lo w v).testBit i := by
      rw [bitsAt, Nat.testBit_mod_two_pow, Nat.testBit_div_two_pow, Nat.sub_add_cancel h.1]
      simp [show i - lo < w by omega]
    rw [← hl, hs, Nat.testBit_mod_two_pow]
    simp [show i - lo < w by omega]
  next h =>
    rw [hb, hb]
    rcases Nat.lt_or_ge i lo with hlt | hge
    · rw [bitsAt_putBits_below hlt]
    · rw [bitsAt_putBits_above (by omega)]

theorem testBit_bitsAt (v lo w i : Nat) : (bitsAt v lo w).testBit i = (decide (i < w) && v.testBit (lo + i)) := by
  rw [bitsAt, Nat.testBit_mod_two_pow, Nat.testBit_div_two_pow, Nat.add_comm]

theorem bitAt_eq_testBit (v i : Nat) : bitAt v i = v.testBit i := by
  rw [Nat.testBit_eq_decide_div_mod_eq, bitAt]
  rfl

theorem testBit_foldl_fields (v i : Nat) (fs : List RegField) (x : Nat) :
    (fs.foldl (fun x f => if f.acc.writable then putBits x f.lo f.w (bitsAt v f.lo f.w) else x) x).testBit i
      = if covered fs i = true then v.testBit i else x.testBit i := by
  induction fs generalizing x with
  | nil => rfl
  | cons f fs ih =>
    have hstep : (if f.acc.writable = true then putBits x f.lo f.w (bitsAt v f.lo f.w) else x).testBit i
        = if (f.acc.writable && decide (f.lo ≤ i) && decide (i < f.lo + f.w)) = true then v.testBit i else x.testBit i := by
      by_cases hw : f.acc.writable = true
      · by_cases hin : f.lo ≤ i ∧ i < f.lo + f.w
        · have hi : i - f.lo < f.w := by omega
          simp [hw, hin, testBit_putBits, testBit_bitsAt, hi]
        · simp only [hw, if_true, testBit_putBits, if_neg hin, Bool.true_and, Bool.and_eq_true, decide_eq_true_eq]
      · simp [hw]
    rw [List.foldl_cons, ih, hstep]
    have hcov : covered (f :: fs) i = ((f.acc.writable && decide (f.lo ≤ i) && decide (i < f.lo + f.w)) || covered fs i) := rfl
    rw [hcov]
    cases covered fs i <;> simp

/-- The bits that a rule gets are those of the value in fields that a write can act on. -/
theorem testBit_wv {off base : Nat} {ix : List Nat} (hr : rowOf off = some (base, ix)) {v i : Nat} (hi : i < 32)
    (hc : covered (fieldsAt base) i = true) : (wv off v).testBit i = v.testBit i := by
  rw [wv, fieldBits, testBit_foldl_fields, fieldsAt_of_rowOf hr, if_pos hc, Nat.testBit_mod_two_pow]
  simp [hi]

theorem testBit_wv_uncovered {off base : Nat} {ix : List Nat} (hr : rowOf off = some (base, ix)) {v i : Nat}
    (hc : covered (fieldsAt base) i = false) : (wv off v).testBit i = false := by
  rw [wv, fieldBits, testBit_foldl_fields, fieldsAt_of_rowOf hr, if_neg (by simp [hc]), Nat.zero_testBit]

theorem bitAt_wv {off base : Nat} {ix : List Nat} (hr : rowOf off = some (base, ix)) (v i : Nat)
    (hc : (decide (i < 32) && covered (fieldsAt base) i) = true) : bitAt (wv off v) i = bitAt v i := by
  obtain ⟨hi, hc⟩ := (Bool.and_eq_true _ _).mp hc
  rw [bitAt_eq_testBit, bitAt_eq_testBit, testBit_wv hr (of_decide_eq_true hi) hc]

theorem bitsAt_wv {off base : Nat} {ix : List Nat} (hr : rowOf off = some (base, ix)) (v lo w : Nat)
    (hc : ((List.range w).all fun i => decide (lo + i < 32) && covered (fieldsAt base) (lo + i)) = true) :
    bitsAt (wv off v) lo w = bitsAt v lo w := by
  refine Nat.eq_of_testBit_eq fun i => ?_
  rw [testBit_bitsAt, testBit_bitsAt]
  by_cases h : i < w
  · have := List.all_eq_true.mp hc i (List.mem_range.mpr h)
    simp only [Bool.and_eq_true, decide_eq_true_eq] at this
    rw [testBit_wv hr this.1 this.2]
  · simp [h]

theorem bitAt_withBits_in {v lo w x i : Nat} (h : lo ≤ i ∧ i < lo + w) : bitAt (withBits v lo w x) i = bitAt x (i - lo) := by
  rw [bitAt_eq_testBit, bitAt_eq_testBit, withBits, testBit_putBits, if_pos h]

theorem bitAt_withBits_out {v lo w x i : Nat} (h : ¬ (lo ≤ i ∧ i < lo + w)) : bitAt (withBits v lo w x) i = bitAt v i := by
  rw [bitAt_eq_testBit, bitAt_eq_testBit, withBits, testBit_putBits, if_neg h]

theorem bitsAt_withBits_same (v lo w x : Nat) : bitsAt (withBits v lo w x) lo w = x % 2 ^ w := bitsAt_putBits_same v lo w x

theorem bitsAt_withBits_out {v lo w x lo' w' : Nat} (h : lo + w ≤ lo' ∨ lo' + w' ≤ lo) : bitsAt (withBits v lo w x) lo' w' = bitsAt v lo' w' := by
  rcases h with h | h
  · exact bitsAt_putBits_above h
  · exact bitsAt_putBits_below h

/-- A field that stores what is written holds the written bits. -/
theorem State.bitsAt_plainNext {s : State} {off base : Nat} {ix : List Nat} (hr : rowOf off = some (base, ix)) (v lo w : Nat)
    (hf : hasField base lo w (fun a => a == .rw || a == .rws || a == .rwl) = true)
    (hc : ((List.range w).all fun i => decide (lo + i < 32) && covered (fieldsAt base) (lo + i)) = true) :
    bitsAt (s.plainNext off v) lo w = bitsAt v lo w := by
  obtain ⟨f, hfm, rfl, rfl, ha⟩ := hasField_iff.mp hf
  have hm : f ∈ fieldsAt off := (fieldsAt_of_rowOf hr) ▸ hfm
  rw [State.plainNext, plainValue_eq, foldl_plainStep_mem (fieldsAt_apart off) hm fun _ _ => rfl]
  have ht : f.taken (s.reg off).toNat (wv off v) = bitsAt (wv off v) f.lo f.w := by
    unfold RegField.taken
    cases hacc : f.acc <;> simp_all
  rw [ht, bitsAt_wv hr v _ _ hc]

/-- A field that a write does not change keeps its bits. -/
theorem State.bitsAt_plainNext_kept {s : State} {off base : Nat} {ix : List Nat} (hr : rowOf off = some (base, ix)) (v lo w : Nat)
    (hf : hasField base lo w (fun a => a == .ro || a == .wo) = true) :
    bitsAt (s.plainNext off v) lo w = bitsAt (s.reg off).toNat lo w := by
  obtain ⟨f, hfm, rfl, rfl, ha⟩ := hasField_iff.mp hf
  have hm : f ∈ fieldsAt off := (fieldsAt_of_rowOf hr) ▸ hfm
  rw [State.plainNext, plainValue_eq, foldl_plainStep_mem (fieldsAt_apart off) hm fun _ _ => rfl]
  unfold RegField.taken
  cases hacc : f.acc <;> simp_all

theorem State.plainNext_lt {s : State} (off v : Nat) : s.plainNext off v < 2 ^ 32 := by
  rw [State.plainNext, plainValue_eq]
  exact foldl_plainStep_lt (fieldsAt_apart off) (s.reg off).isLt

/-- A register that is the event or the enable register of no source is stored as it is. -/
theorem State.putPlain_of_noSource {s : State} {off new : Nat} (h : sourceOfReg off = none) :
    s.putPlain off new = s.setReg off (BitVec.ofNat 32 new) := by
  simp [State.putPlain, h]

end Sys2Proof.Machine
end
section
/-! SUPPORT. The rules of the host-side registers (02 R58-R61, R70, R74-R79), and how a row of the command table runs one of them. -/

namespace Sys2Proof.Machine

open Sys2Proof

/-- A row whose register the device has, and whose rule takes the write, ends in the state that the rule leaves. -/
theorem rowWrite_rule {s t : State} {m off v base i j : Nat} {ix : List Nat} {unit : Bool} {w : Wr} (hu : unit = true)
    (h : s.writeTakes m off v = true) (hr : rowOf off = some (base, ix))
    (hb : blockRule m (wv off v) false off base i j s (s.putPlain off (s.plainNext off v)) = some (t, w))
    (hw : w ≠ .reported := by decide) (hi : ix.headD 0 = i := by rfl) (hj : ix.getD 1 0 = j := by rfl) :
    rowWrite unit m off v s = .next t := by
  rw [hu, rowWrite_takes h hr, hi, hj, hb]
  cases w
  · rfl
  · rfl
  · exact absurd rfl hw

/-- A row without a rule stores the plain value. -/
theorem rowWrite_plain {s : State} {m off v base i j : Nat} {ix : List Nat} {unit : Bool} (hu : unit = true)
    (h : s.writeTakes m off v = true) (hr : rowOf off = some (base, ix))
    (hb : blockRule m (wv off v) false off base i j s (s.putPlain off (s.plainNext off v)) = none)
    (hi : ix.headD 0 = i := by rfl) (hj : ix.getD 1 0 = j := by rfl) :
    rowWrite unit m off v s = .next (s.putPlain off (s.plainNext off v)) := by
  rw [hu, rowWrite_takes h hr, hi, hj, hb]
  rfl

section
variable {m v off i j : Nat} {bad : Bool} {s p : State}

theorem blockRule_CE_CMD_PI : blockRule m v bad off (Reg.CE_CMD_PI 0) i j s p
    = some (if s.pfMay m (s.cmdPf i) then cmdDoorbell i v s else (s, .rejected)) := rfl
theorem blockRule_CE_CQ_CI : blockRule m v bad off (Reg.CE_CQ_CI 0) i j s p
    = some (if s.pfMay m (s.cqPf i) then cqConsumer i v s else (s, .rejected)) := rfl
theorem blockRule_CE_CQ_SIZE : blockRule m v bad off (Reg.CE_CQ_SIZE 0) i j s p
    = some (if s.pfMay m (s.cqPf i) then cqSize i v s else (s, .rejected)) := rfl
theorem blockRule_CE_CTRL : blockRule m v bad off Reg.CE_CTRL i j s p = some (ceCtrl v s) := rfl
theorem blockRule_CE_RESET : blockRule m v bad off Reg.CE_RESET i j s p = some (ceResetGo v s, .ok) := rfl
theorem blockRule_DMA_RQ_CI : blockRule m v bad off Reg.DMA_RQ_CI i j s p = some (rqConsumer v s) := rfl
theorem blockRule_DMA_RQ_SIZE : blockRule m v bad off Reg.DMA_RQ_SIZE i j s p = some (rqSize v s) := rfl
theorem blockRule_HIF_POOL_CFG : blockRule m v bad off (Reg.HIF_POOL_CFG 0) i j s p = some (poolCfg i v s) := rfl
theorem blockRule_GLB_OWN : blockRule m v bad off (Reg.GLB_OWN 0) i j s p = none := rfl

end

/-! ### Packet rings -/

theorem pktFld_rx {r : Nat} (h : r < 64) (F : Nat → Fld) : (pktFld r F).reg = (F r).reg := by simp [pktFld, h]

theorem pktFld_tx {r : Nat} (h : ¬ r < 64) (F : Nat → Fld) : (pktFld r F).reg = (F (r - 64)).reg + 0x1000 := by simp [pktFld, h]

theorem pktFld_reg_ne {F G : Nat → Fld} (h : ∀ n, (F n).reg ≠ (G n).reg) (r : Nat) : (pktFld r F).reg ≠ (pktFld r G).reg := by
  unfold pktFld
  split
  · exact h r
  · exact fun e => h (r - 64) (Nat.add_right_cancel e)

theorem pktFld_place {F : Nat → Fld} {lo w : Nat} (h : ∀ n, (F n).lo = lo ∧ (F n).w = w) (r : Nat) :
    (pktFld r F).lo = lo ∧ (pktFld r F).w = w := by
  unfold pktFld
  split
  · exact h r
  · exact h (r - 64)

/-- The registers of the packet rings lie below those of the vectors. -/
theorem pktFld_reg_lt {F : Nat → Fld} (h : ∀ n, (F n).reg ≤ 0x101018 + 0x20 * n) {r : Nat} (hr : r < 128) :
    (pktFld r F).reg < Reg.ERR_VEC 0 := by
  unfold pktFld
  simp only [Reg.ERR_VEC]
  split
  · have := h r; omega
  · have := h (r - 64); simp only; omega

/-- How the rule of one register of a packet ring's set runs, for receive and transmit rings. -/
structure PktRule (F : Nat → Fld) (rule : Nat → Nat → State → State × Wr) : Prop where
  rx : ∀ n < 64, rowOf (F n).reg = some ((F 0).reg, [n])
  tx : ∀ n < 64, rowOf ((F n).reg + 0x1000) = some ((F 0).reg + 0x1000, [n])
  rxRule : ∀ (m v off i j : Nat) (s p : State), blockRule m v false off (F 0).reg i j s p
    = some (if s.pfMay m (s.ringPf i) then rule i v s else (s, .rejected))
  txRule : ∀ (m v off i j : Nat) (s p : State), blockRule m v false off ((F 0).reg + 0x1000) i j s p
    = some (if s.pfMay m (s.ringPf (64 + i)) then rule (64 + i) v s else (s, .rejected))

theorem PktRule.row {F : Nat → Fld} {rule : Nat → Nat → State → State × Wr} (k : PktRule F rule) {r : Nat} (hr : r < 128) :
    ∃ base i, rowOf (pktFld r F).reg = some (base, [i]) ∧ (base = (F 0).reg ∨ base = (F 0).reg + 0x1000) ∧
      ∀ (m v off j : Nat) (s p : State), blockRule m v false off base i j s p
        = some (if s.pfMay m (s.ringPf r) then rule r v s else (s, .rejected)) := by
  by_cases h : r < 64
  · exact ⟨_, r, (pktFld_rx h F) ▸ k.rx r h, .inl rfl, fun m v off j s p => k.rxRule m v off r j s p⟩
  · refine ⟨_, r - 64, (pktFld_tx h F) ▸ k.tx (r - 64) (by omega), .inr rfl, fun m v off j s p => ?_⟩
    have := k.txRule m v off (r - 64) j s p
    rwa [show 64 + (r - 64) = r by omega] at this

/-- A write of a packet ring's register, by the master of the ring's function. -/
theorem PktRule.rowWrite {F : Nat → Fld} {rule : Nat → Nat → State → State × Wr} (k : PktRule F rule) {r m v : Nat} {s t : State} {w : Wr}
    {unit : Bool} (hu : unit = true) (hr : r < 128) (h : s.writeTakes m (pktFld r F).reg v = true) (hm : s.pfMay m (s.ringPf r) = true)
    (hb : rule r (wv (pktFld r F).reg v) s = (t, w)) (hw : w ≠ .reported) : rowWrite unit m (pktFld r F).reg v s = .next t := by
  obtain ⟨base, i, hrow, -, hrule⟩ := k.row hr
  refine rowWrite_rule hu h hrow ((hrule _ _ _ _ _ _).trans ?_) hw
  rw [if_pos hm, hb]

theorem blockRule_rx {m v off base d i j : Nat} {s p : State} (h : base = Reg.HIF_RXR_BASE_LO 0 + d) (hd : d < 0x1000) :
    blockRule m v false off base i j s p = some (if s.pfMay m (s.ringPf i) then pktRule i d v s else (s, .rejected)) := by
  have hb : Reg.HIF_RXR_BASE_LO 0 = 0x101000 := rfl
  have past : ∀ {r}, r < 0x101000 → ¬ base = r := fun hr => by omega
  have below : base < Reg.HIF_TXR_BASE_LO 0 := by
    have : Reg.HIF_TXR_BASE_LO 0 = 0x102000 := rfl
    omega
  rw [blockRule, if_pos (by omega), ruleHif, if_neg (past (by decide)), if_neg (past (by decide)), if_neg (past (by decide)),
    if_neg (past (by decide)), if_neg (past (by decide)), if_neg (past (by decide)), if_neg (past (by decide)), if_pos ⟨by omega, below⟩, h,
    Nat.add_sub_cancel_left]

theorem blockRule_tx {m v off base d i j : Nat} {s p : State} (h : base = Reg.HIF_TXR_BASE_LO 0 + d) (hd : d < 0x1000) :
    blockRule m v false off base i j s p = some (if s.pfMay m (s.ringPf (64 + i)) then pktRule (64 + i) d v s else (s, .rejected)) := by
  have hb : Reg.HIF_TXR_BASE_LO 0 = 0x102000 := rfl
  have past : ∀ {r}, r < 0x102000 → ¬ base = r := fun hr => by omega
  rw [blockRule, if_pos (by omega), ruleHif, if_neg (past (by decide)), if_neg (past (by decide)), if_neg (past (by decide)),
    if_neg (past (by decide)), if_neg (past (by decide)), if_neg (past (by decide)), if_neg (past (by decide)),
    if_neg fun x => Nat.not_lt.mpr (by omega) x.2, if_pos (by omega), h, Nat.add_sub_cancel_left]

theorem pktRule_pi : PktRule Fld.HIF_RXR_PI_PI pktDoorbell where
  rx n hn := rowOf_HIF_RXR_PI hn
  tx n hn := by
    have e : (Fld.HIF_RXR_PI_PI n).reg + 0x1000 = Reg.HIF_TXR_PI n := by simp only [Fld.HIF_RXR_PI_PI, Reg.HIF_RXR_PI, Reg.HIF_TXR_PI]; omega
    rw [e]; exact rowOf_HIF_TXR_PI hn
  rxRule m v off i j s p := blockRule_rx (d := 0x0C) rfl (by decide)
  txRule m v off i j s p := blockRule_tx (d := 0x0C) rfl (by decide)

theorem pktRule_baseLo : PktRule Fld.HIF_RXR_BASE_LO_ADDR pktBase where
  rx n hn := rowOf_HIF_RXR_BASE_LO hn
  tx n hn := by
    have e : (Fld.HIF_RXR_BASE_LO_ADDR n).reg + 0x1000 = Reg.HIF_TXR_BASE_LO n := by
      simp only [Fld.HIF_RXR_BASE_LO_ADDR, Reg.HIF_RXR_BASE_LO, Reg.HIF_TXR_BASE_LO]; omega
    rw [e]; exact rowOf_HIF_TXR_BASE_LO hn
  rxRule m v off i j s p := blockRule_rx (d := 0) rfl (by decide)
  txRule m v off i j s p := blockRule_tx (d := 0) rfl (by decide)

theorem pktRule_config : PktRule Fld.HIF_RXR_CFG_SIZE_LOG2 pktCfg where
  rx n hn := rowOf_HIF_RXR_CFG hn
  tx n hn := by
    have e : (Fld.HIF_RXR_CFG_SIZE_LOG2 n).reg + 0x1000 = Reg.HIF_TXR_CFG n := by
      simp only [Fld.HIF_RXR_CFG_SIZE_LOG2, Reg.HIF_RXR_CFG, Reg.HIF_TXR_CFG]; omega
    rw [e]; exact rowOf_HIF_TXR_CFG hn
  rxRule m v off i j s p := blockRule_rx (d := 0x08) rfl (by decide)
  txRule m v off i j s p := blockRule_tx (d := 0x08) rfl (by decide)

end Sys2Proof.Machine
end
section
/-! SUPPORT. What the host-side rules leave of rings, queues and their enables (02 R74, R75). -/

namespace Sys2Proof.Machine

open Sys2Proof

/-- A pulse writes no register below those of the vectors. -/
theorem State.pulse_reg_below {s : State} {off : Nat} (h : off < Reg.ERR_VEC 0) (n : Nat) : (s.pulse n).reg off = s.reg off := by
  obtain h' | ⟨v, -, h'⟩ := s.pulse_cases n
  · rw [h']
  · rw [h', State.sendMessage_reg]
    simp only [Reg.ERR_VEC] at h ⊢
    omega

section
variable (s : State) (r : Nat)

theorem State.pktPulse_reg_below {off : Nat} (h : off < Reg.ERR_VEC 0) : (s.pktPulse r).reg off = s.reg off := by
  unfold State.pktPulse
  split
  · exact State.pulse_reg_below h _
  · rfl

theorem State.pktWriteBack_reg (i off : Nat) : (s.pktWriteBack r i).reg off = s.reg off :=
  State.reg_congr (State.writeIndex_regs s _ _ _) off

theorem State.pktPulse_writeBack_fget {F : Nat → Fld} (h : ∀ n, (F n).reg ≤ 0x101018 + 0x20 * n) (hr : r < 128) :
    ((s.pktWriteBack r 0).pktPulse r).fget (pktFld r F) = s.fget (pktFld r F) := by
  rw [State.fget, State.pktPulse_reg_below _ _ (pktFld_reg_lt h hr), State.pktWriteBack_reg, ← State.fget]

end

theorem pktFld_cfgStopped (r : Nat) : (pktFld r Fld.HIF_RXR_CFG_STOPPED).lo = 29 ∧ (pktFld r Fld.HIF_RXR_CFG_STOPPED).w = 1 :=
  pktFld_place (F := Fld.HIF_RXR_CFG_STOPPED) (fun _ => ⟨rfl, rfl⟩) r
theorem pktFld_cfgReason (r : Nat) : (pktFld r Fld.HIF_RXR_CFG_REASON).lo = 30 ∧ (pktFld r Fld.HIF_RXR_CFG_REASON).w = 2 :=
  pktFld_place (F := Fld.HIF_RXR_CFG_REASON) (fun _ => ⟨rfl, rfl⟩) r
theorem pktFld_cfgEn (r : Nat) : (pktFld r Fld.HIF_RXR_CFG_EN).lo = 28 ∧ (pktFld r Fld.HIF_RXR_CFG_EN).w = 1 :=
  pktFld_place (F := Fld.HIF_RXR_CFG_EN) (fun _ => ⟨rfl, rfl⟩) r
theorem pktFld_cfgSize (r : Nat) : (pktFld r Fld.HIF_RXR_CFG_SIZE_LOG2).lo = 0 ∧ (pktFld r Fld.HIF_RXR_CFG_SIZE_LOG2).w = 5 :=
  pktFld_place (F := Fld.HIF_RXR_CFG_SIZE_LOG2) (fun _ => ⟨rfl, rfl⟩) r
theorem pktFld_cfgBuf (r : Nat) : (pktFld r Fld.HIF_RXR_CFG_BUFSZ_64).lo = 8 ∧ (pktFld r Fld.HIF_RXR_CFG_BUFSZ_64).w = 6 :=
  pktFld_place (F := Fld.HIF_RXR_CFG_BUFSZ_64) (fun _ => ⟨rfl, rfl⟩) r
theorem pktFld_cfgVector (r : Nat) : (pktFld r Fld.HIF_RXR_CFG_VECTOR).lo = 16 ∧ (pktFld r Fld.HIF_RXR_CFG_VECTOR).w = 9 :=
  pktFld_place (F := Fld.HIF_RXR_CFG_VECTOR) (fun _ => ⟨rfl, rfl⟩) r
theorem pktFld_pi (r : Nat) : (pktFld r Fld.HIF_RXR_PI_PI).lo = 0 ∧ (pktFld r Fld.HIF_RXR_PI_PI).w = 17 :=
  pktFld_place (F := Fld.HIF_RXR_PI_PI) (fun _ => ⟨rfl, rfl⟩) r
theorem pktFld_ci (r : Nat) : (pktFld r Fld.HIF_RXR_CI_CI).lo = 0 ∧ (pktFld r Fld.HIF_RXR_CI_CI).w = 17 :=
  pktFld_place (F := Fld.HIF_RXR_CI_CI) (fun _ => ⟨rfl, rfl⟩) r

theorem pktFld_pi_ne_ci (r : Nat) : (pktFld r Fld.HIF_RXR_PI_PI).reg ≠ (pktFld r Fld.HIF_RXR_CI_CI).reg :=
  pktFld_reg_ne (fun n => by simp only [Fld.HIF_RXR_PI_PI, Fld.HIF_RXR_CI_CI, Reg.HIF_RXR_PI, Reg.HIF_RXR_CI]; omega) r
theorem pktFld_stopped_ne_ci (r : Nat) : (pktFld r Fld.HIF_RXR_CFG_STOPPED).reg ≠ (pktFld r Fld.HIF_RXR_CI_CI).reg :=
  pktFld_reg_ne (fun n => by simp only [Fld.HIF_RXR_CFG_STOPPED, Fld.HIF_RXR_CI_CI, Reg.HIF_RXR_CFG, Reg.HIF_RXR_CI]; omega) r
theorem pktFld_stopped_ne_pi (r : Nat) : (pktFld r Fld.HIF_RXR_CFG_STOPPED).reg ≠ (pktFld r Fld.HIF_RXR_PI_PI).reg :=
  pktFld_reg_ne (fun n => by simp only [Fld.HIF_RXR_CFG_STOPPED, Fld.HIF_RXR_PI_PI, Reg.HIF_RXR_CFG, Reg.HIF_RXR_PI]; omega) r

/-- A stopped packet ring restarts with the write of its base, both indices 0 (02 R74). -/
theorem pktBase_restarts {s : State} {r : Nat} (hr : r < 128) (hs : s.pktStopped r = true) (v : Nat) :
    ∃ t, pktBase r v s = (t, .ok) ∧ t.pktStopped r = false ∧ t.pktPi r = 0 ∧ t.pktCi r = 0 := by
  obtain ⟨sl, sw⟩ := pktFld_cfgStopped r
  obtain ⟨rl, rw_⟩ := pktFld_cfgReason r
  obtain ⟨pl, pw⟩ := pktFld_pi r
  obtain ⟨cl, cw⟩ := pktFld_ci r
  unfold pktBase
  rw [if_pos hs]
  refine ⟨_, rfl, ?_, ?_, ?_⟩
  · rw [State.pktStopped, State.fbit, State.pktPulse_writeBack_fget _ _ (fun n => Nat.add_le_add_right (by decide) _) hr,
      State.fget_fset_other _ _ _ _ (pktFld_stopped_ne_ci r), State.fget_fset_other _ _ _ _ (pktFld_stopped_ne_pi r),
      State.fget_fset_apart _ _ _ _ (by omega) (by omega), State.fget_fset_same _ _ _ (by omega)]
    simp
  · rw [State.pktPi, State.pktPulse_writeBack_fget _ _ (fun n => Nat.add_le_add_right (by decide) _) hr,
      State.fget_fset_other _ _ _ _ (pktFld_pi_ne_ci r), State.fget_fset_same _ _ _ (by omega), Nat.zero_mod]
  · rw [State.pktCi, State.pktPulse_writeBack_fget _ _ (fun n => Nat.add_le_add_right (by decide) _) hr, State.fget_fset_same _ _ _ (by omega),
      Nat.zero_mod]

/-- A free pool starts where its bucket list fits (02 R79). -/
theorem poolCfg_starts {s : State} {p v : Nat} (he : s.poolEn p = false) (hv : bitAt v 31 = true)
    (hok : ((s.fset (Fld.HIF_POOL_CFG_BSIZE_LOG2 p) (bitsAt v 0 4)).fset (Fld.HIF_POOL_CFG_COUNT p) (bitsAt v 4 16)).poolOk p = true) :
    poolCfg p v s = (((s.fset (Fld.HIF_POOL_CFG_BSIZE_LOG2 p) (bitsAt v 0 4)).fset (Fld.HIF_POOL_CFG_COUNT p) (bitsAt v 4 16)).poolStart p, .ok) := by
  simp only [poolCfg, he, hv, Bool.false_eq_true, if_false, Bool.not_true, hok, if_true]

/-! ### Disables that wait (02 R75) -/

/-- What CE_CTRL's write does to one command ring. -/
def ceCtrlRing (v : Nat) (t : State) (r : Nat) : State :=
  let x := Assoc.get t.ce.rings ⟨[], [], false⟩ r
  if bitAt v r then
    let t1 := t.fset Fld.CE_CTRL_RING_EN (Nat.lor (t.fget Fld.CE_CTRL_RING_EN) (2 ^ r))
    if x.disabling then { t1 with ce := { t1.ce with rings := Assoc.put t1.ce.rings ⟨[], [], false⟩ r { x with disabling := false } } } else t1
  else if bitAt (t.fget Fld.CE_CTRL_RING_EN) r then
    { t with ce := { t.ce with rings := Assoc.put t.ce.rings ⟨[], [], false⟩ r { x with disabling := true } } }
  else t

theorem ceCtrl_eq (v : Nat) (s : State) : ceCtrl v s = ((List.range 8).foldl (ceCtrlRing v) s, .ok) := rfl

/-- The engine with the disable of command ring `r` waiting. -/
def CeState.askDisable (ce : CeState) (r : Nat) : CeState :=
  { ce with rings := Assoc.put ce.rings ⟨[], [], false⟩ r { Assoc.get ce.rings ⟨[], [], false⟩ r with disabling := true } }

/-- A command ring's enable stands. -/
def State.ringOn (s : State) (r : Nat) : Prop := bitAt (s.fget Fld.CE_CTRL_RING_EN) r = true

/-- A command ring's disable waits, its enable still set. -/
def State.ringWaits (s : State) (r : Nat) : Prop :=
  (Assoc.get s.ce.rings ⟨[], [], false⟩ r).disabling = true ∧ s.ringOn r

theorem ringOn_fset_lor {s : State} {r : Nat} (hr : r < 8) (h : s.ringOn r) (k : Nat) :
    (s.fset Fld.CE_CTRL_RING_EN (Nat.lor (s.fget Fld.CE_CTRL_RING_EN) (2 ^ k))).ringOn r := by
  unfold State.ringOn at h ⊢
  rw [State.fget_fset_same _ _ _ (by decide), bitAt_mod (show r < Fld.CE_CTRL_RING_EN.w from hr)]
  rw [bitAt_eq_testBit] at h ⊢
  exact (Nat.testBit_or _ _ r).trans (by rw [h, Bool.true_or])

theorem ceCtrlRing_on {v : Nat} {t : State} {r : Nat} (hr : r < 8) (k : Nat) (h : t.ringOn r) : (ceCtrlRing v t k).ringOn r := by
  unfold ceCtrlRing
  dsimp only
  split
  · split
    · exact (congrArg (bitAt · r = true) (State.withCe_fget _ _ _)).mpr (ringOn_fset_lor hr h k)
    · exact ringOn_fset_lor hr h k
  · split
    · exact (congrArg (bitAt · r = true) (State.withCe_fget _ _ _)).mpr h
    · exact h

theorem ceCtrlRing_other {v : Nat} {t : State} {r k : Nat} (hk : k ≠ r) :
    Assoc.get (ceCtrlRing v t k).ce.rings ⟨[], [], false⟩ r = Assoc.get t.ce.rings ⟨[], [], false⟩ r := by
  unfold ceCtrlRing
  dsimp only
  split
  · split
    · simp [Assoc.get_put, hk.symm]
    · simp
  · split
    · simp [Assoc.get_put, hk.symm]
    · rfl

/-- The write of 0 to an enabled ring's bit makes its disable wait. -/
theorem ceCtrlRing_self {v : Nat} {t : State} {r : Nat} (hv : bitAt v r = false) (h : t.ringOn r) : (ceCtrlRing v t r).ringWaits r := by
  have e : ceCtrlRing v t r = { t with ce := t.ce.askDisable r } := by
    unfold ceCtrlRing
    rw [if_neg (by simp [hv]), if_pos (show bitAt (t.fget Fld.CE_CTRL_RING_EN) r = true from h)]
    rfl
  rw [e]
  refine ⟨?_, (congrArg (bitAt · r = true) (State.withCe_fget _ _ _)).mpr h⟩
  simp [CeState.askDisable]

theorem ceCtrlRing_waits {v : Nat} {t : State} {r : Nat} (hr : r < 8) (hv : bitAt v r = false) (k : Nat) (h : t.ringWaits r) :
    (ceCtrlRing v t k).ringWaits r := by
  by_cases hk : k = r
  · exact hk ▸ ceCtrlRing_self (hk ▸ hv) (hk ▸ h.2)
  · exact ⟨(congrArg CeRing.disabling (ceCtrlRing_other hk)).trans h.1, ceCtrlRing_on hr k h.2⟩

/-- A fold that reaches an element which turns `P` into `Q`, with both kept elsewhere, ends in `Q`. -/
theorem foldl_reaches {σ α : Type} {P Q : σ → Prop} {f : σ → α → σ} {x : α} (hP : ∀ t y, P t → P (f t y)) (hQ : ∀ t y, Q t → Q (f t y))
    (hx : ∀ t, P t → Q (f t x)) {l : List α} (hmem : x ∈ l) {t : σ} (h : P t) : Q (l.foldl f t) := by
  have keep : ∀ (l : List α) (t : σ), Q t → Q (l.foldl f t) := fun l => by
    induction l with
    | nil => exact fun _ h => h
    | cons y l ih => exact fun t h => ih _ (hQ t y h)
  induction l generalizing t with
  | nil => cases hmem
  | cons y l ih =>
    rcases List.mem_cons.mp hmem with rfl | hm
    · exact keep l _ (hx t h)
    · exact ih hm (hP t y h)

theorem ceCtrl_disable {s : State} {r v : Nat} (hr : r < 8) (hv : bitAt v r = false) (h : s.ringOn r) :
    ∃ t, ceCtrl v s = (t, .ok) ∧ t.ringWaits r :=
  ⟨_, ceCtrl_eq v s, foldl_reaches (P := fun u : State => u.ringOn r) (Q := fun u : State => u.ringWaits r) (fun _ k => ceCtrlRing_on hr k) (fun _ k => ceCtrlRing_waits hr hv k) (fun _ => ceCtrlRing_self hv)
    (List.mem_range.mpr hr) h⟩

theorem cqSize_disable {s : State} {q v : Nat} (hv : bitAt v 31 = false) (hen : s.fbit (Fld.CE_CQ_SIZE_EN q) = true)
    (hk : bitsAt v 0 5 = s.fget (Fld.CE_CQ_SIZE_SIZE_LOG2 q)) (h6 : 6 ≤ bitsAt v 0 5) (h16 : bitsAt v 0 5 ≤ 16) :
    ∃ t, cqSize q v s = (t, .ok) ∧ q ∈ t.ce.cqDisabling ∧ t.fbit (Fld.CE_CQ_SIZE_EN q) = true := by
  unfold cqSize
  dsimp only
  rw [if_neg (by omega), if_neg (by simp [hk]), if_neg (by simp [hv]), if_pos hen]
  refine ⟨_, rfl, by simp, ?_⟩
  rw [State.fbit, State.withCe_fget, State.fget_fset_apart _ _ _ _ (by decide : 0 + 5 ≤ 32) (.inr (by decide : 0 + 5 ≤ 31)), ← State.fbit, hen]

theorem rqSize_disable {s : State} {v : Nat} (hv : bitAt v 31 = false) (hen : s.fbit Fld.DMA_RQ_SIZE_EN = true)
    (hk : bitsAt v 0 5 = s.fget Fld.DMA_RQ_SIZE_SIZE_LOG2) (h6 : 6 ≤ bitsAt v 0 5) (h16 : bitsAt v 0 5 ≤ 16) :
    ∃ t, rqSize v s = (t, .ok) ∧ t.dma.rqDisabling = true ∧ t.fbit Fld.DMA_RQ_SIZE_EN = true := by
  unfold rqSize
  dsimp only
  rw [if_neg (by omega), if_neg (by simp [hk]), if_neg (by simp [hv]), if_pos hen]
  refine ⟨_, rfl, rfl, ?_⟩
  refine (State.fbit_congr (t := s.fset Fld.DMA_RQ_SIZE_SIZE_LOG2 (bitsAt v 0 5)) rfl _).trans ?_
  rw [State.fbit, State.fget_fset_apart _ _ _ _ (by decide : 0 + 5 ≤ 32) (.inr (by decide : 0 + 5 ≤ 31)), ← State.fbit, hen]

/-- A packet ring's configuration stored, but for its enable. -/
def State.pktConfigured (s : State) (r v : Nat) : State :=
  let s1 := s.fset (pktFld r Fld.HIF_RXR_CFG_SIZE_LOG2) (bitsAt v 0 5)
  let s2 := if r < 64 then s1.fset (pktFld r Fld.HIF_RXR_CFG_BUFSZ_64) (bitsAt v 8 6) else s1
  s2.fset (pktFld r Fld.HIF_RXR_CFG_VECTOR) (bitsAt v 16 9)

theorem State.pktConfigured_en (s : State) (r v : Nat) : (s.pktConfigured r v).pktEn r = s.pktEn r := by
  obtain ⟨el, ew⟩ := pktFld_cfgEn r
  obtain ⟨kl, kw⟩ := pktFld_cfgSize r
  obtain ⟨bl, bw⟩ := pktFld_cfgBuf r
  obtain ⟨vl, vw⟩ := pktFld_cfgVector r
  unfold State.pktConfigured
  rw [State.pktEn, State.fbit, State.fget_fset_apart _ _ _ _ (by omega) (by omega)]
  split
  · rw [State.fget_fset_apart _ _ _ _ (by omega) (by omega), State.fget_fset_apart _ _ _ _ (by omega) (by omega)]; rfl
  · rw [State.fget_fset_apart _ _ _ _ (by omega) (by omega)]; rfl

theorem pktCfg_disable {s : State} {r v : Nat} (hv : bitAt v 28 = false) (hen : s.pktEn r = true) (h6 : 6 ≤ bitsAt v 0 5)
    (h16 : bitsAt v 0 5 ≤ 16) (hk : bitsAt v 0 5 = s.pktK r) (hb : r < 64 → bitsAt v 8 6 = s.fget (Fld.HIF_RXR_CFG_BUFSZ_64 r))
    (hvec : s.vectorInRange (s.ringPf r) (bitsAt v 16 9) = true) :
    ∃ t, pktCfg r v s = (t, .ok) ∧ r ∈ t.host.ringDisabling ∧ t.pktEn r = true := by
  have hch : (bitsAt v 0 5 != s.pktK r || (decide (r < 64) && bitsAt v 8 6 != s.fget (pktFld r Fld.HIF_RXR_CFG_BUFSZ_64))) = false := by
    rw [hk, bne_self_eq_false, Bool.false_or]
    by_cases h : r < 64
    · simp [h, hb h, pktFld]
    · simp [h]
  unfold pktCfg
  dsimp only
  rw [if_neg (by omega), hch, if_neg (by simp), if_neg (by simp [hvec]), if_neg (by simp [hv]), if_pos hen]
  refine ⟨_, rfl, by simp, ?_⟩
  exact (State.fbit_congr (t := s.pktConfigured r v) rfl _).trans ((s.pktConfigured_en r v).trans hen)

end Sys2Proof.Machine
end

section
/-! CERTIFICATES. Host-side register rows and disables (02 R58-R61, R70, R74, R75, R79, R89, 19 R557). -/

namespace Sys2Proof.Machine

open Sys2Proof

theorem pktDoorbell_reg (r : Nat) :
    (if r < 64 then Reg.HIF_RXR_PI r else Reg.HIF_TXR_PI (r - 64)) = (pktFld r Fld.HIF_RXR_PI_PI).reg := by
  unfold pktFld
  split
  · rfl
  · simp only [Fld.HIF_RXR_PI_PI, Reg.HIF_RXR_PI, Reg.HIF_TXR_PI]; omega

theorem pktBase_reg (r : Nat) :
    (if r < 64 then Reg.HIF_RXR_BASE_LO r else Reg.HIF_TXR_BASE_LO (r - 64)) = (pktFld r Fld.HIF_RXR_BASE_LO_ADDR).reg := by
  unfold pktFld
  split
  · rfl
  · simp only [Fld.HIF_RXR_BASE_LO_ADDR, Reg.HIF_RXR_BASE_LO, Reg.HIF_TXR_BASE_LO]; omega

theorem GLB_OWN_noSource {b : Nat} (hb : b < 28) : sourceOfReg (Reg.GLB_OWN b) = none := by
  have hlt : Reg.GLB_OWN b < 0x1000 := by simp only [Reg.GLB_OWN]; omega
  have he : ∀ n ∈ (List.range 20).map (· + 690), (match levelRegs n with
      | some (e, en) => (Reg.GLB_OWN b == e || Reg.GLB_OWN b == en)
      | none => false) = false := by
    have hfar : ∀ n ∈ (List.range 20).map (· + 690), ∀ x, levelRegs n = some x → 0x1000 ≤ x.1 ∧ 0x1000 ≤ x.2 := by decide +kernel
    intro n hn
    cases hl : levelRegs n with
    | none => rfl
    | some x =>
      obtain ⟨h1, h2⟩ := hfar n hn x hl
      simp only [Bool.or_eq_false_iff, beq_eq_false_iff_ne]
      omega
  have htim : ¬ (Reg.GLB_OWN b = Reg.TIM_EVENT ∨ Reg.GLB_OWN b = Reg.TIM_EVENT_EN) := by
    simp only [Reg.TIM_EVENT, Reg.TIM_EVENT_EN]; omega
  rw [sourceOfReg, if_neg (by omega), if_neg (by omega), if_neg (by omega), if_neg (by omega), if_neg htim, List.find?_eq_none]
  exact fun n hn h => absurd ((he n hn).symm.trans h) (by decide)

/-- Settles O16: each row runs its register's rule, and each rule has one branch under the clause's conditions. -/
theorem hostRegisterRowsTakeEffect : Obligations.HostRegisterRowsTakeEffect := by
  unfold Obligations.HostRegisterRowsTakeEffect
  intro s m v
  refine ⟨fun ring hr ht hm hh hp hd => ?_, fun ring hr ht hm hs hd => ?_, fun q hq ht hm hc => ?_, fun ht hc => ?_, fun ht => ?_,
    fun ring hr ht hm hs => ?_, fun p hp ht he hok => ?_, fun b hb ht => ?_, fun off _ ho hf hw ha => ?_⟩
  · refine rowWrite_rule (decide_eq_true hr) ht (rowOf_CE_CMD_PI hr) ((blockRule_CE_CMD_PI (i := ring)).trans ?_) (w := .ok)
    rw [if_pos hm, cmdDoorbell, if_neg (by simp [hh, hp]), if_pos hd]
  · have hb : pktDoorbell ring (wv (pktFld ring Fld.HIF_RXR_PI_PI).reg v) s
        = (s.fset (pktFld ring Fld.HIF_RXR_PI_PI) (wv (pktFld ring Fld.HIF_RXR_PI_PI).reg v), .ok) := by
      rw [pktDoorbell, if_neg (by simp [hs]), if_pos hd]
    have := pktRule_pi.rowWrite (decide_eq_true hr) hr ht hm hb (by decide)
    rwa [← pktDoorbell_reg] at this ⊢
  · refine rowWrite_rule (decide_eq_true hq) ht (rowOf_CE_CQ_CI hq) ((blockRule_CE_CQ_CI (i := q)).trans ?_) (w := .ok)
    rw [if_pos hm, cqConsumer]
    exact congrArg some (if_pos hc)
  · refine rowWrite_rule rfl ht rowOf_DMA_RQ_CI (blockRule_DMA_RQ_CI.trans ?_) (w := .ok)
    rw [rqConsumer, if_pos hc]
  · refine rowWrite_rule rfl ht rowOf_CE_RESET (blockRule_CE_RESET.trans ?_) (w := .ok)
    have hv : bitAt (wv Reg.CE_RESET (withBits v 0 1 1)) 0 = true :=
      (bitAt_wv rowOf_CE_RESET _ 0 (by decide +kernel)).trans (bitAt_withBits_in (by decide))
    rw [ceResetGo, hv]
    rfl
  · obtain ⟨t, hb, h⟩ := pktBase_restarts hr hs (wv (pktFld ring Fld.HIF_RXR_BASE_LO_ADDR).reg v)
    refine ⟨t, ?_, h⟩
    have := pktRule_baseLo.rowWrite (decide_eq_true hr) hr ht hm hb (by decide)
    rwa [← pktBase_reg] at this
  · have hrow := rowOf_HIF_POOL_CFG hp
    have h31 : bitAt (wv (Reg.HIF_POOL_CFG p) (withBits v 31 1 1)) 31 = true :=
      (bitAt_wv hrow _ 31 (by decide +kernel)).trans (bitAt_withBits_in (by decide))
    have hsize : bitsAt (wv (Reg.HIF_POOL_CFG p) (withBits v 31 1 1)) 0 4 = bitsAt v 0 4 :=
      (bitsAt_wv hrow _ 0 4 (by decide +kernel)).trans (bitsAt_withBits_out (.inr (by decide)))
    have hcount : bitsAt (wv (Reg.HIF_POOL_CFG p) (withBits v 31 1 1)) 4 16 = bitsAt v 4 16 :=
      (bitsAt_wv hrow _ 4 16 (by decide +kernel)).trans (bitsAt_withBits_out (.inr (by decide)))
    refine rowWrite_rule (decide_eq_true hp) ht hrow ((blockRule_HIF_POOL_CFG (i := p)).trans (congrArg some (poolCfg_starts he h31 ?_)))
      (w := .ok) |>.trans ?_
    · rw [hsize, hcount]; exact hok
    · rw [hsize, hcount]
  · have hrow := rowOf_GLB_OWN hb
    refine ⟨_, rowWrite_plain (decide_eq_true hb) ht hrow blockRule_GLB_OWN, ?_⟩
    rw [State.putPlain_of_noSource (GLB_OWN_noSource hb), State.fget, show (Fld.GLB_OWN_OWNER b).reg = Reg.GLB_OWN b from rfl,
      State.reg_setReg_same, BitVec.toNat_ofNat, Nat.mod_eq_of_lt (State.plainNext_lt _ _)]
    exact State.bitsAt_plainNext hrow v 0 4 (by decide +kernel) (by decide +kernel)
  · have hx : exec (.pmcWindowWrite m off v) s = .next (if inPmcWindow off then s.hostWrite m off v else s) := rfl
    rw [hx, if_pos hw, State.hostWrite, State.regWrite_four ho ha, State.writeReg, if_neg hf, if_pos hw]
    rfl

/-- Settles O17: each kind of ring and queue notes the disable and leaves its enable. -/
theorem disableWaits : Obligations.DisableWaits := by
  unfold Obligations.DisableWaits
  intro s m r v
  refine ⟨fun hr ht hen => ?_, fun hr ht hm hen hk h6 h16 => ?_, fun hr ht hm hen h6 h16 hk hb hvec => ?_, fun ht hen h6 h16 hk => ?_⟩
  · have hv : bitAt (wv Reg.CE_CTRL (withBits v r 1 0)) r = false := by
      have hc : ∀ r < 8, (decide (r < 32) && covered (fieldsAt Reg.CE_CTRL) r) = true := by decide +kernel
      rw [bitAt_wv rowOf_CE_CTRL _ r (hc r hr), bitAt_withBits_in (by omega), Nat.sub_self]
      rfl
    obtain ⟨t, hb, hw⟩ := ceCtrl_disable hr hv hen
    refine ⟨t, ?_, hw⟩
    have hx : exec (.ringDisable m r v) s = rowWrite (decide (r ≤ 144)) m (disableWrite r v).1 (disableWrite r v).2 s := rfl
    rw [hx, disableWrite, if_pos hr]
    exact rowWrite_rule (decide_eq_true (by omega)) ht rowOf_CE_CTRL (blockRule_CE_CTRL.trans (congrArg some hb)) (by decide)
  · have hrow := rowOf_CE_CQ_SIZE hr
    have hv : bitAt (wv (Reg.CE_CQ_SIZE r) (withBits v 31 1 0)) 31 = false :=
      (bitAt_wv hrow _ 31 (by decide +kernel)).trans (bitAt_withBits_in (by decide))
    have hsize : bitsAt (wv (Reg.CE_CQ_SIZE r) (withBits v 31 1 0)) 0 5 = bitsAt v 0 5 :=
      (bitsAt_wv hrow _ 0 5 (by decide +kernel)).trans (bitsAt_withBits_out (.inr (by decide)))
    obtain ⟨t, hb, hw⟩ := cqSize_disable hv hen (hsize.trans hk) (hsize ▸ h6) (hsize ▸ h16)
    refine ⟨t, ?_, hw⟩
    have hx : exec (.ringDisable m (8 + r) v) s
      = rowWrite (decide (8 + r ≤ 144)) m (disableWrite (8 + r) v).1 (disableWrite (8 + r) v).2 s := rfl
    rw [hx, disableWrite, if_neg (by omega), if_pos (by omega), Nat.add_sub_cancel_left]
    exact rowWrite_rule (decide_eq_true (by omega)) ht hrow ((blockRule_CE_CQ_SIZE (i := r)).trans (congrArg some ((if_pos hm).trans hb))) (by decide)
  · obtain ⟨base, i, hrow, hbase, -⟩ := pktRule_config.row hr
    have hbits : ∀ lo w, ((List.range w).all fun i => decide (lo + i < 32) && covered (fieldsAt base) (lo + i)) = true → (28 < lo ∨ lo + w ≤ 28) →
        bitsAt (wv (pktFld r Fld.HIF_RXR_CFG_SIZE_LOG2).reg (withBits v 28 1 0)) lo w = bitsAt v lo w := fun lo w hc hout =>
      (bitsAt_wv hrow _ lo w hc).trans (bitsAt_withBits_out (by omega))
    have hv : bitAt (wv (pktFld r Fld.HIF_RXR_CFG_SIZE_LOG2).reg (withBits v 28 1 0)) 28 = false :=
      (bitAt_wv hrow _ 28 (by rcases hbase with rfl | rfl <;> decide +kernel)).trans (bitAt_withBits_in (by decide))
    have hsize := hbits 0 5 (by rcases hbase with rfl | rfl <;> decide +kernel) (by decide)
    have hvecbits := hbits 16 9 (by rcases hbase with rfl | rfl <;> decide +kernel) (by decide)
    have hbuf : r < 64 → bitsAt (wv (pktFld r Fld.HIF_RXR_CFG_SIZE_LOG2).reg (withBits v 28 1 0)) 8 6 = bitsAt v 8 6 := fun h => by
      rw [pktFld_rx h]
      exact (bitsAt_wv (rowOf_HIF_RXR_CFG h) _ 8 6 (by decide +kernel)).trans (bitsAt_withBits_out (by decide))
    obtain ⟨t, hb', hw⟩ := pktCfg_disable hv hen (hsize ▸ h6) (hsize ▸ h16) (hsize.trans hk) (fun h => (hbuf h).trans (hb h)) (hvecbits ▸ hvec)
    refine ⟨t, ?_, hw⟩
    have hx : exec (.ringDisable m (16 + r) v) s
      = rowWrite (decide (16 + r ≤ 144)) m (disableWrite (16 + r) v).1 (disableWrite (16 + r) v).2 s := rfl
    have hd : disableWrite (16 + r) v = ((pktFld r Fld.HIF_RXR_CFG_SIZE_LOG2).reg, withBits v 28 1 0) := by
      by_cases h : r < 64
      · rw [disableWrite, if_neg (by omega), if_neg (by omega), if_pos (by omega), Nat.add_sub_cancel_left, pktFld_rx h]
        rfl
      · have e : Reg.HIF_TXR_CFG (16 + r - 80) = (Fld.HIF_RXR_CFG_SIZE_LOG2 (r - 64)).reg + 0x1000 := by
          simp only [Fld.HIF_RXR_CFG_SIZE_LOG2, Reg.HIF_RXR_CFG, Reg.HIF_TXR_CFG]; omega
        rw [disableWrite, if_neg (by omega), if_neg (by omega), if_neg (by omega), if_pos (by omega), pktFld_tx h, e]
    rw [hx, hd]
    exact pktRule_config.rowWrite (decide_eq_true (by omega)) hr ht hm hb' (by decide)
  · have hv : bitAt (wv Reg.DMA_RQ_SIZE (withBits v 31 1 0)) 31 = false :=
      (bitAt_wv rowOf_DMA_RQ_SIZE _ 31 (by decide +kernel)).trans (bitAt_withBits_in (by decide))
    have hsize : bitsAt (wv Reg.DMA_RQ_SIZE (withBits v 31 1 0)) 0 5 = bitsAt v 0 5 :=
      (bitsAt_wv rowOf_DMA_RQ_SIZE _ 0 5 (by decide +kernel)).trans (bitsAt_withBits_out (.inr (by decide)))
    obtain ⟨t, hb, hw⟩ := rqSize_disable hv hen (hsize.trans hk) (hsize ▸ h6) (hsize ▸ h16)
    refine ⟨t, ?_, hw⟩
    have hx : exec (.ringDisable m 144 v) s = rowWrite true m Reg.DMA_RQ_SIZE (withBits v 31 1 0) s := rfl
    exact hx.trans (rowWrite_rule rfl ht rowOf_DMA_RQ_SIZE (blockRule_DMA_RQ_SIZE.trans (congrArg some hb)) (by decide))

end Sys2Proof.Machine
end
section
/-! SUPPORT. The bits that a row's own field sets in the value it writes, and the rules that line, table and system rows run. -/

namespace Sys2Proof.Machine

open Sys2Proof

section
variable {off base : Nat} {ix : List Nat} {lo w : Nat}

/-- A bit of the row's own field. -/
theorem bitAt_wv_own (hr : rowOf off = some (base, ix)) (v x i : Nat) (h : lo ≤ i ∧ i < lo + w)
    (hc : (decide (i < 32) && covered (fieldsAt base) i) = true) : bitAt (wv off (withBits v lo w x)) i = bitAt x (i - lo) :=
  (bitAt_wv hr _ i hc).trans (bitAt_withBits_in h)

/-- A bit outside the row's own field. -/
theorem bitAt_wv_other (hr : rowOf off = some (base, ix)) (v x i : Nat) (h : ¬ (lo ≤ i ∧ i < lo + w))
    (hc : (decide (i < 32) && covered (fieldsAt base) i) = true) : bitAt (wv off (withBits v lo w x)) i = bitAt v i :=
  (bitAt_wv hr _ i hc).trans (bitAt_withBits_out h)

/-- The bit that a row sets to start something. -/
theorem bitAt_wv_go (hr : rowOf off = some (base, ix)) (v : Nat) (hc : covered (fieldsAt base) 0 = true) :
    bitAt (wv off (withBits v 0 1 1)) 0 = true :=
  bitAt_wv_own hr v 1 0 (by decide) (by rw [hc]; rfl)

theorem bitsAt_wv_own (hr : rowOf off = some (base, ix)) (v x : Nat)
    (hc : ((List.range w).all fun i => decide (lo + i < 32) && covered (fieldsAt base) (lo + i)) = true) :
    bitsAt (wv off (withBits v lo w x)) lo w = x % 2 ^ w :=
  (bitsAt_wv hr _ lo w hc).trans (bitsAt_withBits_same v lo w x)

theorem bitsAt_wv_other {lo' w' : Nat} (hr : rowOf off = some (base, ix)) (v x : Nat) (h : lo + w ≤ lo' ∨ lo' + w' ≤ lo)
    (hc : ((List.range w').all fun i => decide (lo' + i < 32) && covered (fieldsAt base) (lo' + i)) = true) :
    bitsAt (wv off (withBits v lo w x)) lo' w' = bitsAt v lo' w' :=
  (bitsAt_wv hr _ lo' w' hc).trans (bitsAt_withBits_out h)

end

theorem bitAt_of_bitsAt_zero {v lo w i : Nat} (h : bitsAt v lo w = 0) (hi : lo ≤ i ∧ i < lo + w) : bitAt v i = false := by
  have hb := testBit_bitsAt v lo w (i - lo)
  rw [h, Nat.zero_testBit, show lo + (i - lo) = i by omega, decide_eq_true (by omega : i - lo < w), Bool.true_and] at hb
  rw [bitAt_eq_testBit, ← hb]

theorem bitAt_zero (v : Nat) : bitAt v 0 = decide (v % 2 = 1) := by
  rw [bitAt, Nat.pow_zero, Nat.div_one]
  rfl

/-- Under a mask of bits that are written, the rule's bits are the value's. -/
theorem land_wv {off base : Nat} {ix : List Nat} (hr : rowOf off = some (base, ix)) (v mask : Nat) (hm : mask < 2 ^ 32)
    (hc : ((List.range 32).all fun i => !mask.testBit i || covered (fieldsAt base) i) = true) :
    Nat.land (wv off v) mask = Nat.land v mask := by
  refine Nat.eq_of_testBit_eq fun i => (Nat.testBit_and _ _ i).trans (Eq.trans ?_ (Nat.testBit_and _ _ i).symm)
  by_cases hb : mask.testBit i = true
  · have hi : i < 32 := by
      by_contra h
      rw [Nat.testBit_lt_two_pow (hm.trans_le (Nat.pow_le_pow_right (by decide) (Nat.le_of_not_lt h)))] at hb
      cases hb
    have := List.all_eq_true.mp hc i (List.mem_range.mpr hi)
    rw [hb, Bool.not_true, Bool.false_or] at this
    rw [testBit_wv hr hi this]
  · simp [hb]

/-- A field that a mask leaves out does not count under it. -/
theorem land_withBits (v lo w x mask : Nat) (h : ((List.range w).all fun k => !mask.testBit (lo + k)) = true) :
    Nat.land (withBits v lo w x) mask = Nat.land v mask := by
  refine Nat.eq_of_testBit_eq fun i => (Nat.testBit_and _ _ i).trans (Eq.trans ?_ (Nat.testBit_and _ _ i).symm)
  rw [withBits, testBit_putBits]
  split
  next hin =>
    have := List.all_eq_true.mp h (i - lo) (List.mem_range.mpr (by omega))
    rw [show lo + (i - lo) = i by omega, Bool.not_eq_true'] at this
    simp [this]
  · rfl

theorem State.fget_setReg_same (s : State) {f : Fld} {off : Nat} (h : f.reg = off) {n : Nat} (hn : n < 2 ^ 32) :
    (s.setReg off (BitVec.ofNat 32 n)).fget f = bitsAt n f.lo f.w := by
  rw [State.fget, h, State.reg_setReg_same, BitVec.toNat_ofNat, Nat.mod_eq_of_lt hn]

theorem State.fget_setReg_other (s : State) {f : Fld} {off : Nat} (h : f.reg ≠ off) (v : Word) : (s.setReg off v).fget f = s.fget f := by
  rw [State.fget, State.reg_setReg_other _ h, State.fget]

/-! ### The rules by register -/

section
variable {m v off i j : Nat} {bad : Bool} {s p : State}

theorem blockRule_PRT_PORT_CFG : blockRule m v bad off (Reg.PRT_PORT_CFG 0 0) i j s p
    = some (checkedWrite (s.hookPortCfg (8 * i + j) v) off (portCfgMask + 1) v) := rfl
theorem blockRule_PRT_GRP_CTRL : blockRule m v bad off (Reg.PRT_GRP_CTRL 0) i j s p
    = some (if bitAt v 0 && !s.domOn (19 + i / 4) then (s, .rejected) else (s.hookGrpCtrl i v, .ok)) := rfl
theorem blockRule_PRT_PORT_CAL : blockRule m v bad off (Reg.PRT_PORT_CAL 0 0) i j s p = some (s.hookPortCal (8 * i + j) v, .ok) := rfl
theorem blockRule_FXE_GRP_CFG : blockRule m v bad off (Reg.FXE_GRP_CFG 0) i j s p
    = some (checkedWrite (s.hookFxeGrp i v) off 0x0FFFFF03 v) := rfl
theorem blockRule_FXE_CLIENT_CFG : blockRule m v bad off (Reg.FXE_CLIENT_CFG 0) i j s p
    = some (checkedWrite (s.hookFxeClient i v) off 0xFFFF0003 v) := rfl
theorem blockRule_FXE_CLIENT_PROT : blockRule m v bad off (Reg.FXE_CLIENT_PROT 0) i j s p
    = some (checkedWrite (s.hookFxeProt i v) off 0xFFFF07F3 v) := rfl
theorem blockRule_PAR_TRACE_CTRL : blockRule m v bad off Reg.PAR_TRACE_CTRL i j s p = some (s.hookTrace v, .ok) := rfl

theorem blockRule_LPM_SHADOW_CTRL : blockRule m v bad off Reg.LPM_SHADOW_CTRL i j s p = some (shadowRule lpmShadow m v s p) := rfl
theorem blockRule_EXM_SHADOW_CTRL : blockRule m v bad off Reg.EXM_SHADOW_CTRL i j s p = some (shadowRule exmShadow m v s p) := rfl
theorem blockRule_CAM_SHADOW_CTRL : blockRule m v bad off Reg.CAM_SHADOW_CTRL i j s p = some (shadowRule camShadow m v s p) := rfl
theorem blockRule_BUF_PEAK_CLR : blockRule m v bad off Reg.BUF_PEAK_CLR i j s p
    = some (if bitAt v 0 then s.fset Fld.BUF_SUMP_PEAK_SHARED_USED 0 else s, .ok) := rfl
theorem blockRule_SHP_SEL : blockRule m v bad off Reg.SHP_SEL i j s p = some (orReport s (s.hookShpSel v)) := rfl
theorem blockRule_SHP_CFG : blockRule m v bad off Reg.SHP_CFG i j s p = some (orReport s (s.hookShpCfg v)) := rfl
theorem blockRule_FAB_LINK_CTRL : blockRule m v bad off (Reg.FAB_LINK_CTRL 0) i j s p = some (s.hookFabLink i v, .ok) := rfl
theorem blockRule_GEN_DRAIN_LIMIT : blockRule m v bad off Reg.GEN_DRAIN_LIMIT i j s p = some (hookDrainLimit p, .ok) := rfl

theorem blockRule_EXM_WIN_CTRL (h : s.fbit Fld.EXM_WIN_CTRL_BUSY = false) : blockRule m v bad off Reg.EXM_WIN_CTRL i j s p
    = some (if bitAt v 0 then p.winRun m else p, .ok) := by
  have e : blockRule m v bad off Reg.EXM_WIN_CTRL i j s p
    = if Reg.EXM_WIN_CTRL ≤ Reg.EXM_WIN_CTRL ∧ Reg.EXM_WIN_CTRL ≤ Reg.EXM_WIN_TAG ∧ s.fbit Fld.EXM_WIN_CTRL_BUSY = true then some (s, .reported)
      else some (if bitAt v 0 then p.winRun m else p, .ok) := rfl
  rw [e, if_neg fun x => by rw [h] at x; exact Bool.false_ne_true x.2.2]

theorem blockRule_TIM_SYNCE_CFG : blockRule m v bad off (Reg.TIM_SYNCE_CFG 0) i j s p = some (s.hookSynce i v, .ok) := rfl
theorem blockRule_TIM_TRIG_CFG : blockRule m v bad off (Reg.TIM_TRIG_CFG 0) i j s p = some (s.hookTrig i v, .ok) := rfl
theorem blockRule_TIM_SNAP : blockRule m v bad off Reg.TIM_SNAP i j s p = some (s.hookSnap v, .ok) := rfl
theorem blockRule_TIM_CFG : blockRule m v bad off Reg.TIM_CFG i j s p = some (p.relock, .ok) := rfl
theorem blockRule_HBT_STACK_CTRL (h : bitAt v 0 = true) : blockRule m v bad off (Reg.HBT_STACK_CTRL 0) i j s p
    = some (orReport s (hookHbtTrain i s)) := by
  have e : blockRule m v bad off (Reg.HBT_STACK_CTRL 0) i j s p = if bitAt v 0 then some (orReport s (hookHbtTrain i s)) else none := rfl
  rw [e, if_pos h]
theorem blockRule_ERR_LOG_POP : blockRule m v bad off Reg.ERR_LOG_POP i j s p = some (hookErrPop v s, .ok) := rfl
theorem blockRule_ERR_SW_RAISE : blockRule m v bad off Reg.ERR_SW_RAISE i j s p = some (orReport s (hookSwRaise v s)) := rfl
theorem blockRule_ERR_VEC : blockRule m v bad off (Reg.ERR_VEC 0) i j s p = some (hookRearm i v s, .ok) := rfl
theorem blockRule_ERR_FATAL_FORCE : blockRule m v bad off Reg.ERR_FATAL_FORCE i j s p = some (hookFatalForce m v s, .ok) := rfl
theorem blockRule_PMC_RUN : blockRule m v bad off Reg.PMC_RUN i j s p
    = some (s.hookPmcRun v, if bitsAt v 0 2 = 0 ∨ bitsAt v 0 2 = 3 then .rejected else .ok) := rfl
theorem blockRule_PMC_CLR : blockRule m v bad off Reg.PMC_CLR i j s p = some (s.hookPmcClr v, .ok) := rfl
theorem blockRule_PMC_CFG : blockRule m v bad off (Reg.PMC_CFG 0 0) i j s p
    = some (match s.pmcCfgWrite i j v with | some t => (t, .ok) | none => (s.setEvent Fld.PMC_EVENT_CFG_ERR, .rejected)) := rfl
theorem blockRule_PMC_QUAL : blockRule m v bad off (Reg.PMC_QUAL 0 0) i j s p
    = some (match s.pmcQualWrite i j v with | some t => (t, .ok) | none => (s.setEvent Fld.PMC_EVENT_CFG_ERR, .rejected)) := rfl
theorem blockRule_RST_CTRL : blockRule m v bad off Reg.RST_CTRL i j s p = some (rstCtrl m v s) := rfl
theorem blockRule_RST_BLOCK : blockRule m v bad off Reg.RST_BLOCK i j s p = some (blockReset v s) := rfl
theorem blockRule_FWU_MBOX_CTRL (h : s.fbit Fld.FWU_MBOX_CTRL_BUSY = false) : blockRule m v bad off Reg.FWU_MBOX_CTRL i j s p
    = some (hookMboxGo m v bad p, .ok) := by
  have e : blockRule m v bad off Reg.FWU_MBOX_CTRL i j s p
    = if s.fbit Fld.FWU_MBOX_CTRL_BUSY then some (s, .reported) else some (hookMboxGo m v bad p, .ok) := rfl
  rw [e, h]
  rfl

end

end Sys2Proof.Machine
end
section
/-! SUPPORT. What single rules leave: line hooks, shadow walks, the shaper window, snapshots, counter entries and reset registers. -/

namespace Sys2Proof.Machine

open Sys2Proof

theorem checkedWrite_eq (t : State) (off mask v : Nat) : ∃ w, checkedWrite t off mask v = (t, w) ∧ w ≠ .reported := by
  unfold checkedWrite
  split
  · exact ⟨_, rfl, by decide⟩
  · exact ⟨_, rfl, by decide⟩

/-- A row whose rule checks its own result ends in that result, refused or not. -/
theorem rowWrite_checked {s t : State} {m off v base i j mask : Nat} {ix : List Nat} {unit : Bool} (hu : unit = true)
    (h : s.writeTakes m off v = true) (hr : rowOf off = some (base, ix))
    (hb : blockRule m (wv off v) false off base i j s (s.putPlain off (s.plainNext off v)) = some (checkedWrite t off mask (wv off v)))
    (hi : ix.headD 0 = i := by rfl) (hj : ix.getD 1 0 = j := by rfl) : rowWrite unit m off v s = .next t := by
  obtain ⟨w, he, hw⟩ := checkedWrite_eq t off mask (wv off v)
  exact rowWrite_rule hu h hr (hb.trans (congrArg some he)) hw hi hj

theorem State.fbit_eq_bitAt (s : State) {f : Fld} (h : f.w = 1) : s.fbit f = bitAt (s.reg f.reg).toNat f.lo := by
  rw [State.fbit, State.fget, bitsAt, h, bitAt, Nat.pow_one]
  rcases Nat.mod_two_eq_zero_or_one ((s.reg f.reg).toNat / 2 ^ f.lo) with e | e <;> rw [e] <;> rfl

/-- A disabled port whose layout fits starts (04 R127). -/
theorem State.hookPortCfg_enable {s : State} {p v : Nat} (he : s.portEn p = false) (hv : bitAt v 0 = true)
    (hl : s.layoutOk (p / 8) (p % 8) v = true) :
    s.hookPortCfg p v = (((s.setReg (Reg.PRT_PORT_CFG (p / 8) (p % 8)) (BitVec.ofNat 32 (Nat.land v portCfgMask + 1))).startPort p).goodChange
      p).refreshPort p := by
  have ho : bitAt (s.reg (Reg.PRT_PORT_CFG (p / 8) (p % 8))).toNat 0 = false :=
    (s.fbit_eq_bitAt (f := Fld.PRT_PORT_CFG_EN (p / 8) (p % 8)) rfl).symm.trans he
  simp only [State.hookPortCfg, ho, hv, hl, Bool.false_eq_true, if_false, Bool.not_true, if_true, Nat.zero_mul, Nat.add_zero]

theorem State.hookGrpCtrl_enable {s : State} {g v : Nat} (hv : bitAt v 0 = true) (hen : s.fbit (Fld.PRT_GRP_CTRL_EN g) = false) :
    s.hookGrpCtrl g v = (s.fset (Fld.PRT_GRP_CTRL_EN g) 1).fset (Fld.PRT_GRP_CTRL_CAL_BUSY g) 1 := by
  have hv : v % 2 = 1 := by simpa [bitAt_zero] using hv
  rw [State.hookGrpCtrl, hv, if_pos ⟨rfl, hen⟩]

theorem State.hookGrpCtrl_disable {s : State} {g v : Nat} (hv : bitAt v 0 = false) (hen : s.fbit (Fld.PRT_GRP_CTRL_EN g) = true) :
    s.hookGrpCtrl g v = ((List.range 8).map fun i => 8 * g + i).foldl (fun (t : State) p => (t.stopPort p).refreshPort p)
      ((s.fset (Fld.PRT_GRP_CTRL_EN g) 0).fset (Fld.PRT_GRP_CTRL_CAL_BUSY g) 0) := by
  have hv : v % 2 = 0 := by simpa [bitAt_zero] using hv
  rw [State.hookGrpCtrl, hv, if_neg fun x => absurd x.1 (by decide), if_pos ⟨rfl, hen⟩]

theorem State.hookPortCal_enabled {s : State} {p v : Nat} (hv : bitAt v 0 = true) (hen : s.portEn p = true) :
    p ∈ (s.hookPortCal p v).ports.portCal ∧ (s.hookPortCal p v).regs = s.regs := by
  have hv : v % 2 = 1 := by simpa [bitAt_zero] using hv
  rw [State.hookPortCal, if_pos ⟨hv, hen⟩]
  exact ⟨List.mem_append_right _ (.head _), rfl⟩

theorem State.hookTrace_armed {s : State} {v : Nat} (hv : bitAt v 0 = true) : (s.hookTrace v).fbit Fld.PAR_TRACE_CTRL_BUSY = true := by
  have hv : v % 2 = 1 := by simpa [bitAt_zero] using hv
  have hlt : putBits (Nat.land v 0x3FFC) 1 1 1 < 2 ^ 32 := putBits_lt (Nat.and_lt_two_pow _ (by decide)) (by decide)
  rw [State.hookTrace, if_pos hv, State.fbit, State.fget_setReg_same _ (show Fld.PAR_TRACE_CTRL_BUSY.reg = Reg.PAR_TRACE_CTRL from rfl) hlt, show Fld.PAR_TRACE_CTRL_BUSY.lo = 1 from rfl,
    show Fld.PAR_TRACE_CTRL_BUSY.w = 1 from rfl, bitsAt_putBits_same]
  rfl

theorem shadowRule_go {u : ShadowUnit} {m v : Nat} {s p : State} (h0 : bitAt v 0 = true) (hb : s.fbit (u.fld 3 1) = false)
    (h2 : bitAt v 2 = false) : shadowRule u m v s p = (p.shadowGo u m, .ok) := by
  simp [shadowRule, h0, hb, h2]

theorem shadowRule_stop {u : ShadowUnit} {m v : Nat} {s p : State} (h0 : bitAt v 0 = false) (h1 : bitAt v 1 = true) :
    shadowRule u m v s p = (p.shadowStop u, .ok) := by
  simp [shadowRule, h0, h1]

theorem State.shadowStop_idle (p : State) (u : ShadowUnit) : (p.shadowStop u).fbit (u.fld 3 1) = false := by
  unfold State.shadowStop
  split
  · rw [State.fbit, State.fget_fset_same _ _ _ (by simp [ShadowUnit.fld])]
    rfl
  next h => exact Bool.eq_false_iff.mpr h

/-- A register of a shadow walk, its row and its rule. -/
structure ShadowRow (u : ShadowUnit) : Prop where
  row : rowOf u.ctrl = some (u.ctrl, [])
  rule : ∀ (m v : Nat) (s p : State), blockRule m v false u.ctrl u.ctrl 0 0 s p = some (shadowRule u m v s p)
  bits : ((List.range 3).all fun i => decide (i < 32) && covered (fieldsAt u.ctrl) i) = true

theorem shadowRow_lpm : ShadowRow lpmShadow := ⟨rowOf_LPM_SHADOW_CTRL, fun _ _ _ _ => blockRule_LPM_SHADOW_CTRL, by decide +kernel⟩
theorem shadowRow_exm : ShadowRow exmShadow := ⟨rowOf_EXM_SHADOW_CTRL, fun _ _ _ _ => blockRule_EXM_SHADOW_CTRL, by decide +kernel⟩
theorem shadowRow_cam : ShadowRow camShadow := ⟨rowOf_CAM_SHADOW_CTRL, fun _ _ _ _ => blockRule_CAM_SHADOW_CTRL, by decide +kernel⟩

theorem ShadowRow.bit {u : ShadowUnit} (k : ShadowRow u) {i : Nat} (hi : i < 3) :
    (decide (i < 32) && covered (fieldsAt u.ctrl) i) = true := List.all_eq_true.mp k.bits i (List.mem_range.mpr hi)

/-- A walk that is idle starts (07 R238). -/
theorem ShadowRow.go {u : ShadowUnit} (k : ShadowRow u) {s : State} {m v : Nat} (h : s.writeTakes m u.ctrl (withBits v 0 1 1) = true)
    (hb : s.fbit (u.fld 3 1) = false) (h2 : bitAt v 2 = false) :
    rowWrite true m u.ctrl (withBits v 0 1 1) s
      = .next ((s.putPlain u.ctrl (s.plainNext u.ctrl (withBits v 0 1 1))).shadowGo u m) := by
  refine rowWrite_rule rfl h k.row ((k.rule _ _ _ _).trans (congrArg some (shadowRule_go ?_ hb ?_))) (w := .ok)
  · exact bitAt_wv_own k.row v 1 0 (by decide) (k.bit (by decide))
  · exact (bitAt_wv_other k.row v 1 2 (by decide) (k.bit (by decide))).trans h2

theorem ShadowRow.stop {u : ShadowUnit} (k : ShadowRow u) {s : State} {m v : Nat} (h : s.writeTakes m u.ctrl (withBits v 0 2 2) = true) :
    ∃ t : State, rowWrite true m u.ctrl (withBits v 0 2 2) s = .next t ∧ t.fbit (u.fld 3 1) = false := by
  refine ⟨_, rowWrite_rule rfl h k.row ((k.rule _ _ _ _).trans (congrArg some (shadowRule_stop ?_ ?_))) (w := .ok), State.shadowStop_idle _ u⟩
  · exact bitAt_wv_own k.row v 2 0 (by decide) (k.bit (by decide))
  · exact bitAt_wv_own k.row v 2 1 (by decide) (k.bit (by decide))

/-- The exact-match window runs the operation written (08 R259). -/
theorem exmWin_run {s : State} {m v op : Nat} (h : s.writeTakes m Reg.EXM_WIN_CTRL (withBits (withBits v 0 1 1) 2 3 op) = true)
    (hb : s.fbit Fld.EXM_WIN_CTRL_BUSY = false) :
    rowWrite true m Reg.EXM_WIN_CTRL (withBits (withBits v 0 1 1) 2 3 op) s
      = .next ((s.putPlain Reg.EXM_WIN_CTRL (s.plainNext Reg.EXM_WIN_CTRL (withBits (withBits v 0 1 1) 2 3 op))).winRun m) := by
  have hv : bitAt (wv Reg.EXM_WIN_CTRL (withBits (withBits v 0 1 1) 2 3 op)) 0 = true :=
    (bitAt_wv_other rowOf_EXM_WIN_CTRL _ op 0 (by decide) (by decide +kernel)).trans (bitAt_withBits_in (by decide))
  have e := blockRule_EXM_WIN_CTRL (m := m) (v := wv Reg.EXM_WIN_CTRL (withBits (withBits v 0 1 1) 2 3 op)) (bad := false)
    (off := Reg.EXM_WIN_CTRL) (i := 0) (j := 0) (p := s.putPlain Reg.EXM_WIN_CTRL (s.plainNext Reg.EXM_WIN_CTRL (withBits (withBits v 0 1 1) 2 3 op))) hb
  rw [hv, if_pos rfl] at e
  exact rowWrite_rule rfl h rowOf_EXM_WIN_CTRL e

/-- The shaper window shows the shaper that SHP_SEL names (12 R368). -/
theorem State.hookShpSel_shows {s : State} {v : Nat} (h : srefOk (bitsAt v 0 21) = true) :
    ∃ t, s.hookShpSel v = some t ∧ t.shpSel = bitsAt v 0 21 ∧ t.fget Fld.SHP_RATE_KBPS = (s.shaper (bitsAt v 0 21)).rate % 2 ^ 32 := by
  have hlt := bitsAt_lt v 0 21
  refine ⟨_, by rw [State.hookShpSel, if_neg (by simp [h])], ?_, ?_⟩
  · rw [State.shpSel, State.reg_setReg_other _ (by decide), State.reg_fset_other _ _ (by decide), State.reg_fset_other _ _ (by decide),
      State.reg_setReg_same, BitVec.toNat_ofNat, Nat.mod_mod_of_dvd _ (by decide), Nat.mod_eq_of_lt hlt]
  · rw [State.fget_setReg_other _ (by decide), State.fget_fset_other _ _ _ _ (by decide), State.fget_fset_same _ _ _ (by decide)]
    rfl

theorem State.hookShpCfg_sets {s : State} {v : Nat} (h : s.fget Fld.SHP_SEL_KIND ≠ 5) :
    ∃ t, s.hookShpCfg v = some t ∧ t.shaper s.shpSel
      = Shaper.configure s.shapeTime (bitAt v 0) (bitAt v 1) (s.fget Fld.SHP_RATE_KBPS) (s.fget Fld.SHP_BURST_BYTES) := by
  have hk : s.shpSel / 2 ^ 18 ≠ 5 := by
    have e : s.fget Fld.SHP_SEL_KIND = s.shpSel / 2 ^ 18 := by
      rw [State.fget, State.shpSel, bitsAt, show Fld.SHP_SEL_KIND.lo = 18 from rfl, show Fld.SHP_SEL_KIND.w = 3 from rfl,
        show Fld.SHP_SEL_KIND.reg = Reg.SHP_SEL from rfl]
      omega
    exact e ▸ h
  refine ⟨_, by rw [State.hookShpCfg, if_neg h], ?_⟩
  rw [State.shaper, if_neg hk, State.setReg_tm, State.setShaper, Assoc.get_put_same]

/-! ### Time, errors and counters -/

/-- The instant of one domain in the snapshot's registers. -/
theorem State.getInstant_setInstant {s : State} {ns lo hi : Fld} (hns : ns.lo + ns.w ≤ 32) (hns' : ns.w = 30) (hlo : lo.lo + lo.w ≤ 32)
    (hlo' : lo.w = 32) (hhi : hi.lo + hi.w ≤ 32) (hhi' : hi.w = 16) (h1 : ns.reg ≠ lo.reg) (h2 : ns.reg ≠ hi.reg) (h3 : lo.reg ≠ hi.reg) (n : Nat) :
    (s.setInstant ns lo hi n).getInstant ns lo hi = n % (2 ^ 48 * 1000000000) := by
  rw [State.getInstant, State.setInstant, State.fget_fset_same _ _ _ hhi, State.fget_fset_other _ _ _ _ h3, State.fget_fset_same _ _ _ hlo,
    State.fget_fset_other _ _ _ _ h2, State.fget_fset_other _ _ _ _ h1, State.fget_fset_same _ _ _ hns, hns', hlo', hhi']
  omega

theorem State.setInstant_fget_other {s : State} {ns lo hi f : Fld} (h1 : f.reg ≠ ns.reg) (h2 : f.reg ≠ lo.reg) (h3 : f.reg ≠ hi.reg) (n : Nat) :
    (s.setInstant ns lo hi n).fget f = s.fget f := by
  rw [State.setInstant, State.fget_fset_other _ _ _ _ h3, State.fget_fset_other _ _ _ _ h2, State.fget_fset_other _ _ _ _ h1]

theorem State.setInstant_timeDomain (s : State) (ns lo hi : Fld) (n d : Nat) : (s.setInstant ns lo hi n).timeDomain d = s.timeDomain d := by
  simp [State.setInstant, State.timeDomain]

/-- Both domains' counts are captured (15 R458). -/
theorem State.hookSnap_instant {s : State} {v d : Nat} (hv : bitAt v 0 = true) (hd : d < 2) :
    (s.hookSnap v).getInstant (Fld.TIM_SNAP_NS_NS d) (Fld.TIM_SNAP_SEC_LO_SEC d) (Fld.TIM_SNAP_SEC_HI_SEC d)
      = (s.timeDomain d).count % (2 ^ 48 * 1000000000) := by
  rw [State.hookSnap, if_pos hv, List.foldl_cons, List.foldl_cons, List.foldl_nil]
  obtain rfl | rfl : d = 0 ∨ d = 1 := by omega
  · have h := State.getInstant_setInstant (s := s) (ns := Fld.TIM_SNAP_NS_NS 0) (lo := Fld.TIM_SNAP_SEC_LO_SEC 0) (hi := Fld.TIM_SNAP_SEC_HI_SEC 0)
      (by decide) rfl (by decide) rfl (by decide) rfl (by decide) (by decide) (by decide) (s.timeDomain 0).count
    rw [State.getInstant] at h ⊢
    rwa [State.setInstant_fget_other (f := Fld.TIM_SNAP_NS_NS 0) (by decide) (by decide) (by decide),
      State.setInstant_fget_other (f := Fld.TIM_SNAP_SEC_LO_SEC 0) (by decide) (by decide) (by decide),
      State.setInstant_fget_other (f := Fld.TIM_SNAP_SEC_HI_SEC 0) (by decide) (by decide) (by decide)]
  · rw [State.getInstant_setInstant (by decide) rfl (by decide) rfl (by decide) rfl (by decide) (by decide) (by decide), State.setInstant_timeDomain]

theorem State.hookPmcRun_run {s : State} {v op : Nat} (ho : bitsAt v 0 2 = op) (h : op = 1 ∨ op = 2) :
    (s.hookPmcRun v).pmcs.run = some ⟨op, bitsAt v 2 2, ceilDiv (s.nowNs + 1000) 1000 * 1000⟩ := by
  rw [State.hookPmcRun, ho, if_neg (by omega), State.fset_pmcs]

theorem State.pmcCfgWrite_bits {s : State} {b n v : Nat}
    (h : pmcCfgOk b (bitsAt v 0 12) (bitsAt v 12 10) (bitAt v 22) (s.fget (Fld.PMC_QUAL_QUAL b n)) = true) (hv : v < 2 ^ 32) :
    ∃ t, s.pmcCfgWrite b n v = some t ∧ bitsAt (t.reg (Reg.PMC_CFG b n)).toNat 0 23 = bitsAt v 0 23 := by
  refine ⟨_, by rw [State.pmcCfgWrite, if_pos h], ?_⟩
  rw [State.reg_setReg_same, BitVec.toNat_ofNat, Nat.mod_eq_of_lt (putBits_lt (putBits_lt hv (by decide)) (by decide)),
    bitsAt_putBits_below (by decide), bitsAt_putBits_below (by decide)]

theorem wv_lt (off v : Nat) : wv off v < 2 ^ 32 := by
  have h : ∀ (fs : List RegField) (x : Nat), fieldsApart fs = true → x < 2 ^ 32 →
      fs.foldl (fun x f => if f.acc.writable then putBits x f.lo f.w (bitsAt (v % 2 ^ 32) f.lo f.w) else x) x < 2 ^ 32 := fun fs => by
    induction fs with
    | nil => exact fun x _ hx => hx
    | cons f fs ih =>
      intro x ha hx
      simp only [fieldsApart, Bool.and_eq_true, decide_eq_true_eq] at ha
      refine ih _ ha.2 ?_
      dsimp only
      split
      · exact putBits_lt hx ha.1.1
      · exact hx
  exact h (fieldsAt off) 0 (fieldsAt_apart off) (by decide)

theorem State.pmcQualWrite_field {s : State} {b n v : Nat}
    (h : pmcCfgOk b (bitsAt (s.reg (Reg.PMC_CFG b n)).toNat 0 12) (bitsAt (s.reg (Reg.PMC_CFG b n)).toNat 12 10)
      (bitAt (s.reg (Reg.PMC_CFG b n)).toNat 22) (bitsAt v 0 8) = true) :
    ∃ t, s.pmcQualWrite b n v = some t ∧ t.fget (Fld.PMC_QUAL_QUAL b n) = bitsAt v 0 8 := by
  refine ⟨_, by rw [State.pmcQualWrite, if_pos h], ?_⟩
  rw [State.fget_fset_same _ _ _ (by decide : 0 + 8 ≤ 32), bitsAt, Nat.pow_zero, Nat.div_one]
  rfl

/-! ### Reset registers (21 R587-R594) -/

section
variable {m v : Nat} {s : State}

theorem rstCtrl_device (h : bitAt v 0 = true) : rstCtrl m v s = (s.askDeviceReset 2 m, .ok) := by
  simp [rstCtrl, h]

theorem rstCtrl_dieFe (h0 : bitAt v 0 = false) (h1 : bitAt v 1 = true) (h2 : bitAt v 2 = false) (h3 : bitAt v 3 = false)
    (hr : s.fbit Fld.RST_STATUS_READY = true) (hb : s.fbit Fld.RST_STATUS_DIE_FE_BUSY = false) : rstCtrl m v s = (s.dieReset 0, .ok) := by
  simp only [rstCtrl, h0, h1, h2, h3, hr, hb, Bool.false_eq_true, if_false, Bool.not_true, Bool.not_false, if_true, Bool.or_self]

theorem rstCtrl_dieTm (h0 : bitAt v 0 = false) (h1 : bitAt v 1 = false) (h2 : bitAt v 2 = true) (h3 : bitAt v 3 = false)
    (hr : s.fbit Fld.RST_STATUS_READY = true) (hb : s.fbit Fld.RST_STATUS_DIE_TM_BUSY = false) : rstCtrl m v s = (s.dieReset 1, .ok) := by
  simp only [rstCtrl, h0, h1, h2, h3, hr, hb, Bool.false_eq_true, if_false, Bool.not_true, Bool.not_false, if_true, Bool.or_self]

theorem rstCtrl_release (h0 : bitAt v 0 = false) (h1 : bitAt v 1 = false) (h2 : bitAt v 2 = false) (h3 : bitAt v 3 = true)
    (hr : s.release.2 = .ok) : rstCtrl m v s = (s.release.1, .ok) := by
  simp only [rstCtrl, h0, h1, h2, h3, Bool.false_eq_true, if_false, Bool.not_false, if_true]
  rw [hr]
  rfl

/-- The bits that RST_BLOCK's rule gets where its row asks for one block alone. -/
theorem bitAt_rstBlock {k i : Nat} (hz : bitsAt (withBits v k 1 0) 0 28 = 0) (hi : i < 28) :
    bitAt (wv Reg.RST_BLOCK (withBits v k 1 1)) i = decide (i = k) := by
  have hc : (decide (i < 32) && covered (fieldsAt Reg.RST_BLOCK) i) = true := by
    have : ∀ i < 28, (decide (i < 32) && covered (fieldsAt Reg.RST_BLOCK) i) = true := by decide +kernel
    exact this i hi
  by_cases h : i = k
  · rw [bitAt_wv_own rowOf_RST_BLOCK v 1 i (by omega) hc, h, Nat.sub_self]
    simp [bitAt]
  · rw [bitAt_wv_other rowOf_RST_BLOCK v 1 i (by omega) hc, decide_eq_false h, ← bitAt_withBits_out (x := 0) (w := 1) (lo := k) (by omega)]
    exact bitAt_of_bitsAt_zero hz ⟨Nat.zero_le i, by omega⟩

theorem blockReset_others {k : Nat} (hk : k = 3 ∨ k = 6 ∨ k = 12) (hv : ∀ i < 28, bitAt v i = decide (i = k)) :
    putBits (putBits (putBits (bitsAt v 0 28) 3 1 0) 6 1 0) 12 1 0 = 0 := by
  refine Nat.eq_of_testBit_eq fun i => ?_
  simp only [testBit_putBits, testBit_bitsAt, Nat.zero_testBit, Nat.zero_add]
  by_cases hi : i < 28
  · rw [← bitAt_eq_testBit v i, hv i hi]
    grind
  · simp [hi]

end

/-- A row of the command table with the outcome of an image that fails, or does not (20 R582). -/
theorem State.regWrite_takes {s : State} {m off v base : Nat} {ix : List Nat} {bad : Bool} (h : s.writeTakes m off v = true)
    (hr : rowOf off = some (base, ix)) {t : State}
    (hb : blockRule m (wv off v) bad off base (ix.headD 0) (ix.getD 1 0) s (s.putPlain off (s.plainNext off v)) = some (t, .ok)) :
    s.regWrite m off 4 v bad = t := by
  obtain ⟨⟨r, ix'⟩, hreg, he⟩ := Option.map_eq_some_iff.mp hr
  obtain ⟨rfl, rfl⟩ := Prod.mk.inj he
  have hf : fieldsAt off = r.fields := by simp [fieldsAt, hreg]
  simp only [State.writeTakes, State.writeReaches, Bool.and_eq_true, Bool.or_eq_true, Bool.not_eq_true', bne_iff_ne, beq_iff_eq, hf] at h
  obtain ⟨⟨⟨⟨⟨⟨⟨⟨⟨hoff, hfatal⟩, hwin⟩, halign⟩, -⟩, hserved⟩, hmay⟩, hon⟩, hany⟩, hlocks⟩ := h
  have hv0 : fieldBits Acc.writable r.fields (v % 2 ^ 32) = wv off v := by rw [wv, hf]
  have hv1 : (if s.fbit Fld.RST_STATUS_READY = true then keepFields Acc.locks r.fields (s.reg off).toNat (wv off v) else wv off v) = wv off v := by
    split
    next hready => exact hlocks.resolve_left (by simp [hready])
    · rfl
  have hp : plainValue r.fields (s.reg off).toNat (wv off v) = s.plainNext off v := by rw [State.plainNext, hf]
  have happly : s.applyWrite m off (v % 2 ^ 32) bad r (ix'.headD 0) (ix'.getD 1 0) = (t, .applied) := by
    rw [State.applyWrite]
    simp only [hv0, hv1, hp, hany, hb, Bool.not_true, Bool.false_eq_true, if_false, ne_eq, not_true_eq_false]
  rw [State.regWrite_four hoff halign, State.writeReg_at hfatal hwin hreg, if_neg (by simp [hserved]), if_neg (by simp [hmay]),
    if_neg (by simp [hon]), happly]

end Sys2Proof.Machine
end
section
/-! CERTIFICATES. Line, table, system and reset rows. -/

namespace Sys2Proof.Machine

open Sys2Proof

theorem portOfGroup (p : Nat) : 8 * (p / 8) + p % 8 = p := Nat.div_add_mod p 8

/-- Settles O18: each row runs its hook on the bits written. -/
theorem lineRegisterRowsTakeEffect : Obligations.LineRegisterRowsTakeEffect := by
  unfold Obligations.LineRegisterRowsTakeEffect
  intro s m v
  have hport : ∀ p < 128, p / 8 < 16 ∧ p % 8 < 8 := fun p hp => ⟨by omega, by omega⟩
  have hcfg : ∀ p < 128, rowOf (Reg.PRT_PORT_CFG (p / 8) (p % 8)) = some (Reg.PRT_PORT_CFG 0 0, [p / 8, p % 8]) :=
    fun p hp => rowOf_PRT_PORT_CFG (hport p hp).1 (hport p hp).2
  have hcfgRule : ∀ p x, s.writeTakes m (Reg.PRT_PORT_CFG (p / 8) (p % 8)) (withBits v 0 1 x) = true → (hp : p < 128) →
      rowWrite (decide (p < 128)) m (Reg.PRT_PORT_CFG (p / 8) (p % 8)) (withBits v 0 1 x) s
        = .next (s.hookPortCfg p (wv (Reg.PRT_PORT_CFG (p / 8) (p % 8)) (withBits v 0 1 x))) := fun p x ht hp => by
    have hb := rowWrite_checked (decide_eq_true hp) ht (hcfg p hp) (blockRule_PRT_PORT_CFG (i := p / 8) (j := p % 8))
    rwa [portOfGroup] at hb
  refine ⟨fun p hp ht he hl => ?_, fun p hp ht he => hcfgRule p 0 ht hp, fun g hg ht hd hen => ?_, fun g hg ht hen => ?_, fun p hp ht he => ?_,
    fun f hf ht => ?_, fun c hc ht => ?_, fun c hc ht => ?_, fun ht => ?_⟩
  · refine (hcfgRule p 1 ht hp).trans ?_
    rw [State.hookPortCfg_enable he (bitAt_wv_go (hcfg p hp) v (by decide +kernel)) hl,
      land_wv (hcfg p hp) _ _ (by decide) (by decide +kernel), land_withBits _ _ _ _ _ (by decide)]
  · have hrow := rowOf_PRT_GRP_CTRL hg
    have hv := bitAt_wv_go hrow v (by decide +kernel)
    refine rowWrite_rule (decide_eq_true hg) ht hrow ((blockRule_PRT_GRP_CTRL (i := g)).trans ?_) (w := .ok)
    rw [hd, Bool.not_true, Bool.and_false, if_neg Bool.false_ne_true, State.hookGrpCtrl_enable hv hen]
  · have hrow := rowOf_PRT_GRP_CTRL hg
    have hv : bitAt (wv (Reg.PRT_GRP_CTRL g) (withBits v 0 1 0)) 0 = false := bitAt_wv_own hrow v 0 0 (by decide) (by decide +kernel)
    refine rowWrite_rule (decide_eq_true hg) ht hrow ((blockRule_PRT_GRP_CTRL (i := g)).trans ?_) (w := .ok)
    rw [hv, Bool.false_and, if_neg Bool.false_ne_true, State.hookGrpCtrl_disable hv hen]
  · have hrow := rowOf_PRT_PORT_CAL (hport p hp).1 (hport p hp).2
    have hv := bitAt_wv_go hrow v (by decide +kernel)
    have hb := blockRule_PRT_PORT_CAL (m := m) (v := wv (Reg.PRT_PORT_CAL (p / 8) (p % 8)) (withBits v 0 1 1)) (bad := false)
      (off := Reg.PRT_PORT_CAL (p / 8) (p % 8)) (i := p / 8) (j := p % 8) (s := s)
      (p := s.putPlain (Reg.PRT_PORT_CAL (p / 8) (p % 8)) (s.plainNext (Reg.PRT_PORT_CAL (p / 8) (p % 8)) (withBits v 0 1 1)))
    rw [portOfGroup] at hb
    exact ⟨_, rowWrite_rule (decide_eq_true hp) ht hrow hb, State.hookPortCal_enabled hv he⟩
  · exact rowWrite_checked (decide_eq_true hf) ht (rowOf_FXE_GRP_CFG hf) (blockRule_FXE_GRP_CFG (i := f))
  · exact rowWrite_checked (decide_eq_true hc) ht (rowOf_FXE_CLIENT_CFG hc) (blockRule_FXE_CLIENT_CFG (i := c))
  · exact rowWrite_checked (decide_eq_true hc) ht (rowOf_FXE_CLIENT_PROT hc) (blockRule_FXE_CLIENT_PROT (i := c))
  · exact ⟨_, rowWrite_rule rfl ht rowOf_PAR_TRACE_CTRL blockRule_PAR_TRACE_CTRL,
      State.hookTrace_armed (bitAt_wv_go rowOf_PAR_TRACE_CTRL v (by decide +kernel))⟩

/-- Settles O19: shadow walks and the window by their own rules, the others by one branch each. -/
theorem tableRegisterRowsTakeEffect : Obligations.TableRegisterRowsTakeEffect := by
  unfold Obligations.TableRegisterRowsTakeEffect
  intro s m v
  refine ⟨fun x hx ht hb h2 => ?_, fun x hx ht _ => ?_, fun x hx => ?_, fun ht => ?_, fun ht ho => ?_, fun ht hk => ?_,
    fun l hl ht => ?_, fun ht => ?_⟩
  · simp only [List.mem_cons, List.not_mem_nil, or_false] at hx
    obtain rfl | rfl | rfl := hx
    · exact shadowRow_lpm.go ht hb h2
    · exact shadowRow_exm.go ht hb h2
    · exact shadowRow_cam.go ht hb h2
  · simp only [List.mem_cons, List.not_mem_nil, or_false] at hx
    obtain rfl | rfl | rfl := hx
    · exact shadowRow_lpm.stop ht
    · exact shadowRow_exm.stop ht
    · exact shadowRow_cam.stop ht
  · intro w ht hb
    have e : exec x.2 s = rowWrite true m Reg.EXM_WIN_CTRL w s := by
      simp only [List.mem_cons, List.not_mem_nil, or_false] at hx
      obtain rfl | rfl | rfl | rfl | rfl | rfl | rfl := hx <;> rfl
    rw [e]
    exact exmWin_run ht hb
  · have hv := bitAt_wv_go rowOf_BUF_PEAK_CLR v (by decide +kernel)
    refine rowWrite_rule rfl ht rowOf_BUF_PEAK_CLR (blockRule_BUF_PEAK_CLR.trans ?_) (w := .ok)
    rw [if_pos hv]
  · have hv := bitsAt_wv rowOf_SHP_SEL v 0 21 (by decide +kernel)
    obtain ⟨t, hb, h⟩ := State.hookShpSel_shows (s := s) (v := wv Reg.SHP_SEL v) (hv ▸ ho)
    rw [hv] at h
    exact ⟨t, rowWrite_rule rfl ht rowOf_SHP_SEL (blockRule_SHP_SEL.trans (by rw [hb]; rfl)) (w := .ok), h⟩
  · obtain ⟨t, hb, h⟩ := State.hookShpCfg_sets (v := wv Reg.SHP_CFG v) hk
    rw [bitAt_wv rowOf_SHP_CFG v 0 (by decide +kernel), bitAt_wv rowOf_SHP_CFG v 1 (by decide +kernel)] at h
    exact ⟨t, rowWrite_rule rfl ht rowOf_SHP_CFG (blockRule_SHP_CFG.trans (by rw [hb]; rfl)) (w := .ok), h⟩
  · exact rowWrite_rule (decide_eq_true hl) ht (rowOf_FAB_LINK_CTRL hl) (blockRule_FAB_LINK_CTRL (i := l))
  · exact rowWrite_rule rfl ht rowOf_GEN_DRAIN_LIMIT blockRule_GEN_DRAIN_LIMIT

/-- Settles O20: each row runs its hook on the bits written. -/
theorem systemRegisterRowsTakeEffect : Obligations.SystemRegisterRowsTakeEffect := by
  unfold Obligations.SystemRegisterRowsTakeEffect
  intro s m v
  refine ⟨fun n hn ht => ?_, fun n hn ht => ?_, fun ht => ?_, fun k hk ht hd hst => ?_, fun ht => ?_, fun ht hr => ?_, fun n hn ht => ?_,
    fun ht => ?_, fun ht => ?_, fun ht => ?_, fun ht => ?_, fun b hb n hn ht hok => ?_, fun b hb n hn ht hok => ?_⟩
  · exact rowWrite_rule (decide_eq_true hn) ht (rowOf_TIM_SYNCE_CFG hn) (blockRule_TIM_SYNCE_CFG (i := n))
  · exact rowWrite_rule (decide_eq_true hn) ht (rowOf_TIM_TRIG_CFG hn) (blockRule_TIM_TRIG_CFG (i := n))
  · exact ⟨_, rowWrite_rule rfl ht rowOf_TIM_SNAP blockRule_TIM_SNAP,
      fun d hd => State.hookSnap_instant (bitAt_wv_go rowOf_TIM_SNAP v (by decide +kernel)) hd⟩
  · have hrow := rowOf_HBT_STACK_CTRL hk
    have hv : bitAt (wv (Reg.HBT_STACK_CTRL k) (withBits v 0 1 1)) 0 = true := bitAt_wv_go hrow v (by decide +kernel)
    refine rowWrite_rule (decide_eq_true hk) ht hrow ((blockRule_HBT_STACK_CTRL (i := k) hv).trans ?_) (w := .ok)
    have hcond : ((s.stackState 1 k == 3 || s.stackState 1 k == 4) && s.domOn (31 + k)) = true := by
      rcases hst with h | h <;> simp [h, hd]
    rw [hookHbtTrain, if_pos hcond]
    rfl
  · have hv := bitAt_wv_go rowOf_ERR_LOG_POP v (by decide +kernel)
    refine rowWrite_rule rfl ht rowOf_ERR_LOG_POP (blockRule_ERR_LOG_POP.trans ?_) (w := .ok)
    rw [hookErrPop, if_pos hv, State.popLog, List.drop_one]
  · have hv := bitsAt_wv rowOf_ERR_SW_RAISE v 0 9 (by decide +kernel)
    refine rowWrite_rule rfl ht rowOf_ERR_SW_RAISE (blockRule_ERR_SW_RAISE.trans ?_) (w := .ok)
    rw [hookSwRaise, hv, if_neg (by omega)]
    rfl
  · have hv := bitAt_wv_go (rowOf_ERR_VEC hn) v (by decide +kernel)
    refine rowWrite_rule (decide_eq_true hn) ht (rowOf_ERR_VEC hn) ((blockRule_ERR_VEC (i := n)).trans ?_) (w := .ok)
    rw [hookRearm, hv]
    rfl
  · have hv := bitAt_wv_go rowOf_ERR_FATAL_FORCE v (by decide +kernel)
    refine rowWrite_rule rfl ht rowOf_ERR_FATAL_FORCE (blockRule_ERR_FATAL_FORCE.trans ?_) (w := .ok)
    rw [hookFatalForce, if_pos hv]
  · have ho := bitsAt_wv_own (lo := 0) (w := 2) rowOf_PMC_RUN v 1 (by decide +kernel)
    have hd := bitsAt_wv_other (lo := 0) (w := 2) (lo' := 2) (w' := 2) rowOf_PMC_RUN v 1 (by decide) (by decide +kernel)
    refine ⟨_, rowWrite_rule rfl ht rowOf_PMC_RUN (blockRule_PMC_RUN.trans ?_) (w := .ok), hd ▸ State.hookPmcRun_run ho (.inl rfl)⟩
    rw [ho]
    rfl
  · have ho := bitsAt_wv_own (lo := 0) (w := 2) rowOf_PMC_RUN v 2 (by decide +kernel)
    have hd := bitsAt_wv_other (lo := 0) (w := 2) (lo' := 2) (w' := 2) rowOf_PMC_RUN v 2 (by decide) (by decide +kernel)
    refine ⟨_, rowWrite_rule rfl ht rowOf_PMC_RUN (blockRule_PMC_RUN.trans ?_) (w := .ok), hd ▸ State.hookPmcRun_run ho (.inr rfl)⟩
    rw [ho]
    rfl
  · refine rowWrite_rule rfl ht rowOf_PMC_CLR (blockRule_PMC_CLR.trans ?_) (w := .ok)
    rw [State.hookPmcClr, bitAt_wv rowOf_PMC_CLR v 12 (by decide +kernel), bitsAt_wv rowOf_PMC_CLR v 11 1 (by decide +kernel),
      bitsAt_wv rowOf_PMC_CLR v 0 11 (by decide +kernel)]
  · have hrow := rowOf_PMC_CFG hb hn
    have hok' := hok
    rw [← bitsAt_wv hrow v 0 12 (by decide +kernel), ← bitsAt_wv hrow v 12 10 (by decide +kernel), ← bitAt_wv hrow v 22 (by decide +kernel)] at hok'
    obtain ⟨t, ht', h⟩ := State.pmcCfgWrite_bits hok' (wv_lt _ _)
    have hrun : rowWrite (decide (b < 2 ∧ n < 2048)) m (Reg.PMC_CFG b n) v s = .next t := by
      refine rowWrite_rule (decide_eq_true ⟨hb, hn⟩) ht hrow ((blockRule_PMC_CFG (i := b) (j := n)).trans ?_) (w := .ok)
      rw [ht']
    exact ⟨t, hrun, h.trans (bitsAt_wv hrow v 0 23 (by decide +kernel))⟩
  · have hrow := rowOf_PMC_QUAL hb hn
    have hq := bitsAt_wv hrow v 0 8 (by decide +kernel)
    obtain ⟨t, ht', h⟩ := State.pmcQualWrite_field (hq.symm ▸ hok)
    have hrun : rowWrite (decide (b < 2 ∧ n < 2048)) m (Reg.PMC_QUAL b n) v s = .next t := by
      refine rowWrite_rule (decide_eq_true ⟨hb, hn⟩) ht hrow ((blockRule_PMC_QUAL (i := b) (j := n)).trans ?_) (w := .ok)
      rw [ht']
    exact ⟨t, hrun, h.trans hq⟩

/-- Settles O21: RST_CTRL, RST_BLOCK, TIM_CFG and the mailbox by their own rules, on the one bit that the row sets. -/
theorem resetRowsTakeEffect : Obligations.ResetRowsTakeEffect := by
  unfold Obligations.ResetRowsTakeEffect
  intro s m v
  have own : ∀ k, k < 4 → bitAt (wv Reg.RST_CTRL (withBits v k 1 1)) k = true := fun k hk => by
    have hc : ∀ k < 4, (decide (k < 32) && covered (fieldsAt Reg.RST_CTRL) k) = true := by decide +kernel
    rw [bitAt_wv_own rowOf_RST_CTRL v 1 k (by omega) (hc k hk), Nat.sub_self]
    rfl
  have other : ∀ k i, i < 4 → i ≠ k → bitAt v i = false → bitAt (wv Reg.RST_CTRL (withBits v k 1 1)) i = false := fun k i hi hk hz => by
    have hc : ∀ k < 4, (decide (k < 32) && covered (fieldsAt Reg.RST_CTRL) k) = true := by decide +kernel
    rw [bitAt_wv_other rowOf_RST_CTRL v 1 i (by omega) (hc i hi), hz]
  have only : ∀ {k}, bitsAt (withBits v k 1 0) 0 28 = 0 → ∀ i < 28, bitAt (wv Reg.RST_BLOCK (withBits v k 1 1)) i = decide (i = k) :=
    fun hz i hi => bitAt_rstBlock hz hi
  refine ⟨fun ht => ?_, fun ht hr hb h0 h23 => ?_, fun ht hr hb h01 h3 => ?_, fun ht hz => ?_, fun ht hz => ?_, fun ht hz hfe => ?_,
    fun ht hz hr => ?_, fun ht => ?_, fun bad ht hb => ?_⟩
  · exact rowWrite_rule rfl ht rowOf_RST_CTRL (blockRule_RST_CTRL.trans (congrArg some (rstCtrl_device (own 0 (by decide)))))
  · exact rowWrite_rule rfl ht rowOf_RST_CTRL (blockRule_RST_CTRL.trans (congrArg some (rstCtrl_dieFe (other 1 0 (by decide) (by decide) h0)
      (own 1 (by decide)) (other 1 2 (by decide) (by decide) (bitAt_of_bitsAt_zero h23 (by decide)))
      (other 1 3 (by decide) (by decide) (bitAt_of_bitsAt_zero h23 (by decide))) hr hb)))
  · exact rowWrite_rule rfl ht rowOf_RST_CTRL (blockRule_RST_CTRL.trans (congrArg some (rstCtrl_dieTm
      (other 2 0 (by decide) (by decide) (bitAt_of_bitsAt_zero h01 (by decide)))
      (other 2 1 (by decide) (by decide) (bitAt_of_bitsAt_zero h01 (by decide))) (own 2 (by decide)) (other 2 3 (by decide) (by decide) h3) hr hb)))
  · refine rowWrite_rule rfl ht rowOf_RST_BLOCK (blockRule_RST_BLOCK.trans ?_) (w := .ok)
    simp only [blockReset, only hz 3 (by decide), only hz 6 (by decide), only hz 12 (by decide), blockReset_others (.inl rfl) (only hz)]
    rfl
  · refine rowWrite_rule rfl ht rowOf_RST_BLOCK (blockRule_RST_BLOCK.trans ?_) (w := .ok)
    simp only [blockReset, only hz 3 (by decide), only hz 6 (by decide), only hz 12 (by decide), blockReset_others (.inr (.inl rfl)) (only hz)]
    rfl
  · refine rowWrite_rule rfl ht rowOf_RST_BLOCK (blockRule_RST_BLOCK.trans ?_) (w := .ok)
    simp only [blockReset, only hz 3 (by decide), only hz 6 (by decide), only hz 12 (by decide), blockReset_others (.inr (.inr rfl)) (only hz), hfe]
    rfl
  · exact rowWrite_rule rfl ht rowOf_RST_CTRL (blockRule_RST_CTRL.trans (congrArg some (rstCtrl_release
      (other 3 0 (by decide) (by decide) (bitAt_of_bitsAt_zero hz (by decide)))
      (other 3 1 (by decide) (by decide) (bitAt_of_bitsAt_zero hz (by decide)))
      (other 3 2 (by decide) (by decide) (bitAt_of_bitsAt_zero hz (by decide))) (own 3 (by decide)) hr)))
  · exact rowWrite_rule rfl ht rowOf_TIM_CFG blockRule_TIM_CFG
  · exact congrArg Host.Outcome.next (State.regWrite_takes ht rowOf_FWU_MBOX_CTRL (blockRule_FWU_MBOX_CTRL hb))

end Sys2Proof.Machine
end
section
/-! SUPPORT. What events, errors' sources and performance counters leave alone: all but registers, outputs, the error unit, the engine's
coalescing and the counters themselves. -/

namespace Sys2Proof.Machine

open Sys2Proof

/-- The state but for registers, outputs, error unit, command engine and performance counters. -/
def State.outsideCount (s : State) : State := { s.outsideReport with pmcs := ⟨[], [], none⟩ }

/-- What is read outside the counters is what it was. -/
theorem State.eq_of_outsideCount {α : Type} {s t : State} (h : t.outsideCount = s.outsideCount) (f : State → α)
    (hf : ∀ u : State, f u.outsideCount = f u) : f t = f s := by
  rw [← hf t, ← hf s, h]

theorem State.outsideCount_of_report {s t : State} (h : t.outsideReport = s.outsideReport) : t.outsideCount = s.outsideCount := by
  rw [State.outsideCount, State.outsideCount, h]

section
variable (s : State)

@[simp] theorem State.fset_outsideCount (f : Fld) (v : Nat) : (s.fset f v).outsideCount = s.outsideCount :=
  State.outsideCount_of_report (s.fset_outsideReport f v)
@[simp] theorem State.satAdd_outsideCount (f : Fld) (n : Nat) : (s.satAdd f n).outsideCount = s.outsideCount :=
  State.outsideCount_of_report (s.satAdd_outsideReport f n)
@[simp] theorem State.emit_outsideCount (o : Out) : (s.emit o).outsideCount = s.outsideCount := rfl
@[simp] theorem State.sendMessage_outsideCount (v : Nat) : (s.sendMessage v).outsideCount = s.outsideCount :=
  State.outsideCount_of_report (s.sendMessage_outsideReport v)
@[simp] theorem State.pulse_outsideCount (n : Nat) : (s.pulse n).outsideCount = s.outsideCount :=
  State.outsideCount_of_report (s.pulse_outsideReport n)

theorem State.foldl_outsideCount {α : Type} {f : State → α → State} (hf : ∀ t x, (f t x).outsideCount = t.outsideCount) (l : List α) :
    (l.foldl f s).outsideCount = s.outsideCount :=
  List.foldlRecOn (motive := fun t : State => t.outsideCount = s.outsideCount) l f rfl fun t ht x _ => (hf t x).trans ht

theorem State.withSource_outsideCount {f : State → State} (hf : ∀ t, (f t).outsideCount = t.outsideCount) (n : Nat) :
    (s.withSource n f).outsideCount = s.outsideCount := by
  obtain h | ⟨v, -, h⟩ := s.withSource_cases n f
  · rw [h, hf]
  · rw [h, State.sendMessage_outsideCount, hf]

@[simp] theorem State.setEventBits_outsideCount (f : Fld) (v : Nat) : (s.setEventBits f v).outsideCount = s.outsideCount := by
  unfold State.setEventBits
  dsimp only
  split
  · split
    · refine s.foldl_outsideCount (fun t i => ?_) _
      split
      · exact t.withSource_outsideCount (fun u => u.fset_outsideCount _ _) _
      · rfl
    · exact s.withSource_outsideCount (fun t => t.fset_outsideCount _ _) _
  · exact s.fset_outsideCount _ _

@[simp] theorem State.setEvent_outsideCount (f : Fld) : (s.setEvent f).outsideCount = s.outsideCount := s.setEventBits_outsideCount f 1

theorem State.withPmcs_outsideCount (p : PmcState) : ({ s with pmcs := p } : State).outsideCount = s.outsideCount := rfl

@[simp] theorem State.pmcWrapped_outsideCount (b n : Nat) : (s.pmcWrapped b n).outsideCount = s.outsideCount := by
  unfold State.pmcWrapped
  dsimp only
  split
  · rw [State.setEvent_outsideCount, State.fset_outsideCount]
  · exact s.fset_outsideCount _ _

@[simp] theorem State.pmcAdd_outsideCount (b n k : Nat) : (s.pmcAdd b n k).outsideCount = s.outsideCount := by
  unfold State.pmcAdd
  dsimp only
  split
  · exact s.withPmcs_outsideCount _
  · split
    · split
      · exact (State.withPmcs_outsideCount _ _).trans (s.withPmcs_outsideCount _)
      · rw [State.pmcWrapped_outsideCount]
        exact (State.withPmcs_outsideCount _ _).trans (s.withPmcs_outsideCount _)
    · rw [State.pmcWrapped_outsideCount, State.withPmcs_outsideCount]

@[simp] theorem State.pmc_outsideCount (ev inst qual k : Nat) : (s.pmc ev inst qual k).outsideCount = s.outsideCount := by
  unfold State.pmc
  dsimp only
  split
  · rfl
  · refine s.foldl_outsideCount (fun t n => ?_) _
    split
    · exact t.pmcAdd_outsideCount _ _ _
    · rfl

end

section
variable (s : State) (f : Fld) (ev inst qual k : Nat)

@[simp] theorem State.setEvent_tm : (s.setEvent f).tm = s.tm := State.eq_of_outsideCount (s.setEvent_outsideCount f) State.tm fun _ => rfl
@[simp] theorem State.setEvent_tab : (s.setEvent f).tab = s.tab := State.eq_of_outsideCount (s.setEvent_outsideCount f) State.tab fun _ => rfl
@[simp] theorem State.setEvent_host : (s.setEvent f).host = s.host := State.eq_of_outsideCount (s.setEvent_outsideCount f) State.host fun _ => rfl
@[simp] theorem State.setEvent_dma : (s.setEvent f).dma = s.dma := State.eq_of_outsideCount (s.setEvent_outsideCount f) State.dma fun _ => rfl
@[simp] theorem State.setEvent_chain : (s.setEvent f).chain = s.chain := State.eq_of_outsideCount (s.setEvent_outsideCount f) State.chain fun _ => rfl
@[simp] theorem State.setEvent_tim : (s.setEvent f).tim = s.tim := State.eq_of_outsideCount (s.setEvent_outsideCount f) State.tim fun _ => rfl
@[simp] theorem State.setEvent_pwr : (s.setEvent f).pwr = s.pwr := State.eq_of_outsideCount (s.setEvent_outsideCount f) State.pwr fun _ => rfl
@[simp] theorem State.setEvent_rst : (s.setEvent f).rst = s.rst := State.eq_of_outsideCount (s.setEvent_outsideCount f) State.rst fun _ => rfl
@[simp] theorem State.setEvent_hbm : (s.setEvent f).hbm = s.hbm := State.eq_of_outsideCount (s.setEvent_outsideCount f) State.hbm fun _ => rfl
@[simp] theorem State.setEvent_fwu : (s.setEvent f).fwu = s.fwu := State.eq_of_outsideCount (s.setEvent_outsideCount f) State.fwu fun _ => rfl
@[simp] theorem State.setEvent_gen : (s.setEvent f).gen = s.gen := State.eq_of_outsideCount (s.setEvent_outsideCount f) State.gen fun _ => rfl
@[simp] theorem State.setEvent_par : (s.setEvent f).par = s.par := State.eq_of_outsideCount (s.setEvent_outsideCount f) State.par fun _ => rfl
@[simp] theorem State.setEvent_portsState : (s.setEvent f).ports = s.ports := State.eq_of_outsideCount (s.setEvent_outsideCount f) State.ports fun _ => rfl
@[simp] theorem State.pmc_tm : (s.pmc ev inst qual k).tm = s.tm := State.eq_of_outsideCount (s.pmc_outsideCount ev inst qual k) State.tm fun _ => rfl
@[simp] theorem State.pmc_tab : (s.pmc ev inst qual k).tab = s.tab := State.eq_of_outsideCount (s.pmc_outsideCount ev inst qual k) State.tab fun _ => rfl
@[simp] theorem State.pmc_hbm : (s.pmc ev inst qual k).hbm = s.hbm := State.eq_of_outsideCount (s.pmc_outsideCount ev inst qual k) State.hbm fun _ => rfl
@[simp] theorem State.pmc_ports : (s.pmc ev inst qual k).ports = s.ports := State.eq_of_outsideCount (s.pmc_outsideCount ev inst qual k) State.ports fun _ => rfl
@[simp] theorem State.pmc_host : (s.pmc ev inst qual k).host = s.host := State.eq_of_outsideCount (s.pmc_outsideCount ev inst qual k) State.host fun _ => rfl

end

/-! ### Registers that neither the vectors nor the counters hold -/

/-- Registers outside ERR and PMC. -/
def plainReg (off : Nat) : Prop := off < Reg.ERR_VEC 0 ∨ 0x700000 ≤ off

theorem plainReg_ne_vector {off : Nat} (h : plainReg off) {v : Nat} (hv : v < 512) : off ≠ Reg.ERR_VEC v := by
  simp only [plainReg, Reg.ERR_VEC] at h ⊢
  omega

section
variable {s : State} {off : Nat} (h : plainReg off)
include h

theorem State.sendMessage_reg_plain {v : Nat} (hv : v < 512) : (s.sendMessage v).reg off = s.reg off :=
  s.sendMessage_reg (plainReg_ne_vector h hv)

theorem State.pulse_reg_plain (n : Nat) : (s.pulse n).reg off = s.reg off := by
  obtain e | ⟨v, hv, e⟩ := s.pulse_cases n
  · rw [e]
  · rw [e, State.sendMessage_reg_plain h hv]

theorem State.withSource_reg_plain (n : Nat) (f : State → State) : (s.withSource n f).reg off = (f s).reg off := by
  obtain e | ⟨v, hv, e⟩ := s.withSource_cases n f
  · rw [e]
  · rw [e, State.sendMessage_reg_plain h hv]

theorem State.setEventBits_reg_plain {f : Fld} (hf : off ≠ f.reg) (v : Nat) : (s.setEventBits f v).reg off = s.reg off := by
  unfold State.setEventBits
  dsimp only
  split
  · split
    · refine State.foldl_reg fun t i _ => ?_
      split
      · rw [State.withSource_reg_plain h, State.reg_fset_other _ _ hf]
      · rfl
    · rw [State.withSource_reg_plain h, State.reg_fset_other _ _ hf]
  · exact State.reg_fset_other _ _ hf _

theorem State.setEvent_reg_plain {f : Fld} (hf : off ≠ f.reg) : (s.setEvent f).reg off = s.reg off := State.setEventBits_reg_plain h hf 1

end

end Sys2Proof.Machine
end
section
/-! CERTIFICATES. Events of the buffer, the fabric's credit loop, the switch and scheduler, and the ingress slice. -/

namespace Sys2Proof.Machine

open Sys2Proof

/-- A mask made of at least one bit is not 0. -/
theorem foldl_pow_pos {l : List Nat} (h : l ≠ []) : l.foldl (fun n k => n + 2 ^ k) 0 ≠ 0 := by
  have grow : ∀ (l : List Nat) (n : Nat), n ≤ l.foldl (fun n k => n + 2 ^ k) n := fun l => by
    induction l with
    | nil => exact fun n => Nat.le_refl n
    | cons k l ih => exact fun n => (Nat.le_add_right _ _).trans (ih _)
  cases l with
  | nil => exact absurd rfl h
  | cons k l =>
    have := grow l (0 + 2 ^ k)
    have hpos := Nat.two_pow_pos k
    simp only [List.foldl_cons]
    omega

/-- Settles O35: each event's own branch. -/
theorem bufferEventsTakeEffect : Obligations.BufferEventsTakeEffect := by
  unfold Obligations.BufferEventsTakeEffect
  intro s
  refine ⟨fun port ⟨k, hk, hb, ha⟩ => ?_, fun q h rest hseg hsp hq hbytes hfree => ?_, fun q bad hq => ?_, fun lost => rfl, fun f fs hf => ?_,
    fun region => rfl, fun region hst hw => ?_, fun region hst => ?_, fun r hfree hfind => ?_, fun module failed => ?_⟩
  · let due := (List.range 8).filter fun k =>
      bitAt (s.fget (fldXoff port)) k
        && decide ((Assoc.get s.tm.pfcLimit (limitReset, limitReset - 1) (8 * port + k)).2 * 1024 ≤ s.account port k)
    have hmem : k ∈ due := List.mem_filter.mpr ⟨List.mem_range.mpr hk, by rw [hb, decide_eq_true ha]; rfl⟩
    have hne : due ≠ [] := List.ne_nil_of_mem hmem
    refine ⟨_, ?_, foldl_pow_pos hne⟩
    change execPfcRefresh port s = _
    rw [execPfcRefresh]
    exact if_neg fun x => hne (List.isEmpty_iff.mp x)
  · change ∃ t, execRefillStart q s = .next t ∧ _
    have hc : ¬ ((!(s.queue q).spilled) = true ∨ s.tm.refilling.contains q = true ∨ s.refillKb * 512 ≤ sumpBytes (s.queue q).pkts) := by
      simp [hsp, hq, hbytes]
    refine ⟨_, by simp only [execRefillStart, hseg]; rw [if_neg hc, if_neg (Nat.not_lt.mpr hfree)], ?_, ?_⟩
    · rw [State.pmc_tm]
    · rw [State.pmc_tm]
  · change execRefillReadDone q bad s = _
    rw [execRefillReadDone, if_pos (List.contains_iff_mem.mpr hq)]
  · change execFlushComplete s = _
    rw [execFlushComplete, hf]
  · change execFenceTimeout region s = _
    rw [execFenceTimeout, if_neg (by simp [hst, hw])]
  · change execRegionWakeDone region s = _
    rw [execRegionWakeDone, if_pos hst]
  · change execAutoUnfence s = _
    rw [execAutoUnfence, if_neg (Nat.not_le.mpr hfree)]
    dsimp only
    rw [hfind]
  · change execD2dFlitError module failed s = _
    rw [execD2dFlitError]
    split <;> rfl

/-! ### The switch, departure, admission and the scheduler -/

theorem stoppedForwarding_false {s : State} (h : s.stoppedForwarding = false) : s.err.fatal = .running ∧ s.off = false := by
  simpa [State.stoppedForwarding] using h

/-- Settles O42: each event's own branch. -/
theorem forwardingEventsTakeEffect : Obligations.ForwardingEventsTakeEffect := by
  unfold Obligations.ForwardingEventsTakeEffect
  intro s
  refine ⟨fun hen hrun => ?_, fun id x hx hvoq hcut => ?_, fun input ecc p rest hin hrun => ?_, fun node ue cell s1 q h rest hen hrun hel hpick hq hroom => ?_⟩
  · change execSwitchMatching s = _
    rw [execSwitchMatching, if_neg (by simp [hen, hrun])]
  · change ∃ t : State, execPacketDeparture id s = .next (t.acctChanged x) ∧ _
    refine ⟨{ s with tm := { s.tm with leaving := s.tm.leaving.filter (·.pkt.id != id)
                                       kept := if s.cellsOut id = 0 then s.tm.kept else s.tm.kept ++ [(id, x.place, s.cellsOut id)] } },
      ?_, fun y hy => ?_, rfl, rfl⟩
    · rw [execPacketDeparture, hx]
      exact if_neg (by rw [hvoq, hcut]; decide)
    · simpa using (List.mem_filter.mp hy).2
  · change execAdmission input ecc s = _
    obtain ⟨hf, ho⟩ := stoppedForwarding_false hrun
    rw [execAdmission, hin]
    simp [hf, ho, hrun]
  · change execSchedulerDecision node ue cell s = _
    have hfull : ¬ (s1.bindKind node = 1 ∧ s1.voqRoom q (s1.queueLink q node) h.pkt = false) := fun x => by
      simp [hroom x.1] at x
    rw [execSchedulerDecision, if_neg (by simp [hen, hrun, hel]), hpick]
    dsimp only
    rw [hq]
    exact if_neg hfull

/-! ### The credit loop of the fabric -/

/-- Out of order, a cell or message of a link is not taken (14 R417). -/
theorem State.acceptLink_other {s : State} {l seq : Nat} (h : (s.fabLink l).rxSeq ≠ seq) : s.acceptLink l seq = none := by
  rw [State.acceptLink, if_neg h]

/-- In order it is taken, and nothing but links, outputs and registers of the link changes. -/
theorem State.acceptLink_next {s : State} {l seq : Nat} (h : (s.fabLink l).rxSeq = seq) :
    ∃ t, s.acceptLink l seq = some t ∧ t.regs = s.regs ∧ t.tm.cflows = s.tm.cflows ∧ t.tm.queues = s.tm.queues ∧ t.tm.epochs = s.tm.epochs := by
  refine ⟨_, by rw [State.acceptLink, if_pos h], ?_⟩
  split
  · exact ⟨rfl, rfl, rfl, rfl⟩
  · exact ⟨rfl, rfl, rfl, rfl⟩

theorem State.lineNode_congr {s t : State} (h : t.regs = s.regs) (p : Nat) : t.lineNode p = s.lineNode p := by
  simp only [State.lineNode, State.bindKind, State.bindPort, State.fget_congr h]

theorem mem_putFlow (f : CFlow) (fs : List CFlow) : f ∈ putFlow f fs := List.mem_append_right _ (.head _)

/-- A new flow takes its place in the list of flows, unless the list is full (14 R425). -/
theorem execCreditStatusReceive_new {s s1 : State} {l seq src port q : Nat} (h3 : s.fabState l = 3) (hen : s.fbit Fld.FAB_CFG_EN = true)
    (hacc : s.acceptLink l seq = some s1) (hline : s1.lineNode port = none)
    (hfind : (s1.tm.cflows.find? fun f => f.src == src && f.queue == q) = none) (tc weight : Nat) :
    (131072 ≤ s1.tm.cflows.length → execCreditStatusReceive l seq src port q tc weight true s
      = .next (((s1.satAdd Fld.FAB_CFLOW_REJ_CNT_COUNT 1).setEvent Fld.FAB_EVENT_CFLOW_FULL).grantMsg src q 0 0 true)) ∧
    (s1.tm.cflows.length < 131072 → ∃ t : State, execCreditStatusReceive l seq src port q tc weight true s = .next t ∧
      ∃ e < 256, (⟨src, q, port, tc, weight, true, e, 0, 0⟩ : CFlow) ∈ t.tm.cflows) := by
  rw [execCreditStatusReceive, if_neg (by simp [h3, hen]), hacc]
  dsimp only
  rw [hline]
  dsimp only
  rw [hfind]
  dsimp only
  rw [if_neg (by decide)]
  exact ⟨fun h => if_pos h, fun h => ⟨_, if_neg (Nat.not_le.mpr h), _, Nat.mod_lt _ (by decide), mem_putFlow _ _⟩⟩

theorem State.setCredit_credit (s : State) (n : Nat) (c : CreditState) : (s.setCredit n c).credit n = c := Assoc.get_put_same _ _ _ _

theorem State.setQueue_queue (s : State) (q : Nat) (v : Queue) : (s.setQueue q v).queue q = v := Assoc.get_put_same _ _ _ _

/-- A credit is generated for the chosen flow, and its cost leaves the bucket (14 R429). -/
theorem execCreditGenerate_grants {s : State} {port n : Nat} {f : CFlow} {c : CreditState} {changed : List CFlow} (hline : s.lineNode port = some n)
    (hgo : (s.creditRefill n).creditStop n = false)
    {s2 : State} (hs2 : s2 = (s.creditRefill n).setCredit n { (s.creditRefill n).credit n with stopped := (s.creditRefill n).creditStop n })
    (hflows : s2.flowsOn port ≠ []) (htok : 0 ≤ (s2.credit n).tokens) (hen : s2.fbit Fld.FAB_CFG_EN = true)
    (hch : s2.chooseFlow n (s2.flowsOn port) (s2.credit n) = some (f, c, changed)) :
    ∃ t : State, execCreditGenerate port s = .next ((t.grantMsg f.src f.queue ((f.granted + 1) % 2 ^ 32) f.epoch false).pmc 0x832 n 0 1) ∧
      (t.credit n).tokens = c.tokens - (s2.creditBytes * 1000000000 : Nat) ∧ t.regs = s2.regs := by
  have hrun : ¬ ((s.creditRefill n).creditStop n = true ∨ s2.flowsOn port = [] ∨ (s2.credit n).tokens < 0 ∨ s2.fbit Fld.FAB_CFG_EN = false) := by
    simp [hgo, hflows, htok, hen]
  rw [execCreditGenerate, hline]
  dsimp only
  rw [← hs2, if_neg hrun, hch]
  refine ⟨_, rfl, ?_, rfl⟩
  rw [State.setCredit_credit]
  simp

/-- Settles O40: each event's own branch, with the link's acceptance said once. -/
theorem fabricFlowEventsTakeEffect : Obligations.FabricFlowEventsTakeEffect := by
  unfold Obligations.FabricFlowEventsTakeEffect
  intro s
  refine ⟨fun src express n => ?_, fun l seq src port q tc weight h3 hen => ⟨fun hseq => ?_, fun hseq hline hfind => ?_⟩, fun src q => ?_,
    fun port n f c changed hline => ?_, fun l seq q epoch granted h3 hen hseq hatt => ⟨?_, fun hepoch => ?_⟩, fun q hon hreach => ?_, fun q hrej hpkts => ?_⟩
  · intro key r hfirst hcur hwhole r'
    change execReorderTimeout src express s = _
    rw [execReorderTimeout]
    dsimp only
    rw [show firstAfter (Assoc.get s.tm.reorder reorder0 (2 * src + b2n express)).next _ = some n from hfirst,
      show (Assoc.get s.tm.reorder reorder0 (2 * src + b2n express)).current = none from hcur]
    dsimp only
    cases hc : Assoc.find (Assoc.get s.tm.reorder reorder0 (2 * src + b2n express)).waiting n with
    | none => rfl
    | some c => simp only [hwhole c hc]; rfl
  · change execCreditStatusReceive l seq src port q tc weight true s = _
    rw [execCreditStatusReceive, if_neg (by simp [h3, hen]), State.acceptLink_other hseq]
    rfl
  · obtain ⟨s1, hacc, hregs, hflows, -, -⟩ := State.acceptLink_next hseq
    obtain ⟨hfull, hroom⟩ := execCreditStatusReceive_new h3 hen hacc ((State.lineNode_congr hregs port).trans hline) (hflows ▸ hfind) tc weight
    exact ⟨fun h => hroom (hflows ▸ h), fun h => ⟨s1, hfull (hflows ▸ h), hflows⟩⟩
  · refine ⟨_, rfl, rfl, fun f => ?_⟩
    simp only [List.mem_filter, Bool.not_eq_true', Bool.and_eq_false_iff, beq_eq_false_iff_ne, Bool.not_eq_false']
    grind
  · intro s1 s2 hgo hfl htok hen hch
    exact execCreditGenerate_grants hline hgo rfl hfl htok hen hch
  · obtain ⟨s1, hacc, -, -, hq, -⟩ := State.acceptLink_next hseq
    have hqueue : s1.queue q = s.queue q := by rw [State.queue, State.queue, hq]
    change ∃ t, execGrantReceive l seq q epoch granted true s = .next t ∧ _
    refine ⟨s1.setQueue q { s1.queue q with rejected := true }, ?_, ?_⟩
    · rw [execGrantReceive, if_neg (by simp [h3, hen]), hacc]
      dsimp only
      rw [hqueue, hatt]
      rfl
    · rw [State.setQueue_queue, hqueue]
      exact ⟨rfl, rfl⟩
  · obtain ⟨s1, hacc, hregs, -, hq, -⟩ := State.acceptLink_next hseq
    have hqueue : s1.queue q = s.queue q := by rw [State.queue, State.queue, hq]
    have hcredit : s1.creditBytes = s.creditBytes := by rw [State.creditBytes, State.creditBytes, State.fget_congr hregs]
    change ∃ t, execGrantReceive l seq q epoch granted false s = .next t ∧ _
    refine ⟨s1.setQueue q { s1.queue q with balance := min ((s1.queue q).balance + granted * s1.creditBytes) (4 * s1.creditBytes), granted := granted,
                                            epochSeen := epoch + 1, rejected := false }, ?_, ?_⟩
    · rw [execGrantReceive, if_neg (by simp [h3, hen]), hacc]
      dsimp only
      rw [hqueue, hatt, if_neg (by decide), if_neg (by decide), if_neg hepoch]
    · rw [State.setQueue_queue, hqueue, hcredit]
      exact ⟨rfl, rfl, rfl, rfl, rfl⟩
  · change execStatusRefresh q s = _
    rw [execStatusRefresh, if_pos ⟨hon, hreach⟩]
  · change execCflowRejectRetry q s = _
    rw [execCflowRejectRetry]
    exact if_pos ⟨hrej, hpkts⟩

end Sys2Proof.Machine
end
section
/-! CERTIFICATES. Events of the ingress slice (10 R291-R301, 07 R222-R224). -/

namespace Sys2Proof.Machine

open Sys2Proof

/-- A granted slot appends its pass, issued or held back with the slice frozen (07 R224). -/
theorem exec_slotGrant_pass {s : State} {slice idle : Nat} {p : Pkt} {y : SliceState} (hrun : s.stoppedForwarding = false) (hslice : slice < 16)
    (hthawed : (s.slice slice).frozen = false) (hpower : s.fget (Fld.PWR_DOM_STATE_STATE (3 + slice)) ≤ 1)
    {x : SliceState} (hx : x = ((((s.earnCredit slice idle).pmc 0x013 slice 0 (2 * idle - (s.slice slice).grants)).slice slice).tick idle))
    (hnext : x.nextPass (!s.dieResetRuns) = some (p, y)) (hcap : x.grants < 2) (hslot : x.grants < x.slots (s.fget Fld.CAM_STATUS_STEP)) :
    ∃ t : State, ∃ r : Pass, exec (.slotGrant slice idle) s = .next t ∧ (t.slice slice).passes = y.passes ++ [r] ∧
      (t.slice slice).grants = y.grants + 1 ∧ (t.slice slice).frozen = (!r.issued || y.frozen) := by
  have hopen : ¬(16 ≤ slice ∨ s.stoppedForwarding = true ∨ (s.slice slice).frozen = true ∨
      1 < s.fget (Fld.PWR_DOM_STATE_STATE (3 + slice))) := by simp [hrun, hthawed]; omega
  rw [exec_slotGrant, execSlotGrant, if_neg hopen]
  dsimp only
  rw [← hx, hnext]
  dsimp only
  rw [if_neg (Nat.not_le.mpr hcap), if_neg (Nat.not_le.mpr hslot)]
  split_ifs <;> exact ⟨_, _, rfl, by rw [State.setSlice_slice], by rw [State.setSlice_slice], by rw [State.setSlice_slice]; rfl⟩

/-- Settles O43: the slot's pass by its lemma, each other event by its own branch. -/
theorem ingressEventsTakeEffect : Obligations.IngressEventsTakeEffect := by
  unfold Obligations.IngressEventsTakeEffect
  intro s hrun
  refine ⟨fun slice idle hslice hthawed hpower => ?_, fun slice cycles hslice hfrozen => ?_, fun slice upsets evict q rest hq hissued => ?_,
    fun slice p rest hp => ?_, fun slice r rest hr => ?_, fun u => rfl⟩
  · intro s1 x s2
    have hopen : ¬(16 ≤ slice ∨ s.stoppedForwarding = true ∨ (s.slice slice).frozen = true ∨
        1 < s.fget (Fld.PWR_DOM_STATE_STATE (3 + slice))) := by simp [hrun, hthawed]; omega
    refine ⟨fun hnone => ?_, fun waiting y hnext hcap => ⟨fun hslot => ?_, fun hslot =>
      exec_slotGrant_pass hrun hslice hthawed hpower rfl hnext hcap hslot⟩⟩
    · rw [exec_slotGrant, execSlotGrant, if_neg hopen]
      dsimp only
      rw [show SliceState.nextPass _ _ = none from hnone]
    · rw [exec_slotGrant, execSlotGrant, if_neg hopen]
      dsimp only
      rw [show SliceState.nextPass _ _ = some (waiting, y) from hnext]
      dsimp only
      rw [if_neg (Nat.not_le.mpr hcap), if_pos hslot]
  · change execFreezeEnd slice cycles s = _
    rw [execFreezeEnd, if_neg (by simp [hfrozen]; omega)]
    dsimp only
    split <;> rfl
  · change execIngressPassEnd slice upsets evict s = _
    rw [execIngressPassEnd, hq]
    exact if_neg (by simp [hrun, hissued])
  · intro x full
    have hbranch : exec (.recircEnqueue slice) s = .next (if full then (((s.setSlice slice { x with recircWait := rest }).satAdd
        (Fld.RCL_OVF_DROP_CNT_COUNT slice) 1).setEvent Fld.RCL_EVENT_OVF_DROP).endPkt p
        else s.setSlice slice { x with recircWait := rest, recirc := x.recirc ++ [p] }) := by
      change execRecircEnqueue slice s = _
      rw [execRecircEnqueue, hp]
      dsimp only
      rw [hrun, if_neg (by decide)]
      simp only [full, Bool.or_eq_true, decide_eq_true_eq]
      split <;> rfl
    refine ⟨fun hf => by rw [hbranch, hf]; rfl, fun hf => ⟨_, by rw [hbranch, hf, if_pos rfl], ?_⟩⟩
    have hpath : ∀ v, (((s.setSlice slice v).satAdd (Fld.RCL_OVF_DROP_CNT_COUNT slice) 1).setEvent Fld.RCL_EVENT_OVF_DROP).slice slice = v :=
      fun v => (State.slice_of_path (by rw [State.setEvent_path, State.satAdd_path]) slice).trans (State.setSlice_slice s slice v)
    rw [hpath]
    exact ⟨rfl, rfl⟩
  · intro s1
    have hbranch : exec (.replication slice) s = match s1.floodMembers r.group r.pkt with
        | [] => .next ((s1.satAdd Fld.ACT_FLOOD_EMPTY_CNT_COUNT 1).endPkt r.pkt)
        | m :: ms => .next (ms.foldl (fun t k => t.floodCopy slice r.queue r.pkt k) (s1.floodOne slice r.queue r.pkt m)) := by
      change execReplication slice s = _
      rw [execReplication, hr]
      exact if_neg (by simp [hrun])
    exact ⟨fun h => by rw [hbranch, h], fun m ms h => by rw [hbranch, h]⟩

end Sys2Proof.Machine
end
section
/-! SUPPORT. Ring commands whose body runs (02 R65, R627), and the transfers that the DMA commands start (02 R82, R83). -/

namespace Sys2Proof.Machine

open Sys2Proof

section
variable {s t : State} {op lo hi st r0 r1 : Nat} {c : Cmd} {a0 a1 : List (Nat × Nat)} {pl : List (Nat × Nat × Nat)}
  {body : State → State × Done}

/-- A command that runs completes with what its body answers; no reserved bit is set. -/
theorem runCmd_runs (h : s.runs op lo hi c a0 a1 pl = true) (hb : c.resv a0 a1 pl = false → body s = (t, .done st r0 r1)) :
    runCmd op lo hi c s body = .next (t.complete c op st r0 r1) :=
  runCmd_done (runs_iff.mp h).1 (hb (runs_iff.mp h).2)

/-- A command that runs and completes later leaves its body's state. -/
theorem runCmd_runs_later (h : s.runs op lo hi c a0 a1 pl = true) (hb : c.resv a0 a1 pl = false → body s = (t, .later)) :
    runCmd op lo hi c s body = .next t :=
  runCmd_later (runs_iff.mp h).1 (hb (runs_iff.mp h).2)

end

theorem WriteResult.status_ok {w : WriteResult} (h : w.status = stOK) : w = .applied := by
  cases w <;> first | rfl | exact absurd h (by decide)

/-- Pairs that all apply are counted. -/
theorem writePairs_count {m : Nat} {ps : List (Nat × Nat)} {n : Nat} {s : State} (h : (writePairs m ps n s).2.1 = stOK) :
    (writePairs m ps n s).2.2 = n + ps.length := by
  induction ps generalizing n s with
  | nil => rfl
  | cons p ps ih =>
    unfold writePairs at h ⊢
    split at h
    · exact absurd (show stOutOfRange = stOK from h) (by decide)
    next hp =>
      rw [if_neg hp]
      split at h
      next t e => rw [ih h, List.length_cons]; omega
      next t w hw e => exact absurd (WriteResult.status_ok h) (by simpa using hw)

/-- A transfer joins its channel, BUSY set, and changes nothing but DMA state and the channel's status. -/
theorem State.startXfer_joins {s : State} {c : Cmd} {o : DmaOp} {n : Nat} :
    ∃ t, s.startXfer c o n = (t, .later) ∧
      Assoc.get t.dma.chans [] (bitsAt c.arg1 0 4) = Assoc.get s.dma.chans [] (bitsAt c.arg1 0 4) ++ [⟨o, n, 8, c.tag, some c⟩] ∧
      t.fbit (Fld.DMA_CH_STATUS_BUSY (bitsAt c.arg1 0 4)) = true ∧ t.host = s.host ∧ t.outs = s.outs ∧ t.ce = s.ce := by
  refine ⟨_, rfl, by simp, ?_, by simp, by simp, by simp⟩
  rw [State.fbit, State.fget_fset_apart _ _ _ _ (by simp [Fld.DMA_CH_STATUS_REQUESTER])
      (by simp [Fld.DMA_CH_STATUS_REQUESTER, Fld.DMA_CH_STATUS_BUSY]), State.fget_fset_same _ _ _ (by simp [Fld.DMA_CH_STATUS_BUSY])]
  rfl

end Sys2Proof.Machine
end

section
/-! CERTIFICATES. What stands still after a fatal error (18 R533), the engine's and DMA commands, and the engine's events (02). -/

namespace Sys2Proof.Machine

open Sys2Proof

/-- Settles O10: each of these events asks `stoppedForwarding` first. -/
theorem forwardingStopsWhenFatal : Obligations.ForwardingStopsWhenFatal := by
  unfold Obligations.ForwardingStopsWhenFatal
  intro s hf ho
  have hstop : s.stoppedForwarding = true := by simp [State.stoppedForwarding, hf]
  refine ⟨fun slice idle => ?_, fun slice upsets evict => ?_, fun slice => ⟨?_, ?_⟩, fun node ue cell => ?_, ?_, fun slice upsets => ?_,
    fun link cut hl => ?_, fun input ecc p rest hin => ?_⟩
  · exact if_pos (.inr (.inl hstop))
  · change execIngressPassEnd slice upsets evict s = _
    unfold execIngressPassEnd
    dsimp only
    split
    · rfl
    · exact if_pos (.inl hstop)
  · change execRecircEnqueue slice s = _
    unfold execRecircEnqueue
    dsimp only
    split
    · rfl
    · exact if_pos hstop
  · change execReplication slice s = _
    unfold execReplication
    dsimp only
    split
    · rfl
    · exact if_pos hstop
  · exact if_pos (.inr (.inl hstop))
  · exact if_pos (.inr hstop)
  · change execEgressPass slice upsets s = _
    unfold execEgressPass
    split
    · rfl
    · exact if_pos hstop
  · change execPortFrameGrant link cut s = _
    rw [execPortFrameGrant, hl]
    exact if_pos hstop
  · change ∃ t, execAdmission input ecc s = .next t ∧ _
    refine ⟨{ s with tm := { s.tm with inputs := Assoc.put s.tm.inputs [] input rest } }, ?_, Assoc.get_put_same _ _ _ _, rfl, rfl, rfl,
      fun i hi => Assoc.get_put_other _ _ hi _⟩
    rw [execAdmission, hin]
    dsimp only
    rw [if_neg (by simp [hf, ho]), if_pos hstop]

/-- Settles O22: each body has one branch under the clause's conditions. -/
theorem engineAndDmaCommandsComplete : Obligations.EngineAndDmaCommandsComplete := by
  unfold Obligations.EngineAndDmaCommandsComplete
  intro s c
  refine ⟨fun h => runCmd_done h rfl, fun h => runCmd_runs h fun hr => ?_, fun h hlt hal => runCmd_runs h fun hr => ?_, ?_, ?_, ?_, ?_,
    fun a b n h hch => runCmd_runs h fun hr => ?_⟩
  · exact if_neg (by simp [hr])
  · dsimp only
    rw [if_neg (by simp [hr]), if_neg (by omega)]
    rfl
  · intro n r h h1 hlen hst
    have hk : r.2.2 = n := by
      have := writePairs_count (show (writePairs _ _ _ _).2.1 = stOK from hst)
      rwa [List.length_map, List.length_range, Nat.zero_add] at this
    refine runCmd_runs h fun hr => ?_
    dsimp only
    rw [if_neg (by rw [hr]; decide), if_neg (by omega)]
    exact Prod.ext rfl (by rw [← hst, ← hk])
  · intro ch x h hch hsrc hdst hread
    obtain ⟨t, ht, hjoin⟩ := State.startXfer_joins (s := s) (c := c)
      (o := .copy (c.fld 32 0 64) (c.fld 40 0 64) (c.fld 52 0 1 == 1) (c.fld 52 1 1 == 1)) (n := c.fld 48 0 32)
    refine ⟨t, runCmd_runs_later h fun hr => ?_, hjoin⟩
    dsimp only
    rw [if_neg (by simp [hr]), if_neg (Nat.not_le.mpr hch), if_neg (by simp [hsrc, hdst]), if_neg (by simp [hread]), ht]
  · intro ch x h hch hdst
    obtain ⟨t, ht, hjoin⟩ := State.startXfer_joins (s := s) (c := c) (o := .fill (c.fld 32 0 64) (c.fld 40 0 64) (c.fld 52 0 1 == 1)) (n := c.fld 48 0 32)
    refine ⟨t, runCmd_runs_later h fun hr => ?_, hjoin⟩
    dsimp only
    rw [if_neg (by simp [hr]), if_neg (Nat.not_le.mpr hch), if_neg (by simp [hdst]), ht]
  · intro ch x h hch ha hb hreadA hreadB
    obtain ⟨t, ht, hjoin⟩ := State.startXfer_joins (s := s) (c := c)
      (o := .compare (c.fld 32 0 64) (c.fld 40 0 64) (c.fld 52 0 1 == 1) (c.fld 52 1 1 == 1)) (n := c.fld 48 0 32)
    refine ⟨t, runCmd_runs_later h fun hr => ?_, hjoin⟩
    dsimp only
    rw [if_neg (by simp [hr]), if_neg (Nat.not_le.mpr hch), if_neg (by simp [ha, hb]), if_neg (by rw [hreadA, hreadB]; decide), ht]
  · exact (if_neg (by simp [hr])).trans (if_neg (Nat.not_le.mpr hch))

/-! ### Disables that end (02 R75) -/

section
variable {s : State}

theorem State.disableDone_ring {r : Nat} (hr : r < 8) (hd : (Assoc.get s.ce.rings ⟨[], [], false⟩ r).disabling = true)
    (hf : (Assoc.get s.ce.rings ⟨[], [], false⟩ r).fetched = []) : bitAt ((s.disableDone r).fget Fld.CE_CTRL_RING_EN) r = false := by
  rw [State.disableDone, if_pos hr]
  dsimp only
  rw [if_pos (by simp [hd, hf]), State.fget_fset_same _ _ _ (by decide), bitAt_mod (show r < Fld.CE_CTRL_RING_EN.w from hr), bitAt_eq_testBit,
    testBit_putBits, if_pos (by omega), Nat.zero_testBit]

theorem State.disableDone_cq {m : Nat} (hm : m < 8) (hd : m ∈ s.ce.cqDisabling) (he : ∀ e ∈ s.ce.executing, e.cmd.cq ≠ m) :
    (s.disableDone (8 + m)).fbit (Fld.CE_CQ_SIZE_EN m) = false ∧ m ∉ (s.disableDone (8 + m)).ce.cqDisabling := by
  have hidle : (s.ce.cqDisabling.contains m && !s.ce.executing.any fun e => e.cmd.cq == m) = true := by
    simpa [hd] using he
  rw [State.disableDone, if_neg (by omega), if_pos (by omega), Nat.add_sub_cancel_left, if_pos hidle]
  refine ⟨?_, by simp⟩
  rw [State.fbit, State.fget_fset_same _ _ _ (by decide : 31 + 1 ≤ 32)]
  rfl

theorem State.disableDone_pkt {r : Nat} (hr : r < 128) (hd : r ∈ s.host.ringDisabling) :
    (s.disableDone (16 + r)).pktEn r = false ∧ r ∉ (s.disableDone (16 + r)).host.ringDisabling := by
  obtain ⟨el, ew⟩ := pktFld_cfgEn r
  rw [State.disableDone, if_neg (by omega), if_neg (by omega), if_pos (by omega), Nat.add_sub_cancel_left, if_pos (List.contains_iff_mem.mpr hd)]
  refine ⟨?_, by simp⟩
  rw [State.pktEn, State.fbit, State.fget_fset_same _ _ _ (by omega), Nat.zero_mod]
  rfl

theorem State.disableDone_rq (hd : s.dma.rqDisabling = true) (hdue : s.dma.due = []) :
    (s.disableDone 144).fbit Fld.DMA_RQ_SIZE_EN = false ∧ (s.disableDone 144).dma.rqDisabling = false := by
  rw [State.disableDone, if_neg (by decide), if_neg (by decide), if_neg (by decide), if_pos ⟨rfl, hd, by rw [hdue]; rfl⟩]
  refine ⟨?_, by simp⟩
  rw [State.fbit, State.fget_fset_same _ _ _ (by decide)]
  rfl

theorem exec_ringDisableDone (ho : s.off = false) (r : Nat) : exec (.ringDisableDone r) s = .next (s.disableDone r) := by
  change execRingDisableDone r s = _
  rw [execRingDisableDone, ho]
  rfl

end

/-- Settles O23: each event's own branch; the disables by their lemmas. -/
theorem engineEventsTakeEffect : Obligations.EngineEventsTakeEffect := by
  unfold Obligations.EngineEventsTakeEffect
  intro s
  refine ⟨fun ring bytes => ?_, fun e rest hi hx he hu hs => ?_, fun m ho hm => ?_, fun r hr ho hd hf => ?_, fun m hm ho hd he => ?_,
    fun r hr ho hd => ?_, fun ho hd hdue => ?_⟩
  · intro k ci n ci' part hr hi hen hn
    refine if_neg ?_
    rintro (h | h | h | h)
    · omega
    · simp [hi] at h
    · simp [hen] at h
    · exact hn h
  · change execCommandStart s = _
    rw [execCommandStart, if_neg (by simp [hi]; omega), he]
    dsimp only
    rw [if_neg (by simp [hu]), if_neg hs]
  · exact if_pos (by simp [hm, ho])
  · exact ⟨_, exec_ringDisableDone ho r, State.disableDone_ring hr hd hf⟩
  · exact ⟨_, exec_ringDisableDone ho _, State.disableDone_cq hm hd he⟩
  · exact ⟨_, exec_ringDisableDone ho _, State.disableDone_pkt hr hd⟩
  · exact ⟨_, exec_ringDisableDone ho _, State.disableDone_rq hd hdue⟩

end Sys2Proof.Machine
end
section
/-! SUPPORT. Buckets in host-path memory (02 R79). -/

namespace Sys2Proof.Machine

open Sys2Proof

/-- Bytes just written are read back. -/
theorem State.hostMem_setHostMem_same (s : State) (a : Nat) (bs : List Byte) : (s.setHostMem a bs).hostMem a bs.length = bs := by
  refine List.ext_getElem (by simp [State.hostMem, Memory.readBytes]) fun i h₁ h₂ => ?_
  simp only [State.hostMem, State.setHostMem, Memory.readBytes, List.getElem_map, List.getElem_range, Memory.read_writeBytes]
  rw [if_pos (by omega), Nat.add_sub_cancel_left, List.getD_eq_getElem _ _ h₂]

theorem State.hostMem_congr {s t : State} (h : t.host.mem = s.host.mem) (a n : Nat) : t.hostMem a n = s.hostMem a n := by
  rw [State.hostMem, State.hostMem, h]

theorem State.pool_congr {s t : State} (h : t.host.pools = s.host.pools) (p : Nat) : t.pool p = s.pool p := by
  rw [State.pool, State.pool, h]

theorem State.fset_pool (s : State) (f : Fld) (v p : Nat) : (s.fset f v).pool p = s.pool p := State.pool_congr (by rw [State.fset_host]) p

/-- The state with one more bucket given out. -/
def State.giveBucket (s : State) (b : Nat × Nat × Nat) : State := { s with host := { s.host with buckets := s.host.buckets ++ [b] } }

section
variable (s : State) (b : Nat × Nat × Nat)
theorem State.giveBucket_fbit (f : Fld) : (s.giveBucket b).fbit f = s.fbit f := State.fbit_congr rfl f
theorem State.giveBucket_pool (p : Nat) : (s.giveBucket b).pool p = s.pool p := rfl
theorem State.giveBucket_buckets : (s.giveBucket b).host.buckets = s.host.buckets ++ [b] := rfl
theorem State.giveBucket_mem : (s.giveBucket b).host.mem = s.host.mem := rfl
end

/-- The state without the first bucket that `q` names. -/
def State.dropBucket (s : State) (q : Nat × Nat × Nat → Bool) : State := { s with host := { s.host with buckets := removeFirst q s.host.buckets } }

theorem State.dropBucket_pool (s : State) (q : Nat × Nat × Nat → Bool) (p : Nat) : (s.dropBucket q).pool p = s.pool p := rfl

theorem State.setPool_buckets (s : State) (p : Nat) (x : PoolState) : (s.setPool p x).host.buckets = s.host.buckets := rfl

section
variable {s : State} {p : Nat} (hin : s.inPool p (s.pool p).head = true)
include hin

/-- A bucket taken: the list's head moves to the next one, and the count of free ones drops. -/
theorem State.takeBucket_eq (requester : Nat) : s.takeBucket p requester = (((s.setPool p { s.pool p with head := leNat (s.hostMem (s.pool p).head 8) }).fset
    (Fld.HIF_POOL_STAT_FREE p) (s.fget (Fld.HIF_POOL_STAT_FREE p) - 1)).giveBucket (p, (s.pool p).head, requester)) := by
  rw [State.takeBucket]
  dsimp only
  rw [hin, if_neg (by decide)]
  rfl

theorem State.takeBucket_frozen (requester : Nat) :
    (s.takeBucket p requester).fbit (Fld.HIF_POOL_STAT_FROZEN p) = s.fbit (Fld.HIF_POOL_STAT_FROZEN p) := by
  rw [State.takeBucket_eq hin, State.giveBucket_fbit, State.fbit,
    State.fget_fset_apart _ _ _ _ (by simp [Fld.HIF_POOL_STAT_FREE]) (by simp [Fld.HIF_POOL_STAT_FREE, Fld.HIF_POOL_STAT_FROZEN]), State.fbit,
    State.fget_congr (State.setPool_regs s p _)]

theorem State.takeBucket_takes (requester : Nat) : (s.takeBucket p requester).host.buckets = s.host.buckets ++ [(p, (s.pool p).head, requester)] ∧
    ((s.takeBucket p requester).pool p).head = leNat (s.hostMem (s.pool p).head 8) ∧ (s.takeBucket p requester).host.mem = s.host.mem := by
  rw [State.takeBucket_eq hin, State.giveBucket_buckets, State.giveBucket_pool, State.giveBucket_mem, State.fset_host, State.fset_pool, State.setPool_pool,
    State.setPool_buckets, State.setPool_mem]
  exact ⟨rfl, rfl, rfl⟩

end

end Sys2Proof.Machine
end

section
/-! CERTIFICATES. Packet rings, pools and transfers (02 R76-R86). -/

namespace Sys2Proof.Machine

open Sys2Proof

/-- Settles O24: each event's own branch. -/
theorem packetRingAndDmaEventsTakeEffect : Obligations.PacketRingAndDmaEventsTakeEffect := by
  unfold Obligations.PacketRingAndDmaEventsTakeEffect
  intro s ho hf
  refine ⟨fun ring descs p => ?_, fun ring descs bufs ds => ?_, fun requester size p hreq hpool hempty hin hfrozen hp => ?_,
    fun p a hmem hwait => ?_, fun ch a b x xs hch hheld => ?_, fun ch a b n x xs h8 hch => ?_, fun r rs => ?_⟩
  · intro n ds s1 hwaits hfind hbuf hroom hok
    change execRxDelivery ring descs s = _
    rw [execRxDelivery]
    dsimp only
    rw [hwaits, if_neg (by simp [ho, hf]), hfind]
    dsimp only
    rw [if_neg (by rintro (h | h) <;> omega), if_neg (by rw [hok]; decide)]
  · intro d bytes hring hpk hfault hlen
    have hrun : execTxDescriptorFetch ring descs bufs s = if bitAt (byteOr0 d 10) 1 = true then
          .next ((s.injectDirect ring d bytes (s.wbSlots ring ds)
            ((s.pktCi (64 + ring) + ds.length - 1) % 2 ^ s.pktK (64 + ring))).pktAdvance (64 + ring) ds.length)
        else if s.domOn (3 + byteOr0 d 11 % 16) = false then .next ((s.txEnd ring (s.wbSlots ring ds) 2).pktAdvance (64 + ring) ds.length)
        else if 256 ≤ (s.slice (byteOr0 d 11 % 16)).inject.length then .next s
        else .next (((s.injectSlice (byteOr0 d 11 % 16) d bytes).txEnd ring (s.wbSlots ring ds) 0).pktAdvance (64 + ring) ds.length) := by
      rw [execTxDescriptorFetch, if_neg (by simp [ho, hf]; omega), hpk]
      dsimp only
      rw [hfault]
      exact if_neg (Nat.not_lt.mpr hlen)
    refine ⟨fun hb => hrun.trans (if_pos hb), fun hb hd hroom => hrun.trans ?_⟩
    rw [if_neg (by simp [hb]), if_neg (by simp [hd]), if_neg (Nat.not_le.mpr hroom)]
  · change ∃ t, execBucketAlloc requester size s = .next t ∧ _
    refine ⟨s.takeBucket p requester, ?_, State.takeBucket_takes hin requester⟩
    rw [execBucketAlloc, if_neg (by simp [ho]; omega), hpool]
    dsimp only
    rw [hempty, if_neg (by decide), State.takeBucket_frozen hin, hfrozen]
    rfl
  · change ∃ t, execBucketFree p a s = .next t ∧ _
    have hlen : (leBytes 8 (s.pool p).head).length = 8 := leBytes_length 8 _
    let s1 := s.dropBucket fun b => b.1 == p && b.2.1 == a
    let s2 := s1.setHostMem a (leBytes 8 (s.pool p).head)
    refine ⟨(s2.setPool p { s2.pool p with head := a }).fset (Fld.HIF_POOL_STAT_FREE p) (s2.fget (Fld.HIF_POOL_STAT_FREE p) + 1), ?_, ?_, ?_⟩
    · rw [execBucketFree, if_neg (by rw [hmem]; simp [ho])]
      change (match lowestWaiter (s1.pool p).waiting with | some w => _ | none => _) = _
      rw [State.dropBucket_pool, hwait]
      rfl
    · rw [State.fset_pool, State.setPool_pool]
    · have hmem2 := State.hostMem_setHostMem_same s1 a (leBytes 8 (s.pool p).head)
      rw [hlen] at hmem2
      refine (State.hostMem_congr ?_ a 8).trans hmem2
      rw [State.fset_host]
      rfl
  · intro r
    change execDmaTransferDone ch a b none s = _
    rw [execDmaTransferDone, hch]
    exact if_neg (by simp [ho, hf, hheld])
  · intro r
    change execDmaWithdraw ch a b n s = _
    rw [execDmaWithdraw, if_neg (by simp [ho, hf, h8]), State.dmaWithdraw, hch]
  · intro k pi hdue hen hroom
    change ∃ t, execDmaRecordWrite s = .next t ∧ _
    let s1 : State := { s with dma := { s.dma with due := rs } }
    let s2 := s1.emit (.hostWrite (s.pair Reg.DMA_RQ_BASE_LO Reg.DMA_RQ_BASE_HI + 32 * (pi % 2 ^ k)) (r.bytes pi k))
    refine ⟨(s2.fset Fld.DMA_RQ_PI_PI ((pi + 1) % 2 ^ (k + 1))).pulse 8, ?_, ?_, ?_, ?_⟩
    · rw [execDmaRecordWrite]
      dsimp only
      rw [hdue]
      exact if_neg (by simp [ho, hf, hen, hroom])
    · rw [State.eq_of_outsideCount (State.pulse_outsideCount _ _) State.dma fun _ => rfl, State.fset_dma]
      rfl
    · rw [State.fget, State.pulse_reg_plain (.inl (by decide)), ← State.fget, State.fget_fset_same _ _ _ (by decide)]
      rfl
    · refine (State.pulse_outs_grows _ 8).subset ?_
      rw [State.fset_outs]
      exact List.mem_append_right _ (.head _)

end Sys2Proof.Machine
end
section
/-! SUPPORT. The fields of GEN_STATE and what the unit's steps leave (03 R91-R122, 09 R272). -/

namespace Sys2Proof.Machine

open Sys2Proof

theorem State.withGen_fget (s : State) (g : GenState) (f : Fld) : ({ s with gen := g } : State).fget f = s.fget f := State.fget_congr rfl f
theorem State.withGen_tab (s : State) (g : GenState) : ({ s with gen := g } : State).tab = s.tab := rfl

theorem genState_apart {g h : Nat} (hne : g ≠ h) :
    (fldGenState h).lo + (fldGenState h).w ≤ (fldGenState g).lo ∨ (fldGenState g).lo + (fldGenState g).w ≤ (fldGenState h).lo := by
  simp only [fldGenState]
  omega

theorem fbit_fset_b2n (s : State) {f : Fld} (hw : f.w = 1) (hlo : f.lo < 32) (b : Bool) : (s.fset f (b2n b)).fbit f = b := by
  rw [State.fbit, State.fget_fset_same _ _ _ (by omega), hw]
  cases b <;> rfl

section
variable (s : State) {g : Nat} (hg : g < 4) (st : Nat)
include hg

theorem State.setBuildState_state (hst : st < 8) : (s.setBuildState g st).genStateOf g = st := by
  rw [State.genStateOf, State.setBuildState,
    State.fget_fset_apart _ _ _ _ (by decide) (by simp only [fldGenState, Fld.GEN_STATE_PENDING]; omega),
    State.fget_fset_apart _ _ _ _ (by decide) (by simp only [fldGenState, Fld.GEN_STATE_BUILD_OPEN]; omega),
    State.fget_fset_same _ _ _ (by simp only [fldGenState]; omega)]
  exact Nat.mod_eq_of_lt hst

omit hg in
theorem State.setBuildState_open : (s.setBuildState g st).buildOpen = (st == genBuilding) := by
  rw [State.buildOpen, State.setBuildState, State.fbit, State.fget_fset_apart _ _ _ _ (by decide) (by decide), ← State.fbit,
    fbit_fset_b2n _ rfl (by decide)]

omit hg in
theorem State.setBuildState_pending : (s.setBuildState g st).commitPending = (st == genPending) := by
  rw [State.commitPending, State.setBuildState, fbit_fset_b2n _ rfl (by decide)]

end

/-- The walk of an abandoned or retired generation's shadow compares writes the shadow control registers alone. -/
theorem State.shadowLost_fget (s : State) (g : Nat) {f : Fld} (h1 : f.reg ≠ Reg.LPM_SHADOW_CTRL) (h2 : f.reg ≠ Reg.EXM_SHADOW_CTRL)
    (h3 : f.reg ≠ Reg.CAM_SHADOW_CTRL) : (s.shadowLost g).fget f = s.fget f := by
  have stop : ∀ (u : ShadowUnit) (t : State), f.reg ≠ u.ctrl →
      (if t.fbit (u.fld 3 1) && t.fget (u.fld 4 2) == g then (t.fset (u.fld 3 1) 0).fset (u.fld 6 1) 1 else t).fget f = t.fget f := fun u t hu => by
    split
    · rw [State.fget_fset_other _ _ _ _ hu, State.fget_fset_other _ _ _ _ hu]
    · rfl
  unfold State.shadowLost
  dsimp only
  rw [stop camShadow _ h3, stop exmShadow _ h2, stop lpmShadow _ h1]

theorem State.shadowLost_outsideCount (s : State) (g : Nat) : (s.shadowLost g).outsideCount = s.outsideCount := by
  have stop : ∀ (u : ShadowUnit) (t : State),
      (if t.fbit (u.fld 3 1) && t.fget (u.fld 4 2) == g then (t.fset (u.fld 3 1) 0).fset (u.fld 6 1) 1 else t).outsideCount = t.outsideCount :=
    fun u t => by
      split
      · rw [State.fset_outsideCount, State.fset_outsideCount]
      · rfl
  unfold State.shadowLost
  dsimp only
  rw [stop camShadow, stop exmShadow, stop lpmShadow]

@[simp] theorem State.shadowLost_gen (s : State) (g : Nat) : (s.shadowLost g).gen = s.gen :=
  State.eq_of_outsideCount (s.shadowLost_outsideCount g) State.gen fun _ => rfl
@[simp] theorem State.shadowLost_tab (s : State) (g : Nat) : (s.shadowLost g).tab = s.tab :=
  State.eq_of_outsideCount (s.shadowLost_outsideCount g) State.tab fun _ => rfl

/-! ### The unit's order (R122) -/

section
variable {s t : State} {op st r0 r1 : Nat} {c : Cmd} {d : HostData} {late : List Nat} {a0 a1 : List (Nat × Nat)} {pl : List (Nat × Nat × Nat)}

/-- A command of the unit whose turn it is completes with what its body answers. -/
theorem genCmd_runs (hfree : s.genClosing = false) (h : s.runs op (genLen op) (genLen op) c a0 a1 pl = true)
    (hb : c.resv a0 a1 pl = false → genBody ⟨op, c, d, late⟩ s = (t, .done st r0 r1)) :
    genCmd ⟨op, c, d, late⟩ s = .next (t.complete c op st r0 r1) := by
  rw [genCmd, hfree]
  exact runCmd_runs h hb

theorem genCmd_runs_later (hfree : s.genClosing = false) (h : s.runs op (genLen op) (genLen op) c a0 a1 pl = true)
    (hb : c.resv a0 a1 pl = false → genBody ⟨op, c, d, late⟩ s = (t, .later)) : genCmd ⟨op, c, d, late⟩ s = .next t := by
  rw [genCmd, hfree]
  exact runCmd_runs_later h hb

end

/-! ### Moves that wait (09 R273) -/

theorem State.camMoveStart_tables (s : State) (m : CamMove) :
    (s.camMoveStart m).1.tab.cam = s.tab.cam ∧ (s.camMoveStart m).1.tab.camHeld = s.tab.camHeld ∧ (s.camMoveStart m).1.gen = s.gen := by
  unfold State.camMoveStart
  split
  · exact ⟨rfl, rfl, rfl⟩
  · split
    · exact ⟨rfl, rfl, rfl⟩
    · simp

/-- A waiting move that starts, or fails, leaves the CAM's entries and the writes held back. -/
theorem camNext_tables (ms : List CamMove) (s : State) :
    (camNext ms s).tab.cam = s.tab.cam ∧ (camNext ms s).tab.camHeld = s.tab.camHeld ∧ (camNext ms s).gen = s.gen := by
  induction ms generalizing s with
  | nil => exact ⟨rfl, rfl, rfl⟩
  | cons m ms ih =>
    obtain ⟨hcam, hheld, hgen⟩ := s.camMoveStart_tables m
    unfold camNext
    split
    · exact ⟨rfl, rfl, rfl⟩
    · split
      next s' e =>
        rw [e] at hcam hheld hgen
        exact ⟨hcam, hheld, hgen⟩
      next s' st r0 r1 e =>
        rw [e] at hcam hheld hgen
        obtain ⟨h1, h2, h3⟩ := ih (s'.complete m.cmd 0x0605 st r0 r1)
        rw [State.complete_tab] at h1 h2
        rw [State.complete_gen] at h3
        exact ⟨h1.trans hcam, h2.trans hheld, h3.trans hgen⟩

theorem State.camResume_tables (s : State) :
    s.camResume.tab.cam = s.tab.cam ∧ s.camResume.tab.camHeld = s.tab.camHeld ∧ s.camResume.gen = s.gen := camNext_tables _ _

theorem State.genResume_idle {s : State} (h : s.gen.wait = none) : s.genResume = s := by
  rw [State.genResume, h]

theorem State.genNext_idle {s : State} (h : s.gen.queue = []) : s.genNext = s := by
  have e : ({ s with gen := { s.gen with queue := [] } } : State) = s := by rw [← h]
  rw [State.genNext, h, genDrain, e]

end Sys2Proof.Machine
end
section
/-! CERTIFICATES. Commands and events of the generation unit (03 R91-R122). -/

namespace Sys2Proof.Machine

open Sys2Proof

theorem State.buildGen_lt (s : State) : s.buildGen < 4 := Nat.mod_lt _ (by decide)

theorem State.heldBuild_none {s : State} {m : Nat} (ho : s.buildOpen = true) (hh : s.fget Fld.GEN_STATE_HOLDER = m) : s.heldBuild m = none := by
  simp [State.heldBuild, ho, hh]

/-- An open build takes the index after ACTIVE and the next sequence number (R94, R99). -/
theorem genOpen_opens {s : State} {c : Cmd} (hr : c.resv [] [] [] = false) (ho : s.buildOpen = false) (hp : s.commitPending = false)
    (hf : s.genStateOf s.buildGen = genFree) :
    ∃ t : State, genOpen c s = (t, .done stOK (s.buildGen + 2 ^ 32 * ((s.genSeq s.activeGen + 1) % 2 ^ 32)) 0) ∧ t.buildOpen = true ∧
      t.genStateOf s.buildGen = genBuilding ∧ t.genSeq s.buildGen = (s.genSeq s.activeGen + 1) % 2 ^ 32 ∧
      t.fget Fld.GEN_STATE_HOLDER = s.cmdMaster c % 16 ∧ t.tab = s.tab := by
  have hg := s.buildGen_lt
  refine ⟨_, by rw [genOpen, if_neg (by simp [hr]), if_neg (by simp [ho, hp, hf])]; rfl, ?_, ?_, ?_, ?_, ?_⟩
  · rw [State.buildOpen, State.fbit, State.withGen_fget, State.fget_fset_other _ _ _ _ (by simp only [fldGenBank]; decide),
      State.fget_fset_apart _ _ _ _ (by decide) (by decide), State.fget_fset_other _ _ _ _ (by simp only [Fld.GEN_SEQ_SEQ, Fld.GEN_STATE_BUILD_OPEN, Reg.GEN_SEQ, Reg.GEN_STATE]; omega),
      ← State.fbit, ← State.buildOpen, State.setBuildState_open]
    rfl
  · rw [State.genStateOf, State.withGen_fget, State.fget_fset_other _ _ _ _ (by simp only [fldGenBank, fldGenState]; decide),
      State.fget_fset_apart _ _ _ _ (by decide) (by simp only [fldGenState, Fld.GEN_STATE_HOLDER]; omega),
      State.fget_fset_other _ _ _ _ (by simp only [Fld.GEN_SEQ_SEQ, fldGenState, Reg.GEN_SEQ, Reg.GEN_STATE]; omega), ← State.genStateOf,
      State.setBuildState_state _ hg _ (by decide)]
  · rw [State.genSeq, State.withGen_fget,
      State.fget_fset_other _ _ _ _ (by simp only [fldGenBank, Fld.GEN_SEQ_SEQ, Reg.GEN_SEQ, Reg.GEN_PAR_BANK]; omega),
      State.fget_fset_other _ _ _ _ (by simp only [Fld.GEN_STATE_HOLDER, Fld.GEN_SEQ_SEQ, Reg.GEN_SEQ, Reg.GEN_STATE]; omega),
      State.fget_fset_same _ _ _ (by simp only [Fld.GEN_SEQ_SEQ]; decide)]
    exact Nat.mod_mod _ _
  · rw [State.withGen_fget, State.fget_fset_other _ _ _ _ (by simp only [fldGenBank]; decide), State.fget_fset_same _ _ _ (by decide)]
    rfl
  · rw [State.withGen_tab]
    simp [State.setBuildState]

/-- A cancelled commit is an open build again (R111). -/
theorem genCancel_reopens {s : State} {c : Cmd} (hr : c.resv [] [] [] = false) (hp : s.commitPending = true)
    (hh : s.fget Fld.GEN_STATE_HOLDER = s.cmdMaster c)
    (ht : s.nowCeil + 2000 ≤ s.getInstant Fld.GEN_COMMIT_NS_NS Fld.GEN_COMMIT_SEC_LO_SEC Fld.GEN_COMMIT_SEC_HI_SEC) :
    ∃ t : State, genCancel c s = (t, .done stOK s.buildGen 0) ∧ t.gen.arm = none ∧ t.commitPending = false ∧ t.buildOpen = true ∧ t.tab = s.tab := by
  refine ⟨_, by rw [genCancel, if_neg (by simp [hr]), if_neg (by simp [hp]), if_neg (not_not.mpr hh), if_neg (Nat.not_lt.mpr ht)]; rfl, ?_, ?_, ?_, ?_⟩
  · rfl
  · rw [State.commitPending, State.fbit, State.withGen_fget, ← State.fbit, ← State.commitPending, State.setBuildState_pending]
    rfl
  · rw [State.buildOpen, State.fbit, State.withGen_fget, ← State.fbit, ← State.buildOpen, State.setBuildState_open]
    rfl
  · rw [State.withGen_tab]
    simp [State.setBuildState]

/-- A walk joins the walks that wait. -/
def State.joinWalk (s : State) (w : Walk) : State := { s with gen := { s.gen with walks := s.gen.walks ++ [w] } }

theorem State.joinWalk_walks (s : State) (w : Walk) : (s.joinWalk w).gen.walks = s.gen.walks ++ [w] := rfl

theorem State.joinWalk_tab (s : State) (w : Walk) : (s.joinWalk w).tab = s.tab := rfl

theorem State.joinWalk_fget (s : State) (w : Walk) (f : Fld) : (s.joinWalk w).fget f = s.fget f := State.withGen_fget _ _ _

theorem State.setWait_fget (s : State) (w : Option GenWait) (f : Fld) : (s.setWait w).fget f = s.fget f := State.withGen_fget _ _ _

theorem State.setWait_walks (s : State) (w : Option GenWait) : (s.setWait w).gen.walks = s.gen.walks := rfl

theorem State.setWait_tab (s : State) (w : Option GenWait) : (s.setWait w).tab = s.tab := rfl

theorem genAbandonNow_eq (r : GenReq) (s : State) : genAbandonNow r s
    = (((((s.setBuildState s.buildGen genReclaim).fset Fld.GEN_STATE_HOLDER 0).setWait (some (.walk r))).joinWalk
      (Walk.mk s.buildGen (some r.cmd))).shadowLost s.buildGen, .later) := by
  rw [genAbandonNow]
  dsimp only [State.joinWalk]

/-- An abandoned build's walk starts (R112). -/
theorem genAbandonNow_walks (r : GenReq) (s : State) : ∃ t : State, genAbandonNow r s = (t, .later) ∧
    t.gen.walks = s.gen.walks ++ [Walk.mk s.buildGen (some r.cmd)] ∧ t.buildOpen = false ∧ t.genStateOf s.buildGen = genReclaim ∧ t.tab = s.tab := by
  have hread : ∀ (s0 : State) (w : Option GenWait) (k : Walk) (f : Fld), f.reg = Reg.GEN_STATE →
      (((s0.setWait w).joinWalk k).shadowLost s.buildGen).fget f = s0.fget f := fun s0 w k f hf => by
    rw [State.shadowLost_fget _ _ (by rw [hf]; decide) (by rw [hf]; decide) (by rw [hf]; decide), State.joinWalk_fget, State.setWait_fget]
  refine ⟨_, genAbandonNow_eq r s, ?_, ?_, ?_, ?_⟩
  · rw [State.shadowLost_gen, State.joinWalk_walks, State.setWait_walks]
    simp [State.setBuildState]
  · rw [State.buildOpen, State.fbit, hread _ _ _ _ rfl, State.fget_fset_apart _ _ _ _ (by decide) (by decide), ← State.fbit, ← State.buildOpen,
      State.setBuildState_open]
    decide
  · rw [State.genStateOf, hread _ _ _ _ rfl,
      State.fget_fset_apart _ _ _ _ (by decide) (by have := s.buildGen_lt; simp only [fldGenState, Fld.GEN_STATE_HOLDER]; omega), ← State.genStateOf,
      State.setBuildState_state _ s.buildGen_lt _ (by decide)]
  · rw [State.shadowLost_tab, State.joinWalk_tab, State.setWait_tab]
    simp [State.setBuildState]

theorem State.setWait_nowNs (s : State) (w : Option GenWait) : (s.setWait w).nowNs = s.nowNs := rfl

theorem State.setWait_nowCeil (s : State) (w : Option GenWait) : (s.setWait w).nowCeil = s.nowCeil := rfl

theorem State.setWait_commitInstant (s : State) (w : Option GenWait) (c : Cmd) : (s.setWait w).commitInstant c = s.commitInstant c := by
  rw [State.commitInstant, State.commitInstant, State.setWait_nowNs, State.setWait_nowCeil]

theorem State.setWait_buildGen (s : State) (w : Option GenWait) : (s.setWait w).buildGen = s.buildGen := by
  rw [State.buildGen, State.buildGen, State.activeGen, State.activeGen, State.setWait_fget]

theorem State.setWait_genSeq (s : State) (w : Option GenWait) (g : Nat) : (s.setWait w).genSeq g = s.genSeq g := State.setWait_fget _ _ _

theorem genBody_commit (c : Cmd) (d : HostData) (late : List Nat) (s : State) :
    genBody ⟨0x0302, c, d, late⟩ s = genCommit ⟨0x0302, c, d, late⟩ s := by simp only [genBody]

/-- An armed commit answers its instant and the build it closes. -/
theorem genCommitNow_arms {r : GenReq} {again : Bool} {s : State} {t : Nat} (ho : s.buildOpen = true)
    (hh : s.fget Fld.GEN_STATE_HOLDER = s.cmdMaster r.cmd) (ht : s.commitInstant r.cmd = .ok t) (hl : s.liveCount < 3) :
    genCommitNow r again s = ((s.setWait none).armCommit t r.late, .done stOK (t % 1000000000 + 2 ^ 32 * (t / 1000000000 % 2 ^ 32))
      (t / 1000000000 / 2 ^ 32 % 2 ^ 16 + 2 ^ 16 * s.buildGen + 2 ^ 32 * s.genSeq s.buildGen)) := by
  have hheld : (s.setWait none).heldBuild ((s.setWait none).cmdMaster r.cmd) = none := State.heldBuild_none ho hh
  have hlive : ¬ 3 ≤ (s.setWait none).liveCount := Nat.not_le.mpr hl
  rw [genCommitNow]
  simp only [hheld, State.setWait_commitInstant, ht, if_neg hlive, State.setWait_buildGen, State.setWait_genSeq, ok]

/-- Settles O25: each body has one branch under the clause's conditions. -/
theorem generationCommandsComplete : Obligations.GenerationCommandsComplete := by
  unfold Obligations.GenerationCommandsComplete
  intro s c hfree
  refine ⟨?_, fun late t h hb ho hh ht hl => ?_, fun h hp hh ht => ?_, fun h hb ho hh => ?_, fun h => ?_, ?_⟩
  · intro g seq h ho hp hf
    obtain ⟨t, hbody, hopen⟩ := genOpen_opens (runs_iff.mp h).2 ho hp hf
    exact ⟨t, genCmd_runs hfree h fun _ => hbody, hopen⟩
  · refine genCmd_runs (late := late) hfree h fun hr => ?_
    rw [genBody_commit, genCommit, if_neg (by simp [hr]), if_neg (by simp [hb]), genCommitNow_arms ho hh ht hl]
  · obtain ⟨t, hbody, hback⟩ := genCancel_reopens (runs_iff.mp h).2 hp hh ht
    exact ⟨t, genCmd_runs hfree h fun _ => hbody, hback⟩
  · obtain ⟨t, hbody, hwalk⟩ := genAbandonNow_walks ⟨0x0304, c, .bytes [], []⟩ s
    refine ⟨t, genCmd_runs_later hfree h fun hr => ?_, hwalk⟩
    change genAbandon _ s = _
    rw [genAbandon, if_neg (by simp [hr]), State.heldBuild_none ho hh]
    dsimp only
    rw [hb, if_neg (by decide), hbody]
  · refine genCmd_runs hfree h fun hr => ?_
    change genQuery c s = _
    rw [genQuery, if_neg (by simp [hr])]
    rfl
  · intro t m h ht hlo hhi ho hp hroom
    refine genCmd_runs hfree h fun hr => ?_
    change genSetMargin c s = _
    rw [genSetMargin, if_neg (by simp [hr]), if_neg (by omega), if_neg (by simp [ho, hp]), if_neg (Nat.not_lt.mpr hroom)]
    rfl

/-- The build becomes ACTIVE, the generation before it DRAINING (R95). -/
theorem execGenActivation_activates {s : State} {a : Arm} (harm : s.gen.arm = some a) (ho : s.off = false) (hp : s.commitPending = true)
    (hst : s.genStateOf a.build = genPending) (hb : a.build < 4) (hact : (s.waitFor (a.instant / 4)).activeGen < 4)
    (hne : (s.waitFor (a.instant / 4)).activeGen ≠ a.build) :
    ∃ t : State, execGenActivation s = .next t ∧ t.activeGen = a.build ∧ t.genStateOf a.build = genActive ∧
      t.genStateOf (s.waitFor (a.instant / 4)).activeGen = genDraining ∧ t.commitPending = false ∧ t.fget Fld.GEN_STATE_HOLDER = 0 := by
  let old := (s.waitFor (a.instant / 4)).activeGen
  let s2 := (((s.waitFor (a.instant / 4)).fset (fldGenState old) genDraining).fset (fldGenState a.build) genActive).fset Fld.GEN_STATE_ACTIVE a.build
  let s3 := (s2.fset Fld.GEN_STATE_PENDING 0).fset Fld.GEN_STATE_HOLDER 0
  let s4 : State := { s3 with gen := { s3.gen with superseded := Assoc.put s3.gen.superseded 0 old (a.instant / 4) } }
  have hread : ∀ f : Fld, f.reg = Reg.GEN_STATE → (s4.setEvent Fld.GEN_EVENT_ACTIVATED).fget f = s3.fget f := fun f hf => by
    rw [State.fget, State.setEvent_reg_plain (.inr (by rw [hf]; decide)) (by rw [hf]; decide), ← State.fget]
    exact State.withGen_fget _ _ _
  refine ⟨s4.setEvent Fld.GEN_EVENT_ACTIVATED, ?_, ?_, ?_, ?_, ?_, ?_⟩
  · rw [execGenActivation, harm]
    exact if_neg (by simp [ho, hp, hst])
  · rw [State.activeGen, hread _ rfl, State.fget_fset_apart _ _ _ _ (by decide) (by decide), State.fget_fset_apart _ _ _ _ (by decide) (by decide),
      State.fget_fset_same _ _ _ (by decide)]
    exact Nat.mod_eq_of_lt hb
  · rw [State.genStateOf, hread _ rfl, State.fget_fset_apart _ _ _ _ (by decide) (by simp only [fldGenState, Fld.GEN_STATE_HOLDER]; omega),
      State.fget_fset_apart _ _ _ _ (by decide) (by simp only [fldGenState, Fld.GEN_STATE_PENDING]; omega),
      State.fget_fset_apart _ _ _ _ (by decide) (by simp only [fldGenState, Fld.GEN_STATE_ACTIVE]; omega),
      State.fget_fset_same _ _ _ (by simp only [fldGenState]; omega)]
    rfl
  · rw [State.genStateOf, hread _ rfl, State.fget_fset_apart _ _ _ _ (by decide) (by simp only [fldGenState, Fld.GEN_STATE_HOLDER]; omega),
      State.fget_fset_apart _ _ _ _ (by decide) (by simp only [fldGenState, Fld.GEN_STATE_PENDING]; omega),
      State.fget_fset_apart _ _ _ _ (by decide) (by simp only [fldGenState, Fld.GEN_STATE_ACTIVE]; omega),
      State.fget_fset_apart _ _ _ _ (by simp only [fldGenState]; omega) (genState_apart hne.symm),
      State.fget_fset_same _ _ _ (by simp only [fldGenState]; omega)]
    rfl
  · rw [State.commitPending, State.fbit, hread _ rfl, State.fget_fset_apart _ _ _ _ (by decide) (by decide), State.fget_fset_same _ _ _ (by decide)]
    rfl
  · rw [hread _ rfl, State.fget_fset_same _ _ _ (by decide)]
    rfl

/-- Settles O26: each event's own branch; activation and the end of a move by their lemmas. -/
theorem generationEventsTakeEffect : Obligations.GenerationEventsTakeEffect := by
  unfold Obligations.GenerationEventsTakeEffect
  intro s
  refine ⟨fun a harm ho hp hst hb hact hne hkeep => ?_, fun g hg ho hd => ?_, fun r hw => ?_, fun r hw hq => ?_, fun w ws hw hm ha => ?_,
    fun g hg hst hl ho => ?_, fun m hm hw hh => ?_⟩
  · have h := execGenActivation_activates harm ho hp hst hb (by rw [hkeep]; exact hact) (by rw [hkeep]; exact hne)
    rwa [hkeep] at h
  · change ∃ t, execGenRetirement s = .next t ∧ _
    refine ⟨_, by rw [execGenRetirement, hg]; exact if_neg (by simp [ho, hd]), ?_, ?_⟩
    · rw [State.setEvent_gen, State.shadowLost_gen]
      exact List.mem_append_right _ (.head _)
    · rw [State.setEvent_gen, State.shadowLost_gen, State.fset_gen]
  · change execGenCommitRetry s = _
    rw [execGenCommitRetry, hw]
  · change execGenCommitWaitExpiry s = _
    rw [execGenCommitWaitExpiry, hw]
    exact congrArg Host.Outcome.next (State.genNext_idle (by rw [State.complete_gen]; exact hq))
  · intro s1 s2
    change execJournalWalkEnd s = _
    rw [execJournalWalkEnd, hw]
    dsimp only
    rw [hm, if_neg (by decide), ha]
    rfl
  · refine if_neg ?_
    simp [hst, hl, ho]
    exact hg
  · change ∃ t, execCamMoveDone s = .next t ∧ _
    let s1 : State := { s with tab := { s.tab with
      cam := s.tab.cam.map fun v => { v with val := { v.val with idx := m.shift v.val.idx } }
      camBad := s.tab.camBad.map fun b => 16 * m.shift (b / 16) + b % 16, camMove := none, camHeld := [] } }
    let s2 := ((s1.fset Fld.CAM_STATUS_MOVING 0).setEvent Fld.CAM_EVENT_MOVE_DONE).complete m.cmd 0x0605 stOK (m.last - m.first + 1) 0
    obtain ⟨hcam, hheld, hgen⟩ := State.camResume_tables ((s2.setWait none).setWait s2.gen.wait)
    have htab : s2.tab = s1.tab := by simp only [s2, State.complete_tab, State.setEvent_tab, State.fset_tab]
    have hwait : s2.gen.wait = none := by simp only [s2, State.complete_gen, State.setEvent_gen, State.fset_gen]; exact hw
    refine ⟨((s2.setWait none).setWait s2.gen.wait).camResume, ?_, hcam.trans (congrArg TabState.cam htab), hheld.trans (congrArg TabState.camHeld htab)⟩
    rw [execCamMoveDone, hm]
    dsimp only
    rw [hh, camHeldRun]
    exact congrArg Host.Outcome.next (State.genResume_idle ((congrArg GenState.wait hgen).trans hwait))

end Sys2Proof.Machine
end
section
/-! SUPPORT. A write of an indexed table that its context and the version rules accept (03 R99, R102). -/

namespace Sys2Proof.Machine
open Sys2Proof

theorem State.idxWrite_done {s t : State} {c : Cmd} {tb : IdxTable} {ctx : WriteCtx} {op idx bits : Nat} {refsOk : Nat → Bool} {refs : Nat → Nat}
    (hctx : s.writeCtx (s.cmdMaster c) = .ok ctx) (h : s.idxApply tb ctx (verOpOf op) idx bits (refsOk ctx.gen) (refs ctx.gen) = .ok t) :
    s.idxWrite c tb op idx bits refsOk refs = (t, .done stOK 0 0) := by
  rw [State.idxWrite, hctx]
  dsimp only
  rw [h]

theorem routeWrite_done {s t : State} {c : Cmd} {ctx : WriteCtx} {opcode r0 : Nat} {op : VerOp} (h : s.runs opcode 2 2 c [(0, 64)] [(0, 64)] routeFields = true)
    (hctx : s.writeCtx (s.cmdMaster c) = .ok ctx) (hc : (cmdRoute c).check op = none) (ha : s.routeApply ctx op (cmdRoute c) = .ok (t, r0)) :
    routeWrite opcode op c s = .next (t.complete c opcode stOK r0 0) := by
  refine runCmd_runs h fun hr => ?_
  rw [if_neg (by simp [hr]), hc]
  dsimp only
  rw [hctx]
  dsimp only
  rw [ha]

end Sys2Proof.Machine
end
section
/-! CERTIFICATES. The commands of chapter 07 (O27, O28). -/

namespace Sys2Proof.Machine
open Sys2Proof

/-- Settles O27: each command's body has one branch under a write context that is accepted. -/
theorem prefixWritesComplete : Obligations.PrefixWritesComplete := by
  unfold Obligations.PrefixWritesComplete
  intro s t c ctx r0 hctx
  refine ⟨fun x hx h hc ha => ?_, fun b got h hn => ?_, ?_, ?_⟩
  · simp only [List.mem_cons, List.not_mem_nil, or_false] at hx
    obtain rfl | rfl | rfl := hx <;> exact routeWrite_done h hctx hc ha
  · intro r hok
    refine runCmd_runs h fun hr => ?_
    dsimp only
    rw [if_neg (by simp [hr]), if_neg hn, hctx]
    dsimp only
    rw [if_neg (not_not.mpr hok)]
  · intro x op i h hop hrefs ha
    refine runCmd_runs h fun hr => ?_
    dsimp only
    rw [if_neg (by simp [hr]), if_neg (by rintro (h3 | ⟨h2, hbig⟩); exacts [hop h3, (hrefs h2).elim fun ha he => hbig.elim (Nat.not_lt.mpr ha) (Nat.not_lt.mpr he)])]
    exact State.idxWrite_done hctx ha
  · intro i h hop d u a b hg
    refine runCmd_runs h fun hr => ?_
    dsimp only
    rw [if_neg (by simp [hr]), if_neg (by omega)]
    exact hg

/-- Settles O28: each body has one branch under the clause's conditions. -/
theorem prefixReadsComplete : Obligations.PrefixReadsComplete := by
  unfold Obligations.PrefixReadsComplete
  intro s c
  refine ⟨fun upsets v => ?_, fun upsets => ?_, fun v h hg hv hb => ?_, fun x b h hg hx hblk => ?_⟩
  · intro g r s1 hdata h hc hg hfind hbad
    refine runCmd_runs h fun hr => ?_
    dsimp only
    rw [if_neg (by simp [hr]), show (cmdRoute c).check .delete = none from hc]
    dsimp only
    rw [if_neg (by rw [show s.genReadable (c.fld 41 0 2) = true from hg]; decide), if_neg (by simp [hdata]), hfind]
    dsimp only
    rw [if_neg (by simp [hbad])]
    rfl
  · intro g r s0 hdata h hlen hg s1 x
    refine runCmd_runs h fun hr => ?_
    dsimp only
    rw [if_neg (by simp [hr]), if_neg (Nat.not_lt.mpr hlen), if_neg (by rw [show s.genReadable (c.fld 41 0 2) = true from hg]; decide), if_neg (by simp [hdata])]
    rfl
  · refine runCmd_runs h fun hr => ?_
    rw [if_neg (by simp [hr]), if_neg (by simp [hg]), hv]
    dsimp only
    rw [if_neg (by simp [hb])]
    rfl
  · refine runCmd_runs h fun hr => ?_
    rw [if_neg (by simp [hr]), if_neg (by simp [hg]), hx]
    dsimp only
    rw [hblk]
    rfl

end Sys2Proof.Machine
end
section
/-! SUPPORT. The exact-match operations under accepted checks (08 R263, R264). -/

namespace Sys2Proof.Machine
open Sys2Proof

theorem runCmd_runs_exists {s t : State} {op lo hi st r1 : Nat} {c : Cmd} {a0 a1 : List (Nat × Nat)} {pl : List (Nat × Nat × Nat)}
    {body : State → State × Done} (h : s.runs op lo hi c a0 a1 pl = true)
    (hb : c.resv a0 a1 pl = false → ∃ r0, body s = (t, .done st r0 r1)) : ∃ r0, runCmd op lo hi c s body = .next (t.complete c op st r0 r1) :=
  (hb (runs_iff.mp h).2).imp fun _ hr => runCmd_done (runs_iff.mp h).1 hr

theorem ok_or_ok (p : Prop) [Decidable p] (t : State) (a b r1 : Nat) :
    (if p then ok t a r1 else ok t b r1) = (t, .done stOK (if p then a else b) r1) := by
  split <;> rfl

theorem State.exmWrite_done {s t : State} {m : Nat} {op : VerOp} {k result rkind r0 : Nat} {ctx : WriteCtx}
    (hc : s.exmCheck k (if op = .delete then none else some (result, rkind)) = none) (hctx : s.writeCtx m = .ok ctx)
    (ha : s.exmApply ctx op k result rkind = .ok (t, r0)) : s.exmWrite m op k result rkind = (t, stOK, r0) := by
  rw [State.exmWrite, hc]
  dsimp only
  rw [hctx]
  dsimp only
  rw [ha]

theorem exmWriteCmd_done {s t : State} {c : Cmd} {opcode r0 : Nat} {op : VerOp} {upsets : List Upset}
    (h : s.runs opcode 3 3 c [] [] (if op = .delete then exmKeyFields else exmDataFields) = true)
    (hw : (upsets.foldl State.exmUpset (s.hbfUes 17 upsets)).exmWrite (s.cmdMaster c) op (cmdKey c) (c.fld 80 0 24) (c.fld 83 0 2) = (t, stOK, r0)) :
    exmWriteCmd opcode op c upsets s = .next (t.complete c opcode stOK r0 0) := by
  refine runCmd_runs h fun hr => ?_
  rw [hr, if_neg (by decide), hw]

theorem State.exmReadKey_found {s : State} {k g : Nat} {v : Ver ExmEntry} (hc : s.exmCheck k none = none) (hg : s.genReadable g = true)
    (hb : s.exmBad (tblOf k) (keyOf k) = false)
    (hf : s.tab.exm.find? (fun v => v.val.isKey (tblOf k) (keyOf k) && s.visible v.tag g) = some v) : s.exmReadKey k g = .ok v := by
  rw [State.exmReadKey, hc]
  dsimp only
  rw [if_neg (by simp [hg]), if_neg (by simp [hb]), hf]

theorem State.exmUnlearn_found {s : State} {k : Nat} {v : Ver ExmEntry} (hc : s.exmCheck k none = none)
    (hb : s.exmBad (tblOf k) (keyOf k) = false)
    (hf : s.tab.exm.find? (fun w => verLearned w && w.val.isKey (tblOf k) (keyOf k)) = some v) :
    s.exmUnlearn k = ({ s with tab := { s.tab with exm := s.tab.exm.filter fun w => !(verLearned w && w.val.isKey (tblOf k) (keyOf k)) } },
      stOK, v.val.result % 128) := by
  rw [State.exmUnlearn, hc]
  dsimp only
  rw [if_neg (by simp [hb]), hf]

end Sys2Proof.Machine
end
section
/-! CERTIFICATES. The exact-match commands (O29). -/

namespace Sys2Proof.Machine
open Sys2Proof

/-- Settles O29: each body has one branch under the clause's conditions. -/
theorem exactMatchCommandsComplete : Obligations.ExactMatchCommandsComplete := by
  unfold Obligations.ExactMatchCommandsComplete
  intro s c
  refine ⟨fun upsets x hx => ?_, fun upsets v => ?_, fun upsets v => ?_, fun upsets v => ?_, fun upsets => ?_, fun h hen => ?_⟩
  · intro s1 ctx t r0 h hc hctx ha
    have hw := State.exmWrite_done hc hctx ha
    simp only [List.mem_cons, List.not_mem_nil, or_false] at hx
    obtain rfl | rfl | rfl := hx <;> exact exmWriteCmd_done h hw
  · intro s1 h hc hg hb hf
    refine runCmd_runs h fun hr => ?_
    rw [hr, if_neg (by decide)]
    dsimp only
    rw [State.exmReadKey_found hc hg hb hf]
    rfl
  · intro hit s1 h hc hb hf
    refine runCmd_runs h fun hr => ?_
    rw [hr, if_neg (by decide), State.exmUnlearn_found hc hb hf]
  · intro s1 h hcur hg hf hb
    refine runCmd_runs h fun hr => ?_
    rw [hr, if_neg (by decide), hcur, if_neg (by decide), hg, if_neg (by decide)]
    dsimp only
    rw [show (upsets.foldl State.exmUpset (s.hbfUes 17 upsets)).exmNextFrom c.arg0 (bitsAt c.arg1 0 2) (fun _ => true) = some v from hf]
    dsimp only
    rw [hb]
    rfl
  · intro g start s1 vs h hcur hmax hg hb
    refine (runCmd_runs_exists (t := ((s1.emit (.hostWrite (c.fld 32 0 64) (vs.flatMap exmRecord))).free 2).2) (r1 := vs.length) (st := stOK)
      h fun hr => ?_).elim fun r0 hx => ⟨_, r0, hx, rfl, rfl, rfl⟩
    rw [hr, if_neg (by decide), if_neg (by rw [show cursorOk (bitsAt c.arg0 0 32) = true from hcur]; simp [hmax]),
      show s.genReadable (bitsAt c.arg1 0 2) = true from hg, if_neg (by decide)]
    dsimp only
    rw [if_neg (by rw [hb]; decide)]
    exact ⟨_, ok_or_ok _ _ _ _ _⟩
  · intro r
    refine runCmd_runs h fun hr => ?_
    rw [hr, if_neg (by decide)]
    dsimp only
    rw [if_neg (by rcases hen with hall | hen <;> simp [*])]
    rfl

end Sys2Proof.Machine
end
section
/-! SUPPORT. What a saturating count reads, and what the tables leave a register. -/

namespace Sys2Proof.Machine
open Sys2Proof

theorem State.satAdd_fget (s : State) (f : Fld) (n : Nat) (h : f.lo + f.w ≤ 32) : (s.satAdd f n).fget f = min (s.fget f + n) (2 ^ f.w - 1) := by
  rw [State.satAdd, State.fget_fset_same _ _ _ h]
  exact Nat.mod_eq_of_lt (lt_of_le_of_lt (min_le_right _ _) (Nat.sub_lt (Nat.two_pow_pos _) Nat.one_pos))

theorem State.withTab_fget (s : State) (t : TabState) (f : Fld) : ({ s with tab := t } : State).fget f = s.fget f := State.fget_congr rfl _

end Sys2Proof.Machine
end
section
/-! CERTIFICATES. The tables' own events (O30): one lemma per event that has more than one branch. -/

namespace Sys2Proof.Machine
open Sys2Proof

theorem execTableDoubling_moves {s : State} {family len done : Nat} {t : LenTable} (ht : Assoc.find s.tab.lens (lenKey family len) = some t)
    (hd : t.split = some done) : execTableDoubling family len s = .next { s with tab := { s.tab with
      lens := Assoc.insert s.tab.lens (lenKey family len) (if done + 1 = 2 ^ t.log2 then ⟨t.log2 + 1, none⟩ else { t with split := some (done + 1) }) } } := by
  rw [execTableDoubling]
  dsimp only
  rw [ht]
  dsimp only
  rw [hd]
  dsimp only
  split <;> rfl

theorem execOverflowReturn_places {s : State} {n k : Nat} {v : Ver LpmEntry} {p : LpmPlace} (hv : s.tab.lpm[n]? = some v)
    (hk : v.val.place = .overflow k) (hp : s.lpmPlace v.val.family v.val.vrf v.val.len v.val.pfx = some p) (hno : ∀ j, p ≠ .overflow j) :
    execOverflowReturn n s = .next { s with tab := { s.tab with
      lpm := modifyAt (fun (w : Ver LpmEntry) => { w with val := { w.val with place := p } }) n s.tab.lpm } } := by
  rw [execOverflowReturn, hv]
  dsimp only
  rw [hk, hp]
  cases p with
  | overflow j => exact absurd rfl (hno j)
  | _ => rfl

theorem execFilterRebuild_ends {s : State} {family len units : Nat} {r : FiltRegion} (hr : Assoc.find s.tab.filt (lenKey family len) = some r)
    (hu : r.rebuild = some units) : execFilterRebuild family len s = .next { s with tab := { s.tab with
      filt := Assoc.insert s.tab.filt (lenKey family len) ⟨units,
        ((s.tab.lpm.filter fun v => v.val.family == family && v.val.len == len).map fun v => v.val.keyNum).eraseDups, 0, none, false⟩ } } := by
  rw [execFilterRebuild]
  dsimp only
  rw [hr]
  dsimp only
  rw [hu]

theorem State.shadowRecords_bytes {s : State} {u : ShadowUnit} {b : List Byte} (h : s.fbit (u.fld 3 1) = true) :
    s.shadowRecords u (.bytes b)
      = if (shadowRun u (chunks u.recBytes (min (s.fget u.count - s.fget u.done) (b.length / u.recBytes)) b) (s.fget u.done) s).fget u.count
            ≤ (shadowRun u (chunks u.recBytes (min (s.fget u.count - s.fget u.done) (b.length / u.recBytes)) b) (s.fget u.done) s).fget u.done
        then (shadowRun u (chunks u.recBytes (min (s.fget u.count - s.fget u.done) (b.length / u.recBytes)) b) (s.fget u.done) s).shadowEnd u
        else shadowRun u (chunks u.recBytes (min (s.fget u.count - s.fget u.done) (b.length / u.recBytes)) b) (s.fget u.done) s := by
  rw [State.shadowRecords, h, if_neg (by decide)]

theorem execMoveProcess_observes {s : State} {r : LearnReq} {rest : List LearnReq} {v : Ver ExmEntry} (hq : s.tab.learnQ = r :: rest) (hm : r.move = true)
    (hf : s.tab.exm.find? (fun v => v.val.isKey (tblOf r.key) (keyOf r.key) && verLearned v) = some v)
    (hne : v.val.result ≠ State.learnResult { s with tab := { s.tab with learnQ := s.tab.learnQ.erase r } } r.port) :
    execMoveProcess s = .next (State.moveObserve { s with tab := { s.tab with learnQ := s.tab.learnQ.erase r } } r.key r.port) := by
  have hfirst : s.tab.learnQ.find? (·.move) = some r := by rw [hq, List.find?_cons_of_pos (by exact hm)]
  have hahead : (s.tab.learnQ.takeWhile fun q => q != r) = [] := by rw [hq, List.takeWhile_cons_of_neg (by simp)]
  rw [execMoveProcess, hfirst]
  dsimp only
  rw [hahead, if_neg (by simp), hf]
  dsimp only
  rw [if_neg hne]

theorem execLearnProcess_places {s : State} {r : LearnReq} {rest : List LearnReq} (hq : s.tab.learnQ = r :: rest) (hm : r.move = false)
    (hf : State.exmStored { s with tab := { s.tab with learnQ := rest } } (tblOf r.key) (keyOf r.key) = none) :
    execLearnProcess s = .next (State.learnPlace { s with tab := { s.tab with learnQ := rest } } r.key r.port) := by
  rw [execLearnProcess, hq]
  dsimp only
  rw [hf]
  dsimp only
  rw [hm, if_neg (by decide)]

theorem execAgeRemovalCheck_removes {s : State} {cursor : Nat} {v : Ver ExmEntry}
    (hf : s.tab.exm.find? (fun v => v.val.cursor == cursor && v.val.aging && verLearned v) = some v) (hh : v.val.hit = false) :
    execAgeRemovalCheck cursor s
      = .next (State.satAdd { s with tab := { s.tab with exm := s.tab.exm.filter (·.val.cursor != cursor) } } Fld.EXM_AGED_CNT_COUNT 1) := by
  rw [execAgeRemovalCheck, hf]
  dsimp only
  rw [hh, if_neg (by decide)]

theorem execAgeRemovalCheck_rejuvenates {s : State} {cursor : Nat} {v : Ver ExmEntry}
    (hf : s.tab.exm.find? (fun v => v.val.cursor == cursor && v.val.aging && verLearned v) = some v) (hh : v.val.hit = true) :
    ∃ upd : Ver ExmEntry → Ver ExmEntry, execAgeRemovalCheck cursor s
      = .next (State.satAdd { s with tab := { s.tab with exm := s.tab.exm.map upd } } Fld.EXM_AGE_KEPT_CNT_COUNT 1) := by
  rw [execAgeRemovalCheck, hf]
  dsimp only
  rw [hh, if_pos rfl]
  exact ⟨_, rfl⟩

/-- Settles O30: each event has one branch under the clause's conditions. -/
theorem tableEventsTakeEffect : Obligations.TableEventsTakeEffect := by
  unfold Obligations.TableEventsTakeEffect
  intro s
  refine ⟨fun family len t done ht hd => execTableDoubling_moves ht hd, fun n v k p hv hk hp hno => execOverflowReturn_places hv hk hp hno,
    fun family len r units hr hu => execFilterRebuild_ends hr hu, fun upsets => rfl, fun x hx b => ?_,
    fun r rest hq hm => execLearnProcess_places hq hm, fun r rest v hq hm => execMoveProcess_observes hq hm,
    fun key => ⟨_, rfl, fun m hm => ?_, rfl⟩, fun hp late => if_neg hp, fun cursor v hf => ⟨execAgeRemovalCheck_removes hf, fun hh => ?_⟩⟩
  · simp only [List.mem_cons, List.not_mem_nil, or_false] at hx
    obtain rfl | rfl | rfl := hx <;> exact fun h => congrArg Host.Outcome.next (State.shadowRecords_bytes h)
  · simpa using (List.mem_filter.mp hm).2
  · obtain ⟨upd, hx⟩ := execAgeRemovalCheck_rejuvenates hf hh
    refine ⟨_, hx, ?_, ?_⟩
    · rw [State.satAdd_tab, List.length_map]
    · exact (State.satAdd_fget _ _ _ (by decide)).trans (by rw [State.withTab_fget]; rfl)

end Sys2Proof.Machine
end
section
/-! SUPPORT. A ternary write under its context, and a read of an indexed table. -/

namespace Sys2Proof.Machine
open Sys2Proof

theorem State.camWriteNow_done {s t : State} {c : Cmd} {ctx : WriteCtx} {opcode slot : Nat} {freed : Bool} {op : VerOp}
    (hop : (if opcode = 0x0601 then VerOp.insert else if opcode = 0x0602 then .replace else .delete) = op) (hctx : s.writeCtx (s.cmdMaster c) = .ok ctx)
    (ha : s.camApply ctx op (bitsAt c.arg0 0 15) (bitsAt c.arg0 16 15) (if op = .delete then 0 else camEntry c) = .ok (t, freed, slot)) :
    s.camWriteNow opcode c = (t, .done stOK (if op = .delete then b2n freed else if op = .insert then camWeight (camEntry c)
      else slot + 2 ^ 16 * camWeight (camEntry c)) 0) := by
  rw [State.camWriteNow, hop, hctx]
  dsimp only
  rw [ha]
  cases op <;> rfl

theorem camWriteCmd_done {s t : State} {c : Cmd} {ctx : WriteCtx} {opcode lo slot : Nat} {a0 : List (Nat × Nat)} {freed : Bool} {op : VerOp}
    (hop : (if opcode = 0x0601 then VerOp.insert else if opcode = 0x0602 then .replace else .delete) = op)
    (h : s.runs opcode lo lo c a0 [] (if opcode = 0x0603 then [] else camFields) = true)
    (hmask : opcode ≠ 0x0603 → Nat.land (c.fld 32 0 480) (c.fld 92 0 480) = c.fld 32 0 480) (hheld : s.camHolds opcode c = false)
    (hctx : s.writeCtx (s.cmdMaster c) = .ok ctx)
    (ha : s.camApply ctx op (bitsAt c.arg0 0 15) (bitsAt c.arg0 16 15) (if op = .delete then 0 else camEntry c) = .ok (t, freed, slot)) :
    camWriteCmd opcode lo a0 c s = .next (t.complete c opcode stOK (if op = .delete then b2n freed else if op = .insert then camWeight (camEntry c)
      else slot + 2 ^ 16 * camWeight (camEntry c)) 0) := by
  refine runCmd_runs h fun hr => ?_
  rw [hr, if_neg (by decide), if_neg fun hm => hm.2 (hmask hm.1), hheld, if_neg (by decide), State.camWriteNow_done hop hctx ha]

/-- A move of free target slots starts: its registers and the move itself. -/
theorem State.camMoveStart_starts {s : State} {m : CamMove} {d : Nat} (hd : m.dest = some d) (hfree : s.camSlot d = none) :
    ∃ t : State, s.camMoveStart m = (t, .later) ∧ t.tab = { s.tab with camMove := some m } ∧ t.fbit Fld.CAM_STATUS_MOVING = true := by
  rw [State.camMoveStart, hd]
  dsimp only
  rw [if_neg (by simp [hfree])]
  refine ⟨_, rfl, ?_, ?_⟩
  · simp only [State.fset_tab]
  · exact fbit_fset_b2n _ (f := Fld.CAM_STATUS_MOVING) (by decide) (by decide) true

end Sys2Proof.Machine
end
section
/-! CERTIFICATES. The commands of the ternary classifier and of the action and editing tables (O31, O32, O33). -/

namespace Sys2Proof.Machine
open Sys2Proof

/-- Settles O31: each body has one branch under the clause's conditions. -/
theorem camCommandsComplete : Obligations.CamCommandsComplete := by
  unfold Obligations.CamCommandsComplete
  intro s c
  refine ⟨fun x hx => ?_, fun h hg => ?_, fun d => ?_, fun h => ?_, fun slice h hg hs => ?_, fun upsets => rfl⟩
  · intro op ctx t freed slot h hmask hheld hctx ha
    simp only [List.mem_cons, List.not_mem_nil, or_false] at hx
    obtain rfl | rfl | rfl := hx <;> exact camWriteCmd_done rfl h hmask hheld hctx ha
  · refine runCmd_runs h fun hr => ?_
    rw [hr, if_neg (by decide), hg, if_neg (by decide)]
    rfl
  · intro m h hle hd hown hm hw hfree
    obtain ⟨t, ht, hkept⟩ := State.camMoveStart_starts hd hfree
    refine ⟨t, runCmd_runs_later h fun hr => ?_, hkept⟩
    dsimp only
    rw [hr, if_neg (by decide), if_neg (by rw [show (CamMove.mk _ _ _ _).dest = some d from hd]; simpa using hle), hown, if_neg (by decide),
      if_neg (by simp [hm, hw])]
    exact ht
  · refine runCmd_runs h fun hr => ?_
    rw [hr, if_neg (by decide)]
    rfl
  · refine runCmd_runs h fun hr => ?_
    rw [hr, if_neg (by decide), hg, if_neg (by decide), hs]
    rfl

/-- Settles O32: each write ends in the one write of an indexed table or of a group. -/
theorem indexedWritesComplete : Obligations.IndexedWritesComplete := by
  unfold Obligations.IndexedWritesComplete
  intro s t c ctx hctx op hop
  have hop3 : bitsAt c.arg0 24 2 ≠ 3 := Nat.ne_of_lt hop
  refine ⟨fun h hbits hact ha => ?_, fun h hi hpol ha => ?_, fun h hi ha => ?_, fun h hi hmir ha => ?_, fun h hi henc ha => ?_, fun h hi htm ha => ?_,
    fun h d u r0 r1 hg => ?_⟩ <;> refine runCmd_runs h fun hr => ?_ <;> dsimp only <;> rw [hr]
  · have hbit : ∀ k, 60 ≤ k ∧ k < 60 + 4 → bitAt (c.fld 32 0 256) k = false := fun k => bitAt_of_bitsAt_zero hbits
    rw [hbit 60 (by decide), hbit 61 (by decide), hbit 62 (by decide), hbit 63 (by decide), if_neg (by decide), if_neg hop3,
      if_neg fun hbad => by simpa [hact hbad.1] using hbad.2]
    exact State.idxWrite_done hctx ha
  · rw [if_neg (by decide), if_neg (not_or.mpr ⟨hi, hop3⟩), if_neg fun hbad => hbad.2.elim (hpol hbad.1).1 (hpol hbad.1).2]
    exact State.idxWrite_done hctx ha
  · rw [if_neg (by decide), if_neg (not_or.mpr ⟨hi, hop3⟩)]
    exact State.idxWrite_done hctx ha
  · rw [if_neg (by decide), if_neg, if_neg]
    · exact State.idxWrite_done hctx ha
    · rintro ⟨hne, hlo, hhi⟩
      have := (hmir hne).2
      omega
    · rintro (h0 | h3 | ⟨hne, hbig⟩)
      · exact hi h0
      · exact hop3 h3
      · have := hmir hne
        omega
  · rw [if_neg (by decide), if_neg (not_or.mpr ⟨hi, hop3⟩), if_neg]
    · exact State.idxWrite_done hctx ha
    · rintro ⟨hne, hl2 | ⟨htag, hl2⟩⟩
      · exact (henc hne).1 hl2
      · exact (henc hne).2.elim (fun hx => hx htag) fun hx => hx hl2
  · rw [if_neg (by decide), if_neg (not_or.mpr ⟨hi, hop3⟩), if_neg fun hbad => by simpa [htm hbad.1] using hbad.2]
    exact State.idxWrite_done hctx ha
  · rw [if_neg (by decide), if_neg hop3]
    exact hg

/-- Settles O33: each body has one branch under the clause's conditions. -/
theorem actionReadsAndCountersComplete : Obligations.ActionReadsAndCountersComplete := by
  unfold Obligations.ActionReadsAndCountersComplete
  intro s c
  refine ⟨fun x h hx => ?_, fun x h hi hx => ?_, fun h ht hc => ?_, fun h => ?_, fun x b h hx hb hbad => ?_, fun h => ?_, ?_, fun x h hi hx => ?_,
    fun x h hi hx => ?_, fun x h hi hx => ?_, fun v h hi hg hv hb => ?_, fun hf upsets => if_neg hf⟩
  · refine runCmd_runs h fun hr => ?_
    rw [hr, if_neg (by decide), hx]
    rfl
  · refine runCmd_runs h fun hr => ?_
    rw [hr, if_neg (by decide), if_neg hi, hx]
    rfl
  · refine runCmd_runs h fun hr => ?_
    dsimp only
    rw [hr, if_neg (by decide), if_neg (by omega), hc, if_neg (by decide)]
    rfl
  · refine runCmd_runs h fun hr => ?_
    rw [hr, if_neg (by decide)]
    rfl
  · refine runCmd_runs h fun hr => ?_
    rw [hr, if_neg (by decide), hx]
    dsimp only
    rw [hb]
    dsimp only
    rw [hbad, if_neg (by decide)]
    rfl
  · refine runCmd_runs h fun hr => ?_
    dsimp only
    rw [hr, if_neg (by decide)]
    rfl
  · intro ix s1 h hn hmax hend
    refine runCmd_runs h fun hr => ?_
    dsimp only
    rw [hr, if_neg (by decide), if_neg (by omega)]
    rfl
  · refine runCmd_runs h fun hr => ?_
    rw [hr, if_neg (by decide), if_neg hi, hx]
    rfl
  · refine runCmd_runs h fun hr => ?_
    rw [hr, if_neg (by decide), if_neg hi, hx]
    rfl
  · refine runCmd_runs h fun hr => ?_
    rw [hr, if_neg (by decide), if_neg hi, hx]
    rfl
  · refine runCmd_runs h fun hr => ?_
    rw [hr, if_neg (by decide), if_neg hi, hg, if_neg (by decide), hv]
    dsimp only
    rw [hb]
    rfl

end Sys2Proof.Machine
end
section
/-! SUPPORT. What the sender of pause frames leaves alone, and the limits a command sets (11 R319, R320). -/

namespace Sys2Proof.Machine
open Sys2Proof

theorem State.mibAdd_tm (s : State) (k counter n : Nat) : (s.mibAdd k counter n).tm = s.tm := by
  unfold State.mibAdd
  simp only [apply_ite State.tm, State.pmc_tm, ite_self]

theorem State.sendControl_tm (s : State) (p : Nat) (frame : List Byte) : (s.sendControl p frame).tm = s.tm := by
  rw [State.sendControl, State.emit_tm, State.mibAdd_tm]

theorem State.pfcUpdate_tm (s : State) (p k : Nat) : (s.pfcUpdate p k).tm = s.tm := by
  unfold State.pfcUpdate
  dsimp only
  split
  · rfl
  · split
    · rw [State.sendControl_tm, State.fset_tm]
    · split
      · rw [State.sendControl_tm, State.fset_tm]
      · rfl

/-- The traffic manager's state with one admission limit set. -/
def TmState.withLimit (tm : TmState) (kind port cls v xon : Nat) : TmState :=
  match kind with
  | 0 => { tm with limitPc := Assoc.put tm.limitPc limitReset (8 * port + cls) v }
  | 1 => { tm with limitP := Assoc.put tm.limitP limitReset port v }
  | 2 => { tm with limitC := Assoc.put tm.limitC limitReset cls v }
  | _ => { tm with pfcLimit := Assoc.put tm.pfcLimit (limitReset, limitReset - 1) (8 * port + cls) (v, xon) }

theorem State.limitValue_congr {s t : State} (h : t.tm = s.tm) (kind port cls : Nat) : t.limitValue kind port cls = s.limitValue kind port cls := by
  unfold State.limitValue
  rw [h]

theorem State.limitValue_withLimit (s : State) {kind : Nat} (hk : kind < 4) (port cls v xon : Nat) :
    State.limitValue { s with tm := s.tm.withLimit kind port cls v xon } kind port cls = v + (if kind = 3 then 2 ^ 32 * xon else 0) := by
  match kind, hk with
  | 0, _ | 1, _ | 2, _ => exact Assoc.get_put_same _ _ _ _
  | 3, _ => simp [State.limitValue, TmState.withLimit]

end Sys2Proof.Machine
end
section
/-! SUPPORT. A command that completes at once or waits, and the body of the fence commands (11 R340, R344). -/

namespace Sys2Proof.Machine
open Sys2Proof

theorem runCmd_runs_ite {s t u : State} {op lo hi st r0 r1 : Nat} {c : Cmd} {a0 a1 : List (Nat × Nat)} {pl : List (Nat × Nat × Nat)}
    {body : State → State × Done} {p : Prop} [Decidable p] (h : s.runs op lo hi c a0 a1 pl = true)
    (hb : c.resv a0 a1 pl = false → body s = if p then (t, .done st r0 r1) else (u, .later)) :
    runCmd op lo hi c s body = .next (if p then t.complete c op st r0 r1 else u) := by
  split
  next hp => exact runCmd_runs h fun hr => (hb hr).trans (if_pos hp)
  next hp => exact runCmd_runs_later h fun hr => (hb hr).trans (if_neg hp)

/-- A region is on its way out: it fences if it is awake, and parks when it is empty. -/
def State.takeOut (t : State) (r : Nat) : State :=
  let u := t.setRegion r { t.region r with leaving := true }
  (if (u.region r).state = regActive ∨ (u.region r).state = regWaking then u.setRegion r { u.region r with state := regFencing } else u).tryPark r

end Sys2Proof.Machine
end
section
/-! CERTIFICATES. The buffer's commands (O34). -/

namespace Sys2Proof.Machine
open Sys2Proof

theorem bufLimit_sets {s : State} {c : Cmd} (h : s.runs 0x0805 1 1 c [(0, 2), (8, 7), (16, 3), (24, 1)]
      (if bitsAt c.arg0 0 2 = 3 then [(0, 28), (32, 28)] else [(0, 28)]) [] = true) (hset : bitAt c.arg0 24 = false)
    (hxon : bitsAt c.arg0 0 2 = 3 → bitsAt c.arg1 32 28 < bitsAt c.arg1 0 28) :
    ∃ t : State, bufLimit c s = .next (t.complete c 0x0805 stOK (t.limitValue (bitsAt c.arg0 0 2) (bitsAt c.arg0 8 7) (bitsAt c.arg0 16 3)) 0) ∧
      t.limitValue (bitsAt c.arg0 0 2) (bitsAt c.arg0 8 7) (bitsAt c.arg0 16 3)
        = bitsAt c.arg1 0 28 + (if bitsAt c.arg0 0 2 = 3 then 2 ^ 32 * bitsAt c.arg1 32 28 else 0) := by
  let s1 : State := { s with tm := s.tm.withLimit (bitsAt c.arg0 0 2) (bitsAt c.arg0 8 7) (bitsAt c.arg0 16 3) (bitsAt c.arg1 0 28) (bitsAt c.arg1 32 28) }
  refine ⟨if bitsAt c.arg0 0 2 = 3 then s1.pfcUpdate (bitsAt c.arg0 8 7) (bitsAt c.arg0 16 3) else s1, runCmd_runs h fun hr => ?_, ?_⟩
  · dsimp only
    rw [hr, if_neg (by decide), hset, if_neg (by decide), if_neg fun hbad => Nat.not_le.mpr (hxon hbad.1) hbad.2]
    rfl
  · have htm : (if bitsAt c.arg0 0 2 = 3 then s1.pfcUpdate (bitsAt c.arg0 8 7) (bitsAt c.arg0 16 3) else s1).tm = s1.tm := by
      split
      · exact State.pfcUpdate_tm ..
      · rfl
    rw [State.limitValue_congr htm]
    exact State.limitValue_withLimit s (Nat.mod_lt _ (by decide)) ..

/-- Settles O34: each body has one branch under the clause's conditions. -/
theorem bufferCommandsComplete : Obligations.BufferCommandsComplete := by
  unfold Obligations.BufferCommandsComplete
  intro s c region op rs hold
  refine ⟨fun h hrange => ?_, fun h => ?_, fun h hy hr' hm => ?_, fun h => ?_, fun h => ⟨fun hread => ?_, fun hset hxon => bufLimit_sets h hset hxon⟩,
    fun h hrange => ?_, fun h hreg hop => ?_, fun h hreg hop hok => ?_, fun h hreg hop htr => ?_, fun h hreg hop hsome => ?_⟩
  · refine runCmd_runs h fun hr => ?_
    dsimp only
    rw [hr, if_neg (by decide), hrange, if_neg (by decide)]
    rfl
  · refine runCmd_runs h fun hr => ?_
    rw [hr, if_neg (by decide)]
    rfl
  · refine runCmd_runs h fun hr => ?_
    dsimp only
    rw [hr, if_neg (by decide), if_neg (by rintro (hb | hb | hb); exacts [Nat.not_le.mpr hb hy, Nat.not_le.mpr hb hr', Nat.not_le.mpr hb hm])]
    rfl
  · refine runCmd_runs h fun hr => ?_
    rw [hr, if_neg (by decide)]
    rfl
  · refine runCmd_runs h fun hr => ?_
    dsimp only
    rw [hr, if_neg (by decide), hread, if_pos rfl]
    rfl
  · refine runCmd_runs_later h fun hr => ?_
    dsimp only
    rw [hr, if_neg (by decide), if_neg (by rcases hrange with hp | hp <;> simp [hp])]
  · have h0 : bitsAt c.arg0 9 3 = 0 := hop
    refine runCmd_runs h fun hr => ?_
    dsimp only
    rw [hr, if_neg (by decide), if_neg (by omega)]
    split
    case h_1 => rfl
    case h_4 n0 n1 n2 => exact absurd h0 n0
    all_goals omega
  · have h1 : bitsAt c.arg0 9 3 = 1 := hop
    refine runCmd_runs_ite h fun hr => ?_
    dsimp only
    rw [hr, if_neg (by decide), if_neg (by omega)]
    split
    case h_2 => exact if_neg (by rw [hok]; decide)
    case h_4 n0 n1 n2 => exact absurd h1 n1
    all_goals omega
  · have h2 : bitsAt c.arg0 9 3 = 2 := hop
    refine runCmd_runs_ite h fun hr => ?_
    dsimp only
    rw [hr, if_neg (by decide), if_neg (by omega)]
    split
    case h_3 => exact if_neg fun hbad => Bool.noConfusion ((htr hbad.1).symm.trans hbad.2)
    case h_4 n0 n1 n2 => exact absurd h2 n2
    all_goals omega
  · have h3 : bitsAt c.arg0 9 3 = 3 := hop
    have hstay : ¬ (rs.all fun r => (s.region r).state == regOut) = true := by
      obtain ⟨r, hr, hst⟩ := hsome
      exact fun hall => hst (by simpa using List.all_eq_true.mp hall r hr)
    let u := rs.foldl State.takeOut (rs.foldl hold s)
    by_cases hall : (rs.all fun r => (u.region r).state == regOut) = true
    · refine ⟨u.complete c 0x0807 stOK (u.fenceResult region).1 (u.fenceResult region).2, runCmd_runs h fun hr => ?_, .inr fun r hr => ?_⟩
      · dsimp only
        rw [hr, if_neg (by decide), if_neg (by omega)]
        split
        case h_4 => exact (if_neg hstay).trans (if_pos hall)
        all_goals omega
      · rw [State.region, State.complete_tm]
        exact beq_iff_eq.mp (List.all_eq_true.mp hall r hr)
    · refine ⟨{ u with tm := { u.tm with fenceWaits := u.tm.fenceWaits ++ [⟨c, rs, regOut⟩] } }, runCmd_runs_later h fun hr => ?_, .inl rfl⟩
      dsimp only
      rw [hr, if_neg (by decide), if_neg (by omega)]
      split
      case h_4 => exact (if_neg hstay).trans (if_neg hall)
      all_goals omega

end Sys2Proof.Machine
end
section
/-! CERTIFICATES. The commands of queues, nodes, shapers and TM-side policers (O36). -/

namespace Sys2Proof.Machine
open Sys2Proof

/-- Settles O36: each body has one branch under the clause's conditions. -/
theorem queueAndSchedulerCommandsComplete : Obligations.QueueAndSchedulerCommandsComplete := by
  unfold Obligations.QueueAndSchedulerCommandsComplete
  intro s c
  refine ⟨?attach, fun h hdet hatt => ⟨fun hf hp => ?detach, fun hf => ?detachFlush⟩, fun h => ?qRead, fun h hle => ⟨fun hrd => ?mapSet, fun hrd => ?mapRead⟩,
    ?nodeSet, fun h hset hl hi hatt hch => ?nodeDetach, fun h hl hi => ?nodeRead, fun h hok hno => ?shaperSet, fun h hok => ?shaperRead,
    fun h hi ht hc => ?polSet, fun h hi => ?polRead⟩
  case attach =>
    intro q d qu same q0 q1 n h hprio hclass hpar hdet hsame hmoved hsib hroom s1 s2
    refine runCmd_runs h fun hr => ?_
    dsimp only
    rw [hr, if_neg (by decide), if_neg (Nat.not_lt.mpr hprio), if_neg fun hb => Bool.noConfusion ((hclass hb.1).symm.trans hb.2), hpar]
    dsimp only
    rw [if_neg (by rw [hdet]; decide), if_neg fun hb => hb.2 (hsame hb.1), if_neg, if_neg fun hb => hb.2 (hsib hb.1),
      if_neg fun hb => Nat.not_lt.mpr hb.2.2 (hroom hb.1 hb.2.1)]
    · rfl
    · rintro ⟨hm, hp⟩
      obtain ⟨ha, hn⟩ := Bool.and_eq_true_iff.mp hm
      exact hp (hmoved ha (bne_iff_ne.mp hn))
  case detach =>
    refine ⟨s.setQueue (bitsAt c.arg0 0 20) { s.queue (bitsAt c.arg0 0 20) with attached := false }, runCmd_runs h fun hr => ?_, ?_, rfl⟩
    · dsimp only
      rw [hr, if_neg (by decide), hdet, if_neg (by decide), hf, if_neg (by decide), if_neg (not_not.mpr hp)]
      rfl
    · rw [State.setQueue_queue]
  case detachFlush =>
    refine runCmd_runs_later h fun hr => ?_
    dsimp only
    rw [hr, if_neg (by decide), hdet, if_neg (by decide), hf, if_pos rfl, hatt, if_pos rfl]
  case qRead =>
    refine runCmd_runs h fun hr => ?_
    rw [hr, if_neg (by decide)]
    rfl
  case mapSet =>
    refine runCmd_runs h fun hr => ?_
    simp only [hrd, Bool.false_eq_true, if_false]
    rw [hr, if_neg (by decide), if_neg (Nat.not_lt.mpr hle), Assoc.get_put_same]
    rfl
  case mapRead =>
    refine runCmd_runs h fun hr => ?_
    simp only [hrd, if_true]
    rw [hr, if_neg (by decide), if_neg (Nat.not_lt.mpr hle)]
    rfl
  case nodeSet =>
    intro i level d nd par newPrec same n0 n1 n2 n h hset hl hi hprio hpar hsum hclient hlive hport hprec hsib hroom hlist t
    refine runCmd_runs h fun hr => ?_
    simp only [hset, Bool.false_eq_true, if_false]
    rw [hr, if_neg (by decide), if_neg (not_or.mpr ⟨hl, Nat.not_le.mpr hi⟩), if_neg (not_or.mpr ⟨Nat.not_lt.mpr hprio, Nat.not_le.mpr hpar⟩),
      if_neg fun hb => hb.2 (hsum hb.1), if_neg fun hb => hb.2 (hclient hb.1), hlive]
    dsimp only
    rw [if_neg fun hb => hb.2 (hport hb.1), if_neg fun hb => hb.2.2 (hprec hb.1 hb.2.1), if_neg fun hb => hb.2 (hsib hb.1),
      if_neg fun hb => Nat.not_lt.mpr hb.2 (hroom hb.1), if_neg fun hb => Nat.not_lt.mpr hb.2.2 (hlist hb.1 hb.2.1)]
    rfl
  case nodeDetach =>
    refine runCmd_runs h fun hr => ?_
    simp only [hset, if_true]
    rw [hr, if_neg (by decide), if_neg (not_or.mpr ⟨hl, Nat.not_le.mpr hi⟩), hatt,
      if_neg (by decide), if_neg (not_not.mpr hch)]
    rfl
  case nodeRead =>
    refine runCmd_runs h fun hr => ?_
    dsimp only
    rw [hr, if_neg (by decide), if_neg (not_or.mpr ⟨hl, Nat.not_le.mpr hi⟩)]
    rfl
  case shaperSet =>
    refine runCmd_runs h fun hr => ?_
    dsimp only
    rw [hr, if_neg (by decide), hok, if_neg (by decide), if_neg hno]
    rfl
  case shaperRead =>
    refine runCmd_runs h fun hr => ?_
    dsimp only
    rw [hr, if_neg (by decide), hok, if_neg (by decide)]
    rfl
  case polSet =>
    let t : State := { s with tm := { s.tm with
        tmpol := Assoc.put s.tm.tmpol policer0 (bitsAt c.arg0 0 13) ((Assoc.get s.tm.tmpol policer0 (bitsAt c.arg0 0 13)).configure s.shapeTime
          (bitsAt c.arg0 24 2) (polPayload c))
        tmpolAware := s.tm.tmpolAware.filter (· != bitsAt c.arg0 0 13) ++ (if bitAt (c.fld 48 0 3) 2 then [bitsAt c.arg0 0 13] else []) } }
    refine ⟨t, runCmd_runs h fun hr => ?_, ?_, ?_, rfl⟩
    · dsimp only
      rw [hr, if_neg (by decide), if_neg (by omega), hc, if_neg (by decide)]
      rfl
    · exact Assoc.get_put_same ..
    · dsimp only [t]
      cases bitAt (c.fld 48 0 3) 2 <;> simp
  case polRead =>
    refine runCmd_runs h fun hr => ?_
    dsimp only
    rw [hr, if_neg (by decide), if_neg hi]
    rfl

end Sys2Proof.Machine
end
section
/-! SUPPORT. A run of map entries, and the state after a gate control list has taken over (13 R389, R399). -/

namespace Sys2Proof.Machine
open Sys2Proof

/-- A run of entries set to one value reads that value, and every other entry what it was. -/
theorem Assoc.get_foldl_put (m : Assoc Nat) (first v q n : Nat) :
    Assoc.get ((List.range n).foldl (fun m i => Assoc.put m 0 (first + i) v) m) 0 q
      = if first ≤ q ∧ q < first + n then v else Assoc.get m 0 q := by
  induction n with
  | zero => rw [if_neg (by omega)]; rfl
  | succ n ih =>
    rw [List.range_succ, List.foldl_append, List.foldl_cons, List.foldl_nil, Assoc.get_put, ih]
    split_ifs <;> first | rfl | omega

/-- The registers after the switch to the other list. -/
def State.gclTaken (s : State) (port : Nat) : State :=
  (((s.fset (Fld.DLN_PORT_STATUS_OPER_BANK port) (1 - s.fget (Fld.DLN_PORT_STATUS_OPER_BANK port))).fset (Fld.DLN_PORT_STATUS_PENDING port) 0).fset
    (Fld.DLN_PORT_CYCLE_CYCLE_NS port) (s.otherBank port).cycle).fset (Fld.DLN_PORT_LEN_LENGTH port) (s.otherBank port).length

theorem State.gclTaken_fget (s : State) (port : Nat) {f : Fld} (hf : f.reg = Reg.DLN_PORT_STATUS port) :
    (s.gclTaken port).fget f = ((s.fset (Fld.DLN_PORT_STATUS_OPER_BANK port) (1 - s.fget (Fld.DLN_PORT_STATUS_OPER_BANK port))).fset
      (Fld.DLN_PORT_STATUS_PENDING port) 0).fget f := by
  rw [State.gclTaken, State.fget_fset_other _ _ _ _ (by rw [hf]; simp only [Fld.DLN_PORT_LEN_LENGTH, Reg.DLN_PORT_LEN, Reg.DLN_PORT_STATUS]; omega),
    State.fget_fset_other _ _ _ _ (by rw [hf]; simp only [Fld.DLN_PORT_CYCLE_CYCLE_NS, Reg.DLN_PORT_CYCLE, Reg.DLN_PORT_STATUS]; omega)]

theorem State.setGate_fget (s : State) (p : Nat) (g : GateState) (f : Fld) : (s.setGate p g).fget f = s.fget f := State.fget_congr rfl f

theorem State.setGate_gate (s : State) (p : Nat) (g : GateState) : (s.setGate p g).gate p = g := Assoc.get_put_same ..

/-- Past the gates, an event and a new GATES field leave the fields of a port's status. -/
theorem State.fget_afterSwitch {s : State} {port v : Nat} {f : Fld} (hf : f.reg = Reg.DLN_PORT_STATUS port) (hlo : 8 ≤ f.lo) :
    ((s.setEvent Fld.DLN_EVENT_GCL_SWITCHED).fset (Fld.DLN_PORT_STATUS_GATES port) v).fget f = s.fget f := by
  rw [State.fget_fset_apart _ _ _ _ (by simp only [Fld.DLN_PORT_STATUS_GATES]; omega) (.inr (by simpa only [Fld.DLN_PORT_STATUS_GATES] using hlo)), State.fget,
    State.setEvent_reg_plain (.inr (by rw [hf]; simp only [Reg.DLN_PORT_STATUS]; omega))
      (by rw [hf]; simp only [Reg.DLN_PORT_STATUS, Fld.DLN_EVENT_GCL_SWITCHED, Reg.DLN_EVENT]; omega), ← State.fget]

end Sys2Proof.Machine
end
section
/-! CERTIFICATES. The deadline unit (O37). -/

namespace Sys2Proof.Machine
open Sys2Proof

theorem execGclSwitch_switches {s : State} {port : Nat} (hp : s.gclPending port = true) (hc : (s.gate port).cct ≤ s.nowNs) :
    ∃ t : State, execGclSwitch port s = .next t ∧
      t.fget (Fld.DLN_PORT_STATUS_OPER_BANK port) = 1 - s.fget (Fld.DLN_PORT_STATUS_OPER_BANK port) ∧
      t.gclPending port = false ∧ (t.gate port).running = true := by
  let s3 := (s.gclTaken port).setGate port { (s.gclTaken port).gate port with running := true }
  refine ⟨(s3.setEvent Fld.DLN_EVENT_GCL_SWITCHED).fset (Fld.DLN_PORT_STATUS_GATES port) (s3.gatesAt port s3.nowNs), ?_, ?_, ?_, ?_⟩
  · rw [execGclSwitch, if_neg (by simp [hp, Nat.not_lt.mpr hc])]
    rfl
  · rw [State.fget_afterSwitch rfl (Nat.le_refl 8), State.setGate_fget, State.gclTaken_fget _ _ rfl,
      State.fget_fset_apart _ _ _ _ (by simp [Fld.DLN_PORT_STATUS_PENDING]) (by simp [Fld.DLN_PORT_STATUS_PENDING, Fld.DLN_PORT_STATUS_OPER_BANK]),
      State.fget_fset_same _ _ _ (by simp [Fld.DLN_PORT_STATUS_OPER_BANK])]
    exact Nat.mod_eq_of_lt (lt_of_le_of_lt (Nat.sub_le _ _) (by simp [Fld.DLN_PORT_STATUS_OPER_BANK]))
  · rw [State.gclPending, State.fbit, State.fget_afterSwitch rfl (Nat.le_succ 8), State.setGate_fget, State.gclTaken_fget _ _ rfl,
      State.fget_fset_same _ _ _ (by simp [Fld.DLN_PORT_STATUS_PENDING])]
    rfl
  · rw [State.gate, State.fset_tm, State.setEvent_tm, ← State.gate, State.setGate_gate]

/-- Settles O37: each body has one branch under the clause's conditions. -/
theorem deadlineUnitTakesEffect : Obligations.DeadlineUnitTakesEffect := by
  unfold Obligations.DeadlineUnitTakesEffect
  intro s c
  refine ⟨fun h => ⟨fun hw hb hl => ?profSet, fun hrd => ?profRead⟩, fun h hrange => ⟨fun hw => ?mapSet, fun hrd hone => ?mapRead⟩, ?gclWrite, ?gclSet,
    fun h hcl hpe hct => ?gclCancel, ?gclRead, fun port hp hc _ => execGclSwitch_switches hp hc, fun port e i hg => ?gate,
    fun port hv => ⟨fun ha => ?attempt, fun ha => ?failed, if_neg (not_not.mpr hv)⟩, ?release⟩
  case profSet =>
    refine runCmd_runs h fun hr => ?_
    simp only [hw, Bool.false_eq_true, if_false]
    rw [hr, if_neg (by decide), if_neg fun hbad => Nat.not_lt.mpr hb hbad.2, if_neg fun hbad => hl hbad.2, Assoc.get_put_same]
    rfl
  case profRead =>
    refine runCmd_runs h fun hr => ?_
    simp only [hrd, if_true]
    rw [hr, if_neg (by decide), if_neg (by simp), if_neg (by simp)]
    rfl
  case mapSet =>
    let put := fun (m : Assoc Nat) i => Assoc.put m 0 (bitsAt c.arg0 0 20 + i) (bitsAt c.arg1 0 8)
    refine ⟨{ s with tm := { s.tm with dlnMap := (List.range (bitsAt c.arg0 32 21)).foldl put s.tm.dlnMap } }, runCmd_runs h fun hr => ?_,
      fun q => Assoc.get_foldl_put ..⟩
    simp only [hw, Bool.false_eq_true, if_false]
    rw [hr, if_neg (by decide), if_neg (by simp [hrange])]
    rfl
  case mapRead =>
    refine runCmd_runs h fun hr => ?_
    simp only [hrd, if_true]
    rw [hr, if_neg (by decide), if_neg (by rw [hrange]; simp [hone])]
    rfl
  case gclWrite =>
    intro p first count entry b new h hn hend hlen hes hcl hpe
    refine runCmd_runs h fun hr => ?_
    dsimp only
    rw [hr, if_neg (by decide), if_neg (by omega), if_neg (Nat.not_lt.mpr hlen), if_neg, if_neg (by rw [not_or]; exact ⟨by rw [hcl]; decide, by rw [hpe]; decide⟩)]
    · rfl
    · rw [Bool.not_eq_true, List.any_eq_false]
      intro i hi
      obtain ⟨hlo, hhi, hop, hz⟩ := hes i (List.mem_range.mp hi)
      simpa using ⟨⟨⟨hlo, hhi⟩, hop⟩, hz⟩
  case gclSet =>
    intro p base cycle cct t h hns hbase hc1 hc2 hext hl0 hl hcl hpe
    refine runCmd_runs h fun hr => ?_
    dsimp only
    rw [hr, if_neg (by decide), if_neg, if_neg (by rw [not_or]; exact ⟨by rw [hcl]; decide, by rw [hpe]; decide⟩)]
    · rfl
    · simp only [not_or]
      exact ⟨Nat.not_le.mpr hns, Nat.not_lt.mpr hbase, Nat.not_lt.mpr hc1, Nat.not_lt.mpr hc2, Nat.not_lt.mpr hext, hl0, Nat.not_lt.mpr hl⟩
  case gclCancel =>
    refine runCmd_runs h fun hr => ?_
    dsimp only
    rw [hr, if_neg (by decide), if_neg (by simp [hcl, hpe, Nat.not_lt.mpr hct])]
    rfl
  case gclRead =>
    intro p first count b h hn hend hcl
    refine runCmd_runs h fun hr => ?_
    dsimp only
    rw [hr, if_neg (by decide), if_neg (by omega), if_neg (by rw [hcl]; decide)]
    rfl
  case gate =>
    change execGateTransition port s = _
    rw [execGateTransition, hg]
    dsimp only
    split_ifs <;> rfl
  case attempt => exact (if_neg (not_not.mpr hv)).trans (if_pos ha)
  case failed => exact (if_neg (not_not.mpr hv)).trans (if_neg (Nat.not_lt.mpr ha))
  case release =>
    intro node ue cell q h rest hen hst hbind hq hpk
    change execExpressRelease node ue cell s = _
    rw [execExpressRelease, if_neg (by simp [hen, hst, hbind])]
    dsimp only
    split
    next q' hq' =>
      obtain rfl : q' = q := Option.some.inj (hq'.symm.trans hq)
      rw [hpk]
    next hnone => exact absurd (hnone.symm.trans hq) nofun

end Sys2Proof.Machine
end
section
/-! SUPPORT. The state of a fabric link, and a data cell that passes its checks (14 R415, R417). -/

namespace Sys2Proof.Machine
open Sys2Proof

theorem State.setFabLink_same (s : State) (l : Nat) (v : FabLink) : (s.setFabLink l v).fabLink l = v := Assoc.get_put_same ..

theorem State.setFabLink_other (s : State) {l k : Nat} (h : k ≠ l) (v : FabLink) : (s.setFabLink l v).fabLink k = s.fabLink k :=
  Assoc.get_put_other _ _ h v

theorem State.setFabLink_fabState (s : State) (l k : Nat) (v : FabLink) : (s.setFabLink l v).fabState k = s.fabState k := State.fget_congr rfl _

theorem State.sendAck_rxSeq (s : State) (l : Nat) : ((s.sendAck l).fabLink l).rxSeq = (s.fabLink l).rxSeq := by
  have h := congrArg FabLink.rxSeq (s.setFabLink_same l { s.fabLink l with unacked := 0 })
  exact h

/-- A cell in order is taken: the link expects the next number; reordering and registers stay. -/
theorem State.acceptLink_takes {s : State} {l seq : Nat} (h : (s.fabLink l).rxSeq = seq) :
    ∃ t, s.acceptLink l seq = some t ∧ (t.fabLink l).rxSeq = ((s.fabLink l).rxSeq + 1) % 65536 ∧ t.tm.reorder = s.tm.reorder ∧ t.regs = s.regs := by
  refine ⟨_, by rw [State.acceptLink, if_pos h], ?_, ?_⟩
  · split
    · rw [State.sendAck_rxSeq, State.setFabLink_same]
    · rw [State.setFabLink_same]
  · split <;> exact ⟨rfl, rfl⟩

theorem State.acceptLink_order {s s1 : State} {l seq : Nat} (h : s.acceptLink l seq = some s1) : (s.fabLink l).rxSeq = seq := by
  by_contra hne
  simp [State.acceptLink_other hne] at h

/-- The cell that the bytes of a received data cell hold. -/
def rxCell (cell : List Byte) : FabCell :=
  let h := leNat (cell.take 12)
  ⟨bitsAt h 4 2, bitsAt h 15 11, bitsAt h 26 11, bitsAt h 37 16, bitsAt h 4 2 == 1, bitAt h 2, bitAt h 3, bitAt h 69,
    (cell.drop 12).take (bitsAt h 6 9), 0, none⟩

/-- The reordering stream of a cell. -/
def FabCell.stream (c : FabCell) : Nat := 2 * c.src + b2n c.express

/-- How far a cell lies ahead of what its stream expects. -/
def State.cellAhead (s : State) (c : FabCell) : Nat := (c.e2e + 65536 - (Assoc.get s.tm.reorder reorder0 c.stream).next) % 65536

variable {s : State} {l : Nat} {cell : List Byte}

section
variable (h3 : s.fabState l = 3) (hen : s.fbit Fld.FAB_CFG_EN = true)
include h3 hen

theorem execFabCellReceive_badCrc
    (hbad : (decide (16 ≤ cell.length) && leNat (cell.drop (cell.length - 4)) == crc32 (cell.take (cell.length - 4))) = false) :
    execFabCellReceive l cell s = .next ((s.satAdd (Fld.FAB_LINK_CRC_COUNT l) 1).emit (.fabControl l 1 (s.fabLink l).rxSeq)) := by
  rw [execFabCellReceive]
  dsimp only
  rw [if_neg (by simp [h3, hen]), if_pos]
  · rw [State.sendNak, State.fabLink, State.satAdd_tm, ← State.fabLink]
  · by_cases hlen : 16 ≤ cell.length
    · right
      simpa [hlen] using hbad
    · exact .inl (Nat.not_le.mp hlen)

variable (hgood : (decide (16 ≤ cell.length) && leNat (cell.drop (cell.length - 4)) == crc32 (cell.take (cell.length - 4))) = true)
  (hdata : bitsAt (leNat (cell.take 12)) 0 2 = 0)
include hgood hdata

theorem execFabCellReceive_outOfOrder (hseq : (s.fabLink l).rxSeq ≠ bitsAt (leNat (cell.take 12)) 53 16) :
    execFabCellReceive l cell s = .next (s.emit (.fabControl l 1 (s.fabLink l).rxSeq)) := by
  obtain ⟨hlen, hcrc⟩ := Bool.and_eq_true_iff.mp hgood
  rw [execFabCellReceive]
  dsimp only
  rw [if_neg (by simp [h3, hen]), if_neg (not_or.mpr ⟨Nat.not_lt.mpr (of_decide_eq_true hlen), not_not.mpr (beq_iff_eq.mp hcrc)⟩),
    if_neg (not_not.mpr hdata), if_pos hseq]
  rfl

theorem execFabCellReceive_inOrder {s1 : State} (hacc : s.acceptLink l (bitsAt (leNat (cell.take 12)) 53 16) = some s1)
    (hroom : ¬ (s.cellAhead (rxCell cell) ≠ 0 ∧ s.cellAhead (rxCell cell) < 32768 ∧ 8388608 < s.storeBytes + (rxCell cell).payload.length)) :
    execFabCellReceive l cell s =
      let c := rxCell cell
      let r := Assoc.get s.tm.reorder reorder0 c.stream
      if 32768 ≤ s.cellAhead c ∨ (Assoc.find r.waiting c.e2e).isSome = true then .next (s1.satAdd Fld.FAB_DUP_CNT_COUNT 1)
      else if s.cellAhead c = 0 then .next (deliverWaiting r.waiting.length c.stream (s1.deliverCell c.stream c))
      else .next { s1 with tm := { s1.tm with
        reorder := Assoc.put s1.tm.reorder reorder0 c.stream { r with waiting := Assoc.insert r.waiting c.e2e c } } } := by
  obtain ⟨hlen, hcrc⟩ := Bool.and_eq_true_iff.mp hgood
  rw [execFabCellReceive]
  dsimp only
  rw [if_neg (by simp [h3, hen]), if_neg (not_or.mpr ⟨Nat.not_lt.mpr (of_decide_eq_true hlen), not_not.mpr (beq_iff_eq.mp hcrc)⟩),
    if_neg (not_not.mpr hdata), if_neg (not_not.mpr (State.acceptLink_order hacc))]
  refine (if_neg hroom).trans ?_
  rw [hacc]
  rfl

end

end Sys2Proof.Machine
end
section
/-! CERTIFICATES. The fabric's links, cells and commands (O38, O39, O41). -/

namespace Sys2Proof.Machine
open Sys2Proof

/-- A kept cell or message is sent again. -/
def State.resend (l : Nat) (t : State) (e : Nat × FabCell) : State :=
  match e.2.msg with
  | some o => t.emit o
  | none => t.emit (.fabCell l e.1 (e.2.bytes e.1))

theorem State.resend_emits (l : Nat) (t : State) (e : Nat × FabCell) : ∃ o, t.resend l e = t.emit o := by
  rw [State.resend]
  split
  · exact ⟨_, rfl⟩
  · exact ⟨_, rfl⟩

/-- Each cell that is sent again is one output. -/
theorem State.foldl_resend (l : Nat) (es : List (Nat × FabCell)) (t : State) :
    (es.foldl (State.resend l) t).tm = t.tm ∧ (es.foldl (State.resend l) t).regs = t.regs ∧
      (es.foldl (State.resend l) t).outs.length = t.outs.length + es.length := by
  induction es generalizing t with
  | nil => exact ⟨rfl, rfl, rfl⟩
  | cons e es ih =>
    obtain ⟨o, ho⟩ := t.resend_emits l e
    obtain ⟨htm, hregs, houts⟩ := ih (t.emit o)
    rw [List.foldl_cons, ho, htm, hregs, houts]
    exact ⟨rfl, rfl, by simp [State.emit]; omega⟩

theorem execFabNakReceive_resends {s : State} {l nak : Nat}
    (hrun : (if (s.fabLink l).nakSeq = nak ∧ (s.fabLink l).nakRun ≠ 0 then (s.fabLink l).nakRun + 1 else 1) < 16) :
    let k := s.fabLink l
    let s1 := s.setFabLink l { k with nakSeq := nak, nakRun := if k.nakSeq = nak ∧ k.nakRun ≠ 0 then k.nakRun + 1 else 1 }
    let again := k.replay.filter fun e => decide ((e.1 + 65536 - nak) % 65536 < 32768)
    ∃ t : State, execFabNakReceive l nak s = .next (t.pmc 0x831 l 0 again.length) ∧ t.tm = s1.tm ∧
      t.regs = (s1.satAdd (Fld.FAB_LINK_RETX_COUNT l) again.length).regs ∧ t.outs.length = s.outs.length + again.length := by
  intro k s1 again
  obtain ⟨htm, hregs, houts⟩ := State.foldl_resend l again (s1.satAdd (Fld.FAB_LINK_RETX_COUNT l) again.length)
  refine ⟨_, if_neg (Nat.not_le.mpr hrun), htm.trans (State.satAdd_tm ..), hregs, houts.trans ?_⟩
  rw [State.satAdd_outs]
  rfl

/-- Settles O38: each event has one branch under the clause's conditions. -/
theorem fabricLinkEventsTakeEffect : Obligations.FabricLinkEventsTakeEffect := by
  unfold Obligations.FabricLinkEventsTakeEffect
  intro s l
  refine ⟨fun h1 => ?trained, fun h2 hr => ?active, fun h2 hr => ?held, fun h => if_pos h, fun h => if_pos h, fun devs h => ?reach, ?silent, fun ack => ?acked,
    fun nak => ⟨fun hrun => ?failed, fun hrun => execFabNakReceive_resends hrun⟩, fun hr => ?timeout, fun h3 hu => ?interval⟩
  case trained =>
    refine ⟨s.setFabLink l _, if_pos h1, ?_, ?_, ?_, fun k hk => s.setFabLink_other hk _, rfl⟩ <;> rw [State.setFabLink_same]
  case active =>
    refine (if_pos h2).trans ?_
    dsimp only
    rw [hr, if_pos rfl]
  case held =>
    refine (if_pos h2).trans ?_
    dsimp only
    rw [hr, if_neg (by decide)]
  case reach =>
    refine (if_neg (by omega)).trans ?_
    rw [State.setFabLink_fabState]
  case silent => exact ⟨rfl, by rw [State.setFabLink_same]⟩
  case acked =>
    refine ⟨_, rfl, ?_, fun e he => ?_⟩ <;> rw [State.setFabLink_same]
    simp [he]
  case failed => exact if_pos hrun
  case timeout =>
    exact if_neg (by simpa using hr)
  case interval => exact if_pos ⟨h3, hu⟩

/-- Settles O39: the checks of a received cell in their order. -/
theorem fabricCellReceived : Obligations.FabricCellReceived := by
  unfold Obligations.FabricCellReceived
  intro s l cell h good key r ahead h3 hen
  refine ⟨fun hg => execFabCellReceive_badCrc h3 hen hg, fun hg hd hseq => execFabCellReceive_outOfOrder h3 hen hg hd hseq, fun hg hd hseq hahead => ?copy,
    fun s1 hg hd hacc hahead hwait => ?next, fun hg hd hseq hpos hahead hwait hroom => ?early⟩
  case copy =>
    obtain ⟨t, hacc, hkept⟩ := State.acceptLink_takes hseq
    refine ⟨t, (execFabCellReceive_inOrder h3 hen hg hd hacc fun hb => Nat.not_lt.mpr hahead hb.2.1).trans (if_pos (.inl hahead)), hkept⟩
  case next =>
    have hnone : Assoc.find (Assoc.get s.tm.reorder reorder0 (rxCell cell).stream).waiting (rxCell cell).e2e = none := hwait
    refine (execFabCellReceive_inOrder h3 hen hg hd hacc fun hb => hb.1 hahead).trans ((if_neg ?_).trans (if_pos hahead))
    rw [not_or]
    exact ⟨by rw [show s.cellAhead (rxCell cell) = 0 from hahead]; decide, by rw [hnone]; decide⟩
  case early =>
    have hnone : Assoc.find (Assoc.get s.tm.reorder reorder0 (rxCell cell).stream).waiting (rxCell cell).e2e = none := hwait
    obtain ⟨t, hacc, hnext, -, -⟩ := State.acceptLink_takes hseq
    have hput := Assoc.get_put_same t.tm.reorder reorder0 (rxCell cell).stream { r with waiting := Assoc.insert r.waiting (rxCell cell).e2e (rxCell cell) }
    refine ⟨_, (execFabCellReceive_inOrder h3 hen hg hd hacc fun hb => Nat.not_lt.mpr hroom hb.2.2).trans
      ((if_neg ?_).trans (if_neg (Nat.ne_of_gt hpos))), hnext, ?_, ?_⟩
    · rw [not_or]
      exact ⟨Nat.not_le.mpr hahead, by rw [hnone]; decide⟩
    · have hnext' := congrArg Reorder.next hput
      exact hnext'
    · have hsome := congrArg (fun r : Reorder => (Assoc.find r.waiting (rxCell cell).e2e).isSome) hput
      exact hsome.trans (by simp)

/-- Settles O41: each body has one branch under the clause's conditions. -/
theorem fabricCommandsComplete : Obligations.FabricCommandsComplete := by
  unfold Obligations.FabricCommandsComplete
  intro s c
  refine ⟨fun h => ⟨fun hw hb => ?set, fun hrd => ?get⟩, fun n h hp hk => ?flow⟩
  case set =>
    refine runCmd_runs h fun hr => ?_
    simp only [hw, Bool.false_eq_true, if_false]
    rw [hr, if_neg (by decide), if_neg fun hbad => Nat.not_le.mpr hbad.2.2 (hb hbad.2.1), Assoc.get_put_same]
    rfl
  case get =>
    refine runCmd_runs h fun hr => ?_
    simp only [hrd, if_true]
    rw [hr, if_neg (by decide), if_neg (by simp)]
    rfl
  case flow =>
    refine runCmd_runs h fun hr => ?_
    dsimp only
    rw [hr, if_neg (by decide), hp]
    dsimp only
    rw [if_neg (not_not.mpr hk)]
    rfl

end Sys2Proof.Machine
end
section
/-! CERTIFICATES. The egress half, the port's grant and the receive side of the MAC (O44). -/

namespace Sys2Proof.Machine
open Sys2Proof

theorem execPortFrameGrant_starts {s : State} {link cut k : Nat} {f : TxFrame} (hrun : s.stoppedForwarding = false) (hidle : (s.ptx link).sending = none)
    (hk : (s.countDeferred link).grantFrom link = some k) (hclass : k < 8) (hf : ((s.countDeferred link).ptx link).head k = some f) :
    execPortFrameGrant link cut s
      = .next (((((s.countDeferred link).setPtx link (((s.countDeferred link).ptx link).pop k)).ptpStage link f.pkt).1).sendFrame link k cut f
        (((s.countDeferred link).setPtx link (((s.countDeferred link).ptx link).pop k)).ptpStage link f.pkt).2) := by
  have h9 : k ≠ 9 := by omega
  have h8 : (k == 8) = false := beq_eq_false_iff_ne.mpr (by omega)
  rw [execPortFrameGrant]
  dsimp only
  rw [hidle]
  dsimp only
  rw [hrun, if_neg (by decide), hk]
  dsimp only
  rw [if_neg h9, hf]
  dsimp only
  rw [h8, Bool.false_and, Bool.false_and, if_neg (by decide), if_neg h9, if_neg (by decide)]

theorem execFrameEnd_counts {s : State} {link : Nat} {evict : Option Nat} {f : RxFrame} (hf : Assoc.find s.ports.rx link = some f) (hon : f.off = false)
    (hcause : rxCause f.len (s.linkMaxFrame link) 0 = none) (hctl : f.control = none) (hid : f.id = none) :
    execFrameEnd link 0 evict s
      = .next ((State.mibAdd { s with ports := { s.ports with rx := Assoc.erase s.ports.rx link } } link 0 1).mibAdd link 1 f.len) := by
  have hmax : State.linkMaxFrame { s with ports := { s.ports with rx := Assoc.erase s.ports.rx link } } link = s.linkMaxFrame link := rfl
  rw [execFrameEnd, State.frameEnd, hf]
  dsimp only
  rw [hon, if_neg (by decide), hmax, hcause, hctl]
  dsimp only
  rw [hid]

/-- Settles O44: each event has one branch under the clause's conditions. -/
theorem egressAndMacEventsTakeEffect : Obligations.EgressAndMacEventsTakeEffect := by
  unfold Obligations.EgressAndMacEventsTakeEffect
  intro s hrun
  refine ⟨fun slice upsets p rest hq => ?pass, fun link cut f hf hc => ?done, fun link cut k f hidle => fun hk h8 hf => execPortFrameGrant_starts hrun hidle hk h8 hf,
    fun link bytes hl hst => ⟨fun hs => ?off, fun op hs hop => ?control, fun hs hop => ?frame⟩,
    fun link evict f hf hon hcause hctl hid => execFrameEnd_counts hf hon hcause hctl hid⟩
  case pass =>
    change execEgressPass slice upsets s = _
    rw [execEgressPass, hq]
    dsimp only
    rw [hrun, if_neg (by decide)]
    rfl
  case done =>
    change execPortFrameGrant link cut s = _
    rw [execPortFrameGrant]
    dsimp only
    rw [hf]
    dsimp only
    rw [hc, if_pos rfl]
  case off => exact (if_neg (by simp [hrun, hst, Nat.not_le.mpr hl])).trans (if_pos hs)
  case control =>
    refine (if_neg (by simp [hrun, hst, Nat.not_le.mpr hl])).trans ((if_neg (by rw [hs]; decide)).trans ?_)
    rw [hop]
  case frame =>
    refine (if_neg (by simp [hrun, hst, Nat.not_le.mpr hl])).trans ((if_neg (by rw [hs]; decide)).trans ?_)
    rw [hop]

end Sys2Proof.Machine
end
section
/-! SUPPORT. The status of a line port: what leaves its registers alone (04 R129, R136). -/

namespace Sys2Proof.Machine
open Sys2Proof

/-- A MIB counter that no performance event counts leaves the registers. -/
theorem State.mibAdd_regs (s : State) (k n : Nat) {counter : Nat} (h : counter ≠ 0 ∧ counter ≠ 1 ∧ counter ≠ 9 ∧ counter ≠ 10) :
    (s.mibAdd k counter n).regs = s.regs := by
  obtain ⟨h0, h1, h9, h10⟩ := h
  unfold State.mibAdd
  simp only [if_neg h0, if_neg h1, if_neg h9, if_neg h10, if_true]
  split <;> rfl

theorem State.mibAdd_fget (s : State) (k n : Nat) {counter : Nat} (h : counter ≠ 0 ∧ counter ≠ 1 ∧ counter ≠ 9 ∧ counter ≠ 10) (f : Fld) :
    (s.mibAdd k counter n).fget f = s.fget f := State.fget_congr (s.mibAdd_regs k n h) f

/-- An event of a link leaves the registers that are neither events nor of the error unit. -/
theorem State.linkEvent_fget {s : State} {k bit : Nat} {f : Fld} (hk : k < 128) (hf : plainReg f.reg) (hne : f.reg ≠ Reg.PRT_PORT_EVENT (k / 8) (k % 8)) :
    (s.linkEvent k bit).fget f = s.fget f := by
  rw [State.linkEvent, if_pos hk, State.fget, State.setEvent_reg_plain hf hne, ← State.fget]

theorem State.withPorts_fget (s : State) (p : PortsState) (f : Fld) : ({ s with ports := p } : State).fget f = s.fget f := State.fget_congr rfl f

variable {k : Nat}

theorem plainReg_portStatus (g i : Nat) : plainReg (Reg.PRT_PORT_STATUS g i) := .inr (by simp only [Reg.PRT_PORT_STATUS]; omega)

theorem portStatus_ne_event (k : Nat) : Reg.PRT_PORT_STATUS (k / 8) (k % 8) ≠ Reg.PRT_PORT_EVENT (k / 8) (k % 8) := by
  simp only [Reg.PRT_PORT_STATUS, Reg.PRT_PORT_EVENT]
  omega

theorem State.setLinkState_same (s : State) {k st : Nat} (hk : k < 128) (hst : st < 8) : (s.setLinkState k st).linkState k = st := by
  rw [State.linkState, if_pos hk, State.portState, State.setLinkState, if_pos hk, State.fget_fset_same _ _ _ (by simp [Fld.PRT_PORT_STATUS_STATE])]
  exact Nat.mod_eq_of_lt hst

theorem State.linkEvent_linkState (s : State) {k : Nat} (hk : k < 128) (bit : Nat) : (s.linkEvent k bit).linkState k = s.linkState k := by
  rw [State.linkState, State.linkState, if_pos hk, if_pos hk]
  exact State.linkEvent_fget hk (plainReg_portStatus _ _) (portStatus_ne_event k)

theorem State.linkState_congr {s t : State} (h : t.regs = s.regs) (k : Nat) : t.linkState k = s.linkState k := by
  unfold State.linkState State.portState State.clientState
  rw [State.fget_congr h, State.fget_congr h]

theorem State.setKeep_linkState (s : State) (j k : Nat) (b : Bool) : (s.setKeep j b).linkState k = s.linkState k := State.linkState_congr rfl k

theorem State.withPorts_linkState (s : State) (p : PortsState) (k : Nat) : ({ s with ports := p } : State).linkState k = s.linkState k :=
  State.linkState_congr rfl k

theorem State.dlnAdd_linkState (s : State) (obj counter k : Nat) : (s.dlnAdd obj counter).linkState k = s.linkState k := State.linkState_congr rfl k

theorem State.setPtx_linkState (s : State) (j k : Nat) (t : PortTx) : (s.setPtx j t).linkState k = s.linkState k := State.linkState_congr rfl k

theorem State.emit_linkState (s : State) (o : Out) (k : Nat) : (s.emit o).linkState k = s.linkState k := State.linkState_congr rfl k

/-- The state of a port is out of reach of the scheduler's and the deadline unit's port registers. -/
theorem State.fset_linkState (s : State) {k : Nat} (hk : k < 128) {f : Fld} (hf : 0x4000000 ≤ f.reg) (v : Nat) : (s.fset f v).linkState k = s.linkState k := by
  rw [State.linkState, State.linkState, if_pos hk, if_pos hk]
  exact State.fget_fset_other _ _ _ _ (by simp only [Fld.PRT_PORT_STATUS_STATE, Reg.PRT_PORT_STATUS]; omega)

theorem State.clearHolds_linkState (s : State) (hk : k < 128) : (s.clearHolds k).linkState k = s.linkState k := by
  rw [State.clearHolds]
  split
  · rfl
  · rw [State.fset_linkState _ hk (by simp only [Fld.SCH_PORT_STATUS_PFC_HELD, Reg.SCH_PORT_STATUS]; omega),
      State.fset_linkState _ hk (by simp only [Fld.SCH_PORT_STATUS_PAUSED, Reg.SCH_PORT_STATUS]; omega)]

theorem State.preemptUp_linkState (s : State) (hk : k < 128) : (s.preemptUp k).linkState k = s.linkState k := by
  unfold State.preemptUp
  dsimp only
  split
  · rfl
  · split
    · exact State.fset_linkState _ hk (by simp only [Fld.DLN_PORT_STATUS_PREEMPT_ACTIVE, Reg.DLN_PORT_STATUS]; omega) _
    · rw [State.emit_linkState, State.dlnAdd_linkState,
        State.fset_linkState _ hk (by simp only [Fld.DLN_PORT_STATUS_VERIFY, Reg.DLN_PORT_STATUS]; omega), State.setPtx_linkState]

theorem State.declareUp_linkState {s : State} (hk : k < 128) (h3 : s.linkState k = 3) (hgood : s.linkGood k = true) (hcal : s.calHolds k = false) :
    (s.declareUp k).linkState k = 4 := by
  unfold State.declareUp
  dsimp only
  rw [if_neg (by simp [h3, hgood, hcal]), if_pos hk, State.preemptUp_linkState _ hk, State.clearHolds_linkState _ hk]
  split
  · rw [State.linkState_congr (State.mibAdd_regs _ _ _ (by decide)), State.setKeep_linkState, State.withPorts_linkState,
      State.linkEvent_linkState _ hk, State.setLinkState_same _ hk (by decide)]
  · rw [State.setKeep_linkState, State.withPorts_linkState, State.linkEvent_linkState _ hk, State.setLinkState_same _ hk (by decide)]

end Sys2Proof.Machine
end
section
/-! CERTIFICATES. The events of a line port (O45). -/

namespace Sys2Proof.Machine
open Sys2Proof

/-- The conditions of a link as its port's status shows them. -/
def State.setConditions (s : State) (port : Nat) (lock fec lf rf hiSer : Bool) : State :=
  ((((s.fset (Fld.PRT_PORT_STATUS_PCS_LOCK (port / 8) (port % 8)) (b2n lock)).fset (Fld.PRT_PORT_STATUS_FEC_LOCK (port / 8) (port % 8)) (b2n fec)).fset
    (Fld.PRT_PORT_STATUS_LF (port / 8) (port % 8)) (b2n lf)).fset (Fld.PRT_PORT_STATUS_RF (port / 8) (port % 8)) (b2n rf)).fset
      (Fld.PRT_PORT_STATUS_HI_SER (port / 8) (port % 8)) (b2n hiSer)

theorem b2n_mod_two (b : Bool) : b2n b % 2 ^ 1 = b2n b := by cases b <;> rfl

theorem State.setConditions_fget (s : State) (port : Nat) (lock fec lf rf hiSer : Bool) :
    (s.setConditions port lock fec lf rf hiSer).fget (Fld.PRT_PORT_STATUS_PCS_LOCK (port / 8) (port % 8)) = b2n lock ∧
    (s.setConditions port lock fec lf rf hiSer).fget (Fld.PRT_PORT_STATUS_LF (port / 8) (port % 8)) = b2n lf ∧
    (s.setConditions port lock fec lf rf hiSer).fget (Fld.PRT_PORT_STATUS_RF (port / 8) (port % 8)) = b2n rf := by
  unfold State.setConditions
  refine ⟨?_, ?_, ?_⟩
  · iterate 4 rw [State.fget_fset_apart _ _ _ _ (by simp [Fld.PRT_PORT_STATUS_HI_SER, Fld.PRT_PORT_STATUS_RF, Fld.PRT_PORT_STATUS_LF, Fld.PRT_PORT_STATUS_FEC_LOCK])
      (.inl (by simp [Fld.PRT_PORT_STATUS_HI_SER, Fld.PRT_PORT_STATUS_RF, Fld.PRT_PORT_STATUS_LF, Fld.PRT_PORT_STATUS_FEC_LOCK, Fld.PRT_PORT_STATUS_PCS_LOCK]))]
    exact (State.fget_fset_same _ _ _ (by simp [Fld.PRT_PORT_STATUS_PCS_LOCK])).trans (b2n_mod_two lock)
  · iterate 2 rw [State.fget_fset_apart _ _ _ _ (by simp [Fld.PRT_PORT_STATUS_HI_SER, Fld.PRT_PORT_STATUS_RF])
      (.inl (by simp [Fld.PRT_PORT_STATUS_HI_SER, Fld.PRT_PORT_STATUS_RF, Fld.PRT_PORT_STATUS_LF]))]
    exact (State.fget_fset_same _ _ _ (by simp [Fld.PRT_PORT_STATUS_LF])).trans (b2n_mod_two lf)
  · rw [State.fget_fset_apart _ _ _ _ (by simp [Fld.PRT_PORT_STATUS_HI_SER]) (.inl (by simp [Fld.PRT_PORT_STATUS_HI_SER, Fld.PRT_PORT_STATUS_RF]))]
    exact (State.fget_fset_same _ _ _ (by simp [Fld.PRT_PORT_STATUS_RF])).trans (b2n_mod_two rf)

/-- The conditions stored, their event raised and the FEC's counts added; a frame that loses its lock ends. -/
def State.conditionsTaken (s : State) (port : Nat) (lock fec lf rf hiSer : Bool) (cc cu sc : Nat) : State :=
  let s2 := s.setConditions port lock fec lf rf hiSer
  let s3 := if hiSer && !s.fbit (Fld.PRT_PORT_STATUS_HI_SER (port / 8) (port % 8)) then s2.linkEvent port 5 else s2
  let s4 := ((s3.mibAdd port 13 cc).mibAdd port 14 cu).mibAdd port 15 sc
  if lock then s4 else s4.frameEnd port 2 none

theorem State.conditionsTaken_fget (s : State) {port : Nat} (hp : port < 128) (fec lf rf hiSer : Bool) (cc cu sc : Nat) {f : Fld}
    (hf : f.reg = Reg.PRT_PORT_STATUS (port / 8) (port % 8)) :
    (s.conditionsTaken port true fec lf rf hiSer cc cu sc).fget f = (s.setConditions port true fec lf rf hiSer).fget f := by
  unfold State.conditionsTaken
  dsimp only
  rw [if_pos rfl, State.mibAdd_fget _ _ _ (by decide), State.mibAdd_fget _ _ _ (by decide), State.mibAdd_fget _ _ _ (by decide)]
  split
  · exact State.linkEvent_fget hp (hf ▸ plainReg_portStatus _ _) (hf ▸ portStatus_ne_event port)
  · rfl

theorem execLinkConditionChange_takes (s : State) {port : Nat} (hp : port < 128) (lock fec lf rf hiSer : Bool) (cc cu sc : Nat) :
    execLinkConditionChange port lock fec lf rf hiSer cc cu sc s
      = .next (((s.conditionsTaken port lock fec lf rf hiSer cc cu sc).goodChange port).refreshPort port) :=
  if_neg (Nat.not_le.mpr hp)

/-- A calibration that ends leaves the lists, and its delays are taken or the failure is shown. -/
theorem execPortCalDone_ends {s : State} {port : Nat} (h : s.ports.portCal.contains port = true) (converged : Bool) (rx tx : Nat) :
    ∃ t : State, execPortCalDone port converged rx tx s = .next (t.linkEvent port 6) ∧ port ∉ t.ports.portCal ∧ port ∉ t.ports.uncal ∧
      (converged = true → t.fget (Fld.PRT_PORT_CAL_STATUS_RX_INT (port / 8) (port % 8)) = rx % 2 ^ 14 ∧
        t.fget (Fld.PRT_PORT_CAL_STATUS_FAIL (port / 8) (port % 8)) = 0) ∧
      (converged = false → t.fget (Fld.PRT_PORT_CAL_STATUS_RX_INT (port / 8) (port % 8))
          = s.fget (Fld.PRT_PORT_CAL_STATUS_RX_INT (port / 8) (port % 8)) ∧
        t.fget (Fld.PRT_PORT_CAL_STATUS_FAIL (port / 8) (port % 8)) = 1) := by
  let s1 : State := { s with ports := { s.ports with portCal := s.ports.portCal.filter (· != port), uncal := s.ports.uncal.filter (· != port) } }
  have hcal : port ∉ s1.ports.portCal := by simp [s1]
  have huncal : port ∉ s1.ports.uncal := by simp [s1]
  cases converged with
  | true =>
    refine ⟨(((s1.fset (Fld.PRT_PORT_CAL_STATUS_DONE (port / 8) (port % 8)) 1).fset (Fld.PRT_PORT_CAL_STATUS_FAIL (port / 8) (port % 8)) 0).fset
      (Fld.PRT_PORT_CAL_STATUS_RX_INT (port / 8) (port % 8)) rx).fset (Fld.PRT_PORT_CAL_STATUS_TX_INT (port / 8) (port % 8)) tx,
      if_neg (by rw [h]; decide), by simpa using hcal, by simpa using huncal, fun _ => ⟨?_, ?_⟩, fun hc => Bool.noConfusion hc⟩
    · rw [State.fget_fset_apart _ _ _ _ (by simp [Fld.PRT_PORT_CAL_STATUS_TX_INT])
        (.inl (by simp [Fld.PRT_PORT_CAL_STATUS_TX_INT, Fld.PRT_PORT_CAL_STATUS_RX_INT]))]
      exact State.fget_fset_same _ _ _ (by simp [Fld.PRT_PORT_CAL_STATUS_RX_INT])
    · rw [State.fget_fset_apart _ _ _ _ (by simp [Fld.PRT_PORT_CAL_STATUS_TX_INT])
          (.inl (by simp [Fld.PRT_PORT_CAL_STATUS_TX_INT, Fld.PRT_PORT_CAL_STATUS_FAIL])),
        State.fget_fset_apart _ _ _ _ (by simp [Fld.PRT_PORT_CAL_STATUS_RX_INT])
          (.inl (by simp [Fld.PRT_PORT_CAL_STATUS_RX_INT, Fld.PRT_PORT_CAL_STATUS_FAIL])),
        State.fget_fset_same _ _ _ (by simp [Fld.PRT_PORT_CAL_STATUS_FAIL])]
      exact Nat.zero_mod _
  | false =>
    refine ⟨s1.fset (Fld.PRT_PORT_CAL_STATUS_FAIL (port / 8) (port % 8)) 1,
      if_neg (by rw [h]; decide), by simpa using hcal, by simpa using huncal, fun hc => Bool.noConfusion hc, fun _ => ⟨?_, ?_⟩⟩
    · rw [State.fget_fset_apart _ _ _ _ (by simp [Fld.PRT_PORT_CAL_STATUS_FAIL])
        (.inr (by simp [Fld.PRT_PORT_CAL_STATUS_RX_INT, Fld.PRT_PORT_CAL_STATUS_FAIL]))]
      exact State.withPorts_fget ..
    · exact State.fget_fset_same _ _ _ (by simp [Fld.PRT_PORT_CAL_STATUS_FAIL])

theorem execPauseTimerExpiry_lifts {s : State} {port n : Nat} (h : s.lineNode port = some n) (cls : Nat) :
    execPauseTimerExpiry port cls s = .next (if cls = 8 then s.fset (Fld.SCH_PORT_STATUS_PAUSED n) 0
      else s.fset (Fld.SCH_PORT_STATUS_PFC_HELD n) (putBits (s.fget (Fld.SCH_PORT_STATUS_PFC_HELD n)) cls 1 0)) := by
  rw [execPauseTimerExpiry, State.setHold, h]
  rfl

/-- Settles O45: each event has one branch under the clause's conditions. -/
theorem portEventsTakeEffect : Obligations.PortEventsTakeEffect := by
  unfold Obligations.PortEventsTakeEffect
  intro s
  refine ⟨fun group h => if_neg (by simp [h]), fun port lock fec lf rf hiSer cc cu sc hp => ⟨_, execLinkConditionChange_takes s hp .., fun hl => ?cond⟩,
    fun port hs hg => ?down, fun port hp h3 hg hc => ⟨rfl, State.declareUp_linkState hp h3 hg hc⟩, fun link hh hne => ?holdoff, fun link f hf => ?flushed,
    fun link h4 => ?readmit, fun port converged rx tx h => execPortCalDone_ends h converged rx tx, fun port prios quanta hp hs hx => ⟨?pfc, ?pause⟩,
    fun port n hn => ⟨execPauseTimerExpiry_lifts hn 8, fun cls hc => (execPauseTimerExpiry_lifts hn cls).trans (by rw [if_neg (Nat.ne_of_lt hc)])⟩⟩
  case cond =>
    subst hl
    obtain ⟨hlock, hlf, hrf⟩ := s.setConditions_fget port true fec lf rf hiSer
    exact ⟨(s.conditionsTaken_fget hp _ _ _ _ _ _ _ rfl).trans hlock, (s.conditionsTaken_fget hp _ _ _ _ _ _ _ rfl).trans hlf,
      (s.conditionsTaken_fget hp _ _ _ _ _ _ _ rfl).trans hrf⟩
  case down => exact congrArg Host.Outcome.next (if_neg (by simp [hs, hg]))
  case holdoff => exact congrArg Host.Outcome.next ((if_neg (by rw [hh]; decide)).trans (if_neg hne))
  case flushed =>
    change execPortFlushDone link s = _
    rw [execPortFlushDone]
    split
    next f' hf' =>
      obtain rfl : f' = f := Option.some.inj (hf'.symm.trans hf)
      exact Eq.refl (Host.Outcome.next _)
    next hnone => exact absurd (hnone.symm.trans hf) nofun
  case readmit => exact congrArg Host.Outcome.next (if_pos h4)
  case pfc => exact if_neg (by simp [hs, hx, Nat.not_le.mpr hp])
  case pause =>
    refine (if_neg (by simp [hs, hx, Nat.not_le.mpr hp])).trans ((if_neg (by decide)).trans ?_)
    rw [apply_ite Host.Outcome.next]

end Sys2Proof.Machine
end
section
/-! SUPPORT. A run of entries put at keys that differ, each with its own value. -/

namespace Sys2Proof.Machine
open Sys2Proof

/-- The map after the entries of `n` keys are put. -/
def putEach (m : Assoc Nat) (key v : Nat → Nat) (n : Nat) : Assoc Nat := (List.range n).foldl (fun m k => Assoc.put m 0 (key k) (v k)) m

theorem putEach_succ (m : Assoc Nat) (key v : Nat → Nat) (n : Nat) :
    putEach m key v (n + 1) = Assoc.put (putEach m key v n) 0 (key n) (v n) := by
  rw [putEach, List.range_succ, List.foldl_append, List.foldl_cons, List.foldl_nil, ← putEach]

theorem get_putEach_other {m : Assoc Nat} {key v : Nat → Nat} {n j : Nat} (h : ∀ k < n, j ≠ key k) :
    Assoc.get (putEach m key v n) 0 j = Assoc.get m 0 j := by
  induction n with
  | zero => rfl
  | succ n ih => rw [putEach_succ, Assoc.get_put_other _ _ (h n n.lt_succ_self), ih fun k hk => h k (Nat.lt_succ_of_lt hk)]

theorem get_putEach_same {m : Assoc Nat} {key v : Nat → Nat} (hkey : Function.Injective key) {n k : Nat} (h : k < n) :
    Assoc.get (putEach m key v n) 0 (key k) = v k := by
  induction n with
  | zero => exact absurd h (Nat.not_lt_zero k)
  | succ n ih =>
    rw [putEach_succ, Assoc.get_put]
    split
    next he => rw [hkey he]
    next hne => exact ih (lt_of_le_of_ne (Nat.le_of_lt_succ h) fun he => hne (congrArg key he))

theorem slotKey_injective (first page : Nat) : Function.Injective fun k => 2 * (first + k) + page := fun a b h => by
  dsimp only at h
  omega

/-- The calendar of a direction. -/
def FlexeGroup.cal (g : FlexeGroup) (rx : Bool) : Assoc Nat := if rx then g.rxCal else g.txCal

/-- A group with a run of slots of one calendar page written. -/
def FlexeGroup.putSlots (g : FlexeGroup) (rx : Bool) (first page : Nat) (v : Nat → Nat) (n : Nat) : FlexeGroup :=
  if rx then { g with rxCal := putEach g.rxCal (fun k => 2 * (first + k) + page) v n }
  else { g with txCal := putEach g.txCal (fun k => 2 * (first + k) + page) v n }

variable (g : FlexeGroup) (rx : Bool) (first page : Nat) (v : Nat → Nat) (n : Nat)

theorem FlexeGroup.putSlots_cal :
    (g.putSlots rx first page v n).cal rx = putEach (g.cal rx) (fun k => 2 * (first + k) + page) v n := by
  cases rx <;> rfl

theorem FlexeGroup.putSlots_otherCal : (if rx then (g.putSlots rx first page v n).txCal else (g.putSlots rx first page v n).rxCal)
    = if rx then g.txCal else g.rxCal := by
  cases rx <;> rfl

end Sys2Proof.Machine
end
section
/-! CERTIFICATES. The FXE commands (O46). -/

namespace Sys2Proof.Machine
open Sys2Proof

/-- Settles O46: each body has one branch under the clause's conditions. -/
theorem flexeCommandsComplete : Obligations.FlexeCommandsComplete := by
  unfold Obligations.FlexeCommandsComplete
  intro s c
  refine ⟨?calWrite, fun h hen => ?calRead, fun h hlen hns ht hfs hpages hsizes => ?calSwitch, fun h hen hsw => ?calCopy, ?prot, fun bytes h hlo hhi hen => ?send,
    fun m h hen hm hroom => ?recv⟩
  case calWrite =>
    intro f dir first count page h hpos hlen hen hslots hsw hauto
    have hstate : (!s.groupEn f || s.switching f || (dir && s.fbit (Fld.FXE_GRP_CFG_RX_CAL_AUTO f))) = false := by
      rw [hen, hsw, Bool.not_true, Bool.false_or, Bool.false_or]
      cases hd : dir
      · rfl
      · exact hauto hd
    refine ⟨s.setGroup f ((s.group f).putSlots dir first page (fun k => c.fld (32 + 2 * k) 0 16) count), runCmd_runs h fun hr => ?_, rfl,
      fun g hg => by rw [State.setGroup_group, if_neg hg], ?_, fun k hk => ?_, fun key hkey => ?_⟩
    · dsimp only
      rw [show c.resv [(0, 5), (8, 1), (16, 9), (32, 9)] [] [(32, 0, 16 * bitsAt c.arg0 32 9)] = false from hr, if_neg (by decide),
        if_neg (not_or.mpr ⟨Nat.ne_of_gt hpos, fun hb => Nat.not_lt.mpr hslots hb.2⟩), if_neg (Nat.not_lt.mpr hlen)]
      exact if_neg (by rw [hstate]; decide)
    · rw [State.setGroup_group_same]
      exact FlexeGroup.putSlots_otherCal ..
    · rw [State.setGroup_group_same]
      exact (congrArg (Assoc.get · 0 (2 * (first + k) + page)) (FlexeGroup.putSlots_cal ..)).trans
        (get_putEach_same (slotKey_injective first page) hk)
    · rw [State.setGroup_group_same]
      exact (congrArg (Assoc.get · 0 key) (FlexeGroup.putSlots_cal ..)).trans (get_putEach_other hkey)
  case calRead =>
    refine runCmd_runs h fun hr => ?_
    dsimp only
    rw [hr, if_neg (by decide), hen, if_neg (by decide)]
    rfl
  case calSwitch =>
    refine runCmd_runs_later h fun hr => ?_
    dsimp only
    rw [hr, if_neg (by decide), if_neg, if_neg, if_neg]
    · rw [hsizes, Bool.not_true, Bool.or_false, Bool.not_eq_true, List.any_eq_false]
      intro g hg
      obtain ⟨hok, hids⟩ := hpages g hg
      rw [hok, List.all_eq_true.mpr hids]
      decide
    · rw [Bool.not_eq_true, Bool.or_eq_false_iff, List.any_eq_false, List.any_eq_false]
      exact ⟨fun g hg => by rw [(hfs g hg).1]; decide, fun g hg => by rw [(hfs g hg).2]; decide⟩
    · rw [not_or, not_or]
      exact ⟨hlen, Nat.not_le.mpr hns, fun hb => Nat.not_lt.mpr (ht hb.1) hb.2⟩
  case calCopy =>
    refine runCmd_runs h fun hr => ?_
    dsimp only
    rw [hr, if_neg (by decide), hen, hsw, if_neg (by decide)]
    rfl
  case prot =>
    intro cl op keep s1 s2 h hop hen hprot
    refine runCmd_runs h fun hr => ?_
    dsimp only
    rw [hr, if_neg (by decide), if_neg (Nat.not_lt.mpr hop), if_neg (by rw [show s.clientEn (bitsAt c.arg0 0 8) = true from hen, show s.clientProt (bitsAt c.arg0 0 8) = true from hprot]; decide)]
    rfl
  case send =>
    refine runCmd_runs h fun hr => ?_
    dsimp only
    rw [hr, if_neg (by simp [Nat.not_lt.mpr hlo, Nat.not_lt.mpr hhi]), hen, if_neg (by decide)]
    rfl
  case recv =>
    refine runCmd_runs h fun hr => ?_
    dsimp only
    rw [hr, if_neg (by decide), hen, if_neg (by decide), hm]
    dsimp only
    rw [if_neg (Nat.not_lt.mpr hroom)]
    rfl

end Sys2Proof.Machine
end
section
/-! CERTIFICATES. The parser's commands (O48). -/

namespace Sys2Proof.Machine
open Sys2Proof

theorem genBody_parLoad (c : Cmd) (d : HostData) (late : List Nat) (s : State) :
    genBody ⟨0x0320, c, d, late⟩ s = parLoadCmd c d s := by simp only [genBody]

theorem genBody_parRead (c : Cmd) (d : HostData) (late : List Nat) (s : State) :
    genBody ⟨0x0321, c, d, late⟩ s = parReadCmd c s := by simp only [genBody]

/-- A load that its master's open build takes answers what the bank made of the bytes. -/
theorem parLoadCmd_loads {s : State} {c : Cmd} {bytes : List Byte} (hr : c.resv [] [] parFields = false)
    (hrange : parRange (c.fld 40 0 20) (c.fld 44 0 20) = true) (ho : s.buildOpen = true) (hh : s.fget Fld.GEN_STATE_HOLDER = s.cmdMaster c)
    (hfree : s.genClosing = false) {t : State} {st r0 r1 : Nat}
    (hp : s.parLoad (c.fld 40 0 20) (bytes.take (c.fld 44 0 20) ++ List.replicate (c.fld 44 0 20 - bytes.length) 0) = (t, st, r0, r1)) :
    parLoadCmd c (.bytes bytes) s = (t, .done st r0 r1) := by
  have hstate : s.parState (s.cmdMaster c) = none := by
    rw [State.parState, ho, hfree, if_neg (by decide), if_neg (not_not.mpr hh), if_neg (by decide)]
  rw [parLoadCmd]
  dsimp only [HostData.get]
  rw [hr, hrange, if_neg (by decide), if_neg (by decide), hstate]
  dsimp only
  rw [hp]

/-- Bytes that leave the bank valid are installed. -/
theorem State.parLoad_good {s : State} {off : Nat} {bytes : List Byte}
    (hv : ((s.bank (s.fget (fldGenBank s.buildGen))).write off bytes).validate = none) :
    s.parLoad off bytes = ((s.installBank s.loadBank ((s.bank (s.fget (fldGenBank s.buildGen))).write off bytes)).fset (fldGenBank s.buildGen)
      s.loadBank, stOK, ((s.bank (s.fget (fldGenBank s.buildGen))).write off bytes).crc + 2 ^ 32 * s.loadBank, 0) := by
  unfold State.parLoad
  dsimp only
  generalize (s.bank (s.fget (fldGenBank s.buildGen))).write off bytes = b at *
  rw [hv]

/-- Bytes that break a rule change nothing. -/
theorem State.parLoad_bad {s : State} {off rule at' : Nat} {bytes : List Byte}
    (hv : ((s.bank (s.fget (fldGenBank s.buildGen))).write off bytes).validate = some (rule, at')) :
    s.parLoad off bytes = (s, stBadPayload, 0, rule + 2 ^ 32 * at') := by
  unfold State.parLoad
  dsimp only
  generalize (s.bank (s.fget (fldGenBank s.buildGen))).write off bytes = b at *
  rw [hv]

/-- Settles O48: a load answers the validation of the bank it would make, a read the bank of its generation. -/
theorem parserCommandsComplete : Obligations.ParserCommandsComplete := by
  unfold Obligations.ParserCommandsComplete
  intro s c hfree
  refine ⟨fun bytes h hrange ho hh => ⟨fun hv => ?good, fun rule at' hv => ?bad⟩, fun h hrange hg => ?read⟩
  case good =>
    exact genCmd_runs hfree h fun hr => (genBody_parLoad ..).trans (parLoadCmd_loads hr hrange ho hh hfree (State.parLoad_good hv))
  case bad =>
    exact genCmd_runs hfree h fun hr => (genBody_parLoad ..).trans (parLoadCmd_loads hr hrange ho hh hfree (State.parLoad_bad hv))
  case read =>
    refine genCmd_runs hfree h fun hr => (genBody_parRead ..).trans ?_
    rw [parReadCmd]
    dsimp only
    rw [hr, hrange, hg, if_neg (by decide), if_neg (by decide), if_neg (by decide)]
    rfl

end Sys2Proof.Machine
end
section
/-! CERTIFICATES. The TIME commands (O49). -/

namespace Sys2Proof.Machine
open Sys2Proof

/-- The parts of a slew's rate add up to its total, with a rest below its length. -/
theorem slewRate_sum (total n : Int) (hn : 0 < n) :
    total.fdiv n * n + (total - total.fdiv n * n) = total ∧ 0 ≤ total - total.fdiv n * n ∧ total - total.fdiv n * n < n := by
  have hrest : total - total.fdiv n * n = total.fmod n := by rw [Int.fmod_def, mul_comm]
  rw [hrest]
  exact ⟨by rw [mul_comm, Int.mul_fdiv_add_fmod], Int.fmod_nonneg_of_pos total hn, Int.fmod_lt_of_pos total hn⟩

/-- Settles O49: each body has one branch under the clause's conditions. -/
theorem timeCommandsComplete : Obligations.TimeCommandsComplete := by
  unfold Obligations.TimeCommandsComplete
  intro s c
  refine ⟨fun h => ?read, fun h hns ho hp => ?set, fun h hoff ho hp hlo hhi => ?step, fun h hlo hhi ho => ?rate, ?slew, fun h ho => ?unlock,
    fun h ho => ⟨fun hd => ?same, fun hd => ?switch⟩, fun h hpos hlen ho hen hf => ?stamps⟩
  case read =>
    refine runCmd_runs h fun hr => ?_
    rw [hr, if_neg (by decide)]
    rfl
  case set =>
    refine runCmd_runs h fun hr => ?_
    dsimp only
    rw [hr, if_neg (by decide), if_neg (Nat.not_le.mpr hns), ho, if_neg (by decide), hp, if_neg (by decide)]
    rfl
  case step =>
    refine runCmd_runs h fun hr => ?_
    dsimp only
    rw [hr, if_neg (by decide), if_neg (Nat.not_le.mpr hoff), ho, if_neg (by decide), hp, if_neg (by decide),
      if_neg (not_or.mpr ⟨not_lt.mpr hlo, not_le.mpr hhi⟩)]
    rfl
  case rate =>
    refine runCmd_runs h fun hr => ?_
    dsimp only
    rw [hr, if_neg (by decide), if_neg (not_or.mpr ⟨not_lt.mpr hlo, not_lt.mpr hhi⟩), ho, if_neg (by decide)]
    rfl
  case slew =>
    intro d delta n x h hmin hfit ho
    have hsum := slewRate_sum (delta * unitsPerNs) n (by exact_mod_cast (by omega : 0 < n))
    let sigma := (delta * unitsPerNs).fdiv (n : Int)
    refine ⟨⟨delta, n, n, sigma, delta * unitsPerNs - sigma * n⟩, runCmd_runs h fun hr => ?_, rfl, rfl, rfl, hsum⟩
    rw [hr, if_neg (by decide), if_neg (not_or.mpr ⟨Nat.not_lt.mpr hmin, Nat.not_lt.mpr hfit⟩), ho, if_neg (by decide)]
    rfl
  case unlock =>
    refine runCmd_runs h fun hr => ?_
    dsimp only
    rw [hr, if_neg (by decide), ho, if_neg (by decide)]
    rfl
  case same =>
    refine runCmd_runs h fun hr => ?_
    dsimp only
    rw [hr, if_neg (by decide), ho, if_neg (by decide), if_pos hd]
    rfl
  case switch =>
    refine runCmd_runs h fun hr => ?_
    dsimp only
    rw [hr, if_neg (by decide), ho, if_neg (by decide), if_neg hd]
    rfl
  case stamps =>
    have hout : ((Assoc.get s.tim.txts [] (bitsAt c.arg0 0 7)).take (bitsAt c.arg0 8 7)).isEmpty = false := by
      rw [List.isEmpty_eq_false_iff, ne_eq, List.take_eq_nil_iff, not_or]
      exact ⟨Nat.ne_of_gt hpos, hf⟩
    refine runCmd_runs h fun hr => ?_
    dsimp only
    rw [hr, if_neg (by decide), if_neg (not_or.mpr ⟨Nat.ne_of_gt hpos, Nat.not_lt.mpr hlen⟩), ho, if_neg (by decide), hen, if_neg (by decide), hout,
      if_neg (by decide)]
    rfl

end Sys2Proof.Machine
end
section
/-! CERTIFICATES. The events of device time (O50). -/

namespace Sys2Proof.Machine
open Sys2Proof

section
variable (s : State) (lane : Nat) (up : Bool)

/-- The time block after a lane stops or carries the clock. -/
def TimState.withLane (x : TimState) : TimState :=
  let u0 := if lane = 0 then up else x.laneUp0
  let u12 := if lane = 0 then x.laneUp12 else up
  { x with laneUp0 := u0, laneUp12 := u12, tmClock := tmClockOf u0 u12 x.tmClock }

theorem State.setLane_eq : s.setLane lane up =
    if (s.tim.withLane lane up).tmClock = .holding ∧ s.tim.tmClock ≠ .holding then
      State.setEvent { s with tim := s.tim.withLane lane up } Fld.TIM_EVENT_TM_TIME_LOST
    else { s with tim := s.tim.withLane lane up } := rfl

theorem State.setLane_tim : (s.setLane lane up).tim = s.tim.withLane lane up := by
  rw [State.setLane_eq]
  split
  · exact State.setEvent_tim ..
  · rfl

theorem tmClockOf_down (c : TmClock) : tmClockOf false false c = .holding := by cases c <;> rfl

theorem tmClockOf_up {u0 u12 : Bool} (h : u0 = true ∨ u12 = true) (c : TmClock) : tmClockOf u0 u12 c ≠ .holding := by
  cases u0 <;> cases u12 <;> cases c <;> simp_all [tmClockOf]

variable (x : TimState)

theorem TimState.withLane_lane : (if lane = 0 then (x.withLane lane up).laneUp0 else (x.withLane lane up).laneUp12) = up := by
  unfold TimState.withLane
  split <;> rfl

theorem TimState.withLane_otherLane :
    if lane = 0 then (x.withLane lane up).laneUp12 = x.laneUp12 else (x.withLane lane up).laneUp0 = x.laneUp0 := by
  unfold TimState.withLane
  split <;> rfl

theorem TimState.withLane_holding (h : (x.withLane lane up).laneUp0 = false ∧ (x.withLane lane up).laneUp12 = false) :
    (x.withLane lane up).tmClock = .holding := by
  obtain ⟨h0, h12⟩ := h
  change tmClockOf (x.withLane lane up).laneUp0 (x.withLane lane up).laneUp12 _ = _
  rw [h0, h12]
  exact tmClockOf_down _

theorem TimState.withLane_running : (x.withLane lane true).tmClock ≠ .holding := by
  refine tmClockOf_up ?_ x.tmClock
  split
  · exact .inl rfl
  · exact .inr rfl

end

/-- A lane that returns gives the copy a clock, so no event is raised. -/
theorem State.setLane_regs (s : State) (lane : Nat) : (s.setLane lane true).regs = s.regs := by
  rw [State.setLane_eq, if_neg fun h => TimState.withLane_running lane s.tim h.1]

/-- The state after an accepted edge of a PPS input, before its event. -/
def State.ppsTaken (s : State) (n q : Nat) : State :=
  ((((s.setInstant (Fld.TIM_PPSIN_NS_NS n) (Fld.TIM_PPSIN_SEC_LO_SEC n) (Fld.TIM_PPSIN_SEC_HI_SEC n) (q / 4)).fset (Fld.TIM_PPSIN_NS_QNS n)
    (q % 4)).wrapAdd (Fld.TIM_PPSIN_SEQ_SEQ n) 1).fset (Fld.TIM_PPSIN_SEQ_LOST n) 0)

section
variable (s : State) (n q : Nat)

theorem State.ppsTaken_lost : (s.ppsTaken n q).fget (Fld.TIM_PPSIN_SEQ_LOST n) = 0 :=
  State.fget_fset_same _ _ _ (by simp [Fld.TIM_PPSIN_SEQ_LOST])

theorem State.ppsTaken_seq :
    (s.ppsTaken n q).fget (Fld.TIM_PPSIN_SEQ_SEQ n) = (s.fget (Fld.TIM_PPSIN_SEQ_SEQ n) + 1) % 2 ^ (Fld.TIM_PPSIN_SEQ_SEQ n).w := by
  rw [State.ppsTaken, State.fget_fset_apart _ _ _ _ (by simp [Fld.TIM_PPSIN_SEQ_LOST]) (by simp [Fld.TIM_PPSIN_SEQ_LOST, Fld.TIM_PPSIN_SEQ_SEQ]),
    State.wrapAdd, State.fget_fset_same _ _ _ (by simp [Fld.TIM_PPSIN_SEQ_SEQ]), Nat.mod_mod,
    State.fget_fset_other _ _ _ _ (by simp [Fld.TIM_PPSIN_SEQ_SEQ, Fld.TIM_PPSIN_NS_QNS, Reg.TIM_PPSIN_SEQ, Reg.TIM_PPSIN_NS]),
    State.setInstant_fget_other (by simp [Fld.TIM_PPSIN_SEQ_SEQ, Fld.TIM_PPSIN_NS_NS, Reg.TIM_PPSIN_SEQ, Reg.TIM_PPSIN_NS])
      (by simp [Fld.TIM_PPSIN_SEQ_SEQ, Fld.TIM_PPSIN_SEC_LO_SEC, Reg.TIM_PPSIN_SEQ, Reg.TIM_PPSIN_SEC_LO])
      (by simp [Fld.TIM_PPSIN_SEQ_SEQ, Fld.TIM_PPSIN_SEC_HI_SEC, Reg.TIM_PPSIN_SEQ, Reg.TIM_PPSIN_SEC_HI])]

theorem State.ppsTaken_tim : (s.ppsTaken n q).tim = s.tim := by simp [State.ppsTaken, State.wrapAdd]

end

/-- Settles O50: each event has one branch under the clause's conditions. -/
theorem timeEventsTakeEffect : Obligations.TimeEventsTakeEffect := by
  unfold Obligations.TimeEventsTakeEffect
  intro s
  refine ⟨fun d w hw => ?slewEnd, rfl, fun h => if_pos h, fun h => if_neg (by rw [h]; decide), fun lane => ?laneLoss, fun lane => ?laneReturn,
    fun n held gap hn hen => ?edge, fun n hn hen hl => ?loss, fun n hen => ?pulse, fun n hact => ?pulseEnd, fun n hn hen => ⟨fun hsq hl => ?squelch, fun hg => ?resume⟩,
    fun n hn hen => ?trigger⟩
  case slewEnd =>
    change execSlewEnd d s = _
    rw [execSlewEnd, hw]
  case laneLoss =>
    refine ⟨s.setLane lane false, rfl, ?_⟩
    rw [State.setLane_tim]
    exact ⟨TimState.withLane_lane .., TimState.withLane_otherLane .., TimState.withLane_holding _ _ _⟩
  case laneReturn =>
    refine ⟨s.setLane lane true, rfl, ?_, ?_, State.setLane_regs s lane⟩ <;> rw [State.setLane_tim]
    · exact TimState.withLane_lane ..
    · exact TimState.withLane_running _ _
  case edge =>
    have hgo : ¬(2 ≤ n ∨ s.fbit (Fld.TIM_PPSIN_CFG_EN n) = false) := not_or.mpr ⟨Nat.not_le.mpr hn, by rw [hen]; decide⟩
    refine ⟨fun hshort => (if_neg hgo).trans (if_pos hshort), fun hheld hearly => (if_neg hgo).trans ((if_neg (Nat.not_lt.mpr hheld)).trans (if_pos hearly)),
      fun hheld hgap => ?_⟩
    exact ⟨s.ppsTaken n _, (if_neg hgo).trans ((if_neg (Nat.not_lt.mpr hheld)).trans (if_neg (Nat.not_lt.mpr hgap))), State.ppsTaken_lost .., State.ppsTaken_seq ..,
      State.ppsTaken_tim ..⟩
  case loss => exact if_neg (not_or.mpr ⟨Nat.not_le.mpr hn, not_or.mpr ⟨by rw [hen]; decide, by rw [hl]; decide⟩⟩)
  case pulse => exact if_neg (by rw [hen]; decide)
  case pulseEnd =>
    refine ⟨_, if_pos hact, fun hmem => ?_, congrArg (fun b => s.outs ++ [Out.pin n b]) (Bool.false_bne _), rfl⟩
    exact absurd rfl (bne_iff_ne.mp (List.mem_filter.mp hmem).2)
  case squelch => exact if_neg (not_or.mpr ⟨Nat.not_le.mpr hn, not_or.mpr ⟨by rw [hen]; decide, not_or.mpr ⟨by rw [hsq]; decide, by rw [hl]; decide⟩⟩⟩)
  case resume => exact if_neg (not_or.mpr ⟨Nat.not_le.mpr hn, not_or.mpr ⟨by rw [hen]; decide, by rw [hg]; decide⟩⟩)
  case trigger => exact if_neg (not_or.mpr ⟨Nat.not_le.mpr hn, by rw [hen]; decide⟩)

end Sys2Proof.Machine
end
section
/-! SUPPORT. Records of one length laid out one after another. -/

namespace Sys2Proof.Machine
open Sys2Proof

theorem leNat_leBytes (n x : Nat) : leNat (leBytes n x) = x % 256 ^ n := by
  induction n generalizing x with
  | zero => exact (Nat.mod_one x).symm
  | succ n ih =>
    rw [leBytes, leNat, ih, BitVec.toNat_ofNat, pow_succ' 256]
    exact (Nat.mod_mul ..).symm

variable {α β : Type} {f : α → List β} {m : Nat}

theorem length_flatMap_const (hf : ∀ a, (f a).length = m) (l : List α) : (l.flatMap f).length = m * l.length := by
  induction l with
  | nil => rfl
  | cons a l ih => rw [List.flatMap_cons, List.length_append, hf, ih, List.length_cons, Nat.mul_succ, Nat.add_comm]

/-- The piece at place `d` is the record of the element there. -/
theorem take_drop_flatMap (hf : ∀ a, (f a).length = m) (l : List α) (rest : List β) {d : Nat} (hd : d < l.length) :
    ((l.flatMap f ++ rest).drop (m * d)).take m = f l[d] := by
  induction l generalizing d with
  | nil => exact absurd hd (Nat.not_lt_zero d)
  | cons a l ih =>
    rw [List.flatMap_cons, List.append_assoc]
    cases d with
    | zero => exact List.take_left' (hf a)
    | succ d =>
      rw [Nat.mul_succ, Nat.add_comm, ← List.drop_drop, List.drop_left' (hf a)]
      exact ih (Nat.lt_of_succ_lt_succ hd)

end Sys2Proof.Machine
end
section
/-! CERTIFICATES. The PWR commands (O51). -/

namespace Sys2Proof.Machine
open Sys2Proof

/-- What a snapshot holds after the domains: temperatures, feeds, the governor and the time. -/
def State.snapshotTail (s : State) : List Byte :=
  (List.range 64).flatMap (fun i => leBytes 2 ((s.reg (Reg.PWR_TEMP i)).toNat % 2 ^ 14)) ++
    (leBytes 4 (s.reg Reg.PWR_FEED_A).toNat ++ leBytes 4 (s.reg Reg.PWR_FEED_B).toNat ++ leBytes 4 (s.reg Reg.PWR_GOV_STATUS).toNat ++
      leBytes 4 (fastPath s.nowNs) ++ leBytes 16 0)

/-- A snapshot: the word of each domain, then the rest. -/
def State.snapshotBytes (s : State) : List Byte :=
  (List.range 40).flatMap (fun d => leBytes 4 (s.domState d + 16 * s.fget (Fld.PWR_DOM_STATE_POWER d))) ++ s.snapshotTail

theorem State.snapshotBytes_length (s : State) : s.snapshotBytes.length = 320 := by
  rw [State.snapshotBytes, State.snapshotTail, List.length_append, List.length_append, length_flatMap_const (fun _ => leBytes_length 4 _),
    length_flatMap_const (fun _ => leBytes_length 2 _)]
  simp only [List.length_append, leBytes_length, List.length_range]

theorem State.snapshotBytes_dom (s : State) {d : Nat} (hd : d < 40) :
    leNat ((s.snapshotBytes.drop (4 * d)).take 4) = (s.domState d + 16 * s.fget (Fld.PWR_DOM_STATE_POWER d)) % 2 ^ 32 := by
  rw [State.snapshotBytes, take_drop_flatMap (fun _ => leBytes_length 4 _) _ _ (by rw [List.length_range]; exact hd), leNat_leBytes,
    List.getElem_range, show 256 ^ 4 = 2 ^ 32 by norm_num]

/-- Settles O51: each body has one branch under the clause's conditions. -/
theorem powerCommandsComplete : Obligations.PowerCommandsComplete := by
  unfold Obligations.PowerCommandsComplete
  intro s c ho
  refine ⟨fun h hd => ⟨fun hop hst hpark => ?park, fun hop hst => ?unpark, fun hop hst => ?isOn⟩,
    fun h => ⟨fun hrd => ?govRead, fun hrd hl1 hl2 hs1 hs2 he hpct hb1 hb2 => ?govSet⟩,
    fun h => ⟨fun hrd => ?fenceRead, fun hrd hf1 hf2 hn1 hn2 he => ?fenceSet⟩,
    fun h => ⟨fun hrd => ?feedRead, fun hrd hs1 hs2 hh1 hh2 ht1 ht2 => ?feedSet⟩,
    fun result mv h hm hj => ?feedTest, fun fell oldOk h hg => ?feedSwitch, fun h => ?snapshot⟩
  case park =>
    refine runCmd_runs_later h fun hr => ?_
    dsimp only
    rw [hr, if_neg (by decide), if_neg (Nat.not_lt.mpr hd), ho, if_neg (by decide), hop, if_neg (by decide), hst, if_neg (by decide), hpark,
      if_neg (by decide)]
  case unpark =>
    refine runCmd_runs_later h fun hr => ?_
    dsimp only
    rw [hr, if_neg (by decide), if_neg (Nat.not_lt.mpr hd), ho, if_neg (by decide), hop, if_pos rfl, hst, if_neg (by decide), if_pos rfl]
  case isOn =>
    refine runCmd_runs h fun hr => ?_
    dsimp only
    rw [hr, if_neg (by decide), if_neg (Nat.not_lt.mpr hd), ho, if_neg (by decide), hop, if_pos rfl, hst, if_pos rfl]
    rfl
  case govRead =>
    refine runCmd_runs h fun hr => ?_
    dsimp only
    rw [hr, if_neg (by decide), hrd, Bool.not_true, Bool.false_and, if_neg (by decide), ho, if_neg (by decide), if_pos rfl]
    rfl
  case govSet =>
    refine runCmd_runs h fun hr => ?_
    dsimp only
    rw [hr, if_neg (by decide), hrd, if_neg, ho, if_neg (by decide), if_neg (by decide)]
    · rfl
    · simp [Nat.not_lt.mpr hl1, Nat.not_lt.mpr hl2, Nat.not_lt.mpr hs1, Nat.not_lt.mpr hs2, he, Nat.not_le.mpr hpct, Nat.ne_of_gt hb1, Nat.not_lt.mpr hb2]
  case fenceRead =>
    refine runCmd_runs h fun hr => ?_
    dsimp only
    rw [hr, if_neg (by decide), hrd, Bool.not_true, Bool.false_and, if_neg (by decide), ho, if_neg (by decide)]
    rfl
  case fenceSet =>
    refine runCmd_runs h fun hr => ?_
    dsimp only
    rw [hr, if_neg (by decide), hrd, if_neg, ho, if_neg (by decide), if_neg (by decide)]
    · rfl
    · simp [Nat.not_lt.mpr hf1, Nat.not_lt.mpr hf2, Nat.ne_of_gt hn1, Nat.not_lt.mpr hn2, he]
  case feedRead =>
    refine runCmd_runs h fun hr => ?_
    dsimp only
    rw [hr, if_neg (by decide), hrd, Bool.not_true, Bool.false_and, if_neg (by decide), ho, if_neg (by decide)]
    rfl
  case feedSet =>
    refine runCmd_runs h fun hr => ?_
    dsimp only
    rw [hr, if_neg (by decide), hrd, if_neg, ho, if_neg (by decide), if_neg (by decide)]
    · rfl
    · simp [Nat.not_lt.mpr hs1, Nat.not_lt.mpr hs2, Nat.ne_of_gt hh1, Nat.not_lt.mpr hh2, Nat.ne_of_gt ht1, Nat.not_lt.mpr ht2]
  case feedTest =>
    refine runCmd_runs h fun hr => ?_
    rw [hr, if_neg (by decide), ho, if_neg (by decide), hm, hj, if_neg (by decide)]
    rfl
  case feedSwitch =>
    refine runCmd_runs h fun hr => ?_
    rw [hr, if_neg (by decide), ho, if_neg (by decide), if_neg (not_not.mpr hg)]
    rfl
  case snapshot =>
    refine ⟨s.snapshotBytes, runCmd_runs h fun hr => ?_, s.snapshotBytes_length, fun d hd => s.snapshotBytes_dom hd⟩
    rw [hr, if_neg (by decide), ho, if_neg (by decide), State.snapshotBytes, State.snapshotTail, ← List.append_assoc]
    rfl

end Sys2Proof.Machine
end
section
/-! SUPPORT. The error log (18 R518-R522): an error that is not fatal writes the error unit and its registers, nothing else. -/

namespace Sys2Proof.Machine
open Sys2Proof

section
variable (s : State)

theorem State.withErr_outsideCount (e : ErrState) : ({ s with err := e } : State).outsideCount = s.outsideCount := rfl

theorem State.of_ite {P : State → Prop} {c : Prop} [Decidable c] {t u : State} (ht : P t) (hu : P u) : P (if c then t else u) := by
  split
  · exact ht
  · exact hu

theorem State.addHistory_cases (e : ErrEntry) :
    ∃ err, s.addHistory e = { s with err := err } ∨ s.addHistory e = State.pulse { s with err := err } 731 :=
  State.of_ite (P := fun t : State => ∃ err, t = { s with err := err } ∨ t = State.pulse { s with err := err } 731) ⟨_, .inl rfl⟩ ⟨_, .inr rfl⟩

theorem State.addHistory_outsideCount (e : ErrEntry) : (s.addHistory e).outsideCount = s.outsideCount := by
  obtain ⟨err, h | h⟩ := s.addHistory_cases e <;> rw [h]
  · exact s.withErr_outsideCount _
  · rw [State.pulse_outsideCount, State.withErr_outsideCount]

theorem State.logEntry_outsideCount (code info : Nat) (firmware injected : Bool) :
    (s.logEntry code info firmware injected).outsideCount = s.outsideCount := by
  unfold State.logEntry
  dsimp only
  split
  · rfl
  · have hlog : ∀ t : State, t.outsideCount = s.outsideCount → ∀ e, (if code / 256 = 4 then (t.addHistory e).pulse 706 else t.addHistory e).outsideCount
        = s.outsideCount := fun t ht e => by
      split
      · rw [State.pulse_outsideCount, State.addHistory_outsideCount, ht]
      · rw [State.addHistory_outsideCount, ht]
    refine hlog _ ?_ _
    split
    · exact s.withErr_outsideCount _
    · split
      · exact s.withSource_outsideCount (fun t => t.withErr_outsideCount _) _
      · rw [State.withSource_outsideCount _ fun t => t.fset_outsideCount _ _]
        exact s.satAdd_outsideCount _ _

end

/-- Registers outside ERR, the sideband's block and PMC. -/
def farReg (off : Nat) : Prop := off < 0x500000 ∨ 0x700000 ≤ off

theorem farReg.plain {off : Nat} (h : farReg off) : plainReg off := h.imp_left fun h => Nat.lt_of_lt_of_le h (by decide)

theorem farReg.ne {off : Nat} (h : farReg off) {r : Nat} (h1 : 0x500000 ≤ r) (h2 : r < 0x700000) : off ≠ r := by
  unfold farReg at h
  omega

section
variable {s : State} {off : Nat} (h : farReg off)
include h

theorem State.addHistory_reg_far (e : ErrEntry) : (s.addHistory e).reg off = s.reg off := by
  obtain ⟨err, he | he⟩ := s.addHistory_cases e <;> rw [he]
  · exact State.reg_congr rfl off
  · rw [State.pulse_reg_plain h.plain]
    exact State.reg_congr rfl off

theorem State.logEntry_reg_far (code info : Nat) (firmware injected : Bool) : (s.logEntry code info firmware injected).reg off = s.reg off := by
  have hovf : off ≠ Fld.ERR_LOG_OVF_CNT_COUNT.reg := h.ne (by decide) (by decide)
  have hblk : off ≠ Fld.ERR_BLK_SEEN_BLOCK.reg := h.ne (by decide) (by decide)
  unfold State.logEntry
  dsimp only
  split
  · rfl
  · have hlog : ∀ t : State, t.reg off = s.reg off → ∀ e, (if code / 256 = 4 then (t.addHistory e).pulse 706 else t.addHistory e).reg off
        = s.reg off := fun t ht e => by
      split
      · rw [State.pulse_reg_plain h.plain, State.addHistory_reg_far h, ht]
      · rw [State.addHistory_reg_far h, ht]
    refine hlog _ ?_ _
    split
    · exact State.reg_congr rfl off
    · split
      · rw [State.withSource_reg_plain h.plain]
        exact State.reg_congr rfl off
      · rw [State.withSource_reg_plain h.plain, State.reg_fset_other _ _ hblk, State.satAdd, State.reg_fset_other _ _ hovf]

end

section
variable {s : State} {code info : Nat} (hsev : s.severity code info ≠ some 3)
include hsev

theorem State.raiseError_eq_logEntry : s.raiseError code info = s.logEntry code info false false := if_neg hsev

theorem State.raiseError_outsideCount : (s.raiseError code info).outsideCount = s.outsideCount := by
  rw [State.raiseError_eq_logEntry hsev, State.logEntry_outsideCount]

theorem State.raiseError_reg_far {off : Nat} (h : farReg off) : (s.raiseError code info).reg off = s.reg off := by
  rw [State.raiseError_eq_logEntry hsev, State.logEntry_reg_far h]

end

end Sys2Proof.Machine
end
section
/-! SUPPORT. What the thermal step and the samples leave alone, and the stack that a domain wakes with (16 R472-R484). -/

namespace Sys2Proof.Machine
open Sys2Proof

/-- The power unit's own state and the register of the highest reading are as they were. -/
structure State.ThermKept (s t : State) : Prop where
  pwr : t.pwr = s.pwr
  max : t.reg Reg.PWR_THERM_MAX = s.reg Reg.PWR_THERM_MAX

namespace State.ThermKept

theorem refl (s : State) : s.ThermKept s := ⟨rfl, rfl⟩

theorem trans {s t u : State} (h : s.ThermKept t) (h' : t.ThermKept u) : s.ThermKept u := ⟨h'.pwr.trans h.pwr, h'.max.trans h.max⟩

theorem foldl {α : Type} {f : State → α → State} (hf : ∀ (t : State) x, t.ThermKept (f t x)) (s : State) (l : List α) : s.ThermKept (l.foldl f s) :=
  List.foldlRecOn (motive := fun t : State => s.ThermKept t) l f (refl s) fun t ht x _ => ht.trans (hf t x)

variable (s : State)

theorem ofRegs {t : State} (hp : t.pwr = s.pwr) (hr : t.regs = s.regs) : s.ThermKept t := ⟨hp, State.reg_congr hr _⟩

theorem fset {f : Fld} (h : Reg.PWR_THERM_MAX ≠ f.reg) (v : Nat) : s.ThermKept (s.fset f v) :=
  ⟨s.fset_pwr f v, s.reg_fset_other f h v⟩

theorem setEvent {f : Fld} (h : Reg.PWR_THERM_MAX ≠ f.reg) : s.ThermKept (s.setEvent f) :=
  ⟨s.setEvent_pwr f, State.setEvent_reg_plain (by unfold plainReg; decide) h⟩

theorem raiseError {code info : Nat} (h : s.severity code info ≠ some 3) : s.ThermKept (s.raiseError code info) :=
  ⟨State.eq_of_outsideCount (State.raiseError_outsideCount h) State.pwr fun _ => rfl, State.raiseError_reg_far h (by unfold farReg; decide)⟩

theorem setShaper (r : Nat) (h : Shaper) : s.ThermKept (s.setShaper r h) := ofRegs s rfl rfl

theorem setSlice (i : Nat) (x : SliceState) : s.ThermKept (s.setSlice i x) := ofRegs s rfl rfl

theorem refillYields : s.ThermKept s.refillYields := by
  unfold State.refillYields
  exact foldl (fun t n => setShaper t ..) s _

theorem setYieldStep (y : Nat) : s.ThermKept (s.setYieldStep y) := by
  unfold State.setYieldStep
  split
  · exact refl s
  · exact ((refillYields s).trans (fset _ (by decide) _)).trans (setEvent _ (by decide))

theorem govern : s.ThermKept s.govern := by
  unfold State.govern
  exact (((fset s (by decide) _).trans (fset _ (by decide) _)).trans (setYieldStep _ _)).trans (fset _ (by decide) _)

theorem setCamStep (step : Nat) : s.ThermKept (s.setCamStep step) := by
  unfold State.setCamStep
  split
  · exact refl s
  · exact ((foldl (fun t i => setSlice t i _) s _).trans (fset _ (by decide) _)).trans (setEvent _ (by decide))

theorem setThermStep (step tmax : Nat) : s.ThermKept (s.setThermStep step tmax) := by
  unfold State.setThermStep
  split
  · exact refl s
  · have hstep := (fset s (f := Fld.PWR_GOV_STATUS_THERM_STEP) (by decide) step).trans (setEvent _ (f := Fld.PWR_EVENT_THERM_STEP) (by decide))
    refine .trans ?_ ((setCamStep _ _).trans (govern _))
    exact State.of_ite (P := s.ThermKept) (hstep.trans (raiseError _ (by simp [State.severity]))) hstep

theorem sensor (x : Nat × Option Int) : s.ThermKept (s.sensor x) := by
  have hmax : ∀ f : Fld, f.reg = Reg.PWR_TEMP x.1 → Reg.PWR_THERM_MAX ≠ f.reg := fun f hf => by
    rw [hf]
    simp only [Reg.PWR_THERM_MAX, Reg.PWR_TEMP]
    omega
  have hfault : s.ThermKept (((s.fset (Fld.PWR_TEMP_FAULT x.1) 1).setEvent Fld.PWR_EVENT_SENSOR_FAULT).raiseError 0x0701 x.1) :=
    ((fset s (hmax _ rfl) 1).trans (setEvent _ (by decide))).trans (raiseError _ (code := 0x0701) (by simp [State.severity]))
  unfold State.sensor
  split
  · split
    · have hgood := (fset s (hmax (Fld.PWR_TEMP_TEMP x.1) rfl) (unsignedOf ‹Int› 12)).trans (fset _ (hmax (Fld.PWR_TEMP_FAULT x.1) rfl) 0)
      exact State.of_ite (P := s.ThermKept) (hgood.trans (setEvent _ (by decide))) hgood
    · exact hfault
  · exact hfault

end State.ThermKept

/-! ### A sample of the sensors (R475-R478) -/

section
variable (s : State)

/-- Tmax may take a free value, nothing else. -/
theorem State.tmax_cases : s.tmax.2.2 = s ∨ s.tmax.2.2 = (s.free 11).2 := by
  unfold State.tmax
  dsimp only
  split
  · split
    · exact .inr rfl
    · exact .inl rfl
  · exact .inr rfl

theorem State.tmax_regs : s.tmax.2.2.regs = s.regs := by
  obtain h | h := s.tmax_cases <;> rw [h]
  rfl

theorem State.tmax_pwr : s.tmax.2.2.pwr = s.pwr := by
  obtain h | h := s.tmax_cases <;> rw [h]
  rfl

variable {s} in
theorem State.hottest_congr {t : State} (h : ∀ i, t.tempOf i = s.tempOf i) (is : List Nat) : t.hottest is = s.hottest is := by
  induction is with
  | nil => rfl
  | cons i is ih => simp only [State.hottest, ih, h]

variable (t : Int) (i : Nat)

theorem State.thermMax_reg_other {off : Nat} (h : off ≠ Reg.PWR_THERM_MAX) : (s.thermMax t i).reg off = s.reg off := by
  rw [State.thermMax, State.reg_fset_other _ _ (by exact h), State.reg_fset_other _ _ (by exact h), State.reg_fset_other _ _ (by exact h)]

theorem State.thermMax_pwr : (s.thermMax t i).pwr = s.pwr := by
  rw [State.thermMax, State.fset_pwr, State.fset_pwr, State.fset_pwr]

theorem State.temp_ne_max (j : Nat) : Reg.PWR_TEMP j ≠ Reg.PWR_THERM_MAX := by
  simp only [Reg.PWR_THERM_MAX, Reg.PWR_TEMP]
  omega

variable {s} in
theorem State.fget_of_reg {u : State} {f : Fld} (h : u.reg f.reg = s.reg f.reg) : u.fget f = s.fget f := by rw [State.fget, State.fget, h]

/-- Sensors whose registers are the same are read the same. -/
theorem State.validSensors_congr {s u : State} (h : ∀ j, u.reg (Reg.PWR_TEMP j) = s.reg (Reg.PWR_TEMP j)) : u.validSensors = s.validSensors :=
  congrArg (List.range 64 |>.filter ·) (funext fun j => congrArg (fun n => !(n != 0)) (State.fget_of_reg (h j)))

theorem State.tempOf_congr {s u : State} (h : ∀ j, u.reg (Reg.PWR_TEMP j) = s.reg (Reg.PWR_TEMP j)) (j : Nat) : u.tempOf j = s.tempOf j := by
  rw [State.tempOf, State.tempOf, State.fget_of_reg (h j)]

theorem State.thermMax_temps (j : Nat) : (s.thermMax t i).reg (Reg.PWR_TEMP j) = s.reg (Reg.PWR_TEMP j) :=
  s.thermMax_reg_other t i (State.temp_ne_max j)

theorem State.thermMax_valid : (s.thermMax t i).fget Fld.PWR_THERM_MAX_VALID = b2n (!s.validSensors.isEmpty) := by
  have hvalid : ((s.fset Fld.PWR_THERM_MAX_TEMP (unsignedOf t 12)).fset Fld.PWR_THERM_MAX_SENSOR i).validSensors = s.validSensors :=
    State.validSensors_congr fun j => by
      rw [State.reg_fset_other _ _ (State.temp_ne_max j), State.reg_fset_other _ _ (State.temp_ne_max j)]
  rw [State.thermMax, State.fget_fset_same _ _ _ (by decide), hvalid]
  exact b2n_mod_two _

/-- No sensor at the trip temperature: the count of the trip starts again, and the step is judged. -/
theorem State.thermJudge_cool (h : s.hotTrip = none) : s.thermJudge t
    = (s.thermCount t 0).1.setThermStep (s.thermCount t 0).2 ((s.thermCount t 0).1.reg Reg.PWR_THERM_MAX).toNat := by
  unfold State.thermJudge
  dsimp only
  rw [h]
  rfl

theorem State.thermCount_pwr (trips : Nat) :
    (s.thermCount t trips).1.pwr.tripped = s.pwr.tripped ∧ (s.thermCount t trips).1.pwr.tripRun = trips ∧
      (s.thermCount t trips).1.regs = s.regs := ⟨rfl, rfl, rfl⟩

theorem State.thermJudge_untripped (h : s.hotTrip = none) :
    (s.thermJudge t).pwr.tripped = s.pwr.tripped ∧ (s.thermJudge t).pwr.tripRun = 0 ∧
      (s.thermJudge t).fget Fld.PWR_THERM_MAX_VALID = s.fget Fld.PWR_THERM_MAX_VALID := by
  obtain ⟨htripped, hrun, hregs⟩ := s.thermCount_pwr t 0
  rw [State.thermJudge_cool _ _ h]
  have hkept := State.ThermKept.setThermStep (s.thermCount t 0).1 (s.thermCount t 0).2 ((s.thermCount t 0).1.reg Reg.PWR_THERM_MAX).toNat
  refine ⟨?_, ?_, ?_⟩
  · rw [hkept.pwr, htripped]
  · rw [hkept.pwr, hrun]
  · rw [State.fget, show Fld.PWR_THERM_MAX_VALID.reg = Reg.PWR_THERM_MAX from rfl, hkept.max, State.reg_congr hregs]
    rfl

end

/-! ### Telemetry (R474, R480) -/

/-- The samples of a reading are shown. -/
def State.powerShown (s : State) (mvA curA mvB curB : Nat) (power : List Nat) : State :=
  (List.range 40).foldl (fun (t : State) d => t.fset (Fld.PWR_DOM_STATE_POWER d) (power.getD d 0))
    (((((s.fset Fld.PWR_FEED_A_MV mvA).fset Fld.PWR_FEED_A_CURRENT curA).fset Fld.PWR_FEED_B_MV mvB).fset Fld.PWR_FEED_B_CURRENT curB).fset
      Fld.PWR_PKG_POWER_P ((mvA * curA + mvB * curB) / 12500))

/-- A state that reads the same power unit and the same states of the domains. -/
structure State.DomsKept (s t : State) : Prop where
  pwr : t.pwr = s.pwr
  doms : ∀ d < 40, t.fget (Fld.PWR_DOM_STATE_STATE d) = s.fget (Fld.PWR_DOM_STATE_STATE d)

theorem State.DomsKept.trans {s t u : State} (h : s.DomsKept t) (h' : t.DomsKept u) : s.DomsKept u :=
  ⟨h'.pwr.trans h.pwr, fun d hd => (h'.doms d hd).trans (h.doms d hd)⟩

theorem State.DomsKept.fset (s : State) {f : Fld} (h : f.reg < Reg.PWR_DOM_STATE 0) (v : Nat) : s.DomsKept (s.fset f v) :=
  ⟨s.fset_pwr f v, fun d _ => State.fget_fset_other _ _ _ _ (by simp only [Fld.PWR_DOM_STATE_STATE, Reg.PWR_DOM_STATE] at h ⊢; omega)⟩

theorem State.DomsKept.power (s : State) (e v : Nat) : s.DomsKept (s.fset (Fld.PWR_DOM_STATE_POWER e) v) := by
  refine ⟨s.fset_pwr _ v, fun d _ => ?_⟩
  by_cases he : d = e
  · rw [he]
    exact State.fget_fset_apart _ _ _ _ (by simp [Fld.PWR_DOM_STATE_POWER]) (by simp [Fld.PWR_DOM_STATE_POWER, Fld.PWR_DOM_STATE_STATE])
  · exact State.fget_fset_other _ _ _ _ (by simp only [Fld.PWR_DOM_STATE_POWER, Fld.PWR_DOM_STATE_STATE, Reg.PWR_DOM_STATE]; omega)

theorem State.powerShown_kept (s : State) (mvA curA mvB curB : Nat) (power : List Nat) : s.DomsKept (s.powerShown mvA curA mvB curB power) :=
  List.foldlRecOn (motive := fun t : State => s.DomsKept t) _ _
    ((((((State.DomsKept.fset s (by decide) _).trans (.fset _ (by decide) _)).trans (.fset _ (by decide) _)).trans (.fset _ (by decide) _))).trans
      (.fset _ (by decide) _)) fun _ ht _ _ => ht.trans (.power ..)

/-- The sample is summed and the energy bucket follows. -/
def State.sampled (s : State) (p e : Nat) : State :=
  ({ s with pwr := { s.pwr with sumP := s.pwr.sumP + p, countP := s.pwr.countP + 1 } } : State).setEnergy e

theorem State.sampled_pwr (s : State) (p e : Nat) :
    (s.sampled p e).pwr = { s.pwr with sumP := s.pwr.sumP + p, countP := s.pwr.countP + 1, energy := e } := State.fset_pwr _ _ _

theorem State.sampled_dom (s : State) (p e d : Nat) :
    (s.sampled p e).fget (Fld.PWR_DOM_STATE_STATE d) = s.fget (Fld.PWR_DOM_STATE_STATE d) := by
  have hreg : (Fld.PWR_DOM_STATE_STATE d).reg ≠ Fld.PWR_GOV_STATUS_E_MJ.reg := by
    simp only [Fld.PWR_DOM_STATE_STATE, Fld.PWR_GOV_STATUS_E_MJ, Reg.PWR_DOM_STATE, Reg.PWR_GOV_STATUS]
    omega
  rw [State.sampled, State.setEnergy, State.fget_fset_other _ _ _ _ hreg]
  exact State.fget_congr rfl _

/-! ### A woken domain (R472) -/

/-- The stack of a woken domain, trained or not. -/
def State.stackWoken (s : State) (k : Nat) (trained : Bool) (lanes : Nat) : State :=
  if trained then
    (((s.fset (Fld.HBT_STACK_STATUS_STATE k) 3).fset (Fld.HBT_STACK_STATUS_TRAINED k) 1).fset (Fld.HBT_STACK_STATUS_LANES_REPAIRED k)
      lanes).setEvent Fld.HBT_EVENT_TRAIN_DONE
  else (s.fset (Fld.HBT_STACK_STATUS_STATE k) 4).setEvent Fld.HBT_EVENT_TRAIN_FAIL

section
variable (s : State) (k : Nat) (trained : Bool) (lanes : Nat)

theorem State.stackWoken_state : (s.stackWoken k trained lanes).fget (Fld.HBT_STACK_STATUS_STATE k) = if trained then 3 else 4 := by
  have hev : ∀ (t : State) (f : Fld), f.reg = Reg.HBT_EVENT → f.lo < 16 →
      (t.setEvent f).fget (Fld.HBT_STACK_STATUS_STATE k) = t.fget (Fld.HBT_STACK_STATUS_STATE k) := fun t f hf hlo =>
    State.setEvent_fget_other _ hlo (by simp only [Fld.HBT_STACK_STATUS_STATE, Reg.HBT_STACK_STATUS, Reg.ERR_VEC]; omega)
      (by rw [hf]; simp only [Fld.HBT_STACK_STATUS_STATE, Reg.HBT_STACK_STATUS, Reg.HBT_EVENT]; omega)
  cases trained with
  | true =>
    rw [State.stackWoken, if_pos rfl, if_pos rfl, hev _ _ rfl (by decide),
      State.fget_fset_apart _ _ _ _ (by simp [Fld.HBT_STACK_STATUS_LANES_REPAIRED])
        (by simp [Fld.HBT_STACK_STATUS_LANES_REPAIRED, Fld.HBT_STACK_STATUS_STATE]),
      State.fget_fset_apart _ _ _ _ (by simp [Fld.HBT_STACK_STATUS_TRAINED]) (by simp [Fld.HBT_STACK_STATUS_TRAINED, Fld.HBT_STACK_STATUS_STATE]),
      State.fget_fset_same _ _ _ (by simp [Fld.HBT_STACK_STATUS_STATE])]
    rfl
  | false =>
    rw [State.stackWoken, if_neg (by decide), if_neg (by decide), hev _ _ rfl (by decide), State.fget_fset_same _ _ _ (by simp [Fld.HBT_STACK_STATUS_STATE])]
    rfl

theorem State.stackWoken_dom {d : Nat} (hd : d < 40) : (s.stackWoken k trained lanes).domState d = s.domState d := by
  have hne : ∀ f : Fld, f.reg = Reg.HBT_STACK_STATUS k ∨ f.reg = Reg.HBT_EVENT → (Fld.PWR_DOM_STATE_STATE d).reg ≠ f.reg := fun f hf => by
    simp only [Fld.PWR_DOM_STATE_STATE, Reg.PWR_DOM_STATE, Reg.HBT_STACK_STATUS, Reg.HBT_EVENT] at hf ⊢
    omega
  have hpast : Reg.ERR_VEC 512 ≤ (Fld.PWR_DOM_STATE_STATE d).reg := by
    simp only [Fld.PWR_DOM_STATE_STATE, Reg.PWR_DOM_STATE, Reg.ERR_VEC]
    omega
  unfold State.stackWoken State.domState
  split
  · rw [State.setEvent_fget_other _ (by decide) hpast (hne _ (.inr rfl)), State.fget_fset_other _ _ _ _ (hne _ (.inl rfl)),
      State.fget_fset_other _ _ _ _ (hne _ (.inl rfl)), State.fget_fset_other _ _ _ _ (hne _ (.inl rfl))]
  · rw [State.setEvent_fget_other _ (by decide) hpast (hne _ (.inr rfl)), State.fget_fset_other _ _ _ _ (hne _ (.inl rfl))]

/-- READY is an event of the block, which holds no domain and no stack. -/
theorem State.ready_fget {f : Fld} (h : Reg.PWR_EVENT < f.reg) : (s.setEvent Fld.PWR_EVENT_READY).fget f = s.fget f :=
  State.setEvent_fget_other _ (by decide) (Nat.le_trans (by decide) (Nat.le_of_lt h)) (Nat.ne_of_gt h)

end

/-! ### Values put one after another at their own keys -/

theorem Assoc.get_foldl_update (m : Assoc Nat) (f : Nat → Nat → Nat) (n i : Nat) :
    Assoc.get ((List.range n).foldl (fun m i => Assoc.put m 0 i (f i (Assoc.get m 0 i))) m) 0 i
      = if i < n then f i (Assoc.get m 0 i) else Assoc.get m 0 i := by
  induction n with
  | zero => rfl
  | succ n ih =>
    rw [List.range_succ, List.foldl_append, List.foldl_cons, List.foldl_nil, Assoc.get_put]
    by_cases he : i = n
    · subst he
      rw [if_pos rfl, if_pos i.lt_succ_self, ih, if_neg i.lt_irrefl]
    · rw [if_neg he, ih]
      exact if_congr (by omega) rfl rfl

end Sys2Proof.Machine
end
section
/-! CERTIFICATES. The events of power, temperature and feeds (O52). -/

namespace Sys2Proof.Machine
open Sys2Proof

/-- Settles O52: each event has one branch under the clause's conditions. -/
theorem powerEventsTakeEffect : Obligations.PowerEventsTakeEffect := by
  unfold Obligations.PowerEventsTakeEffect
  intro s
  refine ⟨fun d hd hst hemp => ?drained, fun d hd hst => ?parkTimeout, fun d trained lanes hd hst => ?woken, fun mvA curA mvB curB power => ?telemetry,
    fun temps hc hp ht => ?temp, ?energy, ?credit, fun hen => ⟨fun heq => ?fenceRest, fun r hlt hz hch => ?fence⟩, fun feed st hf hst => ?feed,
    fun ticks sagged fell oldOk => ⟨fun h => if_pos h, fun h hg => ?noStandby, fun h hg hs => ?failover⟩, ⟨_, rfl, ?collapse, rfl⟩,
    fun fell oldOk hh => ?revert, fun result hm hj ha => ?selfTest⟩
  case drained => exact if_neg (not_or.mpr ⟨Nat.not_le.mpr hd, not_or.mpr ⟨not_not.mpr hst, by rw [hemp]; decide⟩⟩)
  case parkTimeout => exact if_neg (not_or.mpr ⟨Nat.not_le.mpr hd, not_not.mpr hst⟩)
  case woken =>
    have hrun : ¬(40 ≤ d ∨ s.domState d ≠ 3) := not_or.mpr ⟨Nat.not_le.mpr hd, not_not.mpr hst⟩
    have hzero : (s.setDomState d 0).domState d = 0 := State.fget_fset_same _ _ _ (by simp [Fld.PWR_DOM_STATE_STATE])
    have hdom : Reg.PWR_EVENT < (Fld.PWR_DOM_STATE_STATE d).reg := by
      simp only [Fld.PWR_DOM_STATE_STATE, Reg.PWR_DOM_STATE, Reg.PWR_EVENT]
      omega
    have hstack : Reg.PWR_EVENT < (Fld.HBT_STACK_STATUS_STATE (d - 31)).reg := by
      simp only [Fld.HBT_STACK_STATUS_STATE, Reg.HBT_STACK_STATUS, Reg.PWR_EVENT]
      omega
    by_cases hmod : 31 ≤ d ∧ d ≤ 36
    · refine ⟨((s.setDomState d 0).stackWoken (d - 31) trained lanes).setEvent Fld.PWR_EVENT_READY, ?_, ?_, fun _ _ => ?_⟩
      · exact (if_neg hrun).trans (congrArg (fun t : State => Host.Outcome.next ((t.setEvent Fld.PWR_EVENT_READY).domComplete d stOK)) (if_pos hmod))
      · rw [State.domState, State.ready_fget _ hdom, ← State.domState, State.stackWoken_dom _ _ _ _ hd, hzero]
      · rw [State.ready_fget _ hstack, State.stackWoken_state]
    · refine ⟨(s.setDomState d 0).setEvent Fld.PWR_EVENT_READY, ?_, ?_, fun h1 h2 => absurd ⟨h1, h2⟩ hmod⟩
      · exact (if_neg hrun).trans (congrArg (fun t : State => Host.Outcome.next ((t.setEvent Fld.PWR_EVENT_READY).domComplete d stOK)) (if_neg hmod))
      · rw [State.domState, State.ready_fget _ hdom, ← State.domState, hzero]
  case telemetry =>
    intro p e low
    let u := s.powerShown mvA curA mvB curB power
    have hu : s.DomsKept u := s.powerShown_kept mvA curA mvB curB power
    refine ⟨u.sampled p e, rfl, ?_, fun d hd => ?_⟩
    · rw [State.sampled_pwr, hu.pwr]
    · rw [State.sampled_dom, hu.doms d hd]
  case temp =>
    intro s1 hcool
    let m := s1.tmax.2.2.thermMax s1.tmax.1 s1.tmax.2.1
    have hs1 : s.ThermKept s1 := State.ThermKept.foldl State.ThermKept.sensor s _
    have htemps : ∀ j, m.reg (Reg.PWR_TEMP j) = s1.reg (Reg.PWR_TEMP j) := fun j =>
      (State.thermMax_temps _ _ _ j).trans (State.reg_congr s1.tmax_regs _)
    have hvalid : s1.tmax.2.2.validSensors = s1.validSensors := State.validSensors_congr fun j => State.reg_congr s1.tmax_regs _
    have htrip : m.hotTrip = none := by
      rw [State.hotTrip, State.validSensors_congr htemps, State.hottest_congr (State.tempOf_congr htemps)]
      cases hh : s1.hottest s1.validSensors with
      | none => rfl
      | some xj => exact if_neg (not_le.mpr (hcool xj.1 xj.2 hh))
    obtain ⟨htripped, hrun, hmax⟩ := m.thermJudge_untripped s1.tmax.1 htrip
    refine ⟨m.thermJudge s1.tmax.1, ?_, ?_, hrun, ?_⟩
    · exact (if_neg (by rw [hc, hp]; decide)).trans (if_neg (by rw [ht]; decide))
    · rw [htripped, State.thermMax_pwr, State.tmax_pwr, hs1.pwr, ht]
    · rw [hmax, State.thermMax_valid, hvalid]
  case energy =>
    let s1 := s.fset Fld.PWR_GOV_STATUS_Y_ENERGY s.evalEnergy
    refine ⟨{ s1 with pwr := { s1.pwr with sumP := 0, countP := 0 } }, rfl, ?_, rfl⟩
    exact congrArg (fun x : PwrState => { x with sumP := 0, countP := 0 }) (s.fset_pwr _ _)
  case credit =>
    intro level
    refine ⟨_, rfl, rfl, fun i hi => ?_⟩
    exact (Assoc.get_foldl_update s.pwr.credit (fun i n => min (4 * (bgRates.getD i (0, 0, 0)).2.2) (n + if level = 0 then (bgRates.getD i (0, 0, 0)).1
      else if level = 1 then (bgRates.getD i (0, 0, 0)).2.1 else (bgRates.getD i (0, 0, 0)).2.2)) 14 i).trans (if_pos hi)
  case fenceRest =>
    exact (if_neg (by rw [hen]; decide)).trans ((if_neg (Nat.not_lt.mpr (Nat.le_of_eq heq.symm))).trans (if_neg (Nat.not_lt.mpr (Nat.le_of_eq heq))))
  case fence =>
    refine (if_neg (by rw [hen]; decide)).trans ((if_pos hlt).trans ((if_neg (not_not.mpr hz)).trans ?_))
    rw [hch]
  case feed => exact if_neg (not_or.mpr ⟨Nat.not_le.mpr hf, Nat.not_le.mpr hst⟩)
  case noStandby => exact (if_neg (Nat.not_lt.mpr h)).trans (if_pos hg)
  case failover => exact (if_neg (Nat.not_lt.mpr h)).trans ((if_neg (not_not.mpr hg)).trans (if_neg (by rw [hs]; decide)))
  case collapse =>
    change (s.pwr.tripped || true || s.rst.porLow) = true
    rw [Bool.or_true, Bool.true_or]
  case revert =>
    refine (if_neg (by rw [hh]; decide)).trans ?_
    by_cases hg : s.feedState s.activeFeed = feedGood
    · exact (if_neg (not_not.mpr hg)).trans (congrArg Host.Outcome.next (if_pos hg).symm)
    · exact (if_pos hg).trans (congrArg Host.Outcome.next (if_neg hg).symm)
  case selfTest => exact if_neg (not_or.mpr ⟨by rw [hm]; decide, not_or.mpr ⟨by rw [hj]; decide, ha⟩⟩)

end Sys2Proof.Machine
end
section
/-! CERTIFICATES. The events of the HBM controllers (O53). -/

namespace Sys2Proof.Machine
open Sys2Proof

/-- The link errors and retrains in a row of a channel are noted. -/
def State.setLinkRuns (s : State) (key errors trains : Nat) : State :=
  { s with hbm := { s.hbm with retries := Assoc.put s.hbm.retries 0 key errors, retrains := Assoc.put s.hbm.retrains 0 key trains } }

section
variable (s : State) (key errors trains : Nat)

theorem State.setLinkRuns_retries : Assoc.get (s.setLinkRuns key errors trains).hbm.retries 0 key = errors := Assoc.get_put_same ..
theorem State.setLinkRuns_retrains : Assoc.get (s.setLinkRuns key errors trains).hbm.retrains 0 key = trains := Assoc.get_put_same ..
theorem State.setLinkRuns_regs : (s.setLinkRuns key errors trains).regs = s.regs := rfl

end

/-- Settles O53: each event has one branch under the clause's conditions. -/
theorem hbmEventsTakeEffect : Obligations.HbmEventsTakeEffect := by
  unfold Obligations.HbmEventsTakeEffect
  intro s die stack
  refine ⟨fun ch again hon hch => ⟨fun hlt => ?retry, fun hle => ?retrain⟩, fun pc bank hd hs hpc hb => ?refresh, fun temp hd hs ho => ?temp,
    fun found upsets unit hon ho hu hf => ?scrub, fun hon => if_pos hon, fun hon hsr hempty => ?selfRefresh, fun trained lanes hk hst => ?train⟩
  case retry =>
    have hrun : ¬(!s.stackOn die stack || decide (32 ≤ ch)) = true := by
      rw [hon, decide_eq_false (Nat.not_le.mpr hch)]
      decide
    let s1 := s.satAdd (dieFld die (Fld.HBF_RETRY_CNT_COUNT stack)) 1
    exact ⟨s1.setLinkRuns _ _ _, (if_neg hrun).trans (if_pos hlt), State.setLinkRuns_retries .., State.setLinkRuns_regs ..⟩
  case retrain =>
    have hrun : ¬(!s.stackOn die stack || decide (32 ≤ ch)) = true := by
      rw [hon, decide_eq_false (Nat.not_le.mpr hch)]
      decide
    let s1 := (s.satAdd (dieFld die (Fld.HBF_RETRAIN_CNT_COUNT stack)) 1).setEvent (dieFld die Fld.HBF_EVENT_RETRAIN)
    exact ⟨s1.setLinkRuns _ _ _, (if_neg hrun).trans (if_neg (Nat.not_lt.mpr hle)), State.setLinkRuns_retries .., State.setLinkRuns_retrains ..,
      State.setLinkRuns_regs ..⟩
  case refresh =>
    exact if_neg (not_or.mpr ⟨Nat.not_le.mpr hd, not_or.mpr ⟨Nat.not_le.mpr hs, not_or.mpr ⟨Nat.not_le.mpr hpc, Nat.not_le.mpr hb⟩⟩⟩)
  case temp => exact if_neg (not_or.mpr ⟨Nat.not_le.mpr hd, not_or.mpr ⟨Nat.not_le.mpr hs, by rw [ho]; decide⟩⟩)
  case scrub =>
    have hrule : ¬(die = 0 ∧ found = 2 ∧ (!s.hbm.poison.contains (unitPlace die stack unit).2) = true) := fun ⟨_, hfound, _⟩ => hf hfound
    change execScrubRead die stack found upsets s = _
    rw [execScrubRead, hon, ho, if_neg (by decide), hu]
    dsimp only
    rewrite [if_neg hrule]
    rfl
  case selfRefresh => exact if_pos (by rw [hon, hsr, hempty]; decide)
  case train => exact (if_neg (not_or.mpr ⟨Nat.not_le.mpr hk, not_not.mpr hst⟩)).trans (apply_ite Host.Outcome.next _ _ _).symm

end Sys2Proof.Machine
end
section
/-! CERTIFICATES. The ERR commands and PMC_READ (O54). -/

namespace Sys2Proof.Machine
open Sys2Proof

/-- Settles O54: each body has one branch under the clause's conditions. -/
theorem errorAndCounterCommandsComplete : Obligations.ErrorAndCounterCommandsComplete := by
  unfold Obligations.ErrorAndCounterCommandsComplete
  intro s c
  refine ⟨fun h hpos hmax ho => ⟨?popAll, fun f hf => ?popFailed⟩, fun sev h hsev hfat ho => ?inject, fun h hn ho => ?raise, fun h hpos hlast => ?pmc⟩
  case popAll =>
    refine runCmd_runs h fun hr => ?_
    dsimp only
    rw [hr, if_neg (by decide), if_neg (not_or.mpr ⟨Nat.ne_of_gt hpos, Nat.not_lt.mpr hmax⟩), ho, if_neg (by decide), if_neg (Nat.lt_irrefl _)]
    rfl
  case popFailed =>
    have hmin : min f (min (bitsAt c.arg0 0 7) s.err.log.length) = f := Nat.min_eq_left (Nat.le_of_lt hf)
    refine runCmd_runs h fun hr => ?_
    dsimp only
    rw [hr, if_neg (by decide), if_neg (not_or.mpr ⟨Nat.ne_of_gt hpos, Nat.not_lt.mpr hmax⟩), ho, if_neg (by decide), hmin, if_pos hf]
  case inject =>
    refine runCmd_runs h fun hr => ?_
    dsimp only
    rw [hr, if_neg (by decide), hsev]
    dsimp only
    rw [ho, if_neg (by decide), if_neg hfat]
    rfl
  case raise =>
    refine runCmd_runs h fun hr => ?_
    dsimp only
    rw [hr, if_neg (by decide), if_neg (Nat.not_lt.mpr hn), ho, if_neg (by decide)]
    rfl
  case pmc =>
    refine runCmd_runs h fun hr => ?_
    dsimp only
    rw [hr, if_neg (by decide), if_neg (not_or.mpr ⟨Nat.ne_of_gt hpos, Nat.not_lt.mpr hlast⟩)]
    rfl

end Sys2Proof.Machine
end
section
/-! CERTIFICATES. The events of errors and counters (O55). -/

namespace Sys2Proof.Machine
open Sys2Proof

/-- An element joins a list or leaves it. -/
def withMember (xs : List Nat) (f : Nat) (on : Bool) : List Nat := if on then xs.filter (· != f) ++ [f] else xs.filter (· != f)

theorem withMember_contains (xs : List Nat) (f : Nat) (on : Bool) : (withMember xs f on).contains f = on := by
  unfold withMember
  cases on <;> simp

/-- An MSI-X entry as the host sets it, with the enables of its function. -/
def State.msixTaken (s : State) (f v : Nat) (e : MsixEntry) (enable functionMask : Bool) : State :=
  { s with err := { s.err with
      msix := if s.vectorInRange f v then Assoc.put s.err.msix ⟨0, 0, true⟩ v e else s.err.msix
      msixEnabled := withMember s.err.msixEnabled f enable
      functionMasked := withMember s.err.functionMasked f functionMask } }

theorem State.msixTaken_entry {s : State} {f v : Nat} (hv : s.vectorInRange f v = true) (e : MsixEntry) (enable functionMask : Bool) :
    Assoc.get (s.msixTaken f v e enable functionMask).err.msix ⟨0, 0, true⟩ v = e := by
  have hput : (s.msixTaken f v e enable functionMask).err.msix = Assoc.put s.err.msix ⟨0, 0, true⟩ v e := if_pos hv
  rw [hput, Assoc.get_put_same]

/-- The level of a fault input is in its own field. -/
theorem State.fset_level_fbit (s : State) (i : Nat) :
    (s.fset (Fld.ERR_FAULT_STATUS_LEVEL i) 1).fbit (Fld.ERR_FAULT_CFG_EN i) = s.fbit (Fld.ERR_FAULT_CFG_EN i) ∧
      (s.fset (Fld.ERR_FAULT_STATUS_LEVEL i) 1).fbit (Fld.ERR_FAULT_STATUS_LATCHED i) = s.fbit (Fld.ERR_FAULT_STATUS_LATCHED i) := by
  have hen : (s.fset (Fld.ERR_FAULT_STATUS_LEVEL i) 1).fget (Fld.ERR_FAULT_CFG_EN i) = s.fget (Fld.ERR_FAULT_CFG_EN i) :=
    State.fget_fset_other _ _ _ _ (by simp only [Fld.ERR_FAULT_CFG_EN, Fld.ERR_FAULT_STATUS_LEVEL, Reg.ERR_FAULT_CFG, Reg.ERR_FAULT_STATUS]; omega)
  have hlatched : (s.fset (Fld.ERR_FAULT_STATUS_LEVEL i) 1).fget (Fld.ERR_FAULT_STATUS_LATCHED i) = s.fget (Fld.ERR_FAULT_STATUS_LATCHED i) :=
    State.fget_fset_apart _ _ _ _ (by simp [Fld.ERR_FAULT_STATUS_LEVEL]) (by simp [Fld.ERR_FAULT_STATUS_LEVEL, Fld.ERR_FAULT_STATUS_LATCHED])
  exact ⟨congrArg (· != 0) hen, congrArg (· != 0) hlatched⟩

/-- Settles O55: each event has one branch under the clause's conditions. -/
theorem errorEventsTakeEffect : Obligations.ErrorEventsTakeEffect := by
  unfold Obligations.ErrorEventsTakeEffect
  intro s ho
  have hon : ¬s.off = true := by
    rw [ho]
    decide
  refine ⟨fun f entry addr data masked enable functionMask hf hv => ?msix, fun i held hi hl => ⟨fun hshort => ?glitch, fun hlong hen => ?level, fun hlong hen hla => ?latch⟩,
    fun i held hi hlong => ?deassert, fun i hi hl hen hst hrep => ?stuck, fun core hfz => ?watchdog, fun reason => if_neg hon,
    fun n bodies failed hst => ⟨fun hz => ?noSize, fun hz hfw => ?noFirmware, fun hz hfw hfail => ?fails⟩, fun n bodies hd => ?dumps,
    fun hd => if_pos ⟨hd, ho⟩, fun r hr => ?run⟩
  case msix =>
    refine ⟨s.msixTaken f _ ⟨addr, data, masked⟩ enable functionMask, ?_, rfl, State.msixTaken_entry hv .., withMember_contains .., withMember_contains ..⟩
    exact if_neg (not_or.mpr ⟨by rw [hf]; decide, hon⟩)
  case glitch => exact (if_neg (not_or.mpr ⟨Nat.not_le.mpr hi, not_or.mpr ⟨hon, by rw [hl]; decide⟩⟩)).trans (if_pos hshort)
  case level =>
    refine (if_neg (not_or.mpr ⟨Nat.not_le.mpr hi, not_or.mpr ⟨hon, by rw [hl]; decide⟩⟩)).trans ((if_neg (Nat.not_lt.mpr hlong)).trans (if_neg ?_))
    rw [(s.fset_level_fbit i).1, hen, Bool.false_and]
    decide
  case latch =>
    obtain ⟨hcfg, hstatus⟩ := s.fset_level_fbit i
    refine (if_neg (not_or.mpr ⟨Nat.not_le.mpr hi, not_or.mpr ⟨hon, by rw [hl]; decide⟩⟩)).trans ((if_neg (Nat.not_lt.mpr hlong)).trans (if_pos ?_))
    rw [hcfg, hen, hstatus, hla]
    decide
  case deassert =>
    refine ⟨_, if_neg (not_or.mpr ⟨Nat.not_le.mpr hi, not_or.mpr ⟨hon, Nat.not_lt.mpr hlong⟩⟩), rfl, fun hmem => ?_⟩
    exact absurd rfl (bne_iff_ne.mp (List.mem_filter.mp hmem).2)
  case stuck =>
    refine if_pos ?_
    rw [hl, hen, hst, hrep, ho, decide_eq_true hi]
    decide
  case watchdog => exact ⟨_, if_neg (not_or.mpr ⟨hon, hfz⟩), rfl, rfl, rfl⟩
  case noSize =>
    change execWellLogDump n bodies failed s = _
    rw [execWellLogDump, if_neg hon, hst]
    exact if_pos hz
  case noFirmware =>
    change execWellLogDump n bodies failed s = _
    rw [execWellLogDump, if_neg hon, hst]
    exact (if_neg hz).trans (if_pos hfw)
  case fails =>
    change execWellLogDump n bodies failed s = _
    rw [execWellLogDump, if_neg hon, hst, hfail]
    exact (if_neg hz).trans (if_neg (by rw [hfw]; decide))
  case dumps =>
    change execWellLogDump n bodies false s = _
    rw [execWellLogDump, if_neg hon, hd]
    dsimp only
    rw [if_neg (by decide)]
  case run =>
    change execPmcRunApply s = _
    rw [execPmcRunApply, hr]

end Sys2Proof.Machine
end
section
/-! SUPPORT. Commands of the update service (20 R566-R583). -/

namespace Sys2Proof.Machine
open Sys2Proof

section
variable {s t : State} {op lo hi st r0 r1 : Nat} {c : Cmd} {a0 a1 : List (Nat × Nat)} {pl : List (Nat × Nat × Nat)}
  {body : State → State × Done}

/-- A command of the service that runs completes with what its body answers; no reserved bit is set. -/
theorem fwuCmd_runs (h : s.runs op lo hi c a0 a1 pl = true) (hb : c.resv a0 a1 pl = false → body s = (t, .done st r0 r1)) :
    fwuCmd op lo hi c s body = .next (t.fwuComplete c op st r0 r1) := by
  rw [fwuCmd_takes (runs_iff.mp h).1, hb (runs_iff.mp h).2]

theorem fwuCmd_runs_later (h : s.runs op lo hi c a0 a1 pl = true) (hb : c.resv a0 a1 pl = false → body s = (t, .later)) :
    fwuCmd op lo hi c s body = .next t := by
  rw [fwuCmd_takes (runs_iff.mp h).1, hb (runs_iff.mp h).2]

end

section
variable (s : State) (p : Nat)

theorem State.pulse_fwu : (s.pulse p).fwu = s.fwu := State.eq_of_outsideCount (s.pulse_outsideCount p) State.fwu fun _ => rfl

theorem State.setFwPhase_fwu : (s.setFwPhase p).fwu = s.fwu := (State.pulse_fwu ..).trans (s.fset_fwu _ _)

theorem State.setFwPhase_phase : (s.setFwPhase p).fget Fld.FWU_STATUS_PHASE = p % 8 := by
  rw [State.setFwPhase, State.fget, State.pulse_reg_plain (by unfold plainReg; decide), ← State.fget, State.fget_fset_same _ _ _ (by decide)]
  rfl

theorem State.chunkMessage_session : s.chunkMessage.fwu.session = s.fwu.session :=
  State.of_ite (P := fun t : State => t.fwu.session = s.fwu.session) ((congrArg FwuState.session (State.pulse_fwu _ 733)).trans rfl) rfl

end

theorem fwuInfo_version (v x : Nat) : bitsAt (v % 2 ^ 32 + 2 ^ 32 * x) 0 32 = v % 2 ^ 32 := by
  unfold bitsAt
  omega

theorem fwuInfo_bank0 {b0 : Nat} (v b1 run phase : Nat) (h : b0 < 8) :
    bitsAt (v % 2 ^ 32 + 2 ^ 32 * (b0 + 8 * b1 + 64 * run + 128 * phase)) 32 3 = b0 := by
  unfold bitsAt
  omega

end Sys2Proof.Machine
end
section
/-! CERTIFICATES. The FWU commands and the events of an update (O56, O57). -/

namespace Sys2Proof.Machine
open Sys2Proof

/-- The first result of FWU_INFO: the running version, the states of the banks, which runs and the phase. -/
theorem fwuInfo_answers {s : State} {m : Nat} {c : Cmd} (hr : c.resv [] [] [] = false) (ho : s.fwuOwned m = true) :
    ∃ r1, fwuInfo m c s = (s, .done stOK (s.runningBank.version % 2 ^ 32
      + 2 ^ 32 * (s.fwu.bank0.state + 8 * s.fwu.bank1.state + 64 * s.fwu.running + 128 * s.fwPhase)) r1) := by
  rw [fwuInfo, hr, if_neg (by decide), ho, if_neg (by decide)]
  exact ⟨_, rfl⟩

/-- The source of a session is the running image, or none is needed. -/
theorem sourceOk_of {p : SessionParams} {b : ImageBank} (h : p.full = false → p.sourceVersion = b.version ∧ p.sourceCrc = b.crc) :
    (p.full || (p.sourceVersion == b.version && p.sourceCrc == b.crc)) = true := by
  cases hf : p.full with
  | true => rfl
  | false =>
    obtain ⟨hv, hc⟩ := h hf
    rw [hv, hc, beq_self_eq_true, beq_self_eq_true]
    rfl

/-- The session with a chunk stored. -/
def Session.stored (x : Session) (seq sec : Nat) (piece : Nat × List Byte) : Session :=
  { x with chunks := Assoc.insert x.chunks seq piece, last := sec }

/-- The state that stores a chunk of a session. -/
def State.chunkStored (s : State) (x : Session) (seq : Nat) (piece : Nat × List Byte) : State :=
  let s1 := s.setSession (some { x with last := s.view.sec })
  ((if x.params.full then s1.markBank s1.inactiveBank bankWriting 0 else s1).setSession (some (x.stored seq s.view.sec piece))).chunkMessage

theorem State.chunkStored_session (s : State) (x : Session) (seq : Nat) (piece : Nat × List Byte) :
    (s.chunkStored x seq piece).fwu.session = some (x.stored seq s.view.sec piece) := by
  rw [State.chunkStored, State.chunkMessage_session]
  rfl

/-- The 4,096 bytes that a chunk's bytes fill. -/
def wholeChunk (got : List Byte) : List Byte := got.take 4096 ++ List.replicate (4096 - got.length) 0

/-- A chunk that is not yet stored, and whose CRC is right, is stored. -/
theorem fwuChunk_stores {s : State} {m : Nat} {c : Cmd} {got : List Byte} {x : Session}
    (hr : c.resv [(0, 13), (32, 32)] [(0, 32)] [(32, 0, 64)] = false) (ho : s.fwuOwned m = true)
    (hx : s.sessionFor m (bitsAt c.arg0 32 32) = .ok x) (hseq : bitsAt c.arg0 0 13 < x.params.count) (hph : x.params.full = true → s.fwPhase = 0)
    (hcrc : crc32cStd ((wholeChunk got).map (·.toNat)) = bitsAt c.arg1 0 32)
    (hnew : Assoc.find x.chunks (bitsAt c.arg0 0 13) = none) :
    fwuChunk m c (.bytes got) s =
      (s.chunkStored x (bitsAt c.arg0 0 13) (bitsAt c.arg1 0 32, wholeChunk got), .done stOK
        (Assoc.insert x.chunks (bitsAt c.arg0 0 13) (bitsAt c.arg1 0 32, wholeChunk got)).length 0) := by
  unfold fwuChunk
  unfold wholeChunk at hcrc ⊢
  dsimp only [HostData.get]
  generalize got.take 4096 ++ List.replicate (4096 - got.length) (0 : Byte) = bytes at hcrc ⊢
  rw [hr, if_neg (by decide), ho, if_neg (by decide), hx]
  dsimp only
  rw [if_neg (Nat.not_le.mpr hseq), if_neg fun h => h.2 (hph h.1), if_neg (not_not.mpr hcrc), hnew]
  rfl

/-- The handover that an activation starts. -/
def State.handoverTo (s : State) (c : Cmd) (k w : Nat) : Handover :=
  ⟨k, ((s.fwBank k).state, (s.fwBank k).reason), bitAt c.arg0 1, if w = 0 then s.fget Fld.FWU_CFG_WINDOW_S else w, some (.ring c), 0, false, false, true⟩

/-- Settles O56: each body has one branch under the clause's conditions. -/
theorem updateCommandsComplete : Obligations.UpdateCommandsComplete := by
  unfold Obligations.UpdateCommandsComplete
  intro s c ho
  refine ⟨fun h => ?info, fun h hpos hcount hlimit hfull hph hrec hnone hsrc => ?start, fun x got h hx hseq hph hcrc hnew => ?chunk, fun x h hx => ?bitmap,
    fun x h hx hall hph => ⟨fun bs hok => ?apply, ?applyBad⟩, fun x h hx => ?abort, fun h hw hb hph => ?activate, fun hd h hh hph hconf => ?confirm,
    fun bytes h hp hu => ?ucode⟩
  case info =>
    obtain ⟨r1, hbody⟩ := fwuInfo_answers (runs_iff.mp h).2 ho
    exact ⟨_, r1, fwuCmd_runs h fun _ => hbody, fwuInfo_version _ _, fwuInfo_bank0 _ _ _ _⟩
  case start =>
    let x : Session := ⟨s.fwu.nextId, cmdParams c, s.cmdMaster c, s.fget Fld.IGL_ID_CHAIN_ID, [], s.view.sec⟩
    refine ⟨{ s with fwu := { s.fwu with session := some x, nextId := s.fwu.nextId + 1 } }, fwuCmd_runs h fun hr => ?_, rfl, rfl, rfl⟩
    rw [fwuSessionStart]
    dsimp only
    rw [hr, if_neg (by decide), if_neg (not_or.mpr ⟨Nat.ne_of_gt hpos, not_or.mpr ⟨not_not.mpr hcount, Nat.not_lt.mpr hlimit⟩⟩), if_neg, ho,
      if_neg (by decide), if_neg, hnone]
    · dsimp only
      rw [sourceOk_of hsrc, if_neg (by decide)]
    · rw [not_or, not_not]
      exact ⟨hph, fun hbad => absurd (hrec hbad.1) (by rw [hbad.2]; decide)⟩
    · exact fun hbad => hbad.2.elim (fun hl => hl (hfull hbad.1).1) fun hl => hl (hfull hbad.1).2
  case chunk =>
    exact ⟨_, fwuCmd_runs h fun hr => fwuChunk_stores hr ho hx hseq hph hcrc hnew, _, State.chunkStored_session .., rfl, rfl⟩
  case bitmap =>
    refine fwuCmd_runs h fun hr => ?_
    rw [fwuBitmap, hr, if_neg (by decide), ho, if_neg (by decide), hx]
    rfl
  case apply =>
    refine fwuCmd_runs h fun hr => ?_
    rw [fwuApply, hr, if_neg (by decide), ho, if_neg (by decide), hx]
    dsimp only
    rw [if_neg (not_or.mpr ⟨Nat.not_lt.mpr hall, not_not.mpr hph⟩), if_neg (by decide), hok]
  case applyBad =>
    refine fwuCmd_runs h fun hr => ?_
    rw [fwuApply, hr, if_neg (by decide), ho, if_neg (by decide), hx]
    dsimp only
    rw [if_neg (not_or.mpr ⟨Nat.not_lt.mpr hall, not_not.mpr hph⟩), if_pos rfl]
  case abort =>
    refine fwuCmd_runs h fun hr => ?_
    rw [fwuAbort, hr, if_neg (by decide), ho, if_neg (by decide), hx]
  case activate =>
    let hd := s.handoverTo c (bitsAt c.arg0 0 1) (bitsAt c.arg0 16 12)
    let s1 : State := { s with fwu := { s.fwu with handover := some hd } }
    have hrange : ¬(bitsAt c.arg0 16 12 ≠ 0 ∧ (bitsAt c.arg0 16 12 < 10 ∨ 3600 < bitsAt c.arg0 16 12)) := by omega
    refine ⟨s1.setFwPhase 1, hd, fwuCmd_runs_later h fun hr => ?_, ?_, rfl, rfl, rfl, rfl, s1.setFwPhase_phase 1⟩
    · rw [fwuActivate]
      dsimp only
      rw [hr, if_neg (by decide), if_neg hrange, ho, if_neg (by decide), if_neg]
      · rfl
      · rw [not_or, not_and_or, not_not, not_not, not_not]
        exact ⟨hb, hph⟩
    · rw [State.setFwPhase_fwu]
  case confirm =>
    refine fwuCmd_runs h fun hr => ?_
    rw [fwuConfirm, hr, if_neg (by decide), ho, if_neg (by decide), hh]
    dsimp only
    rw [if_neg (not_or.mpr ⟨not_not.mpr hph, by rw [hconf]; decide⟩)]
  case ucode =>
    refine fwuCmd_runs h fun hr => ?_
    rw [fwuUcodeStage, hr, if_neg (by decide), ho, if_neg (by decide), hp]
    dsimp only
    rw [hu]

/-- The old image takes over again. -/
def State.fellBack (s : State) (h : Handover) (reason : Nat) : State :=
  let s1 := (s.markBank h.target bankFailed reason).markBank (1 - h.target) bankActive 0
  let s2 := { s1 with fwu := { s1.fwu with handover := none, running := 1 - h.target } }
  (s2.setEvent Fld.FWU_EVENT_FALLBACK).setFwPhase 0

theorem State.fallback_trial {s : State} {h : Handover} (hh : s.fwu.handover = some h) (hph : s.fwPhase = 3) (hold : h.oldFollows = true)
    (reason : Nat) : s.fallback reason = s.fellBack h reason := by
  rw [State.fallback, hh]
  exact if_neg (not_or.mpr ⟨not_not.mpr hph, by rw [hold]; decide⟩)

/-- Settles O57: each event has one branch under the clause's conditions. -/
theorem updateEventsTakeEffect : Obligations.UpdateEventsTakeEffect := by
  unfold Obligations.UpdateEventsTakeEffect
  intro s
  refine ⟨fun x hx => ?idle, fun h hh hph => ⟨?commit, ?fail⟩, fun h hh hph => ⟨fun hold => ?oldStops, ?selfConfirm, fun hold => ?back⟩⟩
  case idle =>
    change execSessionIdleExpiry s = _
    rw [execSessionIdleExpiry, hx]
  case commit =>
    change execHandoverCommit s = _
    rw [execHandoverCommit, hh]
    dsimp only
    rw [if_neg (not_not.mpr hph)]
  case fail =>
    change execHandoverFail s = _
    rw [execHandoverFail, hh]
    dsimp only
    rw [if_neg (not_not.mpr hph)]
  case oldStops =>
    change execOldImageStop s = _
    rw [execOldImageStop, hh]
    dsimp only
    rw [if_neg (not_or.mpr ⟨not_not.mpr hph, by rw [hold]; decide⟩)]
  case selfConfirm =>
    change execTrialSelfConfirm s = _
    rw [execTrialSelfConfirm, hh]
    dsimp only
    rw [if_pos hph]
  case back =>
    have hback := fun reason => State.fallback_trial hh hph hold reason
    exact ⟨congrArg Host.Outcome.next (hback 7), congrArg Host.Outcome.next (hback 8), congrArg Host.Outcome.next (hback 8)⟩

end Sys2Proof.Machine
end
section
/-! SUPPORT. The end of a die restart and READY (21 R588, R596). -/

namespace Sys2Proof.Machine
open Sys2Proof

/-! ### A die restart (21 R588) -/

section
variable {s : State} {F : Nat → Fld} {v : Nat} (hF : ∀ k, (F k).lo + (F k).w ≤ 32)
include hF

/-- Fields of registers of their own are each set. -/
theorem State.foldl_fset_fget (hreg : ∀ j k, j ≠ k → (F j).reg ≠ (F k).reg) {n k : Nat} (hk : k < n) :
    ((List.range n).foldl (fun (t : State) k => t.fset (F k) v) s).fget (F k) = v % 2 ^ (F k).w := by
  have hset : ∀ (t : State), (t.fset (F k) v).fget (F k) = v % 2 ^ (F k).w := fun t => State.fget_fset_same _ _ _ (hF k)
  refine foldl_reaches (P := fun _ => True) (Q := fun t : State => t.fget (F k) = v % 2 ^ (F k).w) (x := k) (fun _ _ h => h) (fun _ j h => ?_)
    (fun t _ => hset t) (List.mem_range.mpr hk) trivial
  by_cases hj : j = k
  · rw [hj, hset]
  · rw [State.fget_fset_other _ _ _ _ (hreg k j (Ne.symm hj)), h]

end

theorem State.foldl_fset_fget_other {F : Nat → Fld} {f : Fld} (h : ∀ k, f.reg ≠ (F k).reg) (s : State) (v n : Nat) :
    ((List.range n).foldl (fun (t : State) k => t.fset (F k) v) s).fget f = s.fget f :=
  List.foldlRecOn (motive := fun t : State => t.fget f = s.fget f) _ _ rfl fun _ ht _ _ => (State.fget_fset_other _ _ _ _ (h _)).trans ht

/-- A FE die restart ends: every stack is on but those that failed. -/
def State.feRestarted (s : State) (bad : List Nat) : State :=
  (bad.filter (· < 4)).foldl State.hbfFail
    ((List.range 4).foldl (fun (t : State) k => t.fset (Fld.HBF_STACK_STATUS_STATE k) 2) (s.fset Fld.RST_STATUS_DIE_FE_BUSY 0))

/-- A TM die restart ends: every stack is on but those that failed, whose regions are OUT. -/
def State.tmRestarted (s : State) (bad : List Nat) : State :=
  (List.range 6).foldl (fun (t : State) k =>
    if bad.contains k then
      (stackRegions k).foldl (fun (t : State) r => t.setRegion r { t.region r with state := regOut }) (t.fset (Fld.HBT_STACK_STATUS_STATE k) 4)
    else t.fset (Fld.HBT_STACK_STATUS_STATE k) 2) (s.fset Fld.RST_STATUS_DIE_TM_BUSY 0)

theorem hbfState_ne (k : Nat) : Fld.RST_STATUS_DIE_FE_BUSY.reg ≠ (Fld.HBF_STACK_STATUS_STATE k).reg := by
  simp only [Fld.RST_STATUS_DIE_FE_BUSY, Reg.RST_STATUS, Fld.HBF_STACK_STATUS_STATE, Reg.HBF_STACK_STATUS]
  omega

theorem hbtState_ne (k : Nat) : Fld.RST_STATUS_DIE_TM_BUSY.reg ≠ (Fld.HBT_STACK_STATUS_STATE k).reg := by
  simp only [Fld.RST_STATUS_DIE_TM_BUSY, Reg.RST_STATUS, Fld.HBT_STACK_STATUS_STATE, Reg.HBT_STACK_STATUS]
  omega

section
variable (s : State)

theorem State.feRestarted_nil : s.feRestarted [] =
    (List.range 4).foldl (fun (t : State) k => t.fset (Fld.HBF_STACK_STATUS_STATE k) 2) (s.fset Fld.RST_STATUS_DIE_FE_BUSY 0) := by
  rw [State.feRestarted, List.filter_nil, List.foldl_nil]

theorem State.feRestarted_good : (s.feRestarted []).fbit Fld.RST_STATUS_DIE_FE_BUSY = false ∧
    ∀ k < 4, (s.feRestarted []).fget (Fld.HBF_STACK_STATUS_STATE k) = 2 := by
  rw [State.feRestarted_nil]
  refine ⟨congrArg (· != 0) ((State.foldl_fset_fget_other hbfState_ne _ _ _).trans (State.fget_fset_same _ _ _ (by decide))), fun k hk => ?_⟩
  exact State.foldl_fset_fget (fun k => by simp [Fld.HBF_STACK_STATUS_STATE])
    (fun j k h => by simp only [Fld.HBF_STACK_STATUS_STATE, Reg.HBF_STACK_STATUS]; omega) hk

theorem State.tmRestarted_nil : s.tmRestarted [] =
    (List.range 6).foldl (fun (t : State) k => t.fset (Fld.HBT_STACK_STATUS_STATE k) 2) (s.fset Fld.RST_STATUS_DIE_TM_BUSY 0) :=
  congrArg (fun f : State → Nat → State => (List.range 6).foldl f (s.fset Fld.RST_STATUS_DIE_TM_BUSY 0)) (funext fun t => funext fun k => if_neg (by simp))

theorem State.tmRestarted_good : (s.tmRestarted []).fbit Fld.RST_STATUS_DIE_TM_BUSY = false ∧
    ∀ k < 6, (s.tmRestarted []).fget (Fld.HBT_STACK_STATUS_STATE k) = 2 := by
  rw [State.tmRestarted_nil]
  refine ⟨congrArg (· != 0) ((State.foldl_fset_fget_other hbtState_ne _ _ _).trans (State.fget_fset_same _ _ _ (by decide))), fun k hk => ?_⟩
  exact State.foldl_fset_fget (fun k => by simp [Fld.HBT_STACK_STATUS_STATE])
    (fun j k h => by simp only [Fld.HBT_STACK_STATUS_STATE, Reg.HBT_STACK_STATUS]; omega) hk

end

/-! ### READY (21 R596) -/

/-- READY holds, device time stands at zero, and the tables are the given ones. -/
structure State.ReadyWith (tab : TabState) (t : State) : Prop where
  phase : t.fget Fld.RST_STATUS_PHASE = 8
  ready : t.fget Fld.RST_STATUS_READY = 1
  dom0 : t.tim.dom0 = timeZero
  dom1 : t.tim.dom1 = timeZero
  tab : t.tab = tab

namespace State.ReadyWith
variable {tab : TabState} {t : State} (h : State.ReadyWith tab t)
include h

theorem fset {f : Fld} (hf : Reg.RST_STATUS ≠ f.reg) (v : Nat) : State.ReadyWith tab (t.fset f v) :=
  ⟨(State.fget_fset_other _ _ _ _ hf).trans h.phase, (State.fget_fset_other _ _ _ _ hf).trans h.ready, (congrArg TimState.dom0 (t.fset_tim f v)).trans h.dom0,
    (congrArg TimState.dom1 (t.fset_tim f v)).trans h.dom1, (t.fset_tab f v).trans h.tab⟩

theorem same {u : State} (hr : u.regs = t.regs) (htim : u.tim = t.tim) (htab : u.tab = t.tab) : State.ReadyWith tab u :=
  ⟨(State.fget_congr hr _).trans h.phase, (State.fget_congr hr _).trans h.ready, (congrArg TimState.dom0 htim).trans h.dom0,
    (congrArg TimState.dom1 htim).trans h.dom1, htab.trans h.tab⟩

theorem emit (o : Out) : State.ReadyWith tab (t.emit o) := h.same rfl rfl rfl
theorem withPwr (p : PwrState) : State.ReadyWith tab { t with pwr := p } := h.same rfl rfl rfl
theorem withChain (c : ChainState) : State.ReadyWith tab { t with chain := c } := h.same rfl rfl rfl

end State.ReadyWith

section
variable (s : State)

/-- The state at READY, before a trial starts. -/
def State.madeReady : State :=
  (s.readyRegs.loadReady.releaseThermTrip.sendDiscovery.linkDownUnless Fld.IGL_CTRL_EAST_EN Fld.IGL_STATUS_EAST_UP).linkDownUnless
    Fld.IGL_CTRL_WEST_EN Fld.IGL_STATUS_WEST_UP

theorem State.loadReady_regs : s.loadReady.regs = s.regs := rfl
theorem State.loadReady_tab : s.loadReady.tab = s.tab := rfl

theorem State.loadReady_ready : State.ReadyWith s.tab s.readyRegs.loadReady := by
  refine ⟨?_, ?_, rfl, rfl, ?_⟩
  · rw [State.fget_congr s.readyRegs.loadReady_regs, State.readyRegs, State.fget_fset_other _ _ _ _ (by decide),
      State.fget_fset_other _ _ _ _ (by decide), State.fget_fset_apart _ _ _ _ (by decide) (by decide), State.fget_fset_same _ _ _ (by decide)]
    rfl
  · rw [State.fget_congr s.readyRegs.loadReady_regs, State.readyRegs, State.fget_fset_other _ _ _ _ (by decide),
      State.fget_fset_other _ _ _ _ (by decide), State.fget_fset_same _ _ _ (by decide)]
    rfl
  · rw [State.loadReady_tab, State.readyRegs, State.fset_tab, State.fset_tab, State.fset_tab, State.fset_tab]

theorem State.madeReady_ready : State.ReadyWith s.tab s.madeReady := by
  have htrip : ∀ t : State, State.ReadyWith s.tab t → State.ReadyWith s.tab t.releaseThermTrip := fun t h =>
    State.of_ite (P := State.ReadyWith s.tab) ((h.withPwr _).emit _) h
  have hdisc : ∀ t : State, State.ReadyWith s.tab t → State.ReadyWith s.tab t.sendDiscovery := fun t h =>
    State.of_ite (P := State.ReadyWith s.tab) ((((h.withChain _).fset (by decide) _).emit _).emit _) h
  have hlink : ∀ (t : State) (en up : Fld), up.reg = Reg.IGL_STATUS → State.ReadyWith s.tab t → State.ReadyWith s.tab (t.linkDownUnless en up) :=
    fun t en up hup h => State.of_ite (P := State.ReadyWith s.tab) h (h.fset (by rw [hup]; decide) _)
  exact hlink _ _ _ rfl (hlink _ _ _ rfl (hdisc _ (htrip _ s.loadReady_ready)))

end

end Sys2Proof.Machine
end
section
/-! CERTIFICATES. Resets, Priming and the start of the endpoint (O58). -/

namespace Sys2Proof.Machine
open Sys2Proof

/-- Settles O58: each event has one branch under the clause's conditions. -/
theorem startUpEventsTakeEffect : Obligations.StartUpEventsTakeEffect := by
  unfold Obligations.StartUpEventsTakeEffect
  intro s
  refine ⟨fun held hheld => ?por, fun r hph hcol htrip hj => ⟨fun hno => ?recovery, fun s2 k hno harm hboot => ?primes⟩, fun die bad hdie hbusy => ?dieDone,
    fun ho hrel hph => ?ready, fun ho => ⟨fun hst => ?endpoint, fun hst hfz hact => ?asks, fun hst hfz hact => ?hostPath⟩,
    fun speed width flit ho => ?perst, fun ho hl => ?config, fun ho => ⟨?clock0, fun clock h1 h4 => ?lanes, ?clock7, fun clock hc => ?fabric, fun href => ?clock8⟩⟩
  case por =>
    refine ⟨s.powerOnReset, if_neg (Nat.not_lt.mpr hheld), ?_, ?_, ?_, ?_, ?_⟩
    · simp [State.powerOnReset, State.strapRegs]
    · simp [State.powerOnReset, State.strapRegs, State.off]
    · simp [State.powerOnReset, State.strapRegs, State.restarted]
    · simp [State.powerOnReset, State.strapRegs, State.restarted]
    · simp [State.powerOnReset, State.strapRegs, State.restarted]
  case recovery =>
    refine (if_neg ?_).trans (if_pos (.inl hno))
    rw [hph, hcol, htrip, hj]
    decide
  case primes =>
    change execPrimingStart r s = _
    rw [execPrimingStart, if_neg (by rw [hph, hcol, htrip, hj]; decide)]
    dsimp only
    rw [if_neg (not_or.mpr ⟨by rw [hno]; decide, by rw [harm]; decide⟩), hboot]
  case dieDone =>
    obtain rfl | rfl : die = 0 ∨ die = 1 := by omega
    · refine ⟨s.feRestarted bad, ?_, ?_⟩
      · exact (if_neg (not_or.mpr ⟨by decide, fun he => Bool.noConfusion (hbusy.symm.trans he)⟩)).trans (if_pos rfl)
      · rintro rfl
        exact ⟨s.feRestarted_good.1, fun _ => s.feRestarted_good.2, fun h => absurd h (by decide)⟩
    · refine ⟨s.tmRestarted bad, ?_, ?_⟩
      · exact (if_neg (not_or.mpr ⟨by decide, fun he => Bool.noConfusion (hbusy.symm.trans he)⟩)).trans (if_neg (by decide))
      · rintro rfl
        exact ⟨s.tmRestarted_good.1, fun h => absurd h (by decide), fun _ => s.tmRestarted_good.2⟩
  case ready =>
    have hm := s.madeReady_ready
    exact ⟨s.madeReady, exec_ready ho hrel hph, hm.phase, congrArg (· != 0) hm.ready, hm.dom0, hm.dom1, hm.tab⟩
  case endpoint => exact (if_neg (by rw [ho]; decide)).trans (if_pos hst)
  case asks =>
    exact (if_neg (by rw [ho]; decide)).trans ((if_neg (not_or.mpr ⟨by rw [hst]; decide, hfz⟩)).trans (if_pos hact))
  case hostPath =>
    exact (if_neg (by rw [ho]; decide)).trans ((if_neg (not_or.mpr ⟨by rw [hst]; decide, hfz⟩)).trans (if_neg (by rw [hact]; decide)))
  case perst =>
    refine ⟨_, if_neg (by rw [ho]; decide), ?_, State.fget_fset_same _ _ _ (by decide), ?_, ?_⟩
    · simp
    · rw [State.fget_fset_apart _ _ _ _ (by decide) (by decide), State.fget_fset_apart _ _ _ _ (by decide) (by decide),
        State.fget_fset_apart _ _ _ _ (by decide) (by decide), State.fget_fset_same _ _ _ (by decide)]
    · simp
  case config => exact if_neg (by rw [ho, hl]; decide)
  case clock0 => exact (if_neg (by rw [ho]; decide)).trans (if_pos rfl)
  case lanes =>
    exact (if_neg (by rw [ho]; decide)).trans ((if_neg (Nat.ne_of_gt h1)).trans (if_pos h4))
  case clock7 =>
    exact (if_neg (by rw [ho]; decide)).trans ((if_neg (by decide)).trans ((if_neg (by decide)).trans ((if_neg (by decide)).trans (if_pos rfl))))
  case fabric =>
    exact (if_neg (by rw [ho]; decide)).trans ((if_neg (by omega)).trans ((if_neg (by omega)).trans (if_pos (by omega))))
  case clock8 =>
    exact (if_neg (by rw [ho]; decide)).trans ((if_neg (by decide)).trans ((if_neg (by decide)).trans ((if_neg (by decide)).trans
      ((if_neg (by decide)).trans ((if_pos rfl).trans (if_pos href))))))

end Sys2Proof.Machine
end
section
/-! SUPPORT. The halt of the command engine, and the takeover of the wellhead role (02 R57, R68). -/

namespace Sys2Proof.Machine
open Sys2Proof

section
variable {m v off i j : Nat} {bad : Bool} {s p : State}

theorem blockRule_IGL_TAKEOVER : blockRule m v bad off Reg.IGL_TAKEOVER i j s p = some (iglTakeover v s) := rfl
theorem blockRule_IGL_RELEASE : blockRule m v bad off Reg.IGL_RELEASE i j s p = some (iglRelease v s, .ok) := rfl

end

/-! ### The halt -/

section
variable (s : State) (ring reason pos : Nat)

theorem State.setReg_outsideCount (off : Nat) (v : Word) : (s.setReg off v).outsideCount = s.outsideCount :=
  State.outsideCount_of_report (by simp [State.outsideReport])

theorem State.ceHalt_outsideCount : (s.ceHalt ring reason pos).outsideCount = s.outsideCount := by
  unfold State.ceHalt
  split
  · rfl
  · rw [State.logEntry_outsideCount, State.withSource_outsideCount _ fun t => t.fset_outsideCount _ _]
    exact (State.outsideCount_of_report (State.withCe_outsideReport _ _)).trans (State.setReg_outsideCount ..)

variable {s ring reason pos} in
theorem State.ceHalt_reg_far {off : Nat} (h : farReg off) (hinfo : off ≠ Reg.CE_HALT_INFO) (hstatus : off ≠ Reg.CE_STATUS) :
    (s.ceHalt ring reason pos).reg off = s.reg off := by
  unfold State.ceHalt
  split
  · rfl
  · rw [State.logEntry_reg_far h, State.withSource_reg_plain h.plain, State.reg_fset_other _ _ (by exact hstatus), State.withCe_reg]
    exact State.reg_setReg_other _ hinfo _

end

/-! ### The host passes (R88) -/

section
variable (s : State)

/-- Blocks of the primary host pass to the standby host. -/
def State.passBlocks : State :=
  (List.range 28).foldl (fun (t : State) b =>
    let o := t.fget (Fld.GLB_OWN_OWNER b)
    if 1 ≤ o ∧ o ≤ 8 then t.fset (Fld.GLB_OWN_OWNER b) 9 else t) s

/-- A session of a primary-host master passes too, and the chain's host is the standby one. -/
def State.passSession : State :=
  { s with fwu := { s.fwu with session := s.fwu.session.map fun x => if 1 ≤ x.holder ∧ x.holder ≤ 8 then { x with holder := 9 } else x }
           chain := { s.chain with hostIsStandby := true, cutOff := false } }

theorem State.passHost_eq : s.passHost = s.passBlocks.passSession.ceHalt 0 10 0 := rfl

theorem State.passBlocks_ownId : s.passBlocks.ownId = s.ownId := by
  refine List.foldlRecOn (motive := fun t : State => t.ownId = s.ownId) _ _ rfl fun t ht b hb => ?_
  rw [List.mem_range] at hb
  have hne : Fld.IGL_ID_CHAIN_ID.reg ≠ (Fld.GLB_OWN_OWNER b).reg := by
    simp only [Fld.IGL_ID_CHAIN_ID, Reg.IGL_ID, Fld.GLB_OWN_OWNER, Reg.GLB_OWN]
    omega
  exact State.of_ite (P := fun u : State => u.ownId = s.ownId) ((State.fget_fset_other _ _ _ _ hne).trans ht) ht

theorem State.passSession_ownId : s.passSession.ownId = s.ownId := State.fget_congr rfl _

theorem State.passHost_ownId : s.passHost.ownId = s.ownId := by
  have hhalt : s.passHost.reg Reg.IGL_ID = s.passBlocks.passSession.reg Reg.IGL_ID :=
    State.ceHalt_reg_far (by unfold farReg; decide) (by decide) (by decide)
  have hid : s.passHost.ownId = s.passBlocks.passSession.ownId := congrArg (fun r : Word => bitsAt r.toNat 0 6) hhalt
  rw [hid, State.passSession_ownId, State.passBlocks_ownId]

theorem State.passHost_standby : s.passHost.chain.hostIsStandby = true := by
  have hchain : s.passHost.chain = s.passBlocks.passSession.chain :=
    State.eq_of_outsideCount (State.ceHalt_outsideCount ..) State.chain fun _ => rfl
  rw [hchain]
  rfl

/-- The wellhead role is taken over. -/
def State.takenOver : State :=
  let s1 := s.passHost
  let s2 := { s1 with chain := { s1.chain with active := true, released := false, lostSince := none } }
  s2.fset Fld.IGL_STATUS_WELLHEAD_ID s2.ownId

theorem State.withChain_ownId (c : ChainState) : ({ s with chain := c } : State).ownId = s.ownId := State.fget_congr rfl _

theorem State.takenOver_chain : s.takenOver.chain = { s.passHost.chain with active := true, released := false, lostSince := none } :=
  State.fset_chain ..

theorem State.takenOver_head : s.takenOver.fget Fld.IGL_STATUS_WELLHEAD_ID = s.ownId := by
  rw [State.takenOver]
  refine (State.fget_fset_same _ _ _ (by decide)).trans ?_
  rw [State.withChain_ownId, State.passHost_ownId]
  exact Nat.mod_eq_of_lt (bitsAt_lt _ _ _)

end

theorem iglTakeover_taken {s : State} {v : Nat} (hv : bitAt v 0 = true) (hs : s.isStandby = true) (hd : s.takeoverDue = true) :
    iglTakeover v s = (s.takenOver.chainAll .takeover, .ok) := by
  rw [iglTakeover, hv, hs, hd]
  rfl

theorem iglTakeover_refused {s : State} {v : Nat} (hv : bitAt v 0 = true) (h : s.isStandby = false ∨ s.takeoverDue = false) :
    iglTakeover v s = (s.satAdd (Fld.GLB_OWN_REJECT_CNT 4) 1, .rejected) := by
  have hno : (s.isStandby && s.takeoverDue) = false := by
    rw [Bool.and_eq_false_iff]
    exact h
  rw [iglTakeover, hv, hno]
  rfl

theorem iglRelease_released {s : State} {v : Nat} (hv : bitAt v 0 = true) (ha : s.chain.active = true) :
    iglRelease v s = ({ s with chain := { s.chain with released := true } } : State).chainAll .released :=
  if_pos (by rw [hv, ha]; decide)

end Sys2Proof.Machine
end
section
/-! CERTIFICATES. The chain (O59). -/

namespace Sys2Proof.Machine
open Sys2Proof

/-- Settles O59: each event has one branch under the clause's conditions. -/
theorem chainEventsTakeEffect : Obligations.ChainEventsTakeEffect := by
  unfold Obligations.ChainEventsTakeEffect
  intro s ho hfz
  refine ⟨fun east f src dst seq hrun hup hmsg => ?ack, fun east f hrun hup hmsg => ?frame, fun east closed found hrun hup => ?down,
    fun east closed found hrun hup hen => ?up, fun dev hact hp => ?absent, fun hcut hch => ?lost,
    fun m v ht => ⟨fun hs hd => ?takeover, fun h => ?refused⟩, fun m v ht hact => ?release, fun m off len v => rfl,
    fun m n off len v hs hn hact => ?window⟩
  case ack =>
    have hgo : ¬(s.chainRuns = false ∨ s.fbit (upFld east) = false) := not_or.mpr ⟨by rw [hrun]; decide, by rw [hup]; decide⟩
    refine ⟨{ s with chain := { s.chain with unacked := s.chain.unacked.filter fun x => !(x.2.src == src && x.2.dst == dst && x.2.seq == seq) } },
      ?_, rfl, rfl, fun x => ?_⟩
    · change execChainFrameReceive east f s = _
      rw [execChainFrameReceive, if_neg hgo, hmsg]
    · rw [List.mem_filter, Bool.not_eq_true', ← Bool.not_eq_true, Bool.and_eq_true, Bool.and_eq_true, beq_iff_eq, beq_iff_eq, beq_iff_eq, and_assoc]
  case frame =>
    have hgo : ¬(s.chainRuns = false ∨ s.fbit (upFld east) = false) := not_or.mpr ⟨by rw [hrun]; decide, by rw [hup]; decide⟩
    have hexec : exec (.chainFrameReceive east f) s =
        if f.dst = s.ownId ∧ s.fbit Fld.IGL_STATUS_DUP_ID = false then .next ((s.chainAck east f).chainTake f)
        else .next ((s.chainAck east f).chainPut (if s.fbit (upFld !east) then !east else east) f) := by
      change execChainFrameReceive east f s = _
      rw [execChainFrameReceive, if_neg hgo]
      split
      next src dst seq he => exact absurd he (hmsg src dst seq)
      next => exact if_neg fun h => hfz h.1
    exact ⟨fun hd hdup => hexec.trans (if_pos ⟨hd, hdup⟩), fun hd => hexec.trans (if_neg fun h => hd h.1)⟩
  case down =>
    exact if_neg (not_or.mpr ⟨by rw [hrun]; decide, not_or.mpr ⟨by rw [hup]; decide, hfz⟩⟩)
  case up =>
    refine if_neg (not_or.mpr ⟨by rw [hrun]; decide, not_or.mpr ⟨?_, not_or.mpr ⟨by rw [hup]; decide, hfz⟩⟩⟩)
    rw [hen, Bool.true_or]
    decide
  case absent =>
    exact if_neg (not_or.mpr ⟨by rw [ho]; decide, not_or.mpr ⟨by rw [hact]; decide, by rw [hp]; decide⟩⟩)
  case lost =>
    refine (if_neg (not_or.mpr ⟨by rw [ho]; decide, not_or.mpr ⟨by rw [hcut]; decide, hfz⟩⟩)).trans ?_
    refine congrArg (fun t : State => Host.Outcome.next (t.ceHalt 0 9 0)) ?_
    refine List.foldlRecOn (motive := fun t : State => t = s) _ _ rfl fun t ht ch hmem => ?_
    rw [ht, hch ch (List.mem_range.mp hmem)]
  case takeover =>
    have hrow := rowWrite_rule (w := .ok) rfl ht rowOf_IGL_TAKEOVER (blockRule_IGL_TAKEOVER.trans
      (congrArg some (iglTakeover_taken (bitAt_wv_go rowOf_IGL_TAKEOVER v (by decide +kernel)) hs hd)))
    refine ⟨s.takenOver, hrow, ?_, s.takenOver_head, ?_⟩
    · rw [State.takenOver_chain]
    · rw [State.takenOver_chain]
      exact s.passHost_standby
  case refused =>
    exact rowWrite_rule (w := .rejected) rfl ht rowOf_IGL_TAKEOVER (blockRule_IGL_TAKEOVER.trans
      (congrArg some (iglTakeover_refused (bitAt_wv_go rowOf_IGL_TAKEOVER v (by decide +kernel)) h)))
  case release =>
    exact rowWrite_rule (w := .ok) rfl ht rowOf_IGL_RELEASE (blockRule_IGL_RELEASE.trans
      (congrArg (fun t : State => some (t, Wr.ok)) (iglRelease_released (bitAt_wv_go rowOf_IGL_RELEASE v (by decide +kernel)) hact)))
  case window =>
    refine (if_neg (not_or.mpr ⟨by rw [ho]; decide, hfz⟩)).trans ((if_neg (by rw [hs]; decide)).trans ((if_neg hn).trans
      ((if_neg (by rw [hact]; decide)).trans ?_)))
    exact (apply_ite Host.Outcome.next _ _ _).symm

end Sys2Proof.Machine
end
section
/-! CERTIFICATES. The test access port and I3C (O60). -/

namespace Sys2Proof.Machine
open Sys2Proof

/-- The I3C pointer moves. -/
def State.setI3cPtr (s : State) (p : Nat) : State := { s with rst := { s.rst with i3cPtr := p } }

section
variable (s : State) (p : Nat)

theorem State.setI3cPtr_ptr : (s.setI3cPtr p).rst.i3cPtr = p := rfl
theorem State.setI3cPtr_regs : (s.setI3cPtr p).regs = s.regs := rfl
theorem State.setI3cPtr_outs : (s.setI3cPtr p).outs = s.outs := rfl

end

section
variable {s : State} (hs : s.sideServed = true) (ha : s.rst.i3cAddr.isSome = true)
include hs ha

theorem State.i3cServed_of : s.i3cServed = true := by rw [State.i3cServed, hs, ha]; rfl

theorem i3cWrite_pointer {bytes : List Byte} (hl : bytes.length = 4) : i3cWrite bytes s = .next (s.setI3cPtr (leAt bytes 0 4 % 2 ^ 32)) := by
  rw [i3cWrite, State.i3cServed_of hs ha, if_neg (by decide), if_pos hl]
  rfl

theorem i3cWrite_register {bytes : List Byte} (hl : bytes.length = 8) (hoff : leAt bytes 0 4 % 4 = 0) : i3cWrite bytes s
    = .next ((s.writeReg 0xA (leAt bytes 0 4) (leAt bytes 4 4 % 2 ^ 32) false).1.setI3cPtr ((leAt bytes 0 4 + 4) % 2 ^ 32)) := by
  rw [i3cWrite, State.i3cServed_of hs ha, if_neg (by decide), if_neg (by rw [hl]; decide), if_pos hl, State.sideWrite, if_pos hoff]
  rfl

theorem execI3cRead_served {n : Nat} (hn : n % 4 = 0) : execI3cRead n s
    = .next ((s.setI3cPtr ((s.rst.i3cPtr + n) % 2 ^ 32)).emit (.readData ((List.range (n / 4)).flatMap fun i =>
        leBytes 4 (s.readBy none ((s.rst.i3cPtr + 4 * i) % 2 ^ 32))))) := by
  rw [execI3cRead, State.i3cServed_of hs ha, if_neg (not_or.mpr ⟨by decide, not_not.mpr hn⟩)]
  rfl

end

/-- Settles O60: each operation has one branch under the clause's conditions. -/
theorem sidebandTakesEffect : Obligations.SidebandTakesEffect := by
  unfold Obligations.SidebandTakesEffect
  intro s hc
  have hon : ¬s.pwr.collapsed = true := by
    rw [hc]
    decide
  have hserved : s.rst.porLow = false → s.sideServed = true := fun hp => by
    rw [State.sideServed, hc, hp]
    rfl
  refine ⟨if_neg hon, fun n tdi => if_neg hon, if_neg hon, fun n tdi hp => ?boundary, fun n tdi hp => ?bypass, fun off v hp hoff => ⟨?regWrite, ?regRead⟩,
    if_neg hon, fun addr hp ha => ?entdaa, fun bytes hp ha hl => ?pointer, fun bytes hp ha hl hoff => ?register, fun n hp ha hn => ?read⟩
  case boundary =>
    have htakes : ∀ i, jtagBoundary i n tdi s = .next (s.jtagLoad i true) := fun i =>
      (if_neg hon).trans (congrArg Host.Outcome.next (if_pos hp))
    exact ⟨htakes _, htakes _, htakes _, htakes _, htakes _⟩
  case bypass =>
    refine ⟨(s.jtagLoad .extest true).jtagShift n tdi, ?_, ?_, rfl⟩
    · refine (if_neg hon).trans (congrArg Host.Outcome.next (if_neg ?_))
      rw [hp]
      decide
    · change (true && s.rst.porLow) = false
      rw [hp]
      rfl
  case regWrite =>
    refine (if_neg hon).trans ((if_neg ?_).trans ((if_pos rfl).trans (congrArg Host.Outcome.next (if_pos hoff))))
    rw [hserved hp]
    decide
  case regRead =>
    refine (if_neg hon).trans ((if_neg ?_).trans (if_neg (by decide)))
    rw [hserved hp]
    decide
  case entdaa =>
    refine ⟨_, if_neg (not_or.mpr ⟨?_, ?_⟩), rfl, rfl, rfl⟩
    · rw [hserved hp]
      decide
    · rw [ha]
      decide
  case pointer =>
    exact ⟨_, i3cWrite_pointer (hserved hp) ha hl, State.setI3cPtr_ptr .., State.setI3cPtr_regs .., State.setI3cPtr_outs ..⟩
  case register =>
    exact ⟨_, i3cWrite_register (hserved hp) ha hl hoff, State.setI3cPtr_regs .., State.setI3cPtr_ptr ..⟩
  case read => exact ⟨_, execI3cRead_served (hserved hp) ha hn, rfl, rfl, rfl⟩

end Sys2Proof.Machine
end
section
/-! SUPPORT. What the clients of a FlexE group and the packets they cut leave alone: the groups and their registers (05 R173-R177). -/

namespace Sys2Proof.Machine
open Sys2Proof

/-- The registers of the FlexE groups. -/
def groupReg (off : Nat) : Prop := 0x1200000 ≤ off ∧ off < 0x1208000

theorem groupReg.far {off : Nat} (h : groupReg off) : farReg off := .inr (Nat.le_trans (by decide) h.1)

/-- The groups and their registers are as they were. -/
structure State.GroupsKept (s t : State) : Prop where
  groups : t.ports.groups = s.ports.groups
  regs : ∀ off, groupReg off → t.reg off = s.reg off

theorem State.lt_of_mem_pmcOf {s : State} {b ev n : Nat} (h : n ∈ s.pmcOf b ev) : n < 2048 := by
  unfold State.pmcOf at h
  obtain ⟨kv, -, hkv⟩ := List.mem_filterMap.mp h
  split at hkv
  next hc =>
    obtain ⟨-, hhi, -⟩ := hc
    simp only [Reg.PMC_CFG, Option.some.injEq] at hhi hkv
    omega
  next => exact absurd hkv (by simp)

theorem clientStatus_past (c : Nat) : 0x1208000 ≤ Reg.FXE_CLIENT_STATUS c := by
  simp only [Reg.FXE_CLIENT_STATUS]
  omega

namespace State.GroupsKept

theorem refl (s : State) : s.GroupsKept s := ⟨rfl, fun _ _ => rfl⟩

theorem trans {s t u : State} (h : s.GroupsKept t) (h' : t.GroupsKept u) : s.GroupsKept u :=
  ⟨h'.groups.trans h.groups, fun off ho => (h'.regs off ho).trans (h.regs off ho)⟩

theorem foldl {α : Type} {f : State → α → State} {l : List α} (hf : ∀ (t : State), ∀ x ∈ l, t.GroupsKept (f t x)) (s : State) :
    s.GroupsKept (l.foldl f s) :=
  List.foldlRecOn (motive := fun t : State => s.GroupsKept t) l f (refl s) fun t ht x hx => ht.trans (hf t x hx)

theorem ite {s t u : State} {c : Prop} [Decidable c] (ht : s.GroupsKept t) (hu : s.GroupsKept u) : s.GroupsKept (if c then t else u) :=
  State.of_ite (P := s.GroupsKept) ht hu

/-! ### Writes of the state -/

section
variable (s : State)

theorem same {t : State} (hp : t.ports.groups = s.ports.groups) (hr : t.regs = s.regs) : s.GroupsKept t := ⟨hp, fun _ _ => State.reg_congr hr _⟩

theorem withTm (x : TmState) : s.GroupsKept { s with tm := x } := same s rfl rfl
theorem withPath (x : PathState) : s.GroupsKept { s with path := x } := same s rfl rfl
theorem withHost (x : HostState) : s.GroupsKept { s with host := x } := same s rfl rfl
theorem withPmcs (x : PmcState) : s.GroupsKept { s with pmcs := x } := same s rfl rfl
theorem withPorts {x : PortsState} (h : x.groups = s.ports.groups) : s.GroupsKept { s with ports := x } := same s h rfl
theorem emit (o : Out) : s.GroupsKept (s.emit o) := same s rfl rfl
theorem free (n : Nat) : s.GroupsKept (s.free n).2 := same s rfl rfl

variable {f : Fld}

theorem fset (h : ¬groupReg f.reg) (v : Nat) : s.GroupsKept (s.fset f v) :=
  ⟨congrArg PortsState.groups (s.fset_ports f v), fun _ ho => s.reg_fset_other f (fun he => h (he ▸ ho)) v⟩

theorem satAdd (h : ¬groupReg f.reg) (n : Nat) : s.GroupsKept (s.satAdd f n) := fset s h _

theorem setEvent (h : ¬groupReg f.reg) : s.GroupsKept (s.setEvent f) :=
  ⟨congrArg PortsState.groups (s.setEvent_portsState f), fun _ ho => State.setEvent_reg_plain ho.far.plain fun he => h (he ▸ ho)⟩

theorem raiseError {code info : Nat} (h : s.severity code info ≠ some 3) : s.GroupsKept (s.raiseError code info) :=
  ⟨congrArg PortsState.groups (State.eq_of_outsideCount (State.raiseError_outsideCount h) State.ports fun _ => rfl),
    fun _ ho => State.raiseError_reg_far h ho.far⟩

/-! ### Performance counters (19 R543-R550) -/

/-- The overflow words of the banks lie below the groups. -/
theorem pmcWrapped {b n : Nat} (hb : b ≤ 1) (hn : n ≤ 2048) : s.GroupsKept (s.pmcWrapped b n) := by
  have hovf : ¬groupReg (Fld.PMC_OVF_OVF b (n / 32)).reg := by
    simp only [groupReg, Fld.PMC_OVF_OVF, Reg.PMC_OVF]
    omega
  have hev : ¬groupReg (if b = 0 then Fld.PMC_EVENT_OVF_FE else Fld.PMC_EVENT_OVF_TM).reg := by
    unfold groupReg
    split <;> decide
  exact ite ((fset s hovf _).trans (setEvent _ hev)) (fset s hovf _)

theorem pmcAdd {b n : Nat} (hb : b ≤ 1) (hn : n < 2048) (k : Nat) : s.GroupsKept (s.pmcAdd b n k) := by
  unfold State.pmcAdd
  refine ite (withPmcs s _) (ite (ite ?_ ?_) ?_)
  · exact (withPmcs s _).trans (withPmcs _ _)
  · exact ((withPmcs s _).trans (withPmcs _ _)).trans (pmcWrapped _ hb hn)
  · exact (withPmcs s _).trans (pmcWrapped _ hb (Nat.le_of_lt hn))

theorem pmc {ev : Nat} (hev : ev / 0x800 ≤ 1) (inst qual k : Nat) : s.GroupsKept (s.pmc ev inst qual k) := by
  unfold State.pmc
  refine ite (refl s) (foldl (fun t n hn => ?_) s)
  exact ite (pmcAdd t hev (State.lt_of_mem_pmcOf hn) k) (refl t)

/-! ### Queues, cells and packets (11, 12, 14) -/

theorem setQueue (q : Nat) (v : Queue) : s.GroupsKept (s.setQueue q v) := withTm s _

theorem setWst (depth i : Nat) (w : Wst) : s.GroupsKept (s.setWst depth i w) := ite (withTm s _) (withTm s _)

theorem drainDec (g : Nat) : s.GroupsKept (s.drainDec g) := by
  have hcount : ¬groupReg (Fld.GEN_DRAIN_COUNT g).reg := by
    simp only [groupReg, Fld.GEN_DRAIN_COUNT, Reg.GEN_DRAIN]
    omega
  refine ite ((setEvent s (by unfold groupReg; decide)).trans (raiseError _ ?_)) (fset s hcount _)
  simp [State.severity]

theorem directDone (p : Pkt) (stamp : Option Nat) (status : Nat) : s.GroupsKept (s.directDone p stamp status) := by
  unfold State.directDone
  split
  · exact refl s
  · split
    · exact foldl (fun t slot _ => emit t _) s
    · exact (free s 4).trans (foldl (fun t slot _ => emit t _) _)

theorem mibAdd_control (p : Nat) : s.GroupsKept (s.mibAdd p 12 1) := ite (withPorts s rfl) (withPorts s rfl)

theorem sendControl (p : Nat) (frame : List Byte) : s.GroupsKept (s.sendControl p frame) := (mibAdd_control s p).trans (emit _ _)

theorem pfcUpdate (p k : Nat) : s.GroupsKept (s.pfcUpdate p k) := by
  have hxoff : ¬groupReg (fldXoff p).reg := by
    simp only [groupReg, fldXoff, Reg.BUF_PFC_XOFF]
    omega
  unfold State.pfcUpdate
  refine ite (refl s) ?_
  split
  exact ite ((fset s hxoff _).trans (sendControl _ _ _)) (ite ((fset s hxoff _).trans (sendControl _ _ _)) (refl s))

theorem acctChanged (q : QPkt) : s.GroupsKept (s.acctChanged q) := by
  unfold State.acctChanged
  split
  · exact pfcUpdate s _ _
  · exact refl s

theorem dropped (qp : QPkt) : s.GroupsKept (s.dropped qp) := ((drainDec s _).trans (acctChanged _ _)).trans (directDone _ _ _ _)

theorem sendOn (l : Nat) (c : FabCell) : s.GroupsKept (s.sendOn l c) := by
  unfold State.sendOn
  split
  · exact (withTm s _).trans (emit _ _)
  · refine .trans ?_ ((emit _ _).trans (pmc _ (by decide) _ _ _))
    exact ite (withTm s _) ((withTm s _).trans (withTm _ _))

theorem sendWaiting (cs : List FabCell) (blocked : List Nat) (s : State) : s.GroupsKept (sendWaiting cs blocked s).1 := by
  induction cs generalizing blocked s with
  | nil => exact refl s
  | cons c cs ih =>
    have hfull : ∀ l, ¬groupReg (Fld.FAB_LINK_REPLAY_FULL l).reg := fun l => by
      simp only [groupReg, Fld.FAB_LINK_REPLAY_FULL, Reg.FAB_LINK_REPLAY]
      omega
    unfold Machine.sendWaiting
    split
    · exact ih _ _
    · split
      · exact ih _ _
      · split
        · exact (satAdd s (hfull _) 1).trans (ih _ _)
        · exact (sendOn s _ _).trans (ih _ _)

theorem drainCells : s.GroupsKept s.drainCells := (sendWaiting s.tm.cellWait [] s).trans (withTm _ _)

theorem cutPacket (x : QPkt) : s.GroupsKept (s.cutPacket x) := by
  unfold State.cutPacket
  refine .trans ?_ (directDone _ _ _ _)
  exact .trans (withTm s _) (drainDec _ _)

theorem cutReady (xs : List QPkt) (blocked : List Nat) (s : State) : s.GroupsKept (cutReady xs blocked s).1 := by
  induction xs generalizing blocked s with
  | nil => exact refl s
  | cons x xs ih =>
    unfold Machine.cutReady
    dsimp only
    split
    · exact (cutPacket s x).trans (ih _ _)
    · exact ih _ _

theorem pump : s.GroupsKept s.pump := ((cutReady s.tm.cutQ [] s).trans (withTm _ _)).trans (drainCells _)

theorem dropHeads (fuel q : Nat) (s : State) : s.GroupsKept (dropHeads fuel q s) := by
  induction fuel generalizing s with
  | zero => exact refl s
  | succ fuel ih =>
    unfold Machine.dropHeads
    dsimp only
    split
    · exact refl s
    · refine ite (refl s) (ite ?_ (ite ?_ (refl s)))
      · exact (((setQueue s _ _).trans (satAdd _ (by unfold groupReg; decide) 1)).trans (dropped _ _)).trans (ih _)
      · exact (((setQueue s _ _).trans (withTm _ _)).trans (dropped _ _)).trans (ih _)

theorem rebacklog (fuel depth i : Nat) (s : State) : s.GroupsKept (rebacklog fuel depth i s) := by
  induction fuel generalizing depth i s with
  | zero => exact refl s
  | succ fuel ih =>
    unfold Machine.rebacklog
    dsimp only
    refine ite ?_ (.trans ?_ (ih _ _ _))
    · exact ite (refl s) (ite (setWst s depth i _) (setWst s depth i _))
    · exact ite (refl s) (ite (setWst s depth i _) (setWst s depth i _))

theorem statusMsg (q : Nat) (on : Bool) : s.GroupsKept (s.statusMsg q on) := (withTm s _).trans (drainCells _)

theorem creditCheck (q : Nat) : s.GroupsKept (s.creditCheck q) := by
  unfold State.creditCheck
  dsimp only
  split
  · exact refl s
  · refine ite (refl s) (ite (ite ?_ (refl s)) (ite ?_ (refl s)))
    · exact (setQueue s _ _).trans (statusMsg _ _ _)
    · exact (setQueue s _ _).trans (statusMsg _ _ _)

theorem settleQueue (q : Nat) : s.GroupsKept (s.settleQueue q) := by
  have hdrop := dropHeads (s.queue q).pkts.length q s
  exact ite (hdrop.trans ((rebacklog _ _ _ _).trans (creditCheck _ _))) hdrop

theorem updPkt (id : Nat) (f : Pkt → Pkt) : s.GroupsKept (s.updPkt id f) :=
  (((withTm s _).trans (foldl (fun t x _ => acctChanged t x) _)).trans (pump _)).trans (foldl (fun t q _ => settleQueue t q) _)

theorem updPacket (id : Nat) (f : Pkt → Pkt) : s.GroupsKept (s.updPacket id f) := (withPath s _).trans (updPkt _ _ _)

theorem failPackets (ids : List Nat) : s.GroupsKept (s.failPackets ids) := by
  unfold State.failPackets
  refine ((foldl (fun t id _ => updPacket t id _) s).trans (withHost _ _)).trans (foldl (fun t kv _ => ?_) _)
  split
  exact (withPath t _).trans (foldl (fun u p _ => drainDec u _) _)

theorem failFrame (id : Nat) : s.GroupsKept (s.failFrame id) := ((withPath s _).trans (failPackets _ _)).trans (withPath _ _)

/-! ### Clients (05 R174-R177) -/

theorem mibAdd_client (c counter n : Nat) : s.GroupsKept (s.mibAdd (128 + c) counter n) := by
  rw [State.mibAdd, if_neg (by omega)]
  exact withPorts s rfl

theorem client_fset {f : Fld} (h : 0x1208000 ≤ f.reg) (v : Nat) : s.GroupsKept (s.fset f v) := fset s (fun hg => Nat.not_lt.mpr h hg.2) v

theorem linkEvent_client (c bit : Nat) : s.GroupsKept (s.linkEvent (128 + c) bit) := by
  rw [State.linkEvent, if_neg (by omega)]
  refine setEvent s ?_
  simp only [groupReg, Reg.FXE_CLIENT_EVENT]
  omega

theorem setLinkState_client (c st : Nat) : s.GroupsKept (s.setLinkState (128 + c) st) := by
  rw [State.setLinkState, if_neg (by omega)]
  exact client_fset s (clientStatus_past _) st

theorem selectPath (c path : Nat) (forSf : Bool) : s.GroupsKept (s.selectPath c path forSf) := by
  unfold State.selectPath
  refine ite (refl s) ?_
  refine .trans ?_ (((client_fset _ (clientStatus_past c) _).trans (mibAdd_client _ _ _ _)).trans (linkEvent_client _ _ _))
  refine .trans ?_ (withPorts _ rfl)
  split
  · refine ite ?_ (refl s)
    have hcut := (withPorts s (x := { s.ports with rx := Assoc.erase s.ports.rx (128 + c) }) rfl).trans (mibAdd_client _ c 6 1)
    split
    · exact hcut.trans (failFrame _ _)
    · exact hcut
  · exact refl s

theorem cancelLower (c : Nat) : s.GroupsKept (s.cancelLower c) := withPorts s rfl

theorem selector (c : Nat) : s.GroupsKept (s.selector c) := by
  have put : ∀ (t : State) n, s.GroupsKept t → s.GroupsKept (t.fset (Fld.FXE_CLIENT_STATUS_REQ c) n) := fun t n h =>
    h.trans (client_fset t (clientStatus_past c) n)
  have moves : ∀ path forSf, s.GroupsKept ((s.cancelLower c).selectPath c path forSf) := fun path forSf =>
    (cancelLower s c).trans (selectPath _ _ _ _)
  have hwtr := withPorts s (x := { s.ports with wtr := s.ports.wtr.filter (· != c) }) rfl
  unfold State.selector
  exact ite (put _ _ (moves _ _)) (ite (put _ _ (moves _ _)) (ite (put _ _ (moves _ _)) (ite (put _ _ (moves _ _))
    (ite (put _ _ (ite hwtr (hwtr.trans (selectPath _ _ _ _)))) (ite (put _ _ (refl s)) (put _ _ (refl s)))))))

theorem pathSf (c path : Nat) (sf : Bool) : s.GroupsKept (s.pathSf c path sf) := by
  have hset : s.GroupsKept (s.fset (if path = 0 then Fld.FXE_CLIENT_STATUS_SF_WORK c else Fld.FXE_CLIENT_STATUS_SF_PROT c) (b2n sf)) :=
    client_fset s (by split <;> exact clientStatus_past c) _
  unfold State.pathSf
  exact ite (ite (hset.trans (withPorts _ rfl)) hset) (hset.trans (withPorts _ rfl))

theorem goodChange_client (c : Nat) : s.GroupsKept (s.goodChange (128 + c)) := by
  unfold State.goodChange
  have hbefore := fun st => withPorts s (x := { s.ports with before := Assoc.insert s.ports.before (128 + c) st }) rfl
  exact ite (.trans (hbefore _) (setLinkState_client _ _ _)) (ite (setLinkState_client s _ _) (refl s))

theorem setSlots (c tx rx : Nat) : s.GroupsKept ((s.fset (Fld.FXE_CLIENT_STATUS_TX_SLOTS c) tx).fset (Fld.FXE_CLIENT_STATUS_RX_SLOTS c) rx) :=
  (client_fset s (f := Fld.FXE_CLIENT_STATUS_TX_SLOTS c) (clientStatus_past c) tx).trans (client_fset _ (clientStatus_past c) rx)

theorem refreshClient (c : Nat) : s.GroupsKept (s.refreshClient c) := by
  have hsel : ∀ t : State, s.GroupsKept t → s.GroupsKept (if t.clientProt c then t.selector c else t) := fun t h => ite (h.trans (selector t c)) h
  unfold State.refreshClient
  refine ite (refl s) (.trans (hsel _ (.trans ?_ (setSlots _ c _ _))) (goodChange_client _ c))
  exact (pathSf s c 0 _).trans (pathSf _ c 1 _)

end

end State.GroupsKept

end Sys2Proof.Machine
end
section
/-! SUPPORT. Overhead frames, the calendar switch and the declarations of a client (05 R162-R177). -/

namespace Sys2Proof.Machine
open Sys2Proof

/-! ### A refresh of a group keeps the groups and the pages in use -/

theorem groupReg_status {f : Nat} (hf : f < 32) : groupReg (Reg.FXE_GRP_STATUS f) := by
  simp only [groupReg, Reg.FXE_GRP_STATUS]
  omega

theorem groupStatus_ne_event (f g : Nat) : Reg.FXE_GRP_STATUS f ≠ Reg.FXE_GRP_EVENT g := by
  simp only [Reg.FXE_GRP_STATUS, Reg.FXE_GRP_EVENT]
  omega

theorem groupStatus_past (f : Nat) : Reg.ERR_VEC 512 ≤ Reg.FXE_GRP_STATUS f := by
  simp only [Reg.ERR_VEC, Reg.FXE_GRP_STATUS]
  omega

theorem State.refreshClients_groupsKept (s : State) (f : Nat) :
    s.GroupsKept ((List.range 16).foldl (fun t i => t.refreshClient (16 * (f / 2) + i)) s) :=
  State.GroupsKept.foldl (fun t i _ => State.GroupsKept.refreshClient t (16 * (f / 2) + i)) s

theorem State.refreshGroup_groups (s : State) (f : Nat) : (s.refreshGroup f).ports.groups = s.ports.groups := by
  unfold State.refreshGroup
  exact State.of_ite (P := fun t : State => t.ports.groups = s.ports.groups) rfl
    ((State.refreshClients_groupsKept _ f).groups.trans (congrArg PortsState.groups (s.fset_ports _ _)))

theorem State.refreshGroup_txPage (s : State) {f : Nat} (hf : f < 32) : (s.refreshGroup f).txPage f = s.txPage f := by
  unfold State.refreshGroup
  refine State.of_ite (P := fun t : State => t.txPage f = s.txPage f) rfl ?_
  have kept := (State.refreshClients_groupsKept (s.fset (Fld.FXE_GRP_STATUS_SF f) (b2n (s.groupSf f))) f).regs
    (Fld.FXE_GRP_STATUS_TX_PAGE f).reg (groupReg_status hf)
  dsimp only
  rw [State.txPage, State.fget, kept, ← State.fget]
  exact State.fget_fset_apart _ _ _ _ (by decide : 8 + 1 ≤ 32) (.inl (by decide : 0 + 1 ≤ 8))

/-! ### A calendar switch that is executed (R164-R166) -/

/-- One group of the switch takes its other page, and the instant and the event are shown. -/
def State.pageTaken (u : State) (g : Nat) : State :=
  let u1 := ((u.fset (Fld.FXE_GRP_STATUS_TX_PAGE g) (1 - u.txPage g)).fset (Fld.FXE_GRP_STATUS_CR_TX g) 0).fset
    (Fld.FXE_GRP_STATUS_SWITCHING g) 0
  (u1.setInstant (Fld.FXE_GRP_SW_NS_NS g) (Fld.FXE_GRP_SW_SEC_LO_SEC g) (Fld.FXE_GRP_SW_SEC_HI_SEC g) u1.nowNs).setEvent
    (Fld.FXE_GRP_EVENT_TX_SWITCHED g)

def State.calSwitched (u : State) (g : Nat) : State := (u.pageTaken g).refreshGroup g

theorem State.pageTaken_groups (u : State) (g : Nat) : (u.pageTaken g).ports.groups = u.ports.groups := by
  rw [State.pageTaken, State.setEvent_portsState, State.setInstant_ports, State.fset_ports, State.fset_ports, State.fset_ports]

theorem State.pageTaken_txPage (u : State) (g : Nat) : (u.pageTaken g).txPage g = 1 - u.txPage g := by
  have hns : Reg.FXE_GRP_STATUS g ≠ Reg.FXE_GRP_SW_NS g := by simp only [Reg.FXE_GRP_STATUS, Reg.FXE_GRP_SW_NS]; omega
  have hlo : Reg.FXE_GRP_STATUS g ≠ Reg.FXE_GRP_SW_SEC_LO g := by simp only [Reg.FXE_GRP_STATUS, Reg.FXE_GRP_SW_SEC_LO]; omega
  have hhi : Reg.FXE_GRP_STATUS g ≠ Reg.FXE_GRP_SW_SEC_HI g := by simp only [Reg.FXE_GRP_STATUS, Reg.FXE_GRP_SW_SEC_HI]; omega
  rw [State.pageTaken, State.txPage, State.setEvent_fget_other _ (by decide : 0 < 16) (groupStatus_past g) (groupStatus_ne_event g g),
    State.setInstant_fget_other hns hlo hhi,
    State.fget_fset_apart _ _ _ _ (by decide : 2 + 1 ≤ 32) (.inl (by decide : 0 + 1 ≤ 2)),
    State.fget_fset_apart _ _ _ _ (by decide : 3 + 1 ≤ 32) (.inl (by decide : 0 + 1 ≤ 3)),
    State.fget_fset_same _ _ _ (by decide : 0 + 1 ≤ 32)]
  exact Nat.mod_eq_of_lt (Nat.lt_succ_of_le (Nat.sub_le 1 _))

theorem State.calSwitched_groups (u : State) (g : Nat) : (u.calSwitched g).ports.groups = u.ports.groups :=
  (State.refreshGroup_groups _ g).trans (u.pageTaken_groups g)

theorem State.calSwitched_txPage (u : State) {g : Nat} (hg : g < 32) : (u.calSwitched g).txPage g = 1 - u.txPage g :=
  (State.refreshGroup_txPage _ hg).trans (u.pageTaken_txPage g)

/-- The switch of group `f` is withdrawn, and each of its groups takes its other page. -/
def State.switchDone (s : State) (f : Nat) (w : CalSwitch) : State :=
  (w.groups f).foldl State.calSwitched (s.setGroup f { s.group f with switch := none })

theorem State.switchDone_group (s : State) (f : Nat) (w : CalSwitch) : (s.switchDone f w).group f = { s.group f with switch := none } := by
  have kept : (s.switchDone f w).ports.groups = (s.setGroup f { s.group f with switch := none }).ports.groups :=
    List.foldlRecOn (motive := fun t : State => t.ports.groups = (s.setGroup f { s.group f with switch := none }).ports.groups) (w.groups f)
      State.calSwitched rfl fun t ht g _ => (t.calSwitched_groups g).trans ht
  rw [State.group, kept]
  exact State.setGroup_group_same s f _

theorem State.switchDone_txPage (s : State) {f : Nat} {w : CalSwitch} (hf : f < 32) (hw : w.pair = false) :
    (s.switchDone f w).txPage f = 1 - s.txPage f := by
  rw [State.switchDone, CalSwitch.groups, if_neg (by simp [hw])]
  exact State.calSwitched_txPage _ hf

theorem exec_calSwitchExecute {s : State} {f t : Nat} {w : CalSwitch} (h : (s.group f).switch = some w) (hca : w.caAt = some t) (hm : w.atM1 = true)
    (ht : t + 104770 ≤ s.nowNs) (hi : ∀ i, w.instant = some i → i ≤ s.nowNs) :
    exec (.calSwitchExecute f) s = .next ((s.switchDone f w).complete w.cmd 0x0A03 stOK
      (s.nowNs % 1000000000 + 2 ^ 32 * (s.nowNs / 1000000000 % 2 ^ 32))
      (s.nowNs / 1000000000 / 2 ^ 32 % 2 ^ 16 + 2 ^ 16 * (s.switchDone f w).txPage f)) := by
  have hlate : decide (s.nowNs < t + 104770) = false := decide_eq_false (Nat.not_lt.mpr ht)
  change execCalSwitchExecute f s = _
  rw [execCalSwitchExecute, h]
  dsimp only
  rw [hca]
  dsimp only
  rw [hm, hlate]
  cases hinst : w.instant with
  | none => exact if_neg (by simp)
  | some i => exact if_neg (by simp [hi i hinst])

/-! ### The frames sent -/

theorem State.foldl_emit_ports {α : Type} (s : State) (out : State → α → Out) (l : List α) :
    (l.foldl (fun t x => t.emit (out t x)) s).ports = s.ports :=
  List.foldlRecOn (motive := fun t : State => t.ports = s.ports) l _ rfl fun _ h _ _ => h

theorem State.foldl_emit_outs_length {α : Type} (s : State) (out : State → α → Out) (l : List α) :
    (l.foldl (fun t x => t.emit (out t x)) s).outs.length = s.outs.length + l.length := by
  induction l generalizing s with
  | nil => rfl
  | cons x l ih =>
    rw [List.foldl_cons, ih, List.length_cons, State.emit, List.length_append, List.length_singleton]
    omega

theorem State.setGroup_outs (s : State) (f : Nat) (g : FlexeGroup) : (s.setGroup f g).outs = s.outs := rfl
theorem State.setGroup_physByNum (s : State) (i : Nat) (g : FlexeGroup) (f : Nat) : (s.setGroup i g).physByNum f = s.physByNum f := rfl

/-- A frame between two calendar boundaries is sent on each PHY and changes nothing else. -/
theorem execOverheadFrameTransmit_between {s : State} {f index : Nat} (hen : s.groupEn f = true) (h0 : 0 < index) (hindex : index < 32)
    (hcr : (s.group f).crClear = false) : ∃ t : State, execOverheadFrameTransmit f index s = .next t ∧ t.regs = s.regs ∧ t.ports = s.ports ∧
      t.outs.length = s.outs.length + (s.physByNum f).length := by
  have hopen : ¬(s.groupEn f = false ∨ 32 ≤ index) := by simp [hen, hindex]
  rw [execOverheadFrameTransmit, if_neg hopen]
  dsimp only
  rw [hcr, if_neg Bool.false_ne_true, if_neg (Nat.ne_of_gt h0)]
  exact ⟨_, rfl, State.foldl_emit_regs .., State.foldl_emit_ports .., State.foldl_emit_outs_length ..⟩

/-- At a boundary with no switch waiting the calendar sent is the one in force. -/
theorem execOverheadFrameTransmit_boundary {s : State} {f : Nat} (hen : s.groupEn f = true) (hswitch : (s.group f).switch = none)
    (hcr : (s.group f).crClear = false) : ∃ t : State, execOverheadFrameTransmit f 0 s = .next t ∧
      (t.group f).txSnap = (s.group f).txCal ∧ t.outs.length = s.outs.length + (s.physByNum f).length := by
  have hopen : ¬(s.groupEn f = false ∨ 32 ≤ 0) := by simp [hen]
  rw [execOverheadFrameTransmit, if_neg hopen]
  dsimp only
  rw [hcr, if_neg Bool.false_ne_true, if_pos rfl, hswitch]
  refine ⟨_, rfl, ?_, ?_⟩
  · rw [State.group_of_ports (State.foldl_emit_ports ..), State.setGroup_group_same]
  · rw [State.foldl_emit_outs_length, State.setGroup_outs, State.setGroup_physByNum]

/-! ### The page received -/

theorem majorityC_le (c : Nat) : majorityC c < 2 := by
  unfold majorityC
  split <;> decide

/-- The page that the majority of the C bits names is the page in use. -/
def State.pageReceived (s : State) (f page : Nat) : State :=
  if page ≠ s.rxPage f then (s.fset (Fld.FXE_GRP_STATUS_RX_PAGE f) page).setEvent (Fld.FXE_GRP_EVENT_RX_SWITCHED f) else s

theorem State.pageReceived_rxPage (s : State) (f : Nat) {page : Nat} (hp : page < 2) : (s.pageReceived f page).rxPage f = page := by
  unfold State.pageReceived
  split
  next hne =>
    rw [State.rxPage, State.setEvent_fget_other _ (by decide : 1 < 16) (groupStatus_past f) (groupStatus_ne_event f f),
      State.fget_fset_same _ _ _ (by decide : 1 + 1 ≤ 32)]
    exact Nat.mod_eq_of_lt hp
  next he => exact (Classical.not_not.mp he).symm

/-! ### The state of a client -/

variable {c : Nat}

theorem State.clientLink (s : State) (c : Nat) : s.linkState (128 + c) = s.fget (Fld.FXE_CLIENT_STATUS_STATE c) := by
  rw [State.linkState, if_neg (by omega), Nat.add_sub_cancel_left, State.clientState]

theorem State.setLinkState_client (s : State) {st : Nat} (hst : st < 8) : (s.setLinkState (128 + c) st).linkState (128 + c) = st := by
  rw [State.clientLink, State.setLinkState, if_neg (by omega), Nat.add_sub_cancel_left, State.fget_fset_same _ _ _ (by decide : 0 + 3 ≤ 32)]
  exact Nat.mod_eq_of_lt hst

theorem State.linkEvent_client (s : State) {bit : Nat} (hb : bit < 16) : (s.linkEvent (128 + c) bit).linkState (128 + c) = s.linkState (128 + c) := by
  rw [State.clientLink, State.clientLink, State.linkEvent, if_neg (by omega), Nat.add_sub_cancel_left]
  refine State.setEvent_fget_other s hb (Nat.le_trans (by decide) (clientStatus_past c)) ?_
  simp only [Fld.FXE_CLIENT_STATUS_STATE, Reg.FXE_CLIENT_STATUS, Reg.FXE_CLIENT_EVENT]
  omega

theorem State.declareUp_client {s : State} (h3 : s.linkState (128 + c) = 3) (hgood : s.linkGood (128 + c) = true) (hcal : s.calHolds (128 + c) = false) :
    (s.declareUp (128 + c)).linkState (128 + c) = 4 := by
  unfold State.declareUp
  dsimp only
  rw [if_neg (by simp [h3, hgood, hcal]), if_neg (by omega)]
  split
  · rw [State.linkState_congr (State.mibAdd_regs _ _ _ (by decide)), State.setKeep_linkState, State.withPorts_linkState,
      State.linkEvent_client _ (by decide), State.setLinkState_client _ (by decide)]
  · rw [State.setKeep_linkState, State.withPorts_linkState, State.linkEvent_client _ (by decide), State.setLinkState_client _ (by decide)]

/-- A client that is served and no longer good goes down at once where no hold-off is set. -/
theorem State.declareDown_client {s : State} (hs : s.linkServed (128 + c) = true) (hg : s.linkGood (128 + c) = false)
    (hh : ((s.leaveUp (128 + c)).linkEvent (128 + c) 1).holdoffMs (128 + c) = 0) :
    s.declareDown (128 + c) = (((s.leaveUp (128 + c)).linkEvent (128 + c) 1).setLinkState (128 + c) 2).downAction (128 + c) := by
  have hport : ¬128 + c < 128 := by omega
  unfold State.declareDown
  dsimp only
  rw [if_neg (by simp [hs, hg]), if_neg hport]
  exact if_pos hh

end Sys2Proof.Machine
end
section
/-! CERTIFICATES. The events of FlexE (O47). -/

namespace Sys2Proof.Machine
open Sys2Proof

/-- Settles O47: each event has one branch under the clause's conditions; a refresh of the clients keeps the groups and the pages in use. -/
theorem flexeEventsTakeEffect : Obligations.FlexeEventsTakeEffect := by
  unfold Obligations.FlexeEventsTakeEffect
  intro s
  refine ⟨fun port inst o f hport hphy hgroup hinst => ?receive, fun f index hen h0 hi hcr => execOverheadFrameTransmit_between hen h0 hi hcr,
    fun f hen hsw hcr => execOverheadFrameTransmit_boundary hen hsw hcr, fun port d hport hd hphy => ?defect,
    fun f channel bytes hen hroom => ?mgmt, fun f channel bytes hen hfull => ?mgmtFull, fun f w t hf hw hca hm ht hi => ?switch,
    fun f w _ hw => ?timeout, fun c hs hg hh => congrArg Host.Outcome.next (State.declareDown_client hs hg hh),
    fun c _ h3 hg hc => ⟨rfl, State.declareUp_client h3 hg hc⟩, fun c path hc hp hprot hsf => ?holdoff, fun c hw => if_pos hw⟩
  case receive =>
    have hg : (if port < 128 ∧ s.isFlexePhy port = true then s.groupOfPort port else none) = some f := (if_pos ⟨hport, hphy⟩).trans hgroup
    change (_ → execOverheadFrameReceive port inst o s = _) ∧ (_ → ∃ t : State, execOverheadFrameReceive port inst o s = _ ∧ _)
    rw [execOverheadFrameReceive, hg]
    dsimp only
    rw [if_neg (Nat.not_le.mpr hinst)]
    refine ⟨fun hlost => if_pos hlost, fun hlocked => ?_⟩
    rw [if_neg (by rw [hlocked]; decide)]
    exact ⟨State.pageReceived _ f (majorityC o.c), rfl, State.pageReceived_rxPage _ f (majorityC_le o.c)⟩
  case defect =>
    intro raw hne
    refine if_neg (not_or.mpr ⟨Nat.not_le.mpr hport, not_or.mpr ⟨Nat.not_le.mpr hd, not_or.mpr ⟨?_, hne⟩⟩⟩)
    simp [hphy]
  case mgmt => exact (if_neg (by simp [hen])).trans (if_neg (Nat.not_le.mpr hroom))
  case mgmtFull => exact (if_neg (by simp [hen])).trans (if_pos hfull)
  case switch =>
    have hgroup := s.switchDone_group f w
    exact ⟨_, exec_calSwitchExecute hw hca hm ht hi, congrArg FlexeGroup.switch hgroup, (congrArg FlexeGroup.txCal hgroup).trans rfl,
      fun hp => s.switchDone_txPage hf hp⟩
  case timeout =>
    have abandoned := s.switchAbandoned_groups f w
    exact ⟨_, exec_calSwitchTimeout hw, abandoned.switch, abandoned.txCal, abandoned.txPage⟩
  case holdoff => exact if_neg (not_or.mpr ⟨Nat.not_le.mpr hc, not_or.mpr ⟨Nat.not_le.mpr hp, by simp [hsf, hprot]⟩⟩)

end Sys2Proof.Machine
end
